-- ==== Sys2Proof/Word.lean ====
section
/-! DEFINITION. The machine's bytes. Everything wider is a Nat or an Int with its width stated where it is used. -/

namespace Sys2Proof

/-- One byte, the smallest unit of a message and of the module's memory (R10, R257). -/
abbrev Byte := BitVec 8

/-- A run of bytes in the order in which they are sent or stored. -/
abbrev Bytes := List Byte

end Sys2Proof
end

