-- ==== Sys2Proof/Syntax.lean ====
section
/-! DEFINITION. The commands of spec/opcode_table.json, one constructor per row, and their operands. An operand that is no
value of the manual's own (a measurement, an outcome of the world outside) is what the environment brings with the command
(log entry 6). -/

namespace Sys2Proof

/-! ### KOA messages (Object Dictionary and Kwatradel Object Access) -/

/-- The sender of a message, the port it came in on and the module's address it came to (R35): ports 0 to 3 are the 200GBASE ports, 4 the
1000BASE-T management port, and 5 the service port, to which the manual gives no number (DESIGN CHOICE, log entry 80). `own` has 16 bytes, an
IPv4 address mapped into them; on the service port it says nothing. -/
structure Peer where
  port : Nat
  v6 : Bool
  addr : Nat
  udp : Nat
  own : Bytes := []
  deriving DecidableEq, Repr

/-- The header of a KOA message as it arrived (R37) and its tag; the message type is the command's own. `busy` says that
core 0 is still at work when the message arrives, so that a request waits among the outstanding ones (R46). -/
structure KoaHdr where
  peer : Peer
  proto : Nat
  version : Nat
  flags : Nat
  session : Nat
  counter : Nat
  tag : Nat
  plen : Nat
  reserved : Nat
  mac : Bytes
  busy : Bool
  deriving DecidableEq, Repr

/-- A KOA message: its header and its payload bytes. -/
structure KoaMsg where
  hdr : KoaHdr
  payload : Bytes
  deriving DecidableEq, Repr

/-- A WRITE of an object that the command's row fixes: the header, and the type code and value bytes of the payload. -/
structure WriteReq where
  hdr : KoaHdr
  ty : Nat
  value : Bytes
  deriving DecidableEq, Repr

/-- What the check of R535 finds of a firmware image that arrived: its signature and header valid, and its version. -/
structure ImageVerdict where
  valid : Bool
  version : Nat
  deriving DecidableEq, Repr

/-! ### Network time (Network Time and Sync Outputs) -/

/-- A PTP Sync of a domain instance (0 for A, 1 for B): its sequence number, whether it is two-step, the origin time and the
sum of the correction fields where it carries them, what the port's stamp point read at its receipt, the log of the Sync interval, whether it
comes from the domain's selected timeTransmitter, its domain number, and whether it came over UDP and IPv4 or in an Ethernet frame of its own (R412).
Times are in 2⁻¹⁶ ns. -/
structure PtpSync where
  d : Nat
  seq : Nat
  twoStep : Bool
  origin : Nat
  correction : Int
  rx : Nat
  interval : Int
  selected : Bool
  number : Nat
  udp : Bool
  deriving DecidableEq, Repr

/-- A PTP Announce, with the outcome of best timeTransmitter selection after it (R412; log entry 104): the grandmaster identity selected, if
any; with its domain number and transport. -/
structure PtpAnnounce where
  d : Nat
  best : Option Nat
  utcOffset : Int
  interval : Int
  number : Nat
  udp : Bool
  deriving DecidableEq, Repr

/-! ### DRAM (Memory Controller and DRAM) -/

/-- Who read an uncorrectable codeword, as the table of R273 tells sources apart. -/
inductive ReadSource where
  /-- A core, in the firmware region; whether the mirror is good. -/
  | firmware (core : Nat) (mirrorGood : Bool) (code : Bool)
  /-- The ladle, for the pour of a panel position and a version. -/
  | ladle (pos version : Nat)
  /-- A decode engine on its present block. -/
  | decodeEngine (e : Nat)
  /-- The emitter pipeline at a panel position: a gain word or a stress word. -/
  | gain (pos : Nat)
  | stress (pos : Nat)
  | hostJob (j : Nat)
  | drawing (channel done : Nat)
  | regionUpdate (j : Nat)
  | gainUpdate (j : Nat)
  | clipPlayback (layer : Nat)
  | koaRead (session : Nat)
  /-- Any other source of R261 (slate engine, ingress, preview, self-test, copy-in). -/
  | other (source : Nat)
  deriving DecidableEq, Repr

/-- What a channel's accesses since its last scrub came to (R271, R278): the codewords and the transfers that were corrected, and whether the
channel gave no response to 16 consecutive commands. -/
structure ScrubReport where
  codewords : Nat := 0
  links : Nat := 0
  silent : Bool := false
  deriving DecidableEq, Repr

/-! ### Tile-link lanes (Tile Link Lanes) -/

/-- A PAM4 level of a symbol on a lane (R287): −3, −1, +1, +3. -/
inductive Level where
  | minus3
  | minus1
  | plus1
  | plus3
  deriving DecidableEq, Repr


/-! ### Tiles (Tile Link Protocol and Tile Population) -/

/-- An ENUM_REPLY of a tile (R314, R324): the port it arrived on (0 on the A-lane, 1 on the B-lane), the hop count, and whether it is
the last reply of its enumeration round. -/
structure EnumReply where
  c : Nat
  fromB : Bool
  hop : Nat
  serial : Nat
  hwRev : Nat
  firmware : Nat
  gainInFlash : Bool
  checkpointInFlash : Bool
  last : Bool
  deriving DecidableEq, Repr

/-- A segment that a tile sends in answer to FLASH_READ (R315, R317, R351): chain and position, the fields of its SEG_START (`length` in data
blocks), and the data blocks that follow it on the lane, as far as the next SEG_START; `none` is an erasure among them. -/
structure TileSeg where
  c : Nat
  pos : Nat
  kind : Nat
  seq : Nat
  length : Nat
  locator : Nat
  crc : Nat
  blocks : List (Option (BitVec 128))
  deriving DecidableEq, Repr

/-! ### The drawing engine (Two-Dimensional Drawing Engine) -/

/-- A drawing operation (R240, R252, R254): 0 COPY, 1 FILL, 2 GLYPH, 3 invalid; the element size in bytes, 0 for an invalid code; DIR_X,
DIR_Y and BG_TRANSPARENT; the operands with their pitches; width, height, colours and bit offset. -/
structure DrawOp where
  op : Nat := 0
  size : Nat := 6
  dirX : Bool := false
  dirY : Bool := false
  clear : Bool := false
  src : Nat := 0
  spitch : Nat := 0
  dst : Nat := 0
  dpitch : Nat := 0
  w : Nat := 1
  h : Nat := 1
  fg : Nat := 0
  bg : Nat := 0
  boff : Nat := 0
  deriving DecidableEq, Repr

/-- Who starts a drawing operation (R239): host software by its WRITE on channel 0, or firmware on channel 1, whose registers the dictionary does
not hold. -/
inductive DrawStart where
  | host (w : WriteReq)
  | firmware (o : DrawOp)
  deriving DecidableEq, Repr


/-! ### Network ports (Network Ports and Traffic Control) -/

/-- A frame that a port receives (R385): whether its FCS checks, its bytes from the destination MAC address on without the FCS, the
time that the port's stamp point read in 2⁻¹⁶ ns, and the bytes the reassembly buffer holds when it arrives (R393). -/
structure EthFrame where
  p : Nat
  fcsOk : Bool
  data : Bytes
  stamp : Nat
  held : Nat
  deriving DecidableEq, Repr

/-- A transmit descriptor with its frame (R388): egress class, TS_REQ, ONE_STEP with the insert offset, the buffer address and the frame's
bytes from the destination MAC address on without the FCS. -/
structure TxPost where
  p : Nat
  cls : Nat
  stampAsked : Bool
  oneStep : Bool
  offset : Nat
  buffer : Nat
  data : Bytes
  deriving DecidableEq, Repr

/-! ### Self-test (Self-Test, Spares and Error Injection) -/

/-- A miscompare that a slice, a test or shakeout finds (R506, R513): memory class, instance, macro (0xFFFF in DRAM), byte address and
bit. -/
structure Miscompare where
  cls : Nat
  inst : Nat
  macro_ : Nat
  addr : Nat
  bit_ : Nat
  deriving DecidableEq, Repr

/-! ### Start-up (Start-Up, Shut-Down and Fault Handling) -/

/-- What the start sequence meets (R440, R533): whether the riser charged from below 300 V and its measured capacitance in µF (step 1), and
the channels that fail training with the steps of R277 at which their attempts failed, from 0 (step 4); the instances, by 1024·item + number,
whose newest calibration copy has a wrong CRC-32C, and whether the older has too (step 6, R497). -/
structure StartInput where
  riserLow : Bool
  riserUf : Nat
  failed : List (Nat × List Nat)
  copies : List (Nat × Bool)
  deriving DecidableEq, Repr


/-- The commands of the block. -/
inductive Instr where
  /-- HELLO (R39). -/
  | hello (m : KoaMsg)
  /-- PROOF (R41). -/
  | proof (m : KoaMsg)
  /-- CLOSE (R43). -/
  | close (m : KoaMsg)
  /-- READ (R46). -/
  | read (m : KoaMsg)
  /-- WRITE (R48). -/
  | write (m : KoaMsg)
  /-- SEG_OPEN (R51). -/
  | segOpen (m : KoaMsg)
  /-- SEG_DATA (R52). -/
  | segData (m : KoaMsg) (image : ImageVerdict)
  /-- SEG_ACK (R52). -/
  | segAck (m : KoaMsg)
  /-- SEG_CANCEL (R52). -/
  | segCancel (m : KoaMsg)
  /-- EVENT_ACK (R61). -/
  | eventAck (m : KoaMsg)
  /-- SESSION_IDLE_TIMEOUT (R43). -/
  | sessionIdleTimeout (session : Nat)
  /-- HANDSHAKE_TIMEOUT (R41). -/
  | handshakeTimeout (session : Nat)
  /-- SEGMENT_RETRANSMISSION_TIMEOUT (R52). -/
  | segmentRetransmissionTimeout (session : Nat)
  /-- SEGMENTED_TRANSFER_STALL (R52). -/
  | segmentedTransferStall (session : Nat)
  /-- EVENT_RETRANSMISSION_TIMEOUT (R61). -/
  | eventRetransmissionTimeout (session : Nat) (sequence : Nat)
  /-- EVENT_SEND_RELEASE (R61). -/
  | eventSendRelease (session : Nat)
  /-- TAG_FAILURE_INTERVAL_END (R40). -/
  | tagFailureIntervalEnd
  /-- TRANSITION_REQUEST (R65). -/
  | transitionRequest (w : WriteReq)
  /-- KEY_WRITE (R71). -/
  | keyWrite (slot : Nat) (w : WriteReq)
  /-- KEY_ROLE_WRITE (R71). -/
  | keyRoleWrite (slot : Nat) (w : WriteReq)
  /-- JOURNAL_CLEAR (R73). -/
  | journalClear (w : WriteReq)
  /-- CYCLIC_MAP_ENABLE (R57). -/
  | cyclicMapEnable (map : Nat) (w : WriteReq)
  /-- IMAGE_FLASH_WRITTEN (R70). -/
  | imageFlashWritten
  /-- FRAME_TICK (R82). -/
  | frameTick (mismatch : Bool) (found : List (Nat × Nat))
  /-- SLOT_TICK (R75). -/
  | slotTick (slot : Nat) (averages : List Int)
  /-- LATE_CUT_OFF (R96). -/
  | lateCutOff
  /-- COMMIT_POINT (R98). -/
  | commitPoint
  /-- SCHEDULE_APPLY (R78). -/
  | scheduleApply (w : WriteReq)
  /-- SLOTS_REQUESTED_WRITE (R81). -/
  | slotsRequestedWrite (w : WriteReq)
  /-- PLANE_SET_COMPLETE (R89). -/
  | planeSetComplete (cl : Nat) (n : Nat)
  /-- HOGEL_ROW_RENDERED (R164). -/
  | hogelRowRendered (cl : Nat) (corrected : Nat)
  /-- SEGMENT_SENT (R87). -/
  | segmentSent (l : Nat)
  /-- FRAME_RECEIVED (R385). -/
  | frameReceived (f : EthFrame)
  /-- RTCP_BYE (R116). -/
  | rtcpBye (slot : Nat) (ssrc : Nat)
  /-- SOURCE_IDLE_TIMEOUT (R116). -/
  | sourceIdleTimeout (slot : Nat)
  /-- SLOT_ENABLE (R391). -/
  | slotEnable (w : WriteReq)
  /-- DECODE_START (R127). -/
  | decodeStart (k : Nat)
  /-- BLOCK_DECODED (R123). -/
  | blockDecoded (e : Nat) (engineWrong : Bool) (taker : Nat)
  /-- DESCRIPTOR_APPLY (R120). -/
  | descriptorApply (w : WriteReq)
  /-- UPLOAD_START (R129). -/
  | uploadStart (j : Nat) (w : WriteReq)
  /-- UPLOAD_RUN (R130). -/
  | uploadRun (j : Nat)
  /-- UPLOAD_FINISH (R131). -/
  | uploadFinish (j : Nat)
  /-- RECORD_START (R134). -/
  | recordStart (w : WriteReq)
  /-- RECORD_STOP (R134). -/
  | recordStop (w : WriteReq)
  /-- CLIP_DELETE (R138). -/
  | clipDelete (w : WriteReq)
  /-- CLUSTER_FAULT (R167). -/
  | clusterFault (cl : Nat) (cause : Nat)
  /-- POUR_WATCHDOG (R167). -/
  | pourWatchdog (cl : Nat)
  /-- WORK_SURFACE_PATCH_DEFERRED (R176). -/
  | workSurfacePatchDeferred (g : Nat)
  /-- REGION_UPDATE_START (R177). -/
  | regionUpdateStart (j : Nat) (w : WriteReq)
  /-- REGION_UPDATE_RUN (R178). -/
  | regionUpdateRun (j : Nat)
  /-- REGION_UPDATE_COMPLETE (R178). -/
  | regionUpdateComplete (j : Nat)
  /-- CAPTURE_START (R187). -/
  | captureStart (w : WriteReq)
  /-- CAPTURE_STOP (R189). -/
  | captureStop (w : WriteReq)
  /-- SIGNATURE_REGION_ENABLE (R190). -/
  | signatureRegionEnable (r : Nat) (w : WriteReq)
  /-- SIGNATURE_LEARN (R194). -/
  | signatureLearn (r : Nat) (w : WriteReq)
  /-- DECODE_ENGINE_FAULT (R226). -/
  | decodeEngineFault (e : Nat)
  /-- ENCODE_ENGINE_FAULT (R227). -/
  | encodeEngineFault (e : Nat)
  /-- BLOCK_ENCODED (R220). -/
  | blockEncoded (e : Nat) (mismatch : Bool)
  /-- HOST_JOB_START (R229). -/
  | hostJobStart (j : Nat) (w : WriteReq)
  /-- HOST_JOB_ABORT (R233). -/
  | hostJobAbort (j : Nat) (w : WriteReq) (tokens : Nat)
  /-- HOST_JOB_RUN (R230). -/
  | hostJobRun (j : Nat) (engine : Nat)
  /-- DRAW_START (R244). -/
  | drawStart (x : DrawStart)
  /-- DRAW_ABORT (R247). -/
  | drawAbort (w : WriteReq) (done : Nat)
  /-- DRAW_COMPLETE (R246). -/
  | drawComplete (ch : Nat) (next : Option DrawOp)
  /-- DRAW_HANG (R249). -/
  | drawHang (ch : Nat) (done : Nat)
  /-- REFRESH_DUE (R269). -/
  | refreshDue (channel : Nat) (rank : Nat) (burst : Bool) (postpone : Bool) (paid : Nat) (pulledIn : Nat)
  /-- MR4_POLL (R268). -/
  | mr4Poll (bands : List Nat)
  /-- UNCORRECTABLE_READ (R271). -/
  | uncorrectableRead (address : Nat) (source : ReadSource)
  /-- FENCE (R264). -/
  | fence (source : Nat)
  /-- FENCE_COMPLETE (R264). -/
  | fenceComplete (source : Nat)
  /-- IDLE_SELF_REFRESH (R275). -/
  | idleSelfRefresh (channel : Nat) (idle : Nat)
  /-- SELF_REFRESH_REQUEST (R276). -/
  | selfRefreshRequest (channel : Nat) (onBus : Bool) (drift : Int)
  /-- ZQ_CALIBRATION_TIMER (R277). -/
  | zqCalibrationTimer
  /-- OSCILLATOR_MEASUREMENT (R277). -/
  | oscillatorMeasurement (drifts : List Int)
  /-- TAKE_OVER_START (R279). -/
  | takeOverStart
  /-- RETIRE_REQUEST (R283). -/
  | retireRequest (w : WriteReq)
  /-- SPARE_TRAINED (R279). -/
  | spareTrained (failures : List Nat)
  /-- COPY_IN_COMPLETE (R279). -/
  | copyInComplete (poisoned : List Nat)
  /-- LANE_MODE_WRITE (R305). -/
  | laneModeWrite (l : Nat) (w : WriteReq)
  /-- BLOCK_RECEIVED (R291). -/
  | blockReceived (l : Nat) (header : Level) (line : List Level)
  /-- HUNT_ALARM (R293). -/
  | huntAlarm (l : Nat)
  /-- LANE_SLEEP (R299). -/
  | laneSleep (l : Nat) (count : Nat)
  /-- DEEP_IDLE_TIMEOUT (R298). -/
  | deepIdleTimeout (c : Nat)
  /-- LANE_SLEEP_SENT (R299). -/
  | laneSleepSent (l : Nat)
  /-- WAKE_RECOGNISED (R300). -/
  | wakeRecognised (l : Nat) (activity : Bool) (sleepLeft : Bool)
  /-- WAKE_PATTERN_DONE (R301). -/
  | wakePatternDone (l : Nat)
  /-- PLL_LOCKED (R301). -/
  | pllLocked (l : Nat)
  /-- CDR_LOCKED (R301). -/
  | cdrLocked (l : Nat)
  /-- DEEP_RESIDENCY_END (R302). -/
  | deepResidencyEnd (l : Nat)
  /-- PRBS_COUNTER_CLEAR (R306). -/
  | prbsCounterClear (l : Nat) (w : WriteReq)
  /-- LANE_INJECTION_START (R307). -/
  | laneInjectionStart (l : Nat) (w : WriteReq)
  /-- LANE_INJECTION_STOP (R307). -/
  | laneInjectionStop (l : Nat) (w : WriteReq)
  /-- LANE_INJECTION_PERIOD (R307). -/
  | laneInjectionPeriod (l : Nat)
  /-- TICK_SEND (R321). -/
  | tickSend (c : Nat) (h : Nat) (slot : Nat)
  /-- ACK (R318). -/
  | ack (c : Nat) (pos : Nat) (version : Nat) (kind : Nat) (tag : Nat) (seq : Nat)
  /-- NAK (R318). -/
  | nak (c : Nat) (pos : Nat) (version : Nat) (kind : Nat) (tag : Nat) (seq : Nat)
  /-- STATUS (R314). -/
  | status (c : Nat) (pos : Nat) (version : Nat) (frame : Nat) (temperature : Int) (flags : Nat)
  /-- ENUM_REPLY (R324). -/
  | enumReply (r : EnumReply)
  /-- DELAY_REPLY (R320). -/
  | delayReply (c : Nat) (pos : Nat) (id : Nat) (roundTrip : Nat)
  /-- FAULT (R330). -/
  | fault (c : Nat) (pos : Nat) (fromB : Bool) (code : Nat)
  /-- CONFIG_ACK (R327). -/
  | configAck (c : Nat) (pos : Nat) (reg : Nat) (value : Nat)
  /-- FLASH_DONE (R354). -/
  | flashDone (c : Nat) (pos : Nat) (kind : Nat) (status : Nat)
  /-- TILE_SEG_START (R351). -/
  | tileSegStart (seg : TileSeg)
  /-- SEGMENT_ACK_TIMEOUT (R318). -/
  | segmentAckTimeout (l : Nat) (pos : Nat) (version : Nat) (kind : Nat) (seq : Nat)
  /-- COMMIT_RESEND (R319). -/
  | commitResend (c : Nat) (pos : Nat)
  /-- COMMIT_DEADLINE (R319). -/
  | commitDeadline (c : Nat) (pos : Nat)
  /-- TILE_MAP_APPLY (R325). -/
  | tileMapApply (w : WriteReq)
  /-- REMOVAL_REQUEST (R327). -/
  | removalRequest (w : WriteReq)
  /-- LOST_TIME_EXPIRY (R327). -/
  | lostTimeExpiry (c : Nat) (pos : Nat)
  /-- B_SIDE_SILENT (R330). -/
  | bSideSilent (c : Nat)
  /-- UN_HEAL_DELAY_EXPIRY (R333). -/
  | unHealDelayExpiry (c : Nat)
  /-- UNHEAL (R333). -/
  | unheal (c : Nat)
  /-- COALESCING_WINDOW_CLOSE (R334). -/
  | coalescingWindowClose (c : Nat)
  /-- RE_PROBE_TIMER (R322). -/
  | reProbeTimer (c : Nat)
  /-- CHECKPOINT_REQUEST (R353). -/
  | checkpointRequest (w : WriteReq)
  /-- CHECKPOINT_ENCODED (R354). -/
  | checkpointEncoded (p : Nat)
  /-- FLASH_TIMEOUT (R355). -/
  | flashTimeout (c : Nat) (pos : Nat) (kind : Nat)
  /-- HISTORY_RETRY (R355). -/
  | historyRetry (c : Nat) (pos : Nat) (kind : Nat)
  /-- FLASH_READ_TIMEOUT (R351). -/
  | flashReadTimeout (c : Nat) (pos : Nat) (kind : Nat)
  /-- GAIN_UPDATE_START (R359). -/
  | gainUpdateStart (j : Nat) (w : WriteReq)
  /-- GAIN_UPDATE_RUN (R360). -/
  | gainUpdateRun (j : Nat)
  /-- GAIN_UPDATE_COMPLETE (R360). -/
  | gainUpdateComplete (j : Nat)
  /-- SETTLE_TIME_WRITE (R368). -/
  | settleTimeWrite (w : WriteReq)
  /-- COMMON_FAULT (R370). -/
  | commonFault (n : Nat) (cause : Nat)
  /-- COMMON_FAULT_CLEAR (R370). -/
  | commonFaultClear (n : Nat) (w : WriteReq)
  /-- SLATE_TICK (R372). -/
  | slateTick
  /-- QUENCH_COMMAND (R373). -/
  | quenchCommand (w : WriteReq)
  /-- QUENCH_RELEASE (R374). -/
  | quenchRelease (w : WriteReq)
  /-- METER_REFILL (R392). -/
  | meterRefill
  /-- TX_DESCRIPTOR_POSTED (R388). -/
  | txDescriptorPosted (t : TxPost)
  /-- FRAME_TRANSMITTED (R389). -/
  | frameTransmitted (p : Nat) (view : Nat) (packets : Nat)
  /-- GATE_ENTRY_END (R399). -/
  | gateEntryEnd (p : Nat)
  /-- GATE_LIST_APPLY (R401). -/
  | gateListApply (p : Nat) (w : WriteReq)
  /-- GATE_LIST_SWITCH (R401). -/
  | gateListSwitch (p : Nat)
  /-- LINK_UP (R403). -/
  | linkUp (p : Nat)
  /-- LINK_DOWN (R407). -/
  | linkDown (p : Nat)
  /-- QSFP_INSERTED (R382). -/
  | qsfpInserted (p : Nat) (kind : Nat) (temp : Int)
  /-- QSFP_REMOVED (R407). -/
  | qsfpRemoved (p : Nat)
  /-- SYNC (R414). -/
  | sync (x : PtpSync)
  /-- FOLLOW_UP (R414). -/
  | followUp (d : Nat) (seq : Nat) (origin : Nat) (correction : Int)
  /-- ANNOUNCE (R416). -/
  | announce (a : PtpAnnounce)
  /-- DELAY_RESP (R415). -/
  | delayResp (d : Nat) (seq : Nat) (rx : Nat) (correction : Int)
  /-- PDELAY_REQ (R413). -/
  | pdelayReq (d : Nat) (seq : Nat) (rx : Nat) (tx : Nat)
  /-- PDELAY_RESP (R415). -/
  | pdelayResp (d : Nat) (seq : Nat) (reqRx : Nat) (respTx : Nat) (rx : Nat) (correction : Int)
  /-- ANNOUNCE_RECEIPT_TIMEOUT (R416). -/
  | announceReceiptTimeout (d : Nat)
  /-- SYNC_LOSS (R416). -/
  | syncLoss (d : Nat)
  /-- FOLLOW_UP_WINDOW_EXPIRY (R414). -/
  | followUpWindowExpiry (d : Nat)
  /-- REVERT_DELAY_EXPIRY (R417). -/
  | revertDelayExpiry
  /-- TIME_SET (R420). -/
  | timeSet (w : WriteReq)
  /-- SELECTION_MODE_WRITE (R419). -/
  | selectionModeWrite (w : WriteReq)
  /-- SYNC_OUTPUT_APPLY (R429). -/
  | syncOutputApply (w : WriteReq)
  /-- SYNC_OUTPUT_EDGE (R427). -/
  | syncOutputEdge (o : Nat) (tick : Nat) (slot : Nat)
  /-- SYNC_INPUT_EDGE (R431). -/
  | syncInputEdge (input : Nat) (falling : Bool) (stamp : Nat)
  /-- LINE_HALF_CYCLE (R443). -/
  | lineHalfCycle (measured : Nat) (freq : Nat)
  /-- RISER_SAMPLE (R443). -/
  | riserSample (v : Nat)
  /-- STAGE_EVALUATION (R444). -/
  | stageEvaluation
  /-- ABRUPT_LOSS (R447). -/
  | abruptLoss (kind : Nat)
  /-- PHASE_FAULT (R448). -/
  | phaseFault (k : Nat) (cause : Nat)
  /-- STAGE_FLOOR_WRITE (R444). -/
  | stageFloorWrite (w : WriteReq)
  /-- RUN_REQUEST (R452). -/
  | runRequest (w : WriteReq)
  /-- SLATE_REQUEST (R453). -/
  | slateRequest (w : WriteReq)
  /-- SLEEP_REQUEST (R454). -/
  | sleepRequest (w : WriteReq)
  /-- OFF_REQUEST (R452). -/
  | offRequest (w : WriteReq)
  /-- WAKE (R456). -/
  | wake (source : Nat) (unit : Nat)
  /-- WAKE_PACKET (R458). -/
  | wakePacket (p : Nat) (data : Bytes)
  /-- SERVICE_PORT_ATTACH (R559). -/
  | servicePortAttach
  /-- AO_TIMER_EXPIRY (R457). -/
  | aoTimerExpiry
  /-- MAINS_RESTORED (R446). -/
  | mainsRestored
  /-- WAKE_ON_ACCESS_IDLE (R460). -/
  | wakeOnAccessIdle (ix : Nat)
  /-- INTERNAL_BUS_ERROR (R543). -/
  | internalBusError (core : Nat) (kind : Nat) (address : Nat)
  /-- SENSOR_CONVERSION (R467). -/
  | sensorConversion (n : Nat) (raw : Int) (error : Bool)
  /-- SENSOR_MISSING (R469). -/
  | sensorMissing (n : Nat)
  /-- FAN_CONTROL (R474). -/
  | fanControl (speeds : List Nat)
  /-- FAN_TACH_FAULT (R474). -/
  | fanTachFault (fan : Nat) (speed : Nat)
  /-- SENSOR_CLEAR (R469). -/
  | sensorClear (n : Nat) (w : WriteReq)
  /-- SENSOR_RELEASE (R470). -/
  | sensorRelease (n : Nat) (w : WriteReq)
  /-- HARDWARE_TRIP (R479). -/
  | hardwareTrip (n : Nat) (deferral : Nat)
  /-- CALIBRATION_START (R489). -/
  | calibrationStart (w : WriteReq)
  /-- CALIBRATION_ABORT (R494). -/
  | calibrationAbort (w : WriteReq)
  /-- CALIBRATION_ACCEPT (R496). -/
  | calibrationAccept (w : WriteReq)
  /-- CALIBRATION_REJECT (R495). -/
  | calibrationReject (w : WriteReq)
  /-- CALIBRATION_CHECKS_DONE (R492). -/
  | calibrationChecksDone (failed : Nat)
  /-- CALIBRATION_PASS_END (R493). -/
  | calibrationPassEnd (values : List Int) (lost : Bool)
  /-- CALIBRATION_GAP_END (R491). -/
  | calibrationGapEnd (failed : Nat)
  /-- CALIBRATION_TIMEOUT (R493). -/
  | calibrationTimeout
  /-- CALIBRATION_EXPIRY (R495). -/
  | calibrationExpiry
  /-- CALIBRATION_FLASH_WRITTEN (R497). -/
  | calibrationFlashWritten
  /-- CALIBRATION_SLOT_CLEAR (R498). -/
  | calibrationSlotClear (w : WriteReq)
  /-- TAP_STEP (R500). -/
  | tapStep (adapt : List (Nat × List Int)) (held : List Nat)
  /-- FETTLING_YIELD (R512). -/
  | fettlingYield (test : Bool) (region : Nat)
  /-- TEST_START (R517). -/
  | testStart (w : WriteReq)
  /-- TEST_ABORT (R519). -/
  | testAbort (w : WriteReq)
  /-- TEST_END (R518). -/
  | testEnd (elements : Nat) (signature : Nat) (found : List (Nat × Nat × Nat))
  /-- SHAKEOUT_END (R508). -/
  | shakeoutEnd (found : List Miscompare)
  /-- WINDOW_OPEN (R524). -/
  | windowOpen (w : WriteReq)
  /-- WINDOW_CLOSE (R524). -/
  | windowClose (w : WriteReq)
  /-- WINDOW_EXPIRY (R524). -/
  | windowExpiry
  /-- INJECTION_START (R523). -/
  | injectionStart (w : WriteReq)
  /-- INJECTION_STOP (R530). -/
  | injectionStop (w : WriteReq)
  /-- INJECTION_PERIOD (R530). -/
  | injectionPeriod
  /-- START (R533). -/
  | start (n : Nat) (x : StartInput)
  /-- CHECKPOINT_LIMIT (R539). -/
  | checkpointLimit
  /-- CORE_WATCHDOG_EXPIRY (R541). -/
  | coreWatchdogExpiry (core : Nat) (last : Nat)
  /-- MODULE_WATCHDOG_EXPIRY (R541). -/
  | moduleWatchdogExpiry (last : Nat)
  /-- CORE_RESTARTED (R542). -/
  | coreRestarted (core : Nat)
  /-- TRIAL_PERIOD_END (R536). -/
  | trialPeriodEnd
  /-- PATROL_SCRUB (R274). -/
  | patrolScrub (channel : Nat) (found : ScrubReport)
  /-- CHECKER_SYNC (R306). -/
  | checkerSync (l : Nat) (received : List Level)
  /-- DELAY_REQ (R413). -/
  | delayReq (d : Nat) (tx : Nat)
  /-- RX_DESCRIPTOR_POSTED (R386). -/
  | rxDescriptorPosted (p : Nat) (buffer : Nat)
  /-- LEDGER_UPDATE_PERIOD (R520). -/
  | ledgerUpdatePeriod
  /-- FETTLING_SLICE_PERIOD (R511). -/
  | fettlingSlicePeriod (found : List (Nat × Nat))
  /-- VALUES_IN_FORCE_PERIOD (R499). -/
  | valuesInForcePeriod
  /-- OUTPUT_SETTINGS_IN_EFFECT (R429). -/
  | outputSettingsInEffect
  /-- AO_ISLAND_POWER_LOSS (R426). -/
  | aoIslandPowerLoss
  deriving DecidableEq, Repr

end Sys2Proof
end

