-- ==== Sys2Proof/Decode.lean ====
section
/-! DEFINITION. The decoder of table words. The rows of spec/opcode_table.json carry no bits: a command reaches the block as a message, a
write or an event, which the commands' own operands hold. -/

namespace Sys2Proof

/-- The command that a word spells by the table's bits. No row gives bits, so no word spells a command. -/
def decodeTableWord (_nbits _w : Nat) : Option Instr := none

end Sys2Proof
end

