-- ==== Sys2Proof/Config.lean ====
section
/-! DEFINITION. What the manual leaves open: free values. Each is a constant with no body, so that no proof can see what it
is; a statement that mentions one holds for every value of it (log entry 7). -/

namespace Sys2Proof

/-- The starting point of the search for a fresh session ID (R39), for the n-th free value drawn. -/
opaque Config.sessionId : Nat → BitVec 32

/-- The module nonce of a CHALLENGE (R39), for the n-th free value drawn. -/
opaque Config.nonce : Nat → BitVec 128

/-- The unit class of the source of an event code (R60 leaves the list to the owning chapters, and none gives it). -/
opaque Config.unitClass : Nat → BitVec 8

/-- What a counter of the given width in bits reads once it has passed its largest value, where no rule says. -/
opaque Config.counterPast : Nat → Nat → BitVec 64

/-- Whether a lane's squelch detector saw activity and no wake pattern (R300), where the command that tells of the wake does not say it. -/
opaque Config.wakeKind : Nat → Bool

/-- The state of a transmit scrambler when the n-th recorded block meets it: how many IDLE blocks a lane sends between two blocks that
the model records is not counted (R289, R290). -/
opaque Config.scrambler : Nat → BitVec 58

/-- Which of a hogel's 64 emitters the DRIVE tap takes with one slot, where every emitter shows the one ray with its own gain (R143,
R181, R183 state none), for hogel column and row. -/
opaque Config.tapEmitter : Nat → Nat → BitVec 6

/-- The factory calibration's waveform tables (R363 gives no levels), byte by byte over tables 0 to 7. -/
opaque Config.factoryTable : Nat → BitVec 8

/-- The factory calibration sets (R498: per unit), value by value: key 1024·item + instance, and the value's place in its record. -/
opaque Config.factorySet : Nat → Nat → BitVec 16

/-- The expected signature of a logic test of kind 1 to 3, fixed by the firmware image (R517 gives no value). -/
opaque Config.logicSignature : Nat → BitVec 32

/-- The elements that a commanded test had done, and the signature so far, when the n-th free value is drawn because the test was cut
short (R518). -/
opaque Config.testElements : Nat → BitVec 64
opaque Config.testSignature : Nat → BitVec 32

/-- The flash sector that a write erases (R520, R521: the manual does not say which), for the n-th free value drawn. -/
opaque Config.flashSector : Nat → BitVec 32

/-- The bytes of a firmware image in flash (R535), by the number under which the boot record keeps them: the manual gives no image. -/
opaque Config.imageBytes : Nat → List (BitVec 8)

/-- The bytes that a duty puts in place of data that were lost in both copies (R543), by address, for the n-th free value drawn. -/
opaque Config.rebuiltByte : Nat → Nat → BitVec 8

/-- How many elements a drawing operation had processed when the n-th free value is drawn because a power state stopped it (R250). -/
opaque Config.drawDone : Nat → BitVec 32

/-- A domain's filtered rate against the time clock, minus 1, in 10⁻¹² (R415 states no filter), for the n-th free value drawn. -/
opaque Config.frequency : Nat → BitVec 32

/-- The correction that the servo adds to an increment, in 2⁻³² ns (R420 bounds it and states no law), for the n-th free value drawn. -/
opaque Config.servoCorrection : Nat → BitVec 64

/-- The offset that 0x4003 carries when no domain becomes active (R435), for the n-th free value drawn. -/
opaque Config.switchOffset : Nat → BitVec 64

/-- The cause that 0x2001 carries when the stage becomes shallower (R465), for the n-th free value drawn. -/
opaque Config.stageCause : Nat → BitVec 8

/-- The cause that 0x2010 carries when a watchdog, a thermal stop or R34 takes the module to P4 (R465), for the n-th free value drawn. -/
opaque Config.powerCause : Nat → BitVec 8

/-- How far above the shutdown threshold a reading of refresh band 5 lies (R268, R480), for the n-th free value drawn. -/
opaque Config.bandReading : Nat → BitVec 16

/-- The page of a channel that a DRAM calibration pass uses (R493), for the n-th free value drawn. -/
opaque Config.calPage : Nat → BitVec 32

/-- What an object reads whose value the manual does not give: a measurement of the outside (0x2000:04, :05, 0x2021+k:02), or 0x5000:0C while no
frame tick is to come; by its key, for the n-th free value drawn. -/
opaque Config.unstated : Nat → Nat → BitVec 64

/-- How many tokens a host job still takes before it stops at a token boundary, when a WRITE aborts it (R233), for the n-th free value drawn. -/
opaque Config.abortTokens : Nat → BitVec 32

/-- The core that checked in last, as 0x1006 carries it when a bus error escalates (R541, R543), for the n-th free value drawn. -/
opaque Config.lastCore : Nat → BitVec 8

/-- The MAC address that a next hop's address resolves to on a port (R383 names the protocols; what they find is outside the module). -/
opaque Config.neighbour : Nat → Nat → BitVec 48

/-- The fields of a preview packet's headers that the manual leaves open, for a packet's sequence number: 0 the source UDP port, 1 the
identification and 2 the type of service and time to live of IPv4, 3 the traffic class and hop limit, 4 and 5 the flow label of IPv6. -/
opaque Config.streamField : Nat → Nat → BitVec 16

/-- The status written back for a transmit frame whose buffer cannot be accessed (R257, R388), for the n-th free value drawn. -/
opaque Config.busStatus : Nat → BitVec 8

/-- The drift in taps that a channel's oscillator measurement finds on an exit from self-refresh that a power state asks for (R277), for the n-th
free value drawn. -/
opaque Config.dramDrift : Nat → BitVec 8

/-- The setting under test, by place in its record, that a calibration pass stands at while it runs or when it is cut (R493, R494), for the n-th
free value drawn. -/
opaque Config.tested : Nat → Nat → BitVec 16

/-- Whether the self-verify of a block that an abort cuts short finds a mismatch (R220, R233): no operand of the abort says it (log entry 98). -/
opaque Config.abortMismatch : Nat → Bool

/-- A byte of poisoned data (R271) where the manual gives its reader no effect (R273): by its address, for the n-th free value drawn. -/
opaque Config.poisonByte : Nat → Nat → BitVec 8

end Sys2Proof
end

