-- ==== Sys2Proof/Machine/Bytes.lean ====
section
/-! DEFINITION. Byte orders (R10), fields of a word (R8) the shared pixel operators (R13), and lists in order. -/

namespace Sys2Proof.Machine

/-- `n` bytes of `v`, most significant byte first: on-wire formats (R10). -/
def beBytes : Nat → Nat → Bytes
  | 0, _ => []
  | n + 1, v => BitVec.ofNat 8 (v / 256 ^ n) :: beBytes n v

/-- `n` bytes of `v`, least significant byte first: structures in module memory (R10). -/
def leBytes : Nat → Nat → Bytes
  | 0, _ => []
  | n + 1, v => BitVec.ofNat 8 v :: leBytes n (v / 256)

/-- The number a run of bytes spells, most significant byte first. -/
def ofBE (b : Bytes) : Nat := b.foldl (fun a x => a * 256 + x.toNat) 0

/-- The number a run of bytes spells, least significant byte first. -/
def ofLE : Bytes → Nat
  | [] => 0
  | x :: b => x.toNat + 256 * ofLE b

/-- `len` bytes from offset `off` on; a run that is too short gives fewer. -/
def slice (off len : Nat) (b : Bytes) : Bytes := (b.drop off).take len

/-- Bits `hi` down to `lo` of `v` (R8). -/
def field (v hi lo : Nat) : Nat := v / 2 ^ lo % 2 ^ (hi + 1 - lo)

/-- Bit `i` of `v` (R8). -/
def bitAt (v i : Nat) : Bool := v.testBit i

/-- The low `w` bits of `i`, as an unsigned number (two's complement, R11). -/
def toUnsigned (w : Nat) (i : Int) : Nat := (i % (2 ^ w : Nat)).toNat

/-- The two's complement reading of the low `w` bits of `n` (R11). -/
def toSigned (w n : Nat) : Int :=
  let r := n % 2 ^ w
  if r < 2 ^ (w - 1) then r else (r : Int) - (2 ^ w : Nat)

/-- 1 for true and 0 for false, the BOOL encoding (R62). -/
def bit (b : Bool) : Nat := if b then 1 else 0

/-- The integer of a truth value. -/
def bitI (b : Bool) : Int := if b then 1 else 0

/-- `div65535` of R13: the integer nearest to x / 65,535. -/
def div65535 (x : Nat) : Nat := ((x + 32768) + (x + 32768) / 65536) / 65536

/-- `mul16` of R13: the rounded product of two fractions of 65,535. -/
def mul16 (a b : Nat) : Nat := div65535 (a * b)

/-- `x16` of R13: 12 bits widened to 16. -/
def x16 (v12 : Nat) : Nat := v12 * 16 ||| v12 / 256

/-- The ceiling of `a / b`. -/
def ceilDiv (a b : Nat) : Nat := (a + b - 1) / b

/-- `[0, 1, …, n - 1]`. -/
abbrev upTo (n : Nat) : List Nat := List.range n

/-- Puts an element before the first one that it may stand before. -/
def insertBy {α : Type} (before : α → α → Bool) (x : α) : List α → List α
  | [] => [x]
  | y :: rest => if before x y then x :: y :: rest else y :: insertBy before x rest

/-- A list in order; equals keep theirs. -/
def sortBy {α : Type} (before : α → α → Bool) : List α → List α
  | [] => []
  | x :: rest => insertBy before x (sortBy before rest)

end Sys2Proof.Machine
end

