-- ==== Sys2Proof/Machine/Crypto.lean ====
section
/-! DEFINITION. SHA-256, HMAC-SHA-256 (R37, R39, R71) and the CRC-32C of R52, R53 and R218: the standard functions the
manual names, written out so that tags and check values are computed and not assumed. -/

namespace Sys2Proof.Machine

/-- The words of 32 bits that a number of 8 such words packs, the first in the highest place. -/
def unpack (x : Nat) : List Nat := (upTo 8).map (fun i => x >>> (224 - 32 * i) % 2 ^ 32)

/-- What SHA-256 starts from, packed. -/
def shaSeed : Nat := 0x6a09e667bb67ae853c6ef372a54ff53a510e527f9b05688c1f83d9ab5be0cd19

/-- The constants of the 64 rounds, eight to a number. -/
def shaRows : List Nat :=
  [0x428a2f9871374491b5c0fbcfe9b5dba53956c25b59f111f1923f82a4ab1c5ed5,
   0xd807aa9812835b01243185be550c7dc372be5d7480deb1fe9bdc06a7c19bf174,
   0xe49b69c1efbe47860fc19dc6240ca1cc2de92c6f4a7484aa5cb0a9dc76f988da,
   0x983e5152a831c66db00327c8bf597fc7c6e00bf3d5a7914706ca635114292967] ++
  [0x27b70a852e1b21384d2c6dfc53380d13650a7354766a0abb81c2c92e92722c85,
   0xa2bfe8a1a81a664bc24b8b70c76c51a3d192e819d6990624f40e3585106aa070,
   0x19a4c1161e376c082748774c34b0bcb5391c0cb34ed8aa4a5b9cca4f682e6ff3,
   0x748f82ee78a5636f84c878148cc7020890befffaa4506cebbef9a3f7c67178f2]

/-- The exclusive or of a word's rotations to the right. -/
def turns (places : List Nat) (x : Nat) : Nat :=
  places.foldl (fun r n => r ^^^ ((x * (2 ^ 32 + 1)) >>> n) % 2 ^ 32) 0

/-- The compression as two shift registers, newest word first: each round pushes one word into either, and reads no further back than four. -/
abbrev Registers := List Nat × List Nat

/-- A round: `x` is the sum of its constant and its message word. -/
def shaRound (r : Registers) (x : Nat) : Registers :=
  let left := r.1.getD 0 0
  let right := r.2.getD 0 0
  let either := r.2.getD 2 0 ^^^ (right &&& (r.2.getD 1 0 ^^^ r.2.getD 2 0))
  let most := (left &&& (r.1.getD 1 0 ||| r.1.getD 2 0)) ||| (r.1.getD 1 0 &&& r.1.getD 2 0)
  let push := r.2.getD 3 0 + turns [6, 11, 25] right + either + x
  ((push + turns [2, 13, 22] left + most) % 2 ^ 32 :: r.1.take 3, (r.1.getD 3 0 + push) % 2 ^ 32 :: r.2.take 3)

/-- The rounds with the constants `ks`, over a window of the 16 message words to come: each round takes the first and adds the word 16 places
on. -/
def shaRounds : List Nat → List Nat → Registers → Registers
  | [], _, r => r
  | k :: ks, w, r =>
    let early := w.getD 1 0
    let late := w.getD 14 0
    let mix := w.getD 0 0 + (turns [7, 18] early ^^^ early >>> 3) + w.getD 9 0 + (turns [17, 19] late ^^^ late >>> 10)
    shaRounds ks (w.drop 1 ++ [mix % 2 ^ 32]) (shaRound r (k + w.getD 0 0))

/-- The hash after one block of 16 words. -/
def shaBlock (hash : List Nat) (block : List Nat) : List Nat :=
  let r := shaRounds (shaRows.flatMap unpack) block (hash.take 4, hash.drop 4)
  (hash.zip (r.1 ++ r.2)).map (fun p => (p.1 + p.2) % 2 ^ 32)

/-- `n` words of 4 bytes each, most significant byte first. -/
def wordsBE (n : Nat) (b : Bytes) : List Nat := (upTo n).map (fun i => ofBE (slice (4 * i) 4 b))

/-- SHA-256's padding of a message. -/
def shaPad (b : Bytes) : Bytes :=
  b ++ [0x80] ++ List.replicate ((119 - b.length % 64) % 64) 0 ++ beBytes 8 (b.length * 8)

/-- SHA-256 of a message, 32 bytes. -/
def sha256 (b : Bytes) : Bytes :=
  let p := shaPad b
  ((upTo (p.length / 64)).foldl (fun hash i => shaBlock hash (wordsBE 16 (slice (64 * i) 64 p))) (unpack shaSeed)).flatMap (beBytes 4)

/-- HMAC-SHA-256 of a message under a key. -/
def hmac (key msg : Bytes) : Bytes :=
  let short := if 64 < key.length then sha256 key else key
  let pad (b : Byte) : Bytes := (upTo 64).map (fun i => short.getD i 0 ^^^ b)
  sha256 (pad 0x5c ++ sha256 (pad 0x36 ++ msg))

/-- One bit of a reflected CRC step with polynomial `p`. -/
def crcBit (p r : Nat) : Nat := if r % 2 = 1 then (r / 2) ^^^ p else r / 2

/-- One byte of a reflected CRC. -/
def crcByte (p r : Nat) (b : Byte) : Nat :=
  crcBit p (crcBit p (crcBit p (crcBit p (crcBit p (crcBit p (crcBit p (crcBit p (r ^^^ b.toNat))))))))

/-- CRC-32C of a run of bytes; 0 for none, as R52 has it. -/
def crc32c (b : Bytes) : Nat := (b.foldl (crcByte 0x82F63B78) 0xFFFFFFFF) ^^^ 0xFFFFFFFF

end Sys2Proof.Machine
end

