-- ==== Sys2Proof/Machine/State.lean ====
section
/-! DEFINITION. The state of the block: plain data, holding every register, buffer, queue, counter and mode the manual names.
The registers of the object dictionary stand in `Mach.od` and `Mach.strs` under their own index and sub-index. -/

namespace Sys2Proof.Machine

/-! ### What belongs to the unit and to the whole machine (00, 01) -/

/-- Per-unit constants, recorded at manufacture (R1, R69, R383). The manual fixes their encoding and not their
value: the values of `State.reset` are DESIGN CHOICE, log entry 3. -/
structure Unit where
  /-- Order code -X (true) or -S (false), R1. -/
  orderX : Bool := true
  serial : Bytes := List.replicate 12 0x30
  hwRev : Nat := 0
  mfgDate : Nat := 20000101
  /-- Station addresses of the five ports (R383). -/
  macs : List Nat := [0, 0, 0, 0, 0]
  deriving DecidableEq, Repr

/-- A write to the module's DRAM: an address and the bytes stored from it on (R257). -/
structure MemWrite where
  addr : Nat
  data : Bytes
  deriving DecidableEq, Repr

/-! ### KOA sessions and the event journal (02) -/

/-- The life-cycle state of the module (R65, R69). -/
inductive Life where
  | factory | provisioned | field | service | retired
  deriving DecidableEq, Repr

/-- One event record of the journal (R60). `detail` lists its fields as (size in bytes, value). The source's unit class is
`Config.unitClass`. -/
structure Rec where
  seq : Nat
  code : Nat
  flags : Nat
  time : Nat
  suppressed : Nat
  inst : Nat
  detail : List (Nat × Nat)
  deriving DecidableEq, Repr

/-- How often an event that the manual limits per second was raised of late (R61, R249, R336): the instants at which it was
written in the last second, and the reports folded since. -/
structure Rate where
  code : Nat
  inst : Nat
  at_ : List Nat
  folded : Nat
  deriving DecidableEq, Repr

/-- The event journal in MRAM (R60, R73): its records newest first, and the sequence of the newest ever written. -/
structure Journal where
  recs : List Rec := []
  newest : Nat := 0
  rates : List Rate := []
  deriving DecidableEq, Repr

/-- A response that the module keeps for a repeated request (R47): the request's tag, type and payload, and the answer. -/
structure Kept where
  tag : Nat
  ty : Nat
  payload : Bytes
  respTy : Nat
  resp : Bytes
  deriving DecidableEq, Repr

/-- The segmented transfer open in a session (R51, R52). For a write `data` is what has arrived in order and `next` the
segment expected; for a read `data` is the snapshot, `next` the segment acknowledged and `sent` how many were sent. `tag` is the request tag of its SEG_OPEN. -/
structure Xfer where
  ix : Nat
  sub : Nat
  write : Bool
  total : Nat
  crc : Nat
  data : Bytes
  next : Nat
  sent : Nat
  progress : Nat
  lastSend : Nat
  tag : Nat
  deriving DecidableEq, Repr

/-- An event queued for or sent to a session and not yet acknowledged (R61). -/
structure QEvent where
  record : Rec
  sent : Option Nat
  resends : Nat
  deriving DecidableEq, Repr

/-- A KOA session (R39 to R47, R52, R61) with its own-session objects (R63, R71, R73). -/
structure Session where
  id : Nat := 0
  slot : Nat := 0
  role : Nat := 3
  key : Bytes := []
  peer : Peer := { port := 5, v6 := false, addr := 0, udp := 0 }
  idle : Nat := 10000
  lastAt : Nat := 0
  rxHigh : Nat := 0
  rxSeen : List Nat := []
  tx : Nat := 0
  kept : List Kept := []
  xfer : Option Xfer := none
  own : List (Nat × Int) := []
  queue : List QEvent := []
  sends : List Nat := []
  deriving DecidableEq, Repr

/-- A handshake whose CHALLENGE was sent and whose PROOF is not yet accepted (R41). -/
structure Handshake where
  id : Nat
  slot : Nat
  key : Bytes
  peer : Peer
  idle : Nat
  at_ : Nat
  deriving DecidableEq, Repr

/-- A request accepted and not yet executed (R46): its session, its type, the message, and the reach that its command gives a work it ends. -/
structure Waiting where
  session : Nat
  ty : Nat
  msg : KoaMsg
  hint : Option Nat
  deriving DecidableEq, Repr

/-- The KOA server: the open sessions in the order of their opening, the pending handshakes oldest first, the access without
a session of R45 (`direct`), the tag failures of the present interval of 1 s (R40), and the outstanding requests in the order of their
acceptance (R46). -/
structure Koa where
  sessions : List Session := []
  shakes : List Handshake := []
  direct : Session := {}
  tagFails : Nat := 0
  tagSecond : Nat := 0
  imageWriting : Option Nat := none
  waiting : List Waiting := []
  deriving DecidableEq, Repr

/-! ### Network time and sync outputs (14) -/

/-- A two-step Sync that waits for its Follow_Up (R414): its number, its correction, its receive stamp and its instant. -/
structure PendingSync where
  seq : Nat
  correction : Int
  rx : Nat
  at_ : Nat
  deriving DecidableEq, Repr

/-- One of the domains A and B (R414 to R420), beside its objects 0x3010+d. -/
structure Domain where
  /-- Grandmaster identity selected by the BMCA. -/
  best : Option Nat := none
  /-- The last 16 valid offsets, newest first (R416). -/
  offsets : List Int := []
  /-- Consecutive Syncs with |o_d| at or below the lock threshold, above 4 times it, and above the step threshold. -/
  inLock : Nat := 0
  outLock : Nat := 0
  overStep : Nat := 0
  /-- Instant of the last path-delay measurement, and asCapable (R416). -/
  pathAt : Option Nat := none
  asCapable : Bool := false
  /-- Syncs that wait for their Follow_Up, oldest first. -/
  pending : List PendingSync := []
  /-- Instant since which the domain has been QUALIFIED (R417). -/
  qualifiedAt : Nat := 0
  /-- Origin time with corrections and receive stamp of the last Sync used, for the path delay. -/
  lastOrigin : Int := 0
  lastRx : Nat := 0
  lastSyncAt : Nat := 0
  lastAnnounceAt : Nat := 0
  announceInterval : Int := 0
  /-- The delay request on its way: its number and transmit stamp (R413). -/
  request : Option (Nat × Nat) := none
  seq : Nat := 0
  /-- The currentUtcOffset of its last Announce (0x3000:0F). -/
  utc : Int := 0
  deriving DecidableEq, Repr

/-- The settings of a sync output: 0x3110+o:01 to :0B (R427). -/
structure SyncSet where
  mode : Nat := 0
  polarity : Nat := 0
  offset : Int := 0
  width : Nat := 1000
  divider : Nat := 1
  slotStep : Nat := 1
  num : Nat := 1
  den : Nat := 1
  epoch : Nat := 0
  lockGate : Bool := false
  level : Nat := 0
  deriving DecidableEq, Repr

/-- A sync output (R427 to R430): its settings in force, whether its pulse is active, where the pulse ends, the last leading
edge, and the instant before which no leading edge falls. -/
structure SyncOut where
  set_ : SyncSet := {}
  active : Bool := false
  endsAt : Int := 0
  lastEdge : Option Int := none
  holdOff : Option Int := none
  deriving DecidableEq, Repr

/-- A sync input (R431): the stamp of its last edge, whether its phase was above the alarm, and its edge log, oldest first. -/
structure SyncIn where
  last : Option Nat := none
  alarmed : Bool := false
  log : List (Nat × Bool) := []
  deriving DecidableEq, Repr

/-- A frame tick that has come while the schedule was STARTING, RUNNING or RESTARTING up to T1, with its schedule and slot count: sync outputs
give pulses for its ticks, also later (R427, R430). -/
structure Ticked where
  h : Nat
  epoch : Nat
  num : Nat
  den : Nat
  slots : Nat
  deriving DecidableEq, Repr

/-- The PTP servo and the sync outputs and inputs. -/
structure Ptp where
  doms : List Domain := [{}, {}]
  /-- Increments written, with their instants, newest first (R420). -/
  incs : List (Nat × Nat) := []
  lastStep : Option Nat := none
  /-- Both domains disagree, and 0x4006 has been raised (R418). -/
  disagree : Bool := false
  /-- A has been the active domain, and in AUTO_REVERT B has taken over from it (R417). -/
  aWas : Bool := false
  bTook : Bool := false
  outs : List SyncOut := [{}, {}, {}, {}, {}, {}, {}, {}]
  ins : List SyncIn := [{}, {}]
  /-- The frame ticks of the last 2 s, newest first. -/
  ticks : List Ticked := []
  /-- The accepted settings that wait for their instant, and when they were accepted (R429). -/
  staged : Option (Nat × List SyncSet) := none
  deriving DecidableEq, Repr

/-! ### The time unit (14) -/

/-- The time unit and the AO counter. `reg` is the running register of R408 as one count of 2⁻³² ns. `mono` counts elapsed
time in 2⁻¹⁶ ns from reset on, whatever steps the time word makes: the model's own, for the timers of the manual.
`ao` counts AO periods and `aoPhase` the time since its last edge (R425). -/
structure Clk where
  reg : Nat := 0
  mono : Nat := 0
  /-- Time in P0 to P2 since the last start, and since manufacture, in 2⁻¹⁶ ns (0x1001:05, 0x1001:06). -/
  up : Nat := 0
  oper : Nat := 0
  /-- Time in P0 and P1 since the last start (R536). -/
  active : Nat := 0
  ao : Nat := 0
  aoPhase : Nat := 0
  /-- The time word, its uncertainty (none: unknown) and the AO count latched on entry to P3 or P4 (R425). -/
  latched : Option Nat := none
  latchedU : Option Nat := none
  aoAtLatch : Nat := 0
  /-- u0 of the present holdover in 2⁻¹⁶ ns (none: unknown) and its start on `mono` (R424). -/
  u0 : Option Nat := none
  holdAt : Nat := 0
  /-- The AO island has had no power since the last start, and event 0x400A is still to tell of it (R426). -/
  lost : Bool := true
  tellLost : Bool := true
  deriving DecidableEq, Repr

/-! ### DRAM (09) -/

/-- One rank of a channel (R268 to R270): the band its interval follows, the band its die last indicated, refreshes owed and
pulled in, the instant the last refresh was due. -/
structure Rank where
  band : Nat := 2
  nextBand : Nat := 2
  owed : Nat := 0
  pulled : Nat := 0
  dueAt : Nat := 0
  deriving DecidableEq, Repr

/-- A physical channel. `selfRefresh` is 0 active, 1 entering, 2 in self-refresh (R275, R276); `poison` lists the in-channel
offsets of poisoned 64-byte accesses (R271); `pages` the page-history counters that are not 1, by rank·16 + bank, with the row of
the last access (R266). -/
structure Channel where
  ranks : List Rank := [{}, { dueAt := 1953 * 65536 }]
  selfRefresh : Nat := 0
  poison : List Nat := []
  pages : List (Nat × Nat × Nat) := []
  scrub : Nat := 0
  clipScrub : Nat := 0
  /-- Training (R277): the steps that the latest attempt has passed, of five, and the values it started from. -/
  trained : Nat := 0
  taps : List Int := []
  /-- The WCK-to-DQ tap in force, where it moves to, and the tap held across self-refresh (R277). -/
  tap : Int := 0
  tapTarget : Int := 0
  tapHeld : Int := 0
  /-- Corrected codewords with their instants within the last 24 h (R521). -/
  corrected : List (Nat × Nat) := []
  deriving DecidableEq, Repr

/-- A take-over in progress (R279 to R281). `spare` is the spare channel, or none when the logical channel is re-homed. `phase`
is 1 training, 2 copy-in, 3 waiting for the verify heat, 4 verify heat, 5 waiting for the switch. -/
structure TakeOver where
  logical : Nat
  old : Nat
  spare : Option Nat
  cause : Nat
  dead : Bool
  phase : Nat
  restarts : Nat
  copied : Nat
  rate : Nat
  since : Nat
  deriving DecidableEq, Repr

/-- A logical channel replaced without a copy (R280): its fixed area reads as poison but for the accesses written whole since, by their in-channel
offset, and for the firmware region, rebuilt from its mirror. `mirror` tells the mirror's accesses that were good where the mirror was fresh itself. -/
structure Fresh where
  logical : Nat
  written : List Nat := []
  mirror : Option (List Nat) := none
  deriving DecidableEq, Repr

/-- The memory controller. -/
structure Dram where
  chans : List Channel := List.replicate 36 {}
  takeOver : Option TakeOver := none
  /-- Take-overs that wait, in the order they arose: logical channel and cause (R278). -/
  waiting : List (Nat × Nat) := []
  /-- Channels that failed their training twice, until the next ledger update (R32). -/
  failed : List Nat := []
  /-- Channels that have passed a threshold of R521, each told once (R522). -/
  passed : List Nat := []
  /-- Extents borrowed for a re-homed logical channel, in order of in-channel offset (R281). -/
  borrowed : List (Nat × List Nat) := []
  /-- Logical channels replaced without a copy (R280). -/
  fresh : List Fresh := []
  fences : List Nat := []
  zqAt : Nat := 0
  oscAt : Nat := 0
  mr4At : Nat := 0
  zqRuns : Nat := 0
  deriving DecidableEq, Repr

/-! ### The Gwyn codec (07) -/

/-- Where a host job stands: the fields of the resume record (R232). -/
structure JobPos where
  phase : Nat := 0
  sample : Nat := 0
  inBits : Nat := 0
  outBytes : Nat := 0
  origin : Nat := 0
  matchLeft : Nat := 0
  matchOffset : Nat := 0
  check : Nat := 0xFFFFFFFF
  header : Bytes := List.replicate 16 0
  dynamic : Bytes := List.replicate 7 0
  deriving DecidableEq, Repr

/-- A host job slot beside its objects: its descriptor as latched at the start (kind, input offset and length, output offset and
capacity, record offset, width, height, pitch, layer field), its position, and the counts its present run began with. -/
structure Job where
  kind : Nat := 0
  inOff : Nat := 0
  inLen : Nat := 0
  outOff : Nat := 0
  outCap : Nat := 0
  recOff : Nat := 0
  width : Nat := 0
  height : Nat := 0
  pitch : Nat := 0
  layer : Nat := 0
  pos : JobPos := {}
  inBase : Nat := 0
  outBase : Nat := 0
  deriving DecidableEq, Repr

/-- What a codec engine works on. -/
inductive EngineWork where
  | idle
  /-- A block of a layer's content in decode, by its place in the content's stream. -/
  | content (layer block : Nat)
  /-- The second decode of a block whose check value differed on engine `first` (R222). -/
  | again (layer block first : Nat)
  | job (j : Nat)
  | jobAgain (j first : Nat)
  /-- A block whose content is gone: an engine that has started a block finishes it (R224). -/
  | spent
  /-- Encode: a GWYN preview frame's block, or a checkpoint's block of a panel position. -/
  | preview (view block : Nat)
  | checkpoint (pos block : Nat)
  deriving DecidableEq, Repr

/-- The codec: host jobs, the order in which those not ended were started, the engines' work and the self-verify mismatches of the
last 60 s of each encode engine (R227). -/
structure Codec where
  jobs : List Job := [{}, {}, {}, {}, {}, {}, {}, {}]
  order : List Nat := []
  decode : List EngineWork := List.replicate 20 .idle
  encode : List EngineWork := List.replicate 4 .idle
  mismatches : List (List Nat) := [[], [], [], []]
  /-- The blocks that go first to another engine: second decodes, and the work of engines with a fault (R222, R226). -/
  redo : List EngineWork := []
  deriving DecidableEq, Repr

/-! ### Tile-link lanes (10) -/

/-- A segment on its way to a tile (R315, R316): position, version, kind (0 RAYS, 1 GAIN_MAP, 2 CHECKPOINT), heat, sequence
number, locator fields and data. `panel` is the panel position whose pour it belongs to. -/
structure Seg where
  pos : Nat
  version : Nat
  kind : Nat
  heat : Nat
  seq : Nat
  row : Nat
  band : Nat
  width : Nat
  piece : Nat
  panel : Nat
  data : Bytes
  deriving DecidableEq, Repr

/-- A control block of the lane and protocol layers, by its fields (R290, R314). -/
inductive Ktl where
  | idle
  | laneSleep (count : Nat)
  | tick (frame : Bool) (slot slots number lead ring : Nat)
  | commit (pos version heat : Nat)
  | withdraw (pos version heat : Nat)
  | blank (pos mode reason : Nat)
  | enumerate (hop dir seq : Nat)
  | route (first last port : Nat) (immediate : Bool) (frame : Nat)
  | delayProbe (pos id : Nat)
  | segStart (seg : Seg)
  | configWrite (pos reg value : Nat)
  | flashRead (pos kind : Nat)
  | flashCommit (pos kind length crc : Nat)
  | wake (pos : Nat)
  | ack (pos kind seq : Nat)
  | nak (pos kind seq cause : Nat)
  deriving DecidableEq, Repr

/-- The test-pattern checker of a lane (R306): received bits, newest first, as far as the pattern looks back; the run of bits
predicted without error; the ages of the errors of the last 1,024 compared bits. -/
structure Checker where
  hist : List Bool := []
  run : Nat := 0
  errors : List Nat := []
  deriving DecidableEq, Repr

/-- A lane (R285 to R307). Its TX and RX states are the objects 0x6010+l:03 and :04. -/
structure Lane where
  /-- Scrambler and descrambler states: the last 58 line bits, newest first (R289); when the last block that the scrambler has seen was sent. -/
  scrambler : List Bool := List.replicate 58 true
  descrambler : List Bool := List.replicate 58 true
  sentAt : Option Nat := none
  /-- The test pattern's generator: the last 31 bits sent, newest first (R305). -/
  pattern : List Bool := List.replicate 31 true
  /-- The candidate alignment (R291): the symbols that have arrived of the block to come, its candidate header first, and whether the next symbol
  is passed over by a slip. -/
  begun : List Level := []
  slip : Bool := false
  /-- Consecutive valid headers while HUNTING, and the headers of the last 64 blocks while LOCKED, newest first (R291). -/
  good : Nat := 0
  window : List Bool := []
  huntAt : Nat := 0
  /-- Lock was lost and not yet regained, and the hunt alarm was given (R293). -/
  lost : Bool := false
  alarmed : Bool := false
  /-- When the header errors of the last second came, newest first, and when 0x8003 was last raised (R293). -/
  errors : List Nat := []
  errorAlarm : Option Nat := none
  /-- Blocks since the last LANE_SLEEP block, while below 64 (R299). -/
  sleepAgo : Option Nat := none
  /-- When the TX began to enter the deep state, and when the TX or RX last became DEEP (R299, R302). -/
  entryAt : Nat := 0
  deepAt : Nat := 0
  pendingWake : Bool := false
  patternDone : Bool := false
  pllDone : Bool := false
  checker : Checker := {}
  /-- Armed injection kind, headers still to be treated as invalid, bit to invert (R307). -/
  armed : Nat := 0
  badHeaders : Nat := 0
  flip : Bool := false
  badTx : Bool := false
  injectAt : Nat := 0
  /-- The block that the last one received delivered to the protocol layer, control (true) or data with its payload; none where it delivered
none (R290, R292). -/
  delivered : Option (Bool × BitVec 128) := none
  /-- The last block received was an erasure (R292). -/
  erased : Bool := false
  /-- The segment of a tile whose data blocks are arriving (R317). -/
  arriving : Option TileSeg := none
  /-- Segments staged and not sent, sent and not acknowledged with the instant of the last block, and NAKed (R316 to R318). -/
  staged : List Seg := []
  /-- The pour in transmission: position and version (R87). -/
  cur : Option (Nat × Nat) := none
  unacked : List (Seg × Nat) := []
  naked : List Seg := []
  deriving DecidableEq, Repr

/-! ### Chains and tiles (11) -/

/-- A COMMIT or WITHDRAW that is not yet acknowledged (R319). -/
structure CommitSent where
  heat : Nat
  version : Nat
  withdraw : Bool
  sentAt : Nat
  deriving DecidableEq, Repr

/-- The load of an object of a tile's history from its flash (R351): the segments accepted by sequence number with their byte offset, when
FLASH_READ was sent while the read is active, whether the kind is settled, and the settled object that is not yet in module memory
(empty when there is none). -/
structure FlashLoad where
  segs : List (Nat × Nat × Bytes) := []
  since : Option Nat := none
  done : Bool := false
  held : Option Bytes := none
  deriving DecidableEq, Repr

/-- A tile position, beside the objects of 0x6181 (R320 to R327). Delays are in 2⁻¹⁶ ns. -/
structure Tile where
  delay : Nat := 0
  /-- The A-side C: the delay last measured from the A-lane (R333). -/
  cA : Option Nat := none
  probes : List Nat := []
  /-- When the probes of the measurement under way left (R320). -/
  probedAt : Nat := 0
  /-- Frames without STATUS, and whether one came since the last frame tick (R327). -/
  misses : Nat := 0
  heard : Bool := false
  lostAt : Nat := 0
  commits : List CommitSent := []
  gainLoad : FlashLoad := {}
  checkLoad : FlashLoad := {}
  gainInFlash : Bool := false
  checkInFlash : Bool := false
  /-- The map entry in force (0xFFFF none). -/
  entry : Nat := 0xFFFF
  /-- A removal waits for its final checkpoint (R327). -/
  leaving : Bool := false
  /-- A STATUS has come since the tile was enumerated. -/
  told : Bool := false
  /-- The band of its panel temperature, and whether a reading came since the last evaluation (R343). -/
  band : Nat := 3
  read : Bool := false
  deriving DecidableEq, Repr

/-- The coalescing window of a chain (R334): when it opened, reports folded, and COMMIT timeouts as (heat, position). -/
structure Window where
  openedAt : Nat
  reports : Nat
  timeouts : List (Nat × Nat)
  deriving DecidableEq, Repr

/-- Windows that open within 2 ms of the first of them (R335): its instant, their chains, those whose window is still open, and the reports
folded by the others. -/
structure Storm where
  since : Nat
  chains : List Nat
  waiting : List Nat
  folded : Nat
  deriving DecidableEq, Repr

/-- What is known of a break since its first report (R330): how many positions answer on the A-lane, the first that reports on the B-lane,
when the first report came, whether ENUM was sent from B, and the position whose missing acknowledgement is all that tells of it. -/
structure Break where
  aCount : Option Nat
  bFirst : Option Nat
  since : Nat
  asked : Bool
  silent : Option Nat
  deriving DecidableEq, Repr

/-- A chain (R311 to R335), beside its objects 0x6110+c. -/
structure Chain where
  tiles : List Tile := List.replicate 10 {}
  window : Option Window := none
  /-- The chain's state at its last root event, or where there was none yet at its first report (R334). -/
  rootState : Option Nat := none
  brk : Option Break := none
  /-- Where the chain is broken: how many positions the A-lane reaches, and the first position that the B-lane reaches; none where no
  break is known (R330 to R332). -/
  aReach : Option Nat := none
  bReach : Option Nat := none
  kind : Nat := 0
  wholeSince : Option Nat := none
  unhealReady : Bool := false
  unhealAt : Option Nat := none
  enumSeq : Nat := 0
  fromA : List Nat := []
  fromB : List Nat := []
  /-- Ring sequence of the last TICK and the instant it left; the ring delay at the last probe round (R322). -/
  ringSeq : Nat := 0
  tickSent : Option (Nat × Nat) := none
  ringAtProbe : Nat := 0
  ring : Nat := 0
  probeAt : Nat := 0
  emptySince : Nat := 0
  deriving DecidableEq, Repr

/-- What waits for core 2 while it restarts, to be dealt with in its order (R29, R542): reports and breaks of a chain, enumerations, and the blocks
of tiles that firmware answers. -/
inductive TileNews where
  | report (c : Nat)
  | late (c pos heat : Nat)
  | broken (c : Nat) (a k : Option Nat)
  | silent (c pos : Nat)
  | enumerate (c : Nat)
  | reply (r : EnumReply)
  | measured (c pos id roundTrip : Nat)
  | fault (c pos : Nat) (fromB : Bool) (code : Nat)
  | written (c pos reg value : Nat)
  | loaded (c pos kind status : Nat)
  deriving DecidableEq, Repr

/-- The tile population: 96 chains, and the groups of windows that may be storms, oldest first (R335). -/
structure Tiles where
  chains : List Chain := List.replicate 96 {}
  /-- Map entries accepted and waiting for the next heat start, by chain and position (R325). -/
  pendingMap : Option (List Nat) := none
  storms : List Storm := []
  /-- What waits for core 2 (R29). -/
  later : List TileNews := []
  deriving DecidableEq, Repr

/-! ### Scene input (04) -/

/-- The descriptor of a video layer (R118). Scales, offsets and the disparity are raw. -/
structure VDesc where
  enable : Bool := false
  mode : Nat := 0
  slot : Nat := 0xFFFF
  stream : Nat := 0
  width : Nat := 1920
  height : Nat := 1080
  scaleX : Nat := 0x10000
  scaleY : Nat := 0x10000
  offX : Int := 0
  offY : Int := 0
  disp : Int := 0
  order : Nat := 0
  clip : Nat := 0
  clipStart : Nat := 0
  playStart : Nat := 0
  loop : Bool := false
  deriving DecidableEq, Repr

/-- The descriptor of a graphic layer (R118). -/
structure GDesc where
  enable : Bool := false
  disp : Int := 0
  order : Nat := 64
  deriving DecidableEq, Repr

/-- Where a content comes from: a source slot, a clip (R110) or an upload job. -/
inductive Origin where
  | stream (slot stream : Nat)
  | clip (id : Nat)
  | upload (job : Nat)
  deriving DecidableEq, Repr

/-- A content that is not complete (R114): what identifies it, the runs of bytes received by offset (ingress staging), the blocks
decoded so far by stream offset, column and row, and the buffer that decode writes, once it has started (R127). -/
structure Content where
  origin : Origin
  heat : Nat
  span : Nat
  width : Nat
  height : Nat
  length : Nat
  runs : List (Nat × Bytes) := []
  blocks : List (Nat × Nat × Nat) := []
  buf : Option Nat := none
  /-- The stream offsets of blocks whose bytes an engine read as poison (R273). -/
  poison : List Nat := []
  /-- The runs of ingress staging that hold its stream in order, address and length (R115, R257); an upload's data lies in its upload buffer. -/
  place : List (Nat × Nat) := []
  deriving DecidableEq, Repr

/-- A complete content held in a layer buffer, with the bytes that it was received as. -/
structure Whole where
  heat : Nat
  span : Nat
  width : Nat
  height : Nat
  bytes : Nat
  /-- It was complete before the latest start of heats (R92). -/
  past : Bool := false
  deriving DecidableEq, Repr

/-- A video layer: its two buffers, the one with the newest complete content, the heats that hold each busy (R127), its pending
contents, and what has been told of it (R91, R92). -/
structure VLayer where
  bufs : List (Option Whole) := [none, none]
  newest : Option Nat := none
  busy : List (Nat × Nat) := []
  pending : List Content := []
  /-- Identities of complete (true) and abandoned contents whose heat is above F (R114): slot, stream layer, heat. -/
  known : List (Nat × Nat × Nat × Bool) := []
  history : Bool := false
  wasComplete : Bool := false
  toldHold : Bool := false
  toldNone : Bool := false
  /-- Clip playback (R135): the next frame to place, the loops done, and whether the end was reached. -/
  playFrame : Nat := 0
  playLoop : Nat := 0
  playDone : Bool := false
  deriving DecidableEq, Repr

/-- A frame of a clip (R136), its stream at an offset of the clip's bytes. -/
structure ClipFrame where
  offset : Nat
  span : Nat
  width : Nat
  height : Nat
  length : Nat
  at_ : Nat
  deriving DecidableEq, Repr

/-- A clip (R133): its frames, its extents in order and its size in bytes. -/
structure Clip where
  id : Nat
  frames : List ClipFrame
  extents : List Nat
  size : Nat
  deriving DecidableEq, Repr

/-- A clip recording (R134): its start heat; `next` says that this is the next heat to start, whatever its number comes to be. -/
structure Recording where
  clip : Nat
  layer : Nat
  start : Nat
  limit : Nat
  next : Bool := false
  deriving DecidableEq, Repr

/-- An upload job that is QUEUED or RUNNING (R128 to R130), as its start latched it (log entry 82): the job, its layer, its rectangle in
blocks and its upload buffer. -/
structure Upload where
  job : Nat
  layer : Nat
  col : Nat
  row : Nat
  cols : Nat
  rows : Nat
  buf : Nat
  deriving DecidableEq, Repr

/-- The scene: descriptors in force and scheduled (R120), layers, clips, upload jobs in start order. -/
structure Scene where
  vdesc : List VDesc := (List.range 64).map (fun k => { order := k })
  gdesc : List GDesc := (List.range 4).map (fun g => { order := 64 + g })
  staged : Option (Nat × List VDesc × List GDesc) := none
  layers : List VLayer := List.replicate 64 {}
  clips : List Clip := []
  recording : Option Recording := none
  /-- The upload jobs not ended, in start order. -/
  uploads : List Upload := []
  /-- Upload jobs COMPLETE and not yet visible, with their layer and heat (R131). -/
  shown : List (Nat × Nat × Nat) := []
  /-- Extents of the clip store lost with a channel (R137). -/
  lostExtents : List Nat := []
  /-- Source slots: the learned SSRC while joined, the last sequence number, and the instant of the last accepted packet. -/
  sources : List (Nat × Nat × Option Nat × Nat) := []
  /-- Staging-full drops by slot (R115): when event 0x700C was last raised, and the drops of the last second. -/
  full : List (Nat × Nat × List Nat) := []
  deriving DecidableEq, Repr


/-! ### Composition, outputs and signatures (06) -/

/-- A graphic layer (R175, R178): the display buffer (1 or 2) with the newest complete content, the heats that hold each busy, and its
QUEUED and RUNNING region updates in start order. -/
structure Graphic where
  newest : Nat := 1
  busy : List (Nat × Nat) := []
  order : List Nat := []
  deriving DecidableEq, Repr

/-- A work-surface patch held back by a RUNNING region update (R176), with the session, the peer, the request tag and the payload of the SEG_ACK that
follows it. -/
structure HeldPatch where
  layer : Nat
  data : Bytes
  session : Nat
  peer : Peer
  tag : Nat
  ack : Bytes
  deriving DecidableEq, Repr

/-- A region update as its start latched it: the layer and the rectangle (R177, R178). -/
structure RegionJob where
  layer : Nat := 0
  rect : Nat × Nat × Nat × Nat := (0, 0, 1920, 1080)
  deriving DecidableEq, Repr

/-- A preview view in transmission (R183 to R186): the frame assembled; the port on which a frame is being sent with its heat, where it goes, its packets that wait for
the port's class 3 queue, how many stand in that queue or in transmission, and whether the port went down under it; the RTP sequence
number of the next packet; the blocks of a GWYN frame encoded; the instants of the frames skipped in the last second, and when event
0x6025 was last raised. -/
structure View where
  frame : Option Nat := none
  sending : Option (Nat × Nat) := none
  address : Bytes := []
  udp : Nat := 0
  packets : List Bytes := []
  queued : Nat := 0
  cut : Bool := false
  sequence : Nat := 0
  blocks : List (Nat × Bytes) := []
  encoding : Bool := false
  skips : List Nat := []
  skipAt : Option Nat := none
  enabled : Bool := false
  deriving DecidableEq, Repr

/-- The capture job (R187 to R189): its settings as started, the first heat, the record written next, and the records by frame and tile
with their address and length. -/
structure Capture where
  col : Nat := 0
  row : Nat := 0
  cols : Nat := 1
  rows : Nat := 1
  frames : Nat := 1
  start : Nat := 0
  next : Nat := 0
  recs : List (Nat × Nat × Nat × Nat) := []
  deriving DecidableEq, Repr

/-- A channel of the drawing engine (R239, R244): the operation as its start latched it, and the instant of that start. -/
structure DrawChannel where
  op : DrawOp := {}
  since : Nat := 0
  deriving DecidableEq, Repr

/-- The observers and the graphic layers. -/
structure Outputs where
  graphics : List Graphic := [{}, {}, {}, {}]
  /-- Region updates COMPLETE and bound for a heat (R178). -/
  shown : List (Nat × Nat) := []
  /-- The region updates as started (R177). -/
  jobs : List RegionJob := List.replicate 8 {}
  /-- The drawing engine's two channels (R239). -/
  drawing : List DrawChannel := [{}, {}]
  held : List HeldPatch := []
  /-- The shedding stage that the observers follow, from the latest frame tick (R196). -/
  stage : Nat := 0
  views : List View := [{}, {}, {}, {}]
  capture : Capture := {}
  /-- Signature regions with a learn value that waits (R194). -/
  learn : List Nat := []
  /-- The signature history: per resolved heat its 256 bytes, newest first (R195). -/
  history : List Bytes := []
  deriving DecidableEq, Repr


/-! ### Heats and the synthesis engine (03, 05) -/

/-- A version of a pour (R88): its state, the t_H in µs at which it was RECEIVED, the band and hogel row rendered next, the segments
staged so far, whether every row is staged, and whether it is in transmission. -/
structure Ver where
  state : Nat := 0
  received : Option Nat := none
  band : Nat := 0
  row : Nat := 0
  seq : Nat := 0
  rendered : Bool := false
  /-- It is no longer sent (R86, R273). -/
  stopped : Bool := false
  deriving DecidableEq, Repr

/-- A pour (R88, R95, R158 to R162): `bands` is the n of R161, `removed` the layers made transparent for it (video k, graphic 64 + g). -/
structure Pour where
  c : Nat
  pos : Nat
  panel : Nat
  v1 : Ver := { state := 1 }
  v2 : Ver := {}
  mask : Nat := 0
  squashed : Bool := false
  provisional : Bool := false
  bands : Nat := 1
  removed : List Nat := []
  /-- S_peak of version 1, and of version 2 once it is admitted. -/
  peak : Nat := 0
  peak2 : Nat := 0
  deriving DecidableEq, Repr

/-- A binding of a layer buffer to a heat. -/
structure Bound where
  buf : Nat
  heat : Nat
  span : Nat
  width : Nat
  height : Nat
  deriving DecidableEq, Repr

/-- A portion that the ladle prefetched (R102): panel position, layer (graphic 64 + g), buffer, and the footprint's columns, the windows of its
rows and its bytes. -/
structure Portion where
  panel : Nat
  layer : Nat
  buf : Nat
  x0 : Int
  x1 : Int
  rows : List (Int × Int)
  bytes : Nat
  deriving DecidableEq, Repr

/-- The pour a context renders: panel position and version, the hogel row from which its plane set was fetched, how far hogel rows are
resident (rows below `rows`, R157), when the context took it, and since when it has been eligible without completing a row (R164, R167). -/
structure Work where
  panel : Nat
  version : Nat
  start : Nat
  rows : Nat
  since : Nat
  eligibleAt : Option Nat := none
  deriving DecidableEq, Repr

/-- A synthesis cluster (R164): its two contexts, the one it renders, the pour whose opening rows lie in the lookahead pool (R159), since when
it waits, and since when it renders with one pour held for the pairing limit. -/
structure Cluster where
  ctx : List (Option Work) := [none, none]
  cur : Option Nat := none
  ahead : Option (Nat × Nat) := none
  waitAt : Option Nat := none
  soloAt : Option Nat := none
  stopped : Bool := false
  deriving DecidableEq, Repr

/-- The heat in flight (R82, R90 to R98): its number and start on the time word, what it latched, the masks of R91,
the re-pour decision and the pours. -/
structure Heat where
  running : Bool := false
  number : Nat := 0
  start : Nat := 0
  slots : Nat := 16
  guard_ : Nat := 500
  margin : Nat := 4000
  perChain : Nat := 1
  total : Nat := 128
  policy : Nat := 0
  prefetch : Bool := true
  tap : Nat := 0
  shear : Nat := 16
  ceiling : Nat := 4095
  weights : Bytes := []
  tempWeights : Bytes := []
  /-- Filter select of the video layers and the coefficient sets 1 to 3 (R151). -/
  filters : List Nat := []
  sets : List Bytes := []
  bound1 : List (Option Bound) := []
  bound2 : List (Option Bound) := []
  boundG : List Nat := []
  complete : Nat := 0
  late : Nat := 0
  held : Nat := 0
  transparent : Nat := 0
  /-- The decision of R96: t_D in µs and the v2 set. -/
  decision : Option (Nat × Nat) := none
  admitted : Bool := false
  affected : Nat := 0
  cutOff : Bool := false
  resolved : Bool := false
  v2ok : Bool := false
  pours : List Pour := []
  /-- The pour list (R166): panel position and version. -/
  list : List (Nat × Nat) := []
  /-- Blanked common tiles: panel positions with ceiling 0 (R370). -/
  dark : List Nat := []
  /-- Signature regions that cover the heat (R190). -/
  regions : List Nat := []
  /-- Bands of the tiles latched at the heat start (R344) and gain slots bound (R342), by panel position where not default. -/
  bands : List (Nat × Nat) := []
  gains : List (Nat × Nat) := []
  rays : Nat := 0
  blends : Nat := 0
  early : Nat := 0
  planeBytes : Nat := 0
  dross : Nat := 0
  refetches : Nat := 0
  portions : Nat := 0
  waitTime : Nat := 0
  soloTime : Nat := 0
  lastRender : Nat := 0
  reissues : Nat := 0
  deriving DecidableEq, Repr

/-- A pending stop or restart of the schedule (R78 to R80, R453, R454, R539): the instants T1 and T2 on the time word and F0's earliest
instant. `phase` is 1 before T1, 2 before T2, 3 before F0. -/
structure Restart where
  phase : Nat
  t1 : Nat
  t2 : Nat
  after : Nat
  reason : Nat
  epoch : Nat
  num : Nat
  den : Nat
  deriving DecidableEq, Repr

/-- The frame schedule and the engine. -/
structure Pipeline where
  heat : Heat := {}
  /-- The restart under way (R78 to R80), or the way of the schedule to P2 (R453). -/
  restart : Option Restart := none
  clusters : List Cluster := List.replicate 68 {}
  prefetched : List Portion := []
  /-- Consecutive heats above and at or below 10 % squashed portions, and the portions squashed in them (R104). -/
  squashHigh : Nat := 0
  squashLow : Nat := 60
  squashed : Nat := 0
  splitBefore : Bool := false
  /-- Slot tick expected next. -/
  slot : Nat := 0
  /-- Filter sets written and not latched (R151). -/
  newSets : List Nat := []
  /-- The pour snapshot of the resolved heat (R108): its entries by panel position. -/
  snapshot : List (Nat × Bytes) := []
  /-- The cluster clock to come at the next frame tick, and slots kept at 8 for want of clusters (R33, R169). -/
  fewClusters : Bool := false
  deriving DecidableEq, Repr


/-! ### Panel drive, ageing and commons (12) -/

/-- A history transfer to a tile (R354 to R356): its kind, object, whether its segments are staged and FLASH_COMMIT was sent (and when),
the failures so far and the instant of a retry. -/
structure Transfer where
  c : Nat
  pos : Nat
  panel : Nat
  kind : Nat
  object : Bytes
  seq : Nat := 0
  staged : Bool := false
  commitAt : Option Nat := none
  failures : Nat := 0
  retryAt : Option Nat := none
  /-- Its tile was ACTIVE since it is wanted: a gain map is also written back to a READY tile (R355, R356). -/
  wasActive : Bool := true
  deriving DecidableEq, Repr

/-- A checkpoint on its way (R353, R354): whether it waits for a heat, the heat, the snapshot buffer in checkpoint staging (R257), whether the
snapshot is complete, the blocks encoded. -/
structure Checkpoint where
  c : Nat
  pos : Nat
  panel : Nat
  heat : Option Nat := none
  time : Nat := 0
  onTime : Nat := 0
  buffer : Nat := 0
  snapped : Bool := false
  blocks : List (Nat × Bytes) := []
  deriving DecidableEq, Repr

/-- A common (R364 to R370): its phase bit, consecutive frame ticks above 50 mV, last 0x9012, a clear that waits for the frame tick,
and the band whose table it drives. -/
structure Common where
  phase : Bool := false
  each : Nat := 0
  toldAt : Option Nat := none
  clearing : Bool := false
  band : Nat := 3
  deriving DecidableEq, Repr

/-- The slate (R371, R372): the instant and number of the last slate tick, a change to send, and the tiles lit. -/
structure Slate where
  tickAt : Nat := 0
  number : Nat := 0
  dirty : Bool := false
  sent : Bool := false
  lit : List (Nat × Nat) := []
  deriving DecidableEq, Repr

/-- A filled gain slot that waits for its binding, or is bound for a heat and not yet shown (R360). -/
structure GainShown where
  job : Nat
  slot : Nat
  panel : Nat
  heat : Option Nat := none
  deriving DecidableEq, Repr

/-- Panel drive. -/
structure Panel where
  freeSlots : List Nat := (List.range 10).map (· + 960)
  /-- Gain updates in start order, those RUNNING with their slot, those COMPLETE or bound, and the panel position that each job took at
  its start (R359). -/
  updates : List Nat := []
  running : List (Nat × Nat) := []
  shown : List GainShown := []
  targets : List (Nat × Nat) := []
  /-- Gain slots to bind at the next heat start (R351, R357). -/
  rebind : List (Nat × Nat) := []
  transfers : List Transfer := []
  checkpoints : List Checkpoint := []
  /-- On-time of a panel position in units of 2⁻¹⁶ ns, and on-time in s at the last checkpoint. -/
  onTime : List (Nat × Nat) := []
  lastOn : List (Nat × Nat) := []
  onAt : Nat := 0
  /-- Counters whose accumulation stopped (R357): panel position and 64-byte access. -/
  affected : List (Nat × Nat) := []
  commons : List Common := (List.range 64).map (fun n => { phase := n % 2 = 1 })
  /-- Slot ticks since the commons entered DRIVING, and the slot of the last corrective one (R365, R366). -/
  g : Nat := 0
  lastCorrective : Option Nat := none
  corrective : Bool := false
  /-- Waveform tables in force (empty: the factory's), those written (R363), and those of the last frame tick with the bands it
  found, which apply from the next slot edge on (R367). -/
  tables : List Bytes := List.replicate 8 []
  newTables : List Nat := []
  armed : List (Nat × Bytes) := []
  /-- Commons enable in force (R369), and the display mode last sent to every tile (R368). -/
  enabled : Bool := true
  mode : Nat := 0
  slate : Slate := {}
  deriving DecidableEq, Repr

/-- What drives a common in a slot (R364): polarity σ, overdrive level and time, hold level, amplitude trim a_n. -/
structure CommonDrive where
  n : Nat
  positive : Bool
  overdrive : Nat
  time : Nat
  hold : Nat
  trim : Int
  deriving DecidableEq, Repr


/-! ### Network ports (13) -/

/-- A source meter (R392, R394): its two buckets in 2⁻³² B, whether it restarts at the next refill, and the enable and yellow action that
the last refill took. -/
structure Meter where
  tc : Nat := 0
  tp : Nat := 0
  restart : Bool := true
  on : Bool := true
  action : Nat := 1
  deriving DecidableEq, Repr

/-- A shaper of an egress class (R397, R398): tokens in 2⁻³² B, whether it restarts at the next refill, and the enable, overhead and
priority code point that the last refill took. -/
structure Shaper where
  tokens : Nat := 0
  restart : Bool := false
  on : Bool := false
  overhead : Nat := 24
  pcp : Nat := 7
  deriving DecidableEq, Repr

/-- A gate control list (R399): mode, base time, and entries as gate state and interval in ns. -/
structure GateList where
  mode : Nat := 0
  base : Nat := 0
  entries : List (Nat × Nat) := [(15, 1000000)]
  deriving DecidableEq, Repr

/-- A frame to send: its egress class, the number of its descriptor, the control bits and insert offset of R388, and its bytes. -/
structure TxFrame where
  cls : Nat
  index : Nat
  stampAsked : Bool
  oneStep : Bool
  offset : Nat
  data : Bytes
  /-- The preview view whose packet the frame is; none for a frame of the transmit ring. -/
  view : Option Nat := none
  deriving DecidableEq, Repr

/-- A port (R381 to R407): the registers of its rings (base, producer, consumer), the receive buffers handed over, the queues of its four
classes, the frame in transmission with its stamp, the shapers, the gates, the control-path bucket, and drops of the last second. -/
structure Port where
  rxBase : Nat := 0
  rxProducer : Nat := 0
  rxConsumer : Nat := 0
  txBase : Nat := 0
  txProducer : Nat := 0
  txConsumer : Nat := 0
  rxBuffers : List Nat := []
  queues : List (List TxFrame) := [[], [], [], []]
  /-- Frames of the transmit ring that wait for room in the queue of their class (R396). -/
  held : List TxFrame := []
  sending : Option (TxFrame × Nat) := none
  shapers : List Shaper := [{ pcp := 7 }, { pcp := 5 }, { pcp := 3 }, { pcp := 1 }]
  list : GateList := {}
  /-- A list that waits for its switch, and the earliest instant of that (R401). -/
  switch_ : Option (Nat × GateList) := none
  /-- Time still missing to a full control-path bucket of 2,000 frames at 20,000 per second, and when it was last charged (R390). -/
  owed : Nat := 0
  owedAt : Nat := 0
  controlDrops : List Nat := []
  ringDrops : List Nat := []
  deriving DecidableEq, Repr

/-- The network. Ring bases lie in the firmware region; firmware chooses them and the manual gives no value (log entry 2). -/
structure Net where
  ports : List Port := (List.range 5).map (fun p => { rxBase := 32768 * p, txBase := 32768 * p + 16384 })
  meters : List Meter := List.replicate 256 {}
  refillAt : Nat := 0
  /-- When the red drops of the last second came, newest first, by slot (R393). -/
  reds : List (Nat × List Nat) := []
  deriving DecidableEq, Repr

/-- An answer of the interface (R383): to an ARP request for its IPv4 address, to a solicitation of its IPv6 address, to an ICMP or ICMPv6
echo request with what follows the request's checksum; each with the asker's address. -/
inductive Answer where
  | arp (mac : Nat) (asker : Bytes)
  | neighbour (target asker : Bytes)
  | echo (own asker data : Bytes)
  deriving DecidableEq, Repr

/-! ### Power (15) -/

/-- What the line or the riser demands (R443): per stage S1 to S7 since when it lies below the entry threshold, whether it demands the
stage, and since when it lies at or above the exit threshold. -/
structure Demand where
  below : List (Option Nat) := List.replicate 7 none
  on : List Bool := List.replicate 7 false
  above : List (Option Nat) := List.replicate 7 none
  deriving DecidableEq, Repr

/-- Mains, stages and power states. -/
structure Power where
  line : Demand := {}
  riser : Demand := {}
  /-- Consecutive half-cycles above 305 V (R447), and since when the line lies at or above 85 V (R446). -/
  each : Nat := 0
  goodAt : Option Nat := none
  /-- Instant of the last stage change (R444). -/
  changedAt : Nat := 0
  /-- A stop of heats decided and not yet at its T1 (R453, R454, R539): the power state it leads to. -/
  stop : Option Nat := none
  /-- An entry to P3 in progress (R454): its T1 on `mono`, and how many ms after T1 its next step falls. -/
  entry : Option (Nat × Nat) := none
  /-- P2 was entered by shedding (R451); the state held before P3. -/
  shed : Bool := false
  before : Nat := 0
  /-- S7 was entered or an abrupt loss happened, and the mains has not come back (R446, R457). -/
  dead : Bool := false
  /-- The AO island may enable the main supplies (R533): mains applied, a wake from P4, mains restored, or a watchdog reset. -/
  startable : Bool := true
  /-- The module has not started since mains was applied, so that the riser has to reach 392 V (R533). -/
  cold : Bool := true
  /-- A wake latched while the module shuts down (R509, R459). -/
  latchedWake : Option Nat := none
  /-- Entry to P3 or P4 on `mono` and on the AO counter. -/
  downAt : Nat := 0
  downAo : Nat := 0
  /-- Wakes by source (0x2100:09), since manufacture. -/
  wakes : List Nat := List.replicate 7 0
  /-- Control domains woken by an access (R460): index and last access. -/
  woken : List (Nat × Nat) := []
  /-- An unpowered block that a duty treats as absent until the next change of power state (R543). -/
  absent : List Nat := []
  /-- Cause of the previous stop as 0x1004 reports it, and the sequence of the record that decided it (R545). -/
  lastStop : Nat := 6
  decided : Nat := 0
  deriving DecidableEq, Repr


/-! ### Temperature (16) -/

/-- A sensor beside its objects 0x2220+s (R466 to R470): whether its filter is seeded, its last conversion, consecutive readings at the
trip threshold, a clear that waits for 16 good readings, the filtered values of the last 100 ms, a release that waits for the frame tick,
and since when it differs from its twin. -/
structure Sensor where
  seeded : Bool := false
  lastAt : Nat := 0
  tripRun : Nat := 0
  clearing : Bool := false
  good : Nat := 0
  hist : List (Nat × Int) := []
  /-- Of the last 60 s, the filtered values that no later one reaches from above, and from below: their extremes (R492). -/
  highs : List (Nat × Int) := []
  lows : List (Nat × Int) := []
  releasing : Bool := false
  apartAt : Option Nat := none
  apartTold : Bool := false
  deriving DecidableEq, Repr

/-- A zone Z1 to Z5 (R471): its last change, and since when every sensor lies below the exit threshold of its stage. -/
structure Zone where
  changedAt : Nat := 0
  belowAt : Option Nat := none
  deriving DecidableEq, Repr

/-- Thermal management. -/
structure Thermal where
  sensors : List Sensor := List.replicate 28 {}
  zones : List Zone := List.replicate 5 {}
  /-- Panel positions whose alarm was given (R475). -/
  alarms : List Nat := []
  fanAt : Nat := 0
  /-- Firmware asserts the hardware trip, for a sensor (R476). -/
  tripAsked : Option Nat := none
  /-- The last stop was thermal, and the first heat waits (R481). -/
  hold : Bool := false
  /-- Classes whose thresholds were written, with those still in force until the next conversion (R486). -/
  written : List (Nat × List Int) := []
  /-- Sensor failures since manufacture (R520). -/
  failures : Nat := 0
  deriving DecidableEq, Repr


/-! ### Calibration (17) -/

/-- A set slot (R496): its temperature in 1/16 °C and its value record. -/
structure CalSlot where
  temp : Int
  values : List Int
  deriving DecidableEq, Repr

/-- The run (R490, R491) beside its objects 0x7800: what it calibrates, the pass values, the result with its temperature, when its state was
entered, and the slot whose flash write is under way (R496, R497). -/
structure CalRun where
  item : Nat := 0
  inst : Nat := 0
  t1 : Int := 0
  t2 : Int := 0
  v1 : List Int := []
  v2 : List Int := []
  result : List Int := []
  temp : Int := 0
  since : Nat := 0
  slot : Option Nat := none
  deriving DecidableEq, Repr

/-- Calibration: the slots in flash by key 1024·item + instance where any is valid, the temperatures latched (Z2, sensors 12 to 20, then
zones 1 to 5), and the settings that differ from their value in force (R499, R500). -/
structure Calib where
  sets : List (Nat × List (Option CalSlot)) := []
  temps : List Int := List.replicate 7 0
  moving : List (Nat × List Int) := []
  run : CalRun := {}
  latchedAt : Nat := 0
  /-- The last step of the settings (R500). -/
  steppedAt : Option Nat := none
  /-- The older flash copy of the instances whose slots have changed (R497). -/
  older : List (Nat × List (Option CalSlot)) := []
  /-- Values in force that stand until the next latch, of instances whose sets have changed since the last (R499, R500). -/
  kept : List (Nat × List Int) := []
  deriving DecidableEq, Repr


/-! ### Self-test, spares and injection (18) -/

/-- An entry of the repair map (R528). -/
structure RepairRow where
  cls : Nat
  state : Nat
  source : Nat
  injected : Bool
  inst : Nat
  macro_ : Nat
  row : Nat
  bit_ : Nat
  deriving DecidableEq, Repr

/-- An entry of the failure log (0x7C03). -/
structure Failure where
  time : Nat
  source : Nat
  cls : Nat
  inst : Nat
  macro_ : Nat
  addr : Nat
  bit_ : Nat
  injected : Bool
  deriving DecidableEq, Repr

/-- The commanded test in progress: what it tests, as latched at its start (R517). -/
structure Test where
  kind : Nat := 0
  cls : Nat := 0
  inst : Nat := 0
  macro_ : Nat := 0xFFFF
  /-- Consecutive yields on a region of its macro, and that region (R512, R518). -/
  yields : Nat := 0
  region : Nat := 0
  /-- Whether its unit was SPARE or UNUSABLE at the start (R517). -/
  wasFree : Bool := false
  deriving DecidableEq, Repr

/-- The injection started last (R523, R530): its point and instance, whether it repeats, its period in ms or value, the instant of its
last injection, whether that one has not acted yet, and the journal slot that was to be written next then (point 18). -/
structure Inject where
  point : Nat
  inst : Nat
  periodic : Bool
  value : Nat
  at_ : Nat
  live : Bool
  slot : Nat := 0
  deriving DecidableEq, Repr

/-- Self-test, ledger and injection. -/
structure SelfTest where
  repairs : List RepairRow := []
  /-- Write sequence of the repair map in flash (R514). -/
  mapSeq : Nat := 0
  failures : List Failure := []
  /-- The region of the last fettling slice, when it ran, and its consecutive yields (R511, R512). -/
  last : Option Nat := none
  sliceAt : Nat := 0
  /-- The time word at that slice (R511). -/
  sliceWord : Nat := 0
  yields : Nat := 0
  ledgerAt : Nat := 0
  test : Test := {}
  shakeoutAt : Nat := 0
  /-- When the injection window was last opened (R524). -/
  openedAt : Nat := 0
  armed : Option Inject := none
  /-- Injections that act for a time: point, instance, value, and the instant at which they end (R523). -/
  timed : List (Nat × Nat × Nat × Nat) := []
  /-- Units that passed a threshold and wait for the ledger: class and instance (R521). -/
  passed : List (Nat × Nat) := []
  /-- Classes whose lack of spares was told (R522). -/
  toldEmpty : List Nat := []
  /-- Sectors of flash and MRAM retired (R520), and those that have failed since the last ledger update (R521). -/
  flashRetired : Nat := 0
  mramRetired : Nat := 0
  flashFailed : Nat := 0
  mramFailed : Nat := 0
  /-- Flash writes that failed and are tried again at the next ledger update (R521). -/
  flashRetry : Nat := 0
  /-- Erases of the flash sectors that have had any, by sector (R520, R521). -/
  erases : List (Nat × Nat) := []
  /-- MRAM sectors that failed, in the order in which they did (R521). -/
  mramGone : List Nat := []
  /-- Units in use, spare and retired and the wear of each ledger class, as at the last update of the ledger (R520). -/
  ledger : List (Nat × Nat × Nat × Nat) := []
  deriving DecidableEq, Repr

/-! ### Start-up, shut-down and faults (19) -/

/-- The boot record (R535): the selected image, the TRIAL flag and count; and beside it which images are valid, the running image and the
fallback reason of this start. -/
structure BootRecord where
  selected : Nat := 0
  trial : Bool := false
  count : Nat := 0
  validA : Bool := true
  validB : Bool := true
  running : Nat := 0
  fallback : Nat := 0
  /-- Which free value the bytes of images A and B in flash are (R535): a new one for each image written. -/
  bytesA : Nat := 0
  bytesB : Nat := 1
  deriving DecidableEq, Repr

/-- The start and stop sequences. `step` is the last step of R533 that is complete (0: not started). `shut` is the last step of
the orderly shutdown of R539 that has happened (0: none in progress). -/
structure Boot where
  step : Nat := 0
  recovery : Bool := false
  shut : Nat := 0
  record : BootRecord := {}
  /-- Start of the present start sequence, and T1 of the shutdown, on `mono`. -/
  startAt : Nat := 0
  t1 : Nat := 0
  /-- The earliest instant of the first heat on the time word (R83, R374, R533 step 9), while heats wait to start. -/
  heatsFrom : Option Nat := none
  /-- Why heats start, for 0x6008. -/
  heatReason : Nat := 2
  /-- The heats to come are the first after a start (R533 steps 9 and 10). -/
  starting : Bool := false
  /-- Cores being reset, and the core resets of the last 60 s (R541). -/
  cores : List Nat := []
  resets : List Nat := []
  shutCause : Nat := 0
  deriving DecidableEq, Repr


/-- What leaves the module, as an observer outside sees it: the model's own record (log entry 8). -/
inductive Out where
  /-- A KOA datagram sent to a peer (R36, R37). -/
  | koa (peer : Peer) (ty flags session counter tag : Nat) (payload mac : Bytes)
  /-- A PTP message sent by a domain instance (R412, R413): its type (0 Delay_Req, 1 Pdelay_Req, 2 Pdelay_Resp, 3 its follow-up; Delay_Req over
  UDP and IPv4, the others in Ethernet frames of their own), its sequence number, the time it carries, its domain number, and whether it is unicast. -/
  | ptp (d type seq time number : Nat) (unicast : Bool)
  /-- The pulses of a calibration pass at a sync output: how many, their width and spacing in ns, from an instant on (R493). -/
  | syncPulses (o count width spacing instant : Nat)
  /-- The sync outputs are driven from an instant on, or undriven (R430). -/
  | syncDrive (on : Bool) (instant : Nat)
  /-- An edge at a sync output's connector: the output, the line level after it, and its instant on the time word. -/
  | syncEdge (o : Nat) (high : Bool) (instant : Int)
  /-- A control block sent on a lane: what it says, and its 65 symbols on the line (R287 to R289). -/
  | ktl (lane : Nat) (block : Ktl) (symbols : List Level)
  /-- The data blocks of a segment sent on a lane, behind its SEG_START: the segment, and the symbols on the line (R287 to R289, R316). -/
  | segment (lane : Nat) (seg : Seg) (symbols : List Level)
  /-- Symbols of the test pattern that a lane sends (R305). -/
  | pattern (lane : Nat) (symbols : List Level)
  /-- A lane's wake pattern (R300). -/
  | wakePattern (lane : Nat)
  /-- The levels in mV that a calibration pass holds a common at, each with its time in µs, from an instant on (R493). -/
  | commonHolds (n : Nat) (holds : List (Int × Nat)) (instant : Nat)
  /-- The drive of the DRIVING commons in a slot of a frame (R364). -/
  | commons (frame slot : Nat) (drive : List CommonDrive)
  /-- An Ethernet frame whose transmission begins on a port (R396): its bytes without the FCS. -/
  | frame (port cls : Nat) (data : Bytes)
  /-- A multicast membership report (joined) or leave report on a port (R117). -/
  | membership (port : Nat) (group : Bytes) (joined : Bool)
  /-- Firmware's answer on a port to an ARP request, a neighbour solicitation or an echo request (R383). -/
  | answer (port : Nat) (a : Answer)
  deriving DecidableEq, Repr

/-- The block itself: everything but the life-cycle state, the DRAM contents, the unit's constants and the queue. -/
structure Mach where
  /-- Every integer object of the dictionary: cells (key, value) with rising keys; an unlisted object reads its default. -/
  od : List (Nat × Int) := []
  /-- The contents of the byte-string, text and DOMAIN objects, by key; an unlisted one reads its default. -/
  strs : List (Nat × Bytes) := []
  /-- The time unit (14). -/
  clk : Clk := {}
  /-- KOA sessions (02). -/
  koa : Koa := {}
  /-- The event journal (02). -/
  jrn : Journal := {}
  /-- Start-up and shut-down (19). -/
  boot : Boot := {}
  /-- Network ports, meters, shapers and gates (13). -/
  net : Net := {}
  /-- PTP domains, servo, sync outputs and inputs (14). -/
  ptp : Ptp := {}
  /-- The memory controller (09). -/
  dram : Dram := {}
  /-- The codec (07). -/
  codec : Codec := {}
  /-- The tile-link lanes (10). -/
  lanes : List Lane := List.replicate 192 {}
  /-- Chains and tiles (11). -/
  tiles : Tiles := {}
  /-- Scene input: descriptors, layers, clips, uploads (04). -/
  scene : Scene := {}
  /-- Graphic layers, previews, capture, signatures (06). -/
  outs : Outputs := {}
  /-- The frame schedule, the heat in flight and the synthesis engine (03, 05). -/
  pipe : Pipeline := {}
  /-- Panel drive, ageing, commons and slate (12). -/
  panel : Panel := {}
  /-- Mains, stages and power states (15). -/
  power_ : Power := {}
  /-- Sensors, throttle, fans (16). -/
  thermal : Thermal := {}
  /-- Calibration and trimming (17). -/
  calib : Calib := {}
  /-- Self-test, spares and error injection (18). -/
  test : SelfTest := {}
  /-- What has left the module, newest first (log entry 8). -/
  out : List Out := []
  /-- How many free values have been drawn (log entry 7); no statement rests on its value at reset. -/
  free : Nat := 0
  deriving DecidableEq, Repr

/-- Why a command stops the machine for good. The manual gives every command of the table an effect, so no meaning raises a
fault and the type has no constructor. -/
inductive Fault where
  deriving DecidableEq, Repr

/-- Why a command is turned away. -/
inductive Refusal where
  /-- Raised by an arm of `exec` for a command that has no meaning yet. Safe: the machine stops. -/
  | notModelled (mnemonic : String)
  deriving DecidableEq, Repr

/-- The whole machine. -/
structure State where
  /-- The per-unit constants; no command changes them. -/
  unit : Unit := {}
  /-- The life-cycle state (R65). -/
  life : Life := .factory
  /-- The DRAM contents: cells (address, byte) with rising addresses, none of them 0, which an unlisted address reads as
  (R257; log entry 1). -/
  mem : List Host.Cell := []
  /-- The rest of the block. -/
  m : Mach := {}
  /-- The commands that wait, first in first out: the model's own. -/
  pending : List Instr := []
  deriving DecidableEq, Repr

/-- The machine right after reset, as delivered: the dictionary at its defaults, the start sequence of R533 not begun, no
session, an empty journal, nothing in DRAM. Where the manual gives no value the log names one (log entries 1, 2 and 3). -/
def State.reset : State := {}

end Sys2Proof.Machine
end

