-- ==== Sys2Proof/Machine/Dictionary.lean ====
section
/-! DEFINITION. The object dictionary (R63, R68, R69 to R73 and the object table of every chapter) and the event severities
(R59 and the event table of every chapter). Defaults that differ from instance to instance are in `instDefault`. -/

namespace Sys2Proof.Machine

/-- A data type of the dictionary (R62). FIX carries its size in bytes and whether it is signed (R11). -/
inductive Ty where
  | bool | u8 | u16 | u32 | u64 | i16 | i32 | i64
  | fix (size : Nat) (signed : Bool)
  | time | vis | oct | dom
  deriving DecidableEq, Repr

/-- An access class (R63). `rws` lists the life-cycle states in which an ADMIN may write, and whether it can be read. -/
inductive Acc where
  | ro | rw | wo | const | woAdmin
  | rws (states : List Life) (readable : Bool)
  deriving DecidableEq, Repr

/-- The values a write may carry, from the Unit or range column. -/
inductive Rng where
  | any
  | rng (lo hi : Int)
  | rngOr (lo hi extra : Int)
  | one (vs : List Nat)
  | len (lo hi : Nat)
  | mapEntry
  deriving DecidableEq, Repr

/-- One row of an object table: indices `lo … hi`, sub-indices `subLo … subHi`. -/
structure Row where
  lo : Nat
  hi : Nat
  subLo : Nat
  subHi : Nat
  ty : Ty
  acc : Acc
  rng : Rng
  dflt : Int
  deriving DecidableEq, Repr

/-- The rows of 0x1000 … 0x10FF. -/
def dict10 : List Row :=
  [⟨0x1000, 0x1000, 0x01, 0x01, .vis, .const, .len 6 6, 0⟩,
   ⟨0x1000, 0x1000, 0x02, 0x02, .vis, .const, .len 10 10, 0⟩,
   ⟨0x1000, 0x1000, 0x03, 0x03, .vis, .const, .len 12 12, 0⟩,
   ⟨0x1000, 0x1000, 0x04, 0x04, .u16, .const, .rng 0 65535, 0⟩,
   ⟨0x1000, 0x1000, 0x05, 0x05, .u32, .const, .any, 0⟩,
   ⟨0x1000, 0x1000, 0x06, 0x06, .u8, .const, .rng 0 1, 0⟩,
   ⟨0x1000, 0x1000, 0x07, 0x07, .u16, .const, .any, 256⟩,
   ⟨0x1001, 0x1001, 0x01, 0x01, .u8, .ro, .rng 0 1, 0⟩,
   ⟨0x1001, 0x1001, 0x02, 0x02, .u32, .ro, .any, 0⟩,
   ⟨0x1001, 0x1001, 0x03, 0x03, .u32, .ro, .any, 0⟩,
   ⟨0x1001, 0x1001, 0x04, 0x04, .u32, .ro, .any, 0⟩,
   ⟨0x1001, 0x1001, 0x05, 0x05, .u64, .ro, .any, 0⟩,
   ⟨0x1001, 0x1001, 0x06, 0x06, .u32, .ro, .any, 0⟩,
   ⟨0x1010, 0x1010, 0x01, 0x01, .u8, .ro, .rng 0 4, 0⟩,
   ⟨0x1010, 0x1010, 0x02, 0x02, .u32, .woAdmin, .one [1279459329, 1279459330, 1279459331, 1279459332], 0⟩,
   ⟨0x1010, 0x1010, 0x03, 0x03, .u32, .ro, .any, 0⟩,
   ⟨0x1002, 0x1002, 0x00, 0x00, .dom, .woAdmin, .len 1 134217728, 0⟩,
   ⟨0x1003, 0x1003, 0x01, 0x01, .u8, .ro, .rng 0 3, 0⟩,
   ⟨0x1003, 0x1003, 0x02, 0x02, .u8, .ro, .rng 0 1, 0⟩,
   ⟨0x1003, 0x1003, 0x03, 0x03, .bool, .ro, .any, 0⟩,
   ⟨0x1003, 0x1003, 0x04, 0x04, .u8, .ro, .rng 0 3, 0⟩]

/-- The rows of 0x1100 … 0x11FF. -/
def dict11 : List Row :=
  [⟨0x1100, 0x1100, 0x01, 0x01, .u8, .const, .any, 8⟩,
   ⟨0x1100, 0x1100, 0x02, 0x02, .u16, .rw, .rng 1000 60000, 10000⟩,
   ⟨0x1100, 0x1100, 0x03, 0x03, .u8, .ro, .rng 0 8, 0⟩,
   ⟨0x1100, 0x1100, 0x04, 0x04, .u32, .ro, .any, 0⟩,
   ⟨0x1100, 0x1100, 0x05, 0x05, .u32, .ro, .any, 0⟩,
   ⟨0x1100, 0x1100, 0x06, 0x06, .u32, .ro, .any, 0⟩,
   ⟨0x1100, 0x1100, 0x07, 0x07, .u8, .ro, .rng 1 3, 0⟩,
   ⟨0x1110, 0x1110, 0x01, 0x08, .oct, .rws [.factory, .provisioned, .service, .retired] false, .len 32 32, 0⟩,
   ⟨0x1111, 0x1111, 0x01, 0x08, .u8, .rws [.factory, .provisioned, .service, .retired] true, .rng 1 3, 1⟩,
   ⟨0x1112, 0x1112, 0x01, 0x08, .u64, .ro, .any, 0⟩,
   ⟨0x1120, 0x1120, 0x01, 0x01, .bool, .rw, .any, 1⟩,
   ⟨0x1120, 0x1120, 0x02, 0x02, .u8, .rw, .rng 0 4, 2⟩,
   ⟨0x1120, 0x1120, 0x03, 0x03, .u32, .ro, .any, 0⟩,
   ⟨0x1130, 0x1137, 0x01, 0x01, .bool, .rw, .any, 0⟩,
   ⟨0x1130, 0x1137, 0x02, 0x02, .u32, .ro, .any, 0⟩,
   ⟨0x1130, 0x1137, 0x03, 0x03, .u8, .rw, .rng 1 255, 1⟩,
   ⟨0x1130, 0x1137, 0x04, 0x04, .u8, .rw, .rng 0 64, 0⟩,
   ⟨0x1130, 0x1137, 0x05, 0x44, .u32, .rw, .any, 0⟩,
   ⟨0x1130, 0x1137, 0x45, 0x45, .u16, .ro, .rng 0 1368, 0⟩]

/-- The rows of 0x1200 … 0x12FF. -/
def dict12 : List Row :=
  [⟨0x1200, 0x1200, 0x01, 0x01, .u64, .ro, .any, 0⟩,
   ⟨0x1200, 0x1200, 0x02, 0x02, .u64, .ro, .any, 0⟩,
   ⟨0x1200, 0x1200, 0x03, 0x03, .u32, .ro, .rng 0 16128, 0⟩,
   ⟨0x1200, 0x1200, 0x04, 0x04, .u32, .ro, .any, 16128⟩,
   ⟨0x1200, 0x1200, 0x05, 0x05, .u32, .rws [.factory, .service] true, .one [1279459532], 0⟩,
   ⟨0x1201, 0x1201, 0x01, 0x01, .u64, .rw, .any, 0⟩,
   ⟨0x1201, 0x1201, 0x02, 0x02, .oct, .ro, .len 256 256, 0⟩,
   ⟨0x1202, 0x1202, 0x01, 0x0E, .u32, .ro, .any, 0⟩]

/-- The rows of 0x2000 … 0x20FF. -/
def dict20 : List Row :=
  [⟨0x2000, 0x2000, 0x01, 0x01, .u16, .ro, .any, 0⟩,
   ⟨0x2000, 0x2000, 0x02, 0x02, .u16, .ro, .any, 0⟩,
   ⟨0x2000, 0x2000, 0x03, 0x03, .u16, .ro, .any, 0⟩,
   ⟨0x2000, 0x2000, 0x04, 0x04, .u16, .ro, .any, 0⟩,
   ⟨0x2000, 0x2000, 0x05, 0x05, .u16, .ro, .any, 0⟩,
   ⟨0x2000, 0x2000, 0x06, 0x06, .u8, .ro, .rng 0 7, 0⟩,
   ⟨0x2000, 0x2000, 0x07, 0x07, .u8, .ro, .rng 0 7, 0⟩,
   ⟨0x2000, 0x2000, 0x08, 0x08, .u8, .ro, .rng 0 7, 0⟩,
   ⟨0x2000, 0x2000, 0x09, 0x09, .u8, .rw, .rng 0 5, 0⟩,
   ⟨0x2000, 0x2000, 0x0A, 0x0A, .u8, .ro, .any, 0⟩,
   ⟨0x2000, 0x2000, 0x0B, 0x0B, .u16, .ro, .any, 600⟩,
   ⟨0x2000, 0x2000, 0x0C, 0x0C, .u16, .ro, .any, 0⟩,
   ⟨0x2000, 0x2000, 0x0D, 0x0D, .u32, .ro, .any, 0⟩,
   ⟨0x2000, 0x2000, 0x0E, 0x0E, .u32, .ro, .any, 0⟩,
   ⟨0x2001, 0x2001, 0x00, 0x00, .dom, .const, .len 56 56, 0⟩,
   ⟨0x2020, 0x2020, 0x01, 0x01, .u8, .const, .any, 7⟩,
   ⟨0x2020, 0x2020, 0x02, 0x02, .u8, .ro, .rng 0 6, 6⟩,
   ⟨0x2020, 0x2020, 0x03, 0x03, .u8, .ro, .rng 0 1, 1⟩,
   ⟨0x2020, 0x2020, 0x04, 0x04, .u8, .ro, .rng 0 7, 0⟩,
   ⟨0x2021, 0x2027, 0x01, 0x01, .u8, .ro, .rng 0 3, 0⟩,
   ⟨0x2021, 0x2027, 0x02, 0x02, .u16, .ro, .any, 0⟩,
   ⟨0x2021, 0x2027, 0x03, 0x03, .u16, .ro, .any, 0⟩,
   ⟨0x2021, 0x2027, 0x04, 0x04, .u8, .ro, .rng 0 4, 0⟩]

/-- The rows of 0x2100 … 0x21FF. -/
def dict21 : List Row :=
  [⟨0x2100, 0x2100, 0x01, 0x01, .u8, .ro, .rng 0 4, 0⟩,
   ⟨0x2100, 0x2100, 0x02, 0x02, .u32, .wo, .one [1279459856, 1279459858, 1279459859, 1279459860], 0⟩,
   ⟨0x2100, 0x2100, 0x03, 0x03, .u8, .ro, .rng 0 4, 255⟩,
   ⟨0x2100, 0x2100, 0x04, 0x04, .u8, .rw, .any, 127⟩,
   ⟨0x2100, 0x2100, 0x05, 0x05, .u8, .ro, .rng 0 6, 255⟩,
   ⟨0x2100, 0x2100, 0x06, 0x06, .u32, .rw, .rng 0 4294967295, 0⟩,
   ⟨0x2100, 0x2100, 0x07, 0x07, .u8, .rw, .any, 16⟩,
   ⟨0x2100, 0x2100, 0x08, 0x08, .u32, .ro, .any, 0⟩,
   ⟨0x2100, 0x2100, 0x09, 0x09, .oct, .ro, .len 28 28, 0⟩]

/-- The rows of 0x2200 … 0x22FF. -/
def dict22 : List Row :=
  [⟨0x2200, 0x2200, 0x01, 0x01, .u8, .ro, .rng 0 3, 0⟩,
   ⟨0x2200, 0x2200, 0x02, 0x02, .u8, .ro, .rng 0 4, 255⟩,
   ⟨0x2200, 0x2200, 0x03, 0x03, .u32, .ro, .any, 0⟩,
   ⟨0x2200, 0x2200, 0x04, 0x04, .u8, .ro, .rng 30 100, 30⟩,
   ⟨0x2200, 0x2200, 0x05, 0x05, .u16, .rw, .rng 20 2000, 200⟩,
   ⟨0x2200, 0x2200, 0x06, 0x06, .oct, .ro, .len 8 8, 0⟩,
   ⟨0x2200, 0x2200, 0x07, 0x07, .u8, .ro, .any, 0⟩,
   ⟨0x2200, 0x2200, 0x08, 0x08, .i16, .rw, .any, 960⟩,
   ⟨0x2200, 0x2200, 0x09, 0x09, .u32, .ro, .any, 0⟩,
   ⟨0x2200, 0x2200, 0x0A, 0x0A, .u32, .ro, .any, 0⟩,
   ⟨0x2200, 0x2200, 0x0B, 0x0B, .u8, .ro, .rng 0 3, 0⟩,
   ⟨0x2210, 0x2215, 0x01, 0x01, .u8, .ro, .rng 0 3, 0⟩,
   ⟨0x2210, 0x2215, 0x02, 0x02, .i16, .ro, .any, 0⟩,
   ⟨0x2210, 0x2215, 0x03, 0x03, .u8, .ro, .any, 0⟩,
   ⟨0x2220, 0x223B, 0x01, 0x01, .u8, .const, .any, 0⟩,
   ⟨0x2220, 0x223B, 0x02, 0x02, .u8, .const, .rng 0 27, 0⟩,
   ⟨0x2220, 0x223B, 0x03, 0x03, .i16, .ro, .any, 0⟩,
   ⟨0x2220, 0x223B, 0x04, 0x04, .i16, .ro, .any, 0⟩,
   ⟨0x2220, 0x223B, 0x05, 0x05, .u8, .ro, .rng 0 2, 0⟩,
   ⟨0x2220, 0x223B, 0x06, 0x06, .u8, .ro, .rng 0 3, 0⟩,
   ⟨0x2220, 0x223B, 0x07, 0x07, .u32, .ro, .any, 10000⟩,
   ⟨0x2220, 0x223B, 0x08, 0x08, .u32, .rws [.service] true, .one [1279459872], 0⟩,
   ⟨0x2220, 0x223B, 0x09, 0x09, .u32, .wo, .one [1279459873], 0⟩] ++
  [⟨0x2240, 0x2245, 0x01, 0x05, .i16, .rws [.factory, .service] true, .any, 0⟩]

/-- The rows of 0x3000 … 0x30FF. -/
def dict30 : List Row :=
  [⟨0x3000, 0x3000, 0x01, 0x01, .u8, .ro, .rng 0 4, 0⟩,
   ⟨0x3000, 0x3000, 0x02, 0x02, .u8, .ro, .any, 255⟩,
   ⟨0x3000, 0x3000, 0x03, 0x03, .u8, .rw, .rng 0 4, 2⟩,
   ⟨0x3000, 0x3000, 0x04, 0x04, .u16, .rw, .rng 10 3600, 60⟩,
   ⟨0x3000, 0x3000, 0x05, 0x05, .u32, .rw, .rng 1000 1000000000, 10000⟩,
   ⟨0x3000, 0x3000, 0x06, 0x06, .u16, .rw, .rng 10 1000, 50⟩,
   ⟨0x3000, 0x3000, 0x07, 0x07, .u8, .rw, .rng 1 200, 50⟩,
   ⟨0x3000, 0x3000, 0x08, 0x08, .u64, .ro, .any, 18446744073709551615⟩,
   ⟨0x3000, 0x3000, 0x09, 0x09, .fix 8 false, .ro, .any, 4294967296⟩,
   ⟨0x3000, 0x3000, 0x0A, 0x0A, .u32, .ro, .any, 0⟩,
   ⟨0x3000, 0x3000, 0x0B, 0x0B, .i64, .ro, .any, 0⟩,
   ⟨0x3000, 0x3000, 0x0C, 0x0C, .time, .ro, .any, 0⟩,
   ⟨0x3000, 0x3000, 0x0D, 0x0D, .time, .wo, .any, 0⟩,
   ⟨0x3000, 0x3000, 0x0E, 0x0E, .time, .ro, .any, 0⟩,
   ⟨0x3000, 0x3000, 0x0F, 0x0F, .i16, .ro, .any, 0⟩,
   ⟨0x3000, 0x3000, 0x10, 0x10, .u64, .ro, .any, 0⟩,
   ⟨0x3000, 0x3000, 0x11, 0x11, .u64, .ro, .any, 0⟩,
   ⟨0x3010, 0x3011, 0x01, 0x01, .bool, .rw, .any, 0⟩,
   ⟨0x3010, 0x3011, 0x02, 0x02, .u8, .rw, .rng 0 1, 0⟩,
   ⟨0x3010, 0x3011, 0x03, 0x03, .u8, .rw, .rng 0 127, 127⟩,
   ⟨0x3010, 0x3011, 0x04, 0x04, .u8, .rw, .rng 0 4, 0⟩,
   ⟨0x3010, 0x3011, 0x05, 0x05, .u8, .rw, .rng 0 1, 0⟩,
   ⟨0x3010, 0x3011, 0x06, 0x06, .u8, .ro, .rng 0 4, 0⟩,
   ⟨0x3010, 0x3011, 0x07, 0x07, .oct, .ro, .len 8 8, 0⟩,
   ⟨0x3010, 0x3011, 0x08, 0x08, .i64, .ro, .any, 0⟩,
   ⟨0x3010, 0x3011, 0x09, 0x09, .i64, .ro, .any, 0⟩,
   ⟨0x3010, 0x3011, 0x0A, 0x0A, .i32, .ro, .any, 0⟩,
   ⟨0x3010, 0x3011, 0x0B, 0x0B, .i16, .ro, .any, 0⟩,
   ⟨0x3010, 0x3011, 0x0C, 0x0C, .u64, .ro, .any, 0⟩,
   ⟨0x3010, 0x3011, 0x0D, 0x0D, .u64, .ro, .any, 0⟩,
   ⟨0x3010, 0x3011, 0x0E, 0x0E, .u32, .ro, .any, 0⟩,
   ⟨0x3020, 0x3024, 0x01, 0x01, .i32, .rw, .any, 0⟩,
   ⟨0x3020, 0x3024, 0x02, 0x02, .i32, .rws [.factory, .service] true, .any, 0⟩,
   ⟨0x3020, 0x3024, 0x03, 0x03, .i32, .rws [.factory, .service] true, .any, 0⟩,
   ⟨0x3020, 0x3024, 0x04, 0x04, .u8, .const, .rng 0 1, 0⟩]

/-- The rows of 0x3100 … 0x31FF. -/
def dict31 : List Row :=
  [⟨0x3100, 0x3100, 0x01, 0x01, .u8, .const, .any, 8⟩,
   ⟨0x3100, 0x3100, 0x02, 0x02, .u8, .const, .any, 2⟩,
   ⟨0x3100, 0x3100, 0x03, 0x03, .u32, .wo, .one [1279459497], 0⟩,
   ⟨0x3100, 0x3100, 0x04, 0x04, .bool, .ro, .any, 0⟩,
   ⟨0x3110, 0x3117, 0x01, 0x01, .u8, .rw, .rng 0 5, 0⟩,
   ⟨0x3110, 0x3117, 0x02, 0x02, .u8, .rw, .rng 0 1, 0⟩,
   ⟨0x3110, 0x3117, 0x03, 0x03, .i64, .rw, .rng (-1000000000000) 1000000000000, 0⟩,
   ⟨0x3110, 0x3117, 0x04, 0x04, .u32, .rw, .rng 10 1000000000, 1000⟩,
   ⟨0x3110, 0x3117, 0x05, 0x05, .u16, .rw, .rng 1 65535, 1⟩,
   ⟨0x3110, 0x3117, 0x06, 0x06, .u8, .rw, .one [1, 2, 4, 8, 16], 1⟩,
   ⟨0x3110, 0x3117, 0x07, 0x07, .u32, .rw, .rng 1 65535, 1⟩,
   ⟨0x3110, 0x3117, 0x08, 0x08, .u32, .rw, .rng 1 6000000, 1⟩,
   ⟨0x3110, 0x3117, 0x09, 0x09, .time, .rw, .any, 0⟩,
   ⟨0x3110, 0x3117, 0x0A, 0x0A, .bool, .rw, .any, 0⟩,
   ⟨0x3110, 0x3117, 0x0B, 0x0B, .u8, .rw, .rng 0 1, 0⟩,
   ⟨0x3110, 0x3117, 0x0C, 0x0C, .u64, .ro, .any, 0⟩,
   ⟨0x3110, 0x3117, 0x0D, 0x0D, .u16, .ro, .any, 0⟩,
   ⟨0x3120, 0x3121, 0x01, 0x01, .bool, .rw, .any, 0⟩,
   ⟨0x3120, 0x3121, 0x02, 0x02, .u8, .rw, .rng 0 2, 0⟩,
   ⟨0x3120, 0x3121, 0x03, 0x03, .time, .ro, .any, 0⟩,
   ⟨0x3120, 0x3121, 0x04, 0x04, .u64, .ro, .any, 0⟩,
   ⟨0x3120, 0x3121, 0x05, 0x05, .u32, .ro, .any, 0⟩,
   ⟨0x3120, 0x3121, 0x06, 0x06, .i64, .ro, .any, 0⟩,
   ⟨0x3120, 0x3121, 0x07, 0x07, .u32, .rw, .rng 0 10000000, 1000⟩,
   ⟨0x3120, 0x3121, 0x08, 0x08, .dom, .ro, .len 1024 1024, 0⟩]

/-- The rows of 0x4000 … 0x40FF. -/
def dict40 : List Row :=
  [⟨0x4000, 0x4000, 0x01, 0x01, .u8, .const, .any, 0⟩,
   ⟨0x4010, 0x4014, 0x01, 0x01, .oct, .const, .len 6 6, 0⟩,
   ⟨0x4010, 0x4014, 0x02, 0x02, .u8, .ro, .rng 0 3, 0⟩,
   ⟨0x4010, 0x4014, 0x03, 0x03, .u32, .rw, .any, 0⟩,
   ⟨0x4010, 0x4014, 0x04, 0x04, .u8, .rw, .rng 0 32, 24⟩,
   ⟨0x4010, 0x4014, 0x05, 0x05, .u32, .rw, .any, 0⟩,
   ⟨0x4010, 0x4014, 0x06, 0x06, .oct, .rw, .len 16 16, 0⟩,
   ⟨0x4010, 0x4014, 0x07, 0x07, .u8, .rw, .rng 0 128, 64⟩,
   ⟨0x4010, 0x4014, 0x08, 0x08, .u8, .rw, .rng 0 1, 0⟩,
   ⟨0x4010, 0x4014, 0x09, 0x09, .u16, .rw, .rng 1 4094, 1⟩,
   ⟨0x4010, 0x4014, 0x0A, 0x0A, .u64, .ro, .any, 0⟩,
   ⟨0x4010, 0x4014, 0x0B, 0x0B, .u64, .ro, .any, 0⟩,
   ⟨0x4010, 0x4014, 0x0C, 0x0C, .u64, .ro, .any, 0⟩,
   ⟨0x4010, 0x4014, 0x0D, 0x0D, .u64, .ro, .any, 0⟩,
   ⟨0x4010, 0x4014, 0x0E, 0x0E, .u64, .ro, .any, 0⟩,
   ⟨0x4010, 0x4014, 0x0F, 0x0F, .u64, .ro, .any, 0⟩,
   ⟨0x4010, 0x4014, 0x10, 0x10, .u64, .ro, .any, 0⟩,
   ⟨0x4010, 0x4014, 0x11, 0x11, .i16, .ro, .any, 0⟩]

/-- The rows of 0x4100 … 0x41FF. -/
def dict41 : List Row :=
  [⟨0x4100, 0x4100, 0x01, 0x01, .u32, .const, .any, 33554432⟩,
   ⟨0x4100, 0x4100, 0x02, 0x02, .u32, .rw, .rng 1048576 33554432, 25165824⟩,
   ⟨0x4100, 0x4100, 0x03, 0x03, .u32, .ro, .any, 0⟩,
   ⟨0x4100, 0x4100, 0x04, 0x04, .u32, .rw, .rng 1 1000000000, 1000⟩,
   ⟨0x4101, 0x4101, 0x01, 0x01, .u8, .rw, .rng 0 255, 0⟩,
   ⟨0x4110, 0x4110, 0x01, 0x01, .bool, .rw, .any, 0⟩,
   ⟨0x4110, 0x4110, 0x02, 0x02, .u8, .rw, .rngOr 0 4 255, 255⟩,
   ⟨0x4110, 0x4110, 0x03, 0x03, .oct, .rw, .len 16 16, 0⟩,
   ⟨0x4110, 0x4110, 0x04, 0x04, .u16, .rw, .rng 1024 65534, 5004⟩,
   ⟨0x4110, 0x4110, 0x05, 0x05, .u8, .rw, .rng 96 127, 96⟩,
   ⟨0x4110, 0x4110, 0x06, 0x06, .u8, .ro, .rng 0 1, 0⟩,
   ⟨0x4110, 0x4110, 0x07, 0x07, .u32, .ro, .any, 0⟩,
   ⟨0x4111, 0x4111, 0x01, 0x01, .bool, .rw, .any, 1⟩,
   ⟨0x4111, 0x4111, 0x02, 0x02, .u32, .rw, .any, 10000000⟩,
   ⟨0x4111, 0x4111, 0x03, 0x03, .u32, .rw, .any, 1048576⟩,
   ⟨0x4111, 0x4111, 0x04, 0x04, .u32, .rw, .any, 20000000⟩,
   ⟨0x4111, 0x4111, 0x05, 0x05, .u32, .rw, .any, 2097152⟩,
   ⟨0x4111, 0x4111, 0x06, 0x06, .u8, .ro, .any, 0⟩,
   ⟨0x4111, 0x4111, 0x07, 0x07, .u8, .rw, .rng 0 2, 1⟩,
   ⟨0x4112, 0x4112, 0x01, 0x01, .u64, .ro, .any, 0⟩,
   ⟨0x4112, 0x4112, 0x02, 0x02, .u64, .ro, .any, 0⟩,
   ⟨0x4112, 0x4112, 0x03, 0x03, .u64, .ro, .any, 0⟩,
   ⟨0x4112, 0x4112, 0x04, 0x04, .u64, .ro, .any, 0⟩,
   ⟨0x4112, 0x4112, 0x05, 0x05, .u64, .ro, .any, 0⟩,
   ⟨0x4112, 0x4112, 0x06, 0x06, .u64, .ro, .any, 0⟩,
   ⟨0x4120, 0x4120, 0x00, 0x00, .dom, .ro, .len 8192 8192, 0⟩]

/-- The rows of 0x4200 … 0x42FF. -/
def dict42 : List Row :=
  [⟨0x4200, 0x4213, 0x01, 0x01, .bool, .rw, .any, 0⟩,
   ⟨0x4200, 0x4213, 0x02, 0x02, .u32, .rw, .any, 1000000⟩,
   ⟨0x4200, 0x4213, 0x03, 0x03, .u32, .rw, .any, 65536⟩,
   ⟨0x4200, 0x4213, 0x04, 0x04, .u8, .rw, .rng 0 63, 24⟩,
   ⟨0x4200, 0x4213, 0x05, 0x05, .u8, .rw, .rng 0 7, 0⟩,
   ⟨0x4200, 0x4213, 0x06, 0x06, .u64, .ro, .any, 0⟩,
   ⟨0x4200, 0x4213, 0x07, 0x07, .u64, .ro, .any, 0⟩,
   ⟨0x4220, 0x4224, 0x01, 0x01, .bool, .rw, .any, 0⟩,
   ⟨0x4220, 0x4224, 0x02, 0x02, .u8, .rw, .rng 0 1, 0⟩,
   ⟨0x4220, 0x4224, 0x03, 0x03, .u16, .rw, .rng 1 256, 1⟩,
   ⟨0x4220, 0x4224, 0x04, 0x04, .time, .rw, .any, 0⟩,
   ⟨0x4220, 0x4224, 0x05, 0x05, .time, .rw, .any, 0⟩,
   ⟨0x4220, 0x4224, 0x06, 0x06, .u32, .wo, .one [1279459496], 0⟩,
   ⟨0x4220, 0x4224, 0x07, 0x07, .u32, .ro, .any, 0⟩,
   ⟨0x4220, 0x4224, 0x08, 0x08, .bool, .ro, .any, 0⟩,
   ⟨0x4220, 0x4224, 0x09, 0x09, .time, .ro, .any, 0⟩,
   ⟨0x4230, 0x4234, 0x00, 0x00, .dom, .rw, .len 8 2048, 0⟩,
   ⟨0x4238, 0x423C, 0x00, 0x00, .dom, .ro, .len 8 2048, 0⟩]

/-- The rows of 0x5000 … 0x50FF. -/
def dict50 : List Row :=
  [⟨0x5000, 0x5000, 0x01, 0x01, .time, .rw, .any, 0⟩,
   ⟨0x5000, 0x5000, 0x02, 0x02, .u32, .rw, .rng 1 65535, 1⟩,
   ⟨0x5000, 0x5000, 0x03, 0x03, .u32, .rw, .rng 1 6000000, 60⟩,
   ⟨0x5000, 0x5000, 0x04, 0x04, .u8, .rw, .one [1, 4, 8, 16], 16⟩,
   ⟨0x5000, 0x5000, 0x05, 0x05, .u32, .wo, .one [1279459489], 0⟩,
   ⟨0x5000, 0x5000, 0x06, 0x06, .time, .ro, .any, 0⟩,
   ⟨0x5000, 0x5000, 0x07, 0x07, .u32, .ro, .any, 1⟩,
   ⟨0x5000, 0x5000, 0x08, 0x08, .u32, .ro, .any, 60⟩,
   ⟨0x5000, 0x5000, 0x09, 0x09, .u8, .ro, .any, 16⟩,
   ⟨0x5000, 0x5000, 0x0A, 0x0A, .u8, .ro, .rng 0 3, 0⟩,
   ⟨0x5000, 0x5000, 0x0B, 0x0B, .u64, .ro, .any, 0⟩,
   ⟨0x5000, 0x5000, 0x0C, 0x0C, .time, .ro, .any, 0⟩,
   ⟨0x5001, 0x5001, 0x01, 0x01, .u32, .rw, .rng 200 2000, 500⟩,
   ⟨0x5001, 0x5001, 0x02, 0x02, .u32, .rw, .rng 2000 10000, 4000⟩,
   ⟨0x5001, 0x5001, 0x03, 0x03, .u8, .rw, .rng 0 60, 4⟩,
   ⟨0x5001, 0x5001, 0x04, 0x04, .u8, .rw, .rng 0 10, 1⟩,
   ⟨0x5001, 0x5001, 0x05, 0x05, .u16, .rw, .rng 0 960, 128⟩,
   ⟨0x5001, 0x5001, 0x06, 0x06, .u8, .rw, .rng 0 1, 0⟩,
   ⟨0x5001, 0x5001, 0x07, 0x07, .bool, .rw, .any, 1⟩,
   ⟨0x5002, 0x5002, 0x01, 0x01, .u64, .ro, .any, 0⟩,
   ⟨0x5002, 0x5002, 0x02, 0x02, .u64, .ro, .any, 0⟩,
   ⟨0x5002, 0x5002, 0x03, 0x03, .u64, .ro, .any, 0⟩,
   ⟨0x5002, 0x5002, 0x04, 0x04, .u64, .ro, .any, 0⟩,
   ⟨0x5002, 0x5002, 0x05, 0x05, .u64, .ro, .any, 0⟩,
   ⟨0x5002, 0x5002, 0x06, 0x06, .u8, .ro, .rng 0 5, 0⟩,
   ⟨0x5002, 0x5002, 0x07, 0x07, .u16, .ro, .rng 0 960, 0⟩,
   ⟨0x5002, 0x5002, 0x08, 0x08, .u16, .ro, .rng 0 960, 0⟩,
   ⟨0x5002, 0x5002, 0x09, 0x09, .bool, .ro, .any, 0⟩,
   ⟨0x5002, 0x5002, 0x0A, 0x0A, .u32, .ro, .any, 0⟩,
   ⟨0x5002, 0x5002, 0x0B, 0x0B, .u32, .ro, .any, 0⟩,
   ⟨0x5002, 0x5002, 0x0C, 0x0C, .i32, .ro, .any, 0⟩,
   ⟨0x5002, 0x5002, 0x0D, 0x0D, .u64, .ro, .any, 0⟩,
   ⟨0x5002, 0x5002, 0x0E, 0x0E, .u32, .ro, .any, 0⟩,
   ⟨0x5005, 0x5005, 0x00, 0x00, .dom, .ro, .len 23040 23040, 0⟩,
   ⟨0x5003, 0x5003, 0x01, 0x01, .u64, .ro, .any, 0⟩,
   ⟨0x5003, 0x5003, 0x02, 0x02, .u64, .ro, .any, 0⟩,
   ⟨0x5003, 0x5003, 0x03, 0x03, .u64, .ro, .any, 0⟩,
   ⟨0x5003, 0x5003, 0x04, 0x04, .u64, .ro, .any, 0⟩,
   ⟨0x5003, 0x5003, 0x05, 0x05, .u64, .ro, .any, 0⟩,
   ⟨0x5003, 0x5003, 0x06, 0x06, .u64, .ro, .any, 0⟩] ++
  [⟨0x5003, 0x5003, 0x07, 0x07, .u64, .ro, .any, 0⟩,
   ⟨0x5003, 0x5003, 0x08, 0x08, .u64, .ro, .any, 0⟩,
   ⟨0x5003, 0x5003, 0x09, 0x09, .u64, .ro, .any, 0⟩,
   ⟨0x5003, 0x5003, 0x0A, 0x0A, .u64, .ro, .any, 0⟩,
   ⟨0x5004, 0x5004, 0x01, 0x40, .u8, .ro, .rng 0 60, 0⟩]

/-- The rows of 0x5100 … 0x51FF. -/
def dict51 : List Row :=
  [⟨0x5100, 0x513F, 0x01, 0x01, .bool, .rw, .any, 0⟩,
   ⟨0x5100, 0x513F, 0x02, 0x02, .u8, .rw, .rng 0 2, 0⟩,
   ⟨0x5100, 0x513F, 0x03, 0x03, .u16, .rw, .rngOr 0 255 65535, 65535⟩,
   ⟨0x5100, 0x513F, 0x04, 0x04, .u8, .rw, .rng 0 255, 0⟩,
   ⟨0x5100, 0x513F, 0x05, 0x05, .u16, .rw, .rng 1 4096, 1920⟩,
   ⟨0x5100, 0x513F, 0x06, 0x06, .u16, .rw, .rng 1 2160, 1080⟩,
   ⟨0x5100, 0x513F, 0x07, 0x07, .fix 4 false, .rw, .rng 4096 1048576, 65536⟩,
   ⟨0x5100, 0x513F, 0x08, 0x08, .fix 4 false, .rw, .rng 4096 1048576, 65536⟩,
   ⟨0x5100, 0x513F, 0x09, 0x09, .fix 4 true, .rw, .rng (-2147483648) 2147483647, 0⟩,
   ⟨0x5100, 0x513F, 0x0A, 0x0A, .fix 4 true, .rw, .rng (-2147483648) 2147483647, 0⟩,
   ⟨0x5100, 0x513F, 0x0B, 0x0B, .fix 2 true, .rw, .rng (-32768) 32767, 0⟩,
   ⟨0x5100, 0x513F, 0x0C, 0x0C, .u8, .rw, .rng 0 67, 0⟩,
   ⟨0x5100, 0x513F, 0x0D, 0x0D, .u8, .rw, .rng 0 255, 0⟩,
   ⟨0x5100, 0x513F, 0x0E, 0x0E, .u32, .rw, .any, 0⟩,
   ⟨0x5100, 0x513F, 0x0F, 0x0F, .u64, .rw, .any, 0⟩,
   ⟨0x5100, 0x513F, 0x10, 0x10, .bool, .rw, .any, 0⟩,
   ⟨0x5180, 0x5180, 0x01, 0x01, .u32, .wo, .one [1279459491], 0⟩,
   ⟨0x5180, 0x5180, 0x02, 0x02, .u64, .rw, .any, 0⟩,
   ⟨0x5180, 0x5180, 0x03, 0x03, .bool, .ro, .any, 0⟩,
   ⟨0x5180, 0x5180, 0x04, 0x04, .u64, .ro, .any, 0⟩,
   ⟨0x5180, 0x5180, 0x05, 0x05, .u8, .rw, .rng 2 16, 16⟩,
   ⟨0x5180, 0x5180, 0x06, 0x06, .u16, .rw, .rng 50 10000, 500⟩,
   ⟨0x5180, 0x5180, 0x07, 0x07, .u32, .const, .any, 2048⟩,
   ⟨0x5180, 0x5180, 0x08, 0x08, .u32, .ro, .rng 0 2048, 0⟩,
   ⟨0x5140, 0x517F, 0x01, 0x01, .u8, .ro, .rng 0 4, 0⟩,
   ⟨0x5140, 0x517F, 0x02, 0x02, .u64, .ro, .any, 0⟩,
   ⟨0x5140, 0x517F, 0x03, 0x03, .u8, .ro, .rng 0 255, 0⟩,
   ⟨0x5140, 0x517F, 0x04, 0x04, .u8, .ro, .rng 0 3, 0⟩,
   ⟨0x5140, 0x517F, 0x05, 0x05, .u64, .ro, .any, 0⟩,
   ⟨0x5140, 0x517F, 0x06, 0x06, .u32, .ro, .any, 0⟩,
   ⟨0x5140, 0x517F, 0x07, 0x07, .u16, .ro, .rng 0 2176, 0⟩,
   ⟨0x5140, 0x517F, 0x08, 0x08, .u64, .ro, .any, 0⟩,
   ⟨0x5140, 0x517F, 0x09, 0x09, .u64, .ro, .any, 0⟩,
   ⟨0x5140, 0x517F, 0x0A, 0x0A, .u64, .ro, .any, 0⟩,
   ⟨0x5140, 0x517F, 0x0B, 0x0B, .u64, .ro, .any, 0⟩,
   ⟨0x5140, 0x517F, 0x0C, 0x0C, .u64, .ro, .any, 0⟩,
   ⟨0x5140, 0x517F, 0x0D, 0x0D, .u64, .ro, .any, 0⟩,
   ⟨0x51B0, 0x51B0, 0x01, 0x01, .u32, .ro, .any, 114688⟩,
   ⟨0x51B0, 0x51B0, 0x02, 0x02, .u32, .ro, .any, 114688⟩,
   ⟨0x51B0, 0x51B0, 0x03, 0x03, .u16, .ro, .rng 0 256, 0⟩] ++
  [⟨0x51B1, 0x51B1, 0x01, 0x01, .u8, .rw, .rng 0 255, 0⟩,
   ⟨0x51B1, 0x51B1, 0x02, 0x02, .u8, .rw, .rng 0 63, 0⟩,
   ⟨0x51B1, 0x51B1, 0x03, 0x03, .u64, .rw, .any, 0⟩,
   ⟨0x51B1, 0x51B1, 0x04, 0x04, .u32, .rw, .rng 1 4294967295, 4294967295⟩,
   ⟨0x51B1, 0x51B1, 0x05, 0x05, .u32, .wo, .one [1279459505, 1279459504], 0⟩,
   ⟨0x51B1, 0x51B1, 0x06, 0x06, .u8, .ro, .rng 0 3, 0⟩,
   ⟨0x51B1, 0x51B1, 0x07, 0x07, .u32, .ro, .any, 0⟩,
   ⟨0x51B2, 0x51B2, 0x01, 0x01, .u8, .rw, .rng 0 255, 0⟩,
   ⟨0x51B2, 0x51B2, 0x02, 0x02, .u32, .wo, .one [1279459549], 0⟩,
   ⟨0x51B3, 0x51B3, 0x00, 0x00, .dom, .rw, .len 0 4294967295, 0⟩,
   ⟨0x51B4, 0x51B4, 0x00, 0x00, .dom, .ro, .len 4096 4096, 0⟩,
   ⟨0x5190, 0x5197, 0x00, 0x00, .dom, .rw, .len 0 67108864, 0⟩,
   ⟨0x51A0, 0x51A7, 0x01, 0x01, .u8, .rw, .rng 0 63, 0⟩,
   ⟨0x51A0, 0x51A7, 0x02, 0x02, .u8, .rw, .rng 0 63, 0⟩,
   ⟨0x51A0, 0x51A7, 0x03, 0x03, .u8, .rw, .rng 0 33, 0⟩,
   ⟨0x51A0, 0x51A7, 0x04, 0x04, .u8, .rw, .rng 1 64, 1⟩,
   ⟨0x51A0, 0x51A7, 0x05, 0x05, .u8, .rw, .rng 1 34, 1⟩,
   ⟨0x51A0, 0x51A7, 0x06, 0x06, .u8, .rw, .rng 0 7, 0⟩,
   ⟨0x51A0, 0x51A7, 0x07, 0x07, .u32, .wo, .one [1279459492], 0⟩,
   ⟨0x51A0, 0x51A7, 0x08, 0x08, .u8, .ro, .rng 0 6, 0⟩,
   ⟨0x51A0, 0x51A7, 0x09, 0x09, .u64, .ro, .any, 0⟩,
   ⟨0x51A0, 0x51A7, 0x0A, 0x0A, .u8, .ro, .rng 0 5, 0⟩]

/-- The rows of 0x5200 … 0x52FF. -/
def dict52 : List Row :=
  [⟨0x5200, 0x5203, 0x01, 0x01, .bool, .rw, .any, 0⟩,
   ⟨0x5200, 0x5203, 0x02, 0x02, .fix 2 true, .rw, .rng (-32768) 32767, 0⟩,
   ⟨0x5200, 0x5203, 0x03, 0x03, .u8, .rw, .rng 0 67, 0⟩]

/-- The rows of 0x5300 … 0x53FF. -/
def dict53 : List Row :=
  [⟨0x5300, 0x5300, 0x01, 0x01, .u8, .rw, .rng 4 18, 16⟩,
   ⟨0x5300, 0x5300, 0x02, 0x02, .u32, .ro, .any, 1276224⟩,
   ⟨0x5300, 0x5300, 0x03, 0x03, .u8, .const, .any, 68⟩,
   ⟨0x5300, 0x5300, 0x04, 0x04, .u8, .ro, .rng 0 64, 64⟩,
   ⟨0x5300, 0x5300, 0x05, 0x05, .u8, .ro, .rng 0 4, 4⟩,
   ⟨0x5300, 0x5300, 0x06, 0x06, .u8, .ro, .rng 0 68, 0⟩,
   ⟨0x5300, 0x5300, 0x07, 0x07, .u16, .ro, .any, 1250⟩,
   ⟨0x5301, 0x5301, 0x01, 0x40, .u8, .rw, .rng 0 3, 0⟩,
   ⟨0x5310, 0x5310, 0x00, 0x00, .dom, .const, .len 768 768, 0⟩,
   ⟨0x5311, 0x5313, 0x00, 0x00, .dom, .rw, .len 768 768, 0⟩,
   ⟨0x5320, 0x5363, 0x01, 0x01, .u8, .ro, .rng 0 3, 0⟩,
   ⟨0x5320, 0x5363, 0x02, 0x02, .u64, .ro, .any, 0⟩,
   ⟨0x5320, 0x5363, 0x03, 0x03, .u64, .ro, .any, 0⟩,
   ⟨0x5320, 0x5363, 0x04, 0x04, .u32, .ro, .any, 0⟩,
   ⟨0x5320, 0x5363, 0x05, 0x05, .u16, .ro, .any, 0⟩,
   ⟨0x5320, 0x5363, 0x06, 0x06, .u8, .ro, .rng 0 3, 0⟩,
   ⟨0x5304, 0x5304, 0x01, 0x01, .u64, .ro, .any, 0⟩,
   ⟨0x5304, 0x5304, 0x02, 0x02, .u64, .ro, .any, 0⟩,
   ⟨0x5304, 0x5304, 0x03, 0x03, .u64, .ro, .any, 0⟩,
   ⟨0x5304, 0x5304, 0x04, 0x04, .u64, .ro, .any, 0⟩,
   ⟨0x5304, 0x5304, 0x05, 0x05, .u64, .ro, .any, 0⟩,
   ⟨0x5304, 0x5304, 0x06, 0x06, .u32, .ro, .any, 0⟩,
   ⟨0x5304, 0x5304, 0x07, 0x07, .u16, .ro, .rng 0 960, 0⟩,
   ⟨0x5304, 0x5304, 0x08, 0x08, .u8, .ro, .rng 1 60, 1⟩,
   ⟨0x5304, 0x5304, 0x09, 0x09, .u16, .ro, .rng 0 960, 0⟩,
   ⟨0x5304, 0x5304, 0x0A, 0x0A, .u32, .ro, .any, 0⟩,
   ⟨0x5304, 0x5304, 0x0B, 0x0B, .u32, .ro, .any, 0⟩,
   ⟨0x5304, 0x5304, 0x0C, 0x0C, .u32, .ro, .any, 0⟩,
   ⟨0x5304, 0x5304, 0x0D, 0x0D, .u16, .ro, .any, 0⟩]

/-- The rows of 0x5400 … 0x54FF. -/
def dict54 : List Row :=
  [⟨0x5400, 0x5400, 0x01, 0x01, .u8, .rw, .rng 0 1, 0⟩,
   ⟨0x5400, 0x5400, 0x02, 0x02, .u32, .const, .any, 4096⟩,
   ⟨0x5400, 0x5400, 0x03, 0x06, .u64, .ro, .any, 0⟩,
   ⟨0x5404, 0x5407, 0x00, 0x00, .dom, .wo, .len 14 12441608, 0⟩,
   ⟨0x5408, 0x540F, 0x01, 0x01, .u8, .rw, .rng 0 3, 0⟩,
   ⟨0x5408, 0x540F, 0x02, 0x02, .u16, .rw, .rng 0 1919, 0⟩,
   ⟨0x5408, 0x540F, 0x03, 0x03, .u16, .rw, .rng 0 1079, 0⟩,
   ⟨0x5408, 0x540F, 0x04, 0x04, .u16, .rw, .rng 1 1920, 1920⟩,
   ⟨0x5408, 0x540F, 0x05, 0x05, .u16, .rw, .rng 1 1080, 1080⟩,
   ⟨0x5408, 0x540F, 0x06, 0x06, .u32, .wo, .one [1279459493], 0⟩,
   ⟨0x5408, 0x540F, 0x07, 0x07, .u8, .ro, .rng 0 6, 0⟩,
   ⟨0x5408, 0x540F, 0x08, 0x08, .u64, .ro, .any, 0⟩,
   ⟨0x5410, 0x5413, 0x01, 0x01, .bool, .rw, .any, 0⟩,
   ⟨0x5410, 0x5413, 0x02, 0x02, .u8, .rw, .rng 0 31, 15⟩,
   ⟨0x5410, 0x5413, 0x03, 0x03, .u8, .rw, .rng 0 31, 15⟩,
   ⟨0x5410, 0x5413, 0x04, 0x04, .u8, .rw, .rng 0 1, 0⟩,
   ⟨0x5410, 0x5413, 0x05, 0x05, .u8, .rw, .rng 0 4, 0⟩,
   ⟨0x5410, 0x5413, 0x06, 0x06, .oct, .rw, .len 16 16, 0⟩,
   ⟨0x5410, 0x5413, 0x07, 0x07, .u16, .rw, .rng 1024 65535, 5004⟩,
   ⟨0x5410, 0x5413, 0x08, 0x08, .u8, .rw, .rng 96 127, 96⟩,
   ⟨0x5410, 0x5413, 0x09, 0x09, .u32, .rw, .any, 0⟩,
   ⟨0x5410, 0x5413, 0x0A, 0x0A, .u8, .rw, .rng 1 255, 1⟩,
   ⟨0x5410, 0x5413, 0x0B, 0x0B, .u64, .ro, .any, 0⟩,
   ⟨0x5410, 0x5413, 0x0C, 0x0C, .u64, .ro, .any, 0⟩,
   ⟨0x5418, 0x5418, 0x01, 0x01, .u8, .rw, .rng 0 31, 0⟩,
   ⟨0x5418, 0x5418, 0x02, 0x02, .u8, .rw, .rng 0 29, 0⟩,
   ⟨0x5418, 0x5418, 0x03, 0x03, .u8, .rw, .rng 1 32, 1⟩,
   ⟨0x5418, 0x5418, 0x04, 0x04, .u8, .rw, .rng 1 30, 1⟩,
   ⟨0x5418, 0x5418, 0x05, 0x05, .u16, .rw, .rng 1 262, 1⟩,
   ⟨0x5418, 0x5418, 0x06, 0x06, .u64, .rw, .any, 0⟩,
   ⟨0x5418, 0x5418, 0x07, 0x07, .u32, .wo, .one [1279459521, 1279459520], 0⟩,
   ⟨0x5418, 0x5418, 0x08, 0x08, .u8, .ro, .rng 0 4, 0⟩,
   ⟨0x5418, 0x5418, 0x09, 0x09, .u16, .ro, .any, 0⟩,
   ⟨0x5418, 0x5418, 0x0A, 0x0A, .u8, .ro, .rng 0 3, 0⟩,
   ⟨0x5419, 0x5419, 0x01, 0x01, .u16, .rw, .rng 0 261, 0⟩,
   ⟨0x5419, 0x5419, 0x02, 0x02, .u8, .rw, .rng 0 31, 0⟩,
   ⟨0x541A, 0x541A, 0x00, 0x00, .dom, .ro, .len 32 13271072, 0⟩,
   ⟨0x5420, 0x542F, 0x01, 0x01, .bool, .rw, .any, 0⟩,
   ⟨0x5420, 0x542F, 0x02, 0x02, .u16, .rw, .rng 0 1919, 0⟩,
   ⟨0x5420, 0x542F, 0x03, 0x03, .u16, .rw, .rng 0 1079, 0⟩] ++
  [⟨0x5420, 0x542F, 0x04, 0x04, .u16, .rw, .rng 1 1920, 1⟩,
   ⟨0x5420, 0x542F, 0x05, 0x05, .u16, .rw, .rng 1 1080, 1⟩,
   ⟨0x5420, 0x542F, 0x06, 0x06, .oct, .rw, .len 128 128, 0⟩,
   ⟨0x5420, 0x542F, 0x07, 0x07, .u32, .rw, .any, 0⟩,
   ⟨0x5420, 0x542F, 0x08, 0x08, .bool, .rw, .any, 0⟩,
   ⟨0x5420, 0x542F, 0x09, 0x09, .u32, .wo, .one [1279459553], 0⟩,
   ⟨0x5440, 0x544F, 0x01, 0x01, .u64, .ro, .any, 0⟩,
   ⟨0x5440, 0x544F, 0x02, 0x02, .u32, .ro, .any, 0⟩,
   ⟨0x5440, 0x544F, 0x03, 0x03, .u32, .ro, .any, 0⟩,
   ⟨0x5440, 0x544F, 0x04, 0x04, .u32, .ro, .any, 0⟩,
   ⟨0x5440, 0x544F, 0x05, 0x05, .u8, .ro, .any, 0⟩,
   ⟨0x5440, 0x544F, 0x06, 0x06, .u8, .ro, .rng 0 4, 0⟩,
   ⟨0x5440, 0x544F, 0x07, 0x07, .u64, .ro, .any, 0⟩,
   ⟨0x5440, 0x544F, 0x08, 0x08, .u64, .ro, .any, 0⟩,
   ⟨0x5440, 0x544F, 0x09, 0x09, .u64, .ro, .any, 0⟩,
   ⟨0x5450, 0x5450, 0x00, 0x00, .dom, .ro, .len 16384 16384, 0⟩]

/-- The rows of 0x5800 … 0x58FF. -/
def dict58 : List Row :=
  [⟨0x5800, 0x5800, 0x01, 0x01, .u32, .rw, .any, 768⟩,
   ⟨0x5800, 0x5800, 0x02, 0x02, .u64, .rw, .any, 0⟩,
   ⟨0x5800, 0x5800, 0x03, 0x03, .u32, .rw, .any, 0⟩,
   ⟨0x5800, 0x5800, 0x04, 0x04, .u64, .rw, .any, 0⟩,
   ⟨0x5800, 0x5800, 0x05, 0x05, .u32, .rw, .any, 0⟩,
   ⟨0x5800, 0x5800, 0x06, 0x06, .u16, .rw, .rng 1 65535, 1⟩,
   ⟨0x5800, 0x5800, 0x07, 0x07, .u16, .rw, .rng 1 65535, 1⟩,
   ⟨0x5800, 0x5800, 0x08, 0x08, .u64, .rw, .any, 0⟩,
   ⟨0x5800, 0x5800, 0x09, 0x09, .u64, .rw, .any, 0⟩,
   ⟨0x5800, 0x5800, 0x0A, 0x0A, .u8, .rw, .rng 0 7, 0⟩,
   ⟨0x5800, 0x5800, 0x0B, 0x0B, .u32, .wo, .one [1279459457, 1279459456], 0⟩,
   ⟨0x5800, 0x5800, 0x0C, 0x0C, .u32, .ro, .any, 0⟩,
   ⟨0x5800, 0x5800, 0x0D, 0x0D, .u32, .ro, .any, 0⟩,
   ⟨0x5800, 0x5800, 0x0E, 0x0E, .u64, .ro, .any, 0⟩,
   ⟨0x5800, 0x5800, 0x0F, 0x0F, .bool, .ro, .any, 0⟩,
   ⟨0x5801, 0x5801, 0x01, 0x01, .u8, .ro, .rng 0 4, 0⟩]

/-- The rows of 0x6000 … 0x60FF. -/
def dict60 : List Row :=
  [⟨0x6000, 0x6000, 0x01, 0x01, .u8, .const, .any, 192⟩,
   ⟨0x6000, 0x6000, 0x02, 0x02, .u8, .ro, .rng 0 192, 0⟩,
   ⟨0x6000, 0x6000, 0x03, 0x03, .u8, .ro, .rng 0 192, 0⟩,
   ⟨0x6000, 0x6000, 0x04, 0x04, .u32, .rw, .rng 1 1000000, 1000⟩,
   ⟨0x6000, 0x6000, 0x05, 0x05, .u8, .rw, .rng 0 32, 16⟩,
   ⟨0x6000, 0x6000, 0x06, 0x06, .u16, .rw, .rng 10 10000, 100⟩,
   ⟨0x6000, 0x6000, 0x07, 0x07, .u32, .const, .any, 32000⟩,
   ⟨0x6010, 0x60CF, 0x01, 0x01, .u8, .rw, .rng 0 3, 0⟩,
   ⟨0x6010, 0x60CF, 0x02, 0x02, .bool, .rw, .any, 1⟩,
   ⟨0x6010, 0x60CF, 0x03, 0x03, .u8, .ro, .rng 0 5, 0⟩,
   ⟨0x6010, 0x60CF, 0x04, 0x04, .u8, .ro, .rng 0 5, 0⟩,
   ⟨0x6010, 0x60CF, 0x05, 0x05, .u64, .ro, .any, 0⟩,
   ⟨0x6010, 0x60CF, 0x06, 0x06, .u64, .ro, .any, 0⟩,
   ⟨0x6010, 0x60CF, 0x07, 0x07, .u32, .ro, .any, 0⟩,
   ⟨0x6010, 0x60CF, 0x08, 0x08, .u32, .ro, .any, 0⟩,
   ⟨0x6010, 0x60CF, 0x09, 0x09, .oct, .ro, .len 4 4, 0⟩,
   ⟨0x6010, 0x60CF, 0x0A, 0x0A, .u8, .ro, .rng 0 15, 0⟩,
   ⟨0x6010, 0x60CF, 0x0B, 0x0B, .u8, .ro, .rng 0 31, 0⟩,
   ⟨0x6010, 0x60CF, 0x0C, 0x0C, .oct, .ro, .len 8 8, 0⟩,
   ⟨0x6010, 0x60CF, 0x0D, 0x0D, .bool, .rw, .any, 1⟩,
   ⟨0x6010, 0x60CF, 0x0E, 0x0E, .bool, .ro, .any, 0⟩,
   ⟨0x6010, 0x60CF, 0x0F, 0x0F, .u64, .ro, .any, 0⟩,
   ⟨0x6010, 0x60CF, 0x10, 0x10, .u64, .ro, .any, 0⟩,
   ⟨0x6010, 0x60CF, 0x11, 0x11, .u32, .wo, .one [1279460864], 0⟩,
   ⟨0x6010, 0x60CF, 0x12, 0x12, .u8, .rw, .rng 1 5, 1⟩,
   ⟨0x6010, 0x60CF, 0x13, 0x13, .u32, .rw, .rng 1000 4294967295, 1000000⟩,
   ⟨0x6010, 0x60CF, 0x14, 0x14, .u32, .wo, .one [1279459425, 1279459424], 0⟩,
   ⟨0x6010, 0x60CF, 0x15, 0x15, .u32, .ro, .any, 0⟩,
   ⟨0x6010, 0x60CF, 0x16, 0x16, .u32, .ro, .any, 0⟩]

/-- The rows of 0x6100 … 0x61FF. -/
def dict61 : List Row :=
  [⟨0x6100, 0x6100, 0x01, 0x01, .u8, .const, .any, 96⟩,
   ⟨0x6100, 0x6100, 0x02, 0x02, .u16, .ro, .rng 0 960, 0⟩,
   ⟨0x6100, 0x6100, 0x03, 0x03, .u32, .wo, .one [1279459494], 0⟩,
   ⟨0x6100, 0x6100, 0x04, 0x04, .u16, .rw, .rng 50 10000, 500⟩,
   ⟨0x6100, 0x6100, 0x05, 0x05, .bool, .ro, .any, 0⟩,
   ⟨0x6100, 0x6100, 0x06, 0x06, .u16, .rw, .rng 10 10000, 100⟩,
   ⟨0x6100, 0x6100, 0x07, 0x07, .u32, .const, .any, 4000⟩,
   ⟨0x6100, 0x6100, 0x08, 0x08, .u16, .const, .any, 2000⟩,
   ⟨0x6100, 0x6100, 0x09, 0x09, .u64, .ro, .any, 0⟩,
   ⟨0x6100, 0x6100, 0x0A, 0x0A, .u64, .ro, .any, 0⟩,
   ⟨0x6110, 0x616F, 0x01, 0x01, .u8, .ro, .rng 0 4, 0⟩,
   ⟨0x6110, 0x616F, 0x02, 0x02, .u8, .rw, .rng 1 10, 10⟩,
   ⟨0x6110, 0x616F, 0x03, 0x03, .u8, .ro, .rng 0 10, 0⟩,
   ⟨0x6110, 0x616F, 0x04, 0x04, .u8, .ro, .rng 0 9, 255⟩,
   ⟨0x6110, 0x616F, 0x05, 0x05, .u32, .ro, .any, 0⟩,
   ⟨0x6110, 0x616F, 0x06, 0x06, .u32, .ro, .any, 0⟩,
   ⟨0x6110, 0x616F, 0x07, 0x07, .u64, .ro, .any, 0⟩,
   ⟨0x6110, 0x616F, 0x08, 0x08, .u64, .ro, .any, 0⟩,
   ⟨0x6110, 0x616F, 0x10, 0x19, .u16, .rw, .mapEntry, 65535⟩,
   ⟨0x6180, 0x6180, 0x01, 0x01, .u8, .rw, .rng 0 95, 0⟩,
   ⟨0x6180, 0x6180, 0x02, 0x02, .u8, .rw, .rng 0 9, 0⟩,
   ⟨0x6181, 0x6181, 0x01, 0x01, .u8, .ro, .rng 0 7, 0⟩,
   ⟨0x6181, 0x6181, 0x02, 0x02, .u64, .ro, .any, 0⟩,
   ⟨0x6181, 0x6181, 0x03, 0x03, .u8, .ro, .any, 0⟩,
   ⟨0x6181, 0x6181, 0x04, 0x04, .u16, .ro, .any, 0⟩,
   ⟨0x6181, 0x6181, 0x05, 0x05, .u8, .ro, .rng 0 1, 0⟩,
   ⟨0x6181, 0x6181, 0x06, 0x06, .u32, .ro, .any, 0⟩,
   ⟨0x6181, 0x6181, 0x07, 0x07, .i16, .ro, .any, 0⟩,
   ⟨0x6181, 0x6181, 0x08, 0x08, .u8, .ro, .any, 0⟩,
   ⟨0x6181, 0x6181, 0x09, 0x09, .u32, .ro, .any, 0⟩,
   ⟨0x6181, 0x6181, 0x0A, 0x0A, .u16, .ro, .any, 0⟩,
   ⟨0x6181, 0x6181, 0x0B, 0x0B, .u8, .ro, .rng 0 2, 0⟩,
   ⟨0x6181, 0x6181, 0x0C, 0x0C, .u32, .wo, .one [1279462155], 0⟩,
   ⟨0x6182, 0x6182, 0x00, 0x00, .dom, .ro, .len 15360 15360, 0⟩]

/-- The rows of 0x6200 … 0x62FF. -/
def dict62 : List Row :=
  [⟨0x6200, 0x6200, 0x01, 0x01, .u16, .rw, .rng 0 4095, 4095⟩,
   ⟨0x6200, 0x6200, 0x02, 0x02, .u16, .ro, .any, 4095⟩,
   ⟨0x6200, 0x6200, 0x03, 0x03, .u8, .ro, .rng 0 10, 10⟩,
   ⟨0x6200, 0x6200, 0x04, 0x04, .u16, .rw, .rng 60 3600, 600⟩,
   ⟨0x6200, 0x6200, 0x05, 0x05, .u64, .ro, .any, 0⟩,
   ⟨0x6200, 0x6200, 0x06, 0x06, .u32, .ro, .any, 0⟩,
   ⟨0x6201, 0x6201, 0x00, 0x00, .oct, .rw, .len 64 64, 0⟩,
   ⟨0x6202, 0x6202, 0x00, 0x00, .oct, .rw, .len 8 8, 0⟩,
   ⟨0x6210, 0x6210, 0x01, 0x01, .u8, .rw, .rng 0 31, 0⟩,
   ⟨0x6210, 0x6210, 0x02, 0x02, .u8, .rw, .rng 0 29, 0⟩,
   ⟨0x6211, 0x6211, 0x01, 0x01, .u8, .ro, .any, 0⟩,
   ⟨0x6211, 0x6211, 0x02, 0x02, .u32, .ro, .any, 0⟩,
   ⟨0x6211, 0x6211, 0x03, 0x03, .u32, .ro, .any, 0⟩,
   ⟨0x6211, 0x6211, 0x04, 0x04, .time, .ro, .any, 0⟩,
   ⟨0x6211, 0x6211, 0x05, 0x05, .u64, .ro, .any, 0⟩,
   ⟨0x6211, 0x6211, 0x06, 0x06, .u8, .ro, .rng 0 7, 3⟩,
   ⟨0x6211, 0x6211, 0x07, 0x07, .u16, .ro, .rng 0 969, 0⟩,
   ⟨0x6211, 0x6211, 0x08, 0x08, .u32, .wo, .one [1279462412], 0⟩,
   ⟨0x6212, 0x6212, 0x00, 0x00, .dom, .ro, .len 552960 552960, 0⟩,
   ⟨0x6213, 0x6213, 0x00, 0x00, .dom, .ro, .len 276480 276480, 0⟩,
   ⟨0x6220, 0x6227, 0x01, 0x01, .u8, .rw, .rng 0 31, 0⟩,
   ⟨0x6220, 0x6227, 0x02, 0x02, .u8, .rw, .rng 0 29, 0⟩,
   ⟨0x6220, 0x6227, 0x03, 0x03, .u32, .wo, .one [1279459495], 0⟩,
   ⟨0x6220, 0x6227, 0x04, 0x04, .u8, .ro, .rng 0 6, 0⟩,
   ⟨0x6220, 0x6227, 0x05, 0x05, .u64, .ro, .any, 0⟩,
   ⟨0x6220, 0x6227, 0x06, 0x06, .u8, .ro, .rng 0 2, 0⟩,
   ⟨0x6230, 0x6237, 0x00, 0x00, .dom, .wo, .len 10 276488, 0⟩]

/-- The rows of 0x6300 … 0x63FF. -/
def dict63 : List Row :=
  [⟨0x6300, 0x6300, 0x01, 0x01, .u8, .const, .any, 64⟩,
   ⟨0x6300, 0x6300, 0x02, 0x02, .bool, .rw, .any, 1⟩,
   ⟨0x6300, 0x6300, 0x03, 0x03, .u16, .rw, .rng 20 500, 120⟩,
   ⟨0x6300, 0x6300, 0x04, 0x04, .u16, .const, .any, 10⟩,
   ⟨0x6300, 0x6300, 0x05, 0x05, .u8, .rw, .rng 0 1, 0⟩,
   ⟨0x6300, 0x6300, 0x06, 0x06, .u64, .ro, .any, 0⟩,
   ⟨0x6301, 0x6301, 0x01, 0x07, .i16, .rw, .any, 0⟩,
   ⟨0x6310, 0x634F, 0x01, 0x01, .u8, .ro, .rng 0 3, 0⟩,
   ⟨0x6310, 0x634F, 0x02, 0x02, .u8, .rw, .rng 0 31, 0⟩,
   ⟨0x6310, 0x634F, 0x03, 0x03, .u8, .rw, .rng 0 29, 0⟩,
   ⟨0x6310, 0x634F, 0x04, 0x04, .u8, .rw, .rng 1 32, 1⟩,
   ⟨0x6310, 0x634F, 0x05, 0x05, .u8, .rw, .rng 1 30, 15⟩,
   ⟨0x6310, 0x634F, 0x06, 0x06, .u8, .ro, .rng 0 7, 3⟩,
   ⟨0x6310, 0x634F, 0x07, 0x07, .i32, .ro, .any, 0⟩,
   ⟨0x6310, 0x634F, 0x08, 0x08, .u16, .ro, .any, 0⟩,
   ⟨0x6310, 0x634F, 0x09, 0x09, .u32, .wo, .one [1279462400], 0⟩,
   ⟨0x6310, 0x634F, 0x0A, 0x0A, .u8, .ro, .rng 0 3, 0⟩,
   ⟨0x6350, 0x6357, 0x00, 0x00, .dom, .rw, .len 136 136, 0⟩]

/-- The rows of 0x6400 … 0x64FF. -/
def dict64 : List Row :=
  [⟨0x6400, 0x6400, 0x01, 0x01, .u8, .rw, .rng 0 95, 0⟩,
   ⟨0x6400, 0x6400, 0x02, 0x02, .u8, .rw, .rng 0 31, 0⟩,
   ⟨0x6400, 0x6400, 0x03, 0x03, .u8, .rw, .rng 0 29, 0⟩,
   ⟨0x6400, 0x6400, 0x04, 0x04, .u8, .rw, .rng 1 4, 4⟩,
   ⟨0x6400, 0x6400, 0x05, 0x05, .u8, .rw, .rng 1 4, 4⟩,
   ⟨0x6400, 0x6400, 0x06, 0x06, .u16, .rw, .rng 20 1000, 100⟩,
   ⟨0x6400, 0x6400, 0x07, 0x07, .oct, .rw, .len 48 48, 0⟩,
   ⟨0x6400, 0x6400, 0x08, 0x08, .u64, .const, .any, 9814671360⟩,
   ⟨0x6400, 0x6400, 0x09, 0x09, .u8, .ro, .rng 0 1, 0⟩,
   ⟨0x6400, 0x6400, 0x0A, 0x0A, .u8, .ro, .rng 0 10, 0⟩,
   ⟨0x6401, 0x6401, 0x01, 0x01, .u8, .ro, .rng 0 2, 0⟩,
   ⟨0x6401, 0x6401, 0x02, 0x02, .u8, .ro, .rng 0 5, 0⟩,
   ⟨0x6401, 0x6401, 0x03, 0x03, .u32, .wo, .one [1279463183, 1279463168], 0⟩,
   ⟨0x6401, 0x6401, 0x04, 0x04, .u32, .ro, .any, 0⟩,
   ⟨0x6401, 0x6401, 0x05, 0x05, .time, .ro, .any, 0⟩]

/-- The rows of 0x7000 … 0x70FF. -/
def dict70 : List Row :=
  [⟨0x7000, 0x7000, 0x01, 0x01, .u8, .const, .any, 36⟩,
   ⟨0x7000, 0x7000, 0x02, 0x02, .u16, .const, .any, 8533⟩,
   ⟨0x7000, 0x7000, 0x03, 0x03, .u8, .ro, .rng 0 4, 4⟩,
   ⟨0x7000, 0x7000, 0x04, 0x04, .u8, .ro, .rng 0 28, 0⟩,
   ⟨0x7000, 0x7000, 0x05, 0x05, .u8, .ro, .rng 0 4, 0⟩,
   ⟨0x7000, 0x7000, 0x06, 0x06, .u8, .rw, .rng 2 60, 48⟩,
   ⟨0x7000, 0x7000, 0x07, 0x07, .u8, .rw, .rng 0 58, 16⟩,
   ⟨0x7000, 0x7000, 0x08, 0x08, .u8, .rw, .rng 1 8, 4⟩,
   ⟨0x7000, 0x7000, 0x09, 0x09, .u16, .rw, .rng 10 10000, 100⟩,
   ⟨0x7000, 0x7000, 0x0A, 0x0A, .u8, .ro, .rng 0 5, 2⟩,
   ⟨0x7000, 0x7000, 0x0B, 0x0B, .u64, .ro, .any, 0⟩,
   ⟨0x7000, 0x7000, 0x0C, 0x0C, .u64, .ro, .any, 0⟩,
   ⟨0x7010, 0x7033, 0x01, 0x01, .u8, .ro, .rng 0 4, 0⟩,
   ⟨0x7010, 0x7033, 0x02, 0x02, .u8, .ro, .rng 0 31, 0⟩,
   ⟨0x7010, 0x7033, 0x03, 0x03, .u8, .ro, .rng 0 5, 0⟩,
   ⟨0x7010, 0x7033, 0x04, 0x04, .u64, .ro, .any, 0⟩,
   ⟨0x7010, 0x7033, 0x05, 0x05, .u64, .ro, .any, 0⟩,
   ⟨0x7010, 0x7033, 0x06, 0x06, .u32, .ro, .any, 0⟩,
   ⟨0x7010, 0x7033, 0x07, 0x07, .u16, .ro, .rng 0 4096, 0⟩,
   ⟨0x7010, 0x7033, 0x08, 0x08, .u64, .ro, .any, 0⟩,
   ⟨0x7010, 0x7033, 0x09, 0x09, .u8, .ro, .rng 0 8, 0⟩,
   ⟨0x7010, 0x7033, 0x0A, 0x0A, .u16, .ro, .any, 0⟩,
   ⟨0x7040, 0x705F, 0x01, 0x01, .u8, .ro, .rng 0 35, 0⟩,
   ⟨0x7040, 0x705F, 0x02, 0x02, .u16, .ro, .rng 0 7167, 65535⟩,
   ⟨0x7060, 0x7060, 0x01, 0x01, .u32, .rws [.service] true, .one [1279461632, 1279461633, 1279461634, 1279461635, 1279461636, 1279461637, 1279461638, 1279461639, 1279461640, 1279461641, 1279461642, 1279461643, 1279461644, 1279461645, 1279461646, 1279461647, 1279461648, 1279461649, 1279461650, 1279461651, 1279461652, 1279461653, 1279461654, 1279461655, 1279461656, 1279461657, 1279461658, 1279461659, 1279461660, 1279461661, 1279461662, 1279461663], 0⟩]

/-- The rows of 0x7100 … 0x71FF. -/
def dict71 : List Row :=
  [⟨0x7100, 0x7100, 0x01, 0x01, .u8, .const, .any, 20⟩,
   ⟨0x7100, 0x7100, 0x02, 0x02, .u8, .ro, .rng 0 16, 16⟩,
   ⟨0x7100, 0x7100, 0x03, 0x03, .u8, .ro, .rng 0 4, 4⟩,
   ⟨0x7100, 0x7100, 0x04, 0x04, .u8, .ro, .rng 0 20, 0⟩,
   ⟨0x7100, 0x7100, 0x05, 0x05, .u8, .const, .any, 4⟩,
   ⟨0x7100, 0x7100, 0x06, 0x06, .u8, .ro, .rng 0 4, 4⟩,
   ⟨0x7100, 0x7100, 0x07, 0x07, .u64, .ro, .any, 0⟩,
   ⟨0x7100, 0x7100, 0x08, 0x08, .u32, .const, .any, 256⟩,
   ⟨0x7101, 0x7101, 0x01, 0x01, .u64, .rw, .rng 0 268435455, 0⟩,
   ⟨0x7101, 0x7101, 0x02, 0x02, .u32, .rw, .rng 0 268435456, 0⟩,
   ⟨0x7102, 0x7102, 0x00, 0x00, .dom, .rw, .len 0 268435456, 0⟩,
   ⟨0x7103, 0x7103, 0x01, 0x01, .u64, .ro, .any, 0⟩,
   ⟨0x7103, 0x7103, 0x02, 0x02, .u64, .ro, .any, 0⟩,
   ⟨0x7103, 0x7103, 0x03, 0x03, .u64, .ro, .any, 0⟩,
   ⟨0x7103, 0x7103, 0x04, 0x04, .u64, .ro, .any, 0⟩,
   ⟨0x7103, 0x7103, 0x05, 0x05, .u64, .ro, .any, 0⟩,
   ⟨0x7110, 0x7117, 0x01, 0x01, .u8, .rw, .rng 0 1, 0⟩,
   ⟨0x7110, 0x7117, 0x02, 0x02, .u64, .rw, .any, 0⟩,
   ⟨0x7110, 0x7117, 0x03, 0x03, .u32, .rw, .any, 0⟩,
   ⟨0x7110, 0x7117, 0x04, 0x04, .u64, .rw, .any, 0⟩,
   ⟨0x7110, 0x7117, 0x05, 0x05, .u32, .rw, .any, 0⟩,
   ⟨0x7110, 0x7117, 0x06, 0x06, .u64, .rw, .any, 0⟩,
   ⟨0x7110, 0x7117, 0x07, 0x07, .u16, .rw, .rng 1 4096, 64⟩,
   ⟨0x7110, 0x7117, 0x08, 0x08, .u16, .rw, .rng 1 2160, 64⟩,
   ⟨0x7110, 0x7117, 0x09, 0x09, .u32, .rw, .any, 384⟩,
   ⟨0x7110, 0x7117, 0x0A, 0x0A, .u8, .rw, .rng 0 255, 0⟩,
   ⟨0x7110, 0x7117, 0x0B, 0x0B, .bool, .rw, .any, 0⟩,
   ⟨0x7110, 0x7117, 0x0C, 0x0C, .u32, .wo, .one [1279459441, 1279459440], 0⟩,
   ⟨0x7110, 0x7117, 0x0D, 0x0D, .u8, .ro, .rng 0 8, 0⟩,
   ⟨0x7110, 0x7117, 0x0E, 0x0E, .u8, .ro, .rng 0 7, 0⟩,
   ⟨0x7110, 0x7117, 0x0F, 0x0F, .u64, .ro, .any, 0⟩,
   ⟨0x7110, 0x7117, 0x10, 0x10, .u64, .ro, .any, 0⟩,
   ⟨0x7110, 0x7117, 0x11, 0x11, .u32, .ro, .any, 0⟩,
   ⟨0x7120, 0x7133, 0x01, 0x01, .u8, .ro, .rng 0 3, 0⟩,
   ⟨0x7120, 0x7133, 0x02, 0x02, .u64, .ro, .any, 0⟩,
   ⟨0x7120, 0x7133, 0x03, 0x03, .u16, .ro, .any, 0⟩,
   ⟨0x7120, 0x7133, 0x04, 0x04, .u8, .ro, .rng 0 2, 0⟩,
   ⟨0x7140, 0x7143, 0x01, 0x01, .u8, .ro, .rng 1 3, 1⟩,
   ⟨0x7140, 0x7143, 0x02, 0x02, .u64, .ro, .any, 0⟩,
   ⟨0x7140, 0x7143, 0x03, 0x03, .u32, .ro, .any, 0⟩]

/-- The rows of 0x7800 … 0x78FF. -/
def dict78 : List Row :=
  [⟨0x7800, 0x7800, 0x01, 0x01, .u8, .rw, .rng 0 5, 0⟩,
   ⟨0x7800, 0x7800, 0x02, 0x02, .u16, .rw, .any, 0⟩,
   ⟨0x7800, 0x7800, 0x03, 0x03, .i16, .rw, .any, 32767⟩,
   ⟨0x7800, 0x7800, 0x04, 0x04, .u32, .rw, .any, 4294967295⟩,
   ⟨0x7800, 0x7800, 0x05, 0x05, .u32, .wo, .one [1279461248, 1279461249, 1279461250, 1279461251], 0⟩,
   ⟨0x7800, 0x7800, 0x06, 0x06, .u8, .ro, .rng 0 11, 0⟩,
   ⟨0x7800, 0x7800, 0x07, 0x07, .u8, .ro, .rng 0 6, 0⟩,
   ⟨0x7800, 0x7800, 0x08, 0x08, .i16, .ro, .any, 0⟩,
   ⟨0x7800, 0x7800, 0x09, 0x09, .i16, .ro, .any, 0⟩,
   ⟨0x7800, 0x7800, 0x0A, 0x0A, .u16, .ro, .any, 0⟩,
   ⟨0x7800, 0x7800, 0x0B, 0x0B, .u8, .rw, .rngOr 0 4 255, 255⟩,
   ⟨0x7800, 0x7800, 0x0C, 0x0C, .u32, .ro, .any, 0⟩,
   ⟨0x7801, 0x7801, 0x00, 0x00, .oct, .ro, .len 2 66, 0⟩,
   ⟨0x7802, 0x7802, 0x00, 0x00, .oct, .ro, .len 2 66, 0⟩,
   ⟨0x7803, 0x7803, 0x00, 0x00, .oct, .ro, .len 2 66, 0⟩,
   ⟨0x7808, 0x7808, 0x01, 0x01, .u8, .rw, .rng 0 5, 0⟩,
   ⟨0x7808, 0x7808, 0x02, 0x02, .u16, .rw, .any, 0⟩,
   ⟨0x7808, 0x7808, 0x03, 0x03, .u8, .rw, .rng 0 4, 0⟩,
   ⟨0x7808, 0x7808, 0x04, 0x04, .bool, .ro, .any, 0⟩,
   ⟨0x7808, 0x7808, 0x05, 0x05, .u32, .rws [.service] true, .one [1279461253], 0⟩,
   ⟨0x7808, 0x7808, 0x06, 0x06, .oct, .ro, .len 20 20, 0⟩,
   ⟨0x7809, 0x7809, 0x00, 0x00, .oct, .rws [.factory] true, .len 2 66, 0⟩,
   ⟨0x780A, 0x780A, 0x00, 0x00, .oct, .ro, .len 2 66, 0⟩,
   ⟨0x780B, 0x780B, 0x00, 0x00, .oct, .ro, .len 2 66, 0⟩]

/-- The rows of 0x7C00 … 0x7CFF. -/
def dict7C : List Row :=
  [⟨0x7C00, 0x7C00, 0x01, 0x01, .bool, .rw, .any, 1⟩,
   ⟨0x7C00, 0x7C00, 0x02, 0x02, .u8, .ro, .rng 0 2, 0⟩,
   ⟨0x7C00, 0x7C00, 0x03, 0x03, .u32, .const, .any, 315392⟩,
   ⟨0x7C00, 0x7C00, 0x04, 0x04, .u32, .ro, .rng 0 315391, 0⟩,
   ⟨0x7C00, 0x7C00, 0x05, 0x05, .u64, .ro, .any, 0⟩,
   ⟨0x7C00, 0x7C00, 0x06, 0x06, .u64, .ro, .any, 0⟩,
   ⟨0x7C00, 0x7C00, 0x07, 0x07, .u64, .ro, .any, 0⟩,
   ⟨0x7C00, 0x7C00, 0x08, 0x08, .u32, .ro, .any, 0⟩,
   ⟨0x7C00, 0x7C00, 0x09, 0x09, .bool, .rw, .any, 1⟩,
   ⟨0x7C00, 0x7C00, 0x0A, 0x0A, .u8, .ro, .rng 0 3, 0⟩,
   ⟨0x7C00, 0x7C00, 0x0B, 0x0B, .time, .ro, .any, 0⟩,
   ⟨0x7C00, 0x7C00, 0x0C, 0x0C, .u32, .ro, .any, 0⟩,
   ⟨0x7C00, 0x7C00, 0x0D, 0x0D, .u16, .ro, .rng 0 4096, 0⟩,
   ⟨0x7C01, 0x7C01, 0x01, 0x01, .u8, .rw, .rng 0 3, 0⟩,
   ⟨0x7C01, 0x7C01, 0x02, 0x02, .u8, .rw, .rng 0 6, 0⟩,
   ⟨0x7C01, 0x7C01, 0x03, 0x03, .u16, .rw, .any, 0⟩,
   ⟨0x7C01, 0x7C01, 0x04, 0x04, .u16, .rw, .rngOr 0 255 65535, 65535⟩,
   ⟨0x7C01, 0x7C01, 0x05, 0x05, .u32, .wo, .one [1279461313, 1279461312], 0⟩,
   ⟨0x7C01, 0x7C01, 0x06, 0x06, .u8, .ro, .rng 0 2, 0⟩,
   ⟨0x7C01, 0x7C01, 0x07, 0x07, .u8, .ro, .rng 0 3, 0⟩,
   ⟨0x7C01, 0x7C01, 0x08, 0x08, .u8, .ro, .rng 0 5, 0⟩,
   ⟨0x7C01, 0x7C01, 0x09, 0x09, .u64, .ro, .any, 0⟩,
   ⟨0x7C01, 0x7C01, 0x0A, 0x0A, .u64, .ro, .any, 0⟩,
   ⟨0x7C01, 0x7C01, 0x0B, 0x0B, .u32, .ro, .any, 0⟩,
   ⟨0x7C01, 0x7C01, 0x0C, 0x0C, .u32, .ro, .any, 0⟩,
   ⟨0x7C01, 0x7C01, 0x0D, 0x0D, .u32, .ro, .any, 0⟩,
   ⟨0x7C02, 0x7C02, 0x00, 0x00, .dom, .ro, .len 16 65552, 0⟩,
   ⟨0x7C03, 0x7C03, 0x00, 0x00, .dom, .ro, .len 8192 8192, 0⟩]

/-- The rows of 0x7E00 … 0x7EFF. -/
def dict7E : List Row :=
  [⟨0x7E00, 0x7E08, 0x01, 0x01, .u32, .const, .any, 0⟩,
   ⟨0x7E00, 0x7E08, 0x02, 0x02, .u32, .const, .any, 0⟩,
   ⟨0x7E00, 0x7E08, 0x03, 0x03, .u32, .ro, .any, 0⟩,
   ⟨0x7E00, 0x7E08, 0x04, 0x04, .u32, .ro, .any, 0⟩,
   ⟨0x7E00, 0x7E08, 0x05, 0x05, .u32, .ro, .any, 0⟩,
   ⟨0x7E00, 0x7E08, 0x06, 0x06, .u64, .ro, .any, 0⟩,
   ⟨0x7E00, 0x7E08, 0x07, 0x07, .u32, .ro, .any, 0⟩]

/-- The rows of 0x7F00 … 0x7FFF. -/
def dict7F : List Row :=
  [⟨0x7F00, 0x7F00, 0x01, 0x01, .u32, .rws [.provisioned, .field] true, .one [1279491841, 1279491840], 0⟩,
   ⟨0x7F00, 0x7F00, 0x02, 0x02, .bool, .ro, .any, 0⟩,
   ⟨0x7F00, 0x7F00, 0x03, 0x03, .u32, .ro, .rng 0 60000, 0⟩,
   ⟨0x7F01, 0x7F01, 0x01, 0x01, .u8, .rw, .rng 1 26, 1⟩,
   ⟨0x7F01, 0x7F01, 0x02, 0x02, .u16, .rw, .any, 0⟩,
   ⟨0x7F01, 0x7F01, 0x03, 0x03, .bool, .rw, .any, 0⟩,
   ⟨0x7F01, 0x7F01, 0x04, 0x04, .u32, .rw, .rng 10 60000, 1000⟩,
   ⟨0x7F01, 0x7F01, 0x05, 0x05, .u32, .wo, .one [1279491937, 1279491936], 0⟩,
   ⟨0x7F01, 0x7F01, 0x06, 0x06, .u8, .ro, .rng 0 2, 0⟩,
   ⟨0x7F01, 0x7F01, 0x07, 0x07, .u32, .ro, .any, 0⟩]

/-- The rows that can hold an index. -/
def dictPage (ix : Nat) : List Row :=
  match ix / 256 with
  | 0x10 => dict10
  | 0x11 => dict11
  | 0x12 => dict12
  | 0x20 => dict20
  | 0x21 => dict21
  | 0x22 => dict22
  | 0x30 => dict30
  | 0x31 => dict31
  | 0x40 => dict40
  | 0x41 => dict41
  | 0x42 => dict42
  | 0x50 => dict50
  | 0x51 => dict51
  | 0x52 => dict52
  | 0x53 => dict53
  | 0x54 => dict54
  | 0x58 => dict58
  | 0x60 => dict60
  | 0x61 => dict61
  | 0x62 => dict62
  | 0x63 => dict63
  | 0x64 => dict64
  | 0x70 => dict70
  | 0x71 => dict71
  | 0x78 => dict78
  | 0x7C => dict7C
  | 0x7E => dict7E
  | 0x7F => dict7F
  | _ => []

/-- The codes of the event tables by severity (R59): NOTICE, WARNING, ERROR and CRITICAL; every other listed code is INFO. -/
def noticeCodes : List Nat :=
  [0x1001, 0x1003, 0x1004, 0x2001, 0x2005, 0x2010, 0x2011, 0x3001, 0x3003, 0x4001,
   0x4003, 0x4004, 0x4007, 0x5001, 0x6001, 0x6002, 0x6005, 0x6008, 0x6010, 0x6013,
   0x6021, 0x6024, 0x7001, 0x7002, 0x7005, 0x7008, 0x700A, 0x7010, 0x8005, 0x8013,
   0x8014, 0x8016, 0x9001, 0x9005, 0x9008, 0x9021, 0x9022, 0xA002, 0xA003, 0xA007,
   0xB001, 0xB003, 0xC001, 0xC003, 0xD004, 0xD005, 0xD007, 0xD009, 0xD00A, 0xE005]

def warningCodes : List Nat :=
  [0x1002, 0x1005, 0x2006, 0x3007, 0x3008, 0x3009, 0x4002, 0x4006, 0x4008, 0x400A,
   0x5002, 0x5003, 0x5004, 0x5005, 0x5007, 0x5008, 0x6004, 0x6006, 0x6009, 0x6011,
   0x6014, 0x6020, 0x6025, 0x7003, 0x7004, 0x7009, 0x700C, 0x7011, 0x8001, 0x8003,
   0x8004, 0x8010, 0x8015, 0x8017, 0x8018, 0x8019, 0x9003, 0x9004, 0x9006, 0x9012,
   0xA001, 0xA005, 0xA008, 0xA00B, 0xB004, 0xB006, 0xB010, 0xC004, 0xD002, 0xD003,
   0xD00C, 0xE003, 0xE004]

def errorCodes : List Nat :=
  [0x1007, 0x1008, 0x2004, 0x3002, 0x6007, 0x6012, 0x8011, 0x8012, 0x9011, 0xA004,
   0xB002, 0xB005, 0xD006]

def criticalCodes : List Nat :=
  [0x1006, 0x2002, 0x2003, 0x3004, 0x3005, 0x3006, 0x9020, 0xA006]

/-- The severity of an event code (R59). -/
def severity (code : Nat) : Nat :=
  if criticalCodes.contains code then 4
  else if errorCodes.contains code then 3
  else if warningCodes.contains code then 2
  else if noticeCodes.contains code then 1
  else 0

/-- The twin of sensor `s` (R466). -/
def sensorTwin (s : Nat) : Nat :=
  if s < 12 then s ^^^ 1 else if s < 17 then 21 else if s < 21 then 22 else if s = 21 then 22 else if s = 22 then 21
  else if s = 23 then 24 else if s < 26 then 23 else if s = 26 then 27 else 26

/-- The zone of sensor `s` (R466). -/
def sensorZone (s : Nat) : Nat :=
  if s < 8 then 1 else if s < 12 then 2 else if s < 23 then 3 else if s < 26 then 4 else 5

/-- The class of sensor `s` (R466). -/
def sensorClass (s : Nat) : Nat :=
  if s < 8 then 0 else if s < 12 then 1 else if s < 21 then 2 else if s < 23 then 3 else if s < 26 then 4 else 5

/-- The default thresholds T1, T2, T3, shutdown and trip of sensor class `c` in °C (R480). -/
def thresholdDefault (c : Nat) : List Int :=
  match c with
  | 0 => [95, 100, 105, 110, 115]
  | 1 => [95, 100, 105, 110, 115]
  | 2 => [85, 90, 95, 100, 105]
  | 3 => [75, 80, 85, 90, 95]
  | 4 => [90, 100, 105, 110, 120]
  | _ => [40, 43, 46, 50, 55]

/-- Installed and needed units of ledger class `k` (R520). -/
def ledgerUnits (k : Nat) : Int × Int :=
  match k with
  | 0 => (68, 64)
  | 1 => (36, 32)
  | 2 => (20, 16)
  | 3 => (19712, 0)
  | 4 => (7, 6)
  | 5 => (28, 28)
  | 6 => (32768, 32256)
  | 7 => (1024, 1008)
  | _ => (96, 0)

/-- Defaults that differ from instance to instance of an object; `bank` is the entry a selector picks, where the object has
one. -/
def instDefault (bank ix sub : Nat) : Option Int :=
  if 0x5100 ≤ ix ∧ ix < 0x5140 ∧ sub = 0x0C then some (ix - 0x5100 : Nat)
  else if 0x5200 ≤ ix ∧ ix < 0x5204 ∧ sub = 3 then some (64 + (ix - 0x5200) : Nat)
  else if 0x51A0 ≤ ix ∧ ix < 0x51A8 ∧ sub = 6 then some (ix - 0x51A0 : Nat)
  else if 0x5320 ≤ ix ∧ ix < 0x5364 ∧ sub = 1 then some (if ix - 0x5320 < 64 then 1 else 0)
  else if ix = 0x5000 ∧ sub = 7 then some 1
  else if ix = 0x5000 ∧ sub = 8 then some 60
  else if ix = 0x5000 ∧ sub = 9 then some 16
  else if ix = 0x5400 ∧ 3 ≤ sub ∧ sub ≤ 6 then some (0x240000000 + 3 * (sub - 3) * 12582912 : Nat)
  else if ix = 0x7100 ∧ sub = 7 then some 0x2A0000000
  else if 0x7120 ≤ ix ∧ ix < 0x7134 ∧ sub = 1 then some (if ix - 0x7120 < 16 then 1 else 0)
  else if 0x7010 ≤ ix ∧ ix < 0x7034 ∧ sub = 1 then some (if ix - 0x7010 < 32 then 1 else 0)
  else if 0x7010 ≤ ix ∧ ix < 0x7034 ∧ sub = 2 then some (if ix - 0x7010 < 32 then (ix - 0x7010 : Nat) else 0xFF)
  else if 0x7010 ≤ ix ∧ ix < 0x7034 ∧ sub = 3 then some 2
  else if 0x7040 ≤ ix ∧ ix < 0x7060 ∧ sub = 1 then some (ix - 0x7040 : Nat)
  else if ix = 0x6211 ∧ sub = 7 then some bank
  else if ix = 0x6301 ∧ 1 ≤ sub ∧ sub ≤ 7 then some (240 + 80 * (sub - 1) : Nat)
  else if 0x6310 ≤ ix ∧ ix < 0x6350 ∧ sub = 2 then some ((ix - 0x6310) / 2 : Nat)
  else if 0x6310 ≤ ix ∧ ix < 0x6350 ∧ sub = 3 then some (15 * ((ix - 0x6310) % 2) : Nat)
  else if 0x4200 ≤ ix ∧ ix < 0x4214 ∧ sub = 5 then some (7 - 2 * ((ix - 0x4200) % 4) : Nat)
  else if ix = 0x3010 ∧ sub = 1 then some 1
  else if 0x3010 ≤ ix ∧ ix < 0x3012 ∧ sub = 4 then some (ix - 0x3010 : Nat)
  else if 0x2021 ≤ ix ∧ ix < 0x2028 ∧ sub = 1 then some (if ix - 0x2021 < 6 then 1 else 0)
  else if 0x2220 ≤ ix ∧ ix < 0x223C ∧ sub = 1 then
    some (sensorZone (ix - 0x2220) * 16 + sensorClass (ix - 0x2220) : Nat)
  else if 0x2220 ≤ ix ∧ ix < 0x223C ∧ sub = 2 then some (sensorTwin (ix - 0x2220))
  else if 0x2240 ≤ ix ∧ ix < 0x2246 ∧ 1 ≤ sub ∧ sub ≤ 5 then some (16 * (thresholdDefault (ix - 0x2240)).getD (sub - 1) 0)
  else if 0x7E00 ≤ ix ∧ ix < 0x7E09 ∧ sub = 1 then some (ledgerUnits (ix - 0x7E00)).1
  else if 0x7E00 ≤ ix ∧ ix < 0x7E09 ∧ sub = 2 then some (ledgerUnits (ix - 0x7E00)).2
  else none

/-- The row of an object. -/
def rowOf (ix sub : Nat) : Option Row :=
  (dictPage ix).find? (fun r => r.lo ≤ ix && ix ≤ r.hi && r.subLo ≤ sub && sub ≤ r.subHi)

/-- Whether any row lists the index (R68). -/
def indexListed (ix : Nat) : Bool := (dictPage ix).any (fun r => r.lo ≤ ix && ix ≤ r.hi)

/-- The highest sub-index of an index, which sub-index 0 holds (R49). -/
def highestSub (ix : Nat) : Nat :=
  (dictPage ix).foldl (fun a r => if r.lo ≤ ix ∧ ix ≤ r.hi then max a r.subHi else a) 0

/-- The row of an object, with the CONST U8 that every record holds at sub-index 0 (R49). -/
def objRow (ix sub : Nat) : Option Row :=
  match rowOf ix sub with
  | some r => some r
  | none => if sub = 0 ∧ indexListed ix then some ⟨ix, ix, 0, 0, .u8, .const, .any, highestSub ix⟩ else none

/-- The key of an object's cell in `Mach.od`: the bank a selector picks, the index and the sub-index. -/
def okey (ix sub : Nat) (bank : Nat := 0) : Nat := bank * 16777216 + ix * 256 + sub

/-- The value of an object that nothing has written: its default. -/
def dflt (k : Nat) : Int :=
  let bank := k / 16777216
  let ix := k / 256 % 65536
  let sub := k % 256
  match instDefault bank ix sub with
  | some v => v
  | none => match rowOf ix sub with
    | some r => r.dflt
    | none => 0

/-- The size in bytes of a fixed-size type (R62); none for strings and DOMAIN. -/
def Ty.size : Ty → Option Nat
  | .bool => some 1
  | .u8 => some 1
  | .u16 => some 2
  | .u32 => some 4
  | .u64 => some 8
  | .i16 => some 2
  | .i32 => some 4
  | .i64 => some 8
  | .fix n _ => some n
  | .time => some 14
  | .vis => none
  | .oct => none
  | .dom => none

/-- The type code of R62. -/
def Ty.code : Ty → Nat
  | .bool => 0x01
  | .u8 => 0x02
  | .u16 => 0x03
  | .u32 => 0x04
  | .u64 => 0x05
  | .i16 => 0x06
  | .i32 => 0x07
  | .i64 => 0x08
  | .fix _ _ => 0x09
  | .time => 0x0A
  | .vis => 0x0B
  | .oct => 0x0C
  | .dom => 0x0D

/-- Whether the type is signed. -/
def Ty.signed : Ty → Bool
  | .i16 => true
  | .i32 => true
  | .i64 => true
  | .fix _ s => s
  | .bool => false
  | .u8 => false
  | .u16 => false
  | .u32 => false
  | .u64 => false
  | .time => false
  | .vis => false
  | .oct => false
  | .dom => false

/-- The objects whose Unit or range column says "own session" (R63). -/
def ownSession (ix sub : Nat) : Bool :=
  match ix with
  | 0x1100 => sub = 6 || sub = 7
  | 0x1120 => sub = 1 || sub = 2 || sub = 3
  | 0x1201 => sub = 1 || sub = 2
  | 0x6180 => sub = 1 || sub = 2
  | 0x6210 => sub = 1 || sub = 2
  | 0x4101 => sub = 1
  | 0x7808 => sub = 1 || sub = 2 || sub = 3
  | _ => false

end Sys2Proof.Machine
end

