-- ==== Sys2Proof/Machine/Ops.lean ====
section
/-! DEFINITION. The named operations over the state that every family uses: objects of the dictionary, module memory, time,
the event journal, messages sent. -/

namespace Sys2Proof.Machine

/-! ### Objects -/

/-- Reads a cell; an unlisted key reads its default. -/
def storeGet : List (Nat × Int) → Nat → Int
  | [], k => dflt k
  | (a, v) :: l, k => if a = k then v else storeGet l k

/-- Puts a cell into its place by rising key. -/
def storeIns : List (Nat × Int) → Nat → Int → List (Nat × Int)
  | [], k, v => [(k, v)]
  | (a, w) :: l, k, v => if k < a then (k, v) :: (a, w) :: l else (a, w) :: storeIns l k v

/-- Removes the cells of a key. -/
def storeDrop (l : List (Nat × Int)) (k : Nat) : List (Nat × Int) := l.filter (fun c => c.1 != k)

/-- Writes a cell, keeping the canonical form: rising keys, and no cell at its default. -/
def storeSet (l : List (Nat × Int)) (k : Nat) (v : Int) : List (Nat × Int) :=
  if v = dflt k then storeDrop l k else storeIns (storeDrop l k) k v

/-- The value of an object. -/
def Mach.obj (m : Mach) (ix sub : Nat) (bank : Nat := 0) : Int := storeGet m.od (okey ix sub bank)

/-- The value of an unsigned object. -/
def Mach.objN (m : Mach) (ix sub : Nat) (bank : Nat := 0) : Nat := (m.obj ix sub bank).toNat

/-- The value of a BOOL object. -/
def Mach.objB (m : Mach) (ix sub : Nat) (bank : Nat := 0) : Bool := m.obj ix sub bank != 0

/-- Writes an object. -/
def Mach.set (m : Mach) (ix sub : Nat) (v : Int) (bank : Nat := 0) : Mach :=
  { m with od := storeSet m.od (okey ix sub bank) v }

/-- Writes an unsigned object. -/
def Mach.setN (m : Mach) (ix sub : Nat) (v : Nat) (bank : Nat := 0) : Mach := m.set ix sub (v : Int) bank

/-- Writes a BOOL object. -/
def Mach.setB (m : Mach) (ix sub : Nat) (v : Bool) (bank : Nat := 0) : Mach := m.set ix sub (bitI v) bank

/-- The largest value an object's type holds. -/
def objMax (ix sub : Nat) : Nat :=
  match rowOf ix sub with
  | some r => match r.ty.size with
    | some n => 256 ^ n - 1
    | none => 0
  | none => 0

/-- What a counter reads that has counted to `v`: a free value once that is past its width, where no rule says (log entry 7). -/
def counted (ix sub bank v : Nat) : Nat :=
  if v ≤ objMax ix sub then v else (Config.counterPast (okey ix sub bank) v).toNat % (objMax ix sub + 1)

/-- Raises a counter by `n`. -/
def Mach.bump (m : Mach) (ix sub : Nat) (n : Nat := 1) (bank : Nat := 0) : Mach :=
  m.setN ix sub (counted ix sub bank (m.objN ix sub bank + n)) bank

/-- Raises a counter that stays at its largest value (R107). -/
def Mach.bumpSat (m : Mach) (ix sub : Nat) (n : Nat := 1) (bank : Nat := 0) : Mach :=
  m.setN ix sub (min (m.objN ix sub bank + n) (objMax ix sub)) bank

/-- The bytes an unlisted byte-string, text or DOMAIN object reads: the default of its row where that is not empty (R404, R405, R406,
R197, R433). -/
def strDefault (k : Nat) : Bytes :=
  let ix := k / 256 % 65536
  let sub := k % 256
  if 0x3010 ≤ ix ∧ ix ≤ 0x3011 ∧ sub = 7 then List.replicate 8 0
  else if (0x4010 ≤ ix ∧ ix ≤ 0x4014 ∧ sub = 6) ∨ (ix = 0x4110 ∧ sub = 3) ∨ (0x5410 ≤ ix ∧ ix ≤ 0x5413 ∧ sub = 6) then
    List.replicate 16 0
  else if (0x4230 ≤ ix ∧ ix ≤ 0x4234) ∨ (0x4238 ≤ ix ∧ ix ≤ 0x423C) then [0x0F, 0, 0, 0, 0x00, 0x0F, 0x42, 0x40]
  else []

/-- Reads the contents held under a key. -/
def strGet : List (Nat × Bytes) → Nat → Bytes
  | [], k => strDefault k
  | (a, v) :: l, k => if a = k then v else strGet l k

/-- Puts contents into their place by rising key. -/
def strIns : List (Nat × Bytes) → Nat → Bytes → List (Nat × Bytes)
  | [], k, v => [(k, v)]
  | (a, w) :: l, k, v => if k < a then (k, v) :: (a, w) :: l else (a, w) :: strIns l k v

/-- Writes the contents held under a key, keeping the canonical form. -/
def strSet (l : List (Nat × Bytes)) (k : Nat) (v : Bytes) : List (Nat × Bytes) :=
  let l' := l.filter (fun c => c.1 != k)
  if v = strDefault k then l' else strIns l' k v

/-- The contents of a byte-string or DOMAIN object. -/
def Mach.str (m : Mach) (ix sub : Nat) (bank : Nat := 0) : Bytes := strGet m.strs (okey ix sub bank)

/-- Writes the contents of a byte-string or DOMAIN object. -/
def Mach.setStr (m : Mach) (ix sub : Nat) (v : Bytes) (bank : Nat := 0) : Mach :=
  { m with strs := strSet m.strs (okey ix sub bank) v }

/-- Writes several objects of one index: pairs of sub-index and value. -/
def Mach.sets (m : Mach) (ix : Nat) (l : List (Nat × Int)) (bank : Nat := 0) : Mach :=
  l.foldl (fun m p => m.set ix p.1 p.2 bank) m

/-! ### Lists -/

/-- Replaces element `i`, if there is one. -/
def setAt {α : Type} (l : List α) (i : Nat) (x : α) : List α := l.set i x

/-- Applies a function to element `i`, if there is one. -/
def modAt {α : Type} (l : List α) (i : Nat) (f : α → α) : List α := l.modify i f

/-- Adds `x` to a list without repeats. -/
def addNew {α : Type} [DecidableEq α] (l : List α) (x : α) : List α := if x ∈ l then l else l ++ [x]

/-- Runs `f` over a list of indices, one after the other. -/
def each {α σ : Type} (l : List α) (s : σ) (f : σ → α → σ) : σ := l.foldl f s

/-! ### Module memory (R257) -/

/-- The DRAM contents: cells with rising addresses, none of them 0. -/
abbrev Mem := List Host.Cell

/-- What an unlisted byte reads as: 0 (DESIGN CHOICE, log entry 1). -/
def memDefault : Byte := 0

/-- Reads one byte. -/
def memRead : Mem → Nat → Byte
  | [], _ => memDefault
  | (a, b) :: l, x => if a = x then b else memRead l x

/-- Puts a byte into its place by rising address. -/
def memIns : Mem → Nat → Byte → Mem
  | [], x, b => [(x, b)]
  | (a, c) :: l, x, b => if x < a then (x, b) :: (a, c) :: l else (a, c) :: memIns l x b

/-- Writes one byte, keeping the canonical form. -/
def memWrite (l : Mem) (x : Nat) (b : Byte) : Mem :=
  let l' := l.filter (fun c => c.1 != x)
  if b = memDefault then l' else memIns l' x b

/-- Writes a run of bytes from an address on. -/
def memStore : Mem → Nat → Bytes → Mem
  | l, _, [] => l
  | l, a, b :: bs => memStore (memWrite l a b) (a + 1) bs

/-- Carries out a list of writes in order. -/
def memApply (l : Mem) (ws : List MemWrite) : Mem := ws.foldl (fun l w => memStore l w.addr w.data) l

/-- Reads `n` bytes from an address on. -/
def memLoad (l : Mem) (a : Nat) : Nat → Bytes
  | 0 => []
  | n + 1 => memRead l a :: memLoad l (a + 1) n

/-- The canonical form of the memory: rising addresses, and no byte equal to what an unlisted address reads. -/
def memWf (l : Mem) : Bool :=
  l.all (fun c => c.2 != memDefault) && (l.zip (l.drop 1)).all (fun p => p.1.1 < p.2.1)

/-- A little-endian number of `n` bytes in memory (R10). -/
def memLE (l : Mem) (a n : Nat) : Nat := ofLE (memLoad l a n)

/-! ### Time -/

/-- Units of `Clk.mono` in a nanosecond. -/
def perNs : Nat := 65536

/-- A number of nanoseconds in units of 2⁻¹⁶ ns. -/
def ns (n : Nat) : Nat := n * 65536

/-- A number of microseconds in units of 2⁻¹⁶ ns. -/
def us (n : Nat) : Nat := n * 65536000

/-- A number of milliseconds in units of 2⁻¹⁶ ns. -/
def ms (n : Nat) : Nat := n * 65536000000

/-- A number of seconds in units of 2⁻¹⁶ ns. -/
def sec (n : Nat) : Nat := n * 65536000000000

/-- One period of the AO counter in units of 2⁻¹⁶ ns (R425). -/
def aoPeriod : Nat := 30517 * 65536 + 37888

/-- Elapsed time, for timers. -/
def Mach.now (m : Mach) : Nat := m.clk.mono

/-- The time word in units of 2⁻¹⁶ ns: the running register truncated (R408). -/
def Mach.timeWord (m : Mach) : Nat := m.clk.reg / 65536

/-- TIME112 of a time in units of 2⁻¹⁶ ns (R62): seconds, nanoseconds, fraction. -/
def timeBytes (t : Nat) : Bytes :=
  beBytes 8 (t / sec 1) ++ beBytes 4 (t % sec 1 / 65536) ++ beBytes 2 (t % 65536)

/-- The time that 14 bytes of TIME112 spell, in units of 2⁻¹⁶ ns. -/
def timeOf (b : Bytes) : Nat :=
  ofBE (slice 0 8 b) * sec 1 + ofBE (slice 8 4 b) * 65536 + ofBE (slice 12 2 b)

/-! ### What leaves the module -/

/-- Records something that leaves the module. -/
def Mach.emit (m : Mach) (o : Out) : Mach := { m with out := o :: m.out }

/-- The 24 bytes of a KOA header (R37). -/
def koaHeader (ty flags session counter tag plen : Nat) : Bytes :=
  [0x4B, 0x01, BitVec.ofNat 8 ty, BitVec.ofNat 8 flags] ++ beBytes 4 session ++ beBytes 8 counter ++ beBytes 2 tag ++
    beBytes 2 plen ++ beBytes 4 0

/-- A message of a session to a peer: its counter rises by one (R42) and its tag is made with the session key (R37). Without a session
(R45) it carries no tag. -/
def Session.messageTo (s : Session) (peer : Peer) (ty flags tag : Nat) (payload : Bytes) : Session × Out :=
  if s.id = 0 then (s, .koa peer ty flags 0 0 tag payload [])
  else
    let n := s.tx + 1
    ({ s with tx := n },
     .koa peer ty flags s.id n tag payload (hmac s.key (koaHeader ty flags s.id n tag payload.length ++ payload)))

/-- A message of a session where no request is answered: to the peer of its last accepted message (R35, R43). -/
def Session.message (s : Session) (ty flags tag : Nat) (payload : Bytes) : Session × Out := s.messageTo s.peer ty flags tag payload

/-! ### Cores (R29) -/

/-- Whether a core runs its duties: it is not being reset (R541, R542). -/
def Mach.coreUp (m : Mach) (k : Nat) : Bool := !m.boot.cores.contains k

/-! ### The event journal (R58 to R61, R73) -/

/-- Flags [1:0] of an event record: time in holdover or free run, time unknown (R60, R419). -/
def Mach.timeFlags (m : Mach) : Nat :=
  let st := m.obj 0x3000 1
  if st = 0 then 1 else if st = 3 ∨ st = 4 then 2 else 0

/-- The 256 bytes of an event record (R60). -/
def Rec.bytes (r : Rec) : Bytes :=
  let d := r.detail.flatMap (fun p => beBytes p.1 p.2)
  beBytes 8 r.seq ++ beBytes 2 r.code ++ beBytes 1 (severity r.code) ++ beBytes 1 r.flags ++ timeBytes r.time ++
    beBytes 2 r.suppressed ++ [Config.unitClass r.code] ++ beBytes 3 r.inst ++ beBytes 2 d.length ++ d ++
    List.replicate (222 - d.length) 0

/-- How many EVENT messages a session was sent within the last second (R61). -/
def Session.sentLately (s : Session) (now : Nat) : Nat := (s.sends.filter (fun t => now < t + sec 1)).length

/-- Sends one EVENT of the session's queue and notes the instant. -/
def Session.sendEvent (s : Session) (now : Nat) (q : QEvent) : Session × Out :=
  let (s, o) := s.message 0x40 0 0 q.record.bytes
  ({ s with
      sends := now :: s.sends.filter (fun t => now < t + sec 1)
      queue := s.queue.map (fun x => if x.record.seq = q.record.seq then { x with sent := some now } else x) }, o)

/-- Sends the queued events of a session in sequence order as far as the rate of 200 per second allows (R61). -/
def Session.pump (s : Session) (now : Nat) : Session × List Out :=
  (s.queue.filter (fun q => q.sent.isNone)).foldl
    (fun (a : Session × List Out) q =>
      if a.1.sentLately now < 200 then
        let (s', o) := a.1.sendEvent now q
        (s', o :: a.2)
      else a) (s, [])

/-- The value of an own-session object (R63). -/
def Session.own_ (s : Session) (ix sub : Nat) : Int := storeGet s.own (okey ix sub)

/-- Writes an own-session object. -/
def Session.setOwn (s : Session) (ix sub : Nat) (v : Int) : Session := { s with own := storeSet s.own (okey ix sub) v }

/-- Offers a new record to a session: sent or queued when it is subscribed at that severity and holds fewer than 16
unacknowledged events, counted in 0x1120:03 otherwise (R61). While core 0 is `up` the event may leave at once; else it waits in the queue
(R29, R542). -/
def Session.offer (s : Session) (now : Nat) (up : Bool) (r : Rec) : Session × List Out :=
  if s.own_ 0x1120 1 != 0 && s.own_ 0x1120 2 ≤ (severity r.code : Int) then
    if s.queue.length < 16 then
      let s : Session := { s with queue := s.queue ++ [⟨r, none, 0⟩] }
      if up then s.pump now else (s, [])
    else (s.setOwn 0x1120 3 (counted 0x1120 3 0 ((s.own_ 0x1120 3).toNat + 1)), [])
  else (s, [])

/-- The time word at the detection of an event: while the time unit is stopped, the latched time and the AO periods since (R60, R425). -/
def Mach.eventTime (m : Mach) : Nat :=
  match m.clk.latched with
  | none => m.timeWord
  | some t => t + (m.clk.ao - m.clk.aoAtLatch) * aoPeriod

/-- Records the journal can hold (0x1200:04): 16 fewer for every MRAM sector retired with no spare of the 16 left (R73, R520). -/
def Mach.journalCapacity (m : Mach) : Nat := 16128 - 16 * (m.test.mramRetired - 16)

/-- Writes a record to the journal, counts it by class and offers it to every open session (R60, R61, R73). While core 0 restarts the record is
written and nothing is sent (DESIGN CHOICE, log entry 91). -/
def Mach.record (m : Mach) (code flags suppressed inst : Nat) (detail : List (Nat × Nat)) : Mach :=
  let r : Rec := ⟨m.jrn.newest + 1, code, flags, m.eventTime, suppressed, inst, detail⟩
  let m := { m with jrn := { m.jrn with newest := r.seq, recs := (r :: m.jrn.recs).take m.journalCapacity } }
  let m := m.bump 0x1202 (code / 4096)
  let served := m.koa.sessions.map (fun s => s.offer m.now (m.coreUp 0) r)
  { m with
    koa := { m.koa with sessions := served.map Prod.fst }
    out := (served.flatMap Prod.snd) ++ m.out }

/-- Raises an event: a record with the time flags of R419. `inst` is the instance of the Source field: the number of the port, lane, chain,
tile or unit the event is about, and 0 where the chapter gives its events no instance (DESIGN CHOICE, log entry 80). -/
def Mach.raise (m : Mach) (code : Nat) (inst : Nat) (detail : List (Nat × Nat)) : Mach :=
  m.record code m.timeFlags 0 inst detail

/-- Raises an event through the AO island's event writer, which sets flag [3] (R60). -/
def Mach.raiseAO (m : Mach) (code : Nat) (inst : Nat) (detail : List (Nat × Nat)) : Mach :=
  m.record code (m.timeFlags + 8) 0 inst detail

/-- Raises an event that the manual limits to `n` per second for one code and source: a report above the rate is folded, and
the next record carries the count of reports folded (R60). -/
def Mach.raiseRate (m : Mach) (n code inst : Nat) (detail : List (Nat × Nat)) : Mach :=
  let old := (m.jrn.rates.find? (fun r => r.code = code ∧ r.inst = inst)).getD ⟨code, inst, [], 0⟩
  let recent := old.at_.filter (fun t => m.now < t + sec 1)
  let rest := m.jrn.rates.filter (fun r => !(r.code = code ∧ r.inst = inst))
  if recent.length < n then
    let m := { m with jrn := { m.jrn with rates := ⟨code, inst, m.now :: recent, 0⟩ :: rest } }
    m.record code m.timeFlags (min old.folded 65535) inst detail
  else { m with jrn := { m.jrn with rates := ⟨code, inst, recent, old.folded + 1⟩ :: rest } }

/-- Raises an event at most `n` times per second for one code and source; a report above the rate is not folded (R336). -/
def Mach.raiseAtMost (m : Mach) (n code inst : Nat) (detail : List (Nat × Nat)) : Mach :=
  let mine (r : Rate) : Bool := r.code = code && r.inst = inst
  let recent := (((m.jrn.rates.find? mine).map Rate.at_).getD []).filter (fun t => m.now < t + sec 1)
  if recent.length < n then
    let m := { m with jrn := { m.jrn with rates := ⟨code, inst, m.now :: recent, 0⟩ :: m.jrn.rates.filter (fun r => !mine r) } }
    m.record code m.timeFlags 0 inst detail
  else m

/-! ### Free values (log entry 7) -/

/-- Marks one more free value as drawn. -/
def Mach.draw (m : Mach) : Mach := { m with free := m.free + 1 }

/-! ### Injection (R523) -/

/-- Whether an injection waits at a detector: point and instance. -/
def Mach.armedAt (m : Mach) (point inst : Nat) : Bool :=
  match m.test.armed with
  | some a => a.live && a.point = point && a.inst = inst
  | none => false

/-- The injection has acted: one that does not repeat is over (R523, R530). -/
def Mach.acted (m : Mach) : Mach :=
  match m.test.armed with
  | some a =>
    if a.periodic then { m with test := { m.test with armed := some { a with live := false } } }
    else ({ m with test := { m.test with armed := none } } : Mach).setN 0x7F01 6 0
  | none => m

/-- The value that an injection lasting for a time forces at a detector, while it lasts (R523). -/
def Mach.forced (m : Mach) (point inst : Nat) : Option Nat :=
  (m.test.timed.find? (fun t => t.1 = point && t.2.1 = inst && m.now < t.2.2.2)).map (fun t => t.2.2.1)

/-! ### How a command runs -/

/-- What a meaning may read besides the block itself, and never changes: the per-unit constants, the life-cycle state and
the DRAM contents before the command. -/
structure Ctx where
  unit : Unit
  life : Life
  mem : Mem

/-- What a command leaves: the block, its writes to DRAM in order, the life-cycle state it asks for, and whether the DRAM loses its
contents before those writes (R275: entry to P4). -/
structure Eff where
  m : Mach
  writes : List MemWrite := []
  life : Option Life := none
  wipe : Bool := false

/-- The transitions of R65. -/
def Life.permits : Life → Life → Bool
  | .factory, .provisioned => true
  | .provisioned, .field => true
  | .field, .service => true
  | .service, .field => true
  | .provisioned, .retired => true
  | .field, .retired => true
  | .service, .retired => true
  | _, _ => false

/-- The life-cycle state after a request: the one asked for when R65 lists the transition, the present one otherwise. -/
def Life.after (l : Life) : Option Life → Life
  | some t => if l.permits t then t else l
  | none => l

/-- The code of a life-cycle state (R69). -/
def Life.code : Life → Nat
  | .factory => 0
  | .provisioned => 1
  | .field => 2
  | .service => 3
  | .retired => 4

/-- The context of a command. -/
def State.ctx (s : State) : Ctx := ⟨s.unit, s.life, s.mem⟩

/-- Runs a meaning that only changes the block. -/
def lift (f : Ctx → Mach → Mach) (s : State) : Host.Outcome State Fault Refusal := .next { s with m := f s.ctx s.m }

/-- Runs a meaning that may also write DRAM and ask for a life-cycle transition. -/
def liftE (f : Ctx → Mach → Eff) (s : State) : Host.Outcome State Fault Refusal :=
  let e := f s.ctx s.m
  .next { s with m := e.m, mem := memApply (if e.wipe then [] else s.mem) e.writes, life := s.life.after e.life }

/-- An effect on the block alone. -/
def Eff.of (m : Mach) : Eff := { m := m }

/-- Two effects one after the other; the second sees the block the first leaves. -/
def Eff.then_ (e : Eff) (f : Mach → Eff) : Eff :=
  let g := f e.m
  { m := g.m
    writes := if g.wipe then g.writes else e.writes ++ g.writes
    wipe := e.wipe || g.wipe
    life := match g.life with
      | some l => some l
      | none => e.life }

/-- What a second effect of the same command reads: the DRAM and the life-cycle state that the first leaves. -/
def Eff.after (e : Eff) (c : Ctx) : Ctx :=
  { c with mem := memApply (if e.wipe then [] else c.mem) e.writes, life := c.life.after e.life }

/-- Changes the block of an effect. -/
def Eff.on (e : Eff) (f : Mach → Mach) : Eff := { e with m := f e.m }

end Sys2Proof.Machine
end

