-- ==== Sys2Proof/Machine/Spares.lean ====
section
/-! DEFINITION. Spare units and their power (R30), and the memory under test that may power them (R504, R511). -/

namespace Sys2Proof.Machine

/-- Changes self-test. -/
def Mach.onTest (m : Mach) (f : SelfTest → SelfTest) : Mach := { m with test := f m.test }

/-! ### Flash and MRAM sectors (R521) -/

/-- A flash sector passes its threshold: a spare is mapped at the next ledger update, where a write that failed, if any, is tried again (R521). -/
def Mach.passFlash (m : Mach) (s retry : Nat) : Mach :=
  (m.onTest (fun t => { t with flashFailed := t.flashFailed + 1, flashRetry := t.flashRetry + retry })).raise 0xD009 s [(1, 6), (2, s)]

/-- A flash write: a sector is erased and programmed. Which sector, the manual does not say: it is free, but lies in the device where an injected failure
waits (DESIGN CHOICE, log entry 108). The sector passes its threshold at 100,000 erases, and on the injected failure (R521, R523). -/
def Mach.flashWrite (m : Mach) : Mach :=
  let free := (Config.flashSector m.free).toNat % 32768
  let fails := [0, 1].find? (fun d => m.armedAt 19 d)
  let s := match fails with
    | some d => 16384 * d + free % 16384
    | none => free
  let n := ((m.test.erases.find? (fun x => x.1 = s)).map Prod.snd).getD 0 + 1
  let m := m.draw.onTest (fun t => { t with erases := (s, n) :: t.erases.filter (fun x => x.1 != s) })
  if fails.isSome then (m.passFlash s 1).acted else if n = 100000 then m.passFlash s 0 else m

/-- The MRAM sectors that hold the journal, in order: each that failed gave its place to the next spare, and without one the place is gone (R73,
R521). -/
def Mach.journalSectors (m : Mach) : List Nat :=
  m.test.mramGone.zipIdx.foldl (fun l x => if x.2 < 16 then l.map (fun s => if s = x.1 then 1008 + x.2 else s) else l.filter (· != x.1)) (upTo 1008)

/-- Journal slots written so far: one for each record, and one for each write that failed its verify (R521). -/
def Mach.slotsUsed (m : Mach) : Nat := m.jrn.newest + m.test.mramGone.length

/-- The highest write count of an MRAM sector: the journal goes through its sectors in order, 16 slots in each (R73, R520; DEDUCED, log entry 108). -/
def Mach.highestWrites (m : Mach) : Nat :=
  let all := 16 * m.journalSectors.length
  16 * (m.slotsUsed / all) + min 16 (m.slotsUsed % all)

/-- What the verify of the records written since an injection of point 18 found: one in its sector failed there and was written again in the next slot
(R521, R523). The sector passes its threshold, told at the ledger update that follows (DESIGN CHOICE, log entry 108). -/
def Mach.verifyJournal (m : Mach) : Mach :=
  match m.test.armed with
  | some a =>
    let l := m.journalSectors
    let sectors := (m.slotsUsed - 1) / 16 - a.slot / 16 + 1
    if a.live ∧ a.point = 18 ∧ a.slot < m.slotsUsed ∧ (upTo (min sectors l.length)).any (fun j => l.getD ((a.slot / 16 + j) % l.length) 1024 = a.inst) then
      ((m.onTest (fun t => { t with mramFailed := t.mramFailed + 1, mramGone := t.mramGone ++ [a.inst] })).raise 0xD009 a.inst [(1, 7), (2, a.inst)]).acted
    else m
  | none => m

/-! ### Spare units (R30) -/

/-- Classes 1 to 6 with their instances and macros per instance (R504). -/
def memCounts : List (Nat × Nat × Nat) := [(1, 68, 24), (2, 68, 2), (3, 96, 4), (4, 1, 256), (5, 24, 1), (6, 4, 8)]

/-- Class, instance and macro of the n-th macro of a rotation (R511). -/
def macroPlace : List (Nat × Nat × Nat) → Nat → Nat × Nat × Nat
  | [], _ => (0, 0, 0)
  | (k, insts, macros) :: rest, n => if n < insts * macros then (k, n / macros, n % macros) else macroPlace rest (n - insts * macros)

/-- The ledger unit, as class and instance (R520), that a memory of R504 belongs to; none for a memory without spares. -/
def unitOfMemory (cls inst : Nat) : Option (Nat × Nat) :=
  match cls with
  | 0 => some (1, inst)
  | 1 => some (0, inst)
  | 2 => some (0, inst)
  | 5 => if inst < 20 then some (2, inst) else none
  | _ => none

/-- The unit that a commanded test runs on (R517). -/
def Test.unit (t : Test) : Option (Nat × Nat) :=
  match t.kind with
  | 0 => unitOfMemory t.cls t.inst
  | 1 => some (0, t.inst)
  | 2 => some (2, t.inst)
  | _ => none

/-- The unit whose regions the fettling rotation is in, between its first slice there and its last (R511). -/
def Mach.fettledUnit (m : Mach) : Option (Nat × Nat) :=
  match m.test.last with
  | none => none
  | some p =>
    let x := macroPlace memCounts (p / 128)
    let y := macroPlace memCounts (m.objN 0x7C00 4 / 128)
    if x.1 = y.1 ∧ x.2.1 = y.2.1 then unitOfMemory x.1 x.2.1 else none

/-- The object that holds a unit's ledger state: clusters, DRAM channels, decode engines, core phases. -/
def unitObject (k i : Nat) : Option Nat :=
  match k with
  | 0 => some (0x5320 + i)
  | 1 => some (0x7010 + i)
  | 2 => some (0x7120 + i)
  | 4 => some (0x2021 + i)
  | _ => none

/-- Whether a unit is power-gated (R30): a SPARE one at all times but while fettling, a commanded test or a shakeout (R508) tests it, a calibration
run of item 2 is on that channel, or the DRAM is trained at a start (R277). A spare that a take-over trains is no longer SPARE. -/
def Mach.gated (m : Mach) (k i : Nat) : Bool :=
  match unitObject k i with
  | none => false
  | some ix => m.objN ix 1 = 0 && m.fettledUnit != some (k, i) && !(m.objN 0x7C01 6 = 1 && m.test.test.unit = some (k, i)) &&
      m.boot.shut != 5 && !(k = 1 && m.boot.step < 4) &&
      !(k = 1 && 1 ≤ m.objN 0x7800 6 && m.objN 0x7800 6 ≤ 3 && m.calib.run.item = 2 && m.calib.run.inst = i)

end Sys2Proof.Machine
end

