-- ==== Sys2Proof/Machine/Dram.lean ====
section
/-! DEFINITION. The memory controller: address map (R257 to R260), poison (R271, R272), writes and reads of module memory,
refresh (R268 to R270), self-refresh (R275, R276), fences (R264), training upkeep (R277) and patrol scrub (R274). -/

namespace Sys2Proof.Machine

/-! ### Address map -/

/-- The first address after the fixed area (R257). -/
def fixedEnd : Nat := 0x400000000

/-- The first address after the clip store (R257). -/
def dramEnd : Nat := 0x2000000000

/-- 16 MiB, a clip-store extent (R259). -/
def extentSize : Nat := 16777216

/-- Whether an address can be accessed (R257): inside the DRAM, not in the firmware mirror, not reserved. -/
def addressable (a : Nat) : Bool :=
  a < dramEnd && !(0x10000000 ≤ a && a < 0x20000000) && !(0x3F0000000 ≤ a && a < 0x400000000)

/-- Whether a run of bytes can be accessed: a source that asks for another gets a bus error (R257). -/
def reachable (a n : Nat) : Bool := addressable a && addressable (a + n - 1)

/-- The logical channel of an address (R258, R259). -/
def logicalOf (a : Nat) : Nat :=
  if a < fixedEnd then
    field a 12 8 ^^^ field a 17 13 ^^^ field a 22 18 ^^^ field a 27 23 ^^^ field a 32 28 ^^^ field a 33 33
  else (a - fixedEnd) / extentSize % 32

/-- The in-channel offset of an address (R258, R259). -/
def offsetOf (a : Nat) : Nat :=
  if a < fixedEnd then field a 33 13 * 256 + field a 7 0
  else 0x20000000 + (a - fixedEnd) / extentSize / 32 * extentSize + (a - fixedEnd) % extentSize

/-- The rank of an in-channel offset (R260). -/
def rankOf (o : Nat) : Nat := field o 15 15

/-- The bank of an in-channel offset (R260). -/
def bankOf (o : Nat) : Nat := field o 14 11 ^^^ field o 19 16

/-- The row of an in-channel offset (R260). -/
def rowNumber (o : Nat) : Nat := field o 31 16

/-- The column byte of an in-channel offset (R260). -/
def columnOf (o : Nat) : Nat := field o 10 0

/-- The extents borrowed for a re-homed logical channel, in order of in-channel offset (R281). -/
def Mach.borrowedFor (m : Mach) (l : Nat) : List Nat := ((m.dram.borrowed.find? (fun b => b.1 = l)).map Prod.snd).getD []

/-- The clip-store address at which an in-channel offset of a re-homed logical channel lies (R281). -/
def Mach.borrowedAt (m : Mach) (l o : Nat) : Nat := fixedEnd + (m.borrowedFor l).getD (o / extentSize) 0 * extentSize + o % extentSize

/-- The logical channels and in-channel offsets that an access goes through: its own, and for a re-homed channel also that of the borrowed
extent it lies in (R281). -/
def Mach.homes (m : Mach) (a : Nat) : List (Nat × Nat) :=
  let l := logicalOf a
  let o := offsetOf a
  if m.objN (0x7040 + l) 1 ≠ 0xFF then [(l, o)]
  else let b := m.borrowedAt l o; [(l, o), (logicalOf b, offsetOf b)]

/-- The physical channel and offset that hold an address, through the backing of its logical channel and, for a re-homed
channel, through its borrowed extents (R279, R281). -/
def Mach.physical (m : Mach) (a : Nat) : Nat × Nat :=
  let l := logicalOf a
  let o := offsetOf a
  let p := m.objN (0x7040 + l) 1
  if p ≠ 0xFF then (p, o)
  else let b := m.borrowedAt l o; (m.objN (0x7040 + logicalOf b) 1, offsetOf b)

/-! ### Channels and poison -/

/-- A physical channel. -/
def Mach.chan (m : Mach) (p : Nat) : Channel := m.dram.chans.getD p {}

/-- Changes a physical channel. -/
def Mach.onChan (m : Mach) (p : Nat) (f : Channel → Channel) : Mach :=
  { m with dram := { m.dram with chans := modAt m.dram.chans p f } }

/-- In-channel offsets of the firmware region, and of its mirror behind it (R257, R258). -/
def firmwareSize : Nat := 0x800000

/-- Whether an access of a channel replaced without a copy is lost: neither written whole since nor, in the firmware region, rebuilt. -/
def Fresh.lost (f : Fresh) (o : Nat) : Bool :=
  let x := o / 64 * 64
  if f.written.contains x then false
  else if firmwareSize ≤ x then true
  else match f.mirror with
    | some l => !l.contains (x + firmwareSize)
    | none => false

/-- Whether a fixed-area access lies on a logical channel that was replaced without a copy, or in an extent borrowed from one, and is lost
(R280, R281). The mirror is not rebuilt (DEDUCED: R280 rebuilds the firmware region alone). -/
def Mach.freshAt (m : Mach) (a : Nat) : Bool :=
  a < fixedEnd && (m.homes a).any (fun h => match m.dram.fresh.find? (fun f => f.logical = h.1) with
    | some f => f.lost h.2
    | none => false)

/-- The 64-byte accesses that a run of bytes touches. -/
def accessesOf (a n : Nat) : List Nat := if n = 0 then [] else (upTo ((a + n - 1) / 64 - a / 64 + 1)).map (fun i => (a / 64 + i) * 64)

/-- The 64-byte accesses that a run of bytes covers whole. -/
def wholeAccesses (a n : Nat) : List Nat :=
  (upTo ((a + n) / 64 - (a + 63) / 64)).map (fun i => ((a + 63) / 64 + i) * 64)

/-- Whether any channel holds poison. -/
def Mach.anyPoison (m : Mach) : Bool :=
  !m.dram.fresh.isEmpty || !m.dram.borrowed.isEmpty || m.dram.chans.any (fun ch => !ch.poison.isEmpty)

/-- Whether a read of a run of bytes returns poison (R271, R272). An access in an extent borrowed from a channel that was re-homed itself has no
storage any more and returns poison (DESIGN CHOICE, log entry 100). -/
def Mach.poisonedAt (m : Mach) (a n : Nat) : Bool :=
  m.anyPoison && (accessesOf a n).any (fun x =>
    let po := m.physical x
    (m.chan po.1).poison.contains (po.2 / 64 * 64) || m.freshAt x || 36 ≤ po.1)

/-- The bytes that a run delivers to a reader to which the manual gives no effect of poison: those of poisoned accesses are free values
(log entry 99). -/
def Mach.fetch (m : Mach) (mem : Mem) (a n : Nat) : Bytes :=
  if m.poisonedAt a n then
    (memLoad mem a n).zipIdx.map (fun b => if m.poisonedAt (a + b.2) 1 then Config.poisonByte (a + b.2) m.free else b.1)
  else memLoad mem a n

/-- Updates the poison count object of a channel (0x7010+p:07). -/
def Mach.showPoison (m : Mach) (p : Nat) : Mach := m.setN (0x7010 + p) 7 (min 4096 (m.chan p).poison.length)

/-- Lists a 64-byte access as poisoned (R271); the list holds 4,096 entries. -/
def Mach.addPoison (m : Mach) (p o : Nat) : Mach :=
  let x := o / 64 * 64
  (m.onChan p (fun ch => if ch.poison.length < 4096 then { ch with poison := addNew ch.poison x } else ch)).showPoison p

/-- The physical channel and in-channel offset that an offset of a take-over's logical channel moves to (R279, R281). -/
def Mach.movedTo (m : Mach) (t : TakeOver) (o : Nat) : Nat × Nat :=
  match t.spare with
  | some s => (s, o)
  | none => let b := m.borrowedAt t.logical o; (m.objN (0x7040 + logicalOf b) 1, offsetOf b)

/-- Where a take-over in one of some phases makes an access of its logical channel a second time (R279): writes from copy-in on, reads in the
verify heat. -/
def Mach.twin? (m : Mach) (phases : List Nat) (x : Nat) : Option (Nat × Nat) :=
  match m.dram.takeOver with
  | some t => if phases.contains t.phase ∧ t.logical = logicalOf x ∧ (x < fixedEnd ∨ t.spare.isSome) then some (m.movedTo t (m.physical x).2) else none
  | none => none

/-- A write of all 64 bytes of an access in one write removes its poison (R272), from copy-in on at the new backing too (R279). -/
def Mach.heal (m : Mach) (x : Nat) : Mach :=
  let po := m.physical x
  let m := if m.freshAt x then
      { m with dram := { m.dram with fresh := m.dram.fresh.map (fun (f : Fresh) =>
        match (m.homes x).find? (fun h => h.1 = f.logical) with
        | some h => { f with written := (h.2 / 64 * 64) :: f.written }
        | none => f) } }
    else m
  let clean (m : Mach) (y : Nat × Nat) : Mach :=
    (m.onChan y.1 (fun ch => { ch with poison := ch.poison.filter (· != y.2 / 64 * 64) })).showPoison y.1
  let m := clean m po
  match m.twin? [2, 3, 4] x with
  | some y => clean m y
  | none => m

/-- The poison that a write of `n` bytes at `a` removes (R272). -/
def Mach.unpoison (m : Mach) (a n : Nat) : Mach :=
  if m.anyPoison then each (wholeAccesses a n) m Mach.heal else m

/-- Counts corrected codewords of a channel and keeps their instants of the last 24 h (R271, R521). -/
def Mach.noteCorrected (m : Mach) (p n : Nat) : Mach :=
  if n = 0 then m
  else
    let m := m.bump (0x7010 + p) 4 n
    m.onChan p (fun ch => { ch with corrected := (m.now, n) :: ch.corrected.filter (fun x => m.now < x.1 + sec 86400) })

/-- Corrected codewords of a channel within the last 24 h. -/
def Mach.correctedLately (m : Mach) (p : Nat) : Nat :=
  (((m.chan p).corrected.filter (fun x => m.now < x.1 + sec 86400)).map Prod.snd).sum

/-- The logical channel a physical channel backs, if any. -/
def Mach.backs (m : Mach) (p : Nat) : Option Nat := if m.objN (0x7010 + p) 2 = 0xFF then none else some (m.objN (0x7010 + p) 2)

/-- A logical channel joins those that wait for a take-over; one that waits already and is found dead takes that cause (R278, R280). -/
def Mach.joinTakeOvers (m : Mach) (l cause : Nat) : Mach :=
  if m.objN (0x7040 + l) 1 = 0xFF then m
  else if l ∈ m.dram.waiting.map Prod.fst then
    if cause = 2 then { m with dram := { m.dram with waiting := m.dram.waiting.map (fun w => if w.1 = l then (l, 2) else w) } } else m
  else { m with dram := { m.dram with waiting := m.dram.waiting ++ [(l, cause)] } }

/-- The take-over of a logical channel is wanted (R278): it joins those that wait, unless it is there or in progress. A channel that is found
dead (cause 2) meanwhile is replaced without a copy (R280): the one that waits takes that cause, and the one in progress goes on to its switch
(log entry 87). -/
def Mach.wantTakeOver (m : Mach) (l cause : Nat) : Mach :=
  match m.dram.takeOver with
  | some t =>
    if t.logical = l then
      if cause ≠ 2 ∨ t.dead then m
      else
        let phase := if t.phase = 1 then 1 else 5
        { m with dram := { m.dram with takeOver := some { t with dead := true, phase := phase } } }.setN 0x7000 5 (if phase = 1 then 1 else 4)
    else m.joinTakeOvers l cause
  | none => m.joinTakeOvers l cause

/-- A full poison list asks for a take-over (R272, R278). -/
def Mach.listFull (m : Mach) (p : Nat) : Mach :=
  match m.backs p with
  | some l => if 4096 ≤ (m.chan p).poison.length then m.wantTakeOver l 1 else m
  | none => m

/-- A physical channel passes a threshold (R521): event 0xD009 once (R522); one that backs a logical channel is taken over (R278), and a SPARE one
becomes UNUSABLE at the next ledger update (R32; DESIGN CHOICE, log entry 93). -/
def Mach.passChannel (m : Mach) (p : Nat) : Mach :=
  let m := if m.dram.passed.contains p then m
    else ({ m with dram := { m.dram with passed := addNew m.dram.passed p } } : Mach).raise 0xD009 p [(1, 1), (2, p)]
  match m.backs p with
  | some l => m.wantTakeOver l 0
  | none => if m.objN (0x7010 + p) 1 = 0 then { m with dram := { m.dram with failed := addNew m.dram.failed p } } else m

/-- The thresholds of R521 on a physical channel: 100,000 corrected codewords within 24 h, 64 uncorrectable since
manufacture; with event 0xD009 (R522). -/
def Mach.dramThreshold (m : Mach) (p : Nat) : Mach :=
  if m.correctedLately p ≥ 100000 ∨ m.objN (0x7010 + p) 6 ≥ 64 then m.passChannel p else m

/-- The next access of a bank moves its page-history counter (R266). -/
def Mach.touchPage (m : Mach) (p o : Nat) : Mach :=
  let k := rankOf o * 16 + bankOf o
  m.onChan p (fun ch =>
    let old := (ch.pages.find? (fun x => x.1 = k)).map (fun x => x.2)
    let c := match old with
      | none => 1
      | some (n, row) => if row = rowNumber o then min 3 (n + 1) else n - 1
    { ch with pages := (k, c, rowNumber o) :: ch.pages.filter (fun x => x.1 != k) })

/-! ### Uncorrectable reads (R271) -/

/-- The sources of R261 and how many each row of its table has; they are numbered in its order (DEDUCED, log entry 10), and the first three
are real-time sources. -/
def sourceRows : List Nat := [1, 1, 1, 1, 20, 4, 1, 2, 1, 1, 1, 4, 1, 1]

/-- The first number of a row of R261's table. -/
def sourceBase (row : Nat) : Nat := (sourceRows.take row).sum

/-- The in-channel offset `o` of channel `p`, at address `a`, gives source number `n` an uncorrectable codeword (R271): counted, listed as poisoned, event
0xA001, and the thresholds of R278 and R521. -/
def Mach.uncorrectable (m : Mach) (p o a n : Nat) : Mach :=
  let m := (m.bump (0x7010 + p) 6).addPoison p o
  ((m.raiseRate 10 0xA001 p [(1, p), (8, a), (1, n)]).dramThreshold p).listFull p

/-- Whether point 9 waits for a read. -/
def Mach.poisonWaits (m : Mach) : Bool := match m.test.armed with
  | some a => a.live && a.point = 9
  | none => false

/-- An injection of point 9 acts on the first access among some runs that source number `n` reads of its channel (R523). Patrol scrub is no source of R261,
and its reads leave the injection armed (DESIGN CHOICE, log entry 107). -/
def Mach.strike (m : Mach) (n : Nat) (runs : List (Nat × Nat)) : Mach :=
  if !m.poisonWaits then m
  else match ((runs.filter (fun r => reachable r.1 r.2)).flatMap (fun r => accessesOf r.1 r.2)).find? (fun x => m.armedAt 9 (m.physical x).1) with
    | some x => m.acted.uncorrectable (m.physical x).1 (m.physical x).2 x n
    | none => m

/-- An access of a channel: the page history of its bank, and an injection that waits for the next transfer (R266, R271, R523). -/
def Mach.access (m : Mach) (p o : Nat) : Mach :=
  let m := m.touchPage p o
  if m.armedAt 10 p then (m.bump (0x7010 + p) 5).acted else m

/-- A read access: also an injection that waits for the next read and has it reported corrected (R271, R523). -/
def Mach.readAccess (m : Mach) (p o : Nat) : Mach :=
  let m := m.access p o
  if m.armedAt 8 p then ((m.noteCorrected p 1).dramThreshold p).acted else m

/-- The bytes of a run that a take-over in one of some phases moves twice (R279). -/
def Mach.movedTwice (m : Mach) (phases : List Nat) (a n : Nat) : Nat :=
  if m.dram.takeOver.isNone then 0
  else (((accessesOf a n).filter (fun x => (m.twin? phases x).isSome)).map (fun x => min (a + n) (x + 64) - max a x)).sum

/-- The accesses of a run, each made again at its second place where a take-over doubles it. -/
def Mach.touchRun (m : Mach) (phases : List Nat) (a n : Nat) (f : Mach → Nat → Nat → Mach) : Mach :=
  each (accessesOf a n) m (fun m x =>
    let y := m.physical x
    let m := f m y.1 y.2
    match m.twin? phases x with
    | some z => f m z.1 z.2
    | none => m)

/-- Counts bytes read (0x7000:0B). -/
def Mach.noteRead (m : Mach) (n : Nat) : Mach := m.bump 0x7000 0x0B n

/-- Counts bytes written (0x7000:0C). -/
def Mach.noteWritten (m : Mach) (n : Nat) : Mach := m.bump 0x7000 0x0C n

/-- Source number `n` reads runs of bytes, given as address and length (R266, R283). A run that cannot be accessed moves nothing (R257). -/
def Mach.reads (m : Mach) (n : Nat) (runs : List (Nat × Nat)) : Mach :=
  each (runs.filter (fun r => reachable r.1 r.2)) (m.strike n runs) (fun m r =>
    (m.touchRun [4] r.1 r.2 Mach.readAccess).noteRead (r.2 + m.movedTwice [4] r.1 r.2))

/-- The writes that a source's write becomes: a write of the firmware region also goes to its mirror (R258); one that touches an address that
cannot be accessed gets a bus error, and nothing is written (R257). -/
def writesOf (w : MemWrite) : List MemWrite :=
  if !reachable w.addr w.data.length then []
  else if w.addr < 0x10000000 then [w, ⟨w.addr + 0x10000000, w.data⟩]
  else [w]

/-- Writes a list of runs to module memory: the writes, their poison removed and their bytes counted. -/
def Mach.storeAll (m : Mach) (ws : List MemWrite) : Eff :=
  let ws := ws.flatMap writesOf
  { m := ws.foldl (fun m w =>
      ((m.unpoison w.addr w.data.length).touchRun [2, 3, 4] w.addr w.data.length Mach.access).noteWritten
      (w.data.length + m.movedTwice [2, 3, 4] w.addr w.data.length)) m
    writes := ws }

/-- Writes bytes to module memory. -/
def Mach.store (m : Mach) (a : Nat) (b : Bytes) : Eff := m.storeAll [⟨a, b⟩]

/-- The page history after every access of a run of whole 64 KiB rows in ascending offset, the last of them at row `row` (R266): each bank saw 32
accesses to each row. -/
def Channel.sweep (ch : Channel) (row : Nat) : Channel := { ch with pages := (upTo 32).map (fun k => (k, 3, row)) }

/-- Every page-history counter of a channel is 1 (R267). -/
def Mach.resetPages (m : Mach) (p : Nat) : Mach := m.onChan p (fun ch => { ch with pages := [] })

/-! ### Refresh -/

/-- tREFIab of a band in nanoseconds (R268). -/
def refreshInterval (band : Nat) : Nat :=
  match band with
  | 0 => 15625
  | 1 => 7813
  | 2 => 3906
  | 3 => 1953
  | _ => 977

/-- A channel that holds data and is clocked: in use, copied to, or being replaced (R275, R283). -/
def Mach.chanActive (m : Mach) (p : Nat) : Bool :=
  p < 36 && (let s := m.objN (0x7010 + p) 1; s = 1 || s = 2 || s = 3)

/-- Refreshes issued while the rank was idle: `paid` of them pay back what is owed, and once nothing is owed `ahead` more are pulled in, up to
8 (R269). -/
def Rank.issue (x : Rank) (paid ahead : Nat) : Rank :=
  { x with owed := x.owed - paid, pulled := if x.owed ≤ paid then min 8 (x.pulled + ahead) else x.pulled }

/-- A rank's refresh interval ends (R268 to R270). `paid` and `ahead` count the refreshes that the rank took while it was idle since the last due time.
When the one now due is the eighth owed, one is forced inside the burst and seven stay owed (the example of R270); with no burst in progress,
or at its boundary when not postponed, the refresh is issued. The band the die indicates applies from here on. -/
def refreshDue (p r : Nat) (burst postpone : Bool) (paid ahead : Nat) (m : Mach) : Mach :=
  let old := (m.chan p).ranks.getD r {}
  if !m.chanActive p ∨ r ≥ 2 ∨ (m.chan p).selfRefresh ≠ 0 ∨ m.now < old.dueAt + ns (refreshInterval old.band) then m
  else
    let rank := old.issue paid ahead
    let due := { rank with band := rank.nextBand, dueAt := rank.dueAt + ns (refreshInterval rank.band) }
    let put (x : Rank) : Mach := m.onChan p (fun ch => { ch with ranks := setAt ch.ranks r x })
    if rank.pulled > 0 then put { due with pulled := rank.pulled - 1 }
    else if burst ∧ 7 ≤ rank.owed then
      let m := ((put due).bump (0x7010 + p) 8).setN (0x7010 + p) 9 8
      m.raiseRate 1 0xA007 p [(1, p), (1, r), (4, 1 + ((m.jrn.rates.find? (fun x => x.code = 0xA007 ∧ x.inst = p)).map Rate.folded).getD 0)]
    else if burst ∧ postpone then
      let m := put { due with owed := rank.owed + 1 }
      if m.objN (0x7010 + p) 9 < rank.owed + 1 then m.setN (0x7010 + p) 9 (rank.owed + 1) else m
    else put due

/-- The refresh intervals of a channel's ranks begin anew, half an interval apart (R268): after training, and on an exit from self-refresh. -/
def Channel.restartRefresh (ch : Channel) (now : Nat) : Channel :=
  { ch with ranks := ch.ranks.mapIdx (fun i x => { x with dueAt := now + i * (ns (refreshInterval x.band) / 2) }) }

/-- The refresh-rate indications of a poll of mode register 4, every 250 µs (R268): the bands of ranks 0 and 1 of channel 0, then of channel 1,
and so on. A channel's band is the higher of its ranks'; band 5 raises event 0xA008. -/
def pollBands (bands : List Nat) (m : Mach) : Mach :=
  if m.now < m.dram.mr4At + us 250 ∨ 2 < m.objN 0x2100 1 then m
  else each (upTo 36) { m with dram := { m.dram with mr4At := m.now } } (fun m p =>
    if !m.chanActive p then m
    else
      let b0 := min 5 (bands.getD (2 * p) 2)
      let b1 := min 5 (bands.getD (2 * p + 1) 2)
      let was := (m.chan p).ranks.map Rank.nextBand
      let m := m.onChan p (fun ch =>
        { ch with ranks := (ch.ranks.zip [b0, b1]).map (fun x => { x.1 with nextBand := x.2 }) })
      let m := m.setN (0x7010 + p) 3 (max b0 b1)
      let m := if b0 = 5 ∧ was.getD 0 0 ≠ 5 then m.raise 0xA008 p [(1, p), (1, 0)] else m
      if b1 = 5 ∧ was.getD 1 0 ≠ 5 then m.raise 0xA008 p [(1, p), (1, 1)] else m)

/-! ### Fences, self-refresh, training upkeep, scrub -/

/-- A source issues a fence over its earlier writes (R264). -/
def fence (source : Nat) (m : Mach) : Mach := { m with dram := { m.dram with fences := m.dram.fences ++ [source] } }

/-- A fence completes: every write of a command is visible when the command ends (R263, R264). -/
def fenceComplete (source : Nat) (m : Mach) : Mach := { m with dram := { m.dram with fences := m.dram.fences.erase source } }

/-- A channel without requests for the idle time enters self-refresh, in P2 (R275); `idle` is how long it has had none, in
microseconds. -/
def idleSelfRefresh (p idle : Nat) (m : Mach) : Mach :=
  if m.objN 0x2100 1 = 2 ∧ m.chanActive p ∧ (m.chan p).selfRefresh = 0 ∧ m.objN 0x7000 9 ≤ idle then
    m.onChan p (fun ch => { ch with selfRefresh := 1, tapHeld := ch.tap })
  else m

/-- A channel leaves self-refresh: the taps in force before are restored, and the oscillator is measured before the first request (R277). -/
def Mach.leaveSelfRefresh (m : Mach) (p : Nat) (drift : Int) : Mach :=
  m.onChan p (fun (ch : Channel) =>
    ({ ch with selfRefresh := 0, tap := ch.tapHeld, tapTarget := ch.tapHeld + drift } : Channel).restartRefresh m.now)

/-- A request reaches a channel that enters or is in self-refresh (R276): before the entry command reached the bus the entry is
cancelled; after that the channel leaves self-refresh, restores its taps and measures the oscillator (R277). -/
def selfRefreshRequest (p : Nat) (onBus : Bool) (drift : Int) (m : Mach) : Mach :=
  if (m.chan p).selfRefresh = 0 then m
  else if (m.chan p).selfRefresh = 1 ∧ !onBus then m.onChan p (fun ch => { ch with selfRefresh := 0 })
  else m.leaveSelfRefresh p drift

/-- Background ZQ calibration of every channel, every 32 ms (R277). -/
def zqCalibrationTimer (m : Mach) : Mach :=
  if m.now < m.dram.zqAt + ms 32 ∨ m.objN 0x2100 1 > 2 then m
  else { m with dram := { m.dram with zqAt := m.now, zqRuns := m.dram.zqRuns + 1 } }

/-- The WCK-to-DQ oscillator is measured every 16 ms (R277); `drifts` gives each channel's drift in taps. -/
def oscillatorMeasurement (drifts : List Int) (m : Mach) : Mach :=
  if m.now < m.dram.oscAt + ms 16 ∨ m.objN 0x2100 1 > 2 then m
  else
    let m := { m with dram := { m.dram with oscAt := m.now } }
    each (upTo 36) m (fun m p =>
      if m.chanActive p then m.onChan p (fun ch => { ch with tapTarget := ch.tap + drifts.getD p 0 }) else m)

/-- One tap step of a channel toward its target (R277). -/
def Channel.stepTap (ch : Channel) : Channel :=
  if ch.tap < ch.tapTarget then { ch with tap := ch.tap + 1 }
  else if ch.tapTarget < ch.tap then { ch with tap := ch.tap - 1 }
  else ch

/-- The allocated clip extents whose logical channel a physical channel backs, in ascending number (R259). -/
def Mach.clipExtentsOn (m : Mach) (p : Nat) : List Nat :=
  sortBy (fun a b => a ≤ b) ((m.scene.clips.flatMap Clip.extents).filter (fun e => m.backs p = some (e % 32)))

/-- The 16 MiB runs of a channel that hold fixed-area addresses, by in-channel offset (R258, R281): those of the logical channel it backs, and
the extents on it that are borrowed. -/
def Mach.fixedOn (m : Mach) (p : Nat) : List Nat :=
  (if (m.backs p).isSome then (upTo 32).map (fun i => i * extentSize) else []) ++
    ((sortBy (fun a b => a ≤ b) (m.dram.borrowed.flatMap Prod.snd)).filter (fun e => m.backs p = some (e % 32))).map
      (fun e => offsetOf (fixedEnd + e * extentSize))

/-- Patrol scrub reads the next fixed-area access of a channel, and the next of its allocated clip extents where it holds any (R274; how the
two take turns is a DESIGN CHOICE, log entry 28), in P0 to P2 and not while the throttle suspends it (R472), and rewrites the codewords
the die corrected. `found` tells what every source's accesses to the channel since its last scrub came to (R271; log entry 87); a channel that
gave no response to 16 consecutive commands is dead, and its logical channel waits for a take-over (R278). -/
def patrolScrub (p : Nat) (found : ScrubReport) (m : Mach) : Mach :=
  if m.objN 0x2100 1 > 2 ∨ !m.chanActive p then m
  else if found.silent then (match m.backs p with | some l => m.wantTakeOver l 2 | none => m)
  else if m.objN 0x2200 1 ≥ 1 then m
  else
    let fixed := m.fixedOn p
    let exts := m.clipExtentsOn p
    let walk (at_ n : Nat) : Nat := if at_ + 64 ≥ n * extentSize then 0 else at_ + 64
    let at_ := (m.chan p).clipScrub
    let m := if fixed = [] then m
      else (m.readAccess p (fixed.getD ((m.chan p).scrub / extentSize) 0 + (m.chan p).scrub % extentSize)).noteRead 64
    let m := if exts = [] then m
      else (m.readAccess p (offsetOf (fixedEnd + exts.getD (at_ / extentSize) 0 * extentSize + at_ % extentSize))).noteRead 64
    let m := m.onChan p (fun ch => { ch with scrub := walk ch.scrub fixed.length, clipScrub := walk at_ exts.length })
    let m := if found.links = 0 then m else m.bump (0x7010 + p) 5 found.links
    (m.noteCorrected p found.codewords).dramThreshold p

end Sys2Proof.Machine
end

