-- ==== Sys2Proof/Machine/Koa.lean ====
section
/-! DEFINITION. KOA sessions: who is served, the checks every message passes (R35 to R47), messages the module sends, how a
session opens and closes. -/

namespace Sys2Proof.Machine

/-! ### Abort codes (R66) -/

def abStalled : Nat := 0x05040000
def abWindow : Nat := 0x05040002
def abCrc : Nat := 0x05040004
def abXferOpen : Nat := 0x05040005
def abWriteOnly : Nat := 0x06010001
def abReadOnly : Nat := 0x06010002
def abDomain : Nat := 0x06010003
def abNoObject : Nat := 0x06020000
def abType : Nat := 0x06070010
def abTooLong : Nat := 0x06070012
def abTooShort : Nat := 0x06070013
def abNoSub : Nat := 0x06090011
def abValue : Nat := 0x06090030
def abAbove : Nat := 0x06090031
def abBelow : Nat := 0x06090032
def abNoSession : Nat := 0x08000020
def abRole : Nat := 0x08000021
def abInUse : Nat := 0x08000022
def abLife : Nat := 0x08000023
def abMapLocked : Nat := 0x08000024
def abMapInvalid : Nat := 0x08000025
def abOutstanding : Nat := 0x08000026
def abWindowShut : Nat := 0x08000027
def abNothing : Nat := 0x08000028
def abPrecondition : Nat := 0x08000029
def abInconsistent : Nat := 0x0800002A
def abNotHeld : Nat := 0x0800002B
def abTransition : Nat := 0x0800002C
def abPower : Nat := 0x08060004
def abShutdown : Nat := 0x08060005
def abStarting : Nat := 0x08060006
def abInternal : Nat := 0x08080000

/-! ### Sessions -/

/-- The power state P0 … P4 (0x2100:01). -/
def Mach.power (m : Mach) : Nat := m.objN 0x2100 1

/-- A transition is under way, from its decision on (R452): a stop of heats that waits for its T1, or an entry to P3. -/
def Mach.stopping (m : Mach) : Bool := m.power_.stop.isSome || m.power_.entry.isSome

/-- An entry to P3 has taken lanes and network ports out of service (R454 step 3). -/
def Mach.listening (m : Mach) : Bool := m.power_.entry.any (fun x => x.2 = 3)

/-- The network ports and the service port of the order code (R1, R35). -/
def portFitted (x : Bool) (p : Nat) : Bool := p < (if x then 4 else 2) || p = 4 || p = 5

/-- The link-local address of a port (R383). -/
def linkLocal (mac : Nat) : Bytes :=
  [0xFE, 0x80, 0, 0, 0, 0, 0, 0] ++ beBytes 3 ((mac / 2 ^ 24) ^^^ 0x020000) ++ [0xFF, 0xFE] ++ beBytes 3 (mac % 2 ^ 24)

/-- Whether an address is the interface's own (R383). -/
def Mach.ownAddress (m : Mach) (c : Ctx) (p : Nat) (a : Bytes) : Bool :=
  let v4 := m.objN (0x4010 + p) 3
  (v4 != 0 && a = List.replicate 10 0 ++ [0xFF, 0xFF] ++ beBytes 4 v4) ||
    (m.str (0x4010 + p) 6 != List.replicate 16 0 && a = m.str (0x4010 + p) 6) || a = linkLocal (c.unit.macs.getD p 0)

/-- Whether sessions are offered: in recovery only where the service port follows the session rules, in RETIRED (R45). A HELLO or PROOF where no
session is offered is dropped without an answer and counts as no tag failure (DESIGN CHOICE, log entry 92: R45 answers "every other request" with
0x0800_0021, and a HELLO or PROOF is no request of R46). -/
def Mach.offersSessions (m : Mach) (c : Ctx) : Bool := !m.boot.recovery || c.life = .retired

/-- Whether the module serves KOA on a port: from step 6 of the start sequence on (R533), in P0 to P2, and in recovery on
the service port only (R537). While core 0 restarts, nothing is answered (R542). -/
def Mach.serves (m : Mach) (c : Ctx) (port : Nat) : Bool :=
  portFitted c.unit.orderX port && m.coreUp 0 &&
    (if m.boot.recovery then port = 5 else 6 ≤ m.boot.step && m.power ≤ 2)

/-- Whether the module hears a message: it is served on its port, and came to an address of that port's interface (R35, R383, R385). -/
def Mach.hears (m : Mach) (c : Ctx) (x : Peer) : Bool := m.serves c x.port && (x.port = 5 || m.ownAddress c x.port x.own)

/-- Whether a message without a session is accepted (R45): on the service port, in FACTORY, or in recovery except in
RETIRED. -/
def Mach.sessionless (m : Mach) (c : Ctx) (h : KoaHdr) : Bool :=
  h.session = 0 && h.peer.port = 5 && (c.life = .factory || (m.boot.recovery && c.life != .retired))

/-- Finds an open session; ID 0 is the access without a session. -/
def Mach.session? (m : Mach) (id : Nat) : Option Session :=
  if id = 0 then some { m.koa.direct with id := 0 } else m.koa.sessions.find? (fun s => s.id = id)

/-- The session with an ID, or an empty one. -/
def Mach.session (m : Mach) (id : Nat) : Session := (m.session? id).getD {}

/-- Changes an open session; ID 0 is the access without a session. -/
def Mach.onSession (m : Mach) (id : Nat) (f : Session → Session) : Mach :=
  if id = 0 then { m with koa := { m.koa with direct := f m.koa.direct } }
  else { m with koa := { m.koa with sessions := m.koa.sessions.map (fun s => if s.id = id then f s else s) } }

/-- Sends a message of a session to a peer: an answer goes to the address and port that its request came from (R35). -/
def Mach.sayTo (m : Mach) (peer : Peer) (id ty flags tag : Nat) (payload : Bytes) : Mach :=
  match m.session? id with
  | none => m
  | some s =>
    let (s', o) := s.messageTo peer ty flags tag payload
    (m.onSession id (fun _ => s')).emit o

/-- Sends a message of a session to the peer of its last accepted message. -/
def Mach.say (m : Mach) (id ty flags tag : Nat) (payload : Bytes) : Mach := m.sayTo (m.session id).peer id ty flags tag payload

/-- The payload of an ABORT (R38). -/
def abortPayload (ix sub code : Nat) : Bytes := beBytes 2 ix ++ beBytes 1 sub ++ [0] ++ beBytes 4 code

/-- Sends an ABORT in a session. -/
def Mach.abort (m : Mach) (id tag ix sub code : Nat) : Mach := m.say id 0x7F 0 tag (abortPayload ix sub code)

/-- A message outside any session, tagged with a given key: an answer to a HELLO or a refused PROOF (R37, R39, R41). -/
def Mach.sayWith (m : Mach) (peer : Peer) (key : Bytes) (ty session counter tag : Nat) (payload : Bytes) : Mach :=
  m.emit (.koa peer ty 0 session counter tag payload
    (hmac key (koaHeader ty 0 session counter tag payload.length ++ payload)))

/-- Counts a tag failure (R40). -/
def Mach.tagFailure (m : Mach) : Mach :=
  let m := m.bump 0x1100 4
  { m with koa := { m.koa with tagFails := m.koa.tagFails + 1 } }

/-- The cyclic maps 0 to 7 whose destination is a session are disabled (R43). -/
def Mach.dropMaps (m : Mach) (id : Nat) : Mach :=
  each (upTo 8) m (fun m i =>
    if m.objB (0x1130 + i) 1 ∧ m.objN (0x1130 + i) 2 = id then (m.setN (0x1130 + i) 1 0).setN (0x1130 + i) 2 0 else m)

/-- The outstanding requests of a session are gone with it. -/
def Mach.dropWaiting (m : Mach) (id : Nat) : Mach :=
  { m with koa := { m.koa with waiting := m.koa.waiting.filter (fun w => w.session != id) } }

/-- A work-surface patch that waits is a transfer of its session that is still open (R176): it goes with it. -/
def Mach.dropHeld (m : Mach) (id : Nat) : Mach :=
  { m with outs := { m.outs with held := m.outs.held.filter (fun x => x.session != id) } }

/-- Closes a session (R43): a CLOSE to the peer unless the session closes by one it sent or in an abrupt stop, its transfer
cancelled, its cyclic maps disabled, event 0xE002. While core 0 restarts no CLOSE leaves (R29, R542; DESIGN CHOICE, log entry 91). -/
def Mach.closeSession (m : Mach) (id reason : Nat) (tell : Bool) : Mach :=
  match m.koa.sessions.find? (fun s => s.id = id) with
  | none => m
  | some _ =>
    let m := if tell ∧ m.coreUp 0 then m.say id 0x05 0 0 [] else m
    let m := { m with koa := { m.koa with sessions := m.koa.sessions.filter (fun s => s.id != id) } }
    let m := (m.dropHeld id).dropWaiting id
    (m.dropMaps id).raise 0xE002 0 [(4, id), (1, reason)]

/-- Closes the sessions of a key slot (R43). -/
def Mach.closeSlot (m : Mach) (slot : Nat) : Mach :=
  each ((m.koa.sessions.filter (fun s => s.slot = slot)).map Session.id) m (fun m i => m.closeSession i 2 true)

/-- Closes every session on entry to P3 or P4 (R43); by S7 or an abrupt loss no CLOSE is sent. -/
def Mach.closeAll (m : Mach) (tell : Bool) : Mach :=
  each (m.koa.sessions.map Session.id) m (fun m i => m.closeSession i 3 tell)

/-- On entry to P3 or P4 the pending handshakes are gone (DESIGN CHOICE, log entry 80: R41 names two other ways only), and with them the
outstanding requests and the transfer of the access without a session. -/
def Mach.forgetShakes (m : Mach) : Mach :=
  { m with koa := { m.koa with shakes := [], waiting := [], direct := { m.koa.direct with xfer := none } } }

/-! ### The checks of a message -/

/-- The bytes of the header as it arrived. -/
def hdrBytes (h : KoaHdr) (ty : Nat) : Bytes :=
  beBytes 1 h.proto ++ beBytes 1 h.version ++ beBytes 1 ty ++ beBytes 1 h.flags ++ beBytes 4 h.session ++
    beBytes 8 h.counter ++ beBytes 2 h.tag ++ beBytes 2 h.plen ++ beBytes 4 h.reserved

/-- Whether protocol, version and datagram length are right (R36, R37). Without a session the 32 bytes of tag may be absent
(R45). -/
def wellFramed (g : KoaMsg) (sessionless : Bool) : Bool :=
  g.hdr.proto = 0x4B && g.hdr.version = 0x01 && g.hdr.plen = g.payload.length && g.payload.length ≤ 1392 &&
    (g.hdr.mac.length = 32 || (sessionless && g.hdr.mac.length = 0))

/-- Whether a tag is the HMAC of the header and payload under a key (R37). -/
def tagged (g : KoaMsg) (ty : Nat) (key : Bytes) : Bool := g.hdr.mac = hmac key (hdrBytes g.hdr ty ++ g.payload)

/-- Whether the receive window takes a counter (R42). -/
def Session.takes (s : Session) (n : Nat) : Bool := s.rxHigh < n || (s.rxHigh ≤ n + 64 && !s.rxSeen.contains n)

/-- Notes an accepted message: its counter, its instant and where it came from (R42, R43). -/
def Session.accept (s : Session) (g : KoaMsg) (now : Nat) : Session :=
  let high := max s.rxHigh g.hdr.counter
  { s with
    rxHigh := high
    rxSeen := g.hdr.counter :: s.rxSeen.filter (fun n => high ≤ n + 64)
    lastAt := now
    peer := g.hdr.peer }

/-- What the checks make of a message: dropped, or accepted in a session. -/
inductive Gate where
  | drop (m : Mach)
  | take (m : Mach) (s : Session)
  deriving DecidableEq

/-- The checks of R35 to R42 and R45 on a message of an open session. -/
def Mach.vet (m : Mach) (c : Ctx) (ty : Nat) (g : KoaMsg) : Gate :=
  if !m.hears c g.hdr.peer then .drop m
  else if !wellFramed g (m.sessionless c g.hdr) then .drop m
  else if m.sessionless c g.hdr then
    let m := m.onSession 0 (fun s => { s with peer := g.hdr.peer, lastAt := m.now })
    .take m { m.koa.direct with id := 0 }
  else match m.koa.sessions.find? (fun s => s.id = g.hdr.session) with
    | none => .drop m.tagFailure
    | some s =>
      if !tagged g ty s.key then .drop m.tagFailure
      else if !s.takes g.hdr.counter then .drop (m.bump 0x1100 5)
      else
        let s' := s.accept g m.now
        .take (m.onSession s.id (fun _ => s')) s'

/-- The payload length a message of a type must have (R568); `none` where the length follows from the payload itself. -/
def payloadLength (ty : Nat) (p : Bytes) : Option Nat :=
  match ty with
  | 0x01 => some 20
  | 0x03 => some 0
  | 0x05 => some 0
  | 0x10 => some 4
  | 0x12 => some (if p.length < 6 then 6 else 6 + ofBE (slice 4 2 p))
  | 0x20 => some 12
  | 0x22 => if p.length < 4 then some 4 else none
  | 0x23 => some 4
  | 0x2F => some 4
  | 0x41 => some 8
  | _ => none

/-- The abort of a payload of another length than its type's (R568). -/
def lengthAbort (ty : Nat) (p : Bytes) : Option Nat :=
  match payloadLength ty p with
  | none => none
  | some n => if p.length = n then none else some (if n < p.length then abTooLong else abTooShort)

/-- The index and sub-index an ABORT carries: those of the payload when it holds them whole (R568). -/
def payloadObject (ty : Nat) (p : Bytes) : Nat × Nat :=
  if (ty = 0x10 ∨ ty = 0x12 ∨ ty = 0x20) ∧ 3 ≤ p.length then (ofBE (p.take 2), ofBE (slice 2 1 p)) else (0, 0)

/-! ### HELLO, PROOF, CLOSE and the timers of a session -/

/-- The lowest number from `start` on, skipping 0 and the numbers in use. -/
def freshFrom : Nat → Nat → List Nat → Nat
  | 0, start, _ => start
  | n + 1, start, used =>
    if start = 0 ∨ start ∈ used then freshFrom n ((start + 1) % 4294967296) used else start

/-- The session IDs in use by sessions and pending handshakes. -/
def Mach.idsInUse (m : Mach) : List Nat := m.koa.sessions.map Session.id ++ m.koa.shakes.map Handshake.id

/-- A fresh session ID (R39): a free value, moved past the IDs in use. -/
def Mach.freshId (m : Mach) : Nat :=
  freshFrom (m.idsInUse.length + 2) (Config.sessionId m.free).toNat m.idsInUse

/-- The key of a slot; empty when the slot holds none (R71). -/
def Mach.slotKey (m : Mach) (slot : Nat) : Bytes := if 1 ≤ slot ∧ slot ≤ 8 then m.str 0x1110 slot else []

/-- HELLO after its checks: the CHALLENGE with a fresh ID and a nonce, and the pending handshake (R39, R41). -/
def Mach.challenge (m : Mach) (g : KoaMsg) (slot : Nat) (key : Bytes) : Mach :=
  let id := m.freshId
  let nonce := beBytes 16 (Config.nonce m.free).toNat
  let client := slice 4 16 g.payload
  let s := hmac key ([0x4B, 0x4F, 0x41, 0x2D, 0x53] ++ client ++ nonce ++ beBytes 4 id)
  let shake : Handshake := ⟨id, slot, s, g.hdr.peer, m.objN 0x1100 2, m.now⟩
  let old := if m.koa.shakes.length < 8 then m.koa.shakes else m.koa.shakes.drop 1
  let m := { m with koa := { m.koa with shakes := old ++ [shake] } }
  (m.sayWith g.hdr.peer key 0x02 id 0 g.hdr.tag nonce).draw

/-- HELLO (R39 to R41, R568; R509 and R539 while the module shuts down). -/
def hello (g : KoaMsg) (c : Ctx) (m : Mach) : Mach :=
  if !m.hears c g.hdr.peer ∨ !m.offersSessions c ∨ !wellFramed g false ∨ g.payload = [] then m
  else
    let slot := ofBE (g.payload.take 1)
    let key := m.slotKey slot
    if key = [] ∨ !tagged g 0x01 key then m.tagFailure
    else if (lengthAbort 0x01 g.payload).isSome then m
    else if m.boot.shut ≠ 0 then m.sayWith g.hdr.peer key 0x7F 0 0 g.hdr.tag (abortPayload 0 0 abShutdown)
    else if m.koa.sessions.length ≥ 8 then
      (m.sayWith g.hdr.peer key 0x7F 0 0 g.hdr.tag (abortPayload 0 0 abNoSession)).raise 0xE004 0 [(1, slot)]
    else m.challenge g slot key

/-- PROOF after its checks: the session opens with ACCEPT, or is refused while 8 are open (R39, R41). -/
def Mach.openSession (m : Mach) (g : KoaMsg) (h : Handshake) : Mach :=
  let m := { m with koa := { m.koa with shakes := m.koa.shakes.filter (fun x => x.id != h.id) } }
  if m.koa.sessions.length ≥ 8 then
    (m.sayWith g.hdr.peer h.key 0x7F h.id 1 g.hdr.tag (abortPayload 0 0 abNoSession)).raise 0xE004 0 [(1, h.slot)]
  else
    let role := m.objN 0x1111 h.slot
    let s : Session := { id := h.id, slot := h.slot, role := role, key := h.key, peer := g.hdr.peer,
                         idle := m.objN 0x1100 2, lastAt := m.now, rxHigh := g.hdr.counter, rxSeen := [g.hdr.counter] }
    let (s, accept) := s.message 0x04 0 g.hdr.tag (beBytes 1 role ++ [0] ++ beBytes 2 s.idle)
    let m : Mach := { m with koa := { m.koa with sessions := m.koa.sessions ++ [s] } }
    (m.emit accept).raise 0xE001 0 [(4, h.id), (1, h.slot), (1, g.hdr.peer.port)]

/-- PROOF (R39 to R42, R568). One that names an open session is a message of that session and is dropped there. Host software sends it with
counter 1; a PROOF with another counter is judged by R42 alone, from a highest counter of 0 on (DESIGN CHOICE, log entry 80). -/
def proof (g : KoaMsg) (c : Ctx) (m : Mach) : Mach :=
  if !m.hears c g.hdr.peer ∨ !m.offersSessions c ∨ !wellFramed g false then m
  else match m.koa.shakes.find? (fun h => h.id = g.hdr.session) with
    | none => match m.vet c 0x03 g with
      | .drop m => m
      | .take m _ => m
    | some h =>
      if !tagged g 0x03 h.key then m.tagFailure
      else if g.hdr.counter = 0 then m.bump 0x1100 5
      else if g.payload ≠ [] then m
      else m.openSession g h

/-- CLOSE from the host (R43). -/
def close (g : KoaMsg) (c : Ctx) (m : Mach) : Mach :=
  match m.vet c 0x05 g with
  | .drop m => m
  | .take m s =>
    match lengthAbort 0x05 g.payload with
    | some a => m.abort s.id g.hdr.tag 0 0 a
    | none => m.closeSession s.id 0 false

/-- EVENT_ACK (R61): the event leaves the session's queue, and queued events may follow. -/
def eventAck (g : KoaMsg) (c : Ctx) (m : Mach) : Mach :=
  match m.vet c 0x41 g with
  | .drop m => m
  | .take m s =>
    match lengthAbort 0x41 g.payload with
    | some a => m.abort s.id g.hdr.tag 0 0 a
    | none =>
      let n := ofBE g.payload
      let (s', os) := ({ s with queue := s.queue.filter (fun q => q.record.seq != n) } : Session).pump m.now
      let m := m.onSession s.id (fun _ => s')
      { m with out := os ++ m.out }

/-- The idle timeout of a session (R43); core 0 keeps it (R29). -/
def sessionIdleTimeout (id : Nat) (m : Mach) : Mach :=
  match m.koa.sessions.find? (fun s => s.id = id) with
  | none => m
  | some s => if s.lastAt + ms s.idle ≤ m.now ∧ m.coreUp 0 then m.closeSession id 1 true else m

/-- A pending handshake is forgotten once its idle timeout has passed without a valid PROOF (R41); core 0 keeps it (R29). -/
def handshakeTimeout (id : Nat) (m : Mach) : Mach :=
  if !m.coreUp 0 then m else { m with koa := { m.koa with shakes := m.koa.shakes.filter (fun h => !(h.id = id ∧ h.at_ + ms h.idle ≤ m.now)) } }

/-- An EVENT goes unacknowledged for t_evr (R61): it is sent again up to 5 times, and then no more; it then leaves the session's queue and no
longer counts among its 16 (DESIGN CHOICE, log entry 80). Core 0 sends it (R29). -/
def eventRetransmissionTimeout (id n : Nat) (m : Mach) : Mach :=
  match m.koa.sessions.find? (fun s => s.id = id) with
  | none => m
  | some s =>
    match s.queue.find? (fun q => q.record.seq = n) with
    | none => m
    | some q =>
      match q.sent with
      | none => m
      | some t =>
        if m.now < t + ms 100 ∨ !m.coreUp 0 then m
        else if q.resends ≥ 5 then
          let (s', os) := ({ s with queue := s.queue.filter (fun x => x.record.seq != n) } : Session).pump m.now
          let m := m.onSession id (fun _ => s')
          { m with out := os ++ m.out }
        else if s.sentLately m.now < 200 then
          let s : Session := { s with queue := s.queue.map (fun (x : QEvent) => if x.record.seq = n then { x with resends := x.resends + 1 } else x) }
          let (s', o) := s.sendEvent m.now q
          (m.onSession id (fun _ => s')).emit o
        else m

/-- The events queued for a session go as far as the rate of R61 lets them. -/
def Mach.pumpEvents (m : Mach) (id : Nat) : Mach :=
  match m.koa.sessions.find? (fun s => s.id = id) with
  | none => m
  | some s =>
    let (s', os) := s.pump m.now
    let m := m.onSession id (fun _ => s')
    { m with out := os ++ m.out }

/-- The rate of R61 lets queued events go; core 0 sends them (R29). -/
def eventSendRelease (id : Nat) (m : Mach) : Mach := if m.coreUp 0 then m.pumpEvents id else m

/-- The end of an interval of 1 s of the time word (R40): event 0xE003 when more than 16 tag failures fell into it. -/
def tagFailureIntervalEnd (m : Mach) : Mach :=
  let second := m.timeWord / sec 1
  if second = m.koa.tagSecond then m
  else
    let n := m.koa.tagFails
    let m := { m with koa := { m.koa with tagFails := 0, tagSecond := second } }
    if 16 < n then m.raise 0xE003 0 [(4, n)] else m

end Sys2Proof.Machine
end

