-- ==== Sys2Proof/Machine/Schedule.lean ====
section
/-! DEFINITION. The arithmetic of the frame schedule (R75 to R77, R82): ticks, slot ticks, the instants of the heat in flight. -/

namespace Sys2Proof.Machine

/-- 10⁹ · 2¹⁶: units of 2⁻¹⁶ ns in a second. -/
def perSecond : Nat := 65536000000000

/-- The frame tick H of a schedule with epoch E and period N/D (R75). -/
def frameTick (e n d h : Nat) : Nat := e + h * n * perSecond / d

/-- The slot tick s of frame H at S_H slots (R75). -/
def slotTick (e n d slots h s : Nat) : Nat := e + (h * slots + s) * n * perSecond / (d * slots)

/-- The first frame number whose tick lies at or after an instant. -/
def firstFrame (e n d t : Nat) : Nat :=
  if t ≤ e then 0
  else
    let g := (t - e) * d / (n * perSecond)
    if t ≤ frameTick e n d g then g else if t ≤ frameTick e n d (g + 1) then g + 1 else g + 2

/-- Epoch, numerator and denominator of the schedule in force (0x5000:06 to :08). -/
def Mach.inForce (m : Mach) : Nat × Nat × Nat := (m.objN 0x5000 6, m.objN 0x5000 7, m.objN 0x5000 8)

/-- The frame tick H of the schedule in force. -/
def Mach.tickAt (m : Mach) (h : Nat) : Nat := frameTick (m.objN 0x5000 6) (m.objN 0x5000 7) (m.objN 0x5000 8) h

/-- Frame number of the latest frame tick, F (0x5000:0B). -/
def Mach.frameNo (m : Mach) : Nat := m.objN 0x5000 0x0B

/-- The slot count latched for frame H (R81): that of the current frame (0x5000:09), and for the frame of the heat in flight the count
which that heat latched at its start. -/
def Mach.slotsOf (m : Mach) (h : Nat) : Nat :=
  if m.pipe.heat.running ∧ m.pipe.heat.number = h then m.pipe.heat.slots else m.objN 0x5000 9

/-- The slot tick s of frame H of the schedule in force, at the slot count latched for that frame (R75). -/
def Mach.slotAt (m : Mach) (h s : Nat) : Nat :=
  slotTick (m.objN 0x5000 6) (m.objN 0x5000 7) (m.objN 0x5000 8) (m.slotsOf h) h s

/-- The schedule state (0x5000:0A): 0 STOPPED, 1 STARTING, 2 RUNNING, 3 RESTARTING. -/
def Mach.schedState (m : Mach) : Nat := m.objN 0x5000 0x0A

/-- The heat in flight. -/
def Mach.heat (m : Mach) : Heat := m.pipe.heat

/-- Changes the heat in flight. -/
def Mach.onHeat (m : Mach) (f : Heat → Heat) : Mach := { m with pipe := { m.pipe with heat := f m.pipe.heat } }

/-- Changes the pipeline. -/
def Mach.onPipe (m : Mach) (f : Pipeline → Pipeline) : Mach := { m with pipe := f m.pipe }

/-- t_H now, in units of 2⁻¹⁶ ns (R15). -/
def Mach.tH (m : Mach) : Nat := m.timeWord - m.heat.start

/-- t_H now in whole µs. -/
def Mach.tHus (m : Mach) : Nat := m.tH / us 1

/-- The commit point t_C of the heat in flight on the time word (R82): its frame tick less the commit guard. -/
def Mach.commitAt (m : Mach) : Nat := m.tickAt m.heat.number - us m.heat.guard_

/-- The late cut-off t_L of the heat in flight on the time word (R82). -/
def Mach.cutOffAt (m : Mach) : Nat := m.tickAt m.heat.number - us (m.heat.guard_ + m.heat.margin)

/-- Whether the late cut-off of a schedule lies at t_H = 2,000 µs or later (R76): P − G − M with P = N/D. -/
def heatTiming (n d g l : Nat) : Bool := (2000 + g + l) * d ≤ n * 1000000

/-- The conditions of R76 on a schedule with S slots. -/
def scheduleAllowed (n d s g l : Nat) : Bool :=
  1 ≤ n && n ≤ 65535 && 1 ≤ d && d ≤ 6000000 && d ≤ 120 * n && n * 10 ≤ d && s * d ≤ 960 * n && heatTiming n d g l

/-- Heats run, or their schedule is starting (0x5000:0A not STOPPED). -/
def Mach.scheduled (m : Mach) : Bool := m.schedState != 0

/-- The panel tile position of a map entry (R325): row-major, 32 columns. -/
def panelOf (entry : Nat) : Nat := 32 * (entry % 256) + entry / 256

/-- The shedding stage in force (0x2000:06). -/
def Mach.stage (m : Mach) : Nat := m.objN 0x2000 6

/-- The throttle level in force (0x2200:01). -/
def Mach.throttle (m : Mach) : Nat := m.objN 0x2200 1

/-- The synthesis core clock's value object (R169): 1,250 MHz at S0 to S2, 625 at S3 and S4, 312 at S5 and deeper. -/
def clusterClock (stage : Nat) : Nat := if stage ≤ 2 then 1250 else if stage ≤ 4 then 625 else 312

/-- Most slots that a shedding stage allows (R441). -/
def stageSlots (stage : Nat) : Nat := if stage ≤ 2 then 16 else if stage = 3 then 8 else if stage = 4 then 4 else 1

/-- Most slots that a throttle stage allows (R472). -/
def throttleSlots (t : Nat) : Nat := if t ≤ 1 then 16 else if t = 2 then 8 else 4

/-- The slot count that a heat starting now latches (R33, R81, R441, R472, R473): the smallest limit prevails. -/
def Mach.slotsFor (m : Mach) : Nat :=
  min (min (m.objN 0x5000 4) (if m.pipe.fewClusters then 8 else 16)) (min (stageSlots m.stage) (throttleSlots m.throttle))

/-- The frame tick F0 at which heats are to start, with its number: of a restart past T2, or of a start of heats (R78, R79, R83, R533). -/
def Mach.startTick (m : Mach) : Option (Nat × Nat) :=
  let at_ (e n d t : Nat) : Nat × Nat := let f := firstFrame e n d t; (f, frameTick e n d f)
  match m.pipe.restart with
  | some r => if r.phase = 3 then some (at_ r.epoch r.num r.den r.after) else none
  | none => m.boot.heatsFrom.map (fun t => at_ (m.objN 0x5000 6) (m.objN 0x5000 7) (m.objN 0x5000 8) t)

/-- Number and instant of the next frame tick; none while no schedule runs and none is to start (0x5000:0C). -/
def Mach.nextTick (m : Mach) : Option (Nat × Nat) :=
  match m.startTick with
  | some t => some t
  | none => if m.scheduled then some (m.frameNo + 1, m.tickAt (m.frameNo + 1)) else none

/-- A pour of the heat in flight by its panel position. -/
def Mach.pour? (m : Mach) (p : Nat) : Option Pour := m.heat.pours.find? (fun x => x.panel = p)

/-- Changes the pours of the heat in flight. -/
def Mach.onPours (m : Mach) (f : Pour → Pour) : Mach := m.onHeat (fun h => { h with pours := h.pours.map f })

/-- Changes one pour. -/
def Mach.onPour (m : Mach) (p : Nat) (f : Pour → Pour) : Mach := m.onPours (fun x => if x.panel = p then f x else x)

/-- A version of a pour. -/
def Pour.ver (p : Pour) (v : Nat) : Ver := if v = 2 then p.v2 else p.v1

/-- Changes a version of a pour. -/
def Pour.onVer (p : Pour) (v : Nat) (f : Ver → Ver) : Pour := if v = 2 then { p with v2 := f p.v2 } else { p with v1 := f p.v1 }

/-- A version that exists becomes CANCELLED (R89, R100). -/
def Ver.cancel (v : Ver) : Ver := if v.state = 0 then v else { v with state := 11 }

/-- A tile leaves the tile map during the heat: its pour versions become CANCELLED (R100), and the contexts that hold them are free. -/
def Mach.cancelPour (m : Mach) (c pos : Nat) : Mach :=
  let m := m.onPours (fun x => if x.c = c ∧ x.pos = pos then { x with v1 := x.v1.cancel, v2 := x.v2.cancel } else x)
  let gone := (m.heat.pours.filter (fun x => x.c = c ∧ x.pos = pos)).map Pour.panel
  let m := m.onHeat (fun h => { h with list := h.list.filter (fun e => !gone.contains e.1) })
  let mine (w : Option Work) : Bool := match w with
    | some w => gone.contains w.panel
    | none => false
  m.onPipe (fun p => { p with clusters := p.clusters.map (fun (x : Cluster) => { x with
    ctx := x.ctx.map (fun w => if mine w then none else w)
    cur := x.cur.filter (fun i => !mine (x.ctx.getD i none)) }) })

end Sys2Proof.Machine
end

