-- ==== Sys2Proof/Machine/Lane.lean ====
section
/-! DEFINITION. Tile-link lanes: control block encodings (R290, R314, R315), scrambling (R289), states (R297), sending, the way into
and out of the deep state (R298 to R302), test patterns (R305, R306) and injection (R307). -/

namespace Sys2Proof.Machine

/-! ### Lanes -/

/-- A lane. -/
def Mach.lane (m : Mach) (l : Nat) : Lane := m.lanes.getD l {}

/-- Changes a lane. -/
def Mach.onLane (m : Mach) (l : Nat) (f : Lane → Lane) : Mach := { m with lanes := modAt m.lanes l f }

/-- Mode of a lane: 0 BLOCKS, 1 PRBS31, 2 PRBS13, 3 OFF (R286). -/
def Mach.laneMode (m : Mach) (l : Nat) : Nat := m.objN (0x6010 + l) 1

/-- TX state of a lane (R297). -/
def Mach.tx (m : Mach) (l : Nat) : Nat := m.objN (0x6010 + l) 3

/-- RX state of a lane (R297). -/
def Mach.rx (m : Mach) (l : Nat) : Nat := m.objN (0x6010 + l) 4

/-- Moves the TX of a lane. -/
def Mach.setTx (m : Mach) (l st : Nat) : Mach := m.setN (0x6010 + l) 3 st

/-- Moves the RX of a lane. -/
def Mach.setRx (m : Mach) (l st : Nat) : Mach := m.setN (0x6010 + l) 4 st

/-! ### Control blocks -/

/-- The slot count field of a TICK (R314). -/
def slotCode (slots : Nat) : Nat := if slots = 1 then 0 else if slots = 4 then 1 else if slots = 8 then 2 else 3

/-- The CRC-32C of a run of bytes (R192). -/
def crcOf (b : Bytes) : Nat := crc32c b

/-- The payload of a control block, bits [127:0] (R290, R314, R315). -/
def Ktl.payload (k : Ktl) : Nat :=
  match k with
  | .idle => 0
  | .laneSleep n => 0x01 * 2 ^ 120 + n % 256 * 2 ^ 112
  | .tick frame slot slots number lead ring =>
    0x10 * 2 ^ 120 + bit frame * 2 ^ 118 + slot % 16 * 2 ^ 114 + slotCode slots * 2 ^ 112 + number % 2 ^ 32 * 2 ^ 80 +
      lead % 2 ^ 24 * 2 ^ 56 + ring % 65536 * 2 ^ 40
  | .commit pos v h => 0x11 * 2 ^ 120 + pos % 16 * 2 ^ 116 + v % 4 * 2 ^ 114 + h % 2 ^ 32 * 2 ^ 80
  | .withdraw pos v h => 0x12 * 2 ^ 120 + pos % 16 * 2 ^ 116 + v % 4 * 2 ^ 114 + h % 2 ^ 32 * 2 ^ 80
  | .blank pos mode reason => 0x13 * 2 ^ 120 + pos % 16 * 2 ^ 116 + mode % 4 * 2 ^ 114 + reason % 256 * 2 ^ 104
  | .enumerate hop dir seq => 0x14 * 2 ^ 120 + hop % 16 * 2 ^ 116 + dir % 2 * 2 ^ 115 + seq % 65536 * 2 ^ 96
  | .route a b port now frame =>
    0x15 * 2 ^ 120 + a % 16 * 2 ^ 116 + b % 16 * 2 ^ 112 + port % 2 * 2 ^ 111 + bit now * 2 ^ 110 + frame % 2 ^ 32 * 2 ^ 72
  | .delayProbe pos id => 0x16 * 2 ^ 120 + pos % 16 * 2 ^ 116 + id % 256 * 2 ^ 108
  | .segStart s =>
    let locator := if s.kind = 0 then s.row % 64 * 2 ^ 19 + s.band % 64 * 2 ^ 13 + (s.width - 1) % 64 * 2 ^ 7 + s.piece % 128
      else s.piece % 2 ^ 25
    0x17 * 2 ^ 120 + s.pos % 16 * 2 ^ 116 + s.version % 4 * 2 ^ 114 + s.kind % 8 * 2 ^ 111 +
      (if s.kind = 0 then s.heat % 256 else 0) * 2 ^ 103 + s.seq % 65536 * 2 ^ 87 +
      (s.data.length / 16 - 1) % 256 * 2 ^ 79 + locator * 2 ^ 54 + crcOf s.data
  | .configWrite pos reg v => 0x18 * 2 ^ 120 + pos % 16 * 2 ^ 116 + reg % 256 * 2 ^ 108 + v % 2 ^ 32 * 2 ^ 76
  | .flashRead pos kind => 0x19 * 2 ^ 120 + pos % 16 * 2 ^ 116 + kind % 8 * 2 ^ 113
  | .flashCommit pos kind len crc =>
    0x1A * 2 ^ 120 + pos % 16 * 2 ^ 116 + kind % 8 * 2 ^ 113 + len % 2 ^ 32 * 2 ^ 80 + crc % 2 ^ 32 * 2 ^ 48
  | .wake pos => 0x1B * 2 ^ 120 + pos % 16 * 2 ^ 116
  | .ack pos kind seq => 0x20 * 2 ^ 120 + pos % 16 * 2 ^ 116 + kind % 8 * 2 ^ 111 + seq % 65536 * 2 ^ 87
  | .nak pos kind seq cause => 0x21 * 2 ^ 120 + pos % 16 * 2 ^ 116 + kind % 8 * 2 ^ 111 + seq % 65536 * 2 ^ 87 + cause % 4 * 2 ^ 85

/-- Scrambles or descrambles bits in transmission order from a state of the last 58 line bits, newest first (R289): the result and the
state after it. `line` says whether the line bit is the result (TX) or the input (RX). -/
def scramble (tx : Bool) : List Bool → List Bool → List Bool × List Bool
  | st, [] => ([], st)
  | st, d :: rest =>
    let x := (d != st.getD 38 true) != st.getD 57 true
    let line := if tx then x else d
    let (out, last) := scramble tx (line :: st.take 57) rest
    (x :: out, last)

/-- The bits of a number, most significant first. -/
def bitsMsb (w n : Nat) : List Bool := (upTo w).map (fun i => n.testBit (w - 1 - i))

/-- The number that bits spell, most significant first. -/
def ofBits (b : List Bool) : Nat := b.foldl (fun a x => 2 * a + bit x) 0

/-- The level of a bit pair, the first bit being the more significant (R287). -/
def levelOf (a b : Bool) : Level :=
  if a then (if b then .plus1 else .plus3) else (if b then .minus1 else .minus3)

/-- The bit pair of a level (R287). -/
def Level.bits (x : Level) : List Bool :=
  match x with
  | .minus3 => [false, false]
  | .minus1 => [false, true]
  | .plus1 => [true, true]
  | .plus3 => [true, false]

/-- The symbols of bits in the order sent (R287); a bit without a second one stands with a 0. -/
def levels : List Bool → List Level
  | [] => []
  | [a] => [levelOf a false]
  | a :: b :: rest => levelOf a b :: levels rest

/-- The symbols of blocks that a lane sends one behind the other (R287 to R289): whether each is a control block, and its payload. The
injection of kind 5 takes the first of them, with header 00 (R307). -/
def Lane.encode (x : Lane) : List (Bool × Nat) → List Level × Lane
  | [] => ([], x)
  | (control, payload) :: rest =>
    let (line, state) := scramble true x.scrambler (bitsMsb 128 payload)
    let head := if x.badTx then [false, false] else [control, !control]
    let (more, last) := Lane.encode { x with scrambler := state, badTx := false } rest
    (levels (head ++ line) ++ more, last)

/-- Single-shot kinds disarm themselves once they have acted (R307). -/
def Lane.disarmed (x : Lane) : Lane :=
  if (x.armed = 1 ∧ !x.flip) ∨ ((x.armed = 3 ∨ x.armed = 4) ∧ x.badHeaders = 0) ∨ (x.armed = 5 ∧ !x.badTx) then
    { x with armed := 0 }
  else x

/-- Sends blocks on a lane one behind the other: the symbols, and the module after it. Where time has passed since the scrambler's last block,
the IDLE blocks in between are not counted, and the state they leave it in is free (log entry 7). An injection that acts is counted (R307). -/
def Mach.transmit (m : Mach) (l : Nat) (blocks : List (Bool × Nat)) : List Level × Mach :=
  let x := m.lane l
  let x : Lane := if x.sentAt = some m.now then x else { x with scrambler := bitsMsb 58 (Config.scrambler m.free).toNat }
  let (symbols, y) := x.encode blocks
  let m := (m.onLane l (fun _ => ({ y with sentAt := some m.now } : Lane).disarmed)).draw
  (symbols, if x.badTx ∧ !y.badTx then m.bump (0x6010 + l) 0x15 else m)

/-- Puts a control block on a lane, when its TX is ACTIVE (R290, R297). -/
def Mach.putKtl (m : Mach) (l : Nat) (k : Ktl) : Mach :=
  if m.tx l ≠ 4 then m
  else
    let (symbols, m) := m.transmit l [(true, k.payload)]
    m.emit (.ktl l k symbols)

/-- The tundish sends a control block on a lane: not while the module is QUENCHED, when the AO block generator has the lanes (R373). -/
def Mach.sendKtl (m : Mach) (l : Nat) (k : Ktl) : Mach := if m.objN 0x6401 1 ≠ 0 then m else m.putKtl l k

/-- Sends several control blocks in order. -/
def Mach.sendAll (m : Mach) (l : Nat) (ks : List Ktl) : Mach := each ks m (fun m k => m.sendKtl l k)

/-! ### Tiles of a chain, as far as lanes ask -/

/-- The bank of a tile's objects 0x6181. -/
def tileBank (c pos : Nat) : Nat := c * 10 + pos

/-- The state of a tile (R326). -/
def Mach.tileState (m : Mach) (c pos : Nat) : Nat := m.objN 0x6181 1 (tileBank c pos)

/-- Whether a chain has a tile present, in any of the states 1 to 7 (R298). -/
def Mach.chainPresent (m : Mach) (c : Nat) : Bool := (upTo 10).any (fun i => m.tileState c i != 0)

/-- A chain. -/
def Mach.chain (m : Mach) (c : Nat) : Chain := m.tiles.chains.getD c {}

/-- Changes a chain. -/
def Mach.onChain (m : Mach) (c : Nat) (f : Chain → Chain) : Mach :=
  { m with tiles := { m.tiles with chains := modAt m.tiles.chains c f } }

/-- A tile position. -/
def Mach.tile (m : Mach) (c pos : Nat) : Tile := (m.chain c).tiles.getD pos {}

/-- Changes a tile position. -/
def Mach.onTile (m : Mach) (c pos : Nat) (f : Tile → Tile) : Mach :=
  m.onChain c (fun ch => { ch with tiles := modAt ch.tiles pos f })

/-- The state of a chain (0x6110+c:01). -/
def Mach.chainState (m : Mach) (c : Nat) : Nat := m.objN (0x6110 + c) 1

/-- Whether a tile is in the tile map (R325): its position has an entry and it is ACTIVE or UNREACHABLE. -/
def Mach.inMap (m : Mach) (c pos : Nat) : Bool :=
  (m.tile c pos).entry != 0xFFFF && (m.tileState c pos = 4 || m.tileState c pos = 5)

/-- The tiles in the tile map, chain-major. -/
def Mach.mapTiles (m : Mach) : List (Nat × Nat) :=
  (upTo 96).flatMap (fun c => ((upTo 10).filter (fun i => m.inMap c i)).map (fun i => (c, i)))

/-- Whether any tile of a chain is in the tile map. -/
def Mach.chainMapped (m : Mach) (c : Nat) : Bool := (upTo 10).any (fun i => m.inMap c i)

/-! ### Deep state (R298 to R302) -/

/-- Whether a case of R298 holds a lane in the deep state. -/
def Mach.deepHolds (m : Mach) (l : Nat) : Bool :=
  let c := l / 2
  if m.power ≥ 3 ∨ m.listening then true
  else if m.power = 2 then c != m.objN 0x6400 1
  else m.objB (0x6010 + l) 2 && !m.chainPresent c && (m.chain c).emptySince + sec 1 ≤ m.now

/-- Step 1 of R301: both halves of a lane leave the deep state, whichever of them started the exit (R301, R302). -/
def Mach.wakeLane (m : Mach) (l : Nat) : Mach :=
  let m := m.onLane l (fun x => { x with pendingWake := false })
  if m.tx l = 1 ∨ (m.tx l = 4 ∧ m.rx l = 1) then
    (((m.setTx l 3).setRx l 2).emit (.wakePattern l)).onLane l (fun x => { x with patternDone := false, pllDone := false })
  else if m.tx l = 3 ∧ m.rx l = 1 then m.setRx l 2 else m

/-- A lane in mode BLOCKS whose TX is ACTIVE begins to enter the deep state (R299); one that is still waking falls back (DESIGN CHOICE, log entry
20). -/
def Mach.enterDeep (m : Mach) (l : Nat) : Mach :=
  if m.laneMode l = 0 ∧ m.tx l = 4 then (m.setTx l 2).onLane l (fun x => { x with entryAt := m.now })
  else if m.laneMode l = 0 ∧ m.tx l = 3 then ((m.setTx l 1).setRx l 1).onLane l (fun x => { x with deepAt := m.now })
  else m

/-- The lane becomes DEEP (R299): its TX, and its RX unless it is LOCKED (DEDUCED, log entry 20). -/
def Mach.becomeDeep (m : Mach) (l : Nat) : Mach :=
  let m := m.setTx l 1
  let m := if m.rx l = 4 then m else m.setRx l 1
  m.onLane l (fun x => { x with deepAt := m.now })

/-- A wake decided or recognised for a lane (R301, R302): `left` says that a LANE_SLEEP block of an entry in progress has left. A TX that is DEEP
stays so for t_dmin (R308). -/
def Mach.wakeOrCancel (m : Mach) (l : Nat) (left : Bool) : Mach :=
  if m.laneMode l ≠ 0 then m
  else if m.tx l = 1 ∧ m.now < (m.lane l).deepAt + us 2 then m.onLane l (fun x => { x with pendingWake := true })
  else if m.tx l = 2 then
    if left then m.onLane l (fun x => { x with pendingWake := true }) else (m.setTx l 4).putKtl l .idle
  else m.wakeLane l

/-- Every lane that a case of R298 holds begins to enter the deep state, and a wake that waits is dropped; every DEEP one that none holds
leaves it. A LANE_SLEEP block of an entry has left once time has passed since the entry began (DEDUCED, log entry 20). -/
def Mach.followDeep (m : Mach) : Mach :=
  each (upTo 192) m (fun m l =>
    if m.laneMode l ≠ 0 then m
    else if m.deepHolds l then (m.enterDeep l).onLane l (fun x => { x with pendingWake := false })
    else if m.tx l = 1 ∨ m.tx l = 2 then m.wakeOrCancel l (decide ((m.lane l).entryAt < m.now)) else m)

/-- DEEP_IDLE_TIMEOUT: a chain has had no tile present for 1 s in P0 or P1 (R298). -/
def deepIdleTimeout (c : Nat) (m : Mach) : Mach :=
  if m.power ≤ 1 ∧ c < 96 then
    each [2 * c, 2 * c + 1] m (fun m l => if m.deepHolds l then m.enterDeep l else m)
  else m

/-- LANE_SLEEP_SENT: the 16 LANE_SLEEP blocks have left, and the TX goes to electrical idle (R299). -/
def laneSleepSent (l : Nat) (m : Mach) : Mach :=
  if m.tx l ≠ 2 then m
  else
    let m := each (upTo 16) (m.setTx l 4) (fun m i => m.putKtl l (.laneSleep (15 - i)))
    m.becomeDeep l

/-- The RX of a lane becomes DEEP by its partner's LANE_SLEEP (R299); in service the lane is to wake again after t_dmin (R302). -/
def Mach.rxDeep (m : Mach) (l : Nat) : Mach :=
  (m.setRx l 1).onLane l (fun x => { x with
    sleepAgo := none, window := [], deepAt := m.now
    pendingWake := x.pendingWake || (decide (m.tx l = 4) && m.chainPresent (l / 2)) })

/-- A LANE_SLEEP block at a lane's RX (R299, R302). -/
def Mach.sleepBlock (m : Mach) (l count : Nat) : Mach :=
  if m.rx l ≠ 4 then m
  else if count ≠ 0 then m.onLane l (fun x => { x with sleepAgo := some 0 })
  else m.rxDeep l

/-- DEEP_RESIDENCY_END: t_dmin has passed, and a wake that waited starts step 1 of R301 (R302). -/
def deepResidencyEnd (l : Nat) (m : Mach) : Mach :=
  let x := m.lane l
  if x.pendingWake ∧ (m.tx l = 1 ∨ m.rx l = 1) ∧ x.deepAt + us 2 ≤ m.now then m.wakeLane l else m

/-- The TX of a lane becomes ACTIVE: the scrambler starts from all ones, and the first block is IDLE (R289, R290, R301). -/
def Mach.txActive (m : Mach) (l : Nat) : Mach :=
  ((m.setTx l 4).onLane l (fun x => { x with scrambler := List.replicate 58 true, sentAt := some m.now })).putKtl l .idle

/-- WAKE_PATTERN_DONE (R301 step 2). -/
def wakePatternDone (l : Nat) (m : Mach) : Mach :=
  if m.tx l ≠ 3 then m
  else
    let m := m.onLane l (fun x => { x with patternDone := true })
    if (m.lane l).pllDone then m.txActive l else m

/-- PLL_LOCKED (R301 step 3): the TX becomes ACTIVE with the all-ones seed and sends IDLE, once the wake pattern is complete. -/
def pllLocked (l : Nat) (m : Mach) : Mach :=
  if m.tx l ≠ 3 then m
  else
    let m := m.onLane l (fun x => { x with pllDone := true })
    if (m.lane l).patternDone then m.txActive l else m

/-- An RX starts hunting (R291). -/
def Mach.hunt (m : Mach) (l : Nat) : Mach :=
  (m.setRx l 3).onLane l (fun x => { x with
    good := 0, window := [], huntAt := m.now, alarmed := false, sleepAgo := none
    begun := [], slip := false, delivered := none, erased := false, arriving := none })

/-- CDR_LOCKED (R301 step 5). -/
def cdrLocked (l : Nat) (m : Mach) : Mach := if m.rx l = 2 then m.hunt l else m

/-! ### Modes and test patterns (R305, R306) -/

/-- Moves a lane to the states of its mode, with its generator and its checker at their start (R305). -/
def Mach.applyMode (m : Mach) (l old : Nat) : Mach :=
  let m := m.onLane l (fun x => { x with checker := {}, pattern := List.replicate 31 true, pendingWake := false })
  let m := m.setB (0x6010 + l) 0x0E false
  match m.laneMode l with
  | 3 => (m.setTx l 0).setRx l 0
  | 0 =>
    if m.deepHolds l then (m.setTx l 1).setRx l 1
    else if old = 3 then ((m.setTx l 1).setRx l 1).wakeLane l
    else (m.txActive l).hunt l
  | _ => (m.setTx l 5).setRx l 5

/-- LANE_MODE_WRITE (R305): a test mode is refused on a lane whose chain has a tile in the tile map. -/
def Mach.writeMode (m : Mach) (l v : Nat) : Except Nat Mach :=
  if (v = 1 ∨ v = 2) ∧ m.chainMapped (l / 2) then .error abPrecondition
  else
    let old := m.laneMode l
    if old = v then .ok m else .ok ((m.setN (0x6010 + l) 1 v).applyMode l old)

/-- The bit a checker predicts from its state, newest first (R305). -/
def prbsNext (mode : Nat) (st : List Bool) : Bool :=
  if mode = 1 then st.getD 30 false != st.getD 27 false
  else ((st.getD 12 false != st.getD 11 false) != st.getD 1 false) != st.getD 0 false

/-- One bit at the checker (R306): it loads its first bits as its state and predicts each later bit from it. The answer is the checker,
whether the bit was compared while in sync, whether it differed, and whether the checker is in sync after it. A state that mispredicts
64 bits of 1,024 is loaded anew, in sync or not (DEDUCED, log entry 21). -/
def Checker.take (k : Checker) (mode : Nat) (inSync : Bool) (b : Bool) : Checker × Bool × Bool × Bool :=
  let n := if mode = 1 then 31 else 13
  if k.hist.length < n then ({ k with hist := b :: k.hist, run := 0, errors := [] }, false, false, false)
  else
    let next := prbsNext mode k.hist
    let wrong := b != next
    let errors : List Nat := (if wrong then [0] else []) ++ ((k.errors.map (· + 1)).filter (· < 1024))
    let run := if wrong then 0 else k.run + 1
    if errors.length ≥ 64 then ({}, inSync, wrong, false)
    else ({ hist := (next :: k.hist).take n, run := run, errors := errors }, inSync, wrong, inSync || 1024 ≤ run)

/-- The next `n` bits of a lane's generator and its state after them, newest first: the sequence of the mode's polynomial (R305). -/
def prbsBits (mode : Nat) : Nat → List Bool → List Bool × List Bool
  | 0, st => ([], st)
  | n + 1, st =>
    let b := prbsNext mode st
    let (bits, last) := prbsBits mode n (b :: st.take 30)
    (b :: bits, last)

/-- One bit at the input of the checker of a lane in a test mode: inverted by an injection of kind 1 or 2, and taken (R306, R307). -/
def Mach.checkBit (m : Mach) (l : Nat) (b : Bool) : Mach :=
  let x := m.lane l
  let (k, compared, wrong, sync) := x.checker.take (m.laneMode l) (m.objB (0x6010 + l) 0x0E) (b != x.flip)
  let m := m.onLane l (fun x => ({ x with checker := k, flip := false } : Lane).disarmed)
  let m := if x.flip then m.bump (0x6010 + l) 0x15 else m
  let m := if compared then m.bump (0x6010 + l) 0x0F else m
  let m := if compared ∧ wrong then m.bump (0x6010 + l) 0x10 else m
  m.setB (0x6010 + l) 0x0E sync

/-- CHECKER_SYNC: symbols arrive at the checker of a lane in a test mode (R287, R306, R307). Meanwhile its TX sends as many symbols of the
pattern, since both run at 32 GBd (R285, R305). -/
def checkerBits (l : Nat) (symbols : List Level) (m : Mach) : Mach :=
  if m.rx l ≠ 5 ∨ (m.laneMode l ≠ 1 ∧ m.laneMode l ≠ 2) then m
  else
    let (sent, state) := prbsBits (m.laneMode l) (2 * symbols.length) (m.lane l).pattern
    let m := (m.onLane l (fun x => { x with pattern := state })).emit (.pattern l (levels sent))
    each (symbols.flatMap Level.bits) m (fun m b => m.checkBit l b)

/-- PRBS_COUNTER_CLEAR (R306). -/
def Mach.clearPrbs (m : Mach) (l : Nat) : Mach := (m.setN (0x6010 + l) 0x0F 0).setN (0x6010 + l) 0x10 0

/-! ### Injection (R307) -/

/-- Whether the injection window of R524 lets an injection start: outside PROVISIONED and FIELD it is not asked. -/
def Mach.injectionAllowed (m : Mach) (c : Ctx) : Bool :=
  (c.life != .provisioned && c.life != .field) || m.objB 0x7F00 2

/-- What an injection of a kind makes of a lane (R307). It is counted in 0x6010+l:15 when it acts. -/
def Lane.inject (x : Lane) (kind : Nat) : Lane :=
  match kind with
  | 3 => { x with badHeaders := 1 }
  | 4 => { x with badHeaders := 16 }
  | 5 => { x with badTx := true }
  | _ => { x with flip := true }

/-- LANE_INJECTION_START (R307), with its event unless the RX of the lane is DEEP (R303). The next block that an ACTIVE TX sends is an IDLE, which
kind 5 takes (log entry 88). -/
def Mach.startInjection (m : Mach) (c : Ctx) (l : Nat) : Except Nat Mach :=
  if !m.injectionAllowed c then .error abWindowShut
  else
    let kind := m.objN (0x6010 + l) 0x12
    let m := m.onLane l (fun x => ({ x with armed := kind, injectAt := m.now, flip := false, badHeaders := 0, badTx := false } : Lane).inject kind)
    let m := if kind = 5 then m.putKtl l .idle else m
    .ok (if m.rx l = 1 then m else m.raise 0x8006 l [(1, l), (1, kind), (4, m.objN (0x6010 + l) 0x13)])

/-- LANE_INJECTION_STOP (R307, R309): with nothing armed it aborts. -/
def Mach.stopInjection (m : Mach) (l : Nat) : Except Nat Mach :=
  if (m.lane l).armed = 0 then .error abNothing
  else .ok (m.onLane l (fun x => { x with armed := 0, flip := false, badHeaders := 0, badTx := false }))

/-- The instant in units of 2⁻¹⁶ ns of `n` bits on a lane: 31.25 ps to a symbol of two bits (R308). -/
def bitsTime (n : Nat) : Nat := n * 1024

/-- LANE_INJECTION_PERIOD: kind 2 injects again each period (R307), as long as it may (R524). -/
def laneInjectionPeriod (l : Nat) (c : Ctx) (m : Mach) : Mach :=
  let x := m.lane l
  if m.injectionAllowed c ∧ x.armed = 2 ∧ x.injectAt + bitsTime (m.objN (0x6010 + l) 0x13) ≤ m.now then
    m.onLane l (fun x => ({ x with injectAt := m.now } : Lane).inject 2)
  else m

/-- When the injection window closes, periodic injection stops (R307). -/
def Mach.stopPeriodicLanes (m : Mach) : Mach :=
  { m with lanes := m.lanes.map (fun x => if x.armed = 2 then { x with armed := 0, flip := false } else x) }

end Sys2Proof.Machine
end

