-- ==== Sys2Proof/Machine/Tile.lean ====
section
/-! DEFINITION. Chains and tiles: delay and slot edges (R320 to R322), enumeration and the tile map (R324 to R327), breaks and heals
(R330 to R333), fault storms (R334 to R336), segments and commits on their way (R316 to R319). -/

namespace Sys2Proof.Machine

/-! ### Reach -/

/-- Chain length L (0x6110+c:02). -/
def Mach.chainLength (m : Mach) (c : Nat) : Nat := m.objN (0x6110 + c) 2

/-- Whether a tile is fed from port D, by the B-lane (0x6181:05). -/
def Mach.fedFromB (m : Mach) (c pos : Nat) : Bool := m.objB 0x6181 5 (tileBank c pos)

/-- The lane that feeds a tile (R313). -/
def Mach.feedLane (m : Mach) (c pos : Nat) : Nat := if m.fedFromB c pos then 2 * c + 1 else 2 * c

/-- Sends a control block to a tile on its feeding lane. -/
def Mach.toTile (m : Mach) (c pos : Nat) (k : Ktl) : Mach := m.sendKtl (m.feedLane c pos) k

/-- Sends a control block to every tile, on every A-lane and, where a chain has B-fed tiles, on its B-lane (R78, R80). -/
def Mach.toAll (m : Mach) (k : Ktl) : Mach :=
  each (upTo 96) m (fun m c =>
    let m := m.sendKtl (2 * c) k
    if (upTo 10).any (fun i => m.fedFromB c i) then m.sendKtl (2 * c + 1) k else m)

/-! ### Tile states (R326, R327) -/

/-- Zeroes what a tile has reported (R339). -/
def Mach.forgetReports (m : Mach) (c pos : Nat) : Mach :=
  m.sets 0x6181 [(2, 0), (3, 0), (4, 0), (7, 0), (8, 0), (0x0A, 0), (0x0B, 0)] (tileBank c pos)

/-- Moves a tile to a state; ABSENT forgets it. -/
def Mach.setTile (m : Mach) (c pos st : Nat) : Mach :=
  let m := m.setN 0x6181 1 st (tileBank c pos)
  if st = 0 then
    let m := (m.forgetReports c pos).sets 0x6181 [(5, 0), (6, 0)] (tileBank c pos)
    let m := if (m.tile c pos).entry = 0xFFFF then m else m.setN 0x6211 6 3 (panelOf (m.tile c pos).entry)
    let m := m.onTile c pos (fun t => { entry := t.entry })
    if m.chainPresent c then m else m.onChain c (fun ch => { ch with emptySince := m.now })
  else m

/-- Event 0x8014: a tile left the tile map (R340). -/
def Mach.leftMap (m : Mach) (c pos reason : Nat) : Mach :=
  (m.cancelPour c pos).raise 0x8014 c [(1, c), (1, pos), (1, reason)]

/-- A tile drops out of a chain without a removal: to UNREACHABLE when ACTIVE, to ABSENT when not yet in the map or PARKED (R327). -/
def Mach.loseTile (m : Mach) (c pos : Nat) : Mach :=
  let st := m.tileState c pos
  if st = 4 then (m.setTile c pos 5).onTile c pos (fun t => { t with lostAt := m.now })
  else if st = 1 ∨ st = 2 ∨ st = 3 ∨ st = 6 then m.setTile c pos 0
  else m

/-- Whether a chain's state has a tile in none of its lanes' reach. -/
def Mach.unreachable (m : Mach) (c : Nat) : List Nat := (upTo 10).filter (fun i => m.tileState c i = 5)

/-! ### Delay (R320 to R322) -/

/-- How long a block takes on a lane: 65 symbols of 31.25 ps (R288), in 2⁻¹⁶ ns. -/
def blockTime : Nat := 133120

/-- Sends the 16 delay probes of a measurement, one block behind another. -/
def Mach.probe (m : Mach) (c pos : Nat) : Mach :=
  let m := m.onTile c pos (fun t => { t with probes := [], probedAt := m.now })
  each (upTo 16) m (fun m i => m.toTile c pos (.delayProbe pos i))

/-- A time in units of 2⁻¹⁶ ns as Q18.6 symbols, to the nearest (R314, R321): a symbol is 31.25 ps. -/
def symbolsOf (t : Nat) : Nat := (t + 16) / 32

/-- A time in units of 2⁻¹⁶ ns in ps. -/
def psOf (t : Nat) : Nat := t * 1000 / 65536

/-- Puts a delay compensation C in force and writes it to the tile's register 0x01 on a lane (R321). -/
def Mach.writeC (m : Mach) (l c pos d : Nat) : Mach :=
  let m := m.onTile c pos (fun t => { t with delay := d })
  (m.setN 0x6181 6 (psOf d) (tileBank c pos)).sendKtl l (.configWrite pos 1 (symbolsOf d))

/-- A tile becomes FAULTY; one in the tile map leaves it (R320, R327). -/
def Mach.faultyTile (m : Mach) (c pos : Nat) : Mach :=
  let m := if m.inMap c pos then m.cancelPour c pos else m
  m.setTile c pos 7

/-- A tile with a position conflict becomes FAULTY, unless it is ACTIVE: enumeration never stops its pours (R324). -/
def Mach.conflictTile (m : Mach) (c pos : Nat) : Mach := if m.tileState c pos = 4 then m else m.faultyTile c pos

/-- DELAY_REPLY: a round trip of the tile's delay probes, the module's own lane latencies removed (R320, R321). -/
def delayReply (c pos id roundTrip : Nat) (m : Mach) : Mach :=
  let st := m.tileState c pos
  if st = 0 ∨ st = 5 ∨ st = 7 ∨ id ≥ 16 then m
  else
    let m := m.onTile c pos (fun t => { t with probes := roundTrip :: t.probes })
    let ps := (m.tile c pos).probes
    if ps.length < 16 then m
    else
      let d := (ps.sum / 16 - ns 40) / 2
      let m := m.onTile c pos (fun t => { t with probes := [] })
      if d > ns 3000 then
        (m.faultyTile c pos).raise 0x8018 c [(1, c), (1, pos), (4, psOf d)]
      else
        let m := if m.fedFromB c pos then m else m.onTile c pos (fun t => { t with cA := some d })
        m.writeC (m.feedLane c pos) c pos d

/-- Probes every tile of a chain that a lane reaches (R322). -/
def Mach.probeChain (m : Mach) (c : Nat) : Mach :=
  let m := m.onChain c (fun ch => { ch with probeAt := m.now, ringAtProbe := ch.ring })
  each (upTo 10) m (fun m i => let st := m.tileState c i; if st = 0 ∨ st = 5 ∨ st = 7 then m else m.probe c i)

/-- RE_PROBE_TIMER: every 10 s in a whole chain, every 1 s in another (R322). -/
def reProbeTimer (c : Nat) (m : Mach) : Mach :=
  let every := if m.chainState c = 2 then sec 10 else sec 1
  if c < 96 ∧ (m.chain c).probeAt + every ≤ m.now ∧ m.coreUp 2 then m.probeChain c else m

/-- The instant of a slot tick to come and the slot count of its frame: of the schedule that runs, and of the frame tick at which heats are to
start (R75, R78). -/
def Mach.slotDue (m : Mach) (h slot : Nat) : Option (Nat × Nat) :=
  match m.startTick with
  | some (f, t) => if h = f ∧ slot = 0 then some (t, m.slotsFor) else none
  | none => if m.scheduled ∧ slot < m.slotsOf h then some (m.slotAt h slot, m.slotsOf h) else none

/-- TICK_SEND: a TICK leaves the feeding lanes of a chain at the lead before its slot tick (R321). -/
def tickSend (c h slot : Nat) (m : Mach) : Mach :=
  match m.slotDue h slot with
  | none => m
  | some (t, slots) =>
    if c ≥ 96 ∨ m.timeWord + ns 4000 < t ∨ t ≤ m.timeWord then m
    else
      let ring := ((m.chain c).ringSeq + 1) % 65536
      let m := m.onChain c (fun ch => { ch with ringSeq := ring, tickSent := some (ring, m.timeWord) })
      let k := Ktl.tick (slot = 0) slot slots h ((t - m.timeWord) / 32) ring
      let m := m.sendKtl (2 * c) k
      if (upTo 10).any (fun i => m.fedFromB c i) then m.sendKtl (2 * c + 1) k else m

/-- The A-lane stream arrives at the B-lane RX: the ring delay, and with it that the ring passes every position (R322, R333). -/
def Mach.ringTick (m : Mach) (c seq : Nat) : Mach :=
  match (m.chain c).tickSent with
  | none => m
  | some (n, t) =>
    if n ≠ seq then m
    else
      let d := m.timeWord - t
      let m := m.onChain c (fun ch => { ch with
        ring := d
        tickSent := none
        wholeSince := if ch.wholeSince.isNone then some m.now else ch.wholeSince })
      if m.chainState c = 2 then
        let m := m.setN (0x6110 + c) 5 (psOf d)
        let was := (m.chain c).ringAtProbe
        if d > was + ns 1 ∨ was > d + ns 1 then m.probeChain c else m
      else m

/-! ### Reports and storms (R334, R335) -/

/-- A window that opens joins the newest group when it opens within 2 ms of that group's first window, and begins a group otherwise (R335). -/
def joinStorm (l : List Storm) (now c : Nat) : List Storm :=
  match l.getLast? with
  | some g => if now ≤ g.since + ms 2 then l.dropLast ++ [{ g with chains := addNew g.chains c, waiting := addNew g.waiting c }]
    else l ++ [⟨now, [c], [c], 0⟩]
  | none => [⟨now, [c], [c], 0⟩]

/-- Holds something for core 2 while it restarts (R29, R542; log entry 89). -/
def Mach.later (m : Mach) (x : TileNews) : Mach := { m with tiles := { m.tiles with later := m.tiles.later ++ [x] } }

/-- A report that concerns the links of a chain: it opens the chain's coalescing window, or is folded into it (R334). Before the chain's first
root event, its state at its first report stands for that event's (DESIGN CHOICE, log entry 88). -/
def Mach.report (m : Mach) (c : Nat) : Mach :=
  if !m.coreUp 2 then m.later (.report c) else
  match (m.chain c).window with
  | some w => m.onChain c (fun ch => { ch with window := some { w with reports := w.reports + 1 } })
  | none =>
    let m := m.onChain c (fun ch => { ch with
      window := some ⟨m.now, 1, []⟩, rootState := some (ch.rootState.getD (m.chainState c)) })
    { m with tiles := { m.tiles with storms := joinStorm m.tiles.storms m.now c } }

/-- The bytes of a chain bitmap: bit c for chain c (R340). -/
def chainBitmap (cs : List Nat) : Nat := cs.foldl (fun a c => a ||| 2 ^ c) 0

/-- The root event of a chain's resulting state (R334, R340). -/
def Mach.rootEvent (m : Mach) (c reports : Nat) : Mach :=
  let flags := m.timeFlags + 4
  let un := m.unreachable c
  match m.chainState c with
  | 3 => m.record 0x8010 flags (min reports 65535) c [(1, c), (1, m.objN (0x6110 + c) 4), (1, (m.chain c).kind)]
  | 2 => m.record 0x8016 flags (min reports 65535) c [(1, c)]
  | 1 => m
  | _ => m.record 0x8012 flags (min reports 65535) c [(1, c), (1, un.head?.getD 0), (1, un.getLast?.getD 0)]

/-- A window of a chain with `n` reports closes in its group (R335): the groups left, and where the group is a storm whether this was its last
window, with its chains and the reports folded. -/
def leaveStorm (l : List Storm) (c n : Nat) : List Storm × Option (Bool × List Nat × Nat) :=
  match l.find? (fun g => g.waiting.contains c) with
  | none => (l, none)
  | some g =>
    let g' := { g with waiting := g.waiting.filter (· != c), folded := g.folded + n }
    let rest := l.map (fun x => if x = g then g' else x)
    (rest.filter (fun x => x.waiting != []), if g.chains.length < 8 then none else some (g'.waiting = [], g.chains, g'.folded))

/-- COALESCING_WINDOW_CLOSE (R334, R335): the root event of the chain, or with the last window of a storm the one event for all of them. While a
chain is ENUMERATING there is no root event for its state. -/
def coalescingWindowClose (c : Nat) (m : Mach) : Mach :=
  match (m.chain c).window with
  | none => m
  | some w =>
    if m.now < w.openedAt + ms 2 ∨ !m.coreUp 2 then m
    else
      let st := m.chainState c
      let changed : Bool := st != 1 && (m.chain c).rootState != some st
      let m := m.onChain c (fun ch => { ch with window := none, rootState := if changed then some st else ch.rootState })
      let (groups, storm) := leaveStorm m.tiles.storms c w.reports
      let m : Mach := { m with tiles := { m.tiles with storms := groups } }
      let m := if changed then m else m.bump (0x6110 + c) 8 w.reports
      let m := if changed then m else match w.timeouts with
        | [] => m
        | (h, pos) :: more => m.record 0x8015 (m.timeFlags + 4) more.length c [(8, h), (1, c), (1, pos)]
      match storm with
      | none => if changed then m.rootEvent c w.reports else m
      | some (last, cs, n) => if last then m.record 0x8011 (m.timeFlags + 4) (min n 65535) 0 [(12, chainBitmap cs)] else m

/-! ### Enumeration (R324, R330) -/

/-- A calibration run in CHECKING, PASS_1 or PASS_2 on an instance of an item (R490). -/
def Mach.calibrating (m : Mach) (item inst : Nat) : Bool :=
  m.calib.run.item = item && m.calib.run.inst = inst && 1 ≤ m.objN 0x7800 6 && m.objN 0x7800 6 ≤ 3

/-- A calibration run is under way on a lane of a chain (R494). -/
def Mach.chainCalibrating (m : Mach) (c : Nat) : Bool :=
  (upTo 2).any (fun l => m.calibrating 0 (2 * c + l) || m.calibrating 1 (2 * c + l))

/-- Starts an enumeration of a chain (R324), unless one of its lanes is under calibration (R494). -/
def Mach.enumerateChain (m : Mach) (c : Nat) : Mach :=
  if !m.coreUp 2 then m.later (.enumerate c)
  else if m.chainCalibrating c then m else
  let m := m.onChain c (fun ch => { ch with enumSeq := (ch.enumSeq + 1) % 65536, fromA := [], fromB := [] })
  let seq := (m.chain c).enumSeq
  let whole := m.chainState c = 2
  let m := if m.chainState c = 0 then m.setN (0x6110 + c) 1 1 else m
  let m := m.sendKtl (2 * c) (.enumerate 0 0 seq)
  if whole then m else m.sendKtl (2 * c + 1) (.enumerate 0 1 seq)

/-- Both lanes of a chain receive (R332). -/
def Mach.lanesLocked (m : Mach) (c : Nat) : Bool × Bool := (m.rx (2 * c) = 4, m.rx (2 * c + 1) = 4)

/-- The place of a pour in the pour list (R166): its tile's rank on the feeding lane, its chain, A-fed before B-fed. -/
def Mach.pourRank (m : Mach) (c pos : Nat) : Nat :=
  let b := m.fedFromB c pos
  ((if b then m.chainLength c - 1 - pos else pos) * 96 + c) * 2 + bit b

/-- The waiting pours of positions from `k` on move to the B-side ranks of the pour list (R166, R331), version 2 before version 1. -/
def Mach.reRank (m : Mach) (c k : Nat) : Mach :=
  let moved (e : Nat × Nat) : Bool := m.heat.pours.any (fun p => p.panel = e.1 && p.c = c && k ≤ p.pos)
  let rank (e : Nat × Nat) : Nat := match m.pour? e.1 with
    | some p => m.pourRank p.c p.pos
    | none => 0
  let stay (e x : Nat × Nat) : Bool := e.2 < x.2 || (e.2 = x.2 && rank x ≤ rank e)
  let put (l : List (Nat × Nat)) (e : Nat × Nat) := l.takeWhile (stay e) ++ e :: l.dropWhile (stay e)
  let order (l : List (Nat × Nat)) := (sortBy (fun a b => rank a ≤ rank b) (l.filter moved)).foldl put (l.filter (fun e => !moved e))
  m.onHeat (fun h => { h with list := order h.list })

/-- Segments that move from a lane to another (R331, R333); those that wait for an acknowledgement are sent again, or go on waiting. -/
def Mach.moveSegs (m : Mach) (l l' : Nat) (again : Bool) (moves : Seg → Bool) : Mach :=
  let x := m.lane l
  let waiting := x.unacked.filter (fun s => moves s.1)
  let m := m.onLane l (fun x => { x with
    staged := x.staged.filter (fun s => !moves s)
    naked := x.naked.filter (fun s => !moves s)
    unacked := x.unacked.filter (fun s => !moves s.1) })
  m.onLane l' (fun y => { y with
    staged := y.staged ++ x.staged.filter moves
    naked := y.naked ++ (if again then waiting.map Prod.fst else []) ++ x.naked.filter moves
    unacked := y.unacked ++ (if again then [] else waiting) })

/-- A tile's A-side C (R333): as measured on the A-lane, or for a tile measured on the B-lane alone what the ring delay leaves of it (R331). -/
def Tile.aSide (t : Tile) (ring : Nat) : Nat := t.cA.getD (ring - t.delay - ns 24)

/-- Positions that B feeds though the A-lane alone reaches them go back to the A-lane at once, with their segments (DEDUCED from R332, log
entry 102). -/
def Mach.feedFromA (m : Mach) (c : Nat) : List Nat → Mach
  | [] => m
  | f :: more =>
    let ring := (m.chain c).ring
    let m := m.sendKtl (2 * c) (.route f ((f :: more).getLastD f) 0 true 0)
    let m := each (f :: more) m (fun m i => (m.setN 0x6181 5 0 (tileBank c i)).writeC (2 * c) c i ((m.tile c i).aSide ring))
    m.moveSegs (2 * c + 1) (2 * c) true (fun s => (f :: more).contains s.pos)

/-- The return-path C of a tile that a heal serves from B (R331): for one that B feeds already, what was last measured there. -/
def Mach.bSide (m : Mach) (c i : Nat) : Nat :=
  let t := m.tile c i
  if m.fedFromB c i then t.delay else (m.chain c).ring - t.delay - ns 24

/-- A heal of a chain (R331, R332): positions below `a` answer on the A-lane, positions from `k` on on the B-lane. A tile whose delay is still
being measured gets its C with that measurement. -/
def Mach.healChain (m : Mach) (c a k : Nat) : Mach :=
  let len := m.chainLength c
  let b := 2 * c + 1
  let lost := (upTo 10).filter (fun i => a ≤ i ∧ i < k)
  let had := lost.filter (fun i => m.tileState c i ≠ 0)
  let m := each lost m (fun m i => m.loseTile c i)
  let back := (upTo a).filter (fun i => m.fedFromB c i && m.tileState c i != 0)
  let m := m.feedFromA c back
  let m := if k < len then m.sendKtl b (.route k (len - 1) 1 true 0) else m
  let m := each ((upTo 10).filter (fun i => k ≤ i ∧ i < len)) m (fun m i =>
    if m.tileState c i = 0 then m
    else
      let d := m.bSide c i
      let m := m.setN 0x6181 5 1 (tileBank c i)
      if m.tileState c i = 1 then m else m.writeC b c i d)
  let m := (m.moveSegs (2 * c) b true (fun s => k ≤ s.pos)).reRank c (min k (back.headD k))
  let kind := if a = 0 ∧ k = 0 then 2 else if len ≤ k ∧ len ≤ a then 3 else if had ≠ [] then 1 else 0
  let down := a = 0 ∧ len ≤ k
  let state := if down then 0 else if m.unreachable c = [] then 3 else 4
  let m := m.setN (0x6110 + c) 1 state
  let m := m.setN (0x6110 + c) 4 (if k < len then k else 0xFF)
  let m := (m.setN (0x6110 + c) 5 0).bump (0x6110 + c) 6 (if down then 0 else 1)
  m.onChain c (fun ch => { ch with
    brk := none, aReach := some a, bReach := some k
    kind := kind, wholeSince := none, unhealReady := false, unhealAt := none, probeAt := m.now })

/-- The chain's state from the positions that answered (R313, R332): a tile that none of its lanes reaches is lost, and one UNREACHABLE makes the
chain SPLIT. Positions that the B-lane serves are healed (R331), unless they are healed so already. A HEALED chain becomes WHOLE only by an
un-heal (R333). -/
def Mach.judgeChain (m : Mach) (c : Nat) : Mach :=
  let ch := m.chain c
  let len := m.chainLength c
  let a := ch.fromA.foldl (fun n i => max n (i + 1)) 0
  let k := ch.fromB.foldl min len
  let m := each ((upTo len).filter (fun i => !(ch.fromA.contains i || ch.fromB.contains i))) m (fun m i => m.loseTile c i)
  let old := m.chainState c
  let healed := old = 3 ∨ old = 4
  if ch.fromB ≠ [] ∧ !(healed ∧ ch.aReach = some a ∧ ch.bReach = some (max a k)) then m.healChain c a (max a k)
  else
    let new := if ch.fromA = [] ∧ ch.fromB = [] then 0
      else if m.unreachable c ≠ [] then 4
      else if ch.fromB = [] ∧ (m.lanesLocked c).2 ∧ old ≠ 3 then 2 else 3
    let m := m.setN (0x6110 + c) 1 new
    let m := m.setN (0x6110 + c) 4 (if k < len then k else 0xFF)
    let m := if new = 2 then m else m.setN (0x6110 + c) 5 0
    m.onChain c (fun ch => { ch with
      wholeSince := if new = 2 ∧ old ≠ 2 then some m.now else ch.wholeSince
      aReach := if new = 2 then none else some a
      bReach := if new = 2 then none else some (max a k) })

/-- The smaller of two bounds, either of which may be unknown. -/
def leastKnown (x y : Option Nat) : Option Nat :=
  match x, y with
  | some x, some y => some (min x y)
  | some x, none => some x
  | none, y => y

/-- The larger of two bounds, either of which may be unknown. -/
def mostKnown (x y : Option Nat) : Option Nat :=
  match x, y with
  | some x, some y => some (max x y)
  | some x, none => some x
  | none, y => y

/-- Heals once the positions that the B-lane reaches are known (R331); below them the A-lane reaches what no report denies. -/
def Mach.tryHeal (m : Mach) (c : Nat) : Mach :=
  let ch := m.chain c
  match ch.brk with
  | none => m
  | some b => match b.bFirst with
    | none => m
    | some k =>
      let k := max k (ch.bReach.getD 0)
      let a := min ((leastKnown b.aCount ch.aReach).getD k) (m.chainLength c)
      m.healChain c a (max a k)

/-- What a chain keeps when its ring breaks: it is not whole any more, and of a ring that was whole again nothing known of an earlier break
holds (R330, R333). -/
def Chain.ringBroken (ch : Chain) : Chain :=
  let known (n : Option Nat) := if ch.wholeSince.isSome then none else n
  { ch with
    aReach := known ch.aReach, bReach := known ch.bReach
    wholeSince := none, tickSent := none, unhealReady := false, unhealAt := none }

/-- Notes one side of a break, or both (R330): only positions below `a` answer on the A-lane, only those from `k` on on the B-lane. What is known
already opens no break, unless the ring has been whole since. -/
def Mach.noteBreak (m : Mach) (c : Nat) (a k : Option Nat) : Mach :=
  if !m.coreUp 2 then m.later (.broken c a k) else
  let ch := (m.chain c).ringBroken
  let news : Bool := a.any (fun x => ch.aReach.all (fun y => x < y)) || k.any (fun x => ch.bReach.all (fun y => y < x))
  if !news then m
  else
    let old := ch.brk.getD ⟨none, none, m.now, false, none⟩
    let new : Break := { old with aCount := leastKnown old.aCount a, bFirst := mostKnown old.bFirst k, silent := none }
    (m.onChain c (fun ch => { ch.ringBroken with brk := some new })).tryHeal c

/-- The positions that answered ENUM on the B-lane settle where the B-lane's reach begins, whatever an earlier break left of it (R330). -/
def Mach.reachesB (m : Mach) (c k : Nat) : Mach :=
  (m.onChain c (fun ch => { ch.ringBroken with
    bReach := none, brk := ch.brk.map (fun b => { b with bFirst := some k }) })).tryHeal c

/-- An acknowledgement of a tile is missing (R330): the A-lane may reach only the positions before it. Alone, it is a break until the tile, or one
behind it on the lane, answers again (DESIGN CHOICE, log entry 102). -/
def Mach.noAnswer (m : Mach) (c pos : Nat) : Mach :=
  if !m.coreUp 2 then m.later (.silent c pos) else
  let a := if m.fedFromB c pos then none else some pos
  match (m.chain c).brk with
  | none => m.onChain c (fun ch => { ch with brk := some ⟨a, none, m.now, false, some pos⟩ })
  | some b => match b.silent with
    | some _ => m.onChain c (fun ch => { ch with brk := some { b with aCount := leastKnown b.aCount a } })
    | none => if a.isNone then m else m.noteBreak c a none

/-- A tile answers on its feeding lane: a break that only its missing acknowledgements, or those of a tile before it, told of is none (R330). -/
def Mach.answers (m : Mach) (c pos : Nat) : Mach :=
  match (m.chain c).brk with
  | none => m
  | some b => match b.silent with
    | none => m
    | some i =>
      if m.fedFromB c i = m.fedFromB c pos ∧ (if m.fedFromB c pos then pos ≤ i else i ≤ pos) then
        m.onChain c (fun ch => { ch with brk := none, enumSeq := if b.asked then (ch.enumSeq + 1) % 65536 else ch.enumSeq })
      else m

/-- B_SIDE_SILENT: no report from the B side 200 µs after the first, and ENUM is sent on the B-lane (R330), unless a lane of the chain is under
calibration (R494). The positions that have answered it by the limit of t_hd2 are those the B-lane reaches (DEDUCED, log entry 88). -/
def bSideSilent (c : Nat) (m : Mach) : Mach :=
  match (m.chain c).brk with
  | none => m
  | some b =>
    if b.bFirst.isSome ∨ m.now < b.since + us 200 ∨ !m.coreUp 2 then m
    else if !(m.lanesLocked c).2 then m.reachesB c (m.chainLength c)
    else if b.asked then
      (if b.since + us 250 ≤ m.now then m.reachesB c ((m.chain c).fromB.foldl min (m.chainLength c)) else m)
    else if m.chainCalibrating c then m
    else
      let m := m.onChain c (fun ch => { ch with
        brk := some { b with asked := true }, fromA := [], fromB := [], enumSeq := (ch.enumSeq + 1) % 65536 })
      m.sendKtl (2 * c + 1) (.enumerate 0 1 (m.chain c).enumSeq)

/-- Takes what an ENUM_REPLY says of a tile (R339). The feeding port of a tile known already changes to D by the heal's ROUTE alone, and while a
break is open not at all (R331). -/
def Mach.noteTile (m : Mach) (r : EnumReply) (pos : Nat) : Mach :=
  let k := tileBank r.c pos
  let m := m.sets 0x6181 [(2, r.serial), (3, r.hwRev), (4, r.firmware)] k
  let m := if m.tileState r.c pos ≠ 1 ∧ (r.fromB ∨ (m.chain r.c).brk.isSome) then m else m.setB 0x6181 5 r.fromB k
  m.onTile r.c pos (fun t => { t with gainInFlash := r.gainInFlash, checkInFlash := r.checkpointInFlash })

/-- A tile enters service at a position (R327): ENUMERATED, with its delay probed. -/
def Mach.newTile (m : Mach) (r : EnumReply) (pos : Nat) (tell : Bool) : Mach :=
  let m := (m.setTile r.c pos 1).noteTile r pos
  let m := if tell then m.raise 0x8013 r.c [(1, r.c), (1, pos), (8, r.serial)] else m
  m.probe r.c pos

/-- An ENUM_REPLY whose position is free of conflict (R327). -/
def Mach.placeTile (m : Mach) (r : EnumReply) (pos : Nat) : Mach :=
  let st := m.tileState r.c pos
  let same := m.objN 0x6181 2 (tileBank r.c pos) = r.serial
  if st = 0 then m.newTile r pos true
  else if !same then
    let m := if m.inMap r.c pos then m.leftMap r.c pos 3 else m.raise 0x8014 r.c [(1, r.c), (1, pos), (1, 3)]
    (m.setTile r.c pos 0).newTile r pos true
  else if st = 7 then m.newTile r pos false
  else
    let was := m.fedFromB r.c pos
    let m := m.noteTile r pos
    let m := if m.fedFromB r.c pos = was then m else m.probe r.c pos
    if st = 5 ∧ m.now ≤ (m.tile r.c pos).lostAt + ms (m.objN 0x6100 4) then
      (m.setTile r.c pos 4).onTile r.c pos (fun t => { t with misses := 0, heard := true })
    else m

/-- ENUM_REPLY (R324, R327, R330). -/
def enumReply (r : EnumReply) (m : Mach) : Mach :=
  if r.c ≥ 96 then m
  else
    let len := m.chainLength r.c
    let pos : Int := if r.fromB then (len : Int) - 1 - r.hop else r.hop
    let m := if pos < 0 ∨ (len : Int) ≤ pos then
        let p := pos.toNat
        let m := if 0 ≤ pos ∧ pos < 10 ∧ m.tileState r.c p ≠ 4 then (m.faultyTile r.c p).noteTile r p else m
        m.raise 0x8017 r.c [(1, r.c), (1, toUnsigned 8 pos)]
      else
        let p := pos.toNat
        let ch := m.chain r.c
        let again := p ∈ ch.fromA ∨ p ∈ ch.fromB
        if again ∧ m.objN 0x6181 2 (tileBank r.c p) ≠ r.serial then
          (m.conflictTile r.c p).raise 0x8017 r.c [(1, r.c), (1, p)]
        else
          let m := m.onChain r.c (fun ch =>
            if r.fromB then { ch with fromB := addNew ch.fromB p } else { ch with fromA := addNew ch.fromA p })
          m.placeTile r p
    if !r.last then m
    else match (m.chain r.c).brk with
      | some b => if b.asked ∧ r.fromB then m.reachesB r.c ((m.chain r.c).fromB.foldl min len) else m
      | none => m.judgeChain r.c

/-- FAULT (R330, R334, R336). -/
def fault (c pos : Nat) (fromB : Bool) (code : Nat) (m : Mach) : Mach :=
  if c ≥ 96 ∨ pos ≥ 10 ∨ code = 0 ∨ code > 8 then m
  else if code ≥ 5 then m.raiseAtMost 1 0x8019 (tileBank c pos) [(1, c), (1, pos), (1, code)]
  else
    let m := m.report c
    if code = 1 then m.noteBreak c (some pos) (if fromB then some pos else none)
    else if code = 2 then m.noteBreak c (some (pos + 1)) none
    else if code = 3 ∨ code = 4 then m.enumerateChain c
    else m

/-! ### Lanes that lose and gain lock (R291 to R293, R330) -/

/-- The RX of a lane loses lock: counted, a report of its chain, and one side of a break when the chain has a tile (R293, R330). A
chain with both lanes down is DOWN (R332). -/
def Mach.lockLost (m : Mach) (l : Nat) : Mach :=
  let c := l / 2
  if ((m.lane l).sleepAgo).isSome then m.rxDeep l
  else
    let m := (m.bump (0x6010 + l) 7).hunt l
    let m := m.onLane l (fun x => { x with lost := true })
    let m := m.report c
    if !m.chainPresent c then (if m.lanesLocked c = (false, false) then m.setN (0x6110 + c) 1 0 else m)
    else if l % 2 = 0 then m.noteBreak c (some 0) none
    else m.noteBreak c none (some (m.chainLength c))

/-- The RX of a lane gains lock: event 0x8002 after a loss, and the chain is enumerated (R293, R324, R328). -/
def Mach.lockGained (m : Mach) (l : Nat) : Mach :=
  let hunt := (m.now - (m.lane l).huntAt) / 65536
  let again := (m.lane l).lost
  let m := (m.setRx l 4).setN (0x6010 + l) 8 (min hunt 4294967295)
  let m := m.onLane l (fun x => { x with window := [], good := 0, lost := false, alarmed := false, sleepAgo := none })
  let m := if again then m.raise 0x8002 l [(1, l), (4, min hunt 4294967295)] else m
  m.enumerateChain (l / 2)

/-- Event 0x8003 when the header errors of a LOCKED lane within one second exceed the threshold, at most once per second (R293). -/
def Mach.judgeErrors (m : Mach) (l : Nat) : Mach :=
  let x := m.lane l
  let n := (x.errors.filter (fun t => m.now < t + sec 1)).length
  if m.rx l = 4 ∧ m.objN 0x6000 4 < n ∧ x.errorAlarm.all (fun t => t + sec 1 ≤ m.now) then
    (m.onLane l (fun x => { x with errorAlarm := some m.now })).raise 0x8003 l [(1, l), (4, n)]
  else m

/-- Counts a header error of a LOCKED lane (R292, R293). -/
def Mach.headerError (m : Mach) (l : Nat) : Mach :=
  let m := m.bump (0x6010 + l) 6
  (m.onLane l (fun x => { x with errors := m.now :: x.errors.filter (fun t => m.now < t + sec 1) })).judgeErrors l

/-- The control types the protocol layer knows (R314). -/
def knownType (t : Nat) : Bool := (0x10 ≤ t && t ≤ 0x1B) || (0x20 ≤ t && t ≤ 0x27)

/-- Takes a block of a LOCKED lane with a valid header (R290, R292): IDLE is discarded, LANE_SLEEP is the lane layer's, and any other block is
delivered to the protocol layer, which counts the types it does not know (R314). -/
def Mach.deliver (m : Mach) (l : Nat) (control : Bool) (d : BitVec 128) : Mach :=
  let n := d.toNat
  let t := n / 2 ^ 120
  if control ∧ (t = 0 ∨ (t = 1 ∧ n % 2 ^ 112 ≠ 0)) then m
  else
    let m := m.bump (0x6010 + l) 5
    if control ∧ t = 1 then m.sleepBlock l (n / 2 ^ 112 % 256)
    else
      let m := m.onLane l (fun x => { x with delivered := some (control, d) })
      if control ∧ !knownType t then m.bump 0x6100 0x0A else m

/-- The candidate alignment after an invalid header while HUNTING: one symbol on (R291). -/
def Lane.slipped (x : Lane) : Lane := { x with good := 0, begun := x.begun.drop 1, slip := x.begun = [] }

/-- Whether an injection of kinds 1 to 4 acts on the block that is received: that of kind 4 at the first of its 16 headers (R307). -/
def Lane.rxActs (x : Lane) : Bool := x.flip || (x.badHeaders != 0 && (x.armed != 4 || x.badHeaders = 16))

/-- BLOCK_RECEIVED: 65 symbols arrive at a lane's RX, and with them the block at its candidate alignment: by its sync header and its 128 line
bits (R287 to R293, R307). -/
def blockReceived (l : Nat) (symbols : List Level) (m : Mach) : Mach :=
  let st := m.rx l
  if l ≥ 192 ∨ symbols.length ≠ 65 ∨ (st ≠ 3 ∧ st ≠ 4) then m
  else
    let x := m.lane l
    let got := x.begun ++ (if x.slip then symbols.drop 1 else symbols)
    if got.length < 65 then m.onLane l (fun x => { x with begun := got, slip := false, delivered := none, erased := false })
    else
      let header := got.headD .minus3
      let valid := (header = .minus1 ∨ header = .plus3) ∧ x.badHeaders = 0
      let bits := ((got.take 65).drop 1).flatMap Level.bits
      let bits := if x.flip then (match bits with | b :: r => (!b) :: r | [] => []) else bits
      let (plain, state) := scramble false x.descrambler bits
      let m := m.onLane l (fun x =>
        ({ x with begun := got.drop 65, slip := false, delivered := none, erased := st = 4 && !valid, flip := false, badHeaders := x.badHeaders - 1, descrambler := state,
                  sleepAgo := match x.sleepAgo with
                    | some n => if n < 64 then some (n + 1) else none
                    | none => none } : Lane).disarmed)
      let m := if x.rxActs then m.bump (0x6010 + l) 0x15 else m
      if st = 3 then
        if valid then
          let m := m.onLane l (fun x => { x with good := x.good + 1 })
          if (m.lane l).good = 64 then m.lockGained l else m
        else m.onLane l Lane.slipped
      else
        let m := m.onLane l (fun x => { x with window := (decide valid :: x.window).take 64 })
        let m := if valid then m.deliver l (header = .plus3) (BitVec.ofNat 128 (ofBits plain)) else m.headerError l
        if m.rx l = 4 ∧ ((m.lane l).window.filter (fun v => !v)).length ≥ 16 then m.lockLost l else m

/-- HUNT_ALARM: an RX has been HUNTING for the hunt alarm time (R293): once, and a report of its chain (R334). -/
def huntAlarm (l : Nat) (m : Mach) : Mach :=
  let x := m.lane l
  if l < 192 ∧ m.rx l = 3 ∧ !x.alarmed ∧ x.huntAt + us (m.objN 0x6000 6) ≤ m.now then
    (m.onLane l (fun x => { x with alarmed := true })).report (l / 2)
  else m

/-! ### Un-heal (R333) -/

/-- UN_HEAL_DELAY_EXPIRY: the ring of a HEALED chain has been whole for the un-heal delay. -/
def unHealDelayExpiry (c : Nat) (m : Mach) : Mach :=
  match (m.chain c).wholeSince with
  | none => m
  | some t =>
    if m.chainState c = 3 ∧ t + ms (m.objN 0x6100 6) ≤ m.now ∧ m.coreUp 2 then m.onChain c (fun ch => { ch with unhealReady := true })
    else m

/-- UNHEAL: in the quiet window of heat H, ROUTE to the D-fed positions and the A-side C of each. -/
def unheal (c : Nat) (m : Mach) : Mach :=
  let ch := m.chain c
  if m.chainState c ≠ 3 ∨ !ch.unhealReady ∨ ch.unhealAt.isSome ∨ !m.heat.running ∨ m.timeWord < m.commitAt + us 100 ∨
      m.tickAt m.heat.number ≤ m.timeWord ∨ !m.coreUp 2 then m
  else
    let h := m.heat.number
    let len := m.chainLength c
    let fed := (upTo len).filter (fun i => m.fedFromB c i)
    let m := match fed with
      | [] => m
      | k :: _ => m.sendKtl (2 * c + 1) (.route k (len - 1) 0 false h)
    let m := each fed m (fun m i =>
      let d := (m.tile c i).aSide ch.ring
      (m.onTile c i (fun t => { t with cA := some d })).sendKtl (2 * c) (.configWrite i 1 (symbolsOf d)))
    m.onChain c (fun ch => { ch with unhealAt := some h })

/-- The un-heals that take effect at frame tick H: tiles and what goes to them change to the A-lane (R313), and the chain is WHOLE, with event
0x8016 (R333), which is the root event of that state (R334). -/
def Mach.finishUnheals (m : Mach) (h : Nat) : Mach :=
  each (upTo 96) m (fun m c =>
    if (m.chain c).unhealAt ≠ some h then m
    else
      let ring := (m.chain c).ring
      let fed := (upTo 10).filter (fun i => m.fedFromB c i)
      let m := m.moveSegs (2 * c + 1) (2 * c) false (fun s => fed.contains s.pos)
      let m := each fed m (fun m i =>
        let d := (m.tile c i).aSide ring
        ((m.setN 0x6181 5 0 (tileBank c i)).setN 0x6181 6 (psOf d) (tileBank c i)).onTile c i (fun t => { t with delay := d }))
      let m := ((m.setN (0x6110 + c) 1 2).setN (0x6110 + c) 4 0xFF).setN (0x6110 + c) 5 (psOf ring)
      let m := m.onChain c (fun ch => { ch with
        rootState := some 2, aReach := none, bReach := none
        unhealAt := none, unhealReady := false, fromA := upTo (m.chainLength c), fromB := [] })
      m.raise 0x8016 c [(1, c)])

/-! ### Segments and commits on their way (R316 to R319) -/

/-- Whether a segment belongs to a pour version or transfer. -/
def Seg.of (s : Seg) (pos version kind tag : Nat) : Bool :=
  s.pos = pos && s.kind = kind && (kind != 0 || (s.version = version && s.heat % 256 = tag))

/-- How long a segment takes on a lane: its SEG_START and its data blocks (R308, R315). -/
def Seg.time (s : Seg) : Nat := (s.data.length / 16 + 1) * blockTime

/-- Whether any segment of a pour version or transfer is still on its way on a lane. -/
def Lane.carries (x : Lane) (pos version kind tag : Nat) : Bool :=
  x.staged.any (fun s => s.of pos version kind tag) || x.naked.any (fun s => s.of pos version kind tag) ||
    x.unacked.any (fun s => s.1.of pos version kind tag)

/-- An acknowledgement of segments 0 … s takes them off a lane (R318). -/
def Mach.ackSegs (m : Mach) (l pos version kind tag seq : Nat) : Mach :=
  let held (s : Seg) : Bool := s.of pos version kind tag && s.seq ≤ seq
  m.onLane l (fun x => { x with
    unacked := x.unacked.filter (fun s => !held s.1), naked := x.naked.filter (fun s => !held s) })

/-- Drops every segment of a pour version or transfer from a lane. -/
def Mach.dropSegs (m : Mach) (l pos version kind tag : Nat) : Mach :=
  m.onLane l (fun x => { x with
    unacked := x.unacked.filter (fun s => !s.1.of pos version kind tag)
    naked := x.naked.filter (fun s => !s.of pos version kind tag)
    staged := x.staged.filter (fun s => !s.of pos version kind tag) })

/-- When a lane has sent the last block of what it is sending: the segments in transmission are unacknowledged. -/
def Lane.sentBy (x : Lane) : Nat := (x.unacked.map Prod.snd).foldl max 0

/-- Whether history segments may be sent on a lane now (R355): no pour segment staged, and not within 100 µs after t_C. -/
def Mach.historyAllowed (m : Mach) (l : Nat) : Bool :=
  !(((m.lane l).staged ++ (m.lane l).naked).any (fun s => s.kind = 0)) &&
    !(m.heat.running && m.commitAt ≤ m.timeWord && m.timeWord ≤ m.commitAt + us 100)

/-- Whether a RAYS segment can still be sent again, to its last block, before the commit point (R86): after the segment in transmission and
the segments NAKed before it, at the lane's payload rate. -/
def Mach.timeToResend (m : Mach) (l : Nat) (s : Seg) : Bool :=
  let x := m.lane l
  let ahead := (x.naked.takeWhile (· != s)).filter (fun y => y.kind = 0 || m.historyAllowed l)
  s.kind != 0 || !m.heat.running ||
    m.timeWord + (x.sentBy - m.now) + (ahead.map Seg.time).sum + s.time < m.commitAt

/-- A pour version is no longer rendered and sent (R86, R273); at the commit point it is MISSED. -/
def Mach.stopVersion (m : Mach) (panel version : Nat) : Mach :=
  let mine (w : Option Work) : Bool := match w with
    | some w => w.panel = panel && w.version = version
    | none => false
  let m := m.onPour panel (fun p => p.onVer version (fun v => { v with stopped := true, rendered := true }))
  let m := m.onHeat (fun h => { h with list := h.list.filter (fun e => e != (panel, version)) })
  { m with pipe := { m.pipe with clusters := m.pipe.clusters.map (fun (x : Cluster) =>
    { x with
      ctx := x.ctx.map (fun w => if mine w then none else w)
      cur := match x.cur with
        | some i => if mine (x.ctx.getD i none) then none else some i
        | none => none }) } }

/-- A segment counts as NAKed (R86, R318): it goes ahead of unsent segments, or its version is no longer sent. -/
def Mach.nakSeg (m : Mach) (l pos version kind tag seq : Nat) : Mach :=
  match (m.lane l).unacked.find? (fun s => s.1.of pos version kind tag && s.1.seq = seq) with
  | none => m
  | some (s, _) =>
    if m.timeToResend l s then
      m.onLane l (fun x => { x with unacked := x.unacked.filter (fun y => y.1 != s), naked := x.naked ++ [s] })
    else if kind = 0 then (m.dropSegs l pos version kind tag).stopVersion s.panel version
    else m.dropSegs l pos version kind tag

/-- A pour version is RECEIVED once every segment is acknowledged (R86). -/
def Mach.checkReceived (m : Mach) (l pos version : Nat) : Mach :=
  let c := l / 2
  match m.heat.pours.find? (fun p => p.c = c ∧ p.pos = pos) with
  | none => m
  | some p =>
    let v := p.ver version
    if v.state = 5 ∧ v.rendered ∧ !v.stopped ∧ m.timeWord ≤ m.commitAt ∧ !(m.lane l).carries pos version 0 (m.heat.number % 256) then
      m.onPour p.panel (fun p => p.onVer version (fun v => { v with state := 6, received := some m.tHus }))
    else m

/-- The acknowledgement of a COMMIT or WITHDRAW (R319). -/
def Mach.ackCommit (m : Mach) (c pos version tag : Nat) : Mach :=
  m.onTile c pos (fun t => { t with commits := t.commits.filter (fun k => !(k.version = version ∧ k.heat % 256 = tag)) })

/-- NAK (R86, R318). -/
def nak (c pos version kind tag seq : Nat) (m : Mach) : Mach :=
  if c ≥ 96 then m
  else
    let m := m.bump (0x6110 + c) 7
    m.nakSeg (m.feedLane c pos) pos version kind tag seq

/-- SEGMENT_ACK_TIMEOUT: no ACK covers a segment within t_ato of its last block, whose instant stands beside it, and it counts as NAKed
(R318). -/
def segmentAckTimeout (l pos version kind seq : Nat) (m : Mach) : Mach :=
  match (m.lane l).unacked.find? (fun s => s.1.pos = pos && s.1.kind = kind && s.1.version = version && s.1.seq = seq) with
  | none => m
  | some (s, t) =>
    if l < 192 ∧ t + us 20 ≤ m.now then
      ((m.bump (0x6110 + l / 2) 7).nakSeg l pos version kind (s.heat % 256) seq).noAnswer (l / 2) pos
    else m

/-- Sends a COMMIT or WITHDRAW and waits for its acknowledgement (R319). -/
def Mach.sendCommit (m : Mach) (c pos heat version : Nat) (withdraw : Bool) : Mach :=
  let k := if withdraw then Ktl.withdraw pos version heat else Ktl.commit pos version heat
  (m.toTile c pos k).onTile c pos (fun t => { t with commits := t.commits ++ [⟨heat, version, withdraw, m.now⟩] })

/-- COMMIT_RESEND: unacknowledged copies every t_cak until 20 µs before the frame tick (R319). -/
def commitResend (c pos : Nat) (m : Mach) : Mach :=
  each (m.tile c pos).commits m (fun m k =>
    if k.sentAt + us 10 ≤ m.now ∧ m.timeWord + us 20 ≤ m.tickAt k.heat then
      let b := if k.withdraw then Ktl.withdraw pos k.version k.heat else Ktl.commit pos k.version k.heat
      (m.toTile c pos b).onTile c pos (fun t => { t with
        commits := t.commits.map (fun x => if x = k then { x with sentAt := m.now } else x) })
    else m)

/-- A commit that was not acknowledged in time is a report of the chain, and stands in its window (R319, R334). -/
def Mach.reportLate (m : Mach) (c pos heat : Nat) : Mach :=
  if !m.coreUp 2 then m.later (.late c pos heat)
  else (m.report c).onChain c (fun ch => match ch.window with
    | some w => { ch with window := some { w with timeouts := w.timeouts ++ [(heat, pos)] } }
    | none => ch)

/-- COMMIT_DEADLINE: 20 µs before frame tick H, what is not acknowledged is a report of the chain (R319, R334). -/
def commitDeadline (c pos : Nat) (m : Mach) : Mach :=
  match (m.tile c pos).commits with
  | [] => m
  | k :: _ =>
    if m.timeWord + us 20 < m.tickAt k.heat then m
    else
      let m := m.onTile c pos (fun t => { t with commits := t.commits.filter (fun x => x.heat != k.heat) })
      ((m.bump 0x6181 9 1 (tileBank c pos)).reportLate c pos k.heat).noAnswer c pos

/-! ### STATUS, the map and removal (R325, R327) -/

/-- STATUS: what a tile reports of itself after a frame tick (R314, R339). -/
def status (c pos version frame : Nat) (temperature : Int) (flags : Nat) (m : Mach) : Mach :=
  if c ≥ 96 ∨ pos ≥ 10 ∨ m.tileState c pos = 0 then m
  else
    let m := m.sets 0x6181 [(7, temperature), (8, flags), (0x0A, frame), (0x0B, version)] (tileBank c pos)
    m.onTile c pos (fun t => { t with heard := true, misses := 0, told := true })

/-- The staged map entries, chain-major (0x6110+c:10 to :19). -/
def Mach.stagedMap (m : Mach) : List Nat := (upTo 96).flatMap (fun c => (upTo 10).map (fun i => m.objN (0x6110 + c) (0x10 + i)))

/-- TILE_MAP_APPLY: the staged entries wait for the next heat start, unless two name the same panel position (R325). -/
def Mach.applyMapWrite (m : Mach) : Except Nat Mach :=
  let es := m.stagedMap
  let named := es.filter (· != 0xFFFF)
  if named.eraseDups.length ≠ named.length then .error abInconsistent
  else .ok ({ m with tiles := { m.tiles with pendingMap := some es } }.setN 0x6100 5 1)

/-- LOST_TIME_EXPIRY: an UNREACHABLE tile leaves the tile map (R327). -/
def lostTimeExpiry (c pos : Nat) (m : Mach) : Mach :=
  if m.tileState c pos = 5 ∧ (m.tile c pos).lostAt + ms (m.objN 0x6100 4) ≤ m.now ∧ m.coreUp 2 then
    let m := if m.inMap c pos then m.leftMap c pos 0 else m
    m.setTile c pos 0
  else m

/-- A tile is parked: BLANK STANDBY, out of the tile map, event 0x8014 reason 1 (R327). -/
def Mach.park (m : Mach) (c pos : Nat) : Mach :=
  let m := m.toTile c pos (.blank pos 1 3)
  let m := if m.inMap c pos then m.leftMap c pos 1 else m.raise 0x8014 c [(1, c), (1, pos), (1, 1)]
  (m.setTile c pos 6).onTile c pos (fun t => { t with leaving := false })

/-- No STATUS in 3 consecutive frames makes an ACTIVE tile UNREACHABLE, each missing one a report of its chain (R327, R334). Nothing is judged
while core 2 restarts (R29). -/
def Mach.judgeStatus (m : Mach) : Mach :=
  if !m.coreUp 2 then m else
  each m.mapTiles m (fun m ci =>
    let (c, i) := ci
    if m.tileState c i ≠ 4 then m
    else if (m.tile c i).heard then m.onTile c i (fun t => { t with heard := false })
    else
      let m := (m.onTile c i (fun t => { t with misses := t.misses + 1 })).report c
      if (m.tile c i).misses ≥ 3 then m.loseTile c i else m)

end Sys2Proof.Machine
end

