-- ==== Sys2Proof/Machine/Calib.lean ====
section
/-! DEFINITION. Calibration and trimming (17): items and records (R488), the temperatures of R482, values in force and their steps (R499,
R500, R294 to R296), runs (R489 to R495) and set slots (R496 to R498). -/

namespace Sys2Proof.Machine

/-! ### Items (R488) -/

/-- Instances of an item. -/
def itemCount (item : Nat) : Nat := [192, 192, 36, 8, 64, 28].getD item 0

/-- The values of an item's record: bytes, signed, range and tolerance (R488, R493). -/
def itemShape (item : Nat) : List (Nat × Bool × Int × Int × Nat) :=
  match item with
  | 0 => [(1, false, 0, 15, 1), (1, false, 0, 31, 2), (1, true, -96, 96, 8)] ++ List.replicate 7 (1, true, -32, 31, 4)
  | 1 => [(1, true, -8, 0, 1), (1, true, -16, 0, 1), (1, true, -16, 0, 1)]
  | 2 => List.replicate 2 (1, false, 0, 127, 2) ++ List.replicate 64 (1, false, 0, 255, 4)
  | 3 => [(2, false, 0, 2047, 8)]
  | 4 => [(2, false, 0x7333, 0x8CCD, 33), (2, true, -5000, 5000, 20)]
  | _ => [(2, true, -160, 160, 4)]

/-- The key of an instance. -/
def calKey (item inst : Nat) : Nat := 1024 * item + inst

/-- The bytes of a value record. -/
def recordBytes (item : Nat) (vs : List Int) : Bytes :=
  (List.zipWith (fun (s : Nat × Bool × Int × Int × Nat) (v : Int) => beBytes s.1 (toUnsigned (8 * s.1) v)) (itemShape item) vs).flatten

/-- The values that the bytes of a record spell. -/
def recordValues : List (Nat × Bool × Int × Int × Nat) → Bytes → List Int
  | [], _ => []
  | s :: rest, b =>
    let n := ofBE (b.take s.1)
    (if s.2.1 then toSigned (8 * s.1) n else (n : Int)) :: recordValues rest (b.drop s.1)

/-- Whether every value of a record lies in its range. -/
def recordAllowed (item : Nat) (vs : List Int) : Bool :=
  vs.length = (itemShape item).length &&
    (List.zipWith (fun (s : Nat × Bool × Int × Int × Nat) (v : Int) => decide (s.2.2.1 ≤ v) && decide (v ≤ s.2.2.2.1)) (itemShape item) vs).all id

/-! ### Temperatures (R482) -/

/-- Whether a sensor is VALID. -/
def Mach.sensorValid (m : Mach) (s : Nat) : Bool := m.objN (0x2220 + s) 5 = 0

/-- The mean of the valid filtered values of some sensors, rounded toward minus infinity; what was latched before when none has one. -/
def Mach.meanOf (m : Mach) (ss : List Nat) (old : Int) : Int :=
  let on := ss.filter (fun s => m.sensorValid s && (m.thermal.sensors.getD s {}).seeded)
  if on = [] then old else (on.map (fun s => m.obj (0x2220 + s) 4)).sum / (on.length : Int)

/-- The sensors of the places of `Calib.temps`. -/
def tempSensors (i : Nat) : List Nat :=
  match i with
  | 0 => [8, 9, 10, 11]
  | 1 => (upTo 9).map (· + 12)
  | n => (upTo 28).filter (fun s => sensorZone s = n - 1)

/-- The place of an instance's temperature in `Calib.temps` (R488). -/
def tempPlace (item inst : Nat) : Nat := if item = 2 then 1 else if item = 5 then 1 + sensorZone inst else 0

/-- The latched temperature of an instance. -/
def Mach.calTemp (m : Mach) (item inst : Nat) : Int := m.calib.temps.getD (tempPlace item inst) 0

/-! ### Values in force (R498, R499) -/

/-- The slots of an instance. -/
def Mach.calSlots (m : Mach) (key : Nat) : List (Option CalSlot) :=
  match m.calib.sets.find? (fun s => s.1 = key) with
  | some s => s.2
  | none => List.replicate 5 none

/-- A record of an item whose values are those numbers, brought into their ranges (R488). -/
def inRanges (item : Nat) (f : Nat → Nat) : List Int :=
  ((upTo (itemShape item).length).zip (itemShape item)).map (fun p => p.2.2.2.1 + (f p.1 : Int) % (p.2.2.2.2.1 - p.2.2.2.1 + 1))

/-- The factory set of an instance: per unit, within the ranges of R294 and R488, until one is written (R498). -/
def Mach.factory (m : Mach) (key : Nat) : List Int :=
  let item := key / 1024
  match m.str 0x7809 0 key with
  | [] => inRanges item (fun k => (Config.factorySet key k).toNat)
  | b => recordValues (itemShape item) b

/-- The value between two slots (R499). -/
def between (t tlo thi vlo vhi : Int) : Int := vlo + ((vhi - vlo) * (t - tlo) * 2 + (thi - tlo)) / (2 * (thi - tlo))

/-- The values in force of an instance at a temperature (R499). -/
def Mach.valuesAt (m : Mach) (key : Nat) (t : Int) : List Int :=
  let on := sortBy (fun a b => a.temp ≤ b.temp) ((m.calSlots key).filterMap id)
  match on.getLast? with
  | none => m.factory key
  | some last =>
    match on.find? (fun s => t ≤ s.temp) with
    | none => last.values
    | some hi =>
      match (on.filter (fun s => s.temp < t)).getLast? with
      | none => hi.values
      | some lo => if hi.temp = t then hi.values
        else List.zipWith (fun vlo vhi => between t lo.temp hi.temp vlo vhi) lo.values hi.values

/-- The values in force of an instance: those of the latest latch (R499). -/
def Mach.valuesInForce (m : Mach) (key : Nat) : List Int :=
  match m.calib.kept.find? (fun k => k.1 = key) with
  | some k => k.2
  | none => m.valuesAt key (m.calTemp (key / 1024) (key % 1024))

/-- The side taps c(−2), c(−1), c(+1) of a TX within their limit (R294): c(+1), then c(−1), then c(−2) are reduced until their magnitudes sum to
32. -/
def sideTaps (l : List Int) : List Int :=
  let a := (l.getD 0 0).natAbs
  let b := (l.getD 1 0).natAbs
  let d := (l.getD 2 0).natAbs
  let past := a + b + d - 32
  let past' := past - min d past
  let past'' := past' - min b past'
  [-((a - min a past'' : Nat) : Int), -((b - min b past' : Nat) : Int), -((d - min d past : Nat) : Int)]

/-- The values toward which the settings of an instance move: its values in force, the side taps of a TX within their limit (R294, R500). -/
def Mach.targets (m : Mach) (key : Nat) : List Int :=
  if key / 1024 = 1 then sideTaps (m.valuesInForce key) else m.valuesInForce key

/-- The settings of an instance as they stand. -/
def Mach.settings (m : Mach) (key : Nat) : List Int :=
  match m.calib.moving.find? (fun s => s.1 = key) with
  | some s => s.2
  | none => m.targets key

/-- A setting of an instance. -/
def Mach.setting (m : Mach) (item inst i : Nat) : Int := (m.settings (calKey item inst)).getD i 0

/-- Every instance. -/
def calKeys : List Nat := (upTo 6).flatMap (fun item => (upTo (itemCount item)).map (fun i => calKey item i))

/-- Changes calibration. -/
def Mach.onCalib (m : Mach) (f : Calib → Calib) : Mach := { m with calib := f m.calib }

/-- The sets of an instance change; its values in force stand until the next latch (R499, R500). -/
def Mach.keepValues (m : Mach) (key : Nat) (f : Mach → Mach) : Mach :=
  let old := (key, m.valuesInForce key)
  (f m).onCalib (fun x => { x with kept := old :: x.kept.filter (fun k => k.1 != key) })

/-- Something changes the values in force: settings stay as they stand and move from there (R500). -/
def Mach.keepSettings (m : Mach) (f : Mach → Mach) : Mach :=
  let old := calKeys.map (fun k => (k, m.settings k))
  let m := f m
  m.onCalib (fun x => { x with moving := old.filter (fun p => p.2 != m.targets p.1) })

/-- Temperatures are latched, and the values in force with them (R482, R499). -/
def Mach.latchTemps (m : Mach) : Mach :=
  let new := (upTo 7).map (fun i => m.meanOf (tempSensors i) (m.calib.temps.getD i 0))
  let m := m.onCalib (fun x => { x with latchedAt := m.now })
  if new = m.calib.temps ∧ m.calib.kept = [] then m
  else m.keepSettings (fun m => m.onCalib (fun x => { x with temps := new, kept := [] }))

/-- The instance that a pass is testing, by its key (R491). -/
def Mach.testing (m : Mach) : Option Nat :=
  let r := m.calib.run
  if (m.objN 0x7800 6 = 2 ∧ r.v1 = []) ∨ m.objN 0x7800 6 = 3 then some (calKey r.item r.inst) else none

/-- The settings of an instance stand elsewhere than at its values in force. -/
def Mach.putSettings (m : Mach) (key : Nat) (v : List Int) : Mach :=
  m.onCalib (fun x => { x with moving := (key, v) :: x.moving.filter (fun p => p.1 != key) })

/-- Where a 2 KiB page of a logical channel lies: its runs of module addresses (R258 to R260). -/
def pageRuns (l page : Nat) : List (Nat × Nat) :=
  let o := page * 2048
  if fixedEnd / 32 ≤ o then [(fixedEnd + ((o - fixedEnd / 32) / extentSize * 32 + l) * extentSize + o % extentSize, 2048)]
  else (upTo 8).map (fun i =>
    let base := (o / 256 + i) * 8192
    (base + (logicalOf base ^^^ l) * 256, 256))

/-- The test save area (R257). -/
def testSaveBase : Nat := 0x3B0000000

/-- The 2 KiB page that a pass of the DRAM item uses is saved to the test save area (R493): which page, and where in the area, the manual does not
say (log entry 106). A SPARE channel backs no address, and holds nothing to save. -/
def Mach.savePage (m : Mach) (c : Ctx) (p : Nat) : Eff :=
  match m.backs p with
  | none => .of m
  | some l =>
    let runs := pageRuns l ((Config.calPage m.free).toNat % 2097152)
    let m := m.draw.reads (sourceBase 12) runs
    m.store testSaveBase (runs.flatMap (fun r => m.fetch c.mem r.1 r.2))

/-- A pass begins: its settings under test move, and what it drives goes out (R493). Where the manual does not say how far, the settings are free
values. -/
def Mach.underTest (m : Mach) (c : Ctx) : Eff :=
  let r := m.calib.run
  let k := calKey r.item r.inst
  let free := inRanges r.item (fun i => (Config.tested m.free i).toNat)
  match r.item with
  | 0 => .of (m.draw.putSettings k free)
  | 1 => .of (m.draw.putSettings k (sideTaps free))
  | 2 => (m.draw.putSettings k free).savePage c r.inst
  | 3 => .of ((m.bump (0x3110 + r.inst) 0x0C 256).emit (.syncPulses r.inst 256 1000 10000 m.timeWord))
  | 4 => .of ((m.putSettings k [0x8000, (m.settings k).getD 1 0]).emit (.commonHolds r.inst [(6000, 1000), (-6000, 1000), (0, 1000)] m.timeWord))
  | _ => .of m

/-- One step of a setting toward a target. -/
def stepTo (v target : Int) : Int := if v < target then v + 1 else if target < v then v - 1 else v

/-- One step of a DFE tap (R296): by sign-sign LMS within its bounds while the lane adapts, toward its calibrated value otherwise. -/
def dfeStep (adapts : Bool) (bound v target sign lo hi : Int) : Int :=
  if !adapts then stepTo v target
  else if v < max lo (target - bound) then v + 1
  else if min hi (target + bound) < v then v - 1
  else max (max lo (target - bound)) (min (min hi (target + bound)) (v + sign.sign))

/-- One step of each side tap of a TX toward its target (R295): a tap that shrinks moves, and one that grows where the sum of R294 leaves room,
c(−2) first, then c(−1), then c(+1) (DESIGN CHOICE, log entry 88). -/
def ffeStep (v t : List Int) : List Int :=
  let shrunk := List.zipWith (fun v t => if t.natAbs < v.natAbs then stepTo v t else v) v t
  let wants := List.zipWith (fun (v t : Int) => decide (v.natAbs < t.natAbs)) v t
  let size (l : List Int) : Nat := (l.map Int.natAbs).sum
  (upTo 3).foldl (fun l i => if wants.getD i false ∧ size l < 32 then modAt l i (fun x => stepTo x (t.getD i 0)) else l) shrunk

/-- TAP_STEP: every 1 µs each setting moves one step toward its value in force (R500, R501), DFE taps adapt (R296), and DRAM write taps follow
their oscillator (R277); what a pass tests does not (R491). `adapt` gives per lane the signs of the LMS error of h1 to h8; `held` the instances
whose step waits. Taps of a channel in self-refresh stand (R277, R500). -/
def tapStep (adapt : List (Nat × List Int)) (held : List Nat) (m : Mach) : Mach :=
  if 2 < m.power ∨ m.calib.steppedAt.any (fun t => m.now < t + us 1) then m else
  let m := m.onCalib (fun x => { x with steppedAt := some m.now })
  let held := held ++ (upTo 36).filterMap (fun p => if (m.chan p).selfRefresh = 0 then none else some (calKey 2 p))
  let lanes := adapt.map (fun a => calKey 0 a.1)
  let keys := (m.calib.moving.map Prod.fst ++ lanes.filter (fun k => calKeys.contains k)).eraseDups
  let bound := m.obj 0x6000 5
  let step (k : Nat) : List Int :=
    let v := m.settings k
    let t := m.targets k
    if held.contains k ∨ m.testing = some k then v
    else if k / 1024 = 0 then
      let l := k % 1024
      let adapts : Bool := m.rx l = 4 && m.objB (0x6010 + l) 0x0D
      let signs := (adapt.find? (fun a => a.1 = l)).map Prod.snd
      (v.zip t).zipIdx.map (fun p =>
        if p.2 < 2 then stepTo p.1.1 p.1.2
        else
          let h1 := p.2 = 2
          dfeStep adapts bound p.1.1 p.1.2 ((signs.getD []).getD (p.2 - 2) 0) (if h1 then -96 else -32) (if h1 then 96 else 31))
    else if k / 1024 = 1 then ffeStep v t
    else List.zipWith stepTo v t
  let new := keys.map (fun k => (k, step k))
  let m := m.onCalib (fun x => { x with moving := new.filter (fun p => p.2 != m.targets p.1) })
  { m with dram := { m.dram with chans := m.dram.chans.zipIdx.map (fun c =>
      if held.contains (calKey 2 c.2) then c.1 else c.1.stepTap) } }

/-- VALUES_IN_FORCE_PERIOD: while the schedule is STOPPED, every 10 ms (R499). -/
def valuesInForcePeriod (m : Mach) : Mach :=
  if m.schedState = 0 ∧ m.power ≤ 2 ∧ 6 ≤ m.boot.step ∧ m.calib.latchedAt + ms 10 ≤ m.now then m.latchTemps else m

/-! ### Runs (R489 to R495) -/

/-- State of the run (0x7800:06). -/
def Mach.calState (m : Mach) : Nat := m.objN 0x7800 6

/-- Moves the run to a state. -/
def Mach.calEnter (m : Mach) (st : Nat) : Mach :=
  (m.setN 0x7800 6 st).onCalib (fun x => { x with run := { x.run with since := m.now } })

/-- Whether a sync output is off, as its settings in force say. -/
def Mach.outputOff (m : Mach) (o : Nat) : Bool := (m.ptp.outs.getD o {}).set_.mode = 0

/-- CALIBRATION_START (R489). -/
def Mach.startCal (m : Mach) (c : Ctx) : Except Nat Mach :=
  let item := m.objN 0x7800 1
  let inst := m.objN 0x7800 2
  let factoryOnly : Bool := item = 2 || item = 5
  if c.life = .retired ∨ (factoryOnly ∧ (c.life = .provisioned ∨ c.life = .field)) then .error abLife
  else if 1 ≤ m.calState ∧ m.calState ≤ 4 then .error abPrecondition
  else if itemCount item ≤ inst then .error abAbove
  else if (item = 5 ∧ m.obj 0x7800 3 = 0x7FFF) ∨ (item = 3 ∧ m.objN 0x7800 4 = 0xFFFFFFFF) then .error abInconsistent
  else
    let t := m.meanOf (tempSensors (tempPlace item inst)) (m.calTemp item inst)
    let m := m.onCalib (fun x => { x with run := { item := item, inst := inst, t1 := t } })
    let m := (m.sets 0x7800 [(7, 0), (8, t), (9, 0), (0x0A, 0)]).bump 0x7800 0x0C
    let m := ((m.setStr 0x7801 0 []).setStr 0x7802 0 []).setStr 0x7803 0 []
    .ok (m.calEnter 1)

/-- A run ends in one of the states 6 to 11, with event 0xC001 (R491). -/
def Mach.endCal (m : Mach) (st code : Nat) : Mach :=
  let r := m.calib.run
  let m := (m.setN 0x7800 7 code).calEnter st
  let m := if st = 6 ∨ st = 7 ∨ st = 10 ∨ st = 11 then m.setStr 0x7803 0 [] else m
  (m.onCalib (fun x => { x with run := { x.run with slot := none } })).raise 0xC001 0
    [(1, r.item), (2, r.inst), (1, st), (1, code), (2, m.objN 0x7800 0x0A)]

/-- A run in CHECKING, PASS_1 or PASS_2 is stopped (R494). -/
def Mach.cutCal (m : Mach) : Mach := if 1 ≤ m.calState ∧ m.calState ≤ 3 then m.endCal 11 0 else m

/-- CALIBRATION_ABORT (R494). -/
def Mach.abortCal (m : Mach) : Except Nat Mach :=
  if 1 ≤ m.calState ∧ m.calState ≤ 3 then .ok (m.endCal 11 0) else .error abNothing

/-- Whether a sensor's filtered value moved more than 0.5 °C in the last 60 s (R492). -/
def Mach.sensorMoved (m : Mach) (s : Nat) : Bool :=
  let x := m.thermal.sensors.getD s {}
  let late (l : List (Nat × Int)) : List Int := (l.filter (fun h => m.now ≤ h.1 + sec 60)).map Prod.snd
  (late x.highs).any (fun a => (late x.lows).any (fun b => 8 < a - b))

/-- The checks of R492 that the module's own state decides: code 1 for a lane that is not in PRBS31 or whose checker is not in sync, code 2 for
traffic, code 5 for a sensor that is not settled. -/
def Mach.calChecks (m : Mach) (item inst : Nat) : Nat :=
  let lane : Nat := if m.laneMode inst ≠ 1 ∨ !m.objB (0x6010 + inst) 0x0E then 1 else if m.chainMapped (inst / 2) then 2 else 0
  match item with
  | 0 => lane
  | 1 => lane
  | 2 => if (m.objN (0x7010 + inst) 1 = 1 ∧ m.schedState ≠ 0) ∨ m.dram.takeOver.isSome then 2 else 0
  | 3 => if m.outputOff inst then 0 else 2
  | 4 => if m.objN (0x6310 + inst) 1 = 0 then 0 else 2
  | _ => if m.sensorValid inst ∧ !m.sensorMoved inst ∧ (m.obj 0x7800 3 - m.obj (0x2220 + inst) 3).natAbs ≤ 160 then 0 else 5

/-- A check that held before and is lost while a pass runs ends the run at once, with code 6 (R492); `old` is the block before. -/
def Mach.watchCal (old m : Mach) : Mach :=
  let r := m.calib.run
  if m.testing.isSome ∧ old.calChecks r.item r.inst = 0 ∧ m.calChecks r.item r.inst ≠ 0 then m.endCal 8 6 else m

/-- The check codes that R492 gives an item. -/
def checkCodes (item : Nat) : List Nat :=
  match item with
  | 0 => [1, 2]
  | 1 => [1, 2, 3]
  | 2 => [1, 2]
  | 3 => [2, 3]
  | 4 => [2, 3]
  | _ => [5]

/-- CALIBRATION_CHECKS_DONE: the checks before pass 1 end (R491, R492). `failed` is the code of a check that what the module measured fails,
0 for none. -/
def checksDone (failed : Nat) (c : Ctx) (m : Mach) : Eff :=
  let r := m.calib.run
  if m.calState ≠ 1 then .of m
  else
    let own := m.calChecks r.item r.inst
    let meas := if (checkCodes r.item).contains failed then failed else 0
    let code := if own = 0 then meas else if meas = 0 then own else min own meas
    if code = 0 then (m.calEnter 2).underTest c else .of (m.endCal 8 code)

/-- Gap between the passes (R493). -/
def calGap (item : Nat) : Nat := if item = 5 then sec 30 else ms 10

/-- Timeout of a pass (R493). -/
def calTimeout (item : Nat) : Nat := ms ([200, 400, 500, 100, 50, 2000].getD item 0)

/-- CALIBRATION_GAP_END: the checks are repeated and the temperature latched before pass 2 (R491, R492). -/
def gapEnd (failed : Nat) (c : Ctx) (m : Mach) : Eff :=
  let r := m.calib.run
  if m.calState ≠ 2 ∨ r.v1 = [] ∨ m.now < r.since + calGap r.item then .of m
  else
    let t := m.meanOf (tempSensors (tempPlace r.item r.inst)) (m.calTemp r.item r.inst)
    let m := (m.set 0x7800 9 t).onCalib (fun x => { x with run := { x.run with t2 := t } })
    let own := m.calChecks r.item r.inst
    let meas := if (checkCodes r.item).contains failed then failed else 0
    let moved := if 32 < (t - r.t1).natAbs then 4 else 0
    match [own, meas, moved].filter (· != 0) with
    | [] => (m.calEnter 3).underTest c
    | k :: ks => .of (m.endCal 8 (ks.foldl min k))

/-- The result of two passes (R493): each value floor((v1 + v2 + 1) / 2). -/
def calResult (v1 v2 : List Int) : List Int := List.zipWith (fun a b => (a + b + 1) / 2) v1 v2

/-- Largest difference of the passes. -/
def calDiff (v1 v2 : List Int) : Nat := (List.zipWith (fun (a b : Int) => (a - b).natAbs) v1 v2).foldl max 0

/-- The place of the first least number of a list. -/
def leastAt (l : List Int) : Int :=
  let least := l.foldl min (l.headD 0)
  (l.findIdx? (fun x => x = least)).getD 0

/-- The middle of each window of a sweep: first and last passing tap in turn (R493). -/
def middles : List Int → List Int
  | a :: b :: rest => (a + b).fdiv 2 :: middles rest
  | _ => []

/-- The values of a pass from what it measured (R493). LANE_RX: the bit errors at CTLE 0 to 15, then VGA gain and DFE taps after the
choice; LANE_TX: the bit errors of the searches of c(+1), c(−1) and c(−2), each from 0 down; DRAM: first and last passing tap of each
value; SYNC_OUTPUT: the sum over 256 pulses of stamp minus edge instant in 2⁻¹⁶ ns; COMMONS: the sums of the 500 samples of V+, V− and
V0 in µV; SENSOR_OFFSET: the sum of 100 conversions. -/
def Mach.passValues (m : Mach) (item inst : Nat) (x : List Int) : List Int :=
  let g (k : Nat) : Int := x.getD k 0
  match item with
  | 0 => leastAt (x.take 16) :: x.drop 16
  | 1 => [-leastAt ((x.drop 34).take 9), -leastAt ((x.drop 17).take 17), -leastAt (x.take 17)]
  | 2 => middles x
  | 3 =>
    let loop : Int := m.objN 0x7800 4
    [(m.valuesInForce (calKey 3 inst)).getD 0 0 - (2000 * g 0 + (25 - 2 * loop) * 2 ^ 24).fdiv (50 * 2 ^ 24)]
  | 4 => [(12000000 * 32768 * 1000 + (g 0 - g 1)).fdiv (2 * (g 0 - g 1)), (g 2).fdiv 5000]
  | _ => [(100 * m.obj 0x7800 3 - g 0).fdiv 100]

/-- CALIBRATION_PASS_END: a pass ends with what it measured, or a check is lost during it (R491 to R493). A lane's settings end at what the pass
found, and all step back from where they stand (R491, R494). -/
def passEnd (measured : List Int) (lost : Bool) (m : Mach) : Mach :=
  let r := m.calib.run
  let values := m.passValues r.item r.inst measured
  let b := recordBytes r.item values
  if (m.calState ≠ 2 ∧ m.calState ≠ 3) ∨ (m.calState = 2 ∧ r.v1 ≠ []) then m
  else if lost ∨ m.calChecks r.item r.inst ≠ 0 then m.endCal 8 6
  else
  let m := if r.item ≤ 1 ∧ recordAllowed r.item values then
      m.putSettings (calKey r.item r.inst) (if r.item = 1 then sideTaps values else values)
    else m
  if m.calState = 2 then
    ((m.onCalib (fun x => { x with run := { x.run with v1 := values, since := m.now } })).setStr 0x7801 0 b)
  else
    let m := (m.setStr 0x7802 0 b).setN 0x7800 0x0A (calDiff r.v1 values)
    let near := (List.zipWith (fun (s : Nat × Bool × Int × Int × Nat) (p : Int × Int) => decide ((p.1 - p.2).natAbs ≤ s.2.2.2.2))
      (itemShape r.item) (r.v1.zip values)).all id
    if near ∧ recordAllowed r.item values ∧ r.v1.length = values.length then
      let result := calResult r.v1 values
      let m := m.onCalib (fun x => { x with run := { x.run with v2 := values, result := result, temp := (r.t1 + r.t2 + 1) / 2 } })
      (m.setStr 0x7803 0 (recordBytes r.item result)).calEnter 4
    else (m.onCalib (fun x => { x with run := { x.run with v2 := values } })).endCal 9 0

/-- CALIBRATION_TIMEOUT: a pass exceeds its timeout (R493). -/
def calTimeoutExpiry (m : Mach) : Mach :=
  let r := m.calib.run
  if (m.calState = 3 ∨ (m.calState = 2 ∧ r.v1 = [])) ∧ r.since + calTimeout r.item ≤ m.now then m.endCal 10 0 else m

/-- CALIBRATION_EXPIRY: t_cex passes in PENDING (R495). -/
def calExpiry (m : Mach) : Mach :=
  let r := m.calib.run
  if m.calState = 4 ∧ r.slot.isNone ∧ r.since + sec 600 ≤ m.now then m.endCal 7 0 else m

/-- CALIBRATION_REJECT (R495), also while the flash write of an accept runs, which is abandoned (DEDUCED, log entry 106). -/
def Mach.rejectCal (m : Mach) : Except Nat Mach :=
  if m.calState ≠ 4 then .error abPrecondition else .ok (m.endCal 6 0)

/-- The slot for a result (R496); none when no rule gives one, or where two slots that stay valid would lie within 3 °C. -/
def Mach.targetSlot (m : Mach) (key : Nat) (t : Int) (named : Nat) : Option Nat :=
  let slots := m.calSlots key
  let near (i : Nat) : Bool := match slots.getD i none with
    | some s => (s.temp - t).natAbs ≤ 48
    | none => false
  if named ≤ 4 then (if (upTo 5).any (fun i => i != named && near i) then none else some named)
  else match (upTo 5).filter near with
    | [i] => some i
    | _ :: _ => none
    | [] => (upTo 5).find? (fun i => (slots.getD i none).isNone)

/-- CALIBRATION_ACCEPT (R495, R496): the flash write of the instance's slots begins, anew where one runs. -/
def Mach.acceptCal (m : Mach) : Except Nat Mach :=
  let r := m.calib.run
  if m.calState ≠ 4 then .error abPrecondition
  else match m.targetSlot (calKey r.item r.inst) r.temp (m.objN 0x7800 0x0B) with
    | none => .error abInconsistent
    | some i => .ok (m.onCalib (fun x => { x with run := { x.run with slot := some i } }))

/-- A table of slots with those of an instance replaced; an instance without a valid slot is not listed. -/
def putSlots (t : List (Nat × List (Option CalSlot))) (key : Nat) (l : List (Option CalSlot)) : List (Nat × List (Option CalSlot)) :=
  let rest := t.filter (fun s => s.1 != key)
  if l.all Option.isNone then rest else (key, l) :: rest

/-- Writes the slots of an instance over its older copy, which becomes the newest (R497). -/
def Mach.setSlots (m : Mach) (key : Nat) (l : List (Option CalSlot)) : Mach :=
  let old := m.calSlots key
  m.onCalib (fun x => { x with sets := putSlots x.sets key l, older := putSlots x.older key old })

/-- CALIBRATION_FLASH_WRITTEN: the run is ACCEPTED (R497). -/
def calFlashWritten (m : Mach) : Mach :=
  let r := m.calib.run
  match r.slot with
  | none => m
  | some i =>
    if m.calState ≠ 4 then m
    else
      let key := calKey r.item r.inst
      let m := (m.keepValues key (fun m => m.setSlots key (setAt (m.calSlots key) i (some ⟨r.temp, r.result⟩)))).flashWrite
      let m := m.onCalib (fun x => { x with run := { x.run with slot := none } })
      (m.calEnter 5).raise 0xC002 0 [(1, r.item), (2, r.inst), (1, i), (2, toUnsigned 16 r.temp)]

/-- CALIBRATION_SLOT_CLEAR (R498, R502). -/
def Mach.clearSlot (m : Mach) (key i : Nat) : Except Nat Mach :=
  if m.calState = 4 ∧ calKey m.calib.run.item m.calib.run.inst = key then .error abPrecondition
  else .ok (m.keepValues key (fun m => m.setSlots key (setAt (m.calSlots key) i none))).flashWrite

/-- The calibration sets are read at start: the newest copy whose CRC-32C matches, and with neither no slot, with 0xC004 (R497); 0xC003 tells
per item how many instances use their factory set (R498). `bad` names the instances whose newest copy does not match, and says whether the
older matches no more. -/
def Mach.readSets (m : Mach) (bad : List (Nat × Bool)) : Mach :=
  let m := each (bad.filter (fun b => calKeys.contains b.1)) m (fun m b =>
    let k := b.1
    let back := if b.2 then List.replicate 5 none else ((m.calib.older.find? (fun s => s.1 = k)).map Prod.snd).getD (List.replicate 5 none)
    let m := m.onCalib (fun x => { x with sets := putSlots x.sets k back })
    if b.2 then m.raise 0xC004 0 [(1, k / 1024), (2, k % 1024)] else m)
  let m := m.onCalib (fun x => { x with moving := [], kept := [], run := {} })
  let m := m.latchTemps.onCalib (fun x => { x with moving := [] })
  each (upTo 6) m (fun m item =>
    let n := ((upTo (itemCount item)).filter (fun i => (m.calSlots (calKey item i)).all Option.isNone)).length
    if n = 0 then m else m.raise 0xC003 0 [(1, item), (2, n)])

end Sys2Proof.Machine
end

