-- ==== Sys2Proof/Machine/Gwyn.lean ====
section
/-! DEFINITION. The Gwyn block codec as functions of bytes (R202 to R220): the block header, the code tables, the bitstream
decoder and the module's encoder. -/

namespace Sys2Proof.Machine

/-- A premultiplied RGBA sample of 12 bits a channel (R111). -/
structure Sample where
  r : Nat
  g : Nat
  b : Nat
  a : Nat
  deriving DecidableEq, Repr

/-- The 48-bit value of a sample (R111). -/
def Sample.word (s : Sample) : Nat := ((s.r * 4096 + s.g) * 4096 + s.b) * 4096 + s.a

/-- The sample of a 48-bit value. -/
def Sample.ofWord (v : Nat) : Sample :=
  ⟨v / 68719476736 % 4096, v / 16777216 % 4096, v / 4096 % 4096, v % 4096⟩

/-- Every channel holds 12 bits. -/
def Sample.wf (s : Sample) : Bool := s.r < 4096 && s.g < 4096 && s.b < 4096 && s.a < 4096

/-- The sample bytes, most significant first (R205). -/
def Sample.bytes (s : Sample) : Bytes := beBytes 6 s.word

/-- The bytes of a sample in module memory, least significant first (R111, R228). -/
def Sample.memBytes (s : Sample) : Bytes := leBytes 6 s.word

/-- Samples from their sample bytes; bytes short of a whole sample are left. -/
def samplesBE : Nat → Bytes → List Sample
  | 0, _ => []
  | n + 1, b => Sample.ofWord (ofBE (b.take 6)) :: samplesBE n (b.drop 6)

/-- Samples from their bytes in module memory. -/
def samplesLE : Nat → Bytes → List Sample
  | 0, _ => []
  | n + 1, b => Sample.ofWord (ofLE (b.take 6)) :: samplesLE n (b.drop 6)

/-! ### Check values -/

/-- One bit of the header check CRC-8, polynomial 0x07 (R203). -/
def crc8Bit (r : Nat) : Nat := if r ≥ 128 then (r * 2 % 256) ^^^ 7 else r * 2

/-- One byte of the header check. -/
def crc8Byte (r : Nat) (b : Byte) : Nat :=
  crc8Bit (crc8Bit (crc8Bit (crc8Bit (crc8Bit (crc8Bit (crc8Bit (crc8Bit (r ^^^ b.toNat))))))))

/-- The header check of R203. -/
def crc8 (b : Bytes) : Nat := b.foldl crc8Byte 0

/-- The CRC-32C register over sample bytes, before the final exclusive-or (R232). -/
def checkRegister (start : Nat) (l : List Sample) : Nat := (l.flatMap Sample.bytes).foldl (crcByte 0x82F63B78) start

/-- The check value of a block's samples (R205). -/
def checkValue (l : List Sample) : Nat := checkRegister 0xFFFFFFFF l ^^^ 0xFFFFFFFF

/-! ### The header (R203) -/

/-- A block header's fields. `mode` is 0 STORED or 1 CODED; `table` 0 to 7 static, 8 dynamic. -/
structure GwynHeader where
  layer : Nat
  col : Nat
  row : Nat
  mode : Nat
  table : Nat
  w : Nat
  h : Nat
  length : Nat
  deriving DecidableEq, Repr

/-- The 16 bytes of a header, with its check. -/
def GwynHeader.bytes (h : GwynHeader) : Bytes :=
  let v := (((((0x4757 * 256 + h.layer) * 64 + h.col) * 64 + h.row) * 4 + h.mode) * 16 + h.table) * 64 + (h.w - 1)
  let v := (v * 64 + (h.h - 1)) * 1024
  let b := beBytes 8 v ++ beBytes 2 h.length ++ beBytes 5 0
  b ++ [BitVec.ofNat 8 (crc8 b)]

/-- Why a block is invalid (R221, R230). -/
inductive GwynFail where
  | header | code | matchOutside | table | check | short
  deriving DecidableEq, Repr

/-- Reads a header: `none` when its magic, check, Mode, Table or Length is invalid (R203, R221). Reserved bits are ignored. -/
def readHeader (b : Bytes) : Option GwynHeader :=
  let v := ofBE (b.take 16)
  let h : GwynHeader :=
    { layer := field v 111 104, col := field v 103 98, row := field v 97 92, mode := field v 91 90,
      table := field v 89 86, w := field v 85 80 + 1, h := field v 79 74 + 1, length := field v 63 48 }
  if field v 127 112 = 0x4757 ∧ field v 7 0 = crc8 (b.take 15) ∧ h.mode ≤ 1 ∧ h.table ≤ 8 ∧
      (h.mode = 0 → h.table = 0) ∧ h.length % 4 = 0 ∧ 24 ≤ h.length ∧ h.length ≤ 24596 then some h
  else none

/-! ### Code tables (R214 to R216) -/

/-- The code lengths of the static tables 0 to 7 (R215). -/
def staticLengths : List (List Nat) :=
  [[1, 2, 3, 4, 5, 6, 7, 8, 9, 10, 11, 12, 13, 13], [2, 1, 3, 4, 5, 6, 7, 8, 9, 10, 11, 12, 13, 13],
   [3, 2, 2, 2, 4, 5, 6, 7, 8, 9, 10, 11, 12, 12], [4, 4, 3, 2, 2, 3, 4, 5, 6, 7, 8, 9, 10, 10],
   [5, 5, 4, 3, 2, 2, 3, 4, 5, 6, 7, 8, 9, 9], [6, 6, 5, 4, 3, 2, 2, 3, 4, 5, 6, 7, 8, 8],
   [7, 7, 7, 7, 5, 4, 3, 2, 2, 3, 4, 5, 6, 6], [2, 3, 4, 5, 6, 7, 8, 9, 10, 11, 12, 13, 13, 1]]

/-- A code: the symbol, its length and its bits. -/
structure Code where
  sym : Nat
  len : Nat
  bits : Nat
  deriving DecidableEq, Repr

/-- The symbols with a code, by length and then by symbol. -/
def sortedSymbols (lens : List Nat) : List (Nat × Nat) :=
  ((upTo 15).map (· + 1)).flatMap (fun n => ((upTo 14).filter (fun s => lens.getD s 0 = n)).map (fun s => (s, n)))

/-- Gives each sorted symbol its canonical code (R214): the next is the previous plus 1, shifted by the difference in
length. -/
def assignCodes : Nat → Nat → List (Nat × Nat) → List Code
  | _, _, [] => []
  | next, len, (s, n) :: l =>
    let c := next * 2 ^ (n - len)
    ⟨s, n, c⟩ :: assignCodes (c + 1) n l

/-- The canonical codes of a table (R214). -/
def canonical (lens : List Nat) : List Code :=
  match sortedSymbols lens with
  | [] => []
  | (s, n) :: l => assignCodes 0 n ((s, n) :: l)

/-- The Kraft sum of a table, in units of 2⁻¹⁵. -/
def kraft (lens : List Nat) : Nat := (lens.map (fun n => if n = 0 then 0 else 2 ^ (15 - n))).sum

/-- Whether a dynamic table is valid (R216). -/
def dynamicValid (lens : List Nat) : Bool :=
  kraft lens = 32768 || (lens.filter (· != 0)) = [1]

/-! ### The bitstream (R207 to R213) -/

/-- The bits of a run of bytes, each byte from bit 7 down (R207). -/
def bitsOf (b : Bytes) : List Bool :=
  b.flatMap (fun x => [x.getLsbD 7, x.getLsbD 6, x.getLsbD 5, x.getLsbD 4, x.getLsbD 3, x.getLsbD 2, x.getLsbD 1, x.getLsbD 0])

/-- The number some bits spell, most significant first. -/
def bitsVal (l : List Bool) : Nat := l.foldl (fun a b => a * 2 + bit b) 0

/-- `n` bits of `v`, most significant first. -/
def bitsN : Nat → Nat → List Bool
  | 0, _ => []
  | n + 1, v => v.testBit n :: bitsN n v

/-- Reads `n` bits; `short` when there are fewer. -/
def takeBits (n : Nat) (l : List Bool) : Except GwynFail (Nat × List Bool) :=
  if l.length < n then .error .short else .ok (bitsVal (l.take n), l.drop n)

/-- Reads one code: bit by bit until a code of the table matches; `code` once the bits begin no code of it. -/
def readSymbol (t : List Code) : Nat → Nat → Nat → List Bool → Except GwynFail (Nat × List Bool)
  | 0, _, _, _ => .error .code
  | fuel + 1, len, acc, l =>
    match l with
    | [] => .error .short
    | b :: l =>
      let acc := acc * 2 + bit b
      let len := len + 1
      match t.find? (fun c => c.len = len ∧ c.bits = acc) with
      | some c => .ok (c.sym, l)
      | none => if t.any (fun c => len < c.len && c.bits / 2 ^ (c.len - len) = acc) then readSymbol t fuel len acc l else .error .code

/-- The value of class `k` (R209), its extra field read from the bits. -/
def readExtra (k : Nat) (l : List Bool) : Except GwynFail (Nat × List Bool) :=
  if k ≤ 1 then .ok (k, l)
  else do
    let (x, l) ← takeBits (k - 1) l
    .ok (2 ^ (k - 1) + x, l)

/-- A class field of 4 bits and its value (R210). -/
def readClass (l : List Bool) : Except GwynFail (Nat × List Bool) := do
  let (k, l) ← takeBits 4 l
  if k > 12 then .error .code else readExtra k l

/-- A token of the bitstream (R210). -/
inductive Token where
  | literal (r g b a : Nat)
  | run (length offset : Nat)
  deriving DecidableEq, Repr

/-- A residual of a literal in the G, B or A position: symbol 13 there is out of place (R210). -/
def readResidual (t : List Code) (l : List Bool) : Except GwynFail (Nat × List Bool) := do
  let (k, l) ← readSymbol t 15 0 0 l
  if k = 13 then .error .code else readExtra k l

/-- Reads one token (R210). -/
def readToken (t : List Code) (l : List Bool) : Except GwynFail (Token × List Bool) := do
  let (k, l) ← readSymbol t 15 0 0 l
  if k = 13 then
    let (n, l) ← readClass l
    let (o, l) ← readClass l
    .ok (.run (n + 1) (o + 1), l)
  else
    let (r, l) ← readExtra k l
    let (g, l) ← readResidual t l
    let (b, l) ← readResidual t l
    let (a, l) ← readResidual t l
    .ok (.literal r g b a, l)

/-- The predictor of one channel at sample n of a block of width w (R211); `left`, `up` and `diag` are the neighbours. -/
def predict (n w left up diag : Nat) : Nat :=
  if n = 0 then 0
  else if n < w then left
  else if n % w = 0 then up
  else if diag ≥ max left up then min left up
  else if diag ≤ min left up then max left up
  else left + up - diag

/-- The channel value of a prediction and a residual code m (R211). -/
def unresidual (p m : Nat) : Nat :=
  let e : Int := if m % 2 = 1 then -(((m + 1) / 2 : Nat) : Int) else ((m / 2 : Nat) : Int)
  ((p : Int) + e + 4096).toNat % 4096

/-- The residual code m of a value under a prediction (R211). -/
def residual (p v : Nat) : Nat :=
  let d := (v + 4096 - p) % 4096
  if d < 2048 then 2 * d else 2 * (4096 - d) - 1

/-- The predictions of the four channels at the next sample, from the block's samples newest first. -/
def predictions (w : Nat) (done : List Sample) : Sample :=
  let n := done.length
  let z : Sample := ⟨0, 0, 0, 0⟩
  let l := done.getD 0 z
  let u := done.getD (w - 1) z
  let d := done.getD w z
  ⟨predict n w l.r u.r d.r, predict n w l.g u.g d.g, predict n w l.b u.b d.b, predict n w l.a u.a d.a⟩

/-- The sample a literal stands for (R211). -/
def literalSample (w : Nat) (done : List Sample) (r g b a : Nat) : Sample :=
  let p := predictions w done
  ⟨unresidual p.r r, unresidual p.g g, unresidual p.b b, unresidual p.a a⟩

/-- Copies element by element at offset `o` (R212); `done` holds the samples newest first. -/
def copyRun (o : Nat) : Nat → List Sample → List Sample
  | 0, done => done
  | n + 1, done => copyRun o n (done.getD (o - 1) ⟨0, 0, 0, 0⟩ :: done)

/-- Where a decoder stands inside a block: the samples so far, newest first, an interrupted match, and the bits left. -/
structure DecodePos where
  done : List Sample
  matchLeft : Nat
  matchOffset : Nat
  bits : List Bool
  deriving DecidableEq, Repr

/-- How a run of the decoder ends: at the block's last sample, with no room for the next sample, after the tokens it was
given, or with a failure. -/
inductive DecodeEnd where
  | whole | full | stopped
  | fail (f : GwynFail)
  deriving DecidableEq, Repr

/-- Decodes tokens until the block is whole, no further sample fits, or `tokens` tokens are done (R210 to R212, R231). A
literal that does not fit is not consumed; a match is consumed whole and its copy stops where the room ends. `total` is w·h,
`room` the number of samples that still fit. -/
def decodeTokens (t : List Code) (w total : Nat) : Nat → Nat → DecodePos → DecodePos × DecodeEnd
  | 0, _, p => (p, .stopped)
  | tokens + 1, room, p =>
    if p.matchLeft > 0 then
      let k := min p.matchLeft room
      let p := { p with done := copyRun p.matchOffset k p.done, matchLeft := p.matchLeft - k }
      if p.matchLeft > 0 then (p, .full)
      else decodeTokens t w total tokens (room - k) { p with matchOffset := 0 }
    else if p.done.length ≥ total then (p, .whole)
    else if room = 0 then (p, .full)
    else match readToken t p.bits with
      | .error f => (p, .fail f)
      | .ok (.literal r g b a, rest) =>
        decodeTokens t w total tokens (room - 1) { p with done := literalSample w p.done r g b a :: p.done, bits := rest }
      | .ok (.run n o, rest) =>
        if o ≤ p.done.length ∧ n ≤ total - p.done.length then
          let k := min n room
          let p := { p with done := copyRun o k p.done, matchLeft := n - k, matchOffset := if n = k then 0 else o, bits := rest }
          if n = k then decodeTokens t w total tokens (room - k) p else (p, .full)
        else (p, .fail .matchOutside)

/-- The table of a CODED block and the bits that follow it (R208, R216). -/
def openTable (h : GwynHeader) (bits : List Bool) : Except GwynFail (List Code × List Nat × List Bool) :=
  if h.table = 8 then
    if bits.length < 56 then .error .short
    else
      let lens := (upTo 14).map (fun i => bitsVal ((bits.drop (4 * i)).take 4))
      if dynamicValid lens then .ok (canonical lens, lens, bits.drop 56) else .error .table
  else .ok (canonical (staticLengths.getD h.table []), [], bits)

/-- Payload, padding and check value of a block, after its header: the payload with its padding (R202). -/
def bodyBytes (h : GwynHeader) (b : Bytes) : Bytes := slice 16 (h.length - 20) b

/-- The check value a block carries, in its last four bytes (R202). -/
def blockCheck (h : GwynHeader) (b : Bytes) : Nat := ofBE (slice (h.length - 4) 4 b)

/-- Decodes a whole block in one go, its header already read: its samples in order, or why it is invalid (R206 to R213,
R221). The check value is not compared here. -/
def decodeBody (h : GwynHeader) (b : Bytes) : Except GwynFail (List Sample) :=
  let body := bodyBytes h b
  let total := h.w * h.h
  if body.length + 20 < h.length then .error .short
  else if h.mode = 0 then
    if h.length ≠ 16 + 6 * total + (4 - 6 * total % 4) % 4 + 4 then .error .code
    else if (body.drop (6 * total)).any (· != 0) then .error .code
    else .ok (samplesBE total body)
  else match openTable h (bitsOf body) with
    | .error .short => .error .code
    | .error f => .error f
    | .ok (t, _, bits) =>
      match decodeTokens t h.w total (total + 1) total ⟨[], 0, 0, bits⟩ with
      | (p, .whole) =>
        if p.bits.any (fun x => x) ∨ p.bits.length ≥ 32 then .error .code else .ok p.done.reverse
      | (_, .fail .short) => .error .code
      | (_, .fail f) => .error f
      | (_, _) => .error .code

/-- Decodes a whole block with its check value: `check` when it differs. -/
def decodeBlock (b : Bytes) : Except GwynFail (GwynHeader × List Sample) :=
  if b.length < 16 then .error .short
  else match readHeader b with
    | none => .error .header
    | some h =>
      if b.length < h.length then .error .short
      else match decodeBody h b with
        | .error f => .error f
        | .ok l => if blockCheck h b = checkValue l then .ok (h, l) else .error .check

/-! ### The encoder (R217 to R220) -/

/-- How far a match of offset `o` reproduces the samples ahead (R218, R212): `ahead` the samples from n on, `done` those before,
newest first. -/
def matchLength (o : Nat) : List Sample → List Sample → Nat
  | [], _ => 0
  | s :: ahead, done =>
    if done.getD (o - 1) ⟨0, 0, 0, 0⟩ = s ∧ o ≤ done.length then 1 + matchLength o ahead (s :: done) else 0

/-- The candidate offsets at sample n, each once, smallest first (R218). -/
def candidates (w n : Nat) : List Nat :=
  (sortBy (fun a b => a ≤ b) ([1, 2, w - 1, w, w + 1, 2 * w].filter (fun o => 1 ≤ o ∧ o ≤ n))).eraseDups

/-- The best match at a sample: the longest, and on equal length the smallest offset (R218). -/
def bestMatch (w : Nat) (ahead done : List Sample) : Nat × Nat :=
  (candidates w done.length).foldl
    (fun (best : Nat × Nat) o => let n := matchLength o ahead done; if best.1 < n then (n, o) else best) (0, 0)

/-- The tokens of a block (R218). -/
def tokensOf (w : Nat) : Nat → List Sample → List Sample → List Token
  | 0, _, _ => []
  | fuel + 1, ahead, done =>
    match ahead with
    | [] => []
    | s :: rest =>
      let (n, o) := bestMatch w ahead done
      if n ≥ 3 then .run n o :: tokensOf w fuel (ahead.drop n) ((ahead.take n).reverse ++ done)
      else
        let p := predictions w done
        .literal (residual p.r s.r) (residual p.g s.g) (residual p.b s.b) (residual p.a s.a) ::
          tokensOf w fuel rest (s :: done)

/-- The class of a value (R209). -/
def classOf (v : Nat) : Nat := if v = 0 then 0 else Nat.log2 v + 1

/-- The extra field of a value: its bits below the leading one (R209). -/
def extraBits (v : Nat) : List Bool := bitsN (classOf v - 1) v

/-- The symbols a token uses. -/
def Token.symbols : Token → List Nat
  | .literal r g b a => [classOf r, classOf g, classOf b, classOf a]
  | .run _ _ => [13]

/-- The bits of a token besides its codes. -/
def Token.plainBits : Token → Nat
  | .literal r g b a => (classOf r - 1) + (classOf g - 1) + (classOf b - 1) + (classOf a - 1)
  | .run n o => 8 + (classOf (n - 1) - 1) + (classOf (o - 1) - 1)

/-- How often each of the 14 symbols occurs. -/
def symbolCounts (ts : List Token) : List Nat :=
  let l := ts.flatMap Token.symbols
  (upTo 14).map (fun s => l.count s)

/-- A node of Huffman's procedure: its weight, its order among equals (leaves by symbol, then joined nodes as made) and the
symbols below it. -/
structure HuffNode where
  weight : Nat
  order : Nat
  syms : List Nat
  deriving DecidableEq, Repr

/-- Whether a node comes before another in the choice of R219. -/
def HuffNode.before (x y : HuffNode) : Bool := x.weight < y.weight || (x.weight = y.weight && x.order ≤ y.order)

/-- Joins the two nodes of lowest weight until one is left, lengthening the codes of the symbols below (R219). -/
def huffJoin : Nat → Nat → List HuffNode → List Nat → List Nat
  | 0, _, _, lens => lens
  | fuel + 1, made, nodes, lens =>
    match sortBy HuffNode.before nodes with
    | x :: y :: rest =>
      let syms := x.syms ++ y.syms
      let lens := lens.zipIdx.map (fun p => if p.2 ∈ syms then p.1 + 1 else p.1)
      huffJoin fuel (made + 1) (⟨x.weight + y.weight, 14 + made, syms⟩ :: rest) lens
    | _ => lens

/-- The dynamic table of a block (R219). -/
def huffman (counts : List Nat) : List Nat :=
  let leaves := (upTo 14).filter (fun s => counts.getD s 0 > 0)
  match leaves with
  | [s] => (upTo 14).map (fun i => if i = s then 1 else 0)
  | _ => huffJoin 14 0 (leaves.map (fun s => ⟨counts.getD s 0, s, [s]⟩)) (List.replicate 14 0)

/-- The code bits of a block under a table. -/
def codeBits (counts lens : List Nat) : Nat := (List.zipWith (· * ·) counts lens).sum

/-- The table of fewest bits, the lowest number on equal counts (R219): the number, its lengths and its code bits with the 56
table bits of a dynamic one. -/
def chooseTable (counts : List Nat) : Nat × List Nat × Nat :=
  let dyn := huffman counts
  let all : List (Nat × List Nat × Nat) :=
    (upTo 8).map (fun i => (i, staticLengths.getD i [], codeBits counts (staticLengths.getD i []))) ++
      [(8, dyn, codeBits counts dyn + 56)]
  all.foldl (fun (best c : Nat × List Nat × Nat) => if c.2.2 < best.2.2 then c else best)
    (0, staticLengths.getD 0 [], codeBits counts (staticLengths.getD 0 []))

/-- The bits of a symbol's code. -/
def codeOf (t : List Code) (s : Nat) : List Bool :=
  match t.find? (fun c => c.sym = s) with
  | some c => bitsN c.len c.bits
  | none => []

/-- The bits of a value coded by class in a 4-bit field (R210). -/
def classBits (v : Nat) : List Bool := bitsN 4 (classOf v) ++ extraBits v

/-- The bits of a token (R210). -/
def Token.bits (t : List Code) : Token → List Bool
  | .literal r g b a => [r, g, b, a].flatMap (fun v => codeOf t (classOf v) ++ extraBits v)
  | .run n o => codeOf t 13 ++ classBits (n - 1) ++ classBits (o - 1)

/-- Bytes from bits, the last byte filled with zeros. -/
def bytesOfBits : Nat → List Bool → Bytes
  | 0, _ => []
  | n + 1, l => BitVec.ofNat 8 (bitsVal (l.take 8 ++ List.replicate (8 - l.length) false)) :: bytesOfBits n (l.drop 8)

/-- Fills a run of bytes to a multiple of four (R202). -/
def pad4 (b : Bytes) : Bytes := b ++ List.replicate ((4 - b.length % 4) % 4) 0

/-- The STORED form of a block (R206). -/
def storedBlock (layer col row w h : Nat) (l : List Sample) : Bytes :=
  let body := pad4 (l.flatMap Sample.bytes)
  (GwynHeader.bytes ⟨layer, col, row, 0, 0, w, h, 20 + body.length⟩) ++ body ++ beBytes 4 (checkValue l)

/-- The CODED form of a block (R207 to R212, R218, R219). -/
def codedBlock (layer col row w h : Nat) (l : List Sample) : Bytes :=
  let ts := tokensOf w (w * h + 1) l []
  let (n, lens, _) := chooseTable (symbolCounts ts)
  let t := canonical lens
  let bits := (if n = 8 then lens.flatMap (bitsN 4) else []) ++ ts.flatMap (Token.bits t)
  let body := pad4 (bytesOfBits ((bits.length + 7) / 8) bits)
  (GwynHeader.bytes ⟨layer, col, row, 1, n, w, h, 20 + body.length⟩) ++ body ++ beBytes 4 (checkValue l)

/-- The block the module's encoder emits: CODED when shorter than the stored form (R219). `mismatch` says that the self-verify
of R220 found a difference, on which the block is emitted STORED. -/
def encodeBlock (layer col row w h : Nat) (l : List Sample) (mismatch : Bool) : Bytes :=
  let s := storedBlock layer col row w h l
  if mismatch then s
  else
    let c := codedBlock layer col row w h l
    if c.length < s.length then c else s

/-- Where the tokens of an emitted block end: for each, the header with its dynamic table first, its last bit's place in the block and the
samples that the block then covers (R231). -/
def blockMarks (mode w h : Nat) (l : List Sample) : List (Nat × Nat) :=
  if mode = 0 then (128, 0) :: (upTo (w * h)).map (fun i => (176 + 48 * i, i + 1))
  else
    let ts := tokensOf w (w * h + 1) l []
    let (n, lens, _) := chooseTable (symbolCounts ts)
    let t := canonical lens
    let start := (if n = 8 then 184 else 128, 0)
    let covers (k : Token) : Nat := match k with
      | .literal _ _ _ _ => 1
      | .run n _ => n
    let all := ts.foldl (fun (a : List (Nat × Nat) × (Nat × Nat)) k =>
      let e := (a.2.1 + (k.bits t).length, a.2.2 + covers k)
      (e :: a.1, e)) ([start], start)
    all.1.reverse

/-- The width and height of the block in a grid position of a W × H image (R204). -/
def blockSize (W H col row : Nat) : Nat × Nat := (min 64 (W - 64 * col), min 64 (H - 64 * row))

/-- The grid positions of an image in row-major order (R217). -/
def blockGrid (W H : Nat) : List (Nat × Nat) :=
  (upTo ((H + 63) / 64)).flatMap (fun r => (upTo ((W + 63) / 64)).map (fun c => (c, r)))

end Sys2Proof.Machine
end

