-- ==== Sys2Proof/Machine/Codec.lean ====
section
/-! DEFINITION. Codec engines and host jobs (R222 to R235): job start, abort, the work of one block, end states and resume
records. -/

namespace Sys2Proof.Machine

/-- Base of the codec job region (R228, 0x7100:07). -/
def jobBase : Nat := 0x2A0000000

/-- Size of the codec job region (R228). -/
def jobRegion : Nat := 0x10000000

/-- Host encode jobs are held by shedding stage S2 or throttle T2 and deeper (R235, R472). -/
def Mach.encodeHeld (m : Mach) : Bool := m.objN 0x2000 6 ≥ 2 || m.objN 0x2200 1 ≥ 2

/-- Host decode jobs are held by shedding stage S5 or throttle T3 and deeper (R235, R472). -/
def Mach.decodeHeld (m : Mach) : Bool := m.objN 0x2000 6 ≥ 5 || m.objN 0x2200 1 ≥ 3

/-- The job's slot. -/
def Mach.job (m : Mach) (j : Nat) : Job := m.codec.jobs.getD j {}

/-- Changes a job's slot. -/
def Mach.onJob (m : Mach) (j : Nat) (f : Job → Job) : Mach := { m with codec := { m.codec with jobs := modAt m.codec.jobs j f } }

/-- The state of a job (0x7110+j:0D). -/
def Mach.jobState (m : Mach) (j : Nat) : Nat := m.objN (0x7110 + j) 0x0D

/-- Usable encode engines (0x7100:06): those IN_USE. -/
def Mach.encodeUsable (m : Mach) : Nat := ((upTo 4).filter (fun i => m.objN (0x7140 + i) 1 = 1)).length

/-- Decode engines in a state (0x7120+e:01). -/
def Mach.decodeCount (m : Mach) (st : Nat) : Nat := ((upTo 20).filter (fun e => m.objN (0x7120 + e) 1 = st)).length

/-- The resume record of a job (R232), 64 bytes, little-endian. -/
def JobPos.record (p : JobPos) (kind : Nat) : Bytes :=
  leBytes 4 (if kind = 0 then 0x47530001 else 0x47530002) ++ leBytes 1 p.phase ++ [0] ++ leBytes 2 p.sample ++
    leBytes 8 p.inBits ++ leBytes 8 p.outBytes ++ leBytes 8 p.origin ++ leBytes 2 p.matchLeft ++
    leBytes 2 p.matchOffset ++ leBytes 4 p.check ++ p.header ++ p.dynamic ++ [0]

/-- The position a resume record holds (R232). -/
def JobPos.ofRecord (b : Bytes) : JobPos :=
  { phase := ofLE (slice 4 1 b), sample := ofLE (slice 6 2 b), inBits := ofLE (slice 8 8 b), outBytes := ofLE (slice 16 8 b),
    origin := ofLE (slice 24 8 b), matchLeft := ofLE (slice 32 2 b), matchOffset := ofLE (slice 34 2 b),
    check := ofLE (slice 36 4 b), header := slice 40 16 b, dynamic := slice 56 7 b }

/-- Shows a job's counts in its objects (0x7110+j:0F, :10). -/
def Mach.showJob (m : Mach) (j : Nat) : Mach :=
  (m.setN (0x7110 + j) 0x0F (m.job j).pos.inBits).setN (0x7110 + j) 0x10 (m.job j).pos.outBytes

/-- The host job that a piece of work is for. -/
def EngineWork.job? (w : EngineWork) : Option Nat :=
  match w with
  | .job j => some j
  | .jobAgain j _ => some j
  | _ => none

/-- Every engine that works on a job is idle. -/
def Mach.freeJob (m : Mach) (j : Nat) : Mach :=
  let off (w : EngineWork) : Bool := w.job? = some j
  { m with codec := { m.codec with
      decode := m.codec.decode.map (fun w => if off w then .idle else w)
      encode := m.codec.encode.map (fun w => if off w then .idle else w)
      redo := m.codec.redo.filter (fun w => !off w) } }

/-- Writes a job's resume record (R230). -/
def Mach.writeRecord (m : Mach) (j : Nat) : Eff :=
  m.store (jobBase + (m.job j).recOff) ((m.job j).pos.record (m.job j).kind)

/-- A job reaches a state (R230): its counts shown, its record written on OUTPUT_FULL, INPUT_SHORT, ABORTED and PAUSED, event
0xB006 on FAILED (R234). A job that ends leaves the order. -/
def Mach.jobEnter (m : Mach) (j st reason : Nat) : Eff :=
  let m := ((m.setN (0x7110 + j) 0x0D st).setN (0x7110 + j) 0x0E reason).showJob j
  let m := m.freeJob j
  let m := if st ≥ 4 then { m with codec := { m.codec with order := m.codec.order.filter (· != j) } } else m
  let m := if st = 7 then m.raise 0xB006 j [(1, j), (1, reason), (8, (m.job j).pos.inBits)] else m
  if st = 3 ∨ st = 5 ∨ st = 6 ∨ st = 8 then m.writeRecord j else .of m

/-! ### Start and abort -/

/-- Whether a buffer lies in the job region (R229). -/
def inJobRegion (off len : Nat) : Bool := off + len ≤ jobRegion

/-- The bytes an ENCODE image spans. -/
def imageSpan (w h pitch : Nat) : Nat := (h - 1) * pitch + w * 6

/-- Why a start is refused (R229, R461), if it is. -/
def Mach.jobRefused (m : Mach) (c : Ctx) (j : Nat) : Option Nat :=
  let o (s : Nat) := m.objN (0x7110 + j) s
  let st := m.jobState j
  let enc := o 1 = 1
  let inputFits := if enc then inJobRegion (o 2) (imageSpan (o 7) (o 8) (o 9)) else inJobRegion (o 2) (o 3)
  if m.power = 2 then some abPower
  else if 1 ≤ st ∧ st ≤ 3 then some abPrecondition
  else if !inputFits ∨ !inJobRegion (o 4) (o 5) ∨ !inJobRegion (o 6) 64 ∨ o 6 % 64 ≠ 0 then some abPrecondition
  else if enc ∧ (o 7 = 0 ∨ 4096 < o 7 ∨ o 8 = 0 ∨ 2160 < o 8 ∨ o 9 < 6 * o 7) then some abPrecondition
  else if o 0x0B = 1 ∧ !m.poisonedAt (jobBase + o 6) 64 ∧ memLE c.mem (jobBase + o 6) 4 ≠ (if enc then 0x47530002 else 0x47530001) then
    some abInconsistent
  else none

/-- The job as its start latches it (R229, R232). -/
def Mach.latchJob (m : Mach) (c : Ctx) (j : Nat) : Job :=
  let o (s : Nat) := m.objN (0x7110 + j) s
  let pos : JobPos := if o 0x0B = 1 then .ofRecord (memLoad c.mem (jobBase + o 6) 64) else {}
  { kind := o 1, inOff := o 2, inLen := o 3, outOff := o 4, outCap := o 5, recOff := o 6, width := o 7, height := o 8,
    pitch := o 9, layer := o 0x0A, pos := pos, inBase := pos.inBits, outBase := pos.outBytes }

/-- A job start accepted (R229, R230): QUEUED; FAILED with reason 7 where no encode engine is usable for an ENCODE job (R227), or where the
resume record that it reads is poison (R234). -/
def Mach.startJob (m : Mach) (c : Ctx) (j : Nat) : Eff :=
  let lost : Bool := m.objN (0x7110 + j) 0x0B = 1 && m.poisonedAt (jobBase + m.objN (0x7110 + j) 6) 64
  let job := m.latchJob c j
  let job := if lost then { job with pos := {}, inBase := 0, outBase := 0 } else job
  let m := m.onJob j (fun _ => job)
  let m := m.sets (0x7110 + j) [(0x0D, 1), (0x0E, 0), (0x11, 0)]
  let m := { m with codec := { m.codec with order := m.codec.order.filter (· != j) ++ [j] } }
  let m := m.showJob j
  if lost ∨ (job.kind = 1 ∧ m.encodeUsable = 0) then m.jobEnter j 7 7 else .of m

/-! ### One block of a DECODE job -/

/-- What a stretch of decoding leaves: the position, the samples written in order, the state the job ends in (if it ends) with
its reason, and whether a block was completed. -/
structure JobStep where
  pos : JobPos
  new : List Sample := []
  stop : Option (Nat × Nat) := none
  block : Bool := false

/-- The bits of a run of bytes from bit `k` on. -/
def bitsFrom (b : Bytes) (k : Nat) : List Bool := (bitsOf (b.drop (k / 8))).drop (k % 8)

/-- How the decoder's end inside a block ends the job: `more` says that the input ended there (R230, R231). -/
def failState (f : GwynFail) (inputEnded : Bool) : Nat × Nat :=
  match f with
  | .header => (7, 2)
  | .code => (7, 3)
  | .matchOutside => (7, 4)
  | .table => (7, 5)
  | .check => (7, 1)
  | .short => if inputEnded then (6, 0) else (7, 3)

/-- Opens the next block: its header, with its dynamic table, is one token (R231). -/
def openBlock (rest : Bytes) (pos : JobPos) (outAt : Nat) : Except (Nat × Nat) JobPos :=
  if rest.length < 16 then .error (6, 0)
  else match readHeader rest with
    | none => .error (7, 2)
    | some h =>
      let dyn := h.mode = 1 ∧ h.table = 8
      if dyn ∧ rest.length < 23 then .error (6, 0)
      else if dyn ∧ !dynamicValid ((upTo 14).map (fun i => bitsVal (((bitsOf (slice 16 7 rest)).drop (4 * i)).take 4))) then
        .error (7, 5)
      else .ok { pos with
        phase := 1, sample := 0, inBits := pos.inBits + 128 + (if dyn then 56 else 0), origin := outAt, matchLeft := 0,
        matchOffset := 0, check := 0xFFFFFFFF, header := rest.take 16,
        dynamic := if dyn then slice 16 7 rest else List.replicate 7 0 }

/-- The code table of the block a position is in. -/
def JobPos.codes (p : JobPos) (h : GwynHeader) : List Code :=
  if h.table = 8 then canonical ((upTo 14).map (fun i => bitsVal (((bitsOf p.dynamic).drop (4 * i)).take 4)))
  else canonical (staticLengths.getD h.table [])

/-- The end of a block whose samples are whole: zero trailing bits and padding up to the next multiple of 32 bits, then the
check value (R202, R213). `left` is how many bits the header's length leaves before the check value, where the block was opened in
this run. -/
def closeBlock (bits : List Bool) (left : Option Nat) (pos : JobPos) (new : List Sample) : JobStep :=
  let pad := (32 - pos.inBits % 32) % 32
  if left.isSome ∧ left ≠ some pad then { pos := pos, new := new, stop := some (7, 3) }
  else if bits.length < pad + 32 then { pos := pos, new := new, stop := some (6, 0) }
  else if (bits.take pad).any (fun x => x) then { pos := pos, new := new, stop := some (7, 3) }
  else
    let v := bitsVal ((bits.drop pad).take 32)
    if v ≠ pos.check ^^^ 0xFFFFFFFF then { pos := pos, new := new, stop := some (7, 1) }
    else { pos := { pos with phase := 0, sample := 0, inBits := pos.inBits + pad + 32 }, new := new, block := true }

/-- Decodes inside a block: `bits` is the input from the position on, `prior` the block's samples so far, newest first, `room`
the samples that still fit, `tokens` how many tokens may be taken, `limit` the bits up to the block's check value where the block
was opened in this run. -/
def decodeInside (bits : List Bool) (limit : Option Nat) (pos : JobPos) (prior : List Sample) (room tokens : Nat) : JobStep :=
  match readHeader pos.header with
  | none => { pos := pos, stop := some (7, 2) }
  | some h =>
    let total := h.w * h.h
    let own := match limit with
      | some n => bits.take n
      | none => bits
    let inputEnded := match limit with
      | some n => bits.length < n
      | none => true
    let finish (done : List Sample) (matchLeft matchOffset used : Nat) (e : DecodeEnd) : JobStep :=
      let new := (done.take (done.length - prior.length)).reverse
      let pos := { pos with
        phase := if matchLeft > 0 then 2 else 1, sample := done.length, inBits := pos.inBits + used,
        matchLeft := matchLeft, matchOffset := matchOffset, check := checkRegister pos.check new }
      match e with
      | .whole => closeBlock (bits.drop used) (limit.map (· - used)) pos new
      | .full => { pos := pos, new := new, stop := some (5, 0) }
      | .stopped => { pos := pos, new := new }
      | .fail f => { pos := pos, new := new, stop := some (failState f inputEnded) }
    if h.mode = 0 then
      let n := min (min (total - prior.length) room) (min tokens (own.length / 48))
      let new := (upTo n).map (fun i => Sample.ofWord (bitsVal ((own.drop (48 * i)).take 48)))
      let done := new.reverse ++ prior
      if prior.length + n = total then finish done 0 0 (48 * n) .whole
      else if n = room then finish done 0 0 (48 * n) .full
      else if n = tokens then finish done 0 0 (48 * n) .stopped
      else finish done 0 0 (48 * n) (.fail .short)
    else
      let (p, e) := decodeTokens (pos.codes h) h.w total tokens room ⟨prior, pos.matchLeft, pos.matchOffset, own⟩
      finish p.done p.matchLeft p.matchOffset (own.length - p.bits.length) e

/-- Decodes from a job's position to the end of the present block, or of the next one when the position is a block boundary
(R229, R231). `input` is the whole input buffer. -/
def decodeStretch (input : Bytes) (job : Job) (prior : List Sample) (tokens : Nat) : JobStep :=
  let pos := job.pos
  let at_ (p : JobPos) := p.inBits - job.inBase / 8 * 8
  let written := pos.outBytes - job.outBase
  let room := (job.outCap - written) / 6
  if pos.phase = 0 then
    let rest := input.drop (at_ pos / 8)
    if rest = [] then { pos := pos, stop := some (4, 0) }
    else if tokens = 0 then { pos := pos }
    else if room = 0 then { pos := pos, stop := some (5, 0) }
    else match openBlock rest pos (job.outOff + written) with
      | .error st => { pos := pos, stop := some st }
      | .ok p =>
        let length := ((readHeader rest).map GwynHeader.length).getD 0
        decodeInside (bitsFrom input (at_ p)) (some (8 * length - 32 - (p.inBits - pos.inBits))) p prior room (tokens - 1)
  else decodeInside (bitsFrom input (at_ pos)) none pos prior room tokens

/-- A stretch of decoding; the job is COMPLETE once the input ends at the boundary of the block just completed (R230). -/
def decodeStep (input : Bytes) (job : Job) (prior : List Sample) (tokens : Nat) : JobStep :=
  let st := decodeStretch input job prior tokens
  if st.block ∧ input.length ≤ (st.pos.inBits - job.inBase / 8 * 8) / 8 then { st with stop := some (4, 0) } else st

/-- The samples of the present block that a DECODE job has written, newest first, read back at the block origin (R232). -/
def Mach.priorSamples (m : Mach) (c : Ctx) (j : Nat) : List Sample :=
  let p := (m.job j).pos
  if p.phase = 0 then [] else (samplesLE p.sample (memLoad c.mem (jobBase + p.origin) (6 * p.sample))).reverse

/-- Charges a decode engine with a fault (R226): FAULTED until the next ledger change, the block that it has in progress for another engine,
event 0xB002. -/
def Mach.engineFault (m : Mach) (e cause : Nat) : Mach :=
  let w := m.codec.decode.getD e .idle
  let again := if w = .idle ∨ w = .spent then [] else [w]
  let m := { m with codec := { m.codec with decode := setAt m.codec.decode e .idle, redo := m.codec.redo ++ again } }
  let m := if m.objN (0x7120 + e) 1 = 1 then m.setN (0x7120 + e) 1 2 else m
  let m := (m.bump (0x7120 + e) 3).setN (0x7120 + e) 4 cause
  m.raise 0xB002 e [(1, e), (1, cause)]

/-- Counts a block decoded by an engine (0x7103:01, 0x7120+e:02). -/
def Mach.countDecoded (m : Mach) (e : Nat) : Mach := (m.bump 0x7103 1).bump (0x7120 + e) 2

/-- What a stretch of decoding reads: the input from the job's position to where the stretch ends, with the header, table, token or check value
that it failed on, and the samples of the block that are read back. -/
def Job.stretchRuns (job : Job) (st : JobStep) : List (Nat × Nat) :=
  let at_ (p : JobPos) : Nat := p.inBits - job.inBase / 8 * 8
  let o := at_ job.pos / 8
  let past := match st.stop with
    | some (7, _) => 23
    | some (6, _) => job.inLen
    | _ => 0
  (jobBase + job.inOff + o, min ((at_ st.pos + 7) / 8 + past) job.inLen - o) ::
    (if job.pos.phase = 0 then [] else [(jobBase + job.pos.origin, 6 * job.pos.sample)])

/-- Whether what a stretch of decoding has read is poison (R234). -/
def Mach.decodePoison (m : Mach) (job : Job) (st : JobStep) : Bool := (job.stretchRuns st).any (fun r => m.poisonedAt r.1 r.2)

/-- A stretch of a DECODE job's work: at most `tokens` tokens, ending at the latest with the present block. Poison in what it reads fails
the job with reason 7 (R234). -/
def Mach.decodeWork (m : Mach) (c : Ctx) (j tokens : Nat) : JobStep :=
  let job := m.job j
  let st := decodeStep (memLoad c.mem (jobBase + job.inOff) job.inLen) job (m.priorSamples c j) tokens
  if m.decodePoison job st then { pos := job.pos, stop := some (7, 7) } else st

/-- An injection that waits for the next read of a channel acts on what a stretch of decoding on engine `e` reads (R523). -/
def Mach.strikeDecode (m : Mach) (c : Ctx) (j e tokens : Nat) : Mach :=
  if m.poisonWaits then m.strike (sourceBase 4 + e) ((m.job j).stretchRuns (m.decodeWork c j tokens)) else m

/-- What a stretch of decoding leaves: its samples in the output, the job's position, its counts. -/
def Mach.keepWork (m : Mach) (j : Nat) (st : JobStep) : Eff :=
  let job := m.job j
  let at_ := job.outOff + (job.pos.outBytes - job.outBase)
  let bytes := st.new.flatMap Sample.memBytes
  let m := m.reads (sourceBase 4) [(jobBase + job.inOff + job.pos.inBits / 8, (st.pos.inBits - job.pos.inBits) / 8)]
  let e := if bytes = [] then Eff.of m else m.store (jobBase + at_) bytes
  let e := e.on (fun m => m.onJob j (fun x => { x with pos := { st.pos with outBytes := job.pos.outBytes + bytes.length } }))
  e.on (fun m => (if st.block then m.bump (0x7110 + j) 0x11 else m).showJob j)

/-- A job keeps a stretch of decoding and enters the state that ends it, if any. -/
def Mach.takeWork (m : Mach) (j : Nat) (st : JobStep) : Eff :=
  match st.stop with
  | none => m.keepWork j st
  | some (s, r) => (m.keepWork j st).then_ (fun m => m.jobEnter j s r)

/-! ### One block of an ENCODE job -/

/-- The samples of a block of an ENCODE job's image. -/
def imageBlock (c : Ctx) (job : Job) (col row w h : Nat) : List Sample :=
  (upTo h).flatMap (fun y =>
    samplesLE w (memLoad c.mem (jobBase + job.inOff + (64 * row + y) * job.pitch + 64 * col * 6) (6 * w)))

/-- The index of the next block of an ENCODE job: that of the recorded header inside a block, else the first whose samples are
not yet counted. -/
def Job.nextBlock (job : Job) : Nat :=
  let grid := blockGrid job.width job.height
  if job.pos.phase ≠ 0 then
    let h := ofBE (job.pos.header.take 16)
    field h 97 92 * ((job.width + 63) / 64) + field h 103 98
  else
    let sizes := grid.map (fun p => let s := blockSize job.width job.height p.1 p.2; 48 * s.1 * s.2)
    ((upTo grid.length).filter (fun i => (sizes.take (i + 1)).sum ≤ job.pos.inBits)).length

/-- An encode engine is faulted (R227): FAULTED until the next ledger change, its work for the others to take up again; with no engine
usable the host encode jobs not ended are FAILED, which writes no record. -/
def Mach.encodeFault (m : Mach) (i cause : Nat) : Mach :=
  if m.objN (0x7140 + i) 1 ≠ 1 then m
  else
    let m := (m.setN (0x7140 + i) 1 2).raise 0xB005 i [(1, i), (1, cause)]
    let m := { m with codec := { m.codec with encode := setAt m.codec.encode i .idle } }
    if 0 < m.encodeUsable then m
    else each (upTo 8) m (fun m j =>
      if (m.job j).kind = 1 ∧ (m.jobState j = 1 ∨ m.jobState j = 2) then (m.jobEnter j 7 7).m else m)

/-- A self-verify mismatch is counted, with event 0xB001; the third within 60 s faults the engine (R220, R227, R237). -/
def Mach.countMismatch (m : Mach) (i user col row : Nat) (mismatch : Bool) : Mach :=
  if !mismatch then m
  else
    let m := (m.bump 0x7103 5).bump (0x7140 + i) 3
    let m := m.raise 0xB001 i [(1, i), (1, user), (1, col), (1, row)]
    let recent := m.now :: (m.codec.mismatches.getD i []).filter (fun t => m.now < t + sec 60)
    let m := { m with codec := { m.codec with mismatches := setAt m.codec.mismatches i recent } }
    if recent.length ≥ 3 then m.encodeFault i 2 else m

/-- A block leaves an encode engine (R219, R220, R227, R237): counted, with what its self-verify found. -/
def Mach.countEncoded (m : Mach) (i user col row : Nat) (stored mismatch : Bool) : Mach :=
  let m := (m.bump 0x7103 3).bump (0x7140 + i) 2
  let m := if stored then m.bump 0x7103 4 else m
  m.countMismatch i user col row mismatch

/-- The self-verify of a block that an engine has encoded (R219, R220): the bytes that the engine releases, and whether the compare failed.
Only a CODED block has a form to compare; an injection waits for the next one (R523). -/
def Mach.selfVerify (m : Mach) (i : Nat) (mismatch : Bool) (layer col row w h : Nat) (l : List Sample) : Mach × Bytes × Bool :=
  let plain := encodeBlock layer col row w h l false
  let coded : Bool := ((readHeader plain).map GwynHeader.mode).getD 0 = 1
  let hit := coded && m.armedAt 7 i
  let wrong := coded && (mismatch || hit)
  (if hit then m.acted else m, if wrong then storedBlock layer col row w h l else plain, wrong)

/-- Whether a block is in STORED mode. -/
def isStored (b : Bytes) : Bool := ((readHeader b).map GwynHeader.mode).getD 0 = 0

/-- The position of an ENCODE job that stops with `cut` bytes of its present block written (R231, R232): sample index and running check are
those of the tokens that lie whole within these bytes (DEDUCED, log entry 62). -/
def JobPos.inside (p : JobPos) (b : Bytes) (w h : Nat) (l : List Sample) (cut : Nat) : JobPos :=
  let mode := ((readHeader b).map GwynHeader.mode).getD 0
  let n := (((blockMarks mode w h l).takeWhile (fun k => k.1 ≤ 8 * cut)).getLast?.map Prod.snd).getD 0
  let dyn : Bool := mode = 1 && ((readHeader b).map GwynHeader.table).getD 0 = 8
  { p with
    phase := if cut = 0 then 0 else 1, sample := n, origin := cut, check := checkRegister 0xFFFFFFFF (l.take n), header := b.take 16
    dynamic := if dyn then slice 16 7 b else List.replicate 7 0 }

/-- The present block of a RUNNING ENCODE job: its index, grid place and size, and its samples. -/
def Mach.encodeTarget (m : Mach) (c : Ctx) (j : Nat) : Nat × (Nat × Nat) × (Nat × Nat) × List Sample :=
  let job := m.job j
  let i := job.nextBlock
  let p := (blockGrid job.width job.height).getD i (0, 0)
  let s := blockSize job.width job.height p.1 p.2
  (i, p, s, imageBlock c job p.1 p.2 s.1 s.2)

/-- The runs of memory that hold the samples of an ENCODE job's block. -/
def Job.blockRuns (job : Job) (p s : Nat × Nat) : List (Nat × Nat) :=
  (upTo s.2).map (fun y => (jobBase + job.inOff + (64 * p.2 + y) * job.pitch + 64 * p.1 * 6, 6 * s.1))

/-- Whether the samples of an ENCODE job's block are poison (R234). -/
def Mach.encodePoison (m : Mach) (j : Nat) (p s : Nat × Nat) : Bool :=
  ((m.job j).blockRuns p s).any (fun r => m.poisonedAt r.1 r.2)

/-- An ENCODE job writes its present block up to byte `cut`, as far as its output has room (R231). A block written whole moves the job to
the next; one cut short leaves its position inside it. The flag says that the output was exhausted. -/
def Mach.emitBlock (m : Mach) (j : Nat) (b : Bytes) (s : Nat × Nat) (l : List Sample) (cut : Nat) : Eff × Bool :=
  let job := m.job j
  let skip := if job.pos.phase = 0 then 0 else job.pos.origin
  let room := job.outCap - (job.pos.outBytes - job.outBase)
  let part := ((b.take cut).drop skip).take room
  let done := skip + part.length
  let at_ := job.outOff + (job.pos.outBytes - job.outBase)
  let p := { job.pos with outBytes := job.pos.outBytes + part.length }
  let e := if part = [] then Eff.of m else m.store (jobBase + at_) part
  if done = b.length then
    let p : JobPos := { p with
      phase := 0, sample := 0, origin := 0, inBits := p.inBits + 48 * s.1 * s.2, check := 0xFFFFFFFF, header := List.replicate 16 0
      dynamic := List.replicate 7 0 }
    (e.on (fun m => ((m.onJob j (fun x => { x with pos := p })).bump (0x7110 + j) 0x11).showJob j), false)
  else (e.on (fun m => m.onJob j (fun x => { x with pos := p.inside b s.1 s.2 l done })), done < cut)

/-- A running ENCODE job finishes a block on an engine (R220, R231): the block's bytes go to the output as far as they fit. -/
def Mach.runEncode (m : Mach) (c : Ctx) (j engine : Nat) (mismatch : Bool) : Eff × Bool :=
  let job := m.job j
  let (i, p, s, l) := m.encodeTarget c j
  let n := (blockGrid job.width job.height).length
  let m := if i < n then m.strike (sourceBase 5 + engine) (job.blockRuns p s) else m
  if n ≤ i then (m.jobEnter j (if job.pos.phase = 0 then 4 else 7) (if job.pos.phase = 0 then 0 else 6), true)
  else if m.encodePoison j p s then (m.jobEnter j 7 7, true)
  else
    let (m, b, wrong) := m.selfVerify engine mismatch job.layer p.1 p.2 s.1 s.2 l
    let m := m.reads (sourceBase 5 + engine) (job.blockRuns p s)
    let count (m : Mach) : Mach := m.countEncoded engine 0 p.1 p.2 (isStored b) wrong
    if job.pos.phase ≠ 0 ∧ b.take 16 ≠ job.pos.header then ((m.jobEnter j 7 6).on count, true)
    else
      let (e, full) := m.emitBlock j b s l b.length
      if full then ((e.then_ (fun m => m.jobEnter j 5 0)).on count, true)
      else if i + 1 = n then ((e.then_ (fun m => m.jobEnter j 4 0)).on count, true)
      else (e.on count, false)

/-! ### Pause, resume, abort -/

/-- A job pauses at a block boundary (R235). -/
def Mach.pauseJob (m : Mach) (j : Nat) : Eff := m.jobEnter j 3 0

/-- Whether shedding or the throttle holds a job (R235, R472). -/
def Mach.jobHeld (m : Mach) (j : Nat) : Bool := if (m.job j).kind = 1 then m.encodeHeld else m.decodeHeld

/-- Every QUEUED, RUNNING or PAUSED job becomes ABORTED with its record written: on entry to P3 or P4 and in an orderly
shutdown (R235, R539). -/
def Mach.abortJobs (m : Mach) : Eff :=
  (upTo 8).foldl (fun e j => e.then_ (fun m =>
    if 1 ≤ m.jobState j ∧ m.jobState j ≤ 3 then m.jobEnter j 8 0 else .of m)) (.of m)

/-- The engine that works on a job. -/
def Mach.engineOf (m : Mach) (j : Nat) : Option Nat :=
  let l := if (m.job j).kind = 1 then m.codec.encode else m.codec.decode
  (upTo l.length).find? (fun e => ((l.getD e .idle).job?) = some j)

/-- A RUNNING DECODE job stops at its next token boundary (R233). A check value that differs is not judged any more: the job stops after the
block's last token. -/
def Mach.stopDecode (m : Mach) (c : Ctx) (j e tokens : Nat) : Eff :=
  let m := m.strikeDecode c j e tokens
  let st := m.decodeWork c j tokens
  let m := if st.block then m.countDecoded e else m
  match st.stop with
  | some (5, _) => m.takeWork j st
  | some (6, _) => m.takeWork j st
  | some (7, r) => if r = 1 then (m.keepWork j st).then_ (fun m => m.jobEnter j 8 0) else m.takeWork j st
  | _ => (m.keepWork j st).then_ (fun m => m.jobEnter j 8 0)

/-- A RUNNING ENCODE job stops at its next token boundary (R233), with the whole bytes of the tokens emitted so far written (R231). The block has
passed its self-verify before a byte of it is released (R220); whether that fails is a free value here (log entry 98). -/
def Mach.stopEncode (m : Mach) (c : Ctx) (j e tokens : Nat) : Eff :=
  let job := m.job j
  let (i, p, s, l) := m.encodeTarget c j
  let ends : Bool := tokens = 0 || decide ((blockGrid job.width job.height).length ≤ i)
  let m := if ends then m else m.strike (sourceBase 5 + e) (job.blockRuns p s)
  if ends then m.jobEnter j 8 0
  else if m.encodePoison j p s then m.jobEnter j 7 7
  else
    let (m, b, wrong) := m.draw.selfVerify e (Config.abortMismatch m.free) job.layer p.1 p.2 s.1 s.2 l
    let m := m.reads (sourceBase 5 + e) (job.blockRuns p s)
    if job.pos.phase ≠ 0 ∧ b.take 16 ≠ job.pos.header then (m.jobEnter j 7 6).on (fun m => m.countMismatch e 0 p.1 p.2 wrong)
    else
      let skip := if job.pos.phase = 0 then 0 else job.pos.origin
      let marks := blockMarks (if isStored b then 0 else 1) s.1 s.2 l
      let taken := (marks.takeWhile (fun k => k.1 ≤ 8 * skip)).length + tokens
      let cut := if marks.length < taken then b.length else max skip (((marks.getD (taken - 1) (0, 0)).1) / 8)
      let (f, full) := m.emitBlock j b s l cut
      let f := f.on (fun m => if cut = b.length ∧ !full then m.countEncoded e 0 p.1 p.2 (isStored b) wrong else m.countMismatch e 0 p.1 p.2 wrong)
      f.then_ (fun m => m.jobEnter j (if full then 5 else 8) 0)

/-- The abort of a job by its command (R233). `tokens` is how many further tokens of the present block the engine takes before it
stops at a token boundary. A job that the engine ends otherwise before that has ended so. -/
def Mach.abortJob (m : Mach) (c : Ctx) (j tokens : Nat) : Except Nat Eff :=
  let st := m.jobState j
  if st = 0 ∨ 4 ≤ st then .error abNothing
  else if st = 1 then .ok ((m.onJob j (fun x => { x with pos := {} })).jobEnter j 8 0)
  else match (if st = 2 then m.engineOf j else none) with
    | some e => .ok (if (m.job j).kind = 0 then m.stopDecode c j e tokens else m.stopEncode c j e tokens)
    | none => .ok (m.jobEnter j 8 0)

end Sys2Proof.Machine
end

