-- ==== Sys2Proof/Machine/Scene.lean ====
section
/-! DEFINITION. Scene input: contents and their blocks (R112 to R115, R123, R124), layer buffers and decode (R126, R127), descriptors
(R118 to R122), readiness (R125, R90 to R92), uploads (R128 to R132) and the clip store (R133 to R138). -/

namespace Sys2Proof.Machine

/-! ### Layers and buffers -/

/-- A video layer. -/
def Mach.layer (m : Mach) (k : Nat) : VLayer := m.scene.layers.getD k {}

/-- Changes a video layer. -/
def Mach.onLayer (m : Mach) (k : Nat) (f : VLayer → VLayer) : Mach :=
  { m with scene := { m.scene with layers := modAt m.scene.layers k f } }

/-- The descriptor in force of a video layer. -/
def Mach.vdesc (m : Mach) (k : Nat) : VDesc := m.scene.vdesc.getD k {}

/-- The descriptor in force of a graphic layer. -/
def Mach.gdesc (m : Mach) (g : Nat) : GDesc := m.scene.gdesc.getD g {}

/-- Base address of buffer `b` of video layer `k` (R257). -/
def layerBase (k b : Nat) : Nat := 0xA0000000 + (2 * k + b) * 54525952

/-- Row pitch of a source image (R111). -/
def pitchOf (w : Nat) : Nat := (w * 6 + 63) / 64 * 64

/-- Address of a sample of a source image (R111). -/
def sampleAt (base w x y : Nat) : Nat := base + y * pitchOf w + x * 6

/-- Whether a buffer of a layer is busy (R127). -/
def VLayer.isBusy (x : VLayer) (b : Nat) : Bool := x.busy.any (fun p => p.1 = b)

/-- The buffer that decode may write: the one without the newest complete content (R127). -/
def VLayer.target (x : VLayer) : Nat :=
  match x.newest with
  | some 0 => 1
  | some _ => 0
  | none => if x.isBusy 0 then 1 else 0

/-- Whether decode of a layer may start into its buffer: not busy, and no other content is being written (R127). -/
def VLayer.writable (x : VLayer) : Bool := !x.isBusy x.target && x.pending.all (fun c => c.buf.isNone)

/-- Marks a buffer as read for a heat (R127). -/
def Mach.markBusy (m : Mach) (k b h : Nat) : Mach := m.onLayer k (fun x => { x with busy := addNew x.busy (b, h) })

/-- Buffers stop being busy for a heat (R127, R178). -/
def Mach.freeBuffers (m : Mach) (h : Nat) : Mach :=
  { m with
    scene := { m.scene with layers := m.scene.layers.map (fun x => { x with busy := x.busy.filter (fun p => p.2 != h) }) }
    outs := { m.outs with graphics := m.outs.graphics.map (fun g => { g with busy := g.busy.filter (fun p => p.2 != h) }) } }

/-! ### Bytes of a content -/

/-- Whether a byte of a content was received. -/
def Content.has (c : Content) (i : Nat) : Bool := c.runs.any (fun r => r.1 ≤ i && i < r.1 + r.2.length)

/-- The received byte at an offset. -/
def Content.byte? (c : Content) (i : Nat) : Option Byte :=
  match c.runs.find? (fun r => r.1 ≤ i && i < r.1 + r.2.length) with
  | some r => r.2[i - r.1]?
  | none => none

/-- A run of bytes of a content, when all of it was received. -/
def Content.read? (c : Content) (o n : Nat) : Option Bytes := (upTo n).mapM (fun i => c.byte? (o + i))

/-- Bytes received. -/
def Content.received (c : Content) : Nat := (c.runs.map (fun r => r.2.length)).sum

/-- The sub-runs of a run of bytes that were not received before: the first copy is kept (R114). -/
def Content.newRuns (c : Content) : Nat → Bytes → List (Nat × Bytes)
  | _, [] => []
  | o, b :: bs =>
    let rest := c.newRuns (o + 1) bs
    if c.has o then rest
    else match rest with
      | (p, r) :: more => if p = o + 1 then (o, b :: r) :: more else (o, [b]) :: rest
      | [] => [(o, [b])]

/-- Places bytes at their stream offset (R114). -/
def Content.put (c : Content) (o : Nat) (b : Bytes) : Content := { c with runs := c.runs ++ c.newRuns o b }

/-- The blocks of a content that can be decoded from what was received: stream offset and length. The walk follows the block
headers from offset 0; a block whose header is invalid or that reaches past the stream counts as its header's 16 bytes (R221). -/
def Content.readyFrom (c : Content) : Nat → Nat → List (Nat × Nat)
  | 0, _ => []
  | n + 1, o =>
    if c.length ≤ o then []
    else match c.read? o 16 with
      | none => []
      | some hd => match readHeader hd with
        | none => [(o, 16)]
        | some h =>
          if c.length < o + h.length then [(o, 16)]
          else
            let rest := c.readyFrom n (o + h.length)
            if (c.read? o h.length).isSome then (o, h.length) :: rest else rest

/-- The decodable blocks of a content. -/
def Content.ready (c : Content) : List (Nat × Nat) := c.readyFrom (c.length / 24 + 1) 0

/-- Whether every byte up to the stream length has been received. -/
def Content.whole (c : Content) : Bool := c.received = c.length

/-- The heats a content covers (R123). -/
def covers (heat span h : Nat) : Bool := heat ≤ h && (span = 0 || h < heat + span)

/-- The last heat that an incomplete content is kept for (R124). -/
def Content.lastHeat (c : Content) : Nat := if c.span = 0 then c.heat else c.heat + c.span - 1

/-- The stream layer that a content's blocks must carry (R123). A clip frame has none (DEDUCED, log entry 22). -/
def Content.streamLayer (c : Content) : Option Nat :=
  match c.origin with
  | .stream _ s => some s
  | .clip _ => none
  | .upload _ => none

/-! ### Pending contents -/

/-- The contents of a layer that are not complete, lowest heat first. -/
def VLayer.inOrder (x : VLayer) : List Content := sortBy (fun a b => a.heat ≤ b.heat) x.pending

/-- Changes the pending content of a layer with an origin and heat. -/
def Mach.onContent (m : Mach) (k : Nat) (o : Origin) (h : Nat) (f : Content → Content) : Mach :=
  m.onLayer k (fun x => { x with pending := x.pending.map (fun c => if c.origin = o ∧ c.heat = h then f c else c) })

/-- Shows a layer's pending contents in its status objects (R138). -/
def Mach.showPending (m : Mach) (k : Nat) : Mach :=
  let ps := (m.layer k).inOrder
  m.sets (0x5140 + k) [(4, ps.length), (5, ((ps.head?.map Content.heat).getD 0 : Nat)),
    (6, ((ps.head?.map Content.received).getD 0 : Nat)), (7, ((ps.head?.map (fun c => c.blocks.length)).getD 0 : Nat))]

/-- The layer and block that a piece of decode work is for. -/
def EngineWork.block? (w : EngineWork) : Option (Nat × Nat) :=
  match w with
  | .content l b => some (l, b)
  | .again l b _ => some (l, b)
  | _ => none

/-- Whether a piece of decode work is for a layer's content. -/
def EngineWork.ofLayer (w : EngineWork) (k : Nat) : Bool := (w.block?.map Prod.fst) = some k

/-- The blocks of a layer's content in decode are of no use; an engine that has started one finishes it (R224). -/
def Mach.dropEngines (m : Mach) (k : Nat) : Mach :=
  { m with codec := { m.codec with
      decode := m.codec.decode.map (fun w => if w.ofLayer k then .spent else w)
      redo := m.codec.redo.filter (fun w => !w.ofLayer k) } }

/-- Notes the identity of a complete or abandoned content (R114). -/
def VLayer.note (x : VLayer) (c : Content) (whole : Bool) : VLayer :=
  match c.origin with
  | .stream slot s => { x with known := (slot, s, c.heat, whole) :: x.known }
  | _ => x

/-- At a frame tick F the identities of contents whose heat is no longer above F are forgotten (R114). -/
def Mach.forgetKnown (m : Mach) (f : Nat) : Mach :=
  { m with scene := { m.scene with layers := m.scene.layers.map (fun (x : VLayer) => { x with
      known := x.known.filter (fun y => f < y.2.2.1) }) } }

/-- Abandons a content, with event 0x7003 (R124). -/
def Mach.abandon (m : Mach) (k : Nat) (c : Content) (reason : Nat) : Mach :=
  let m := if c.buf.isSome then m.dropEngines k else m
  let m := m.onLayer k (fun x => (({ x with
    pending := x.pending.filter (fun y => !(y.origin = c.origin ∧ y.heat = c.heat)) } : VLayer).note c false))
  let m := (m.bump (0x5140 + k) 9).showPending k
  m.raise 0x7003 k [(1, k), (8, c.heat), (4, c.received), (1, reason)]

/-- Abandons the contents of a layer that satisfy a test. -/
def Mach.abandonWhere (m : Mach) (k : Nat) (f : Content → Bool) (reason : Nat) : Mach :=
  each ((m.layer k).pending.filter f) m (fun m c => m.abandon k c reason)

/-- At a commit point, the incomplete contents whose last heat has passed (R124). A running upload gets its heat as it finishes (R131). -/
def Mach.abandonPast (m : Mach) (h : Nat) : Mach :=
  each (upTo 64) m (fun m k => m.abandonWhere k (fun c => match c.origin with
    | .upload _ => false
    | _ => decide (c.lastHeat ≤ h)) 0)

/-- Bytes of ingress staging that pending contents hold (0x5180:08, R115): each at its whole stream length from its first byte on. The data of a
RUNNING upload lies in its upload buffer (R128) and holds none (both DESIGN CHOICE, log entry 95). -/
def Mach.stagingUse (m : Mach) : Nat :=
  (((m.scene.layers.flatMap VLayer.pending).filter (fun (x : Content) => match x.origin with
    | .upload _ => false
    | _ => true)).map Content.length).sum

/-- The ingress staging region (R115, R257). -/
def stagingSize : Nat := 0x80000000

/-- The base of ingress staging (R257). -/
def stagingBase : Nat := 0x20000000

/-- The runs between `from_` and `end_` that none of some held runs, in ascending address, takes. -/
def freeRuns (end_ : Nat) : Nat → List (Nat × Nat) → List (Nat × Nat)
  | from_, [] => if from_ < end_ then [(from_, end_ - from_)] else []
  | from_, r :: rest =>
    let more := freeRuns end_ (max from_ (r.1 + r.2)) rest
    if from_ < r.1 then (from_, r.1 - from_) :: more else more

/-- The first `n` bytes of some runs. -/
def takeRuns : Nat → List (Nat × Nat) → List (Nat × Nat)
  | _, [] => []
  | n, r :: rest => if n = 0 then [] else (r.1, min n r.2) :: takeRuns (n - min n r.2) rest

/-- The part of some runs from their byte `o` on. -/
def dropRuns : Nat → List (Nat × Nat) → List (Nat × Nat)
  | _, [] => []
  | o, r :: rest => if r.2 ≤ o then dropRuns (o - r.2) rest else (r.1 + o, r.2 - o) :: rest

/-- Where a new content of `n` bytes lies in ingress staging: the lowest addresses that no pending content holds (DESIGN CHOICE, log entry 99:
R257 gives the region, not the place). -/
def Mach.stagingPlace (m : Mach) (n : Nat) : List (Nat × Nat) :=
  let held := sortBy (fun (a b : Nat × Nat) => a.1 ≤ b.1) ((m.scene.layers.flatMap VLayer.pending).flatMap Content.place)
  takeRuns n (freeRuns (stagingBase + stagingSize) stagingBase held)

/-- Where `n` bytes of a content's stream from offset `o` on lie in ingress staging. -/
def Content.staged (c : Content) (o n : Nat) : List (Nat × Nat) := takeRuns n (dropRuns o c.place)

/-- The writes that put bytes at some runs. -/
def putRuns : List (Nat × Nat) → Bytes → List MemWrite
  | [], _ => []
  | r :: rest, b => ⟨r.1, b.take r.2⟩ :: putRuns rest (b.drop r.2)

/-- The writes that put received runs of a content into ingress staging. -/
def Content.stage (c : Content) (runs : List (Nat × Bytes)) : List MemWrite :=
  runs.flatMap (fun r => putRuns (c.staged r.1 r.2.length) r.2)

/-- Counts a staging-full drop of a slot, with event 0x700C at most once per second (R115). -/
def Mach.stagingFull (m : Mach) (slot : Nat) : Mach :=
  let old := ((m.scene.full.find? (fun f => f.1 = slot)).map Prod.snd)
  let drops := (((old.map Prod.snd).getD []).filter (fun t => m.now < t + sec 1)) ++ [m.now]
  let put (at_ : Nat) (m : Mach) : Mach :=
    { m with scene := { m.scene with full := (slot, at_, drops) :: m.scene.full.filter (fun f => f.1 != slot) } }
  match old with
  | some (t, _) => if m.now < t + sec 1 then put t m else put m.now (m.raise 0x700C slot [(2, slot), (4, drops.length)])
  | none => put m.now (m.raise 0x700C slot [(2, slot), (4, drops.length)])

/-- The fields of a Gwyn payload header (R113) with the content bytes that follow it. -/
structure ScenePacket where
  stream : Nat
  span : Nat
  heat : Nat
  width : Nat
  height : Nat
  offset : Nat
  length : Nat
  data : Bytes
  deriving DecidableEq, Repr

/-- Reads a Gwyn payload; none when its header is not valid (R113). -/
def readScene (b : Bytes) : Option ScenePacket :=
  let p : ScenePacket :=
    { stream := ofBE (slice 1 1 b), span := ofBE (slice 2 1 b), heat := ofBE (slice 4 8 b), width := ofBE (slice 12 2 b),
      height := ofBE (slice 14 2 b), offset := ofBE (slice 16 4 b), length := ofBE (slice 20 4 b), data := b.drop 24 }
  if 25 ≤ b.length ∧ ofBE (b.take 1) = 1 ∧ 1 ≤ p.width ∧ p.width ≤ 4096 ∧ 1 ≤ p.height ∧ p.height ≤ 2160 ∧ 16 ≤ p.length ∧
      p.length ≤ 67108864 then some p
  else none

/-- A content in decode whose bytes are whole, and whose blocks are all decoded, but do not parse into whole blocks (R124). -/
def Content.misparsed (c : Content) : Bool :=
  c.buf.isSome && c.whole && c.ready.all (fun r => c.blocks.any (fun b => b.1 = r.1)) && (c.ready.map Prod.snd).sum != c.length

/-- A scene packet delivered to a layer in STREAM mode (R114, R115); what is new of it is written to ingress staging. -/
def Mach.takePacket (m : Mach) (k slot : Nat) (p : ScenePacket) : Eff :=
  let f := m.frameNo
  let x := m.layer k
  let o := Origin.stream slot p.stream
  if p.heat ≤ f then .of (m.bump (0x5140 + k) 0x0A)
  else if f + m.objN 0x5180 5 < p.heat then .of (m.bump (0x5140 + k) 0x0B)
  else match x.known.find? (fun y => y.1 = slot ∧ y.2.1 = p.stream ∧ y.2.2.1 = p.heat) with
    | some y => .of (if y.2.2.2 then m else m.bump (0x5140 + k) 0x0C)
    | none =>
      match x.pending.find? (fun c => c.origin = o ∧ c.heat = p.heat) with
      | some c =>
        if c.span ≠ p.span ∨ c.width ≠ p.width ∨ c.height ≠ p.height ∨ c.length ≠ p.length ∨ c.length < p.offset + p.data.length
        then .of (m.bump (0x5140 + k) 0x0C)
        else
          let c' := c.put p.offset p.data
          let m := m.onContent k o p.heat (fun _ => c')
          (m.storeAll (c.stage (c.newRuns p.offset p.data))).on (fun m => if c'.misparsed then m.abandon k c' 3 else m.showPending k)
      | none =>
        if p.length < p.offset + p.data.length then .of (m.bump (0x5140 + k) 0x0C)
        else if x.pending.length ≥ 3 then .of (m.bump (0x5140 + k) 0x0B)
        else if stagingSize < m.stagingUse + p.length then .of ((m.bump (0x5140 + k) 0x0B).stagingFull slot)
        else
          let c : Content := { origin := o, heat := p.heat, span := p.span, width := p.width, height := p.height, length := p.length,
                               place := m.stagingPlace p.length }
          ((m.onLayer k (fun x => { x with pending := x.pending ++ [c.put p.offset p.data] })).showPending k).storeAll
            (c.stage [(p.offset, p.data)])

/-- The enabled layers that name a slot and stream layer, with an input mode (R110, R119). -/
def Mach.layersFor (m : Mach) (slot stream : Nat) (mode : Nat → Bool) : List Nat :=
  (upTo 64).filter (fun k =>
    let d := m.vdesc k
    d.enable && mode d.mode && d.slot = slot && d.stream = stream)

/-! ### Decode (R127, R221, R222, R224) -/

/-- DECODE_START: the pending content of a layer with the lowest heat starts to decode, once its buffer is writable and its heat is
within the window (R127). -/
def Mach.startDecode (m : Mach) (k : Nat) : Mach :=
  let x := m.layer k
  match x.inOrder with
  | [] => m
  | c :: _ =>
    if !x.writable ∨ m.frameNo + 2 < c.heat then m
    else
      let b := x.target
      let m := m.onLayer k (fun x => { x with bufs := setAt x.bufs b none })
      m.onContent k c.origin c.heat (fun c => { c with buf := some b })

/-- The content of a layer that is in decode. -/
def VLayer.decoding (x : VLayer) : Option Content := x.pending.find? (fun c => c.buf.isSome)

/-- The engines that work on a layer's content. -/
def Mach.enginesOn (m : Mach) (k : Nat) : Nat :=
  (m.codec.decode.filter (fun w => w.ofLayer k)).length

/-- The next content block for an engine (R127, R224): lower heat first, then lower depth order, at most 4 engines on a content. -/
def Mach.nextBlock (m : Mach) : Option (Nat × Nat) :=
  let ks := sortBy (fun (a b : Nat × Nat × Nat × Content) => a.1 < b.1 || (a.1 = b.1 && a.2.1 ≤ b.2.1))
    ((upTo 64).filterMap (fun k => ((m.layer k).decoding).map (fun c => (c.heat, (m.vdesc k).order, k, c))))
  ks.findSome? (fun a =>
    let k := a.2.2.1
    let c := a.2.2.2
    if m.enginesOn k ≥ 4 then none
    else (c.ready.find? (fun o =>
      !((m.codec.decode ++ m.codec.redo).any (fun w => w.block? = some (k, o.1))) &&
        !(c.blocks.any (fun b => b.1 = o.1)))).map (fun o => (k, o.1)))

/-- The engine on which a block was decoded first (R222). -/
def EngineWork.first? (w : EngineWork) : Option Nat :=
  match w with
  | .again _ _ f => some f
  | .jobAgain _ f => some f
  | _ => none

/-- Whether an engine may take a piece of work: a second decode runs on another engine than the first while another is usable (R222). -/
def Mach.mayTake (m : Mach) (e : Nat) (w : EngineWork) : Bool :=
  w.first? != some e || (upTo 20).all (fun x => x = e || m.objN (0x7120 + x) 1 != 1)

/-- A host job's block that a faulted engine left (R226): it waits behind the content blocks (R224). -/
def EngineWork.ofHost (w : EngineWork) : Bool :=
  match w with
  | .job _ => true
  | _ => false

/-- An idle decode engine in use takes what waits: a second decode or a re-issued content block first, then a content block, then a host job's
re-issued block (R222, R224, R226). -/
def Mach.feedEngine (m : Mach) (e : Nat) : Mach :=
  let redo (w : EngineWork) : Mach :=
    { m with codec := { m.codec with decode := setAt m.codec.decode e w, redo := m.codec.redo.erase w } }
  if 20 ≤ e ∨ 1 < m.objN 0x2100 1 ∨ m.codec.decode.getD e .idle ≠ .idle ∨ m.objN (0x7120 + e) 1 ≠ 1 then m
  else match m.codec.redo.find? (fun w => !w.ofHost && m.mayTake e w) with
    | some w => redo w
    | none => match m.nextBlock with
      | some (k, o) => { m with codec := { m.codec with decode := setAt m.codec.decode e (.content k o) } }
      | none => match m.codec.redo.find? EngineWork.ofHost with
        | some w => redo w
        | none => m

/-- Every idle decode engine in use takes what waits (R224). -/
def Mach.feedEngines (m : Mach) : Mach := each (upTo 20) m (fun m e => m.feedEngine e)

/-- What a decoded block of a content comes to (R221): its grid place and samples, or the reason of abandonment. `done` are the grid
places decoded before. -/
def judgeBlock (b : Bytes) (width height : Nat) (stream : Option Nat) (done : List (Nat × Nat)) : Except Nat (Nat × Nat × List Sample) :=
  match readHeader b with
  | none => .error 3
  | some h =>
    if b.length < h.length then .error 3
    else if h.col ≥ (width + 63) / 64 ∨ h.row ≥ (height + 63) / 64 ∨ (h.w, h.h) ≠ blockSize width height h.col h.row ∨
        (h.col, h.row) ∈ done ∨ (stream.isSome ∧ stream ≠ some h.layer) then .error 4
    else match decodeBlock (b.take h.length) with
      | .ok (_, l) => .ok (h.col, h.row, l)
      | .error .check => .error 2
      | .error _ => .error 3

/-- The writes of a block's samples into an image (R111). -/
def blockWrites (base width col row w : Nat) (l : List Sample) : List MemWrite :=
  (upTo ((l.length + w - 1) / w)).map (fun y =>
    ⟨sampleAt base width (64 * col) (64 * row + y), ((l.drop (y * w)).take w).flatMap Sample.memBytes⟩)

/-! ### Clip recording (R134) -/

/-- The extents of 16 MiB that a number of bytes needs. -/
def extentsFor (n : Nat) : Nat := (n + extentSize - 1) / extentSize

/-- Extents of the clip store that exist: those not lost with a channel (R137). -/
def Mach.liveExtents (m : Mach) : List Nat :=
  (upTo 7168).filter (fun e =>
    !m.scene.lostExtents.contains e && m.objN (0x7040 + e % 32) 1 != 0xFF &&
      !(m.dram.borrowed.any (fun b => b.2.contains e)))

/-- Free extents in ascending number (R259). -/
def Mach.freeExtents (m : Mach) : List Nat :=
  let used := m.scene.clips.flatMap Clip.extents
  m.liveExtents.filter (fun e => !used.contains e)

/-- The memory address of byte `i` of a clip. -/
def Clip.address (c : Clip) (i : Nat) : Nat := fixedEnd + c.extents.getD (i / extentSize) 0 * extentSize + i % extentSize

/-- The writes of bytes into a clip from an offset on, cut at extents. -/
def Clip.writes (c : Clip) : Nat → Nat → Bytes → List MemWrite
  | 0, _, _ => []
  | n + 1, o, b =>
    if b = [] then []
    else
      let room := extentSize - o % extentSize
      ⟨c.address o, b.take room⟩ :: c.writes n (o + room) (b.drop room)

/-- The runs of memory that hold `n` bytes of a clip from an offset on, cut at extents. -/
def Clip.spans (c : Clip) : Nat → Nat → Nat → List (Nat × Nat)
  | 0, _, _ => []
  | k + 1, o, n =>
    if n = 0 then []
    else
      let room := min n (extentSize - o % extentSize)
      (c.address o, room) :: c.spans k (o + room) (n - room)

/-- The runs of memory that hold bytes of a clip. -/
def Clip.runs (c : Clip) (o n : Nat) : List (Nat × Nat) := c.spans (n / extentSize + 2) o n

/-- Whether bytes of a clip read as poison (R272). -/
def Mach.clipPoisoned (m : Mach) (c : Clip) (o n : Nat) : Bool := (c.runs o n).any (fun r => m.poisonedAt r.1 r.2)

/-- The bytes of a clip from an offset on. -/
def Clip.read (c : Clip) (mem : Mem) (o n : Nat) : Bytes := (upTo n).map (fun i => memRead mem (c.address (o + i)))

/-- A clip by its number. -/
def Mach.clip? (m : Mach) (id : Nat) : Option Clip := m.scene.clips.find? (fun c => c.id = id)

/-- A frame record of R136. -/
def frameRecord (offset span width height : Nat) (stream : Bytes) : Bytes :=
  beBytes 4 offset ++ beBytes 1 span ++ [0, 0, 0] ++ beBytes 2 width ++ beBytes 2 height ++ beBytes 4 stream.length ++ stream ++
    List.replicate ((8 - stream.length % 8) % 8) 0

/-- Ends a clip recording, with event 0x700A (R134). -/
def Mach.stopRecording (m : Mach) (reason : Nat) : Mach :=
  match m.scene.recording with
  | none => m
  | some r =>
    let m := { m with scene := { m.scene with recording := none } }
    (m.setN 0x51B1 6 3).raise 0x700A r.clip [(1, r.clip), (4, m.objN 0x51B1 7), (1, reason)]

/-- Whether the number of the next heat to start is known: a heat runs, and neither a restart nor a stop is under way. -/
def Mach.nextHeatKnown (m : Mach) : Bool := m.heat.running && m.pipe.restart.isNone && m.power_.stop.isNone

/-- Appends a completed content to the clip that is recorded (R134). ARMED becomes RECORDING, and an existing clip is replaced, at the first
frame appended (DESIGN CHOICE, log entry 82). A content of another source size than the layer's descriptor, which is never bound (R125), or than
the frames that the clip holds makes no frame: every frame of a clip has the same size (R133; DEDUCED, log entry 82). Contents are appended in
the order in which they complete, with offset heat minus start heat, also where that is no rising order (DESIGN CHOICE, log entry 95). -/
def Mach.recordFrame (m : Mach) (k heat span width height : Nat) (stream : Bytes) : Eff :=
  match m.scene.recording with
  | none => .of m
  | some r =>
    if r.layer ≠ k ∨ heat < r.start ∨ (r.next ∧ !m.nextHeatKnown) ∨ (width, height) ≠ ((m.vdesc k).width, (m.vdesc k).height) then .of m
    else
      let m := { m with scene := { m.scene with recording := some { r with next := false } } }.setN 0x51B1 6 2
      let old := (m.clip? r.clip).getD ⟨r.clip, [], [], 0⟩
      let fresh := m.objN 0x51B1 7 = 0
      let old : Clip := if fresh then ⟨r.clip, [], [], 0⟩ else old
      let m := if fresh then { m with scene := { m.scene with clips := m.scene.clips.filter (fun c => c.id != r.clip) } } else m
      let b := frameRecord (heat - r.start) span width height stream
      let need := extentsFor (old.size + b.length) - old.extents.length
      let free := m.freeExtents.take need
      if old.frames.any (fun f => f.width != width || f.height != height) then .of m
      else if free.length < need then .of (m.stopRecording 2)
      else
        let f : ClipFrame := ⟨heat - r.start, span, width, height, stream.length, old.size + 16⟩
        let c : Clip := ⟨r.clip, old.frames ++ [f], old.extents ++ free, old.size + b.length⟩
        let m := { m with scene := { m.scene with clips := m.scene.clips.filter (fun (x : Clip) => x.id != r.clip) ++ [c] } }
        let m := m.bump 0x51B1 7
        let m := if r.limit ≤ m.objN 0x51B1 7 then m.stopRecording 1 else m
        m.storeAll (c.writes (need + 2) old.size b)

/-- A content becomes complete in a buffer (R123). The layer's newest complete content is the one of the highest heat, of equal heats the
later (DEDUCED from R125, log entry 31). -/
def Mach.complete (m : Mach) (k b : Nat) (w : Whole) : Mach :=
  (m.onLayer k (fun x =>
    let older : Bool := match x.newest.bind (fun n => if n = b then none else x.bufs.getD n none) with
      | some o => decide (w.heat < o.heat)
      | none => false
    { x with bufs := setAt x.bufs b (some w), newest := if older then x.newest else some b })).bump (0x5140 + k) 8

/-- A block of a content was decoded: complete once its bytes are whole, parse into whole blocks and fill the grid; abandoned when
they are whole and do not parse (R123, R124). An upload ends by UPLOAD_FINISH. -/
def Mach.judgeContent (m : Mach) (k : Nat) (c : Content) : Eff :=
  let ready := c.ready
  let upload : Bool := match c.origin with
    | .upload _ => true
    | _ => false
  if upload ∨ !c.whole ∨ ready.any (fun r => !(c.blocks.any (fun b => b.1 = r.1))) then .of (m.showPending k)
  else if (ready.map Prod.snd).sum ≠ c.length then .of (m.abandon k c 3)
  else if c.blocks.length ≠ (blockGrid c.width c.height).length then .of (m.showPending k)
  else
    let b := c.buf.getD 0
    let m := m.onLayer k (fun x => ({ x with
      pending := x.pending.filter (fun y => !(y.origin = c.origin ∧ y.heat = c.heat)) } : VLayer).note c true)
    let m := (m.complete k b ⟨c.heat, c.span, c.width, c.height, c.length, false⟩).showPending k
    m.recordFrame k c.heat c.span c.width c.height ((c.read? 0 c.length).getD [])

/-- The rectangle of an upload job in blocks: column, row, columns, rows. -/
def Upload.rect (u : Upload) : Nat × Nat × Nat × Nat := (u.col, u.row, u.cols, u.rows)

/-- Whether rectangle `a` (column, row, columns, rows) lies wholly within rectangle `b`. -/
def within (a b : Nat × Nat × Nat × Nat) : Bool :=
  b.1 ≤ a.1 && b.2.1 ≤ a.2.1 && a.1 + a.2.2.1 ≤ b.1 + b.2.2.1 && a.2.1 + a.2.2.2 ≤ b.2.1 + b.2.2.2

/-- A job that has not ended, as its start latched it. -/
def Mach.upload? (m : Mach) (j : Nat) : Option Upload := m.scene.uploads.find? (fun u => u.job = j)

/-- An upload job becomes FAILED, with event 0x7009, and leaves its buffer unbound (R130, R132). -/
def Mach.failUpload (m : Mach) (u : Upload) (reason : Nat) : Mach :=
  let mine (c : Content) : Bool := c.origin = .upload u.job
  let m := if (m.layer u.layer).pending.any (fun c => mine c && c.buf.isSome) then m.dropEngines u.layer else m
  let m := (m.setN (0x51A0 + u.job) 8 6).setN (0x51A0 + u.job) 0x0A reason
  let m := { m with scene := { m.scene with uploads := m.scene.uploads.filter (· != u) } }
  let m := m.onLayer u.layer (fun x => { x with pending := x.pending.filter (fun c => !mine c) })
  (m.showPending u.layer).raise 0x7009 u.job [(1, u.job), (1, u.layer), (1, reason)]

/-- A content meets a fault of R124: it is abandoned, or its upload job becomes FAILED with the reason of R139. -/
def Mach.contentFails (m : Mach) (k : Nat) (c : Content) (reason : Nat) : Mach :=
  match c.origin with
  | .upload j => match m.upload? j with
    | some u => m.failUpload u (if reason = 2 then 1 else if reason = 4 then 2 else 4)
    | none => m
  | _ => m.abandon k c reason

/-- Whether a content takes a block of the grid: an upload only those of its rectangle (R128). -/
def Mach.takesBlock (m : Mach) (c : Content) (col row : Nat) : Bool :=
  match c.origin with
  | .upload j => match m.upload? j with
    | some u => within (col, row, 1, 1) u.rect
    | none => false
  | _ => true

/-- A block waits for its second decode, ahead of every other but those that wait for theirs already (R222). -/
def Mach.decodeAgain (m : Mach) (w : EngineWork) : Mach :=
  let second (x : EngineWork) : Bool := x.first?.isSome
  { m with codec := { m.codec with redo := m.codec.redo.filter second ++ [w] ++ m.codec.redo.filter (fun x => !second x) } }

/-- A decode engine has finished a block of a content or upload (R221, R222). `wrong` says that the engine delivers a wrong check value
where the data is good; a block read as poison fails it too (R273); `first` is the engine whose decode this one repeats. -/
def Mach.contentBlock (m : Mach) (e k o : Nat) (wrong : Bool) (first : Option Nat) : Eff :=
  match (m.layer k).decoding with
  | none => .of m
  | some c =>
    match c.ready.find? (fun r => r.1 = o) with
    | none => .of m
    | some (_, n) =>
      let bytes := (c.read? o n).getD []
      let runs := c.staged o n
      let m := m.countDecoded e
      let m := if runs = [] then m.noteRead n else m.reads (sourceBase 4 + e) runs
      let differs (m : Mach) : Eff := match first with
        | none => .of (m.decodeAgain (.again k o e))
        | some _ => .of ((m.bump 0x7103 2).contentFails k c 2)
      if c.poison.contains o ∨ runs.any (fun r => m.poisonedAt r.1 r.2) then differs m
      else match judgeBlock bytes c.width c.height c.streamLayer (c.blocks.map Prod.snd) with
      | .error r => if r = 2 then differs m else .of (m.contentFails k c r)
      | .ok (col, row, l) =>
        if wrong then differs m
        else if !m.takesBlock c col row then .of (m.contentFails k c 4)
        else
          let m := match first with
            | some f => m.engineFault f 2
            | none => m
          let base := layerBase k (c.buf.getD 0)
          let size := blockSize c.width c.height col row
          let c' : Content := { c with blocks := c.blocks ++ [(o, col, row)] }
          let m := m.onContent k c.origin c.heat (fun _ => c')
          (m.storeAll (blockWrites base c.width col row size.1 l)).then_ (fun m => m.judgeContent k c')

/-! ### Descriptors (R118 to R122) -/

/-- The staged descriptor of a video layer. -/
def Mach.stagedV (m : Mach) (k : Nat) : VDesc :=
  let n (s : Nat) := m.objN (0x5100 + k) s
  { enable := n 1 = 1, mode := n 2, slot := n 3, stream := n 4, width := n 5, height := n 6, scaleX := n 7, scaleY := n 8,
    offX := m.obj (0x5100 + k) 9, offY := m.obj (0x5100 + k) 0x0A, disp := m.obj (0x5100 + k) 0x0B, order := n 0x0C,
    clip := n 0x0D, clipStart := n 0x0E, playStart := n 0x0F, loop := n 0x10 = 1 }

/-- The staged descriptor of a graphic layer. -/
def Mach.stagedG (m : Mach) (g : Nat) : GDesc :=
  { enable := m.objB (0x5200 + g) 1, disp := m.obj (0x5200 + g) 2, order := m.objN (0x5200 + g) 3 }

/-- Whether a list holds no value twice. -/
def noRepeats {α : Type} [DecidableEq α] (l : List α) : Bool := l.eraseDups.length = l.length

/-- The rules of R121 on a set of descriptors. -/
def Mach.descriptorsAllowed (m : Mach) (vs : List VDesc) (gs : List GDesc) : Bool :=
  let on := vs.filter (fun d => d.enable)
  let streams := on.filter (fun d => d.mode = 0)
  noRepeats (on.map VDesc.order ++ (gs.filter (fun d => d.enable)).map GDesc.order) &&
    noRepeats (streams.map (fun d => (d.slot, d.stream))) && streams.all (fun d => d.slot != 0xFFFF) &&
    (on.filter (fun d => d.mode = 2)).all (fun d => match m.clip? d.clip with
      | some c => c.frames.all (fun f => f.width = d.width && f.height = d.height)
      | none => false)

/-- DESCRIPTOR_APPLY (R120, R121). -/
def Mach.applyDescriptors (m : Mach) : Except Nat Mach :=
  let vs := (upTo 64).map m.stagedV
  let gs := (upTo 4).map m.stagedG
  let t := m.objN 0x5180 2
  let f := m.frameNo
  if t ≠ 0 ∧ t < f + 2 then .error abBelow
  else if !m.descriptorsAllowed vs gs then .error abInconsistent
  else .ok ({ m with scene := { m.scene with staged := some (t, vs, gs) } }.setN 0x5180 3 1)

/-- A layer's history is discarded (R122): buffers emptied, pending contents abandoned, uploads failed, event 0x7005. -/
def Mach.discardHistory (m : Mach) (k reason : Nat) : Mach :=
  let m := m.abandonWhere k (fun _ => true) 6
  let m := each (m.scene.uploads.filter (fun u => u.layer = k)) m (fun m u => m.failUpload u 5)
  let m := m.onLayer k (fun x => { x with bufs := [none, none], newest := none, history := false, wasComplete := x.wasComplete && reason = 1 })
  let m := (m.setN 0x5004 (k + 1) 0).raise 0x7005 k [(1, k), (1, reason)]
  match m.scene.recording with
  | some r => if r.layer = k then m.stopRecording 3 else m
  | none => m

/-- The effects of a latch on one video layer (R122, R125). A RUNNING upload of a layer that leaves input mode UPLOAD is abandoned with the
other pending contents; the failure reason of its job is a free value, since R139 names none for it (log entry 64). -/
def Mach.latchLayer (m : Mach) (k : Nat) (old new : VDesc) : Mach :=
  let m := if old.enable ∧ !new.enable then m.discardHistory k 0
    else if new.enable ∧ (old.width, old.height) ≠ (new.width, new.height) then m.discardHistory k 1
    else m
  let reclip : Bool := (old.clip, old.clipStart, old.playStart, old.loop) != (new.clip, new.clipStart, new.playStart, new.loop)
  let m := if reclip ∨ old.mode ≠ new.mode ∨ old.enable ≠ new.enable then
      m.onLayer k (fun x => { x with playFrame := new.clipStart, playLoop := 0, playDone := false })
    else m
  let m := m.abandonWhere k (fun c => match c.origin with
    | .stream s t => new.mode != 0 || s != new.slot || t != new.stream
    | .clip _ => new.mode != 2 || reclip
    | .upload _ => new.mode != 1) 6
  let cut (u : Upload) : Bool := u.layer = k && new.mode != 1 && m.objN (0x51A0 + u.job) 8 = 2
  each (m.scene.uploads.filter cut) m (fun m u =>
    m.draw.failUpload u (1 + (Config.unstated (okey (0x51A0 + u.job) 0x0A) m.free).toNat % 5))

/-- The descriptor latch of heat H (R120): the pending set, once its target is reached or after a restart. -/
def Mach.latchDescriptors (m : Mach) (h : Nat) (restarted : Bool) : Mach :=
  match m.scene.staged with
  | none => m
  | some (t, vs, gs) =>
    if h < t ∧ !restarted then m
    else
      let old := m.scene.vdesc
      let m := each (upTo 64) m (fun m k => m.latchLayer k (old.getD k {}) (vs.getD k {}))
      let m := { m with scene := { m.scene with vdesc := vs, gdesc := gs, staged := none } }
      (m.setN 0x5180 3 0).setN 0x5180 4 h

/-- A content whose source size differs from its layer's descriptor is never bound (R125): abandoned with reason 6 and event 0x7004, a
complete one with its buffer emptied. -/
def Mach.dropMisfits (m : Mach) : Mach :=
  each (upTo 64) m (fun m k =>
    let d := m.vdesc k
    if !d.enable then m
    else
      let odd (w h : Nat) : Bool := w != d.width || h != d.height
      let m := each ((m.layer k).pending.filter (fun c => odd c.width c.height)) m (fun m c =>
        (m.abandon k c 6).raise 0x7004 k [(1, k), (8, c.heat), (2, c.width), (2, c.height)])
      each [0, 1] m (fun m b => match (m.layer k).bufs.getD b none with
        | some w =>
          if odd w.width w.height then
            let other := if ((m.layer k).bufs.getD (1 - b) none).isSome then some (1 - b) else none
            let m := m.onLayer k (fun x => { x with
              bufs := setAt x.bufs b none
              newest := if x.newest = some b then other else x.newest
              known := x.known.map (fun y => if y.2.2.1 = w.heat then (y.1, y.2.1, y.2.2.1, false) else y) })
            ((m.bump (0x5140 + k) 9).raise 0x7003 k [(1, k), (8, w.heat), (4, w.bytes), (1, 6)]).raise 0x7004 k
              [(1, k), (8, w.heat), (2, w.width), (2, w.height)]
          else m
        | none => m))

/-! ### Readiness (R90 to R92, R125) -/

/-- What the snapshot finds for a layer with a descriptor: the binding, and whether it covers the heat (R125). A content of another source
size is never bound; of two contents of one heat the more recently completed one is (R125, R131). A layer has history where a buffer holds a
content of a heat below H, as R125 says; and, since a restart does not discard history (R92), where it has been complete at a heat start and
holds a content from before the latest start of heats, whatever its frame number (DEDUCED, log entry 96). -/
def VLayer.bindFor (x : VLayer) (d : VDesc) (h : Nat) : Option (Bound × Bool) :=
  let fits (w : Whole) : Bool := w.width = d.width && w.height = d.height
  let held (f : Whole → Bool) : List Bound := (upTo 2).filterMap (fun b =>
    ((x.bufs.getD b none).filter (fun w => fits w && f w)).map (fun w => (⟨b, w.heat, w.span, w.width, w.height⟩ : Bound)))
  let cand := held (fun _ => true)
  let past := if x.history then held Whole.past else []
  let best (l : List Bound) : Option Bound := l.foldl (fun a b => match a with
    | none => some b
    | some a => if a.heat < b.heat ∨ (a.heat = b.heat ∧ x.newest = some b.buf) then some b else some a) none
  match best (cand.filter (fun b => covers b.heat b.span h)) with
  | some b => some (b, true)
  | none => ((best (cand.filter (fun b => b.heat < h))).orElse (fun _ => best past)).map (fun b => (b, false))

/-- Heats start anew: what the layers' buffers hold is from before (R92). -/
def Mach.agePast (m : Mach) : Mach :=
  { m with scene := { m.scene with layers := m.scene.layers.map (fun (x : VLayer) =>
      { x with bufs := x.bufs.map (fun b => b.map (fun (w : Whole) => { w with past := true })) }) } }

/-- The snapshot of one video layer (R91, R92): complete, held or transparent. -/
def Mach.snapLayer (m : Mach) (h k : Nat) : Mach :=
  let x := m.layer k
  let c := 0x5140 + k
  let bit_ := 2 ^ k
  let bindAt (m : Mach) (b : Option Bound) : Mach :=
    let m := (m.setN c 2 ((b.map Bound.heat).getD 0)).setN c 3 ((b.map Bound.span).getD 0)
    m.onHeat (fun t => { t with bound1 := setAt t.bound1 k b })
  if !(m.vdesc k).enable then bindAt (m.setN c 1 0) none
  else match x.bindFor (m.vdesc k) h with
    | some (b, true) =>
      let m := bindAt ((m.setN c 1 1).setN 0x5004 (k + 1) 0) (some b)
      let m := m.onHeat (fun t => { t with complete := t.complete + bit_ })
      m.onLayer k (fun x => { x with history := true, wasComplete := true, toldHold := false, toldNone := false })
    | r =>
      let n := m.objN 0x5004 (k + 1)
      let m := if x.wasComplete then m.raise 0x600B k [(8, h), (1, k)] else m
      let m := m.onLayer k (fun x => { x with wasComplete := false })
      let m := m.onHeat (fun t => { t with late := t.late + bit_ })
      match r with
      | some (b, _) =>
        let m := m.onLayer k (fun x => { x with history := true })
        if n < m.objN 0x5001 3 then
          let m := bindAt ((m.setN c 1 2).setN 0x5004 (k + 1) (n + 1)) (some b)
          m.onHeat (fun t => { t with held := t.held + bit_ })
        else
          let m := bindAt (m.setN c 1 4) none
          let m := m.onHeat (fun t => { t with transparent := t.transparent + bit_ })
          let m := m.bumpSat 0x5003 8
          if x.toldHold then m
          else (m.onLayer k (fun x => { x with toldHold := true })).raise 0x6001 k [(8, h), (1, k), (1, n)]
      | none =>
        let m := bindAt (m.setN c 1 3) none
        let m := m.onHeat (fun t => { t with transparent := t.transparent + bit_ })
        if x.toldNone then m
        else (m.onLayer k (fun x => { x with toldNone := true })).raise 0x6002 k [(8, h), (1, k)]

/-! ### Uploads (R128 to R132) -/

/-- State of an upload job (R132). -/
def Mach.uploadState (m : Mach) (j : Nat) : Nat := m.objN (0x51A0 + j) 8

/-- An upload job as its objects describe it. -/
def Mach.stagedUpload (m : Mach) (j : Nat) : Upload :=
  let n (s : Nat) := m.objN (0x51A0 + j) s
  ⟨j, n 1, n 2, n 3, n 4, n 5, n 6⟩

/-- A job that is QUEUED or RUNNING. -/
def live (st : Nat) : Bool := st = 1 || st = 2

/-- UPLOAD_START (R129). The job keeps the layer, rectangle and buffer that its objects hold now (DESIGN CHOICE, log entry 82). -/
def Mach.startUpload (m : Mach) (j : Nat) : Except Nat Mach :=
  let u := m.stagedUpload j
  let d := m.vdesc u.layer
  if live (m.uploadState j) ∨ !d.enable ∨ d.mode ≠ 1 ∨ (d.width + 63) / 64 < u.col + u.cols ∨ (d.height + 63) / 64 < u.row + u.rows then
    .error abPrecondition
  else if m.scene.uploads.any (fun i => i.job != j && i.buf = u.buf) then .error abInUse
  else
    let old := m.scene.uploads.filter (fun i => m.uploadState i.job = 1 && i.layer = u.layer && within i.rect u.rect)
    let m := each old m (fun m i => (m.setN (0x51A0 + i.job) 8 5).raise 0x7008 i.job [(1, i.job), (1, j), (1, u.layer)])
    let m := { m with scene := { m.scene with uploads := m.scene.uploads.filter (fun i => !old.contains i) ++ [u]
                                              shown := m.scene.shown.filter (fun p => p.1 != j) } }
    .ok (((m.setN (0x51A0 + j) 8 1).setN (0x51A0 + j) 9 0).setN (0x51A0 + j) 0x0A 0)

/-- UPLOAD_RUN: the oldest queued job of its layer becomes RUNNING once a buffer is writable (R130), and its data is decoded as the blocks of
a content of heat F+2. A layer that has left input mode UPLOAD receives nothing from it (R110). -/
def Mach.runUpload (m : Mach) (j : Nat) : Mach :=
  match m.upload? j with
  | none => m
  | some u =>
    let k := u.layer
    let x := m.layer k
    let d := m.vdesc k
    if m.uploadState j ≠ 1 ∨ m.scene.uploads.find? (fun i => i.layer = k) ≠ some u ∨ !d.enable ∨ d.mode ≠ 1 ∨ !x.writable ∨
        x.pending.any (fun c => c.heat < m.frameNo + 2) then m
    else
      let b := x.target
      let data := m.str (0x5190 + u.buf) 0
      let c : Content := { origin := .upload j, heat := m.frameNo + 2, span := 0, width := d.width, height := d.height,
                           length := data.length, runs := [(0, data)], buf := some b }
      let m := m.onLayer k (fun x => { x with bufs := setAt x.bufs b none, pending := x.pending ++ [c] })
      (m.setN (0x51A0 + j) 8 2).showPending k

/-- The stream of the whole image that an upload completes, for the clip that is recorded (R134): the job's data, and the blocks copied as
the module's encoder makes them of their samples (DESIGN CHOICE, log entry 82). -/
def wholeStream (data : Bytes) (width height : Nat) (outside : List (Nat × Nat)) (samples : Nat → Nat → List Sample) : Bytes :=
  data ++ outside.flatMap (fun p =>
    let size := blockSize width height p.1 p.2
    encodeBlock 0 p.1 p.2 size.1 size.2 (samples p.1 p.2) false)

/-- UPLOAD_FINISH: once every block of its data is decoded, the running job copies what lies outside its rectangle and completes a content
with span 0 and heat F+2; or becomes FAILED (R130, R131). Poison in what it copies is a check failure of its decode engine (R273). -/
def Mach.finishUpload (m : Mach) (c : Ctx) (j : Nat) : Eff :=
  match m.upload? j with
  | none => .of m
  | some u =>
    let k := u.layer
    match (m.layer k).pending.find? (fun x => x.origin = .upload j) with
    | none => .of m
    | some job =>
      let ready := job.ready
      if ready.any (fun r => !(job.blocks.any (fun b => b.1 = r.1))) then .of m
      else if (ready.map Prod.snd).sum ≠ job.length then .of (m.failUpload u 4)
      else if job.blocks.length ≠ u.cols * u.rows then .of (m.failUpload u 3)
      else
        let b := job.buf.getD 0
        let x := m.layer k
        let from_ := x.newest.bind (fun n => if (x.bufs.getD n none).isSome then some (layerBase k n) else none)
        let outside := (blockGrid job.width job.height).filter (fun p => !within (p.1, p.2, 1, 1) u.rect)
        let rows := outside.flatMap (fun p =>
          let size := blockSize job.width job.height p.1 p.2
          (upTo size.2).map (fun y => (64 * p.1, 64 * p.2 + y, 6 * size.1)))
        let old (r : Nat × Nat × Nat) : Bytes := match from_ with
          | some base => memLoad c.mem (sampleAt base job.width r.1 r.2.1) r.2.2
          | none => List.replicate r.2.2 0
        let spans : List (Nat × Nat) := match from_ with
          | some base => rows.map (fun (r : Nat × Nat × Nat) => (sampleAt base job.width r.1 r.2.1, r.2.2))
          | none => []
        let m := m.reads (sourceBase 4) spans
        if spans.any (fun r => m.poisonedAt r.1 r.2) then .of (m.failUpload u 1)
        else
          let keep := rows.map (fun r => (⟨sampleAt (layerBase k b) job.width r.1 r.2.1, old r⟩ : MemWrite))
          let data := (job.read? 0 job.length).getD []
          let heat := m.frameNo + 2
          let m := m.onLayer k (fun x => { x with pending := x.pending.filter (fun y => y.origin != .upload j) })
          let m := (m.complete k b ⟨heat, 0, job.width, job.height, data.length, false⟩).showPending k
          let m := m.setN (0x51A0 + j) 8 3
          let m := { m with scene := { m.scene with uploads := m.scene.uploads.filter (· != u)
                                                    shown := m.scene.shown ++ [(j, k, heat)] } }
          let samples (col row : Nat) : List Sample :=
            let size := blockSize job.width job.height col row
            (upTo size.2).flatMap (fun y => samplesLE size.1 (old (64 * col, 64 * row + y, 6 * size.1)))
          (m.storeAll keep).then_ (fun m =>
            if m.scene.recording.isNone then .of m
            else m.recordFrame k heat 0 job.width job.height (wholeStream data job.width job.height outside samples))

/-- At frame tick H, the COMPLETE uploads of that heat become VISIBLE (R131). -/
def Mach.showUploads (m : Mach) (h : Nat) : Mach :=
  let due := m.scene.shown.filter (fun p => p.2.2 ≤ h)
  let m := { m with scene := { m.scene with shown := m.scene.shown.filter (fun p => h < p.2.2) } }
  each due m (fun m p =>
    ((m.setN (0x51A0 + p.1) 8 4).setN (0x51A0 + p.1) 9 h).raise 0x7007 p.1 [(1, p.1), (1, p.2.1), (8, h)])

/-! ### Clips (R133 to R138) -/

/-- RECORD_START (R134, R138). -/
def Mach.startRecording (m : Mach) : Except Nat Mach :=
  let st := m.objN 0x51B1 6
  if st = 1 ∨ st = 2 then .error abPrecondition
  else
    let s := m.objN 0x51B1 3
    let r : Recording := ⟨m.objN 0x51B1 1, m.objN 0x51B1 2, if s = 0 then m.heat.number + 1 else s, m.objN 0x51B1 4, s = 0⟩
    .ok (({ m with scene := { m.scene with recording := some r } }.setN 0x51B1 6 1).setN 0x51B1 7 0)

/-- A recording from the next heat to start begins with heat h (R134, R138). -/
def Mach.recordFrom (m : Mach) (h : Nat) : Mach :=
  { m with scene := { m.scene with recording := m.scene.recording.map (fun (r : Recording) =>
      if r.next then { r with start := h, next := false } else r) } }

/-- RECORD_STOP (R134). -/
def Mach.recordStop (m : Mach) : Except Nat Mach :=
  if m.scene.recording.isNone then .error abNothing else .ok (m.stopRecording 0)

/-- Whether a clip is played by an enabled CLIP layer or recorded (R138), from the start of its recording on, ARMED included (DESIGN CHOICE,
log entry 95). -/
def Mach.clipInUse (m : Mach) (id : Nat) : Bool :=
  (m.scene.vdesc.any (fun d => d.enable && d.mode = 2 && d.clip = id)) ||
    (m.scene.recording.map Recording.clip) = some id

/-- Removes a clip from the store. -/
def Mach.dropClip (m : Mach) (id : Nat) : Mach :=
  { m with scene := { m.scene with clips := m.scene.clips.filter (fun c => c.id != id) } }

/-- CLIP_DELETE (R138). -/
def Mach.deleteClip (m : Mach) : Except Nat Mach :=
  let id := m.objN 0x51B2 1
  if m.clipInUse id then .error abInUse else .ok (m.dropClip id)

/-- Deletes the clips with an extent in a lost range, with event 0x700A reason 4 (R137). A clip being recorded is lost with the frames it has so
far, and its recording goes on (DESIGN CHOICE, log entry 95). -/
def Mach.loseExtents (m : Mach) (es : List Nat) : Mach :=
  let lost := m.scene.clips.filter (fun c => c.extents.any (fun e => es.contains e))
  each lost m (fun m c => (m.dropClip c.id).raise 0x700A c.id [(1, c.id), (4, c.frames.length), (1, 4)])

/-- The frames of clip data in the format of R136; none when it breaks the format or mixes source sizes. Offsets count from the clip's first frame,
so the first is 0; a recording whose first content came after its start heat breaks that (DESIGN CHOICE, log entry 95). -/
def clipFrames : Nat → Nat → Bytes → List ClipFrame → Option (List ClipFrame)
  | 0, _, _, _ => none
  | n + 1, at_, b, done =>
    if b = [] then some done
    else
      let f : ClipFrame := ⟨ofBE (b.take 4), ofBE (slice 4 1 b), ofBE (slice 8 2 b), ofBE (slice 10 2 b), ofBE (slice 12 4 b), at_ + 16⟩
      let size := 16 + (f.length + 7) / 8 * 8
      let fits : Bool := match done.getLast? with
        | none => f.offset = 0
        | some g => g.offset < f.offset && g.width = f.width && g.height = f.height
      let pad := slice (16 + f.length) (size - 16 - f.length) b
      if 16 ≤ b.length ∧ size ≤ b.length ∧ 1 ≤ f.width ∧ f.width ≤ 4096 ∧ 1 ≤ f.height ∧ f.height ≤ 2160 ∧ 16 ≤ f.length ∧
          f.length ≤ 67108864 ∧ fits ∧ pad.all (· = 0) then
        clipFrames n (at_ + size) (b.drop size) (done ++ [f])
      else none

/-- A clip written through 0x51B3 replaces the selected clip at the end of its transfer (R136); the reserved bytes of its records are kept as
0 (R9). One that finds too few free extents is refused with 0x0800_002A (DESIGN CHOICE, log entry 95). -/
def Mach.writeClip (m : Mach) (b : Bytes) : Except Nat Eff :=
  let id := m.objN 0x51B2 1
  match clipFrames (b.length / 32 + 1) 0 b [] with
  | none => .error abInconsistent
  | some fs =>
    let m := m.dropClip id
    let need := extentsFor b.length
    let free := m.freeExtents.take need
    if free.length < need then .error abInconsistent
    else
      let c : Clip := ⟨id, fs, free, b.length⟩
      let b := fs.foldl (fun b f => b.take (f.at_ - 11) ++ [0, 0, 0] ++ b.drop (f.at_ - 8)) b
      let m := if fs = [] then m else { m with scene := { m.scene with clips := m.scene.clips ++ [c] } }
      .ok (m.storeAll (c.writes (need + 1) 0 b))

/-- The heat of the next clip frame of a layer (R135), with the frame. With a start frame beyond the clip's last nothing plays (DESIGN CHOICE, log
entry 95). -/
def Mach.nextClipFrame (m : Mach) (k : Nat) : Option (Clip × ClipFrame × Nat) :=
  let d := m.vdesc k
  let x := m.layer k
  match m.clip? d.clip with
  | none => none
  | some c => match c.frames[x.playFrame]?, c.frames[d.clipStart]?, c.frames.getLast? with
    | some f, some s, some l =>
      let period := l.offset - s.offset + max 1 l.span
      some (c, f, d.playStart + (f.offset - s.offset) + x.playLoop * period)
    | _, _, _ => none

/-- Places the clip frames of a layer that are due at a frame tick, whose number is F (R135): a frame of heat F+2 becomes a pending
content, abandoned with reason 2 where its clip reads as poison (R273); one of heat F+1 or below is skipped and counted as stale. One
for which ingress staging has no room, or that would be a fourth pending content of its layer, is skipped and counted nowhere (DESIGN CHOICE,
log entry 63). -/
def Mach.playClip (c : Ctx) (k : Nat) : Nat → Mach → Eff
  | 0, m => .of m
  | n + 1, m =>
    let d := m.vdesc k
    if !d.enable ∨ d.mode ≠ 2 ∨ (m.layer k).playDone then .of m
    else match m.nextClipFrame k with
      | none => .of m
      | some (cl, f, j) =>
        let now := m.frameNo
        if now + 2 < j then .of m
        else
          let last := (m.layer k).playFrame + 1 = cl.frames.length
          let step (m : Mach) : Mach :=
            if !last then m.onLayer k (fun x => { x with playFrame := x.playFrame + 1 })
            else if d.loop then m.onLayer k (fun x => { x with playFrame := d.clipStart, playLoop := x.playLoop + 1 })
            else (m.onLayer k (fun x => { x with playDone := true })).raise 0x700B k [(1, k), (1, d.clip), (8, j)]
          if j ≤ now + 1 then Mach.playClip c k n (step (m.bump (0x5140 + k) 0x0A))
          else
            let span := if last ∧ !d.loop then 0 else f.span
            let room := (m.layer k).pending.length < 3 ∧ m.stagingUse + f.length ≤ stagingSize ∧
              !(m.layer k).pending.any (fun x => x.origin = .clip d.clip && x.heat = j)
            let t : Content := { origin := .clip d.clip, heat := j, span := span, width := f.width, height := f.height,
                                 length := f.length, runs := [(0, cl.read c.mem f.at_ f.length)], place := m.stagingPlace f.length }
            let m := if room then m.strike (sourceBase 9) (cl.runs f.at_ f.length) else m
            let e : Eff := if !room then .of m
              else if m.clipPoisoned cl f.at_ f.length then .of ((m.reads (sourceBase 9) (cl.runs f.at_ f.length)).abandon k t 2)
              else ((m.reads (sourceBase 9) (cl.runs f.at_ f.length)).onLayer k (fun x => { x with pending := x.pending ++ [t] })).storeAll (t.stage t.runs)
            e.then_ (fun m => Mach.playClip c k n (step (m.showPending k)))

/-- Playback passes the frames of a layer's clip whose heat is at or below a frame number plus 1. -/
def Mach.passClip (k f : Nat) : Nat → Mach → Mach
  | 0, m => m
  | n + 1, m => match m.nextClipFrame k with
    | none => m
    | some (cl, _, j) =>
      if f + 1 < j ∨ (m.layer k).playDone then m
      else
        Mach.passClip k f n (m.onLayer k (fun x =>
          if x.playFrame + 1 < cl.frames.length then { x with playFrame := x.playFrame + 1 }
          else if (m.vdesc k).loop then { x with playFrame := (m.vdesc k).clipStart, playLoop := x.playLoop + 1 }
          else { x with playDone := true }))

/-- Heats start anew at frame tick f. Where frame numbers have gone back, playback of every layer goes on at the first frame whose tick J − 2 is
still to come (R135); the frames before it are not counted anew (DEDUCED, log entry 96). -/
def Mach.rewindClips (m : Mach) (f : Nat) : Mach :=
  if m.frameNo < f then m
  else each (upTo 64) m (fun m k =>
    let d := m.vdesc k
    if !d.enable ∨ d.mode ≠ 2 then m
    else Mach.passClip k f (f + 4) (m.onLayer k (fun x => { x with playFrame := d.clipStart, playLoop := 0, playDone := false })))

end Sys2Proof.Machine
end

