-- ==== Sys2Proof/Machine/Synthesis.lean ====
section
/-! DEFINITION. The view synthesis engine: rays (R141 to R154), plane sets and splits (R156 to R163), the emitter pipeline and stress
(R341, R344, R345), clusters and contexts (R164 to R168), and the row runs they stage (R316). -/

namespace Sys2Proof.Machine

/-! ### Directions (R141 to R143) -/

/-- Lens shift of slot s (R141). -/
def lensShift (slots s : Nat) : Nat × Nat :=
  if slots = 16 then (s % 4, s / 4) else if slots = 8 then (s % 4, 2 * (s / 4))
  else if slots = 4 then (2 * (s % 2), 2 * (s / 2)) else (0, 0)

/-- The direction term 2q − 31 of a direction position; 0 with one slot (R144). -/
def directionTerm (slots q : Nat) : Int := if slots = 1 then 0 else 2 * (q : Int) - 31

/-- Largest direction position of an axis at a slot count (R141). -/
def lastPosition (slots : Nat) (vertical : Bool) : Nat :=
  if slots = 16 then 31 else if slots = 8 then (if vertical then 30 else 31) else 30

/-! ### Positions and filters (R144 to R151) -/

/-- The shear position of R144 on one axis. -/
def shear (x : Int) (disp du : Int) (scale : Nat) (offset : Int) : Int :=
  let h := x * 65536 + 32768 + disp * du * 32
  ((scale : Int) * h + 32768) / 65536 + offset

/-- Centre sample and filter phase of R146 on one axis. -/
def centre (p : Int) : Int × Nat :=
  let q := p - 32768 + 512
  let i := q / 65536
  (i, (q / 1024 - 64 * i).toNat)

/-- A coefficient of filter set 0 (R150). -/
def cubic (phase : Nat) : List Int :=
  let f : Int := phase
  let k1 := -f * f * f + 128 * f * f - 4096 * f
  let k3 := -3 * f * f * f + 256 * f * f + 4096 * f
  let k4 := f * f * f - 64 * f * f
  let c1 := (k1 + 1024) / 2048
  let c3 := (k3 + 1024) / 2048
  let c4 := (k4 + 1024) / 2048
  [0, c1, 256 - c1 - c3 - c4, c3, c4, 0]

/-- The 768 bytes of filter set 0 (R150, R151). -/
def cubicBytes : Bytes := (upTo 64).flatMap (fun p => (cubic p).flatMap (fun c => beBytes 2 (toUnsigned 16 c)))

/-- The six coefficients of a phase of a set: the fixed set for an empty list of bytes (R148, R151). -/
def coefficients (set_ : Bytes) (phase : Nat) : List Int :=
  if set_ = [] then cubic phase else (upTo 6).map (fun i => toSigned 16 (ofBE (slice (12 * phase + 2 * i) 2 set_)))

/-- Whether a filter set obeys R148. -/
def filterAllowed (b : Bytes) : Bool :=
  b.length = 768 && (upTo 64).all (fun p =>
    let c := coefficients b p
    c.all (fun x => -512 ≤ x && x ≤ 511) && c.sum = 256 && (c.map Int.natAbs).sum ≤ 512)

/-- A 12-bit result of a filter sum: rounded half up, then clamped (R149). -/
def clamp12 (s : Int) : Nat := (max 0 (min 4095 ((s + 128) / 256))).toNat

/-- Clamps an index to 0 … n − 1 (R147). -/
def clampIndex (i : Int) (n : Nat) : Nat := (max 0 (min ((n : Int) - 1) i)).toNat

/-- A layer that takes part in a pour: video k or graphic 64 + g, its depth order, its image and its descriptor. `filter` is none
for a graphic layer. -/
structure RayLayer where
  id : Nat
  order : Nat
  base : Nat
  width : Nat
  height : Nat
  disp : Int
  scaleX : Nat
  scaleY : Nat
  offX : Int
  offY : Int
  filter : Option Bytes
  deriving DecidableEq, Repr

/-- A stored sample of a layer's image (R111). -/
def RayLayer.sample (l : RayLayer) (mem : Mem) (i j : Nat) : Sample := Sample.ofWord (memLE mem (sampleAt l.base l.width i j) 6)

/-- The weighted sum of six samples in one channel. -/
def filterSum (c : List Int) (v : List Nat) : Int := (List.zipWith (fun (a : Int) (b : Nat) => a * b) c v).sum

/-- The filtered sample of a video layer at a centre sample and phases (R149). -/
def RayLayer.filtered (l : RayLayer) (mem : Mem) (set_ : Bytes) (ix iy : Int) (phx phy : Nat) : Sample :=
  let cx := coefficients set_ phx
  let cy := coefficients set_ phy
  let rows := (upTo 6).map (fun (j : Nat) => (upTo 6).map (fun (i : Nat) =>
    l.sample mem (clampIndex (ix - 2 + (i : Int)) l.width) (clampIndex (iy - 2 + (j : Int)) l.height)))
  let channel (f : Sample → Nat) : Nat := clamp12 (filterSum cy (rows.map (fun r => clamp12 (filterSum cx (r.map f)))))
  ⟨channel Sample.r, channel Sample.g, channel Sample.b, channel Sample.a⟩

/-- What a layer gives a ray; none when the sample position lies outside (R146, R147, R152). -/
def RayLayer.at_ (l : RayLayer) (mem : Mem) (x y du dv : Int) : Option Sample :=
  let inside (ix iy : Int) : Bool := 0 ≤ ix && ix < l.width && 0 ≤ iy && iy < l.height
  match l.filter with
  | some set_ =>
    let (ix, phx) := centre (shear x l.disp du l.scaleX l.offX)
    let (iy, phy) := centre (shear y l.disp dv l.scaleY l.offY)
    if inside ix iy then some (l.filtered mem set_ ix iy phx phy) else none
  | none =>
    let ix := (x * 65536 + 32768 + l.disp * du * 32) / 65536
    let iy := (y * 65536 + 32768 + l.disp * dv * 32) / 65536
    if inside ix iy then some (l.sample mem ix.toNat iy.toNat) else none

/-! ### Compositing (R153, R154) -/

/-- A ray's value with its blends and whether it terminated early. -/
structure Ray where
  r : Nat
  g : Nat
  b : Nat
  blends : Nat
  early : Bool
  deriving DecidableEq, Repr

/-- The loop of R153 over the layers in ascending depth order. -/
def composite (mem : Mem) (x y du dv : Int) : List RayLayer → Nat → Nat → Nat → Nat → Nat → Ray
  | [], cr, cg, cb, _, n => ⟨div65535 (cr * 4095), div65535 (cg * 4095), div65535 (cb * 4095), n, false⟩
  | l :: rest, cr, cg, cb, t, n =>
    if t < 16 then ⟨div65535 (cr * 4095), div65535 (cg * 4095), div65535 (cb * 4095), n, true⟩
    else match l.at_ mem x y du dv with
      | none => composite mem x y du dv rest cr cg cb t n
      | some s =>
        composite mem x y du dv rest (min 65535 (cr + mul16 (x16 s.r) t)) (min 65535 (cg + mul16 (x16 s.g) t))
          (min 65535 (cb + mul16 (x16 s.b) t)) (mul16 t (65535 - x16 s.a)) (n + 1)

/-- The ray of hogel (x, y) at a direction position (R155). -/
def rayAt (mem : Mem) (ls : List RayLayer) (slots x y uq vq : Nat) : Ray :=
  composite mem x y (directionTerm slots uq) (directionTerm slots vq) ls 0 0 0 65535 0

/-! ### Layers of a heat -/

/-- Base address of image `i` of graphic layer `g` (R257). -/
def graphicBase (g i : Nat) : Nat := 0x240000000 + (3 * g + i) * 12582912

/-- Orders layers by depth (R153). -/
def byDepth (ls : List RayLayer) : List RayLayer := sortBy (fun a b => a.order ≤ b.order) ls

/-- A video layer as it takes part with a binding. -/
def Mach.rayLayer (m : Mach) (k : Nat) (b : Bound) : RayLayer :=
  let d := m.vdesc k
  let set_ := m.heat.filters.getD k 0
  { id := k, order := d.order, base := layerBase k b.buf, width := b.width, height := b.height, disp := d.disp, scaleX := d.scaleX,
    scaleY := d.scaleY, offX := d.offX, offY := d.offY, filter := some (if set_ = 0 then [] else m.heat.sets.getD (set_ - 1) []) }

/-- The graphic layers that take part. -/
def Mach.graphicLayers (m : Mach) : List RayLayer :=
  (upTo 4).filterMap (fun g =>
    let d := m.gdesc g
    if d.enable then
      some { id := 64 + g, order := d.order, base := graphicBase g (m.heat.boundG.getD g 1), width := 1920, height := 1080,
             disp := d.disp, scaleX := 65536, scaleY := 65536, offX := 0, offY := 0, filter := none }
    else none)

/-- The layers that take part in version 1 of the heat (R90, R153), by depth. -/
def Mach.layers1 (m : Mach) : List RayLayer :=
  byDepth (((upTo 64).filterMap (fun k => (m.heat.bound1.getD k none).map (m.rayLayer k))) ++ m.graphicLayers)

/-- The layers that take part in version 2 (R97, R126): the v2 set complete, all others as in the snapshot. -/
def Mach.layers2 (m : Mach) : List RayLayer :=
  let v2 := (m.heat.decision.map Prod.snd).getD 0
  byDepth (((upTo 64).filterMap (fun k =>
    (if v2.testBit k then m.heat.bound2.getD k none else m.heat.bound1.getD k none).map (m.rayLayer k))) ++ m.graphicLayers)

/-- The layers of a version of a pour (R162). -/
def Mach.pourLayers (m : Mach) (p : Pour) (version : Nat) : List RayLayer :=
  (if version = 2 then m.layers2 else m.layers1).filter (fun l => !p.removed.contains l.id)

/-! ### Plane sets (R156 to R162) -/

/-- The range of centre samples of an axis for hogels a … b, widened and clamped; none when no centre sample lies inside (R156). -/
def windowAxis (l : RayLayer) (vertical : Bool) (slots : Nat) (a b : Nat) : Option (Int × Int) :=
  let size := if vertical then l.height else l.width
  let terms : List Int := if slots = 1 then [0] else [-31, 2 * (lastPosition slots vertical : Int) - 31]
  let at_ (x : Nat) (t : Int) : Int :=
    if l.filter.isSome then
      (centre (if vertical then shear x l.disp t l.scaleY l.offY else shear x l.disp t l.scaleX l.offX)).1
    else ((x : Int) * 65536 + 32768 + l.disp * t * 32) / 65536
  let cs := [a, b].flatMap (fun x => terms.map (at_ x))
  let lo := cs.foldl min (cs.headD 0)
  let hi := cs.foldl max (cs.headD 0)
  if hi < 0 ∨ (size : Int) ≤ lo then none
  else
    let w : Int × Int := if l.filter.isSome then (2, 3) else (0, 0)
    some (max 0 (lo - w.1), min ((size : Int) - 1) (hi + w.2))

/-- The windows of a layer for the 36 hogel rows of a tile: rows of the source, where not empty (R156). -/
def rowWindows (l : RayLayer) (slots y0 : Nat) : List (Option (Int × Int)) :=
  (upTo 36).map (fun y => windowAxis l true slots (y0 + y) (y0 + y))

/-- Rows in the union of ascending windows. -/
def unionRows (ws : List (Option (Int × Int))) : Nat :=
  (ws.foldl (fun (a : Int × Nat) w => match w with
    | none => a
    | some (lo, hi) =>
      let from_ := max lo (a.1 + 1)
      (max a.1 hi, a.2 + (hi + 1 - from_).toNat)) (-1, 0)).2

/-- Bytes of a layer's footprint for hogel columns a … b of the tile at hogel (x0, y0) (R156). -/
def footprint (l : RayLayer) (slots x0 y0 a b : Nat) : Nat :=
  match windowAxis l false slots (x0 + a) (x0 + b) with
  | none => 0
  | some (lo, hi) => (hi + 1 - lo).toNat * unionRows (rowWindows l slots y0) * 6

/-- The resident share s_k(y) of a layer (R157), from its columns and the row windows. -/
def residentShare (cols : Nat) (ws : List (Option (Int × Int))) (y : Nat) : Nat :=
  match ws.getD y none, ws.getD (min (y + 1) 35) none with
  | none, none => 0
  | some (lo, hi), none => cols * (hi + 1 - lo).toNat * 6
  | none, some (lo, hi) => cols * (hi + 1 - lo).toNat * 6
  | some (lo, _), some (_, hi) => cols * (hi + 1 - lo).toNat * 6

/-- S_peak of hogel columns a … b (R157). -/
def peakOf (ls : List RayLayer) (slots x0 y0 a b : Nat) : Nat :=
  let shares := ls.map (fun l =>
    let cols := match windowAxis l false slots (x0 + a) (x0 + b) with
      | none => 0
      | some (lo, hi) => (hi + 1 - lo).toNat
    (cols, rowWindows l slots y0))
  ((upTo 36).map (fun y => (shares.map (fun s => residentShare s.1 s.2 y)).sum)).foldl max 0

/-- The source rows that hogel rows f … t − 1 add to those of hogel rows `start` … f − 1 (R157), as ranges. -/
def rowsAdded (ws : List (Option (Int × Int))) (start f t : Nat) : List (Int × Int) :=
  let top := (((ws.take f).drop start).filterMap id).foldl (fun a w => max a w.2) (-1)
  (((ws.take t).drop f).foldl (fun (a : Int × List (Int × Int)) w => match w with
    | none => a
    | some (lo, hi) =>
      let from_ := max lo (a.1 + 1)
      if hi < from_ then a else (hi, a.2 ++ [(from_, hi)])) (top, [])).2

/-- K(m) of R159. -/
def contextCapacity (margin : Nat) : Nat := 68 * (60 + 2 * margin) * (2 * margin + 2) * 6

/-- The band counts of R161. -/
def bandCounts : List Nat := [1, 2, 3, 4, 5, 6, 10, 12, 15, 20, 30, 60]

/-- The largest S_peak of a pour's n equal bands. -/
def bandPeak (ls : List RayLayer) (slots x0 y0 n : Nat) : Nat :=
  ((upTo n).map (fun i => peakOf ls slots x0 y0 (60 / n * i) (60 / n * i + 60 / n - 1))).foldl max 0

/-- The fewest bands whose S_peak fits a capacity, with the largest S_peak of them (R161). -/
def splitFor (ls : List RayLayer) (slots x0 y0 cap : Nat) : Option (Nat × Nat) :=
  bandCounts.findSome? (fun n => let p := bandPeak ls slots x0 y0 n; if p ≤ cap then some (n, p) else none)

/-- Removes layers deepest first until the pour fits (R162): the layers left, those removed, the bands and S_peak. -/
def fitPour (slots x0 y0 cap : Nat) : Nat → List RayLayer → List Nat → List Nat × Nat × Nat
  | 0, _, gone => (gone, 1, 0)
  | n + 1, ls, gone =>
    match splitFor ls slots x0 y0 cap with
    | some (k, p) => (gone, k, p)
    | none => fitPour slots x0 y0 cap n (ls.dropLast) (gone ++ (ls.getLast?.map RayLayer.id).toList)

/-- First hogel of a panel position (R143). -/
def panelX (p : Nat) : Nat := 60 * (p % 32)

/-- First hogel row of a panel position (R143). -/
def panelY (p : Nat) : Nat := 36 * (p / 32)

/-- The pour of a tile with its split, removed layers and layer-read mask (R158, R161, R162). -/
def makePour (ls : List RayLayer) (slots margin c pos panel : Nat) : Pour :=
  let x0 := panelX panel
  let y0 := panelY panel
  let (gone, n, peak) := fitPour slots x0 y0 (contextCapacity margin) (ls.length + 1) ls []
  let left := ls.filter (fun l => !gone.contains l.id)
  let mask := (left.filter (fun l => l.id < 64 && footprint l slots x0 y0 0 59 != 0)).foldl (fun a l => a + 2 ^ l.id) 0
  { c := c, pos := pos, panel := panel, bands := n, removed := gone, peak := peak, mask := mask }

/-! ### The emitter pipeline (R341) and stress (R344, R345) -/

/-- Gain slot bound to a panel position for the heat (R342, R347). -/
def Mach.gainSlot (m : Mach) (p : Nat) : Nat :=
  match m.heat.gains.find? (fun g => g.1 = p) with
  | some g => g.2
  | none => p

/-- Address of the gain of a tile-local emitter in a gain slot (R347). -/
def gainAddress (slot ex ey : Nat) : Nat := 0x250000000 + slot * 276480 + (480 * ey + ex) * 2

/-- The gain of an emitter: unity where its access reads as poison (R357). -/
def Mach.gainAt (m : Mach) (mem : Mem) (p ex ey : Nat) : Nat :=
  let a := gainAddress (m.gainSlot p) ex ey
  if m.poisonedAt a 2 then 0x8000 else memLE mem a 2

/-- The ceiling in force for a tile (R341, R342, R370). -/
def Mach.ceilingFor (m : Mach) (p : Nat) : Nat := if m.heat.dark.contains p then 0 else m.heat.ceiling

/-- A drive value (R341). -/
def driveValue (e12 g16 ceiling : Nat) : Nat := min (min 4095 ((e12 * g16 + 16384) / 32768)) ceiling

/-- Base address of a panel position's stress image (R348). -/
def stressBase (p : Nat) : Nat := 0x260000000 + p * 552960

/-- Address of the 12 bytes that hold the counters of emitters 3j … 3j + 2 of a row (R348). -/
def stressGroup (p j ey : Nat) : Nat := stressBase p + ey * 1920 + j * 12

/-- Reads a group of three counters (R348). -/
def readGroup (b : Bytes) : List Nat :=
  let v := ofLE (b.take 6) * 2 ^ 48 + ofLE (slice 6 6 b)
  [v / 2 ^ 64 % 2 ^ 32, v / 2 ^ 32 % 2 ^ 32, v % 2 ^ 32]

/-- Writes a group of three counters (R348). -/
def groupBytes (c : List Nat) : Bytes :=
  let v := c.getD 0 0 * 2 ^ 64 + c.getD 1 0 * 2 ^ 32 + c.getD 2 0
  leBytes 6 (v / 2 ^ 48) ++ leBytes 6 (v % 2 ^ 48)

/-- The slot length q in units of 1/15,360 s (R344). -/
def slotLength (n d slots : Nat) : Nat := (15360 * n + d * slots / 2) / (d * slots)

/-- The dither of R344. -/
def dither (h i : Nat) : Nat :=
  let x := (h % 2 ^ 32 * 0x9E3779B1 + i * 0x85EBCA77) % 2 ^ 32
  let x := x ^^^ (x / 2 ^ 15)
  let x := x * 0x2C1B3C6D % 2 ^ 32
  x ^^^ (x / 2 ^ 12)

/-- The increment of a stress counter (R344). -/
def stressStep (acc weight h i : Nat) : Nat := (acc * weight + dither h i % 0x800000) / 2 ^ 23

/-- The default drive weights wd[i] = 4i + 3 (R377). -/
def defaultWeights : Bytes := (upTo 64).map (fun i => BitVec.ofNat 8 (4 * i + 3))

/-- The default temperature weights (R377). -/
def defaultTempWeights : Bytes := [6, 8, 11, 16, 23, 32, 45, 64]

/-- The band latched for a tile (R344). -/
def Mach.bandFor (m : Mach) (p : Nat) : Nat := ((m.heat.bands.find? (fun b => b.1 = p)).map Prod.snd).getD 3

/-- Drive values of a tile-local emitter in a slot (R143, R341), with its ray. -/
def Mach.emitter (m : Mach) (mem : Mem) (ls : List RayLayer) (p slots s ex ey : Nat) : Ray × Nat × Nat × Nat :=
  let (sx, sy) := lensShift slots s
  let ray := rayAt mem ls slots (panelX p + ex / 8) (panelY p + ey / 8) (4 * (ex % 8) + sx) (4 * (ey % 8) + sy)
  let g := m.gainAt mem p ex ey
  let c := m.ceilingFor p
  (ray, driveValue ray.r g c, driveValue ray.g g c, driveValue ray.b g c)

/-- 36 bits of an emitter, most significant first (R316). -/
def emitterBits (v : Nat × Nat × Nat) : List Bool := bitsMsb 36 ((v.1 * 4096 + v.2.1) * 4096 + v.2.2)

/-- Packs bits into bytes, most significant first. -/
def packBits : Nat → List Bool → Bytes
  | 0, _ => []
  | n + 1, b => BitVec.ofNat 8 (ofBits (b.take 8)) :: packBits n (b.drop 8)

/-- What one hogel row of a band gives: per slot, emitter row and emitter column the ray and drive values. -/
def Mach.rowEmitters (m : Mach) (mem : Mem) (p : Pour) (version row a w : Nat) :
    List (Nat × Nat × Nat × Ray × Nat × Nat × Nat) :=
  let slots := m.heat.slots
  let ls := m.pourLayers p version
  (upTo slots).flatMap (fun s => (upTo 8).flatMap (fun f => (upTo (8 * w)).map (fun i =>
    let ex := 8 * a + i
    let ey := 8 * row + f
    (s, ex, ey, m.emitter mem ls p.panel slots s ex ey))))

/-- The bytes of a row run (R316). -/
def runBytes (es : List (Nat × Nat × Nat × Ray × Nat × Nat × Nat)) : Bytes :=
  packBits (es.length * 36 / 8) (es.flatMap (fun e => emitterBits e.2.2.2.2))

/-- Cuts a row run into the data of its pieces of 4,096 B (R316). -/
def pieces : Nat → Bytes → List Bytes
  | 0, _ => []
  | n + 1, b => if b = [] then [] else b.take 4096 :: pieces n (b.drop 4096)

/-- The rays of a row that are computed: each of R141 once; one per hogel with one slot (R143). -/
def raysOf (slots : Nat) (es : List (Nat × Nat × Nat × Ray × Nat × Nat × Nat)) : List Ray :=
  (es.filter (fun e => slots != 1 || (e.2.1 % 8 = 0 && e.2.2.1 % 8 = 0))).map (fun e => e.2.2.2.1)

/-- The runs of memory from which the pipeline reads the gains of a hogel row of a band (R347). -/
def Mach.gainRuns (m : Mach) (p : Pour) (row a w : Nat) : List (Nat × Nat) :=
  (upTo 8).map (fun f => (gainAddress (m.gainSlot p.panel) (8 * a) (8 * row + f), 16 * w))

/-- The runs of memory that hold the stress counters of a hogel row of a band (R348). -/
def stressRuns (p : Pour) (row a w : Nat) : List (Nat × Nat) :=
  (upTo 8).map (fun f => (stressGroup p.panel (8 * a / 3) (8 * row + f), 12 * ((8 * (a + w) + 2) / 3 - 8 * a / 3)))

/-- What the pipeline reads for a hogel row: gains, and with version 1 the stress counters (R341, R344). -/
def Mach.pipelineRuns (m : Mach) (p : Pour) (version row a w : Nat) : List (Nat × Nat) :=
  m.gainRuns p row a w ++ (if version = 1 then stressRuns p row a w else [])

/-- Whether counter `t` of a group has a bit in byte `i` of its 12 (R348): bytes 0 to 5 hold bits 95:48 least significant first, bytes 6 to 11
bits 47:0. -/
def counterHas (t i : Nat) : Bool :=
  let low := if i < 6 then 48 + 8 * i else 8 * (i - 6)
  let first := 64 - 32 * t
  first ≤ low && low < first + 32

/-- Base of a snapshot buffer in checkpoint staging (R257, R354; DESIGN CHOICE, log entry 99: where the buffers lie there). -/
def snapshotBase (buffer : Nat) : Nat := 0x280000000 + buffer * 552960

/-- The snapshot buffer that version 1 of a panel position is also written to in the heat in flight, if a checkpoint of it is under way (R354
step 1). -/
def Mach.snapshotOf (m : Mach) (p : Nat) : Option Nat :=
  (m.panel.checkpoints.find? (fun k => k.panel = p && k.heat = some m.heat.number && !k.snapped)).map Checkpoint.buffer

/-- The stress writes of a hogel row of version 1 (R344, R345), and whether a counter reached its largest value. -/
def Mach.stressRow (m : Mach) (mem : Mem) (p : Pour) (row a w : Nat)
    (es : List (Nat × Nat × Nat × Ray × Nat × Nat × Nat)) : List MemWrite × Bool :=
  let h := m.heat
  let q := slotLength (m.objN 0x5000 7) (m.objN 0x5000 8) h.slots
  let wt := (h.tempWeights.getD (m.bandFor p.panel) 0).toNat
  let acc (ex ey : Nat) : Nat :=
    ((es.filter (fun e => e.2.1 = ex ∧ e.2.2.1 = ey)).map (fun e =>
      let v := e.2.2.2.2
      (h.weights.getD (max v.1 (max v.2.1 v.2.2) / 64) 0).toNat * q)).sum
  let groups := (upTo 8).flatMap (fun f => (upTo ((8 * (a + w) + 2) / 3 - 8 * a / 3)).map (fun i => (8 * row + f, 8 * a / 3 + i)))
  groups.foldl (fun (out : List MemWrite × Bool) g =>
    let (ey, j) := g
    let at_ := stressGroup p.panel j ey
    let old := readGroup (memLoad mem at_ 12)
    let new := (upTo 3).map (fun t =>
      let ex := 3 * j + t
      let c := old.getD t 0
      let mine := 8 * a ≤ ex ∧ ex < 8 * (a + w)
      let stopped := (upTo 12).any (fun b =>
        counterHas t b && (m.panel.affected.contains (p.panel, (at_ + b) / 64 * 64) || m.poisonedAt (at_ + b) 1))
      if mine ∧ !stopped then min 0xFFFFFFFF (c + stressStep (acc ex ey) wt h.number (480 * ey + ex)) else c)
    (out.1 ++ [⟨at_, groupBytes new⟩], out.2 || (old.zip new).any (fun x => x.1 != x.2 && x.2 = 0xFFFFFFFF))) ([], false)

/-! ### Clusters (R164 to R169) -/

/-- A cluster. -/
def Mach.cluster (m : Mach) (c : Nat) : Cluster := m.pipe.clusters.getD c {}

/-- Changes a cluster. -/
def Mach.onCluster (m : Mach) (c : Nat) (f : Cluster → Cluster) : Mach :=
  { m with pipe := { m.pipe with clusters := modAt m.pipe.clusters c f } }

/-- Whether a cluster renders: IN_USE and not stopped (R167). -/
def Mach.clusterUp (m : Mach) (c : Nat) : Bool := m.objN (0x5320 + c) 1 = 1 && !(m.cluster c).stopped

/-- Clusters in a state (0x5320+c:01). -/
def Mach.clusterCount (m : Mach) (st : Nat) : Nat := ((upTo 68).filter (fun c => m.objN (0x5320 + c) 1 = st)).length

/-- Bytes of pour segments that a chain's tundish holds (R317, R318). -/
def Mach.tundishUse (m : Mach) (c : Nat) : Nat :=
  ([2 * c, 2 * c + 1].map (fun l =>
    let x := m.lane l
    (((x.staged ++ x.naked ++ x.unacked.map Prod.fst).filter (fun s => s.kind = 0)).map (fun s => s.data.length)).sum)).sum

/-- Free space of a chain's tundish of 512 KiB. -/
def Mach.tundishFree (m : Mach) (c : Nat) : Nat := 524288 - m.tundishUse c

/-- S_peak of a version of a pour, of the largest of its bands (R157, R161). -/
def Pour.peakOf (p : Pour) (version : Nat) : Nat := if version = 2 then p.peak2 else p.peak

/-- Whether a context may render its next hogel row (R164): its plane-set rows are resident, and the tundish has room for its rays. -/
def Mach.eligible (m : Mach) (w : Work) : Bool :=
  match m.pour? w.panel with
  | none => false
  | some p => (p.ver w.version).row < w.rows && m.heat.slots * 288 * (60 / p.bands) ≤ m.tundishFree p.c

/-- The context a cluster renders next (R164): eligible, with more free tundish, the older pour on equal space. -/
def Mach.pickContext (m : Mach) (c : Nat) : Option Nat :=
  let free (w : Work) : Nat := ((m.pour? w.panel).map (fun p => m.tundishFree p.c)).getD 0
  match ((m.cluster c).ctx.getD 0 none).filter (m.eligible ·), ((m.cluster c).ctx.getD 1 none).filter (m.eligible ·) with
  | none, none => none
  | some _, none => some 0
  | none, some _ => some 1
  | some a, some b => if free a > free b ∨ (free a = free b ∧ a.since ≤ b.since) then some 0 else some 1

/-- Since when each context of a cluster has been eligible without completing a row (R167); the one that renders stays so. -/
def Mach.noteEligible (m : Mach) (c : Nat) : Mach :=
  m.onCluster c (fun x => { x with ctx := x.ctx.zipIdx.map (fun (y : Option Work × Nat) => y.1.map (fun w =>
    { w with eligibleAt := if x.cur = some y.2 ∨ m.eligible w then some (w.eligibleAt.getD m.now) else none })) })

/-- A cluster that renders nothing looks again for an eligible context, and its waiting time is kept while it holds a pour (R164, R173). -/
def Mach.look (m : Mach) (c : Nat) : Mach :=
  let x := m.cluster c
  if x.cur.isSome ∨ !m.clusterUp c then m
  else match m.pickContext c with
    | some i =>
      let waited := match x.waitAt with
        | some t => m.now - t
        | none => 0
      (m.onHeat (fun h => { h with waitTime := h.waitTime + waited })).onCluster c (fun x => { x with cur := some i, waitAt := none })
    | none =>
      if x.ctx.any Option.isSome then (if x.waitAt.isNone then m.onCluster c (fun x => { x with waitAt := some m.now }) else m)
      else match x.waitAt with
        | some t => (m.onHeat (fun h => { h with waitTime := h.waitTime + (m.now - t) })).onCluster c (fun x => { x with waitAt := none })
        | none => m

/-- Whether a lane feeds a pour in FETCHING or RENDERING: one that a context holds (R166). -/
def Mach.laneBusy (m : Mach) (l : Nat) : Bool :=
  (m.pipe.clusters.flatMap (fun c => c.ctx.filterMap id)).any (fun w => match m.pour? w.panel with
    | some p => m.feedLane p.c p.pos = l
    | none => false)

/-- The first entry of the pour list that a context of a cluster may take (R164, R166). -/
def Mach.firstEntry (m : Mach) : Option (Nat × Nat) :=
  m.heat.list.find? (fun e => match m.pour? e.1 with
    | some p => !m.laneBusy (m.feedLane p.c p.pos)
    | none => false)

/-- S_peak of an entry of the pour list. -/
def Mach.entryPeak (m : Mach) (e : Nat × Nat) : Nat := ((m.pour? e.1).map (fun p => p.peakOf e.2)).getD 0

/-- S_peak of the pour that a cluster holds; none when it holds none. -/
def Mach.heldPeak (m : Mach) (c : Nat) : Option Nat :=
  ((m.cluster c).ctx.filterMap id).head?.map (fun w => m.entryPeak (w.panel, w.version))

/-- Pours that a cluster holds. -/
def Mach.held (m : Mach) (c : Nat) : Nat := ((m.cluster c).ctx.filterMap id).length

/-- Whether an entry fits beside the one pour that a cluster holds (R164). -/
def Mach.pairs (m : Mach) (c : Nat) (e : Nat × Nat) : Bool :=
  (m.heldPeak c).getD 0 + m.entryPeak e ≤ 2 * contextCapacity m.heat.shear

/-- Keeps the time for which a cluster renders with one pour held because of the pairing limit (R173). -/
def Mach.noteSolo (m : Mach) (c : Nat) : Mach :=
  let x := m.cluster c
  let solo : Bool := m.clusterUp c && x.cur.isSome && m.held c = 1 && (match m.firstEntry with
    | some e => !m.pairs c e
    | none => false)
  match x.soloAt with
  | none => if solo then m.onCluster c (fun x => { x with soloAt := some m.now }) else m
  | some t =>
    if solo then m
    else (m.onHeat (fun h => { h with soloTime := h.soloTime + (m.now - t) })).onCluster c (fun x => { x with soloAt := none })

/-- A cluster looks again at its contexts (R164, R167, R173). -/
def Mach.reschedule (m : Mach) (c : Nat) : Mach := (((m.noteEligible c).look c).noteEligible c).noteSolo c

/-- Every cluster looks again. -/
def Mach.rescheduleAll (m : Mach) : Mach := each (upTo 68) m (fun m c => m.reschedule c)

/-- The runs of memory that the ladle reads for hogel rows f … t − 1 of a band of a pour, where the rows from `start` on are resident
(R156, R157). -/
def Mach.ladleRuns (m : Mach) (p : Pour) (version start f t : Nat) : List (Nat × Nat) :=
  let slots := m.heat.slots
  let w := 60 / p.bands
  let x0 := panelX p.panel + w * (p.ver version).band
  (m.pourLayers p version).flatMap (fun l => match windowAxis l false slots x0 (x0 + w - 1) with
    | none => []
    | some (lo, hi) => (rowsAdded (rowWindows l slots (panelY p.panel)) start f t).flatMap (fun r =>
        (upTo (r.2 + 1 - r.1).toNat).map (fun j => (sampleAt l.base l.width lo.toNat (r.1.toNat + j), 6 * (hi + 1 - lo).toNat))))

/-- The ladle reads plane-set rows (R157): each footprint row once, counted; with poison in them the pour version is no longer sent,
with its segments that are staged (R273). -/
def Mach.ladle (m : Mach) (p : Pour) (version start f t : Nat) : Mach :=
  let runs := m.ladleRuns p version start f t
  let bytes := (runs.map Prod.snd).sum
  let m := (m.reads (sourceBase 0) runs).onHeat (fun h => { h with planeBytes := h.planeBytes + bytes })
  if runs.any (fun r => m.poisonedAt r.1 r.2) then
    (m.dropSegs (m.feedLane p.c p.pos) p.pos version 0 (m.heat.number % 256)).stopVersion p.panel version
  else m

/-- The buffers that a version of a pour reads are busy (R127, R178). -/
def Mach.holdBuffers (m : Mach) (p : Pour) (version : Nat) : Mach :=
  let slots := m.heat.slots
  let w := 60 / p.bands
  let reads (l : RayLayer) : Bool :=
    (upTo p.bands).any (fun b => footprint l slots (panelX p.panel) (panelY p.panel) (w * b) (w * b + w - 1) != 0)
  each ((m.pourLayers p version).filter reads) m (fun m l =>
    if l.id < 64 then m.markBusy l.id (if l.base = layerBase l.id 0 then 0 else 1) m.heat.number
    else
      let g := l.id - 64
      { m with outs := { m.outs with graphics := modAt m.outs.graphics g (fun x =>
          { x with busy := addNew x.busy (m.heat.boundG.getD g 1, m.heat.number) }) } })

/-- A version whose opening rows are resident is RENDERING (R89). -/
def Ver.begun (v : Ver) : Ver := if v.state = 2 then { v with state := 3 } else v

/-- A context takes a pour: the ladle begins its plane set (R89, R157, R166), or finds its opening rows in a lookahead pool (R159): rows that were read
are not read again, whichever cluster takes the pour (R157; DESIGN CHOICE, log entry 97). A pour that was re-issued goes on at its next row
(R167). -/
def Mach.takePour (m : Mach) (c : Nat) (e : Nat × Nat) : Mach :=
  match m.pour? e.1 with
  | none => m
  | some p =>
    let i := if ((m.cluster c).ctx.getD 0 none).isNone then 0 else 1
    let y := (p.ver e.2).row
    let there : Bool := m.pipe.clusters.any (fun x => x.ahead = some e)
    let m := (m.holdBuffers p e.2).onHeat (fun h => { h with list := h.list.erase e })
    let m := m.onPour e.1 (fun p => p.onVer e.2 (fun v =>
      let v := if v.state = 1 then { v with state := 2 } else v
      if there then v.begun else v))
    let m := m.onPipe (fun q => { q with clusters := q.clusters.map (fun (x : Cluster) =>
      if x.ahead = some e then { x with ahead := none } else x) })
    m.onCluster c (fun x => { x with ctx := setAt x.ctx i (some ⟨e.1, e.2, y, if there then min 36 (y + 2) else 0, m.now, none⟩) })

/-- One free context takes the first entry it may: of the cluster whose lookahead pool has its opening rows (R166), else clusters with fewer pours
first, then by number (DEDUCED, log entries 23 and 97). -/
def Mach.assignOne (m : Mach) : Mach :=
  match m.firstEntry with
  | none => m
  | some e =>
    let up := (upTo 68).filter (fun c => m.clusterUp c)
    match (up.find? (fun c => (m.cluster c).ahead = some e && (m.held c = 0 || (m.held c = 1 && m.pairs c e)))).orElse
        (fun _ => up.find? (fun c => m.held c = 0)) with
    | some c => m.takePour c e
    | none => match up.find? (fun c => m.held c = 1 && m.pairs c e) with
      | some c => m.takePour c e
      | none => m

/-- Free contexts take pours from the list as far as they may (R166). -/
def Mach.assign (m : Mach) : Mach := each (upTo 136) m (fun m _ => m.assignOne)

/-- The lookahead pool of a cluster (R159): what two contexts leave of 3 MiB. -/
def Mach.poolSize (m : Mach) : Nat := 3145728 - 2 * contextCapacity m.heat.shear

/-- The ladle has the opening rows of the next pour of the list, of which no pool holds any, in a cluster's lookahead pool, where they fit
(R159, R166). Which entry and which cluster these are the manual leaves open: the first entry of the list that no pool holds, and the cluster
that the command names (DESIGN CHOICE, log entry 97). -/
def Mach.lookAhead (m : Mach) (c : Nat) : Mach :=
  let spent : Bool := match (m.cluster c).ahead with
    | some e => !m.heat.list.contains e
    | none => true
  match m.heat.list.find? (fun e => !m.pipe.clusters.any (fun x => x.ahead = some e)) with
  | none => m
  | some e => match m.pour? e.1 with
    | none => m
    | some p =>
      let y := (p.ver e.2).row
      let t := min 36 (y + 2)
      if !m.clusterUp c ∨ !spent ∨ m.poolSize < ((m.ladleRuns p e.2 y y t).map Prod.snd).sum then m
      else ((m.onCluster c (fun x => { x with ahead := some e })).holdBuffers p e.2).ladle p e.2 y y t

/-- PLANE_SET_COMPLETE: the ladle has the next rows of a context's plane set in SRAM (R157): first the opening rows, those of the next two
hogel rows, with which the pour is RENDERING (R89); then, while a hogel row is rendered, those that the next one adds. With i = 2 they are the
opening rows of the next pour, in the cluster's lookahead pool. -/
def planeSetComplete (c i : Nat) (m : Mach) : Mach :=
  if i = 2 then m.lookAhead c
  else match (m.cluster c).ctx.getD i none with
    | none => m
    | some w => match m.pour? w.panel with
      | none => m
      | some p =>
        let y := (p.ver w.version).row
        let put (m : Mach) (rows : Nat) : Mach := m.onCluster c (fun x => { x with ctx := setAt x.ctx i (some { w with rows := rows }) })
        if !m.clusterUp c then m
        else if w.rows ≤ w.start then
          let m := (put m (min 36 (y + 2))).onPour w.panel (fun p => p.onVer w.version Ver.begun)
          ((m.ladle p w.version w.start y (min 36 (y + 2))).assign).rescheduleAll
        else if 36 ≤ w.rows ∨ !(w.rows ≤ y ∨ ((m.cluster c).cur = some i ∧ w.rows ≤ y + 1)) then m
        else (((put m (w.rows + 1)).ladle p w.version w.start w.rows (w.rows + 1)).assign).rescheduleAll

/-- The segments of a rendered row, numbered from the version's next sequence (R315, R316). -/
def rowSegments (p : Pour) (version heat seq row a w : Nat) (run : Bytes) : List Seg :=
  ((pieces (run.length / 4096 + 1) run).zipIdx).map (fun d =>
    { pos := p.pos, version := version, kind := 0, heat := heat, seq := seq + d.2, row := row, band := a, width := w, piece := d.2,
      panel := p.panel, data := d.1 })

/-- Where a version goes on after a row (R161, R165): the next row, the next band, or nothing. -/
def Ver.nextRow (v : Ver) (bands : Nat) : Ver :=
  if v.row + 1 < 36 then { v with row := v.row + 1 }
  else if v.band + 1 < bands then { v with row := 0, band := v.band + 1 }
  else { v with rendered := true }

/-- HOGEL_ROW_RENDERED: a cluster completes a hogel row of the context it renders (R154, R164, R165, R316, R341, R344): its rays
go through the emitter pipeline into the tundish of the chain, version 1 adds to the stress counters, and the cluster turns to the
next eligible context. -/
def rowRendered (cl : Nat) (c : Ctx) (m : Mach) : Eff :=
  match (m.cluster cl).cur with
  | none => .of m
  | some i => match (m.cluster cl).ctx.getD i none with
    | none => .of m
    | some wk => match m.pour? wk.panel with
      | none => .of m
      | some p =>
        let v := p.ver wk.version
        if !m.clusterUp cl ∨ v.state < 3 ∨ 5 < v.state ∨ v.rendered then .of m
        else
          let w := 60 / p.bands
          let a := w * v.band
          let m := m.strike (sourceBase 1) (m.pipelineRuns p wk.version v.row a w)
          let es := m.rowEmitters c.mem p wk.version v.row a w
          let rays := raysOf m.heat.slots es
          let segs := rowSegments p wk.version m.heat.number v.seq v.row a w (runBytes es)
          let (writes, full) := if wk.version = 1 then m.stressRow c.mem p v.row a w es else ([], false)
          let writes := match m.snapshotOf wk.panel with
            | some b => writes ++ writes.map (fun (x : MemWrite) => { x with addr := x.addr - stressBase wk.panel + snapshotBase b })
            | none => writes
          let blends := (rays.map Ray.blends).sum
          let m := m.onHeat (fun h => { h with
            rays := h.rays + rays.length
            blends := h.blends + blends
            early := h.early + (rays.filter Ray.early).length })
          let m := (m.bump (0x5320 + cl) 3 blends).reads (sourceBase 1) (m.pipelineRuns p wk.version v.row a w)
          let m := m.onLane (m.feedLane p.c p.pos) (fun x => { x with staged := x.staged ++ segs })
          let v' := { v with state := max v.state 4, seq := v.seq + segs.length }.nextRow p.bands
          let m := m.onPour wk.panel (fun p => p.onVer wk.version (fun _ => v'))
          let flags := m.objN 0x6211 1 wk.panel
          let m := if full ∧ !flags.testBit 4 then
              (m.setN 0x6211 1 (flags + 16) wk.panel).raise 0x9008 wk.panel [(1, wk.panel % 32), (1, wk.panel / 32)]
            else m
          let wk := { wk with eligibleAt := none }
          let next : Option Work := if v'.rendered then none
            else if v'.band = v.band then some wk
            else some { wk with start := 0, rows := 0 }
          let m := m.onCluster cl (fun x => { x with ctx := setAt x.ctx i next, cur := none })
          let m := if v'.rendered then
              ((m.bump (0x5320 + cl) 2).onHeat (fun h => { h with lastRender := m.tHus })).assign
            else m
          (m.storeAll writes).on Mach.rescheduleAll

/-- A cluster has a fault (R167): it stops, and its pours go back to the head of the list. -/
def clusterFault (cl cause : Nat) (m : Mach) : Mach :=
  if cl ≥ 68 ∨ m.objN (0x5320 + cl) 1 ≠ 1 then m
  else
    let x := m.cluster cl
    let works := x.ctx.filterMap id
    let open_ (t : Option Nat) : Nat := (t.map (fun t => m.now - t)).getD 0
    let m := m.onHeat (fun h => { h with waitTime := h.waitTime + open_ x.waitAt, soloTime := h.soloTime + open_ x.soloAt })
    let m := m.onCluster cl (fun _ => { stopped := true })
    let m := ((m.setN (0x5320 + cl) 1 2).bump (0x5320 + cl) 5).setN (0x5320 + cl) 6 cause
    let m := m.onHeat (fun h => { h with
      list := works.map (fun w => (w.panel, w.version)) ++ h.list
      reissues := h.reissues + works.length })
    let m := m.raise 0x6012 cl [(8, m.heat.number), (1, cl), (1, cause), (1, works.length)]
    m.assign.rescheduleAll

/-- POUR_WATCHDOG: no hogel row of a context completed within t_pwd while it was eligible (R167, R170). -/
def pourWatchdog (cl : Nat) (m : Mach) : Mach :=
  let late (w : Option Work) : Bool := match w.bind Work.eligibleAt with
    | some t => t + us 400 ≤ m.now
    | none => false
  if (m.cluster cl).ctx.any late then clusterFault cl 3 m else m

/-- Clusters go to UNUSABLE and spares come into use (R32, R168, R174), at frame tick H. -/
def Mach.clusterTakeOver (m : Mach) : Mach :=
  let heat := m.heat.number
  let faulted := (upTo 68).filter (fun c => m.objN (0x5320 + c) 1 = 2)
  let m := each faulted m (fun m c =>
    let m := m.setN (0x5320 + c) 1 3
    match (upTo 68).find? (fun s => m.objN (0x5320 + s) 1 = 0) with
    | some s => ((m.setN (0x5320 + s) 1 1).onCluster s (fun _ => {})).raise 0x6013 c [(8, heat), (1, s), (1, c)]
    | none => m)
  let n := m.clusterCount 1
  if faulted ≠ [] ∧ n < 64 then m.raise 0x6014 0 [(8, heat), (1, n)] else m

/-! ### Sending (R86, R87, R316 to R318) -/

/-- The next RAYS segment of a lane: of the pour in transmission, or at a pour boundary of a version-2 pour first (R87). -/
def Mach.nextRays (m : Mach) (l : Nat) : Option Seg :=
  let x := m.lane l
  let mine (k : Nat × Nat) (s : Seg) : Bool := s.kind = 0 && s.pos = k.1 && s.version = k.2
  let open_ : Option (Nat × Nat) := x.cur.filter (fun k =>
    x.staged.any (mine k) || (m.heat.pours.any (fun p => p.c = l / 2 && p.pos = k.1 &&
      (let v := p.ver k.2; 3 ≤ v.state && v.state ≤ 5 && !v.rendered))))
  match open_ with
  | some k => x.staged.find? (mine k)
  | none =>
    match x.staged.find? (fun s => s.kind = 0 && s.version = 2) with
    | some s => some s
    | none => x.staged.find? (fun s => s.kind = 0)

/-- Data blocks of 16 bytes, byte 0 being payload bits [127:120] (R288, R316). -/
def dataBlocks : Nat → Bytes → List (Bool × Nat)
  | 0, _ => []
  | n + 1, b => (false, ofBE (b.take 16)) :: dataBlocks n (b.drop 16)

/-- Sends a segment, its SEG_START and its data blocks one behind the other, and waits for its acknowledgement, from the instant of its last block (R318); a segment sent again leaves the pour in
transmission as it is (R87); an injection at the chain inverts a data bit behind the CRC (R523). -/
def Mach.sendSeg (m : Mach) (l : Nat) (s : Seg) : Mach :=
  let bad : Bool := m.armedAt 11 (l / 2)
  let data := if bad then (s.data.headD 0 ^^^ 1) :: s.data.drop 1 else s.data
  let m := if bad then m.acted else m
  let (symbols, m) := (m.sendKtl l (.segStart s)).transmit l (dataBlocks (data.length / 16) data)
  let m := m.emit (.segment l { s with data := data } symbols)
  let m := m.onLane l (fun x => { x with
    staged := x.staged.filter (· != s)
    naked := x.naked.filter (· != s)
    unacked := x.unacked ++ [(s, m.now + s.time)]
    cur := if s.kind = 0 && x.staged.contains s then some (s.pos, s.version) else x.cur })
  if s.kind = 0 then
    m.onPour s.panel (fun p => p.onVer s.version (fun v => if v.state = 4 then { v with state := 5 } else v))
  else m

/-- SEGMENT_SENT: a lane begins its next segment (R87, R318, R355): NAKed segments that may go first, then pours, then history; none while the
module is QUENCHED (R373). -/
def segmentSent (l : Nat) (m : Mach) : Mach :=
  if l ≥ 192 ∨ m.tx l ≠ 4 ∨ m.objN 0x6401 1 ≠ 0 then m
  else match (m.lane l).naked.find? (fun s => s.kind = 0 || m.historyAllowed l) with
    | some s =>
      if m.timeToResend l s then (m.sendSeg l s).bump 0x6100 9 else (((m.dropSegs l s.pos s.version 0 (s.heat % 256)).stopVersion s.panel s.version).assign).rescheduleAll
    | none => match m.nextRays l with
      | some s => (m.sendSeg l s).rescheduleAll
      | none =>
        if (m.lane l).staged.any (fun s => s.kind = 0) then m
        else match (m.lane l).staged.find? (fun s => s.kind != 0) with
          | some s => if m.historyAllowed l then m.sendSeg l s else m
          | none => m

end Sys2Proof.Machine
end

