-- ==== Sys2Proof/Machine/Outputs.lean ====
section
/-! DEFINITION. Composition, outputs and signatures (06): work surfaces and region updates, previews, tile capture, signature
regions. -/

namespace Sys2Proof.Machine

/-! ### Graphic layers and region updates (R175 to R180) -/

/-- A graphic layer. -/
def Mach.graphic (m : Mach) (g : Nat) : Graphic := m.outs.graphics.getD g {}

/-- Changes a graphic layer. -/
def Mach.onGraphic (m : Mach) (g : Nat) (f : Graphic → Graphic) : Mach :=
  { m with outs := { m.outs with graphics := modAt m.outs.graphics g f } }

/-- State of a region-update job (R179). -/
def Mach.regionState (m : Mach) (j : Nat) : Nat := m.objN (0x5408 + j) 7

/-- A region update as started. -/
def Mach.regionJob (m : Mach) (j : Nat) : RegionJob := m.outs.jobs.getD j {}

/-- The rectangle that a region-update job's objects name. -/
def Mach.regionRect (m : Mach) (j : Nat) : Nat × Nat × Nat × Nat :=
  let n (s : Nat) := m.objN (0x5408 + j) s
  (n 2, n 3, n 4, n 5)

/-- Whether two rectangles share a hogel. -/
def intersects (a b : Nat × Nat × Nat × Nat) : Bool :=
  a.1 < b.1 + b.2.2.1 && b.1 < a.1 + a.2.2.1 && a.2.1 < b.2.1 + b.2.2.2 && b.2.1 < a.2.1 + a.2.2.2

/-- REGION_UPDATE_START (R177): the layer and rectangle are those of the start (log entry 84). -/
def Mach.startRegion (m : Mach) (j : Nat) : Except Nat Mach :=
  let g := m.objN (0x5408 + j) 1
  let (x, y, w, h) := m.regionRect j
  if live (m.regionState j) ∨ 1920 < x + w ∨ 1080 < y + h then .error abPrecondition
  else
    let old := (m.graphic g).order.filter (fun i => m.regionState i = 1 && within (m.regionJob i).rect (x, y, w, h))
    let m := each old m (fun m i => (m.setN (0x5408 + i) 7 5).raise 0x7010 i [(1, i), (1, j), (1, g)])
    let m := m.onGraphic g (fun r => { r with order := r.order.filter (fun i => !old.contains i) ++ [j] })
    let m := { m with outs := { m.outs with
      shown := m.outs.shown.filter (fun p => p.1 != j), jobs := setAt m.outs.jobs j ⟨g, (x, y, w, h)⟩ } }
    .ok ((m.setN (0x5408 + j) 7 1).setN (0x5408 + j) 8 0)

/-- The display buffer that does not hold a layer's newest complete content. -/
def Graphic.target (g : Graphic) : Nat := if g.newest = 1 then 2 else 1

/-- REGION_UPDATE_RUN (R178). -/
def regionRun (j : Nat) (m : Mach) : Mach :=
  let g := (m.regionJob j).layer
  let r := m.graphic g
  if m.regionState j = 1 ∧ r.order.head? = some j ∧ !(r.busy.any (fun b => b.1 = r.target)) then m.setN (0x5408 + j) 7 2 else m

/-- A region update leaves RUNNING. -/
def Mach.endRegion (m : Mach) (j st : Nat) : Mach :=
  let g := (m.regionJob j).layer
  (m.setN (0x5408 + j) 7 st).onGraphic g (fun r => { r with order := r.order.filter (· != j) })

/-- A region update becomes FAILED, with event 0x7011 (R178). -/
def Mach.failRegion (m : Mach) (j : Nat) : Mach :=
  (m.endRegion j 6).raise 0x7011 j [(1, j), (1, (m.regionJob j).layer)]

/-- What a region update reads, as address and length (R178): the rows outside the rectangle and the ends of the others from the newest
content, the rectangle from the work surface. -/
def regionReads (old work : Nat) (r : Nat × Nat × Nat × Nat) : List (Nat × Nat) :=
  let (x, y, w, h) := r
  (upTo 1080).flatMap (fun k =>
    let a := 11520 * k
    if y ≤ k ∧ k < y + h then [(old + a, 6 * x), (work + a + 6 * x, 6 * w), (old + a + 6 * (x + w), 6 * (1920 - (x + w)))]
    else [(old + a, 11520)])

/-- REGION_UPDATE_COMPLETE: the job copies the newest content outside its rectangle and the work surface inside it into the other
display buffer (R178); poison among what it reads fails it. -/
def regionComplete (j : Nat) (c : Ctx) (m : Mach) : Eff :=
  if m.regionState j ≠ 2 then .of m
  else
    let g := (m.regionJob j).layer
    let r := m.graphic g
    let (x, y, w, h) := (m.regionJob j).rect
    let old := graphicBase g r.newest
    let new := graphicBase g r.target
    let row (base i : Nat) : Nat := base + 11520 * i
    let reads := (regionReads old (graphicBase g 0) (x, y, w, h)).filter (fun a => a.2 != 0)
    let m := m.reads (sourceBase 8) reads
    if reads.any (fun a => m.poisonedAt a.1 a.2) then .of (m.failRegion j)
    else
      let writes := (upTo 1080).map (fun i =>
        let keep := memLoad c.mem (row old i) 11520
        (⟨row new i, if y ≤ i ∧ i < y + h then
          keep.take (6 * x) ++ memLoad c.mem (row (graphicBase g 0) i + 6 * x) (6 * w) ++ keep.drop (6 * (x + w))
          else keep⟩ : MemWrite))
      let m := (m.endRegion j 3).onGraphic g (fun r => { r with newest := r.target })
      let m := { m with outs := { m.outs with shown := m.outs.shown ++ [(j, 0)] } }
      m.storeAll writes

/-- The readiness snapshot of heat H binds the newest contents (R94, R178): updates complete and not yet VISIBLE are of that heat. -/
def Mach.bindGraphics (m : Mach) (h : Nat) : Mach :=
  let m := m.onHeat (fun t => { t with boundG := m.outs.graphics.map Graphic.newest })
  { m with outs := { m.outs with shown := m.outs.shown.map (fun p => (p.1, h)) } }

/-- At frame tick H the bound updates become VISIBLE (R178). -/
def Mach.showRegions (m : Mach) (h : Nat) : Mach :=
  let due := m.outs.shown.filter (fun p => p.2 != 0 && p.2 ≤ h)
  let m := { m with outs := { m.outs with shown := m.outs.shown.filter (fun p => p.2 = 0 || h < p.2) } }
  each due m (fun m p => (m.setN (0x5408 + p.1) 7 4).setN (0x5408 + p.1) 8 h)

/-- The header of a work-surface patch: column, row, width, height (R176). -/
def patchRect (b : Bytes) : Nat × Nat × Nat × Nat :=
  (ofBE (b.take 2), ofBE (slice 2 2 b), ofBE (slice 4 2 b), ofBE (slice 6 2 b))

/-- Whether a work-surface patch passes the checks of R176. -/
def patchAllowed (b : Bytes) : Bool :=
  let (x, y, w, h) := patchRect b
  1 ≤ w && 1 ≤ h && x + w ≤ 1920 && y + h ≤ 1080 && b.length = 8 + w * h * 6

/-- Writes a patch into its work surface (R176): samples arrive most significant byte first and are stored as R111 says. -/
def Mach.writePatch (m : Mach) (g : Nat) (b : Bytes) : Eff :=
  let (x, y, w, h) := patchRect b
  m.storeAll ((upTo h).map (fun i =>
    ⟨sampleAt (graphicBase g 0) 1920 x (y + i), (samplesBE w (b.drop (8 + 6 * w * i))).flatMap Sample.memBytes⟩))

/-- Whether a RUNNING update of a layer holds a patch back (R176). -/
def Mach.patchHeld (m : Mach) (g : Nat) (b : Bytes) : Bool :=
  (upTo 8).any (fun j => m.regionState j = 2 && (m.regionJob j).layer = g && intersects (m.regionJob j).rect (patchRect b))

/-! ### Ray values at the tap (R181, R182) -/

/-- The version a pour committed: 0 for none. -/
def Pour.committed (p : Pour) : Nat := if p.v2.state = 7 then 2 else if p.v1.state = 7 then 1 else 0

/-- The ray values that preview and capture take of a panel hogel at a direction position (R181). -/
def Mach.tapped (m : Mach) (mem : Mem) (p : Pour) (version x y uq vq : Nat) : Nat × Nat × Nat :=
  let r := rayAt mem (m.pourLayers p version) m.heat.slots x y uq vq
  if m.heat.tap = 0 then (r.r, r.g, r.b)
  else
    let e := (Config.tapEmitter x y).toNat
    let (ex, ey) := if m.heat.slots = 1 then (8 * (x % 60) + e % 8, 8 * (y % 36) + e / 8)
      else (8 * (x % 60) + uq / 4, 8 * (y % 36) + vq / 4)
    let g := m.gainAt mem p.panel ex ey
    let c := m.ceilingFor p.panel
    (driveValue r.r g c, driveValue r.g g c, driveValue r.b g c)

/-- The direction positions in canonical order of their index (R182). -/
def canonicalPositions (slots : Nat) : List (Nat × Nat) :=
  if slots = 16 then (upTo 32).flatMap (fun v => (upTo 32).map (fun u => (u, v)))
  else if slots = 8 then (upTo 16).flatMap (fun v => (upTo 32).map (fun u => (u, 2 * v)))
  else if slots = 4 then (upTo 16).flatMap (fun v => (upTo 16).map (fun u => (2 * u, 2 * v)))
  else [(0, 0)]

/-- The 6 bytes of a ray (R182). -/
def rayBytes (v : Nat × Nat × Nat) : Bytes := beBytes 2 v.1 ++ beBytes 2 v.2.1 ++ beBytes 2 v.2.2

/-! ### Previews (R183 to R186, R196) -/

/-- A preview view. -/
def Mach.view (m : Mach) (v : Nat) : View := m.outs.views.getD v {}

/-- Changes a preview view. -/
def Mach.onView (m : Mach) (v : Nat) (f : View → View) : Mach := { m with outs := { m.outs with views := modAt m.outs.views v f } }

/-- Where the preview frame of a view is assembled in the capture region (R187; the place is the model's, log entry 24). -/
def previewBase (v : Nat) : Nat := 0x380000000 + v * 16777216

/-- The direction position a view takes at a slot count (R183). -/
def viewPosition (slots u v : Nat) : Nat × Nat :=
  if slots = 8 then (u, v / 2 * 2) else if slots = 4 then (u / 2 * 2, v / 2 * 2) else (u, v)

/-- Whether GWYN views (R196: S0 and S1) and ST2110 views (S0 to S4) are sent at a stage. -/
def viewSent (format stage : Nat) : Bool := if format = 1 then stage ≤ 1 else stage ≤ 4

/-- The samples of a preview frame (R184): the committed version's values, nothing written for a tile without COMMIT, zero for a panel
position that no tile in the map has. -/
def Mach.assembleView (m : Mach) (c : Ctx) (v : Nat) : List MemWrite :=
  let (uq, vq) := viewPosition m.heat.slots (m.objN (0x5410 + v) 2) (m.objN (0x5410 + v) 3)
  (upTo 960).flatMap (fun p =>
    let row (i : Nat) (f : Nat → Bytes) : MemWrite := ⟨sampleAt (previewBase v) 1920 (panelX p) (panelY p + i), (upTo 60).flatMap f⟩
    match m.pour? p with
    | none => (upTo 36).map (fun i => row i (fun _ => (⟨0, 0, 0, 4095⟩ : Sample).memBytes))
    | some q =>
      if q.v1.state = 11 then (upTo 36).map (fun i => row i (fun _ => (⟨0, 0, 0, 4095⟩ : Sample).memBytes))
      else if q.committed = 0 then []
      else (upTo 36).map (fun i => row i (fun a =>
        let (r, g, b) := m.tapped c.mem q q.committed (panelX p + a) (panelY p + i) uq vq
        (⟨r, g, b, 4095⟩ : Sample).memBytes)))

/-- The preview frames of heat H are assembled, and GWYN frames wait for the encode engines (R184, R185, R225). -/
def Mach.assemblePreviews (m : Mach) (c : Ctx) : Eff :=
  (upTo 4).foldl (fun e v => e.then_ (fun m =>
    if (m.view v).enabled ∧ viewSent (m.objN (0x5410 + v) 4) m.outs.stage then
      let m := m.onView v (fun x => { x with frame := some m.heat.number, blocks := [], encoding := m.objN (0x5410 + v) 4 = 1 })
      m.storeAll (m.assembleView c v)
    else .of (m.onView v (fun x => { x with frame := none, encoding := false, blocks := [] })))) (.of m)

/-- Blocks of a preview frame. -/
def previewBlocks : Nat := 510

/-- The next block of a GWYN preview for an encode engine. -/
def Mach.nextPreview (m : Mach) : Option (Nat × Nat) :=
  (upTo 4).findSome? (fun v =>
    let x := m.view v
    if !x.encoding then none
    else ((upTo previewBlocks).find? (fun b =>
      !(x.blocks.any (fun y => y.1 = b)) && !m.codec.encode.contains (.preview v b))).map (fun b => (v, b)))

/-- A block of a GWYN preview leaves an encode engine, every sample with alpha 4,095 (R185, R217, R220). -/
def Mach.previewBlock (m : Mach) (c : Ctx) (i v b : Nat) (mismatch : Bool) : Mach :=
  let (col, row) := (blockGrid 1920 1080).getD b (0, 0)
  let (w, h) := blockSize 1920 1080 col row
  let runs := (upTo h).map (fun y => (sampleAt (previewBase v) 1920 (64 * col) (64 * row + y), 6 * w))
  let m := m.strike (sourceBase 5 + i) runs
  let samples := (runs.flatMap (fun r => samplesLE w (m.fetch c.mem r.1 r.2))).map (fun s => { s with a := 4095 })
  let (m, block, wrong) := m.selfVerify i mismatch v col row w h samples
  let m := (m.draw.reads (sourceBase 5 + i) runs).countEncoded i 1 col row (isStored block) wrong
  m.onView v (fun x => if x.encoding then
    let blocks := x.blocks ++ [(b, block)]
    { x with blocks := blocks, encoding := blocks.length < previewBlocks } else x)

/-- What packet `k` of an ST2110 frame reads of the assembled frame. -/
def st2110Run (v k : Nat) : Nat × Nat :=
  let first := 133 * (k % 8)
  (sampleAt (previewBase v) 1920 (2 * first) (k / 8), 12 * min 133 (960 - first))

/-- Packets of an ST2110 frame without their RTP headers (R185): eight to a line, with up to 133 pixel groups of two samples each, behind
the payload header of RFC 4175 that SMPTE ST 2110-20 uses (PRESUMED, log entry 85): the sequence number's high half, then length, line and
first sample. `k` numbers the packets of the frame. -/
def Mach.st2110Packet (m : Mach) (mem : Mem) (v sequence k : Nat) : Bytes :=
  let y := k / 8
  let first := 133 * (k % 8)
  let groups := min 133 (960 - first)
  let run := m.fetch mem (st2110Run v k).1 (st2110Run v k).2
  let word (x : Nat) : Nat := (Sample.ofWord (ofLE (slice (6 * x) 6 run))).word / 4096
  beBytes 2 (sequence / 65536) ++ beBytes 2 (9 * groups) ++ beBytes 2 y ++ beBytes 2 (2 * first) ++
    (upTo groups).flatMap (fun a => beBytes 9 (word (2 * a) * 2 ^ 36 + word (2 * a + 1)))

/-- A packet of a GWYN frame without its RTP header (R113, R185). -/
def gwynPacket (v h : Nat) (stream : Bytes) (k : Nat) : Bytes :=
  [1, BitVec.ofNat 8 v, 1, 0] ++ beBytes 8 h ++ beBytes 2 1920 ++ beBytes 2 1080 ++ beBytes 4 (1392 * k) ++ beBytes 4 stream.length ++
    slice (1392 * k) 1392 stream

/-- An RTP packet (R185): the marker stands in the last packet of a frame (log entry 85). -/
def rtpPacket (last : Bool) (payloadType sequence stamp ssrc : Nat) (body : Bytes) : Bytes :=
  [0x80] ++ beBytes 1 (128 * bit last + payloadType) ++ beBytes 2 (sequence % 65536) ++ beBytes 4 stamp ++ beBytes 4 ssrc ++ body

/-- The RTP packets of the preview frame that a view has assembled for heat h (R185). -/
def Mach.previewPackets (m : Mach) (mem : Mem) (v h : Nat) : List Bytes :=
  let o (s : Nat) := m.objN (0x5410 + v) s
  let stream := (sortBy (fun a b => a.1 ≤ b.1) (m.view v).blocks).flatMap Prod.snd
  let count := if o 4 = 0 then 8640 else (stream.length + 1391) / 1392
  (upTo count).map (fun k =>
    let sequence := ((m.view v).sequence + k) % 2 ^ 32
    let body := if o 4 = 0 then m.st2110Packet mem v sequence k else gwynPacket v h stream k
    rtpPacket (k + 1 = count) (o 8) sequence (m.tickAt h * 90000 / perSecond % 2 ^ 32) (o 9) body)

/-- A preview frame is skipped (R186): counted, with 0x6025 at most once per second. -/
def Mach.skipPreview (m : Mach) (v h : Nat) : Mach :=
  let x := m.view v
  let skips := x.skips.filter (fun t => m.now < t + sec 1) ++ [m.now]
  let m := (m.bump (0x5410 + v) 0x0C).onView v (fun x => { x with skips := skips })
  if x.skipAt.all (fun t => t + sec 1 ≤ m.now) then
    (m.raise 0x6025 v [(8, h), (1, v), (4, skips.length)]).onView v (fun x => { x with skipAt := some m.now })
  else m

/-- Whether a view sends the frame of heat h at the stage in effect (R186, R196). -/
def Mach.viewDue (m : Mach) (v h : Nat) : Bool :=
  let every := m.objN (0x5410 + v) 0x0A * (if m.outs.stage ≥ 1 then 4 else 1)
  (m.view v).frame = some h && h % every = 0 && viewSent (m.objN (0x5410 + v) 4) m.outs.stage

/-- A packet of a preview frame has left its port, or was dropped (R389, R396): with the last one the frame is sent, or skipped where the port
went down under it. -/
def Mach.packetDone (m : Mach) (v : Nat) (down : Bool) : Mach :=
  let x := m.view v
  let x := { x with queued := x.queued - 1, packets := if down then [] else x.packets, cut := x.cut || down }
  let m := m.onView v (fun _ => x)
  if x.queued ≠ 0 ∨ x.packets ≠ [] then m
  else
    let m := m.onView v (fun x => { x with sending := none, cut := false })
    if x.cut then m.skipPreview v ((x.sending.map Prod.snd).getD 0) else m.bump (0x5410 + v) 0x0B

/-- The view enables take effect at a frame tick (R199). -/
def Mach.latchViews (m : Mach) : Mach :=
  each (upTo 4) m (fun m v => m.onView v (fun x => { x with enabled := m.objB (0x5410 + v) 1 }))

/-! ### Tile capture (R187 to R189) -/

/-- Bytes of a capture record at a slot count (R188). -/
def recordSize (slots : Nat) : Nat := 32 + 2160 * (if slots = 16 then 1024 else if slots = 8 then 512 else if slots = 4 then 256 else 1) * 6

/-- Base of the capture records in the capture region (R187; the place is the model's, log entry 24). -/
def captureBase : Nat := 0x2B0000000

/-- CAPTURE_START (R187, R196). A start heat of 0 is the next heat to start, whatever its number. -/
def Mach.startCapture (m : Mach) : Except Nat Mach :=
  let n (s : Nat) := m.objN 0x5418 s
  let st := n 8
  let tiles := n 3 * n 4
  if st = 1 ∨ st = 2 ∨ 32 < n 1 + n 3 ∨ 30 < n 2 + n 4 ∨ 32 < tiles ∨ 3489660928 < tiles * n 5 * 13271072 ∨ m.outs.stage ≥ 1 then
    .error abPrecondition
  else if n 6 ≠ 0 ∧ n 6 < m.frameNo + 2 then .error abBelow
  else
    let cap : Capture := { col := n 1, row := n 2, cols := n 3, rows := n 4, frames := n 5, start := n 6 }
    .ok (({ m with outs := { m.outs with capture := cap } }.sets 0x5418 [(8, 1), (9, 0), (0x0A, 0)]))

/-- The capture job ends (R189, R201). -/
def Mach.endCapture (m : Mach) (reason : Nat) : Mach :=
  let st := m.objN 0x5418 8
  if st ≠ 1 ∧ st ≠ 2 then m
  else
    let m := (m.setN 0x5418 8 (if reason = 0 then 3 else 4)).setN 0x5418 0x0A reason
    m.raise 0x6024 0 [(8, m.heat.number), (2, m.objN 0x5418 9), (1, reason)]

/-- CAPTURE_STOP (R189, R199). -/
def Mach.stopCapture (m : Mach) : Except Nat Mach :=
  let st := m.objN 0x5418 8
  if st = 1 ∨ st = 2 then .ok (m.endCapture 1) else .error abNothing

/-- The record of a tile-frame (R188). -/
def Mach.captureRecord (m : Mach) (c : Ctx) (p : Nat) : Bytes :=
  let slots := m.heat.slots
  let pour := m.pour? p
  let absent : Bool := match pour with
    | none => true
    | some q => q.v1.state = 11
  let version := (pour.map Pour.committed).getD 0
  let flags := bit absent + 2 * bit (version = 0) + 4 * bit (m.heat.tap = 1)
  let header := beBytes 8 m.heat.number ++ beBytes 1 (p % 32) ++ beBytes 1 (p / 32) ++ beBytes 1 version ++ beBytes 1 flags ++
    beBytes 1 slots ++ [0, 0, 0] ++ timeBytes (m.tickAt m.heat.number) ++ [0, 0]
  match pour with
  | none => header ++ List.replicate (recordSize slots - 32) 0
  | some q =>
    if version = 0 ∨ absent then header ++ List.replicate (recordSize slots - 32) 0
    else header ++ (upTo 36).flatMap (fun b => (upTo 60).flatMap (fun a => (canonicalPositions slots).flatMap (fun d =>
      rayBytes (m.tapped c.mem q version (panelX p + a) (panelY p + b) d.1 d.2))))

/-- The capture of a resolved heat (R187, R188). -/
def Mach.capture (m : Mach) (c : Ctx) : Eff :=
  let cap := m.outs.capture
  if m.objN 0x5418 8 ≠ 2 ∨ m.heat.number < cap.start then .of m
  else
    let k := m.objN 0x5418 9
    let size := recordSize m.heat.slots
    let tiles := (upTo cap.rows).flatMap (fun r => (upTo cap.cols).map (fun x => 32 * (cap.row + r) + cap.col + x))
    let writes := tiles.zipIdx.map (fun t => (⟨captureBase + cap.next + t.2 * size, m.captureRecord c t.1⟩ : MemWrite))
    let recs := tiles.zipIdx.map (fun t => (k, t.2, captureBase + cap.next + t.2 * size, size))
    let cap := { cap with next := cap.next + tiles.length * size, recs := cap.recs ++ recs }
    let m := { m with outs := { m.outs with capture := cap } }.setN 0x5418 9 (k + 1)
    let m := if k + 1 = cap.frames then m.endCapture 0 else m
    m.storeAll writes

/-- The stage that the observers follow changes at a frame tick (R196), while STOPPED at once (R445): at S1 or deeper a capture job is STOPPED. -/
def Mach.observeStage (m : Mach) : Mach :=
  let m := { m with outs := { m.outs with stage := m.stage } }
  if m.stage ≥ 1 then m.endCapture 2 else m

/-- The capture job is CAPTURING from its start heat on (R187). -/
def Mach.armCapture (m : Mach) (h : Nat) : Mach :=
  if m.objN 0x5418 8 = 1 ∧ m.outs.capture.start ≤ h then m.setN 0x5418 8 2 else m

/-! ### Signature regions (R190 to R195) -/

/-- The view mask's bit for a direction position (R190). -/
def maskHas (mask : Bytes) (u v : Nat) : Bool := ((mask.getD ((32 * v + u) / 8) 0).toNat).testBit ((32 * v + u) % 8)

/-- The view mask of a region; all ones by default (R200). -/
def Mach.viewMask (m : Mach) (r : Nat) : Bytes :=
  match m.str (0x5420 + r) 6 with
  | [] => List.replicate 128 0xFF
  | b => b

/-- SIGNATURE_REGION_ENABLE (R190): the enable of a region. A region disabled during a heat no longer covers it, enabled again or not. -/
def Mach.enableRegion (m : Mach) (r : Nat) (on : Bool) : Except Nat Mach :=
  let n (s : Nat) := m.objN (0x5420 + r) s
  let uncover (m : Mach) : Mach := m.onHeat (fun h => { h with regions := h.regions.filter (· != r) })
  if !on then .ok ((uncover (m.setB (0x5420 + r) 1 false)).setN (0x5440 + r) 6 0)
  else if 1920 < n 2 + n 4 ∨ 1080 < n 3 + n 5 ∨ (m.viewMask r).all (· = 0) then .error abInconsistent
  else if n 1 = 1 then .ok m
  else .ok ((m.setB (0x5420 + r) 1 true).sets (0x5440 + r) [(6, 0), (7, 0), (8, 0), (9, 0)])

/-- SIGNATURE_LEARN (R194). -/
def Mach.learnRegion (m : Mach) (r : Nat) : Mach := { m with outs := { m.outs with learn := addNew m.outs.learn r } }

/-- The direction positions of a region at a slot count, in canonical order (R191). -/
def Mach.regionPositions (m : Mach) (r slots : Nat) : List (Nat × Nat) :=
  if slots = 1 then [(0, 0)] else (canonicalPositions slots).filter (fun d => maskHas (m.viewMask r) d.1 d.2)

/-- A layer as its latched descriptor places it, whatever content is bound (R193). -/
def Mach.descriptorLayer (m : Mach) (k : Nat) : RayLayer :=
  let d := m.vdesc k
  m.rayLayer k ⟨0, 0, 0, d.width, d.height⟩

/-- The result of a region for the resolved heat: signature, rays, expected count and flags [6:1] (R191 to R193). -/
def Mach.judgeRegion (m : Mach) (c : Ctx) (r : Nat) : Nat × Nat × Nat × Nat :=
  let n (s : Nat) := m.objN (0x5420 + r) s
  let h := m.heat
  let slots := h.slots
  let ds := m.regionPositions r slots
  let expected := n 4 * n 5 * ds.length
  let tileOf (x y : Nat) : Nat := 32 * (y / 36) + x / 60
  let rays := (upTo (n 5)).flatMap (fun j => (upTo (n 4)).flatMap (fun i =>
    let x := n 2 + i
    let y := n 3 + j
    match m.pour? (tileOf x y) with
    | none => []
    | some p =>
      if p.committed = 0 then []
      else
        let ls := m.pourLayers p p.committed
        ds.map (fun d => let v := rayAt c.mem ls slots x y d.1 d.2; rayBytes (v.r, v.g, v.b))))
  let tiles := (upTo 30).flatMap (fun ty => ((upTo 32).filter (fun tx =>
    60 * tx < n 2 + n 4 && n 2 < 60 * tx + 60 && 36 * ty < n 3 + n 5 && n 3 < 36 * ty + 36)).map (fun tx => 32 * ty + tx))
  let pours := tiles.filterMap m.pour?
  let v2 := (h.decision.map Prod.snd).getD 0
  let reduced := pours.any (fun p => !p.removed.isEmpty)
  let absent := tiles.any (fun t => match m.pour? t with
    | none => true
    | some p => p.v1.state = 11)
  let repeated := pours.any (fun p => p.v1.state != 11 && p.committed = 0)
  let withdrawn := h.admitted && !h.v2ok && pours.any (fun p => p.v1.state != 11 && p.mask &&& v2 != 0)
  let transparent := (upTo 64).any (fun k => h.transparent.testBit k &&
    tiles.any (fun t => footprint (m.descriptorLayer k) slots (panelX t) (panelY t) 0 59 != 0))
  let held := pours.any (fun p => match p.committed with
    | 0 => false
    | 1 => p.mask &&& h.held != 0
    | _ => p.mask &&& (h.held ^^^ (h.held &&& v2)) != 0)
  (crcOf rays.flatten, rays.length, expected,
    2 * bit held + 4 * bit transparent + 8 * bit withdrawn + 16 * bit repeated + 32 * bit absent + 64 * bit reduced)

/-- Posts the result of one region for the resolved heat (R194, R195): its 16 bytes of history too. An injection inverts bit 0 of the signature
(R523). -/
def Mach.postRegion (m : Mach) (c : Ctx) (r : Nat) : Mach × Bytes :=
  let heat := m.heat.number
  if !m.heat.regions.contains r ∨ !m.objB (0x5420 + r) 1 then
    (m, beBytes 8 heat ++ beBytes 8 0)
  else
    let (good, rays, expected, flags) := m.judgeRegion c r
    let hit := m.armedAt 23 r
    let sig := if hit then good ^^^ 1 else good
    let m := if hit then m.acted else m
    let complete : Bool := rays = expected && flags = 0
    let learns : Bool := complete && m.outs.learn.contains r
    let m := if learns then
        let m := { m with outs := { m.outs with learn := m.outs.learn.filter (· != r) } }
        ((m.setN (0x5420 + r) 7 sig).setN (0x5420 + r) 8 1).raise 0x6026 r [(8, heat), (1, r), (4, sig)]
      else m
    let checked := m.objB (0x5420 + r) 8
    let want := m.objN (0x5420 + r) 7
    let flags := flags + bit complete + 128 * bit (checked && sig != want)
    let result := if !complete then 3 else if !checked then 4 else if sig = want then 1 else 2
    let was := m.objN (0x5440 + r) 6
    let m := m.sets (0x5440 + r) [(1, heat), (2, sig), (3, rays), (4, expected), (5, flags), (6, (result : Nat))]
    let m := match result with
      | 1 => m.bump (0x5440 + r) 7
      | 2 => m.bump (0x5440 + r) 8
      | 3 => m.bump (0x5440 + r) 9
      | _ => m
    let m := if result = 2 ∧ was ≠ 2 then m.raise 0x6020 r [(8, heat), (1, r), (4, sig), (4, want)] else m
    let m := if result = 1 ∧ was = 2 then m.raise 0x6021 r [(8, heat), (1, r)] else m
    (m, beBytes 8 heat ++ beBytes 4 sig ++ beBytes 1 flags ++ beBytes 1 result ++ [0, 0])

/-- Posts the results of all regions and appends them to the history of 64 heats (R195). -/
def Mach.postSignatures (m : Mach) (c : Ctx) : Mach :=
  let (m, b) := (upTo 16).foldl (fun (a : Mach × Bytes) r => let (m, b) := a.1.postRegion c r; (m, a.2 ++ b)) (m, [])
  { m with outs := { m.outs with history := (b :: m.outs.history).take 64 } }

end Sys2Proof.Machine
end

