-- ==== Sys2Proof/Machine/Panel.lean ====
section
/-! DEFINITION. Panel drive, ageing and commons (12): temperature bands (R343), history in module memory and in tile flash (R347 to
R356), uncorrectable reads (R357), gain-map updates (R358 to R361), commons (R362 to R370) and the slate (R371, R372). -/

namespace Sys2Proof.Machine

/-- Changes panel drive. -/
def Mach.onPanel (m : Mach) (f : Panel → Panel) : Mach := { m with panel := f m.panel }

/-- The tile whose map entry in force is a panel position. -/
def Mach.tileAt (m : Mach) (p : Nat) : Option (Nat × Nat) :=
  ((upTo 96).flatMap (fun c => (upTo 10).map (fun i => (c, i)))).find? (fun t =>
    (m.tile t.1 t.2).entry != 0xFFFF && panelOf (m.tile t.1 t.2).entry = p)

/-- The panel position of a tile; none without a map entry in force. -/
def Mach.panelFor (m : Mach) (c pos : Nat) : Option Nat :=
  let e := (m.tile c pos).entry
  if e = 0xFFFF then none else some (panelOf e)

/-- The ACTIVE tiles with their panel positions. -/
def Mach.activeTiles (m : Mach) : List (Nat × Nat × Nat) :=
  m.mapTiles.filterMap (fun t =>
    if m.tileState t.1 t.2 = 4 then (m.panelFor t.1 t.2).map (fun p => (p, t.1, t.2)) else none)

/-- The bands of the tiles with a map entry in force, by panel position (R343). -/
def Mach.bandsOf (m : Mach) : List (Nat × Nat) :=
  (upTo 96).flatMap (fun c => (upTo 10).filterMap (fun i => (m.panelFor c i).map (fun p => (p, (m.tile c i).band))))

/-- Looks a number up by key; 0 when absent. -/
def assoc (l : List (Nat × Nat)) (k : Nat) : Nat := ((l.find? (fun x => x.1 = k)).map Prod.snd).getD 0

/-- Writes a number under a key. -/
def assocSet (l : List (Nat × Nat)) (k v : Nat) : List (Nat × Nat) := (k, v) :: l.filter (fun x => x.1 != k)

/-! ### Temperature bands (R343) -/

/-- Boundary B_k in 1/16 °C (0x6301). -/
def Mach.boundary (m : Mach) (k : Nat) : Int := m.obj 0x6301 k

/-- The band after a reading: it rises at the next boundary, and falls 1 °C below its own. -/
def Mach.nextBand (m : Mach) (t : Int) : Nat → Nat → Nat
  | 0, b => b
  | n + 1, b =>
    if b < 7 ∧ m.boundary (b + 1) ≤ t then m.nextBand t n (b + 1)
    else if 0 < b ∧ t < m.boundary b - 16 then m.nextBand t n (b - 1)
    else b

/-- The common that serves a panel position: the lowest-numbered whose rectangle covers it (R362). -/
def Mach.commonOf (m : Mach) (p : Nat) : Option Nat :=
  (upTo 64).find? (fun n =>
    let o (s : Nat) := m.objN (0x6310 + n) s
    within (p % 32, p / 32, 1, 1) (o 2, o 3, o 4, o 5))

/-- The temperature of a tile's latest STATUS. -/
def Mach.tileTemp (m : Mach) (c pos : Nat) : Int := m.obj 0x6181 7 (tileBank c pos)

/-- Shows each panel position the band of its tile, and band 3 where it has none (R343). -/
def Mach.showBands (m : Mach) : Mach :=
  let on := m.bandsOf
  let m := each on m (fun m b => m.setN 0x6211 6 b.2 b.1)
  each ((upTo 960).filter (fun p => m.objN 0x6211 6 p ≠ 3 && !(on.any (fun b => b.1 = p)))) m (fun m p => m.setN 0x6211 6 3 p)

/-- The tiles that had a reading since the last evaluation. -/
def Mach.freshTiles (m : Mach) : List (Nat × Nat) :=
  (upTo 96).flatMap (fun c => ((upTo 10).filter (fun i => (m.tile c i).read)).map (fun i => (c, i)))

/-- The bands of tiles and commons are evaluated at a frame tick (R343). -/
def Mach.evaluateBands (m : Mach) : Mach :=
  let on := m.activeTiles
  let fresh := m.freshTiles
  let m := each fresh m (fun m t => m.onTile t.1 t.2 (fun x => { x with band := m.nextBand (m.tileTemp t.1 t.2) 8 x.band, read := false }))
  let m := each (upTo 64) m (fun m n =>
    let mine := on.filter (fun t => m.commonOf t.1 = some n)
    let told := mine.filter (fun t => (m.tile t.2.1 t.2.2).told)
    if told = [] ∨ !(mine.any (fun t => fresh.contains t.2)) then m
    else
      let mean := (told.map (fun t => m.tileTemp t.2.1 t.2.2)).sum.tdiv told.length
      m.setN (0x6310 + n) 6 (m.nextBand mean 8 (m.objN (0x6310 + n) 6)))
  m.showBands

/-! ### Gain slots and on-time (R346, R347) -/

/-- The free gain slots, with their count in 0x6200:03. -/
def Mach.setFree (m : Mach) (l : List Nat) : Mach :=
  (m.onPanel (fun x => { x with freeSlots := l })).setN 0x6200 3 l.length

/-- Binds a panel position to a filled slot; the slot it leaves is free (R347). -/
def Mach.bindSlot (m : Mach) (p slot : Nat) : Mach :=
  let old := m.objN 0x6211 7 p
  (m.setN 0x6211 7 slot p).setFree ((m.panel.freeSlots.filter (· != slot)) ++ [old])

/-- On-time of a panel position now, in 2⁻¹⁶ ns (R346). -/
def Mach.onTimeOf (m : Mach) (p : Nat) : Nat :=
  let t := assoc m.panel.onTime p
  match m.tileAt p with
  | some (c, i) => if m.tileState c i = 4 ∧ m.power ≤ 1 then t + (m.now - m.panel.onAt) else t
  | none => t

/-- Adds the time since the last call to the on-time of every ACTIVE tile, in P0 and P1 (R346). -/
def Mach.accrueOnTime (m : Mach) : Mach :=
  let dt := m.now - m.panel.onAt
  let m := if m.power ≤ 1 then
      each m.activeTiles m (fun m t => m.onPanel (fun x => { x with onTime := assocSet x.onTime t.1 (assoc x.onTime t.1 + dt) }))
    else m
  m.onPanel (fun x => { x with onAt := m.now })

/-- Sets or clears a history flag of a panel position (R352). -/
def Mach.flag (m : Mach) (p bit_ : Nat) (on : Bool) : Mach :=
  let f := m.objN 0x6211 1 p
  m.setN 0x6211 1 (if f.testBit bit_ = on then f else f ^^^ 2 ^ bit_) p

/-! ### History objects (R349, R350) -/

/-- A history object: header and body (R349). -/
def flashObject (kind serial seq onTime time : Nat) (body : Bytes) : Bytes :=
  let h := beBytes 4 (if kind = 1 then 0x4B57474D else 0x4B574350) ++ beBytes 1 1 ++ beBytes 1 kind ++ [0, 0] ++
    beBytes 8 (serial % 2 ^ 48) ++ beBytes 4 seq ++ beBytes 4 body.length ++ beBytes 4 (crcOf body) ++ beBytes 4 0 ++
    beBytes 8 (if kind = 2 then onTime else 0) ++ timeBytes time ++ List.replicate 6 0
  h ++ beBytes 4 (crcOf h) ++ body

/-- The length of the body that an object's header gives. -/
def bodyLength (b : Bytes) : Nat := ofBE (slice 20 4 b)

/-- Whether an object's header passes its magic, kind, format and header check (R351 cause 1). -/
def headerGood (kind : Nat) (b : Bytes) : Bool :=
  ofBE (b.take 4) = (if kind = 1 then 0x4B57474D else 0x4B574350) && ofBE (slice 4 1 b) = 1 && ofBE (slice 5 1 b) = kind &&
    ofBE (slice 60 4 b) = crcOf (b.take 60)

/-- The blocks of an image's stream, each with its grid place and samples; none when a block fails (R221). -/
def streamBlocks (width height : Nat) : Nat → Bytes → List (Nat × Nat × List Sample) → Option (List (Nat × Nat × List Sample))
  | 0, b, done => if b = [] then some done else none
  | n + 1, b, done =>
    if b = [] then some done
    else match readHeader b, judgeBlock b width height none (done.map (fun x => (x.1, x.2.1))) with
      | some h, .ok x => streamBlocks width height n (b.drop h.length) (done ++ [x])
      | _, _ => none

/-- The stress image that a checkpoint body decodes to: its blocks with their grid place and samples; none when a block fails (R350). -/
def checkpointBlocks (body : Bytes) : Option (List (Nat × Nat × List Sample)) :=
  (streamBlocks 320 288 25 body []).bind (fun l => if l.length = 25 then some l else none)

/-- The cause for which a whole object is rejected, if any (R351 causes 1 to 3). -/
def objectCause (kind serial : Nat) (b : Bytes) : Option Nat :=
  let body := slice 64 (bodyLength b) b
  if !headerGood kind b then some 1
  else if ofBE (slice 24 4 b) ≠ crcOf body ∨ (kind = 1 ∧ body.length ≠ 276480) ∨
      (kind = 2 ∧ (checkpointBlocks body).isNone) then some 2
  else if ofBE (slice 8 8 b) % 2 ^ 48 ≠ serial % 2 ^ 48 then some 3
  else none

/-- Two bytes swapped throughout: from the object's byte order to the slot's (R347, R350). -/
def swapPairs : Bytes → Bytes
  | a :: b :: rest => b :: a :: swapPairs rest
  | l => l

/-- 138,240 gains of unity as they stand in a slot (R351). -/
def unityGains : Bytes := (List.replicate 138240 ([0x00, 0x80] : Bytes)).flatten

/-- Base of a gain slot (R347). -/
def slotBase (slot : Nat) : Nat := gainAddress slot 0 0

/-! ### Loading history (R351) -/

/-- The load of a kind of a tile. -/
def Mach.load (m : Mach) (c pos kind : Nat) : FlashLoad :=
  let t := m.tile c pos
  if kind = 1 then t.gainLoad else t.checkLoad

/-- Changes the load of a kind. -/
def Mach.onLoad (m : Mach) (c pos kind : Nat) (f : FlashLoad → FlashLoad) : Mach :=
  m.onTile c pos (fun t => if kind = 1 then { t with gainLoad := f t.gainLoad } else { t with checkLoad := f t.checkLoad })

/-- Puts a settled gain map into module memory: into a free gain slot, which the position is bound to at once when it is loaded into
the tile map's position, and at the next heat start when an ACTIVE tile's map is reloaded (R351, R357). -/
def Mach.placeGain (m : Mach) (c pos p : Nat) : Eff :=
  match (m.load c pos 1).held, m.panel.freeSlots with
  | some o, slot :: rest =>
    let m := m.onLoad c pos 1 (fun x => { x with held := none })
    let m := (m.flag p 1 (o = [])).setN 0x6211 2 (if o = [] then 0 else ofBE (slice 16 4 o)) p
    let m := if m.tileState c pos = 4 then
        (m.setFree rest).onPanel (fun x => { x with rebind := x.rebind ++ [(p, slot)] })
      else m.bindSlot p slot
    m.store (slotBase slot) (if o = [] then unityGains else swapPairs (slice 64 276480 o))
  | _, _ => .of m

/-- Puts a settled checkpoint into the position's stress image, with its on-time and sequence (R351). -/
def Mach.placeCheckpoint (m : Mach) (c pos p : Nat) : Eff :=
  match (m.load c pos 2).held with
  | none => .of m
  | some o =>
    let m := m.onLoad c pos 2 (fun x => { x with held := none })
    let none_ := o = []
    let m := (((m.flag p 0 none_).flag p 2 false).flag p 3 false).flag p 4 false
    let m := (m.setN 0x6211 3 (if none_ then 0 else ofBE (slice 16 4 o)) p).setN 0x6211 4 (if none_ then 0 else timeOf (slice 40 14 o)) p
    let on := if none_ then 0 else ofBE (slice 32 8 o) * sec 1
    let m := m.onPanel (fun x => { x with onTime := assocSet x.onTime p on, lastOn := assocSet x.lastOn p on })
    if none_ then m.store (stressBase p) (List.replicate 552960 0)
    else
      let l := (checkpointBlocks (slice 64 (bodyLength o) o)).getD []
      m.storeAll (l.flatMap (fun b => blockWrites (stressBase p) 320 b.1 b.2.1 (blockSize 320 288 b.1 b.2.1).1 b.2.2))

/-- The 64-byte accesses of a position's stress image that hold affected counters take the checkpoint's values for those counters and
keep the others (R357). -/
def Mach.restoreCounters (m : Mach) (c : Ctx) (p : Nat) (o : Bytes) : Eff :=
  let image : Mem := if o = [] then [] else
    memApply [] (((checkpointBlocks (slice 64 (bodyLength o) o)).getD []).flatMap (fun b =>
      blockWrites 0 320 b.1 b.2.1 (blockSize 320 288 b.1 b.2.1).1 b.2.2))
  let bad := (m.panel.affected.filter (fun a => a.1 = p)).map Prod.snd
  -- the bytes of the counters that have a byte in a bad access, by group of three counters
  let groups := (bad.flatMap (fun a => (upTo 64).map (fun i => (a + i - stressBase p) / 12))).eraseDups
  let new := groups.map (fun g =>
    let a := stressBase p + 12 * g
    let touched (t : Nat) : Bool := (upTo 12).any (fun i =>
      bad.contains ((a + i) / 64 * 64) && counterHas t i)
    let now := readGroup (memLoad c.mem a 12)
    let kept := readGroup (memLoad image (12 * g) 12)
    (⟨a, groupBytes ((upTo 3).map (fun t => if touched t then kept.getD t 0 else now.getD t 0))⟩ : MemWrite))
  let m := m.onPanel (fun x => { x with affected := x.affected.filter (fun a => a.1 != p) })
  let m := each bad m (fun m a => m.unpoison a 64)
  (m.flag p 3 true).storeAll new

/-- A loaded tile with both kinds settled is READY; what it loaded goes to its panel position when it has one. -/
def Mach.placeHistory (m : Mach) (c pos : Nat) : Eff :=
  match m.panelFor c pos with
  | none => .of m
  | some p => (m.placeGain c pos p).then_ (fun m => m.placeCheckpoint c pos p)

/-- What is loaded next: the gain map first, then the checkpoint; a kind whose flag is clear is settled without an object, with event
0x9001 (R351). A tile with both settled becomes READY. -/
def Mach.loadNext (m : Mach) (c pos : Nat) : Eff :=
  let settle (m : Mach) (kind : Nat) : Mach :=
    (m.onLoad c pos kind (fun x => { x with done := true, held := some [] })).raise 0x9001 c
      [(1, c), (1, pos), (8, m.objN 0x6181 2 (tileBank c pos)), (1, kind), (1, 0)]
  let read (m : Mach) (kind : Nat) : Mach :=
    (m.onLoad c pos kind (fun x => { x with since := some m.now, segs := [] })).toTile c pos (.flashRead pos kind)
  let t := m.tile c pos
  if t.gainLoad.since.isSome ∨ t.checkLoad.since.isSome then .of m
  else if !t.gainLoad.done ∧ t.gainInFlash then .of (read m 1)
  else
    let m := if t.gainLoad.done then m else settle m 1
    if !t.checkLoad.done ∧ t.checkInFlash then .of (read m 2)
    else
      let m := if t.checkLoad.done then m else settle m 2
      let m := if m.tileState c pos = 2 then m.setTile c pos 3 else m
      m.placeHistory c pos

/-- The display mode that follows the state in force (R368). -/
def Mach.displayMode (m : Mach) : Nat := if m.power = 2 then 2 else if m.objN 0x5000 9 = 1 then 1 else 0

/-- A tile enters LOADING (R327, R351). -/
def Mach.startLoad (m : Mach) (c pos : Nat) : Eff :=
  let m := (m.setTile c pos 2).onTile c pos (fun t => { t with gainLoad := {}, checkLoad := {} })
  let m := (m.toTile c pos (.configWrite pos 0x10 (m.objN 0x6300 3))).toTile c pos (.configWrite pos 0x11 m.displayMode)
  m.loadNext c pos

/-- CONFIG_ACK (R314, R321, R327): the delay compensation in force, read back, lets the tile load its history. -/
def configAck (c pos reg value : Nat) (m : Mach) : Eff :=
  if m.tileState c pos = 1 ∧ reg = 1 ∧ value = symbolsOf (m.tile c pos).delay ∧ m.objN 0x6181 6 (tileBank c pos) = psOf (m.tile c pos).delay
  then m.startLoad c pos
  else .of m

/-- A read ends: its object, or none with the cause of R351. A tile that reloads while ACTIVE repairs what was damaged (R357). -/
def Mach.endLoad (m : Mach) (x : Ctx) (c pos kind : Nat) (r : Except Nat Bytes) : Eff :=
  let active : Bool := m.tileState c pos = 4
  let o := match r with
    | .ok b => b
    | .error _ => []
  let m := match r with
    | .ok _ => m
    | .error cause => m.raise 0x9001 c [(1, c), (1, pos), (8, m.objN 0x6181 2 (tileBank c pos)), (1, kind), (1, cause)]
  let m := m.onLoad c pos kind (fun l => { l with segs := [], since := none, done := true, held := some o })
  if active ∧ kind = 2 then
    let m := m.onLoad c pos 2 (fun l => { l with held := none })
    match m.panelFor c pos with
    | some p => (m.restoreCounters x p o).then_ (fun m => m.loadNext c pos)
    | none => .of m
  else m.loadNext c pos

/-- The bytes of an object that have arrived in order. -/
def FlashLoad.bytes (l : FlashLoad) : Bytes :=
  (sortBy (fun a b => a.2.1 ≤ b.2.1) l.segs).foldl (fun b s => if s.2.1 = b.length then b ++ s.2.2 else b) []

/-- The highest number with every segment up to it held (R318). -/
def FlashLoad.ackable (l : FlashLoad) : Option Nat :=
  let n := ((upTo l.segs.length).takeWhile (fun i => l.segs.any (fun s => s.1 = i))).length
  if n = 0 then none else some (n - 1)

/-- The data bytes of a tile's segment: those of its data blocks, the next `length` that follow its SEG_START (R316, R317). -/
def tileSegData (s : TileSeg) : Bytes := (s.blocks.take s.length).flatMap (fun b => beBytes 16 (b.getD 0).toNat)

/-- Why the module rejects a tile's segment, by the cause of its NAK (R317): an erasure among its blocks, another SEG_START before the last of
them, a CRC-32C that differs. -/
def tileSegRejected (s : TileSeg) : Option Nat :=
  let l := s.blocks.take s.length
  if l.any Option.isNone then some 1 else if l.length < s.length then some 2 else if crcOf (tileSegData s) ≠ s.crc then some 0 else none

/-- TILE_SEG_START: a segment of a history object arrives (R317, R318, R351): accepted and acknowledged, or rejected. The object is
checked once it is whole; its header as soon as that is. -/
def tileSegment (s : TileSeg) (x : Ctx) (m : Mach) : Eff :=
  if s.c ≥ 96 ∨ s.pos ≥ 10 ∨ (s.kind ≠ 1 ∧ s.kind ≠ 2) ∨ (m.load s.c s.pos s.kind).since.isNone then .of m
  else match tileSegRejected s with
    | some cause => .of (m.toTile s.c s.pos (.nak s.pos s.kind s.seq cause))
    | none =>
      let m := m.onLoad s.c s.pos s.kind (fun l =>
        if l.segs.any (fun y => y.1 = s.seq) then l else { l with segs := l.segs ++ [(s.seq, 16 * s.locator, tileSegData s)] })
      let l := m.load s.c s.pos s.kind
      let m := match l.ackable with
        | some n => m.toTile s.c s.pos (.ack s.pos s.kind n)
        | none => m
      let b := l.bytes
      if b.length < 64 then .of m
      else if !headerGood s.kind b then m.endLoad x s.c s.pos s.kind (.error 1)
      else if b.length < 64 + bodyLength b then .of m
      else match objectCause s.kind (m.objN 0x6181 2 (tileBank s.c s.pos)) b with
        | some cause => m.endLoad x s.c s.pos s.kind (.error cause)
        | none => m.endLoad x s.c s.pos s.kind (.ok (b.take (64 + bodyLength b)))

/-- FLASH_READ_TIMEOUT: an object is not whole within t_frd (R351 cause 4). -/
def flashReadTimeout (c pos kind : Nat) (x : Ctx) (m : Mach) : Eff :=
  match (m.load c pos kind).since with
  | none => .of m
  | some t => if t + ms 100 ≤ m.now ∧ (kind = 1 ∨ kind = 2) then m.endLoad x c pos kind (.error 4) else .of m

/-! ### Writing history back (R353 to R356) -/

/-- The segments of an object transfer (R315, R350): 4,096 B each, the last filled with zeros to a whole data block. -/
def objectSegs (t : Transfer) : List Seg :=
  let b := t.object ++ List.replicate ((16 - t.object.length % 16) % 16) 0
  ((pieces (b.length / 4096 + 1) b).zipIdx).map (fun d =>
    { pos := t.pos, version := 0, kind := t.kind, heat := 0, seq := d.2, row := 0, band := 0, width := 1, piece := 256 * d.2,
      panel := t.panel, data := d.1 })

/-- The sequence that the next object of a kind written to the tile at a panel position has (R349): one above the last. -/
def Mach.nextSequence (m : Mach) (p kind : Nat) : Nat := (m.objN 0x6211 (if kind = 1 then 2 else 3) p + 1) % 2 ^ 32

/-- An object with another sequence in its header (R349). -/
def resequence (seq : Nat) (o : Bytes) : Bytes :=
  let h := o.take 16 ++ beBytes 4 seq ++ slice 20 40 o
  h ++ beBytes 4 (crcOf h) ++ o.drop 64

/-- Stages the transfers that may run: the first of each tile, when it neither runs nor waits for its retry (R355). One that waited while another
of its kind was written takes the sequence after that one's (R349). -/
def Mach.runTransfers (m : Mach) : Mach :=
  let first := m.panel.transfers.filter (fun t =>
    (m.panel.transfers.find? (fun u => u.c = t.c && u.pos = t.pos)) = some t && !t.staged && t.retryAt.isNone)
  each first m (fun m t =>
    let seq := m.nextSequence t.panel t.kind
    let t' : Transfer := if t.seq = seq then t else { t with seq := seq, object := resequence seq t.object }
    let m := m.onLane (m.feedLane t.c t.pos) (fun x => { x with staged := x.staged ++ objectSegs t' })
    m.onPanel (fun x => { x with transfers := x.transfers.map (fun u => if u = t then { t' with staged := true } else u) }))

/-- A transfer is wanted: it replaces a waiting one of the same kind (R355). -/
def Mach.wantTransfer (m : Mach) (t : Transfer) : Mach :=
  let old (u : Transfer) : Bool := u.c = t.c && u.pos = t.pos && u.kind = t.kind && !u.staged
  let t : Transfer := { t with wasActive := decide (m.tileState t.c t.pos = 4) }
  (m.onPanel (fun x => { x with transfers := x.transfers.filter (fun u => !old u) ++ [t] })).runTransfers

/-- Whether a transfer's tile can still be written: ACTIVE, or READY without having been ACTIVE since (R355, R356). -/
def Mach.reached (m : Mach) (t : Transfer) : Bool :=
  m.tileState t.c t.pos = 4 || (m.tileState t.c t.pos = 3 && !t.wasActive)

/-- A transfer ends, written or given up. -/
def Mach.dropTransfer (m : Mach) (t : Transfer) : Mach :=
  let m := m.dropSegs (m.feedLane t.c t.pos) t.pos 0 t.kind 0
  m.onPanel (fun x => { x with transfers := x.transfers.filter (· != t) })

/-- A transfer fails (R355): retried once 10 s later; a second failure raises 0x9003 and, of a checkpoint, sets CHECKPOINT_FAILED. -/
def Mach.failTransfer (m : Mach) (t : Transfer) (status : Nat) : Mach :=
  if t.failures = 0 then
    let m := m.dropSegs (m.feedLane t.c t.pos) t.pos 0 t.kind 0
    m.onPanel (fun x => { x with transfers := x.transfers.map (fun u =>
      if u = t then { u with staged := false, commitAt := none, failures := 1, retryAt := some (m.now + sec 10) }
      else u) })
  else
    let m := (m.dropTransfer t).bump 0x6200 6
    let m := if t.kind = 2 then m.flag t.panel 2 true else m
    (m.raise 0x9003 t.c [(1, t.c), (1, t.pos), (1, t.kind), (1, status)]).runTransfers

/-- The running transfer of a tile and kind. -/
def Mach.transfer? (m : Mach) (c pos kind : Nat) : Option Transfer :=
  m.panel.transfers.find? (fun t => t.c = c && t.pos = pos && t.kind = kind && t.staged)

/-- After the last segment of a transfer is acknowledged, FLASH_COMMIT is sent (R354 step 5). -/
def Mach.checkObject (m : Mach) (c pos kind : Nat) : Mach :=
  match m.transfer? c pos kind with
  | none => m
  | some t =>
    if t.commitAt.isSome ∨ (m.lane (m.feedLane c pos)).carries pos 0 kind 0 then m
    else
      let m := m.toTile c pos (.flashCommit pos kind t.object.length (crcOf t.object))
      m.onPanel (fun x => { x with transfers := x.transfers.map (fun u => if u = t then { u with commitAt := some m.now } else u) })

/-- A checkpoint or gain map is written (R352, R354 step 6). -/
def Mach.recordTransfer (m : Mach) (t : Transfer) : Mach :=
  let m := m.dropTransfer t
  let m := if t.kind = 1 then m.setN 0x6211 2 t.seq t.panel
    else
      let m := (m.setN 0x6211 3 t.seq t.panel).setN 0x6211 4 (timeOf (slice 40 14 t.object)) t.panel
      let m := ((m.bump 0x6200 5).flag t.panel 2 false).flag t.panel 3 false
      m.onPanel (fun x => { x with lastOn := assocSet x.lastOn t.panel (ofBE (slice 32 8 t.object) * sec 1) })
  m.runTransfers

/-- Parks a tile whose final checkpoint is settled (R327). -/
def Mach.parkWhenDone (m : Mach) (c pos : Nat) : Mach :=
  let busy := m.panel.transfers.any (fun t => t.c = c && t.pos = pos && t.kind = 2) ||
    m.panel.checkpoints.any (fun k => k.c = c && k.pos = pos)
  if (m.tile c pos).leaving ∧ !busy then m.park c pos else m

/-- FLASH_DONE: status 0 written, 1 CRC differs, 2 flash error (R314, R354, R355); as the answer to FLASH_READ, status 2 says that the
tile has no valid copy (R375). -/
def flashDone (c pos kind status : Nat) (x : Ctx) (m : Mach) : Eff :=
  if (kind = 1 ∨ kind = 2) ∧ (m.load c pos kind).since.isSome ∧ status = 2 then m.endLoad x c pos kind (.error 0)
  else match m.transfer? c pos kind with
    | none => .of m
    | some t =>
      if t.commitAt.isNone then .of m
      else .of ((if status = 0 then m.recordTransfer t else m.failTransfer t status).parkWhenDone c pos)

/-- FLASH_TIMEOUT: no FLASH_DONE within t_fto of FLASH_COMMIT (R355). -/
def flashTimeout (c pos kind : Nat) (m : Mach) : Mach :=
  match m.transfer? c pos kind with
  | none => m
  | some t => match t.commitAt with
    | none => m
    | some at_ => if at_ + ms 1000 ≤ m.now then (m.failTransfer t 3).parkWhenDone c pos else m

/-- HISTORY_RETRY: 10 s after its failure a transfer is tried again; with its tile gone it fails again (R355). -/
def historyRetry (c pos kind : Nat) (m : Mach) : Mach :=
  match m.panel.transfers.find? (fun t => t.c = c && t.pos = pos && t.kind = kind && t.retryAt.isSome) with
  | none => m
  | some t =>
    if m.now < t.retryAt.getD 0 then m
    else if !m.reached t then (m.failTransfer t 4).parkWhenDone c pos
    else
      (m.onPanel (fun x => { x with transfers := x.transfers.map (fun u => if u = t then { u with retryAt := none } else u) })).runTransfers

/-- The gain map that a slot holds, as a body of kind 1 (R350). -/
def gainBody (mem : Mem) (slot : Nat) : Bytes := swapPairs (memLoad mem (slotBase slot) 276480)

/-- A new gain map that became visible is written back (R356): it is read from its slot. -/
def Mach.writeBackGain (m : Mach) (x : Ctx) (p time : Nat) : Mach :=
  match m.tileAt p with
  | none => m
  | some (c, i) =>
    let seq := m.nextSequence p 1
    let serial := m.objN 0x6181 2 (tileBank c i)
    let base := slotBase (m.objN 0x6211 7 p)
    let m := m.strike (sourceBase 11) [(base, 276480)]
    let body := swapPairs (m.fetch x.mem base 276480)
    (m.draw.reads (sourceBase 11) [(base, 276480)]).wantTransfer
      { c := c, pos := i, panel := p, kind := 1, seq := seq, object := flashObject 1 serial seq 0 time body }

/-! ### Checkpoints (R353, R354) -/

/-- Asks for a checkpoint of a tile, unless one waits already. -/
def Mach.askCheckpoint (m : Mach) (c pos p : Nat) : Mach :=
  if m.panel.checkpoints.any (fun k => k.panel = p && k.heat.isNone) then m
  else m.onPanel (fun x => { x with checkpoints := x.checkpoints ++ [{ c := c, pos := pos, panel := p }] })

/-- CHECKPOINT_REQUEST (R353, R377): aborts unless the tile at the panel position is ACTIVE. -/
def Mach.requestCheckpoint (m : Mach) (p : Nat) : Except Nat Mach :=
  match m.tileAt p with
  | some (c, i) => if m.tileState c i = 4 then .ok (m.askCheckpoint c i p) else .error abPrecondition
  | none => .error abPrecondition

/-- Objects in progress: checkpoints started, and those on their way to a tile (R353). -/
def Mach.checkpointsRunning (m : Mach) : Nat :=
  (m.panel.checkpoints.filter (fun k => k.heat.isSome)).length + (m.panel.transfers.filter (fun t => t.kind = 2)).length

/-- The ACTIVE tiles whose on-time has advanced by the checkpoint interval since their last checkpoint, oldest first (R353). -/
def Mach.dueCheckpoints (m : Mach) : List (Nat × Nat × Nat) :=
  let busy (p : Nat) : Bool := m.panel.checkpoints.any (fun k => k.panel = p) || m.panel.transfers.any (fun t => t.panel = p && t.kind = 2)
  let age (p : Nat) : Nat := assoc m.panel.onTime p - assoc m.panel.lastOn p
  sortBy (fun a b => age b.1 ≤ age a.1) (m.activeTiles.filter (fun t => sec (m.objN 0x6200 4) ≤ age t.1 && !busy t.1))

/-- At a heat start at most `limit` checkpoints begin, with at most 64 in progress: those asked for, then the periodic ones (R353). -/
def Mach.beginCheckpoints (m : Mach) (h limit : Nat) : Mach :=
  let m := each m.dueCheckpoints m (fun m t => m.askCheckpoint t.2.1 t.2.2 t.1)
  let room := min limit (64 - m.checkpointsRunning)
  let go := (m.panel.checkpoints.filter (fun k => k.heat.isNone)).take room
  each go m (fun m k => m.onPanel (fun x =>
    let held := (x.checkpoints.filter (fun y => y.heat.isSome)).map Checkpoint.buffer
    let free := ((upTo 64).find? (fun b => !held.contains b)).getD 0
    { x with checkpoints := x.checkpoints.map (fun y => if y = k then { y with heat := some h, buffer := free } else y) }))

/-- A stress access returns poison: accumulation of the counters in it stops, and the checkpoint is read (R357). -/
def Mach.stressPoison (m : Mach) (p a : Nat) : Eff :=
  let access := a / 64 * 64
  let m := m.raiseRate 1 0x9004 p [(1, p % 32), (1, p / 32), (1, 1)]
  let m := m.onPanel (fun x => { x with affected := addNew x.affected (p, access) })
  match m.tileAt p with
  | some (c, i) =>
    if (m.load c i 2).since.isSome then .of m
    else (m.onTile c i (fun t => { t with checkInFlash := true, checkLoad := {} })).loadNext c i
  | none => .of m

/-- The 64-byte accesses among some runs that read as poison. -/
def Mach.badAccesses (m : Mach) (runs : List (Nat × Nat)) : List Nat :=
  if !m.anyPoison then [] else ((runs.flatMap (fun r => accessesOf r.1 r.2)).eraseDups).filter (fun x => m.poisonedAt x 64)

/-- What the stress accesses that return poison among some runs start, those found before apart (R357). -/
def Mach.stressFound (m : Mach) (p : Nat) (runs : List (Nat × Nat)) : Eff :=
  ((m.badAccesses runs).filter (fun x => !m.panel.affected.contains (p, x))).foldl (fun (e : Eff) x => e.then_ (fun m => m.stressPoison p x)) (.of m)

/-- A stress image is copied into a snapshot buffer (R354 step 1). -/
def Mach.copyImage (m : Mach) (x : Ctx) (k : Checkpoint) : Eff :=
  let run := (stressBase k.panel, 552960)
  let m := m.strike (sourceBase 1) [run]
  let image := m.fetch x.mem run.1 run.2
  ((m.draw.reads (sourceBase 1) [run]).store (snapshotBase k.buffer) image).then_ (fun m => m.stressFound k.panel [run])

/-- At t_C the snapshots of the heat are complete (R354 steps 1 and 2): those of tiles whose version 1 was rendered as the pipeline wrote them,
the others by a copy. -/
def Mach.snapCheckpoints (m : Mach) (x : Ctx) (h time : Nat) : Eff :=
  let due := m.panel.checkpoints.filter (fun k => k.heat = some h && !k.snapped)
  let m := m.onPanel (fun p => { p with checkpoints := p.checkpoints.map (fun k =>
    if due.contains k then { k with snapped := true, time := time, onTime := m.onTimeOf k.panel / sec 1 } else k) })
  let rendered (k : Checkpoint) : Bool := m.heat.running && m.heat.number = h && (match m.pour? k.panel with
    | some p => p.v1.rendered && !p.v1.stopped
    | none => false)
  (due.filter (fun k => !rendered k)).foldl (fun (e : Eff) k => e.then_ (fun m => m.copyImage x k)) (.of m)

/-- Where block `b` of the snapshot in a buffer lies, row by row (R348, R354). -/
def snapshotRuns (buffer b : Nat) : List (Nat × Nat) :=
  let (col, row) := (blockGrid 320 288).getD b (0, 0)
  let (w, h) := blockSize 320 288 col row
  (upTo h).map (fun y => (snapshotBase buffer + (64 * row + y) * 1920 + 64 * col * 6, 6 * w))

/-- The samples of block `b` of the snapshot in a buffer; the manual gives its reader no effect of poison (R273). -/
def Mach.snapshotSamples (m : Mach) (mem : Mem) (buffer b : Nat) : List Sample :=
  (snapshotRuns buffer b).flatMap (fun r => samplesLE (r.2 / 6) (m.fetch mem r.1 r.2))

/-- A STORED block of a checkpoint, with layer field 0xCC (R227, R350). -/
def Mach.storedBlock (m : Mach) (mem : Mem) (buffer b : Nat) : Bytes :=
  let (col, row) := (blockGrid 320 288).getD b (0, 0)
  let (w, h) := blockSize 320 288 col row
  encodeBlock 0xCC col row w h (m.snapshotSamples mem buffer b) true

/-- The next block of a checkpoint for an encode engine. -/
def Mach.nextCheckpoint (m : Mach) : Option (Nat × Nat) :=
  m.panel.checkpoints.findSome? (fun k =>
    if !k.snapped then none
    else ((upTo 25).find? (fun b => !(k.blocks.any (fun y => y.1 = b)) && !m.codec.encode.contains (.checkpoint k.panel b))).map
      (fun b => (k.panel, b)))

/-- A block of a checkpoint leaves an encode engine (R220, R225). -/
def Mach.checkpointDone (m : Mach) (c : Ctx) (i p b : Nat) (mismatch : Bool) : Mach :=
  match m.panel.checkpoints.find? (fun k => k.panel = p && k.snapped) with
  | none => m
  | some k =>
    let (col, row) := (blockGrid 320 288).getD b (0, 0)
    let (w, h) := blockSize 320 288 col row
    let m := m.strike (sourceBase 5 + i) (snapshotRuns k.buffer b)
    let (m, block, wrong) := m.selfVerify i mismatch 0xCC col row w h (m.snapshotSamples c.mem k.buffer b)
    let m := (m.draw.reads (sourceBase 5 + i) (snapshotRuns k.buffer b)).countEncoded i 2 col row (isStored block) wrong
    m.onPanel (fun x => { x with checkpoints := x.checkpoints.map (fun y => if y = k then { y with blocks := y.blocks ++ [(b, block)] } else y) })

/-- CHECKPOINT_ENCODED: every block of a snapshot is encoded, or no encode engine is usable and the blocks are STORED (R227): the
object is formed and its segments wait for lane time (R354 steps 3 and 4). -/
def checkpointEncoded (p : Nat) (c : Ctx) (m : Mach) : Mach :=
  match m.panel.checkpoints.find? (fun k => k.panel = p && k.snapped) with
  | none => m
  | some k =>
    if k.blocks.length < 25 ∧ 0 < m.encodeUsable then m
    else
      let runs := ((upTo 25).filter (fun b => !(k.blocks.any (fun y => y.1 = b)))).flatMap (snapshotRuns k.buffer)
      let m := m.strike (sourceBase 11) runs
      let body := (upTo 25).flatMap (fun b => match k.blocks.find? (fun y => y.1 = b) with
        | some y => y.2
        | none => m.storedBlock c.mem k.buffer b)
      let m := m.draw.reads (sourceBase 11) runs
      let seq := m.nextSequence p 2
      let o := flashObject 2 (m.objN 0x6181 2 (tileBank k.c k.pos)) seq k.onTime k.time body
      let m := m.onPanel (fun x => { x with checkpoints := x.checkpoints.filter (· != k) })
      m.wantTransfer { c := k.c, pos := k.pos, panel := p, kind := 2, object := o, seq := seq }

/-- Idle encode engines in use take what waits: previews, then checkpoints (R225). -/
def Mach.feedEncode (m : Mach) : Mach :=
  each (upTo 4) m (fun m i =>
    if 1 < m.power ∨ m.codec.encode.getD i .idle ≠ .idle ∨ m.objN (0x7140 + i) 1 ≠ 1 then m
    else
      let put (w : EngineWork) : Mach := { m with codec := { m.codec with encode := setAt m.codec.encode i w } }
      match m.nextPreview with
      | some (v, b) => put (.preview v b)
      | none => match m.nextCheckpoint with
        | some (p, b) => put (.checkpoint p b)
        | none => m)

/-! ### Engines for host jobs (R224, R225, R235) -/

/-- Whether a preview or a checkpoint waits for an encode engine (R225). -/
def Mach.encodeWaits (m : Mach) : Bool := m.nextPreview.isSome || m.nextCheckpoint.isSome

/-- Whether a content block or a block to be decoded again waits for a decode engine (R222, R224). -/
def Mach.decodeWaits (m : Mach) : Bool := m.codec.redo.any (fun w => !w.ofHost) || m.nextBlock.isSome

/-- A free engine for a host job (R224, R225): decode jobs on at most 4 engines, encode jobs on at most 2, and only where nothing of
higher priority waits. -/
def Mach.engineFor (m : Mach) (j engine : Nat) : Bool :=
  let ours (l : List EngineWork) : Nat := (l.filter (fun w => w.job?.isSome)).length
  if (m.job j).kind = 1 then
    engine < 4 && m.codec.encode.getD engine .idle = .idle && m.objN (0x7140 + engine) 1 = 1 && !m.encodeWaits &&
      ours m.codec.encode < 2
  else
    engine < 20 && m.codec.decode.getD engine .idle = .idle && m.objN (0x7120 + engine) 1 = 1 && !m.decodeWaits &&
      ours m.codec.decode + ours m.codec.redo < 4

/-- A job takes an engine and is RUNNING. -/
def Mach.putJob (m : Mach) (j engine : Nat) : Mach :=
  let m := m.setN (0x7110 + j) 0x0D 2
  if (m.job j).kind = 1 then { m with codec := { m.codec with encode := setAt m.codec.encode engine (.job j) } }
  else { m with codec := { m.codec with decode := setAt m.codec.decode engine (.job j) } }

/-- RUNNING jobs that are held and stand at a block boundary, without an engine, become PAUSED at once (R235). -/
def Mach.pauseHeld (m : Mach) : Eff :=
  (upTo 8).foldl (fun (e : Eff) j => e.then_ (fun m =>
    if m.jobState j = 2 ∧ m.jobHeld j ∧ !(m.codec.decode ++ m.codec.encode ++ m.codec.redo).any (fun w => w.job? = some j)
    then m.pauseJob j else .of m)) (.of m)

/-- PAUSED jobs that nothing holds any longer continue from their records on free engines, in start order (R235). -/
def Mach.resumeJobs (m : Mach) : Mach :=
  each m.codec.order m (fun m j =>
    if m.jobState j = 3 ∧ !m.jobHeld j ∧ m.power ≤ 1 then
      match (upTo 20).find? (fun e => m.engineFor j e) with
      | some e => m.putJob j e
      | none => m
    else m)

/-! ### Gain-map updates (R358 to R361) -/

/-- State of a gain-map update (R361). -/
def Mach.gainState (m : Mach) (j : Nat) : Nat := m.objN (0x6220 + j) 4

/-- The panel position that the objects of a gain-map update name. -/
def Mach.gainPanel (m : Mach) (j : Nat) : Nat := 32 * m.objN (0x6220 + j) 2 + m.objN (0x6220 + j) 1

/-- The panel position that a gain-map update took at its start (R359). -/
def Mach.gainTarget (m : Mach) (j : Nat) : Nat := assoc m.panel.targets j

/-- The patch of a job and its rectangle. -/
def Mach.patch (m : Mach) (j : Nat) : Bytes := m.str (0x6230 + j) 0

/-- Whether a patch passes the checks of R358. -/
def gainPatchAllowed (b : Bytes) : Bool :=
  let (x, y, w, h) := patchRect b
  1 ≤ w && 1 ≤ h && x + w ≤ 480 && y + h ≤ 288 && b.length = 8 + 2 * w * h

/-- Whether the tile at a panel position is ACTIVE or READY. -/
def Mach.tileUsable (m : Mach) (p : Nat) : Bool :=
  match m.tileAt p with
  | some (c, i) => m.tileState c i = 4 || m.tileState c i = 3
  | none => false

/-- GAIN_UPDATE_START (R359). -/
def Mach.startGain (m : Mach) (j : Nat) : Except Nat Mach :=
  let p := m.gainPanel j
  if live (m.gainState j) ∨ m.patch j = [] ∨ !m.tileUsable p then .error abPrecondition
  else
    let old := m.panel.updates.filter (fun i =>
      m.gainState i = 1 && m.gainTarget i = p && within (patchRect (m.patch i)) (patchRect (m.patch j)))
    let m := each old m (fun m i => (m.setN (0x6220 + i) 4 5).raise 0x9005 i [(1, i), (1, j), (1, p % 32), (1, p / 32)])
    let m := m.onPanel (fun x => { x with
      updates := x.updates.filter (fun i => !old.contains i && i != j) ++ [j]
      targets := assocSet x.targets j p })
    .ok (m.sets (0x6220 + j) [(4, 1), (5, 0), (6, 0)])

/-- GAIN_UPDATE_RUN (R359, R360). -/
def gainRun (j : Nat) (m : Mach) : Mach :=
  let p := m.gainTarget j
  let first := m.panel.updates.find? (fun i => m.gainTarget i = p && live (m.gainState i))
  match m.panel.freeSlots with
  | [] => m
  | slot :: rest =>
    if m.gainState j ≠ 1 ∨ first ≠ some j then m
    else ((m.setN (0x6220 + j) 4 2).setFree rest).onPanel (fun x => { x with running := x.running ++ [(j, slot)] })

/-- The state, the reason and the event of a gain-map update that fails (R360). -/
def Mach.gainFailed (m : Mach) (j reason : Nat) : Mach :=
  ((m.setN (0x6220 + j) 4 6).setN (0x6220 + j) 6 reason).raise 0x9006 j [(1, j), (1, reason)]

/-- A QUEUED or RUNNING gain-map update fails, its slot freed unbound (R360). -/
def Mach.failGain (m : Mach) (j reason : Nat) : Mach :=
  let m := m.setFree (m.panel.freeSlots ++ (m.panel.running.filter (fun r => r.1 = j)).map Prod.snd)
  let m := m.onPanel (fun x => { x with
    updates := x.updates.filter (· != j)
    running := x.running.filter (fun r => r.1 != j) })
  m.gainFailed j reason

/-- A COMPLETE gain-map update fails before its binding, its slot freed unbound (R360); a job started again goes on. -/
def Mach.failShown (m : Mach) (s : GainShown) : Mach :=
  let m := (m.setFree (m.panel.freeSlots ++ [s.slot])).onPanel (fun x => { x with shown := x.shown.filter (· != s) })
  if m.gainState s.job = 3 then m.gainFailed s.job 1 else m

/-- The bytes of a gain slot with a patch laid over (R358, R360). -/
def patchedSlot (old b : Bytes) : Bytes :=
  let (x, y, w, h) := patchRect b
  (upTo 288).flatMap (fun r =>
    let row := slice (960 * r) 960 old
    if y ≤ r ∧ r < y + h then row.take (2 * x) ++ swapPairs (slice (8 + 2 * w * (r - y)) (2 * w) b) ++ row.drop (2 * (x + w)) else row)

/-- What a gain-map update copies from the bound slot: the gains outside its rectangle (R360). -/
def gainCopyRuns (base : Nat) (r : Nat × Nat × Nat × Nat) : List (Nat × Nat) :=
  let (x, y, w, h) := r
  ((upTo 288).flatMap (fun k =>
    let a := base + 960 * k
    if y ≤ k ∧ k < y + h then [(a, 2 * x), (a + 2 * (x + w), 960 - 2 * (x + w))] else [(a, 960)])).filter (fun r => r.2 != 0)

/-- GAIN_UPDATE_COMPLETE: the free slot takes the bound slot's gains and the patch; poison among what it copies fails it (R360). -/
def gainComplete (j : Nat) (x : Ctx) (m : Mach) : Eff :=
  match m.panel.running.find? (fun r => r.1 = j) with
  | none => .of m
  | some (_, slot) =>
    let p := m.gainTarget j
    let bound := slotBase (m.objN 0x6211 7 p)
    let runs := gainCopyRuns bound (patchRect (m.patch j))
    let m := m.reads (sourceBase 1) runs
    if runs.any (fun r => m.poisonedAt r.1 r.2) then .of (m.failGain j 2)
    else
      let m := m.onPanel (fun x => { x with
        updates := x.updates.filter (· != j)
        running := x.running.filter (fun r => r.1 != j)
        shown := x.shown ++ [{ job := j, slot := slot, panel := p }] })
      (m.setN (0x6220 + j) 4 3).store (slotBase slot) (patchedSlot (memLoad x.mem bound 276480) (m.patch j))

/-- At a heat start the slots of COMPLETE updates and of reloaded gain maps are bound (R342, R357, R360). -/
def Mach.bindGains (m : Mach) (h : Nat) : Mach :=
  let m := each m.panel.rebind m (fun m r => m.bindSlot r.1 r.2)
  let m := each (m.panel.shown.filter (fun s => s.heat.isNone)) m (fun m s => m.bindSlot s.panel s.slot)
  m.onPanel (fun x => { x with rebind := [], shown := x.shown.map (fun s => if s.heat.isNone then { s with heat := some h } else s) })

/-- At frame tick H the bound updates become VISIBLE and are written back (R356, R360); a job started again meanwhile keeps its state. -/
def Mach.showGains (m : Mach) (x : Ctx) (h time : Nat) : Mach :=
  let due := m.panel.shown.filter (fun s => match s.heat with | some k => k ≤ h | none => false)
  let m := m.onPanel (fun x => { x with shown := x.shown.filter (fun s => !due.contains s) })
  each due m (fun m s =>
    let j := s.job
    let m := if m.gainState j = 3 then ((m.setN (0x6220 + j) 4 4).setN (0x6220 + j) 5 h).raise 0x9007 j [(1, j), (8, h)] else m
    (m.flag s.panel 1 false).writeBackGain x s.panel time)

/-- What follows when tiles have changed state: updates whose tile left ACTIVE and READY fail (R360), transfers whose tile left ACTIVE
fail (R355), checkpoints of tiles that left are dropped. -/
def Mach.followTiles (m : Mach) : Mach :=
  let m := each m.panel.updates m (fun m j => if m.tileUsable (m.gainTarget j) then m else m.failGain j 1)
  let m := each (m.panel.shown.filter (fun s => s.heat.isNone)) m (fun m s => if m.tileUsable s.panel then m else m.failShown s)
  let m := each (m.panel.transfers.filter (fun t => t.retryAt.isNone && !m.reached t)) m (fun m t => m.failTransfer t 4)
  let m := m.onPanel (fun x => { x with transfers := x.transfers.map (fun t =>
    if !t.wasActive ∧ m.tileState t.c t.pos = 4 then { t with wasActive := true } else t) })
  m.onPanel (fun x => { x with checkpoints := x.checkpoints.filter (fun k => m.tileState k.c k.pos = 4) })

/-! ### Uncorrectable reads of the pipeline (R357) -/

/-- A gain read returns poison: unity for the pour, and the map is loaded again, or the access is written with unity (R357). -/
def Mach.gainPoison (m : Mach) (p a : Nat) : Eff :=
  let access := a / 64 * 64
  let m := m.raiseRate 1 0x9004 p [(1, p % 32), (1, p / 32), (1, 0)]
  if (m.objN 0x6211 1 p).testBit 1 then m.store access ((List.replicate 32 ([0x00, 0x80] : Bytes)).flatten)
  else match m.tileAt p with
    | some (c, i) =>
      if (m.load c i 1).since.isSome ∨ (m.load c i 1).held.isSome ∨ m.panel.rebind.any (fun r => r.1 = p) then .of m
      else
        (m.onTile c i (fun t => { t with gainInFlash := true, gainLoad := {} })).loadNext c i
    | none => .of m

/-- What the pipeline does with poison among the accesses it reads for a hogel row (R357): gains, and the stress counters whose access it has
not found before. -/
def Mach.pipelinePoison (m : Mach) (p : Pour) (version row a w : Nat) : Eff :=
  let gains := (m.badAccesses (m.gainRuns p row a w)).foldl (fun (e : Eff) x => e.then_ (fun m => m.gainPoison p.panel x)) (.of m)
  if version ≠ 1 then gains else gains.then_ (fun m => m.stressFound p.panel (stressRuns p row a w))

/-! ### Commons (R362 to R370) -/

/-- A common. -/
def Mach.common (m : Mach) (n : Nat) : Common := m.panel.commons.getD n {}

/-- Changes a common. -/
def Mach.onCommon (m : Mach) (n : Nat) (f : Common → Common) : Mach :=
  m.onPanel (fun x => { x with commons := modAt x.commons n f })

/-- State of a common: 0 RELAXED, 1 DRIVING, 2 FAULT, 3 QUENCHED (R370). -/
def Mach.commonState (m : Mach) (n : Nat) : Nat := m.objN (0x6310 + n) 1

/-- The state that R369 gives a common without a fault. -/
def Mach.commonTarget (m : Mach) : Nat :=
  if m.objN 0x6401 1 ≠ 0 then 3 else if m.scheduled ∧ m.power ≤ 1 ∧ m.panel.enabled then 1 else 0

/-- The state of one common without a fault: under calibration it stays out of DRIVING (R494). -/
def Mach.targetOf (m : Mach) (n : Nat) : Nat :=
  if m.calibrating 4 n ∧ m.commonTarget = 1 then (if m.commonState n = 1 then 1 else 0) else m.commonTarget

/-- The phase bit with which a common joins the others: opposite to its neighbours' among those DRIVING, n mod 2 when none is (R365,
R370). -/
def Mach.joinPhase (m : Mach) (n : Nat) : Bool :=
  match (upTo 64).find? (fun k => k != n && m.commonState k = 1) with
  | some k => (m.common k).phase != decide ((k + n) % 2 = 1)
  | none => n % 2 = 1

/-- Every common without a fault follows the module's state (R369); at entry to DRIVING the phase bits and the slot count start anew
(R365). -/
def Mach.followCommons (m : Mach) : Mach :=
  let enter := m.commonTarget = 1 ∧ (upTo 64).all (fun n => m.commonState n != 1)
  let m := if enter then
      m.onPanel (fun x => { x with g := 0, lastCorrective := none, corrective := false })
    else m
  each (upTo 64) m (fun m n =>
    let t := m.targetOf n
    if m.commonState n = 2 ∨ m.commonState n = t then m
    else
      let m := m.setN (0x6310 + n) 1 t
      if t = 1 then m.onCommon n (fun x => { x with phase := if enter then n % 2 = 1 else m.joinPhase n, each := 0 }) else m)

/-- COMMON_FAULT: a common is clamped and enters FAULT, with its cause 1 short, 2 open or 3 stuck (R370). -/
def commonFault (n cause : Nat) (m : Mach) : Mach :=
  if n ≥ 64 ∨ m.commonState n = 2 ∨ cause = 0 ∨ 3 < cause then m
  else
    let m := ((m.setN (0x6310 + n) 1 2).bump (0x6310 + n) 8).setN (0x6310 + n) 0x0A cause
    (m.onCommon n (fun x => { x with clearing := false })).raise 0x9011 n [(1, n), (1, cause)]

/-- COMMON_FAULT_CLEAR (R370, R378): it aborts unless the common is in FAULT. -/
def Mach.clearCommon (m : Mach) (n : Nat) : Except Nat Mach :=
  if m.commonState n = 2 then .ok (m.onCommon n (fun x => { x with clearing := true })) else .error abNothing

/-- At a frame tick the commons that wait for their clear return, with the phase opposite to a neighbour's (R370). -/
def Mach.clearCommons (m : Mach) : Mach :=
  each (upTo 64) m (fun m n =>
    if !(m.common n).clearing then m
    else
      let m := m.onCommon n (fun x => { x with clearing := false, each := 0, phase := m.joinPhase n })
      m.setN (0x6310 + n) 1 (m.targetOf n))

/-- The tiles of commons in FAULT under policy DARK: ceiling 0 from this heat start (R370). -/
def Mach.darkTiles (m : Mach) : List Nat :=
  if m.objN 0x6300 5 ≠ 0 then []
  else
    let bad := (upTo 64).filter (fun n => m.commonState n = 2)
    if bad = [] then [] else (upTo 960).filter (fun p => match m.commonOf p with
      | some n => bad.contains n
      | none => false)

/-- Whether every field of a waveform table is in range (R363); the reserved ones are ignored (R9). -/
def tableAllowed (b : Bytes) : Bool :=
  b.length = 136 && (upTo 17).all (fun k =>
    let f (o : Nat) : Nat := ofBE (slice (8 * k + o) 2 b)
    f 0 ≤ 12000 && f 2 ≤ 500 && f 4 ≤ 12000)

/-- The content of waveform table `b`: the factory's until one is written (R363). -/
def Mach.waveTable (m : Mach) (b : Nat) : Bytes :=
  match m.str (0x6350 + b) 0 with
  | [] => (upTo 136).map (fun i => Config.factoryTable (136 * b + i))
  | t => t

/-- The tables of the last frame tick and the bands it found apply from a slot edge on (R363, R367). -/
def Mach.applyArmed (m : Mach) : Mach :=
  let m := each m.panel.armed m (fun m b => m.onPanel (fun x => { x with tables := setAt x.tables b.1 b.2 }))
  let m := m.onPanel (fun x => { x with armed := [] })
  each (upTo 64) m (fun m n => m.onCommon n (fun x => { x with band := m.objN (0x6310 + n) 6 }))

/-- The frame tick as the commons see it (R363, R367, R369): what the tick before found applies from this edge on; the enable is taken. -/
def Mach.frameCommons (m : Mach) : Mach :=
  let m := m.applyArmed
  let m := m.onPanel (fun x => { x with
    armed := x.newTables.map (fun b => (b, m.str (0x6350 + b) 0))
    newTables := []
    enabled := m.objB 0x6300 2 })
  m.clearCommons.followCommons

/-- Lens state of a slot (R141, R363, R364): entry 4·sy + sx, and 16 with one slot. -/
def lensState (slots s : Nat) : Nat := if slots = 1 then 16 else let d := lensShift slots s; 4 * d.2 + d.1

/-- The waveform entry that drives a common in a lens state: overdrive level, overdrive time, hold level. -/
def Mach.waveform (m : Mach) (n k : Nat) : Nat × Nat × Nat :=
  let b := (m.common n).band
  let t := match m.panel.tables.getD b [] with
    | [] => (upTo 136).map (fun i => Config.factoryTable (136 * b + i))
    | t => t
  (ofBE (slice (8 * k) 2 t), ofBE (slice (8 * k + 2) 2 t), ofBE (slice (8 * k + 4) 2 t))

/-- SLOT_TICK: slot `slot` begins (R75, R364 to R367). `averages` are the DC averages A_n in µV that the slot tick takes (R366); a
corrective slot that the tick before decided keeps every polarity by toggling the phases. -/
def slotTick_ (slot : Nat) (averages : List Int) (m : Mach) : Mach :=
  if !m.scheduled ∨ m.startTick.isSome ∨ m.objN 0x5000 9 ≤ slot ∨ m.timeWord < m.slotAt m.frameNo slot then m
  else
    let slots := m.objN 0x5000 9
    let m := if slot = 0 then m else m.applyArmed
    let m := { m with pipe := { m.pipe with slot := slot } }
    let m := m.onPanel (fun x => { x with g := x.g + 1 })
    let m := if !m.panel.corrective then m
      else
        let m := (each (upTo 64) m (fun m n =>
          if m.commonState n = 1 then m.onCommon n (fun x => { x with phase := !x.phase }) else m)).bump 0x6300 6
        m.onPanel (fun x => { x with corrective := false, lastCorrective := some x.g })
    let driving := (upTo 64).filter (fun n => m.commonState n = 1)
    let m := each driving m (fun m n => m.set (0x6310 + n) 7 (averages.getD n 0))
    let wide := driving.any (fun n => 10000 < (averages.getD n 0).natAbs)
    let free : Bool := match m.panel.lastCorrective with
      | some g => decide (g + slots ≤ m.panel.g)
      | none => true
    let m := m.onPanel (fun x => { x with corrective := wide && free })
    let k := lensState slots slot
    let drive := driving.map (fun n =>
      let w := m.waveform n k
      (⟨n, (m.panel.g + bit (m.common n).phase) % 2 = 0, w.1, w.2.1, w.2.2, m.setting 4 n 0⟩ : CommonDrive))
    let m := if drive = [] then m else m.emit (.commons m.frameNo slot drive)
    if slot ≠ 0 then m
    else each driving m (fun m n =>
      if (averages.getD n 0).natAbs ≤ 50000 then m.onCommon n (fun x => { x with each := 0 })
      else
        let m := m.onCommon n (fun x => { x with each := x.each + 1 })
        let told : Bool := match (m.common n).toldAt with
          | some t => m.now < t + sec 60
          | none => false
        if (m.common n).each ≥ 4 ∧ !told then
          (m.raise 0x9012 n [(1, n), (4, toUnsigned 32 (averages.getD n 0))]).onCommon n (fun x => { x with toldAt := some m.now })
        else m)

/-! ### Registers of the tiles (R368) -/

/-- A changed display mode is sent to every tile. -/
def Mach.followMode (m : Mach) : Mach :=
  let d := m.displayMode
  if d = m.panel.mode then m else (m.onPanel (fun x => { x with mode := d })).toAll (.configWrite 0xF 0x11 d)

/-- SETTLE_TIME_WRITE: a changed settle time goes to every tile (R368). -/
def Mach.writeSettle (m : Mach) (v : Nat) : Mach :=
  if m.objN 0x6300 3 = v then m else (m.setN 0x6300 3 v).toAll (.configWrite 0xF 0x10 v)

/-! ### The slate (R371, R372) -/

/-- The tiles of the slate chain in the tile map within the slate's rectangle, with their panel positions (R371). -/
def Mach.slateTiles (m : Mach) : List (Nat × Nat) :=
  let o (s : Nat) := m.objN 0x6400 s
  (upTo 10).filterMap (fun i =>
    if !m.inMap (o 1) i then none
    else match m.panelFor (o 1) i with
      | some p => if within (p % 32, p / 32, 1, 1) (o 2, o 3, o 4, o 5) then some (i, p) else none
      | none => none)

/-- The slate palette (0x6400:07), 48 bytes: by default black, red, green, yellow, blue, magenta, cyan and white at level 2,048. -/
def Mach.palette (m : Mach) : Bytes :=
  match m.str 0x6400 7 with
  | [] => (upTo 8).flatMap (fun i => (upTo 3).flatMap (fun c => beBytes 2 (if i.testBit c then 2048 else 0)))
  | b => b

/-- The drive ceiling in force without its tile's common (R341). -/
def Mach.driveCeiling (m : Mach) : Nat := min (m.objN 0x6200 1) (if 4 ≤ m.stage then 2047 else 4095)

/-- Where row y of a tile lies in the slate frame buffer (R371). -/
def Mach.slateRow (m : Mach) (p y : Nat) : Nat × Nat :=
  (0x249000000 + 240 * (panelY p + y - 36 * m.objN 0x6400 3) + (panelX p - 60 * m.objN 0x6400 2), 60)

/-- The drive values of a slate hogel (R372): the palette entry of its byte, limited by the ceiling in force. -/
def Mach.slateValue (m : Mach) (ceiling : Nat) (b : Byte) : Nat × Nat × Nat :=
  let i := b.toNat % 8
  let level (c : Nat) : Nat := min (ofBE (slice (6 * i + 2 * c) 2 m.palette) % 4096) ceiling
  (level 0, level 1, level 2)

/-- The segments of version 1 of a slate tile at slot count 1 (R316, R372). -/
def Mach.slateSegs (m : Mach) (mem : Mem) (pos p heat : Nat) : List Seg :=
  let ceiling := if m.darkTiles.contains p then 0 else m.driveCeiling
  ((upTo 36).flatMap (fun row =>
    let line := m.fetch mem (m.slateRow p row).1 60
    let bits := (upTo 8).flatMap (fun _ => line.flatMap (fun b =>
      let v := emitterBits (m.slateValue ceiling b)
      (List.replicate 8 v).flatten))
    ((pieces 5 (packBits 17280 bits)).zipIdx).map (fun d => (row, d.2, d.1)))).zipIdx.map (fun s =>
      { pos := pos, version := 1, kind := 0, heat := heat, seq := s.2, row := s.1.1, band := 0, width := 60, piece := s.1.2.1,
        panel := p, data := s.1.2.2 })

/-- The slate changes (R372): each lit tile is sent version 1 of the slate frame after the next, in place of what was not sent yet. -/
def Mach.sendSlate (m : Mach) (x : Ctx) : Mach :=
  let chain := m.objN 0x6400 1
  let h := m.panel.slate.number + 2
  let m := each [2 * chain, 2 * chain + 1] m (fun m l => m.onLane l (fun y => { y with
    staged := y.staged.filter (fun s => s.kind != 0), naked := y.naked.filter (fun s => s.kind != 0) }))
  let m := each m.slateTiles m (fun m t =>
    let m := m.strike (sourceBase 2) ((upTo 36).map (m.slateRow t.2))
    let segs := m.slateSegs x.mem t.1 t.2 h
    (m.draw.reads (sourceBase 2) ((upTo 36).map (m.slateRow t.2))).onLane (m.feedLane chain t.1) (fun y => { y with staged := y.staged ++ segs }))
  m.onPanel (fun y => { y with slate := { y.slate with dirty := false, sent := true, lit := m.slateTiles } })

/-- Marks the slate's buffer as changed (R372). -/
def Mach.touchSlate (m : Mach) : Mach := m.onPanel (fun y => { y with slate := { y.slate with dirty := true } })

/-- SLATE_TICK: in P2 each slate tick sends TICK of kind 1 with slot count 1 and the COMMIT of the version sent since the tick before;
after a change of the buffer, or with another set of lit tiles, the lit tiles are sent again (R372). What a lane that is not ACTIVE yet could not
send is sent for a later frame (DESIGN CHOICE, log entry 101). -/
def slateTick (x : Ctx) (m : Mach) : Mach :=
  let s := m.panel.slate
  let every := ms (m.objN 0x6400 6)
  if m.power ≠ 2 ∨ m.objN 0x6400 9 ≠ 1 ∨ m.timeWord < s.tickAt + every then m
  else
    let chain := m.objN 0x6400 1
    let n := s.number + 1
    let m := (m.onPanel (fun y => { y with slate := { y.slate with number := n, tickAt := m.timeWord } })).setN 0x5000 0x0B n
    let m := m.sendKtl (2 * chain) (.tick true 0 1 n (4000 * 65536 / 32) 0)
    let m := if (upTo 10).any (fun i => m.fedFromB chain i) then m.sendKtl (2 * chain + 1) (.tick true 0 1 n (4000 * 65536 / 32) 0) else m
    let m := if s.sent then each s.lit m (fun m t => m.sendCommit chain t.1 (n + 1) 1 false) else m
    let late := s.sent && s.lit.any (fun t => m.tx (m.feedLane chain t.1) ≠ 4)
    let m := m.onPanel (fun y => { y with slate := { y.slate with sent := false } })
    let m := (m.setN 0x6400 0x0A m.slateTiles.length)
    if s.dirty ∨ late ∨ m.slateTiles ≠ s.lit then m.sendSlate x else m

end Sys2Proof.Machine
end

