-- ==== Sys2Proof/Machine/Thermal.lean ====
section
/-! DEFINITION. Thermal management (16): sensors and their filter (R466 to R470), throttle stages (R471, R472), fans (R474), the panel alarm
(R475), shutdown and trip decisions (R476 to R480), the thermal hold of a start (R481). -/

namespace Sys2Proof.Machine

/-- A sensor. -/
def Mach.sensor (m : Mach) (s : Nat) : Sensor := m.thermal.sensors.getD s {}

/-- Changes thermal management. -/
def Mach.onThermal (m : Mach) (f : Thermal → Thermal) : Mach := { m with thermal := f m.thermal }

/-- Changes a sensor. -/
def Mach.onSensor (m : Mach) (s : Nat) (f : Sensor → Sensor) : Mach :=
  m.onThermal (fun t => { t with sensors := modAt t.sensors s f })

/-- The thresholds written of a class: T1, T2, T3, shutdown and trip. -/
def Mach.classLimits (m : Mach) (c : Nat) : List Int := (upTo 5).map (fun k => m.obj (0x2240 + c) (k + 1))

/-- Threshold k of a sensor's class in force: 1 to 3 throttle entry, 4 shutdown, 5 trip (0x2240+c; R486). -/
def Mach.threshold (m : Mach) (s k : Nat) : Int :=
  match m.thermal.written.find? (fun x => x.1 = sensorClass s) with
  | some x => x.2.getD (k - 1) 0
  | none => m.obj (0x2240 + sensorClass s) k

/-- Thresholds of a class are written: those in force stay until the next conversion of a sensor of the class (R486). -/
def Mach.holdLimits (m : Mach) (c : Nat) : Mach :=
  m.onThermal (fun t => if t.written.any (fun x => x.1 = c) then t else { t with written := (c, m.classLimits c) :: t.written })

/-- A conversion of a sensor brings its class's thresholds into force (R486). -/
def Mach.takeLimits (m : Mach) (s : Nat) : Mach :=
  m.onThermal (fun t => { t with written := t.written.filter (fun x => x.1 != sensorClass s) })

/-- State of a sensor: 0 VALID, 1 FAILED, 2 RELEASED. -/
def Mach.sensorState (m : Mach) (s : Nat) : Nat := m.objN (0x2220 + s) 5

/-- The filtered value of a sensor. -/
def Mach.filtered (m : Mach) (s : Nat) : Int := m.obj (0x2220 + s) 4

/-- Whether firmware's thermal loop runs: from the step of the start that reads the sensors, in P0 to P2, on core 3 (R478, R533, R542). -/
def Mach.thermalLoop (m : Mach) : Bool := decide (m.power ≤ 2) && decide (5 ≤ m.boot.step) && !m.boot.cores.contains 3

/-- The value of a sensor for throttle and fans (R470, R471). -/
def Mach.thermalValue (m : Mach) (s : Nat) : Int :=
  match m.sensorState s with
  | 0 => m.filtered s
  | 2 => if m.sensorValid (sensorTwin s) then m.filtered (sensorTwin s) else m.threshold s 3 + 16
  | _ => m.threshold s 3 + 16

/-- The sensors of a zone 1 to 5. -/
def zoneSensors (z : Nat) : List Nat := (upTo 28).filter (fun s => sensorZone s = z)

/-- Whether a sensor has a value yet: a first reading, its twin's where that stands in for it, or a failure (R468, R470). -/
def Mach.hasValue (m : Mach) (s : Nat) : Bool :=
  match m.sensorState s with
  | 0 => (m.sensor s).seeded
  | 2 => !m.sensorValid (sensorTwin s) || (m.sensor (sensorTwin s)).seeded
  | _ => true

/-- The reading period of a sensor in µs (R467). -/
def Mach.readPeriod (m : Mach) (s : Nat) (r : Int) : Nat :=
  let near (d : Nat) : Bool := [1, 2, 3, 4, 5].any (fun k => (r - m.threshold s k).natAbs ≤ d)
  if near 32 then 100 else if near 80 then 1000 else 10000

/-- The filter of R468 at a period. -/
def filterStep (f r : Int) (period : Nat) : Int :=
  let k : Int := if period = 100 then 164 else if period = 1000 then 1618 else 14497
  f + ((r - f) * k + 32768) / 65536

/-! ### Decisions to stop (R476, R477, R539) -/

/-- Whether an orderly shutdown of a thermal cause runs. -/
def Mach.thermalStop (m : Mach) : Bool := m.boot.shut != 0 && (m.boot.shutCause = 1 || m.boot.shutCause = 2)

/-- The orderly shutdown is decided (R539 step 1): event 0x1003; what follows waits for T1. A decision replaces a pending stop to P2 or P3. -/
def Mach.decideShutdown (m : Mach) (cause : Nat) : Mach :=
  if m.boot.shut ≠ 0 ∨ m.power ≥ 4 ∨ m.boot.step = 0 then m
  else
    let m := { m with boot := { m.boot with shut := 1, shutCause := cause }, power_ := { m.power_ with stop := some 4, entry := none } }
    let m := (m.setN 0x2100 3 0xFF).raise 0x1003 0 [(1, cause)]
    { m with power_ := { m.power_ with lastStop := if cause = 1 ∨ cause = 2 then 3 else 0, decided := m.jrn.newest } }

/-- A thermal cause of an orderly shutdown: it is counted and the first heat after it waits (R481). A shutdown of another cause that runs
already goes on as a thermal one (DEDUCED, log entry 105). -/
def Mach.stopForHeat (m : Mach) (cause : Nat) : Mach :=
  let m := ((m.bump 0x2200 9).setN 0x2200 0x0B cause).onThermal (fun t => { t with hold := true })
  if m.boot.shut = 0 then m.decideShutdown cause
  else { m with boot := { m.boot with shutCause := cause }, power_ := { m.power_ with lastStop := 3 } }

/-- A sensor's value at or above its shutdown threshold: the trip is asserted when its slope predicts the trip threshold within the limit,
during an orderly shutdown too; otherwise the orderly shutdown starts, once (R476). -/
def Mach.judgeShutdown (m : Mach) (s : Nat) (f : Int) : Mach :=
  if f < m.threshold s 4 ∨ 4 ≤ m.power then m
  else
    let (rise, span) : Int × Nat := match (m.sensor s).hist.getLast? with
      | none => (0, 1)
      | some (t, v) => if m.now ≤ t then (0, 1) else (f - v, m.now - t)
    let g : Int := rise * (sec 1 : Nat) / (span : Int)
    let left := m.threshold s 5 - f
    let ahead : Nat := if 0 < rise then (left * 1000 * (span : Int) / (rise * (sec 1 : Nat))).toNat else 0xFFFFFFFF
    if 0 < rise ∧ ahead < m.objN 0x2200 5 then m.onThermal (fun t => { t with tripAsked := some s })
    else if m.thermalStop then m
    else
      let m := m.raise 0x3004 s [(1, s), (2, toUnsigned 16 f), (4, toUnsigned 32 g), (4, min ahead 0xFFFFFFFF)]
      m.stopForHeat 1

/-- The orderly shutdown of two failed twins, once (R477). -/
def Mach.judgePair (m : Mach) (s : Nat) : Mach :=
  let w := sensorTwin s
  if m.sensorState s = 0 ∨ m.sensorState w = 0 ∨ m.thermalStop ∨ 4 ≤ m.power then m
  else (m.raise 0x3006 s [(1, s), (1, w)]).stopForHeat 2

/-- Every pair that a failed sensor belongs to, as the sensor or as the twin (R466, R477). -/
def Mach.judgeTwins (m : Mach) (s : Nat) : Mach :=
  each ((upTo 28).filter (fun x => x = s || sensorTwin x = s)) m Mach.judgePair

/-- Every pair: firmware runs again and finds sensors that are still FAILED or RELEASED (R477; log entry 105). -/
def Mach.judgePairs (m : Mach) : Mach := each (upTo 28) m Mach.judgePair

/-! ### Throttle (R471, R472) -/

/-- Stage of a zone (0x2210+z−1:01). -/
def Mach.zoneStage (m : Mach) (z : Nat) : Nat := m.objN (0x2210 + (z - 1)) 1

/-- The deepest stage whose entry threshold some sensor of a zone has reached. -/
def Mach.zoneDemand (m : Mach) (z : Nat) : Nat :=
  ([3, 2, 1].find? (fun k => (zoneSensors z).any (fun s => m.hasValue s && m.threshold s k ≤ m.thermalValue s))).getD 0

/-- One zone: it deepens at once, and becomes shallower one stage at a time after 1 s below (R471). -/
def Mach.updateZone (m : Mach) (z : Nat) : Mach :=
  let st := m.zoneStage z
  let want := m.zoneDemand z
  let onZone (f : Zone → Zone) (m : Mach) : Mach := m.onThermal (fun t => { t with zones := modAt t.zones (z - 1) f })
  if st < want then onZone (fun _ => ⟨m.now, none⟩) (m.setN (0x2210 + (z - 1)) 1 want)
  else if st = 0 then m
  else
    let zn := m.thermal.zones.getD (z - 1) {}
    let cool := (zoneSensors z).all (fun s => m.hasValue s && m.thermalValue s < m.threshold s st - 48)
    if !cool then onZone (fun x => { x with belowAt := none }) m
    else match zn.belowAt with
      | none => onZone (fun x => { x with belowAt := some m.now }) m
      | some t =>
        if t + sec 1 ≤ m.now ∧ zn.changedAt + sec 1 ≤ m.now then
          let still := (zoneSensors z).all (fun s => m.thermalValue s < m.threshold s (st - 1) - 48)
          onZone (fun _ => ⟨m.now, if still then some m.now else none⟩) (m.setN (0x2210 + (z - 1)) 1 (st - 1))
        else m

/-- The module's throttle stage follows its zones, with event 0x3001 at each change (R471); from T1 on the fans run at 100 % (R472). -/
def Mach.updateThrottle (m : Mach) : Mach :=
  let m := each [1, 2, 3, 4, 5] m Mach.updateZone
  let old := m.throttle
  let new := ([1, 2, 3, 4, 5].map m.zoneStage).foldl max 0
  let gov := ([1, 2, 3, 4, 5].find? (fun z => m.zoneStage z = new)).getD 1
  let m := m.setN 0x2200 2 (if new = 0 then 0xFF else gov - 1)
  if new = old then m
  else
    let ss := (zoneSensors gov).filter m.hasValue
    let hot := ss.foldl (fun a s => if m.thermalValue a < m.thermalValue s then s else a) (ss.headD 0)
    let m := if new = 0 then m else m.setN 0x2200 4 100
    ((m.setN 0x2200 1 new).bump 0x2200 3).raise 0x3001 0
      [(1, old), (1, new), (1, gov - 1), (1, hot), (2, toUnsigned 16 (m.thermalValue hot))]

/-! ### Sensors (R467 to R470) -/

/-- A sensor is no longer compared with its twin (R469). -/
def Sensor.alone (x : Sensor) : Sensor := { x with apartAt := none, apartTold := false }

/-- A sensor becomes FAILED (R469), with event 0x3002; in P3 and P4 the AO island reads it (R478). -/
def Mach.loseSensor (m : Mach) (s cause : Nat) : Mach :=
  let m := ((m.setN (0x2220 + s) 5 1).setN (0x2220 + s) 6 cause).onSensor s (fun x =>
    { x with seeded := false, clearing := false, good := 0, tripRun := 0, hist := [], highs := [], lows := [] })
  let m := each ((upTo 28).filter (fun x => x = s || sensorTwin x = s)) m (fun m x => m.onSensor x Sensor.alone)
  let m := m.onThermal (fun t => { t with failures := t.failures + 1 })
  let detail := [(1, s), (1, cause), (1, bit (m.sensorValid (sensorTwin s)))]
  if m.power ≤ 2 then m.raise 0x3002 s detail else m.raiseAO 0x3002 s detail

/-- A sensor becomes FAILED while firmware runs, which judges its pairs at once (R469, R477). -/
def Mach.failSensor (m : Mach) (s cause : Nat) : Mach := (m.loseSensor s cause).judgeTwins s

/-- Twins that are both valid and differ by more than 20 °C for 1 s (R469). -/
def Mach.compareTwins (m : Mach) (s : Nat) : Mach :=
  let w := sensorTwin s
  if !m.sensorValid w ∨ !(m.sensor w).seeded then m.onSensor s (fun x => { x with apartAt := none })
  else
    let d := m.filtered s - m.filtered w
    if d.natAbs ≤ 320 then m.onSensor s (fun x => { x with apartAt := none, apartTold := false })
    else match (m.sensor s).apartAt with
      | none => m.onSensor s (fun x => { x with apartAt := some m.now })
      | some t =>
        if (m.sensor s).apartTold ∨ m.now < t + sec 1 then m
        else ((m.onSensor s (fun x => { x with apartTold := true })).onSensor w (fun x => { x with apartTold := x.apartTold || decide (sensorTwin w = s) })).raise 0x3007 s
          [(1, s), (1, w), (2, toUnsigned 16 d)]

/-- A sensor gives a reading, whatever its state: the latest one, and in P0 to P2 the period of the next conversion (R467, R485). -/
def Mach.noteReading (m : Mach) (s : Nat) (r : Int) : Mach :=
  let m := m.set (0x2220 + s) 3 r
  if m.power ≤ 2 then m.setN (0x2220 + s) 7 (m.readPeriod s r) else m

/-- A good reading of a VALID sensor, taken at a period (R468). -/
def Mach.takeReading (m : Mach) (s : Nat) (r : Int) (period : Nat) : Mach :=
  let x := m.sensor s
  let f := if x.seeded then filterStep (m.filtered s) r period else r
  let m := (m.set (0x2220 + s) 4 f).onSensor s (fun x => { x with
    seeded := true
    tripRun := if m.threshold s 5 ≤ r then x.tripRun + 1 else 0
    hist := (m.now, f) :: x.hist.filter (fun h => m.now ≤ h.1 + ms 100)
    highs := (m.now, f) :: x.highs.filter (fun h => m.now ≤ h.1 + sec 60 ∧ f < h.2)
    lows := (m.now, f) :: x.lows.filter (fun h => m.now ≤ h.1 + sec 60 ∧ h.2 < f) })
  (m.compareTwins s).judgeShutdown s f

/-- Whether sensor conversions are taken: all in P0 to P2, 23 to 27 by the AO island in P3 and P4, every 100 ms (R478). -/
def Mach.sensorRead (m : Mach) (s : Nat) : Bool :=
  s < 28 && (m.power ≤ 2 || (23 ≤ s && decide ((m.sensor s).lastAt + ms 100 ≤ m.now)))

/-- Whether a reading is out of range (R469). -/
def badReading (r : Int) : Bool := r < -640 || 2400 < r

/-- A conversion while firmware's loop does not run: the AO island watches a VALID sensor for the trip, and in P3 and P4 for a failure
(R469, R478). -/
def Mach.watchTrip (m : Mach) (s : Nat) (r : Int) (error : Bool) : Mach :=
  let bad : Bool := error || badReading r
  if m.sensorState s ≠ 0 then m
  else if bad ∧ 3 ≤ m.power then m.loseSensor s (if error then 3 else 1)
  else m.onSensor s (fun x => { x with tripRun := if !bad && decide (m.threshold s 5 ≤ r) then x.tripRun + 1 else 0 })

/-- A reading of a sensor that is not VALID: after a clear, or a start, 16 good ones in a row bring it back (R469). -/
def Mach.recoverSensor (m : Mach) (s : Nat) (r : Int) (error : Bool) (period : Nat) : Mach :=
  if !(m.sensor s).clearing then m
  else if error ∨ badReading r then m.onSensor s (fun x => { x with good := 0 })
  else
    let m := m.onSensor s (fun x => { x with good := x.good + 1 })
    if (m.sensor s).good < 16 then m
    else
      let m := ((m.setN (0x2220 + s) 5 0).setN (0x2220 + s) 6 0).onSensor s (fun x => { x with clearing := false, good := 0, releasing := false })
      m.takeReading s r period

/-- A conversion of a sensor gives a reading, or an error (R467 to R471, R476, R486). -/
def Mach.convert (m : Mach) (s : Nat) (r : Int) (error : Bool) : Mach :=
  let period := m.objN (0x2220 + s) 7
  let m := m.onSensor s (fun x => { x with lastAt := m.now })
  let m := if error then m else m.noteReading s r
  if !m.thermalLoop then m.watchTrip s r error
  else
    let m := if m.sensorState s ≠ 0 then m.recoverSensor s r error period
      else if error then m.failSensor s 3
      else if badReading r then m.failSensor s 1
      else m.takeReading s r period
    m.updateThrottle

/-- SENSOR_CONVERSION: a conversion of a sensor, in 1/16 °C before its offset, or an error of the front end. -/
def sensorConversion (s : Nat) (raw : Int) (error : Bool) (m : Mach) : Mach :=
  if !m.sensorRead s ∨ m.armedAt 14 s then m
  else
    let trip := (m.forced 25 s).isSome
    let m := if trip then { m with test := { m.test with timed := m.test.timed.map (fun t =>
        if t.1 = 25 ∧ t.2.1 = s then (25, s, t.2.2.1 - 1, if t.2.2.1 ≤ 1 then 0 else t.2.2.2) else t) } } else m
    let m := m.takeLimits s
    m.convert s (if trip then m.threshold s 5 else raw + m.setting 5 s 0) (error && !trip)

/-- SENSOR_MISSING: no conversion in 3 periods (R469); the AO island's are of 100 ms (R478). -/
def sensorMissing (s : Nat) (m : Mach) : Mach :=
  if 23 ≤ s ∧ s < 28 ∧ 3 ≤ m.power ∧ m.sensorState s = 0 ∧ (m.sensor s).lastAt + ms 300 ≤ m.now then
    (let m := m.loseSensor s 2; if m.armedAt 14 s then m.acted else m)
  else if 28 ≤ s ∨ !m.thermalLoop ∨ m.sensorState s ≠ 0 ∨ m.now < (m.sensor s).lastAt + us (3 * m.objN (0x2220 + s) 7) then m
  else (let m := m.failSensor s 2; if m.armedAt 14 s then m.acted else m).updateThrottle

/-- SENSOR_CLEAR (R469, R485). -/
def Mach.clearSensor (m : Mach) (s : Nat) : Except Nat Mach :=
  if m.sensorState s = 0 then .error abNothing else .ok (m.onSensor s (fun x => { x with clearing := true, good := 0 }))

/-- SENSOR_RELEASE (R470, R485). -/
def Mach.releaseSensor (m : Mach) (s : Nat) : Except Nat Mach :=
  if m.sensorState s = 1 ∧ m.sensorValid (sensorTwin s) then .ok (m.onSensor s (fun x => { x with releasing := true }))
  else .error abPrecondition

/-- The releases that waited take effect (R32, R470). -/
def Mach.finishReleases (m : Mach) : Mach :=
  each (upTo 28) m (fun m s =>
    if (m.sensor s).releasing ∧ m.sensorState s = 1 then
      ((m.setN (0x2220 + s) 5 2).onSensor s (fun x => { x with releasing := false })).raise 0x3003 s [(1, s), (1, sensorTwin s)]
    else m)

/-- A refresh band 5 of DRAM package `p` counts as a valid conversion of its sensor above the shutdown threshold, and not above that of the
trip (R268, R480); the reading itself is a free value. -/
def Mach.bandFive (m : Mach) (p : Nat) : Mach :=
  let s := 12 + p
  let m := m.takeLimits s
  let above := (Config.bandReading m.free).toNat
  let room := (m.threshold s 5 - m.threshold s 4 - 1).toNat
  m.draw.convert s (m.threshold s 4 + 1 + (above % max 1 room : Nat)) false

/-! ### Fans and the panel alarm (R474, R475) -/

/-- The fan duty of a margin in 1/16 °C (R474); 3.5 % per °C is 7/32 % per unit, the duty rounded up (DEDUCED, log entry 25). -/
def fanDuty (margin : Int) : Nat :=
  if 320 ≤ margin then 30 else if margin ≤ 0 then 100 else (100 - margin * 7 / 32).toNat

/-- FAN_TACH_FAULT: a fan below half its expected speed for 2 s; the others run at 100 % until the next start (R474). -/
def fanTachFault (fan speed : Nat) (m : Mach) : Mach :=
  let old := m.objN 0x2200 7
  if fan ≥ 4 ∨ old.testBit fan ∨ !m.thermalLoop then m
  else ((m.setN 0x2200 7 (old + 2 ^ fan)).setN 0x2200 4 100).raise 0x3008 fan [(1, fan), (2, speed)]

/-- Whether an injection of point 15 has a fan read 0 rpm for a time already: it does so for 3 s (R523). -/
def Mach.stoppedFor (m : Mach) (f time : Nat) : Bool :=
  m.test.timed.any (fun t => t.1 = 15 && t.2.1 = f && decide (m.now < t.2.2.2) && decide (t.2.2.2 + time ≤ m.now + sec 3))

/-- FAN_CONTROL: every 100 ms (R474); `speeds` are the tachometer readings in rpm. A fan
that an injection has had at 0 rpm for 2 s faults (R523). -/
def fanControl (speeds : List Nat) (m : Mach) : Mach :=
  if !m.thermalLoop ∨ m.now < m.thermal.fanAt + ms 100 then m
  else
    let m := m.onThermal (fun t => { t with fanAt := m.now })
    let m := m.setStr 0x2200 6 ((upTo 4).flatMap (fun f => beBytes 2 (if (m.forced 15 f).isSome then 0 else speeds.getD f 0)))
    let margins := ((upTo 28).filter m.hasValue).map (fun s => m.threshold s 1 - m.thermalValue s)
    let margin := margins.foldl min 32767
    let m := m.setN 0x2200 4 (if m.throttle ≥ 1 ∨ m.objN 0x2200 7 ≠ 0 then 100 else fanDuty margin)
    each (upTo 4) m (fun m f => if m.stoppedFor f (sec 2) then fanTachFault f 0 m else m)

/-- The panel alarm of a tile's reading (R475). -/
def Mach.panelAlarm (m : Mach) (p : Nat) (t : Int) : Mach :=
  let limit := m.obj 0x2200 8
  if limit ≤ t then
    if m.thermal.alarms.contains p then m
    else (m.onThermal (fun x => { x with alarms := p :: x.alarms })).raise 0x3009 p [(1, p % 32), (1, p / 32), (2, toUnsigned 16 t)]
  else if t ≤ limit - 48 then m.onThermal (fun x => { x with alarms := x.alarms.filter (· != p) })
  else m

/-! ### Starting with temperatures (R468, R481) -/

/-- The first valid reading after power-up or a wake seeds the filter: no value is carried from before (R468). -/
def Mach.forgetFilters (m : Mach) : Mach :=
  m.onThermal (fun t => { t with
    sensors := t.sensors.map (fun x => { x.alone with seeded := false, hist := [], highs := [], lows := [], tripRun := 0, lastAt := m.now })
    zones := t.zones.map (fun x => { x with belowAt := none }) })

/-- A start lets every sensor that is not VALID return once it gives 16 good readings (R469). -/
def Mach.clearFailed (m : Mach) : Mach :=
  each (upTo 28) m (fun m s => if m.sensorState s = 0 then m else m.onSensor s (fun x => { x with clearing := true, good := 0 }))

/-- After a thermal stop the first heat waits until every VALID sensor reads below its T1 entry threshold (R481). -/
def Mach.thermalHold (m : Mach) : Bool :=
  m.thermal.hold && (upTo 28).any (fun s => m.sensorValid s && (!(m.sensor s).seeded || m.threshold s 1 ≤ m.filtered s))

/-- Fettling and the like are suspended from throttle T1 or stage S1 on (R472, R510). -/
def Mach.calm (m : Mach) : Bool := m.throttle = 0 && m.stage = 0

end Sys2Proof.Machine
end

