-- ==== Sys2Proof/Machine/SelfTest.lean ====
section
/-! DEFINITION. Self-test, spares and the injection window (18): the march (R506), fettling (R510 to R512), failures and the repair map
(R513 to R516), commanded tests (R517 to R519), shakeout's end (R508), the ledger (R520 to R522), the window (R524). -/

namespace Sys2Proof.Machine

/-! ### Memory under test (R504 to R506) -/

/-- Regions of a rotation (R511). -/
def rotationRegions : Nat := 315392

/-- Instances of a memory class. -/
def classInstances (k : Nat) : Nat := [36, 68, 68, 96, 1, 24, 4].getD k 0

/-- Macros per instance of a memory class. -/
def classMacros (k : Nat) : Nat := [1, 24, 2, 4, 256, 1, 8].getD k 0

/-- A byte repeated into a running CRC. -/
def crcFill (b : Byte) : Nat → Nat → Nat
  | 0, r => r
  | n + 1, r => crcFill b n (crcByte 0x82F63B78 r b)

/-- The five reads that march C− makes of `len` bytes under both backgrounds, every one as it should be (R506). -/
def marchRegion (len r : Nat) : Nat :=
  let pass (b : Byte) (r : Nat) : Nat := [b, ~~~b, b, ~~~b, b].foldl (fun r x => crcFill x len r) r
  pass 0xAA (pass 0 r)

/-- The signature of `n` regions of `len` bytes without a miscompare (R506). -/
def marchSignature (len : Nat) : Nat → Nat → Nat
  | 0, r => r ^^^ 0xFFFFFFFF
  | n + 1, r => marchSignature len n (marchRegion len r)

/-! ### The repair map in flash (R514) -/

/-- The repair map goes to flash (R514). -/
def Mach.writeMap (m : Mach) : Mach := (m.onTest (fun t => { t with mapSeq := t.mapSeq + 1 })).flashWrite

/-! ### Failures (R513, R514) -/

/-- The row of a failing address (R505, R514). -/
def missRow (f : Miscompare) : Nat := if f.cls = 0 then f.addr / 2048 else f.addr / 64

/-- Whether the repair map holds the row of a failure. -/
def Mach.rowKnown (m : Mach) (f : Miscompare) : Bool :=
  m.test.repairs.any (fun r => r.cls = f.cls && r.inst = f.inst && r.macro_ = f.macro_ && r.row = missRow f)

/-- A miscompare: the failure log, the repair map and 0xD002, at most 10 per second (R513, R514). Source 0 shakeout, 1 fettling,
2 commanded test. -/
def Mach.selfFailure (m : Mach) (source : Nat) (injected : Bool) (f : Miscompare) : Mach :=
  let known := m.rowKnown f
  let full := !known && 4096 ≤ m.test.repairs.length
  let log := m.test.failures ++ [⟨m.timeWord, source, f.cls, f.inst, f.macro_, f.addr, f.bit_, injected⟩]
  let map := if known || full then m.test.repairs
    else m.test.repairs ++ [⟨f.cls, 0, source, injected, f.inst, f.macro_, missRow f, f.bit_⟩]
  let m := m.onTest (fun t => { t with failures := log.drop (log.length - 256), repairs := map })
  (m.setN 0x7C00 0x0D map.length).raiseRate 10 0xD002 0
    [(1, source), (1, f.cls), (2, f.inst), (2, f.macro_), (8, f.addr), (2, f.bit_), (1, 2 * bit full + bit injected)]

/-- A unit passes its take-over threshold (R521, R522): ledger class and instance. -/
def Mach.passThreshold (m : Mach) (k i : Nat) : Mach :=
  if m.test.passed.contains (k, i) then m
  else (m.onTest (fun t => { t with passed := t.passed ++ [(k, i)] })).raise 0xD009 i [(1, k), (2, i)]

/-- A failing memory of class 1, 2 or 5 takes its unit over its threshold (R516, R521). -/
def Mach.failUnit (m : Mach) (cls inst : Nat) : Mach :=
  if cls = 1 ∨ cls = 2 then (if m.objN (0x5320 + inst) 1 ≤ 1 then m.passThreshold 0 inst else m)
  else if cls = 5 then
    (if inst < 20 then (if m.objN (0x7120 + inst) 1 ≤ 1 then m.passThreshold 2 inst else m) else m.encodeFault (inst - 20) 1)
  else m

/-! ### Fettling (R510 to R512) -/

/-- Whether fettling runs (R510); core 3 schedules it (R29). -/
def Mach.fettles (m : Mach) (c : Ctx) : Bool :=
  m.coreUp 3 && decide (c.life = .field) && m.objB 0x7C00 1 && decide (m.power ≤ 1) && m.calm && decide (m.boot.step = 8) && decide (m.boot.shut = 0)

/-- 0x7C00:02: 0 OFF while not enabled, 1 RUNNING, 2 SUSPENDED (R510). -/
def Mach.fettlingState (m : Mach) (c : Ctx) : Nat := if !m.objB 0x7C00 1 then 0 else if m.fettles c then 1 else 2

/-- One slice: the region at the position is saved, marched and restored (R511); `found` are the miscompares as byte offset in the region
and bit. -/
def Mach.fettle (m : Mach) (c : Ctx) (found : List (Nat × Nat)) : Mach :=
  if !m.fettles c then m
  else
    let p := m.objN 0x7C00 4
    let (k, i, n) := macroPlace memCounts (p / 128)
    let m := if p = 0 ∧ m.test.last ≠ some 0 then m.setN 0x7C00 8 0 else m
    let m := m.onTest (fun t => { t with last := some p, sliceAt := m.now, sliceWord := m.timeWord, yields := if t.last = some p then t.yields else 0 })
    let m := (m.bump 0x7C00 6).setN 0x7C00 4 ((p + 1) % rotationRegions)
    let m := if p + 1 = rotationRegions then m.bump 0x7C00 5 else m
    let fail (injected : Bool) (m : Mach) (f : Nat × Nat) : Mach := m.selfFailure 1 injected ⟨k, i, n, p % 128 * 1024 + f.1, f.2⟩
    let m := each found m (fail false)
    let forced := m.armedAt 24 k
    let m := if forced then (fail true m (0, 0)).acted else m
    if found = [] ∧ !forced then m else (m.failUnit k i).writeMap

/-- FETTLING_SLICE_PERIOD: a slice every 16.667 ms of the time word while the schedule is STOPPED (R511). After a step back of the time word the next
slice runs at once (DESIGN CHOICE, log entry 109). -/
def slicePeriod (found : List (Nat × Nat)) (c : Ctx) (m : Mach) : Mach :=
  if m.scheduled ∨ (m.test.sliceWord ≤ m.timeWord ∧ m.timeWord < m.test.sliceWord + us 16667) then m else m.fettle c found

/-! ### Commanded tests (R517 to R519) -/

/-- Whether a commanded test runs. -/
def Mach.testRunning (m : Mach) : Bool := m.objN 0x7C01 6 = 1

/-- Whether a unit of a memory class is SPARE or UNUSABLE. -/
def Mach.unitFree (m : Mach) (cls inst : Nat) : Bool :=
  match cls with
  | 0 => m.objN (0x7010 + inst) 1 = 0 || m.objN (0x7010 + inst) 1 = 4
  | 5 => if inst < 20 then m.objN (0x7120 + inst) 1 = 0 || m.objN (0x7120 + inst) 1 = 3 else m.objN (0x7140 + (inst - 20)) 1 = 3
  | _ => m.objN (0x5320 + inst) 1 = 0 || m.objN (0x5320 + inst) 1 = 3

/-- Whether a test needs its unit free or the schedule STOPPED (R517). -/
def needsFree (kind cls : Nat) : Bool := kind != 0 || cls = 0 || cls = 1 || cls = 2 || cls = 5

/-- Whether the unit that a test needs is free. -/
def Mach.testUnitFree (m : Mach) (kind cls inst : Nat) : Bool :=
  if kind = 0 then m.unitFree cls inst else if kind = 1 then m.unitFree 1 inst else if kind = 2 then m.unitFree 5 inst else false

/-- Instances and macros of a kind's target, as the ranges of 0x7C01:03 and :04 (R517, R527). -/
def testInRange (kind cls inst macro_ : Nat) : Bool :=
  if kind = 0 then inst < classInstances cls && (cls = 0 || macro_ = 0xFFFF || macro_ < classMacros cls)
  else if kind = 1 then inst < 68 else if kind = 2 then inst < 20 else inst < 4

/-- Macros, or 64-byte accesses, that a march covers, and the bytes of one region of it. -/
def marchRegions (cls macro_ : Nat) : Nat × Nat :=
  if cls = 0 then (67108864, 64) else (128 * (if macro_ = 0xFFFF then classMacros cls else 1), 1152)

/-- Expected elements (R506, R517). -/
def testElements (kind cls macro_ : Nat) : Nat :=
  match kind with
  | 0 => (marchRegions cls macro_).1 * (if cls = 0 then 20 else 2560)
  | 1 => 2211840
  | 2 => 262144
  | _ => 64

/-- Expected signature (R506, R517). -/
def testSignature (kind cls macro_ : Nat) : Nat :=
  if kind = 0 then marchSignature (marchRegions cls macro_).2 (marchRegions cls macro_).1 0xFFFFFFFF else (Config.logicSignature kind).toNat

/-- The test ends with a result and the cause that cut it short (R518), with event 0xD007; a FAIL takes its unit over the threshold (R521). -/
def Mach.endTest (m : Mach) (result cause : Nat) : Mach :=
  let t := m.test.test
  let m := if result ≠ 2 then m
    else match t.kind with
      | 0 => m.failUnit t.cls t.inst
      | 1 => m.failUnit 1 t.inst
      | 2 => m.failUnit 5 t.inst
      | _ => m
  (m.sets 0x7C01 [(6, 2), (7, result), (8, cause)]).raise 0xD007 0 [(1, t.kind), (2, t.inst), (1, result), (1, cause)]

/-- Miscompares of a running march, as macro, byte address and bit: counted, logged and put in the map, which goes to flash (R513, R514). -/
def Mach.testFailures (m : Mach) (injected : Bool) (found : List (Nat × Nat × Nat)) : Mach :=
  let t := m.test.test
  if found = [] then m
  else
    let m := each found m (fun m f => m.selfFailure 2 injected ⟨t.cls, t.inst, if t.cls = 0 then 0xFFFF else f.1, f.2.1, f.2.2⟩)
    (m.bump 0x7C01 0x0D found.length).writeMap

/-- An injection that waits at the compare of a running march meets its next element (R523): which one that is, is free. -/
def Mach.testStruck (m : Mach) : Mach :=
  let t := m.test.test
  if !m.testRunning ∨ t.kind ≠ 0 ∨ !m.armedAt 24 t.cls then m
  else
    let x := (Config.testElements m.free).toNat % (marchRegions t.cls t.macro_).1
    let place := if t.cls = 0 then (0xFFFF, 64 * x, 0) else (if t.macro_ = 0xFFFF then x / 128 else t.macro_, 1024 * (x % 128), 0)
    (m.draw.testFailures true [place]).acted

/-- The test is cut short (R518): elements done and signature are free values. -/
def Mach.cutTest (m : Mach) (cause : Nat) : Mach :=
  if !m.testRunning then m
  else
    let m := m.sets 0x7C01 [(9, ((Config.testElements m.free).toNat % (m.objN 0x7C01 0x0A + 1) : Nat)), (0x0B, ((Config.testSignature m.free).toNat : Nat))]
    m.draw.endTest (if m.objN 0x7C01 0x0D = 0 then 3 else 2) cause

/-- Stage, throttle and power state cut a test (R518). -/
def Mach.testConditions (m : Mach) : Mach := if m.power > 1 then m.cutTest 4 else if m.calm then m else m.cutTest 3

/-- TEST_START (R517): where stage or throttle already cut a test, it ends at once (R518). -/
def Mach.startTest (m : Mach) (c : Ctx) : Except Nat Mach :=
  let kind := m.objN 0x7C01 1
  let cls := m.objN 0x7C01 2
  let inst := m.objN 0x7C01 3
  let mac := m.objN 0x7C01 4
  if c.life ≠ .factory ∧ c.life ≠ .service then .error abLife
  else if m.power > 1 then .error abPower
  else if m.testRunning then .error abPrecondition
  else if !testInRange kind cls inst mac then .error abAbove
  else if needsFree kind cls ∧ !m.testUnitFree kind cls inst ∧ m.scheduled then .error abPrecondition
  else
    let m := m.onTest (fun t => { t with
      test := { kind := kind, cls := cls, inst := inst, macro_ := mac, wasFree := m.testUnitFree kind cls inst } })
    let m := m.sets 0x7C01 [(6, 1), (7, 0), (8, 0), (9, 0), (0x0A, testElements kind cls mac), (0x0B, 0), (0x0C, testSignature kind cls mac),
      (0x0D, 0)]
    .ok m.testConditions.testStruck

/-- TEST_ABORT (R519). -/
def Mach.abortTest (m : Mach) : Except Nat Mach := if m.testRunning then .ok (m.cutTest 1) else .error abNothing

/-- TEST_END: the test engine has come to `elements`; `found` are the miscompares since its last report, as macro, byte address and bit. A march that reports
some before its last element goes on (R513, R514; log entry 42); otherwise the test ends (R518). -/
def testEnd (elements signature : Nat) (found : List (Nat × Nat × Nat)) (m : Mach) : Mach :=
  if !m.testRunning then m
  else
    let found := if m.test.test.kind = 0 then found else []
    let m := m.testFailures false found
    let done := min elements (m.objN 0x7C01 0x0A)
    let m := m.setN 0x7C01 9 done
    let all : Bool := decide (done = m.objN 0x7C01 0x0A)
    if !all ∧ found ≠ [] then m
    else
      let m := m.setN 0x7C01 0x0B (signature % 2 ^ 32 : Nat)
      m.endTest (if m.objN 0x7C01 0x0D ≠ 0 then 2 else if !all then 3 else if signature % 2 ^ 32 = m.objN 0x7C01 0x0C then 1 else 2) 0

/-- FETTLING_YIELD: a normal request stops a slice, or the march of a commanded test on one of its regions (R512, R518). -/
def fettlingYield (test : Bool) (region : Nat) (m : Mach) : Mach :=
  if test then
    if !m.testRunning ∨ m.test.test.kind ≠ 0 ∨ needsFree 0 m.test.test.cls then m
    else
      let t := m.test.test
      let n := if t.region = region then t.yields + 1 else 1
      let m := m.onTest (fun x => { x with test := { x.test with yields := n, region := region } })
      let m := m.bump 0x7C00 7
      if n < 8 then m else m.cutTest 2
  else match m.test.last with
    | none => m
    | some p =>
      if m.test.sliceAt + us 20 < m.now ∨ m.objN 0x7C00 4 ≠ (p + 1) % rotationRegions then m
      else
        let n := m.test.yields + 1
        let m := (m.bump 0x7C00 7).onTest (fun t => { t with yields := n })
        if n < 8 then
          let m := m.setN 0x7C00 4 p
          if p + 1 = rotationRegions then m.setN 0x7C00 5 (m.objN 0x7C00 5 - 1) else m
        else
          let (k, i, x) := macroPlace memCounts (p / 128)
          ((m.bump 0x7C00 8).onTest (fun t => { t with yields := 0, last := none })).raise 0xD003 0 [(1, k), (2, i), (2, x), (1, p % 128)]

/-- A test whose unit is taken into use ends (R518): its unit came into use, or heats run on it. -/
def Mach.testTaken (m : Mach) : Mach :=
  let t := m.test.test
  if m.testRunning ∧ needsFree t.kind t.cls ∧ (m.scheduled ∨ t.wasFree) ∧ !m.testUnitFree t.kind t.cls t.inst then m.cutTest 5 else m

/-! ### Shakeout (R508) -/

/-- The step of a shakeout in which a place is tested (R508): the test save area (R257), the SPARE channels, the IN_USE ones, then classes 1 to 6. -/
def Mach.shakeoutStep (m : Mach) (f : Miscompare) : Nat :=
  if f.cls ≠ 0 then 2 + f.cls
  else if (m.backs f.inst).isSome ∧ offsetOf testSaveBase ≤ f.addr ∧ f.addr < offsetOf 0x3F0000000 then 0
  else if m.objN (0x7010 + f.inst) 1 = 0 then 1 else 2

/-- The first place of a class that a shakeout tests (R508). -/
def Mach.shakeoutFirst (m : Mach) (k : Nat) : Miscompare :=
  if k = 0 then ⟨0, (m.physical testSaveBase).1, 0xFFFF, (m.physical testSaveBase).2, 0⟩ else ⟨k, 0, 0, 0, 0⟩

/-- What a shakeout finds, in the order of its steps: UNUSABLE channels are not tested (R508), and an injection at the compare of a class meets the first
place that is tested of it (R523). The flag says injected. -/
def Mach.shakeoutFinds (m : Mach) (found : List Miscompare) : List (Bool × Miscompare) :=
  let tested := found.filter (fun f => f.cls != 0 || m.objN (0x7010 + f.inst) 1 != 4)
  let forced := ((upTo 7).filter (fun k => m.armedAt 24 k)).map (fun k => (true, m.shakeoutFirst k))
  sortBy (fun a b => m.shakeoutStep a.2 ≤ m.shakeoutStep b.2) (forced ++ tested.map (fun f => (false, f)))

/-- Shakeout's end: its failures, the repair map in flash, and 0xD004 (R508). -/
def Mach.endShakeout (m : Mach) (found : List Miscompare) : Mach :=
  let finds := m.shakeoutFinds found
  let m := (each finds m (fun m x => let m := m.selfFailure 0 x.1 x.2; if x.1 then m.acted else m)).writeMap
  let result : Nat := if finds = [] then 1 else 2
  let duration := (m.now - m.test.shakeoutAt) / ms 1
  let m := m.sets 0x7C00 [(0x0A, (result : Nat)), (0x0B, (m.timeWord : Nat)), (0x0C, (duration : Nat))]
  m.raise 0xD004 0 [(1, result), (4, duration), (2, min finds.length 65535)]

/-! ### The repair map at start (R515, R516) -/

/-- The row entry after the start's repair: a free repair row of the macro, or the bank's one repair, is taken (R505, R515). -/
def repairRow (before : List RepairRow) (r : RepairRow) : RepairRow :=
  if r.state ≠ 0 ∨ r.injected then r
  else
    let mine (x : RepairRow) : Bool := x.state = 1 && x.cls = r.cls && x.inst = r.inst && x.macro_ = r.macro_ &&
      (r.cls != 0 || (rankOf (x.row * 2048) = rankOf (r.row * 2048) && bankOf (x.row * 2048) = bankOf (r.row * 2048)))
    { r with state := if (before.filter mine).length < (if r.cls = 0 then 1 else 8) then 1 else 2 }

/-- The map after every PENDING entry of some classes: those already REPAIRED are applied first. -/
def repairAll (mine : Nat → Bool) : List RepairRow → List RepairRow → List RepairRow
  | done, [] => done
  | done, r :: rest => repairAll mine (done ++ [if mine r.cls then repairRow (done ++ rest) r else r]) rest

/-- The effect of an UNREPAIRABLE entry (R516). A channel passes its threshold (R521, R522): one in use is taken over, a spare one becomes UNUSABLE
when the ledger is built (R32). -/
def Mach.unrepairable (m : Mach) (r : RepairRow) : Mach :=
  match r.cls with
  | 0 => if m.objN (0x7010 + r.inst) 1 = 4 then m else m.passChannel r.inst
  | 1 => m.failUnit 1 r.inst
  | 2 => m.failUnit 2 r.inst
  | 5 => m.failUnit 5 r.inst
  | _ => m.raise 0xD006 r.inst [(1, r.cls), (2, r.inst), (2, r.macro_)]

/-- The entries of some classes are applied at start, before the first use of their memories (R515, R516). -/
def Mach.applyRepairs (m : Mach) (mine : Nat → Bool) : Mach :=
  let map := repairAll mine [] m.test.repairs
  each (map.filter (fun r => r.state = 2 && !r.injected && mine r.cls)) (m.onTest (fun t => { t with repairs := map })) Mach.unrepairable

/-- Event 0xD005 once the map has been applied (R515). -/
def Mach.tellRepairs (m : Mach) : Mach :=
  let count (s : Nat) : Nat := (m.test.repairs.filter (fun r => r.state = s && !r.injected)).length
  m.raise 0xD005 0 [(2, count 1), (2, count 2)]

/-! ### The ledger (R520 to R522) -/

/-- Spare units left of a ledger class with spares. -/
def Mach.sparesOf (m : Mach) (k : Nat) : Nat :=
  match k with
  | 0 => m.clusterCount 0
  | 1 => ((upTo 36).filter (fun p => m.objN (0x7010 + p) 1 = 0)).length
  | 2 => m.decodeCount 0
  | 4 => ((upTo 7).filter (fun p => m.objN (0x2021 + p) 1 = 0)).length
  | 6 => 512 - m.test.flashRetired
  | 7 => 16 - m.test.mramRetired
  | _ => 1

/-- Units that passed a threshold leave use: IN_USE ones as FAULTED, SPARE ones as UNUSABLE (R32, R521). -/
def Mach.dropPassed (m : Mach) : Mach :=
  let out (ix : Nat) (m : Mach) : Mach := match m.objN ix 1 with
    | 0 => m.setN ix 1 3
    | 1 => m.setN ix 1 2
    | _ => m
  let m := each m.test.passed m (fun m p => match p.1 with
    | 0 => (out (0x5320 + p.2) m).onCluster p.2 (fun _ => { stopped := true })
    | 2 => out (0x7120 + p.2) m
    | _ => m)
  m.onTest (fun t => { t with passed := [] })

/-- Channels that failed their training twice become UNUSABLE (R32, R279), and sectors that failed are retired, with a spare mapped where a write that
failed is tried again (R521); without one the journal keeps 16 records fewer (R73). -/
def Mach.retireFailed (m : Mach) : Mach :=
  let m := each m.dram.failed m (fun m p => (m.setN (0x7010 + p) 1 4))
  let m := { m with dram := { m.dram with failed := [] } }
  let m := (m.bump 0x7E06 7 m.test.flashFailed).bump 0x7E07 7 m.test.mramFailed
  let m := m.onTest (fun t => { t with
    flashRetired := t.flashRetired + t.flashFailed, flashFailed := 0, mramRetired := t.mramRetired + t.mramFailed, mramFailed := 0 })
  let m : Mach := { m with jrn := { m.jrn with recs := m.jrn.recs.take m.journalCapacity } }
  each (upTo m.test.flashRetry) (m.onTest (fun t => { t with flashRetry := 0 })) (fun m _ => m.flashWrite)

/-- Faulted decode and encode engines become UNUSABLE, and spare decode engines come into use (R226, R227). -/
def Mach.engineTakeOver (m : Mach) : Mach :=
  let faulted := (upTo 20).filter (fun e => m.objN (0x7120 + e) 1 = 2)
  let m := each faulted m (fun m e =>
    let m := m.setN (0x7120 + e) 1 3
    match (upTo 20).find? (fun s => m.objN (0x7120 + s) 1 = 0) with
    | some s => (m.setN (0x7120 + s) 1 1).raise 0xB003 e [(1, s), (1, e)]
    | none => m)
  let m := if faulted ≠ [] ∧ m.decodeCount 1 < 16 then m.raise 0xB004 0 [(1, m.decodeCount 1)] else m
  each (upTo 4) m (fun m i => if m.objN (0x7140 + i) 1 = 2 then m.setN (0x7140 + i) 1 3 else m)

/-- Units of a run of objects whose state is a given one. -/
def Mach.unitsIn (m : Mach) (ix n st : Nat) : Nat := ((upTo n).filter (fun i => m.objN (ix + i) 1 = st)).length

/-- The sum of a counter over units. -/
def Mach.sumOf (m : Mach) (ix n sub : Nat) : Nat := ((upTo n).map (fun i => m.objN (ix + i) sub)).sum

/-- Entries of the repair map in a state; those of SRAM for the rows of the ledger's class 3. -/
def Mach.rowsIn (m : Mach) (st : Nat) : Nat := (m.test.repairs.filter (fun r => r.state = st && r.cls != 0)).length

/-- Units in use, spare and retired and the wear of a ledger class (R520). -/
def Mach.ledgerRow (m : Mach) (k : Nat) : Nat × Nat × Nat × Nat :=
  let units (ix n wear : Nat) : Nat × Nat × Nat × Nat := (m.unitsIn ix n 1, m.unitsIn ix n 0, m.unitsIn ix n 3, m.sumOf ix n wear)
  match k with
  | 0 => units 0x5320 68 3
  | 1 => (m.unitsIn 0x7010 36 1, m.unitsIn 0x7010 36 0, m.unitsIn 0x7010 36 4, m.sumOf 0x7010 36 4)
  | 2 => units 0x7120 20 2
  | 3 => (m.rowsIn 1, 19712 - m.rowsIn 1, m.rowsIn 2, m.objN 0x7C00 5)
  | 4 => units 0x2021 7 3
  | 5 =>
    let bad := ((upTo 28).filter (fun s => !m.sensorValid s)).length
    (28 - bad, 0, bad, m.thermal.failures)
  | 6 => (min 32256 (32768 - m.test.flashRetired), 512 - m.test.flashRetired, m.test.flashRetired, (m.test.erases.map Prod.snd).foldl max 0)
  | 7 => (min 1008 (1024 - m.test.mramRetired), 16 - m.test.mramRetired, m.test.mramRetired, m.highestWrites)
  | _ => (m.unitsIn 0x6110 96 3, m.unitsIn 0x6110 96 2, m.unitsIn 0x6110 96 4 + m.unitsIn 0x6110 96 0, m.sumOf 0x6110 96 6)

/-- The ledger is updated: its rows stand until the next update (R520). -/
def Mach.keepLedger (m : Mach) : Mach := m.onTest (fun t => { t with ledger := (upTo 9).map m.ledgerRow })

/-- Classes with spares. -/
def spareClasses : List Nat := [0, 1, 2, 4, 6, 7]

/-- 0xD00C once for every class left with no spare (R522). -/
def Mach.tellEmpty (m : Mach) : Mach :=
  each spareClasses m (fun m k =>
    if m.sparesOf k = 0 ∧ !m.test.toldEmpty.contains k then
      (m.onTest (fun t => { t with toldEmpty := k :: t.toldEmpty })).raise 0xD00C k [(1, k)]
    else m)

/-- The part of a ledger update that concerns clusters, engines and sensors (R32, R33, R168, R226, R227, R470, R520). -/
def Mach.updateUnits (m : Mach) : Mach :=
  let m := m.verifyJournal.dropPassed.retireFailed
  let clusters := m.sparesOf 0
  let engines := m.sparesOf 2
  let m := m.clusterTakeOver.engineTakeOver.finishReleases
  let m := m.bump 0x7E00 7 (clusters - m.sparesOf 0)
  let m := m.bump 0x7E02 7 (engines - m.sparesOf 2)
  let few := decide (m.clusterCount 1 < 60)
  let m := { m with pipe := { m.pipe with fewClusters := few } }
  m.testTaken

/-! ### The injection window (R524) -/

/-- The open value: the window opens, or its 60 s begin again. -/
def Mach.openWindow (m : Mach) (session : Nat) : Mach :=
  let was := m.objB 0x7F00 2
  let m := (m.onTest (fun t => { t with openedAt := m.now })).setN 0x7F00 2 1
  if was then m else m.raise 0xD00A 0 [(1, 1), (4, session)]

/-- Armed and periodic injections are disarmed, those of the lanes included (R307, R524). -/
def Mach.disarm (m : Mach) : Mach :=
  let m := (m.onTest (fun t => { t with armed := none })).setN 0x7F01 6 0
  { m with lanes := m.lanes.map (fun (x : Lane) => { x with armed := 0, flip := false, badHeaders := 0, badTx := false }) }

/-- The window closes (R524). -/
def Mach.closeWindow (m : Mach) (session : Nat) : Mach :=
  if !m.objB 0x7F00 2 then m else (m.setN 0x7F00 2 0).disarm.raise 0xD00A 0 [(1, 0), (4, session)]

/-- WINDOW_EXPIRY: 60 s after the latest open write. -/
def windowExpiry (m : Mach) : Mach := if m.test.openedAt + sec 60 ≤ m.now then m.closeWindow 0 else m

end Sys2Proof.Machine
end

