-- ==== Sys2Proof/Machine/Draw.lean ====
section
/-! DEFINITION. The drawing engine (08): elements in the chosen order (R240 to R243), start, end and abort (R244 to R250). -/

namespace Sys2Proof.Machine

/-- The registers of channel 0 as an operation (R252, R254). -/
def Mach.drawRegisters (m : Mach) : DrawOp :=
  let c := m.objN 0x5800 1
  { op := field c 1 0, size := [1, 2, 4, 6, 8].getD (field c 10 8) 0, dirX := bitAt c 4, dirY := bitAt c 5, clear := bitAt c 11,
    src := m.objN 0x5800 2, spitch := m.objN 0x5800 3, dst := m.objN 0x5800 4, dpitch := m.objN 0x5800 5, w := m.objN 0x5800 6,
    h := m.objN 0x5800 7, fg := m.objN 0x5800 8, bg := m.objN 0x5800 9, boff := m.objN 0x5800 0x0A }

/-- The operation that a channel latched at its start (R244). -/
def Mach.drawOp (m : Mach) (ch : Nat) : DrawOp := (m.outs.drawing.getD ch {}).op

end Sys2Proof.Machine

namespace Sys2Proof

open Sys2Proof.Machine

/-- The elements, as row and column, in the chosen order (R240). -/
def DrawOp.order (o : DrawOp) : List (Nat × Nat) :=
  (upTo o.h).flatMap (fun k => (upTo o.w).map (fun j => (if o.dirY then o.h - 1 - k else k, if o.dirX then o.w - 1 - j else j)))

/-- Address of an element's destination. -/
def DrawOp.dstAt (o : DrawOp) (e : Nat × Nat) : Nat := o.dst + e.1 * o.dpitch + e.2 * o.size

/-- What an element reads: address and length; nothing for FILL (R240, R241). -/
def DrawOp.srcAt (o : DrawOp) (e : Nat × Nat) : Nat × Nat :=
  if o.op = 0 then (o.src + e.1 * o.spitch + e.2 * o.size, o.size)
  else if o.op = 2 then (o.src + e.1 * o.spitch + (o.boff + e.2) / 8, 1)
  else (0, 0)

/-- What an element writes, from the memory before it (R240, R241). -/
def DrawOp.element (o : DrawOp) (mem : Mem) (e : Nat × Nat) : List MemWrite :=
  let d := o.dstAt e
  let s := o.srcAt e
  if o.op = 0 then [⟨d, memLoad mem s.1 s.2⟩]
  else if o.op = 1 then [⟨d, leBytes o.size o.fg⟩]
  else if (memRead mem s.1).toNat.testBit (7 - (o.boff + e.2) % 8) then [⟨d, leBytes o.size o.fg⟩]
  else if o.clear then []
  else [⟨d, leBytes o.size o.bg⟩]

/-- The writes of a run of elements: each is read whole and written whole before the next is read (R240). -/
def DrawOp.run (o : DrawOp) : Mem → List (Nat × Nat) → List MemWrite
  | _, [] => []
  | mem, e :: rest =>
    let w := o.element mem e
    w ++ o.run (memApply mem w) rest

/-- Whether two runs of bytes intersect. -/
def meets (a n b k : Nat) : Bool := a < b + k && b < a + n

/-- OVERLAP_HAZARD (R243): the destination of an element meets what a later one reads. -/
def DrawOp.hazard (o : DrawOp) : List (Nat × Nat) → Bool
  | [] => false
  | e :: rest => rest.any (fun f => meets (o.dstAt e) o.size (o.srcAt f).1 (o.srcAt f).2) || o.hazard rest

end Sys2Proof

namespace Sys2Proof.Machine

/-- The regions that a channel may read and write (R239, R257). -/
def Mach.drawRegions (m : Mach) (ch : Nat) : List (Nat × Nat) :=
  if ch = 0 then ((upTo 4).map (fun g => (m.objN 0x5400 (3 + g), 12441600))) ++ [(jobBase, jobRegion)] else [(0x249000000, 0x1000000)]

/-- Whether `n` bytes from an address on lie in one region. -/
def Mach.drawable (m : Mach) (ch a n : Nat) : Bool := (m.drawRegions ch).any (fun r => r.1 ≤ a && a + n ≤ r.1 + r.2)

/-- Why a start aborts, beside a running channel (R244). -/
def Mach.drawRefused (m : Mach) (ch : Nat) (o : DrawOp) : Option Nat :=
  let line := o.w * o.size
  let glyph := (o.boff + o.w + 7) / 8
  let bytes (pitch last : Nat) : Nat := (o.h - 1) * pitch + last
  if o.op = 3 ∨ o.size = 0 then some abValue
  else if o.dpitch < line ∨ (o.op = 0 ∧ o.spitch < line) ∨ (o.op = 2 ∧ o.spitch < glyph) then some abInconsistent
  else if !m.drawable ch o.dst (bytes o.dpitch line) ∨ (o.op = 0 ∧ !m.drawable ch o.src (bytes o.spitch line)) ∨
      (o.op = 2 ∧ !m.drawable ch o.src (bytes o.spitch glyph)) then some abInconsistent
  else none

/-- State of a channel (R245, R253, R254). -/
def Mach.drawState (m : Mach) (ch : Nat) : Nat := if ch = 0 then m.objN 0x5800 0x0C % 16 else m.objN 0x5801 1

/-- A channel enters a state with an error; channel 0 keeps OVERLAP_HAZARD (R253). -/
def Mach.drawEnter (m : Mach) (ch st error : Nat) : Mach :=
  if ch = 0 then m.setN 0x5800 0x0C (error * 65536 + field (m.objN 0x5800 0x0C) 8 8 * 256 + st) else m.setN 0x5801 1 st

/-- A start that passed its checks: the operation is latched and the channel is RUNNING (R243, R244). -/
def Mach.runDraw (m : Mach) (ch : Nat) (o : DrawOp) : Mach :=
  let m := { m with outs := { m.outs with drawing := setAt m.outs.drawing ch ⟨o, m.now⟩ } }
  if ch = 0 then (m.setN 0x5800 0x0C (256 * bit (o.op != 1 && o.hazard o.order) + 1)).setN 0x5800 0x0D 0 else m.drawEnter ch 1 0

/-- DRAW_START by host software (R244). -/
def Mach.startDraw (m : Mach) : Except Nat Mach :=
  if m.drawState 0 = 1 then .error abPrecondition
  else match m.drawRefused 0 m.drawRegisters with
    | some a => .error a
    | none => .ok (m.runDraw 0 m.drawRegisters)

/-- DRAW_START by firmware on channel 1, under the same conditions, from P0 to P2 (R239, R250). -/
def firmwareDraw (o : DrawOp) (m : Mach) : Mach :=
  if 2 < m.power ∨ m.drawState 1 = 1 ∨ (m.drawRefused 1 o).isSome then m else m.runDraw 1 o

/-- Firmware's next start on channel 1, if it has one. -/
def startNextOn (m : Mach) (next : Option DrawOp) : Mach :=
  match next with
  | some o => firmwareDraw o m
  | none => m

/-- Whether an element meets poison: where it reads, or where it writes a part of an access (R249, R272; log entry 86). -/
def Mach.elementPoisoned (m : Mach) (mem : Mem) (o : DrawOp) (e : Nat × Nat) : Bool :=
  m.anyPoison && (m.poisonedAt (o.srcAt e).1 (o.srcAt e).2 || (o.element mem e).any (fun w => m.poisonedAt w.addr w.data.length))

/-- The first `done` elements of a channel's operation are processed (R247). An element that meets poison stops them: what is done by then,
and whether all went well (R249). -/
def Mach.drawElements (m : Mach) (c : Ctx) (ch done : Nat) : Eff × Nat × Bool :=
  let o := m.drawOp ch
  let es := o.order.take done
  let m := m.strike (sourceBase 7 + ch) ((es.takeWhile (fun e => !m.elementPoisoned c.mem o e)).map o.srcAt)
  let good := es.takeWhile (fun e => !m.elementPoisoned c.mem o e)
  let m := m.reads (sourceBase 7 + ch) (good.map o.srcAt)
  let m := if ch = 0 then m.setN 0x5800 0x0D good.length else m.touchSlate
  (m.storeAll (o.run c.mem good), good.length, decide (good.length = es.length))

/-- A channel's operation fails after `done` elements (R249), with event 0xB010 (R255). -/
def Mach.failDraw (m : Mach) (ch error done : Nat) : Mach :=
  (m.drawEnter ch 4 error).raise 0xB010 ch [(1, ch), (1, error), (4, done), (8, (m.drawOp ch).dst)]

/-- The operation of a RUNNING channel is cut off after `done` elements, or before the first that meets poison: ABORTED (R247, R250). -/
def Mach.stopDraw (m : Mach) (c : Ctx) (ch done : Nat) : Eff := (m.drawElements c ch done).1.on (fun m => m.drawEnter ch 3 0)

/-- DRAW_COMPLETE: a RUNNING channel has done all its elements (R245, R246), but for one that meets poison (R249). Firmware, which alone runs
channel 1 (R239), may start `next` on it as soon as an operation there is COMPLETE (R245). -/
def drawComplete (ch : Nat) (next : Option DrawOp) (c : Ctx) (m : Mach) : Eff :=
  if 2 ≤ ch ∨ m.drawState ch ≠ 1 then .of m
  else
    let o := m.drawOp ch
    let (e, n, good) := m.drawElements c ch (o.w * o.h)
    e.on (fun m => if !good then m.failDraw ch 1 n else if ch = 0 then (m.drawEnter 0 2 0).bump 0x5800 0x0E else startNextOn (m.drawEnter ch 2 0) next)

/-- DRAW_ABORT (R247): the operation stops after `done` elements. -/
def Mach.abortDraw (m : Mach) (c : Ctx) (done : Nat) : Except Nat Eff :=
  if m.drawState 0 ≠ 1 then .error abNothing else .ok (m.stopDraw c 0 done)

/-- DRAW_HANG: no element of a RUNNING channel completed within 100 µs, after the first `done` (R249); the first 100 µs run from the start. -/
def drawHang (ch done : Nat) (c : Ctx) (m : Mach) : Eff :=
  if 2 ≤ ch ∨ m.drawState ch ≠ 1 ∨ m.now < (m.outs.drawing.getD ch {}).since + us 100 then .of m
  else
    let (e, n, good) := m.drawElements c ch done
    e.on (fun m => m.failDraw ch (if good then 2 else 1) n)

/-- An uncorrectable memory error stops a RUNNING channel after `done` elements (R249, R273). -/
def Mach.poisonDraw (m : Mach) (c : Ctx) (ch done : Nat) : Eff :=
  if 2 ≤ ch ∨ m.drawState ch ≠ 1 then .of m
  else
    let (e, n, _) := m.drawElements c ch done
    e.on (fun m => m.failDraw ch 1 n)

/-- How far a power state lets channel 0 get: a free value (R250). -/
def Mach.drawReach (m : Mach) : Nat := (Config.drawDone m.free).toNat % ((m.drawOp 0).w * (m.drawOp 0).h + 1)

/-- On leaving P0 and P1 a RUNNING operation of channel 0 becomes ABORTED (R250): how far it got is a free value. -/
def Mach.cutDraw (m : Mach) (c : Ctx) : Eff := if m.drawState 0 ≠ 1 then .of m else m.draw.stopDraw c 0 m.drawReach

/-- Without memory nothing is drawn any more: a RUNNING channel 0 becomes ABORTED (R250), and channel 1 too (DESIGN CHOICE, log entry 86). -/
def Mach.haltDraw (m : Mach) : Mach :=
  let m := if m.drawState 1 = 1 then m.drawEnter 1 3 0 else m
  if m.drawState 0 ≠ 1 then m else (m.draw.setN 0x5800 0x0D m.drawReach).drawEnter 0 3 0

end Sys2Proof.Machine
end

