-- ==== Sys2Proof/Machine/Net.lean ====
section
/-! DEFINITION. Network ports and traffic control (13): frames received and their paths (R384, R385, R390), meters (R392 to R394), egress
classes, shapers and gates (R396 to R402), descriptor rings (R386 to R389), links (R382, R403, R407); and how a scene packet reaches its
slot (R112, R116, R117, R119). -/

namespace Sys2Proof.Machine

/-! ### Ports -/

/-- A port. -/
def Mach.port (m : Mach) (p : Nat) : Port := m.net.ports.getD p {}

/-- Changes a port. -/
def Mach.onPort (m : Mach) (p : Nat) (f : Port → Port) : Mach := { m with net := { m.net with ports := modAt m.net.ports p f } }

/-- Changes a slot's meter. -/
def Mach.onMeter (m : Mach) (slot : Nat) (f : Meter → Meter) : Mach :=
  { m with net := { m.net with meters := modAt m.net.meters slot f } }

/-- Whether the link of a port is up. -/
def Mach.linkUp (m : Mach) (p : Nat) : Bool := m.objN (0x4010 + p) 2 = 1

/-- Largest frame of a port, FCS included (R382). -/
def largestFrame (p : Nat) : Nat := if p = 4 then 1522 else 9216

/-- Time that a number of bytes takes on a port's line, in 2⁻¹⁶ ns (R400). -/
def lineTime (p n : Nat) : Nat := if p = 4 then n * 8 * 65536 else (n * 8 * 65536 + 199) / 200

/-- The instants of the last second. -/
def lastSecond (now : Nat) (l : List Nat) : List Nat := l.filter (fun t => now < t + sec 1)

/-! ### Gates (R399 to R402) -/

/-- The step of a restart under way (R78): 1 up to T1, 2 up to T2, 3 up to F0; 0 for none. -/
def Mach.restartPhase (m : Mach) : Nat := (m.pipe.restart.map Restart.phase).getD 0

/-- Whether the schedule is STARTING or RUNNING, or RESTARTING up to T1 (R430). -/
def Mach.ticking (m : Mach) : Bool :=
  m.schedState = 1 || m.schedState = 2 || (m.schedState = 3 && m.restartPhase = 1)

/-- Whether every gate of a list in mode FRAME is open: without a schedule, or from a step of the time word to the next frame tick (R399,
R402). -/
def Mach.noFrames (m : Mach) : Bool :=
  !m.scheduled || (m.schedState = 3 && m.restartPhase = 3 && (m.pipe.restart.map Restart.reason) = some 1)

/-- The entries that a frame of a length reaches, the last one holding until the tick (R399). -/
def cutEntries (period : Nat) : List (Nat × Nat) → List (Nat × Nat)
  | [] => []
  | [e] => [(e.1, period)]
  | e :: rest => if period ≤ ns e.2 then [(e.1, period)] else (e.1, ns e.2) :: cutEntries (period - ns e.2) rest

/-- A list's cycle as gate states with their lengths in 2⁻¹⁶ ns; from T2 of a restart on the last entry holds until F0 (R399). -/
def Mach.gateCycle (m : Mach) (g : GateList) : List (Nat × Nat) :=
  if g.mode = 0 then g.entries.map (fun e => (e.1, ns e.2))
  else cutEntries (if m.restartPhase = 3 then sec 1000 else m.tickAt (m.frameNo + 1) - m.tickAt m.frameNo) g.entries

/-- Length of a cycle. -/
def cycleLength (l : List (Nat × Nat)) : Nat := (l.map Prod.snd).sum

/-- What is left of a cycle after an elapsed time in it. -/
def cycleFrom : List (Nat × Nat) → Nat → List (Nat × Nat)
  | [], _ => []
  | e :: rest, t => if t < e.2 then (e.1, e.2 - t) :: rest else cycleFrom rest (t - e.2)

/-- How long a class's gate stays open from the start of a run of entries on. -/
def openFor (cls : Nat) : List (Nat × Nat) → Nat
  | [] => 0
  | e :: rest => if bitAt e.1 cls then e.2 + openFor cls rest else 0

/-- The longest time that a class's gate stays open in a run of entries. -/
def longestOpen (cls : Nat) : List (Nat × Nat) → Nat
  | [] => 0
  | e :: rest => max (openFor cls (e :: rest)) (longestOpen cls rest)

/-- Whether every gate of a port is open: no list enabled, or a FRAME list without frame ticks (R399, R402). -/
def Mach.gatesOpen (m : Mach) (p : Nat) : Bool :=
  !m.objB (0x4220 + p) 1 || ((m.port p).list.mode = 1 && m.noFrames)

/-- Where a list stands in its cycle. -/
def Mach.gateElapsed (m : Mach) (g : GateList) (cycle : Nat) : Nat :=
  if g.mode = 0 then (((m.timeWord : Int) - (g.base : Int)) % (cycle : Int)).toNat else m.timeWord - m.tickAt m.frameNo

/-- The first `t` of a run of entries. -/
def cutRun (t : Nat) : List (Nat × Nat) → List (Nat × Nat)
  | [] => []
  | e :: rest => if t ≤ e.2 then [(e.1, t)] else e :: cutRun (t - e.2) rest

/-- A cycle over and over, as far as a class's gate can stay open in it: without an end where it never closes, else less than two cycles. -/
def forever (cls : Nat) (l : List (Nat × Nat)) : List (Nat × Nat) := if l.all (fun e => bitAt e.1 cls) then [(15, sec 1000)] else l ++ l

/-- A list from its entry 0 on: in mode FRAME from frame tick `h`. -/
def Mach.listFrom (m : Mach) (g : GateList) (cls h : Nat) : List (Nat × Nat) :=
  forever cls (if g.mode = 0 then m.gateCycle g else cutEntries (m.tickAt (h + 1) - m.tickAt h) g.entries)

/-- The gate states of a list from now on: a list in mode FRAME begins anew with the next frame tick (R399). -/
def Mach.listAhead (m : Mach) (g : GateList) (cls : Nat) : List (Nat × Nat) :=
  let l := m.gateCycle g
  let rest := if g.mode = 1 ∧ m.noFrames then [(15, sec 1000)] else cycleFrom l (m.gateElapsed g (cycleLength l))
  if g.mode = 0 then rest ++ m.listFrom g cls 0
  else match m.nextTick with
    | none => rest
    | some (h, t) => cutRun (t - m.timeWord) rest ++ m.listFrom g cls h

/-- The gate states of a port from now on, with the list that waits for its switch (R400, R401). -/
def Mach.gatesAhead (m : Mach) (p cls : Nat) : List (Nat × Nat) :=
  let old := m.listAhead (m.port p).list cls
  match (m.port p).switch_ with
  | none => old
  | some (from_, g) =>
    let at_ := if g.mode = 0 then some (0, m.objN (0x4220 + p) 9) else m.nextTick.filter (fun t => from_ ≤ t.2)
    match at_ with
    | none => old
    | some (h, t) => cutRun (t - m.timeWord) old ++ m.listFrom g cls h

/-- Whether a class's gate stays open for a time from now on (R400). -/
def Mach.gateLets (m : Mach) (p cls time : Nat) : Bool :=
  !m.objB (0x4220 + p) 1 || decide (time ≤ openFor cls (m.gatesAhead p cls))

/-- Whether a frame of a class is too long for every gate window (R396). -/
def Mach.neverLets (m : Mach) (p cls time : Nat) : Bool :=
  if m.gatesOpen p then false
  else
    let l := m.gateCycle (m.port p).list
    !(l.all (fun e => bitAt e.1 cls)) && longestOpen cls (l ++ l) < time

/-! ### Egress (R386, R388, R389, R396 to R398) -/

/-- The object index of a class's shaper (R406). -/
def shaperIx (p cls : Nat) : Nat := 0x4200 + 4 * p + cls

/-- The shaper of a class. -/
def Mach.shaper (m : Mach) (p cls : Nat) : Shaper := (m.port p).shapers.getD cls {}

/-- Charged length of a frame (R397), with the port's tag (R384) and the overhead in force. -/
def Mach.charged (m : Mach) (p cls len : Nat) : Nat :=
  len + (if m.objN (0x4010 + p) 8 = 1 then 4 else 0) + (m.shaper p cls).overhead

/-- The frame as it leaves: with the port's tag where it is TAGGED (R384). -/
def Mach.tagFrame (m : Mach) (p cls : Nat) (b : Bytes) : Bytes :=
  if m.objN (0x4010 + p) 8 = 1 then
    b.take 12 ++ [0x81, 0x00] ++ beBytes 2 ((m.shaper p cls).pcp * 8192 + m.objN (0x4010 + p) 9) ++ b.drop 12
  else b

/-- The latency correction of a port that is stamped in the MAC, in units of 2⁻¹⁶ ns: sub-index 2 transmit, 3 receive; none where the stamp is
taken at the medium boundary (R1, R421). -/
def Mach.latency (m : Mach) (x : Bool) (p sub : Nat) : Int := if x ∧ p < 4 then 0 else m.obj (0x3020 + p) sub * 65536 / 1000

/-- A transmit stamp, from what the port's stamp point read (R421). -/
def Mach.stampOut (m : Mach) (x : Bool) (p raw : Nat) : Nat := ((raw : Int) + m.latency x p 2).toNat

/-- A receive stamp, from what the port's stamp point read (R421). -/
def Mach.stampIn (m : Mach) (x : Bool) (p raw : Nat) : Nat := ((raw : Int) - m.latency x p 3).toNat

/-- The transmit stamp of a frame that starts now. -/
def Mach.transmitStamp (m : Mach) (x : Bool) (p : Nat) : Nat := m.stampOut x p m.timeWord

/-- ONE_STEP: the transmit time as a PTP timestamp at the insert offset, and its fraction added to the correctionField 26 bytes before
(R422). -/
def insertTime (t o : Nat) (b : Bytes) : Bytes :=
  let stamp := beBytes 6 (t / sec 1 % 2 ^ 48) ++ beBytes 4 (t % sec 1 / 65536)
  let corr := beBytes 8 (ofBE (slice (o - 26) 8 b) + t % 65536)
  let b := b.take o ++ stamp ++ b.drop (o + 10)
  b.take (o - 26) ++ corr ++ b.drop (o - 18)

/-- TIME112 in a structure of module memory (R10, R62). -/
def timeLE (t : Nat) : Bytes := leBytes 8 (t / sec 1) ++ leBytes 4 (t % sec 1 / 65536) ++ leBytes 2 (t % 65536)

/-- Address of a descriptor of a ring. -/
def descriptorAt (base i : Nat) : Nat := base + 32 * (i % 512)

/-- The control byte of a transmit descriptor (R388). -/
def TxFrame.control (f : TxFrame) (own : Bool) : Nat := 128 * bit own + 64 * bit f.stampAsked + 32 * bit f.oneStep + f.cls % 4

/-- A frame of the transmit ring is done with: its descriptor is written back, the transmit time where it was asked for, then the status with OWN clear, then the consumer
index moves (R389). A packet of a preview frame has no descriptor. -/
def Mach.writeBack (m : Mach) (p : Nat) (f : TxFrame) (status : Nat) (stamp : Option Nat) : Eff :=
  match f.view with
  | some v => .of (m.packetDone v (status = 3))
  | none =>
  let a := descriptorAt (m.port p).txBase f.index
  let time : List MemWrite := match stamp with
    | some t => if f.stampAsked then [⟨a + 16, timeLE t⟩] else []
    | none => []
  let done : List MemWrite := [⟨a + 10, leBytes 1 (f.control false) ++ leBytes 1 status⟩]
  (m.storeAll (time ++ done)).on (fun m => m.onPort p (fun x => { x with txConsumer := (x.txConsumer + 1) % 512 }))

/-- Counts a frame dropped by its class (0x4200+4p+c:07). -/
def Mach.countDrop (m : Mach) (p cls : Nat) : Mach := m.bump (shaperIx p cls) 7

/-- The length of a class's queue (R396): class 1 drops what comes beyond it, the sources of the others wait. -/
def queueLimit (cls : Nat) : Nat := [64, 256, 256, 1024].getD cls 0

/-- Counts a frame that is too long for every gate window, with 0x5008 (R396). -/
def Mach.tooLong (m : Mach) (p k len : Nat) : Mach :=
  (m.countDrop p k).raiseRate 1 0x5008 (4 * p + k) [(1, p), (1, k), (2, min (m.charged p k len) 65535)]

/-! ### Preview packets (R185, R186, R396) -/

/-- The MAC address of a multicast group. -/
def groupMac (a : Bytes) : Nat :=
  if a.take 1 = [0xFF] then 0x333300000000 + ofBE (slice 12 4 a) else 0x01005E000000 + ofBE (slice 12 4 a) % 2 ^ 23

/-- An IPv4 address as the slots hold it. -/
def mapped4 (a : Bytes) : Bytes := List.replicate 10 0 ++ [0xFF, 0xFF] ++ a

/-- Whether an address, IPv6 or IPv4-mapped, is a multicast group. -/
def multicast (a : Bytes) : Bool :=
  a.take 1 = [0xFF] || (a.take 12 = List.replicate 10 0 ++ [0xFF, 0xFF] && 224 ≤ ofBE (slice 12 1 a) && ofBE (slice 12 1 a) < 240)

/-- Whether an address is IPv4-mapped. -/
def isMapped4 (a : Bytes) : Bool := a.take 12 = List.replicate 10 0 ++ [0xFF, 0xFF]

/-- The 16-bit words of a header. -/
def words16 : Nat → Bytes → List Nat
  | 0, _ => []
  | n + 1, b => ofBE ((b.take 2 ++ [0]).take 2) :: words16 n (b.drop 2)

/-- The checksum of the Internet protocols. -/
def inetChecksum (b : Bytes) : Nat := 65535 - (words16 ((b.length + 1) / 2) b).sum % 65535

/-- The address at which a destination is reached from a port: itself on its own network, else the gateway (R404). -/
def Mach.nextHop (m : Mach) (p : Nat) (dst : Bytes) : Nat :=
  let o (s : Nat) := m.objN (0x4010 + p) s
  let a := ofBE (slice 12 4 dst)
  if isMapped4 dst then (if o 5 = 0 ∨ a / 2 ^ (32 - o 4) = o 3 / 2 ^ (32 - o 4) then a else o 5) else ofBE dst

/-- The MAC address that a port's frames to an address carry. -/
def Mach.macOf (m : Mach) (p : Nat) (dst : Bytes) : Nat :=
  if multicast dst then groupMac dst else (Config.neighbour p (m.nextHop p dst)).toNat

/-- A preview packet as a frame of a port, without its tag (R185): Ethernet, IPv4 or IPv6 with the interface's own address, UDP. What the
manual leaves open in these headers is free (log entry 85). -/
def Mach.streamFrame (m : Mach) (c : Ctx) (p : Nat) (dst : Bytes) (udp sequence : Nat) (body : Bytes) : Bytes :=
  let free (k : Nat) : Nat := (Config.streamField k sequence).toNat
  let mac := c.unit.macs.getD p 0
  let header (sum : Nat) : Bytes := beBytes 2 (free 0) ++ beBytes 2 udp ++ beBytes 2 (8 + body.length) ++ beBytes 2 sum
  let segment (pseudo : Bytes) : Bytes :=
    header (inetChecksum (pseudo ++ beBytes 2 17 ++ beBytes 2 (8 + body.length) ++ header 0 ++ body)) ++ body
  let ether (ty : Nat) : Bytes := beBytes 6 (m.macOf p dst) ++ beBytes 6 mac ++ beBytes 2 ty
  if isMapped4 dst then
    let own := beBytes 4 (m.objN (0x4010 + p) 3)
    let ip (sum : Nat) : Bytes := [0x45] ++ beBytes 1 (free 2 / 256) ++ beBytes 2 (28 + body.length) ++ beBytes 2 (free 1) ++ [0, 0] ++
      beBytes 1 (free 2) ++ [17] ++ beBytes 2 sum ++ own ++ slice 12 4 dst
    ether 0x0800 ++ ip (inetChecksum (ip 0)) ++ segment (own ++ slice 12 4 dst)
  else
    let global := m.str (0x4010 + p) 6
    let near : Bool := global = List.replicate 16 0 || ofBE (dst.take 2) / 64 = 0x3FA
    let own := if near then linkLocal mac else global
    ether 0x86DD ++ beBytes 4 (6 * 2 ^ 28 + free 3 / 256 * 2 ^ 20 + free 4 % 16 * 65536 + free 5) ++ beBytes 2 (8 + body.length) ++ [17] ++
      beBytes 1 (free 3) ++ own ++ dst ++ segment (own ++ dst)

/-- The view whose packet comes next into the class 3 queue of a port: of those that send there the one with the fewest in it (log entry 85). -/
def Mach.nextStream (m : Mach) (p : Nat) : Option Nat :=
  ((upTo 4).filter (fun v => (m.view v).sending.any (fun q => q.1 = p) && (m.view v).packets != [])).foldl (fun a v => match a with
    | none => some v
    | some b => if (m.view v).queued < (m.view b).queued then some v else a) none

/-- The next preview packet of a view goes into the class 3 queue of its port; one that is too long for every gate window is dropped (R396). -/
def Mach.putPacket (m : Mach) (c : Ctx) (p v : Nat) : Mach :=
  let x := m.view v
  let data := m.streamFrame c p x.address x.udp x.sequence (x.packets.headD [])
  let m := if m.objN (0x5410 + v) 4 = 0 then m.reads (sourceBase 6) [st2110Run v (8640 - x.packets.length)] else m
  let m := m.onView v (fun x => { x with packets := x.packets.drop 1, queued := x.queued + 1, sequence := (x.sequence + 1) % 2 ^ 32 })
  if m.neverLets p 3 (lineTime p (m.charged p 3 data.length)) then (m.tooLong p 3 data.length).packetDone v false
  else
    let f : TxFrame := ⟨3, 0, false, false, 0, data, some v⟩
    m.onPort p (fun x => { x with queues := modAt x.queues 3 (fun q => q ++ [f]) })

/-- Puts up to `n` preview packets into the class 3 queue of a port, as far as it has room. -/
def Mach.feedStream (c : Ctx) (p : Nat) : Nat → Mach → Mach
  | 0, m => m
  | n + 1, m =>
    if queueLimit 3 ≤ ((m.port p).queues.getD 3 []).length then m
    else match m.nextStream p with
      | none => m
      | some v => Mach.feedStream c p n (m.putPacket c p v)

/-- Puts up to `n` preview packets of one view into the class 3 queue of the port it sends at, as far as that has room. -/
def Mach.feedView (m : Mach) (c : Ctx) (p v n : Nat) : Mach :=
  each (upTo (min n (queueLimit 3))) m (fun m _ =>
    if queueLimit 3 ≤ ((m.port p).queues.getD 3 []).length ∨ 4 ≤ v ∨ (m.view v).packets = [] ∨ !(m.view v).sending.any (fun q => q.1 = p) then m
    else m.putPacket c p v)

/-- Whether the head frame of a class may start (R396). -/
def Mach.classEligible (m : Mach) (p cls : Nat) : Bool :=
  match (m.port p).queues.getD cls [] with
  | [] => false
  | f :: _ =>
    let n := m.charged p cls f.data.length
    (!(m.shaper p cls).on || decide (n * 2 ^ 32 ≤ (m.shaper p cls).tokens)) && m.gateLets p cls (lineTime p n)

/-- Frames that wait for room in the queue of their class enter it, in their order (R396). -/
def Port.letIn (x : Port) : Port :=
  x.held.foldl (fun (x : Port) f =>
    if (x.queues.getD f.cls []).length < queueLimit f.cls then { x with queues := modAt x.queues f.cls (fun q => q ++ [f]) }
    else { x with held := x.held ++ [f] }) { x with held := [] }

/-- A free port starts the head frame of its highest-priority eligible class (R396, R397), after the previews have filled the class 3 queue. -/
def Mach.startNext (m : Mach) (c : Ctx) (p : Nat) : Mach :=
  let m := Mach.feedStream c p (((upTo 4).map (fun v => (m.view v).packets.length)).sum) m
  if (m.port p).sending.isSome ∨ !m.linkUp p then m
  else match [0, 1, 2, 3].find? (fun k => m.classEligible p k) with
    | none => m
    | some k => match (m.port p).queues.getD k [] with
      | [] => m
      | f :: rest =>
        let t := m.transmitStamp c.unit.orderX p
        let n := m.charged p k f.data.length
        let charge (s : Shaper) : Shaper := if s.on then { s with tokens := s.tokens - n * 2 ^ 32 } else s
        let body := if f.oneStep then insertTime t f.offset f.data else f.data
        let m := m.onPort p (fun x => ({ x with
          queues := setAt x.queues k rest
          sending := some (f, t)
          shapers := modAt x.shapers k charge } : Port).letIn)
        m.emit (.frame p k (m.tagFrame p k body))

/-- Queued frames that the list now in force never lets through are dropped with status 2 (R396). -/
def Mach.dropTooLong (m : Mach) (p : Nat) : Eff :=
  let bad (k : Nat) (f : TxFrame) : Bool := m.neverLets p k (lineTime p (m.charged p k f.data.length))
  let fs := (m.port p).queues.zipIdx.flatMap (fun q => (q.1.filter (bad q.2)).map (fun f => (q.2, f))) ++
    ((m.port p).held.filter (fun f => bad f.cls f)).map (fun f => (f.cls, f))
  let m := m.onPort p (fun x => ({ x with
    queues := x.queues.zipIdx.map (fun q => q.1.filter (fun f => !bad q.2 f))
    held := x.held.filter (fun f => !bad f.cls f) } : Port).letIn)
  each fs (.of m) (fun e f => e.then_ (fun m => (m.tooLong p f.1 f.2.data.length).writeBack p f.2 2 none))

/-- How many descriptors of a port's transmit ring the module owns (R386). -/
def Port.owned (x : Port) : Nat := ((x.held ++ x.queues.flatten ++ (x.sending.map Prod.fst).toList).filter (fun f => f.view.isNone)).length

/-- TX_DESCRIPTOR_POSTED: firmware hands a frame over (R386, R388, R396); the ring holds 512, so with that many of the module's there is none to
hand over. A frame whose buffer cannot be accessed is a bus error (R257) and is dropped, with a status that is a free value (log entry 103). -/
def txPosted (t : TxPost) (c : Ctx) (m : Mach) : Eff :=
  if 5 ≤ t.p ∨ !portFitted c.unit.orderX t.p ∨ 2 < m.power ∨ 512 ≤ (m.port t.p).owned then .of m
  else
    let k := t.cls % 4
    let f : TxFrame := ⟨k, (m.port t.p).txProducer, t.stampAsked, t.oneStep, t.offset, t.data, none⟩
    let a := descriptorAt (m.port t.p).txBase f.index
    let desc := leBytes 8 t.buffer ++ leBytes 2 t.data.length ++ leBytes 1 (f.control true) ++ [0] ++ leBytes 2 t.offset ++
      List.replicate 18 0
    let m := m.onPort t.p (fun x => { x with txProducer := (x.txProducer + 1) % 512 })
    let e := m.storeAll [⟨t.buffer, t.data⟩, ⟨a, desc⟩]
    if !reachable t.buffer t.data.length then e.then_ (fun m => m.draw.writeBack t.p f (Config.busStatus m.free).toNat none)
    else if !m.linkUp t.p then e.then_ (fun m => m.writeBack t.p f 3 none)
    else if m.neverLets t.p k (lineTime t.p (m.charged t.p k t.data.length)) then
      e.then_ (fun m => (m.tooLong t.p k t.data.length).writeBack t.p f 2 none)
    else if queueLimit k ≤ ((m.port t.p).queues.getD k []).length then
      (if k = 1 then e.then_ (fun m => (m.countDrop t.p k).writeBack t.p f 1 none)
      else e.on (fun m => m.onPort t.p (fun x => { x with held := x.held ++ [f] })))
    else e.on (fun m =>
      (m.onPort t.p (fun x => { x with queues := modAt x.queues k (fun q => q ++ [f]) })).startNext c t.p)

/-- FRAME_TRANSMITTED: the last bit of the frame in transmission has left the port (R389). Of the views that send at the port, `view` goes first
with up to `packets` preview packets (log entry 85). -/
def Mach.transmitted (m : Mach) (c : Ctx) (p view packets : Nat) : Eff :=
  match (m.port p).sending with
  | none => .of m
  | some (f, t) =>
    let m := ((m.onPort p (fun x => { x with sending := none })).bump (0x4010 + p) 0x0F).bump (shaperIx p f.cls) 6
    (m.writeBack p f 0 (some t)).on (fun m => (m.feedView c p view packets).startNext c p)

/-- At frame tick H, transmission of the preview frames begins, or a frame is skipped: the previous one is still being sent, its encode has
not finished, or its port is down (R186, R396; log entry 85). -/
def Mach.sendPreviews (m : Mach) (c : Ctx) (h : Nat) : Mach :=
  each (upTo 4) m (fun m v =>
    let o (s : Nat) := m.objN (0x5410 + v) s
    let x := m.view v
    if !m.viewDue v h then m
    else if x.sending.isSome ∨ (o 4 = 1 ∧ x.blocks.length < previewBlocks) ∨ !m.linkUp (o 5) then m.skipPreview v h
    else
      let packets := m.previewPackets c.mem v h
      (m.draw.onView v (fun x => { x with sending := some (o 5, h), address := m.str (0x5410 + v) 6, udp := o 7, packets := packets })).startNext c (o 5))

/-- Queued frames of a port that goes down are dropped with status 3 (R388). -/
def Mach.dropQueues (m : Mach) (p : Nat) : Eff :=
  let x := m.port p
  let fs := (x.sending.map Prod.fst).toList ++ x.queues.flatten ++ x.held
  let m := m.onPort p (fun x => { x with sending := none, queues := [[], [], [], []], held := [] })
  each fs (.of m) (fun e f => e.then_ (fun m => m.writeBack p f 3 none))

/-! ### Refill (R392, R394, R397, R398) -/

/-- What a rate in kbit/s adds every 128 ns, in 2⁻³² B. -/
def refillStep (rate : Nat) : Nat := rate * 16 * 2 ^ 32 / 1000000

/-- A meter's refill, at which a write of its settings takes effect (R394). -/
def Mach.refillMeter (m : Mach) (slot : Nat) (x : Meter) : Meter :=
  let cap (sub : Nat) : Nat := m.objN 0x4111 sub slot * 2 ^ 32
  { restart := false
    on := m.objB 0x4111 1 slot
    action := m.objN 0x4111 7 slot
    tc := if x.restart then cap 3 else min (cap 3) (x.tc + refillStep (m.objN 0x4111 2 slot))
    tp := if x.restart then cap 5 else min (cap 5) (x.tp + refillStep (m.objN 0x4111 4 slot)) }

/-- A shaper's refill, at which a write of its settings takes effect (R398). -/
def Mach.refillShaper (m : Mach) (p k : Nat) (x : Shaper) : Shaper :=
  let o (sub : Nat) : Nat := m.objN (shaperIx p k) sub
  { restart := false
    on := m.objB (shaperIx p k) 1
    overhead := o 4
    pcp := o 5
    tokens := if x.restart then 0 else min (o 3 * 2 ^ 32) (x.tokens + refillStep (o 2)) }

/-- METER_REFILL: every 128 ns the meters and shapers refill, and ports may send. -/
def meterRefill (c : Ctx) (m : Mach) : Mach :=
  if m.power > 2 ∨ m.now < m.net.refillAt + ns 128 then m
  else
    let meters := m.net.meters.zipIdx.map (fun x => m.refillMeter x.2 x.1)
    let ports := m.net.ports.zipIdx.map (fun (x : Port × Nat) =>
      { x.1 with shapers := x.1.shapers.zipIdx.map (fun s => m.refillShaper x.2 s.2 s.1) })
    let m := { m with net := { m.net with meters := meters, ports := ports, refillAt := m.net.refillAt + ns 128 } }
    each (upTo 5) m (fun m p => m.startNext c p)

/-- A meter restarts (R394). -/
def Mach.restartMeter (m : Mach) (slot : Nat) : Mach := m.onMeter slot (fun x => { x with restart := true })

/-- A shaper restarts (R398). -/
def Mach.restartShaper (m : Mach) (p k : Nat) : Mach :=
  m.onPort p (fun x => { x with shapers := modAt x.shapers k (fun s => { s with restart := true }) })

/-- Whether a slot's meter settings obey R395. -/
def Mach.meterAllowed (m : Mach) (slot : Nat) : Bool :=
  let o (sub : Nat) : Nat := m.objN 0x4111 sub slot
  let big := if m.objN 0x4110 2 slot = 4 then 1522 else 9216
  o 2 ≤ o 4 && big ≤ o 3 && big ≤ o 5

/-- Whether a shaper's burst obeys R398. -/
def Mach.burstAllowed (m : Mach) (p k : Nat) : Bool := largestFrame p + m.objN (shaperIx p k) 4 ≤ m.objN (shaperIx p k) 3

/-! ### Gate lists (R401) -/

/-- The entries that a staged list spells. -/
def gateEntries : Nat → Bytes → List (Nat × Nat)
  | 0, _ => []
  | n + 1, b => (ofBE (b.take 1) % 16, ofBE (slice 4 4 b)) :: gateEntries n (b.drop 8)

/-- The bytes of a list. -/
def gateBytes (l : List (Nat × Nat)) : Bytes := l.flatMap (fun e => beBytes 1 e.1 ++ [0, 0, 0] ++ beBytes 4 e.2)

/-- GATE_LIST_APPLY (R401). -/
def Mach.applyGates (m : Mach) (p : Nat) : Except Nat Mach :=
  let n := m.objN (0x4220 + p) 3
  let staged := m.str (0x4230 + p) 0
  let g : GateList := ⟨m.objN (0x4220 + p) 2, m.objN (0x4220 + p) 4, gateEntries n staged⟩
  let cycle := (g.entries.map Prod.snd).sum
  let bad : Bool := n = 0 || decide (staged.length < 8 * n) || g.entries.any (fun e => e.2 < 64 || 1000000000 < e.2) ||
    (g.mode = 0 && (decide (cycle < 1000) || decide (1000000000 < cycle)))
  if bad then .error abInconsistent
  else
    let from_ := max (m.timeWord + ms 1) (m.objN (0x4220 + p) 5)
    let at_ := if g.mode = 0 then (if from_ ≤ g.base then from_ + (g.base - from_) % ns cycle
        else g.base + (from_ - g.base + ns cycle - 1) / ns cycle * ns cycle)
      else if m.scheduled then m.tickAt (firstFrame (m.objN 0x5000 6) (m.objN 0x5000 7) (m.objN 0x5000 8) from_)
      else from_
    .ok (((m.onPort p (fun x => { x with switch_ := some (from_, g) })).setN (0x4220 + p) 8 1).setN (0x4220 + p) 9 at_)

/-- GATE_LIST_SWITCH: at the switch instant the new list comes into force (R401); in mode FRAME that is a frame tick. -/
def gateListSwitch (p : Nat) (c : Ctx) (m : Mach) : Eff :=
  match (m.port p).switch_ with
  | none => .of m
  | some (from_, g) =>
    let due : Bool := if g.mode = 0 then decide (m.objN (0x4220 + p) 9 ≤ m.timeWord)
      else m.scheduled && decide (from_ ≤ m.tickAt m.frameNo) && decide (m.tickAt m.frameNo ≤ m.timeWord)
    if !due then .of m
    else
      let at_ := if g.mode = 0 then m.objN (0x4220 + p) 9 else m.tickAt m.frameNo
      let m := m.onPort p (fun x => { x with list := g, switch_ := none })
      let m := m.setStr (0x4238 + p) 0 (gateBytes g.entries)
      let m := m.sets (0x4220 + p) [(7, if g.mode = 0 then ((g.entries.map Prod.snd).sum : Nat) else 0), (8, 0), (9, (at_ : Nat))]
      ((m.raise 0x5006 p [(1, p), (1, g.mode), (2, g.entries.length)]).dropTooLong p).on (fun m => m.startNext c p)

/-- GATE_ENTRY_END: an entry's interval ends, and the port may send what the next entry lets through (R399). -/
def gateEntryEnd (p : Nat) (c : Ctx) (m : Mach) : Mach := m.startNext c p

/-! ### Sources (R112, R116, R117, R119) -/

/-- Learned SSRC, last sequence number and last packet of a joined slot. -/
def Mach.source? (m : Mach) (slot : Nat) : Option (Nat × Option Nat × Nat) := (m.scene.sources.find? (fun s => s.1 = slot)).map Prod.snd

/-- Sets or removes a slot's source. -/
def Mach.setSource (m : Mach) (slot : Nat) (s : Option (Nat × Option Nat × Nat)) : Mach :=
  let rest := m.scene.sources.filter (fun x => x.1 != slot)
  let l := match s with
    | some v => (slot, v) :: rest
    | none => rest
  { m with scene := { m.scene with sources := l } }

/-- A source leaves: its incomplete contents are abandoned with reason 5, and 0x7002 is raised (R116). -/
def Mach.leave (m : Mach) (slot reason : Nat) : Mach :=
  match m.source? slot with
  | none => m
  | some s =>
    let m := (m.setSource slot none).setN 0x4110 6 0 slot
    let m := m.raiseRate 10 0x7002 slot [(2, slot), (4, s.1), (1, reason)]
    each (upTo 64) m (fun m k => m.abandonWhere k (fun c => match c.origin with
      | .stream sl _ => sl = slot
      | _ => false) 5)

/-- A source joins (R116). -/
def Mach.join (m : Mach) (slot ssrc port : Nat) : Mach :=
  let m := ((m.setSource slot (some (ssrc, none, m.now))).setN 0x4110 6 1 slot).setN 0x4110 7 ssrc slot
  m.raiseRate 10 0x7001 slot [(2, slot), (4, ssrc), (1, port)]

/-- The payload of an RTP packet after its header and extension, without padding; none when the padding count is wrong (R112). -/
def rtpPayload (b : Bytes) : Option Bytes :=
  let rest := b.drop 12
  let rest := if bitAt (ofBE (b.take 1)) 4 then rest.drop (4 + 4 * ofBE (slice 2 2 rest)) else rest
  if bitAt (ofBE (b.take 1)) 5 then
    let n := ofBE (rest.drop (rest.length - 1))
    if n = 0 ∨ rest.length < n then none else some (rest.take (rest.length - n))
  else some rest

/-- A datagram on a slot's destination port (R112 to R116, R119): one that matches no enabled STREAM layer counts on its slot, and on every
enabled layer in another mode that it is addressed to (R110). -/
def Mach.sceneDatagram (m : Mach) (port slot : Nat) (b : Bytes) : Eff :=
  let first := ofBE (b.take 1)
  let seq := ofBE (slice 2 2 b)
  let ssrc := ofBE (slice 8 4 b)
  let drop := m.bump 0x4112 6 1 slot
  if b.length < 12 ∨ first / 64 ≠ 2 ∨ first % 16 ≠ 0 ∨ ofBE (slice 1 1 b) % 128 ≠ m.objN 0x4110 5 slot then .of drop
  else match (rtpPayload b).bind readScene with
    | none => .of drop
    | some g =>
      let m := match m.source? slot with
        | none => m.join slot ssrc port
        | some s => if s.1 = ssrc then m else (m.leave slot 2).join slot ssrc port
      let old := ((m.source? slot).map (fun s => s.2.1)).getD none
      let gap : Bool := match old with
        | some n => seq != (n + 1) % 65536
        | none => false
      let m := m.setSource slot (some (ssrc, some seq, m.now))
      match m.layersFor slot g.stream (· = 0) with
      | k :: _ =>
        let m := if gap then m.bump (0x5140 + k) 0x0D else m
        if m.scheduled then (m.takePacket k slot g).on Mach.feedEngines else .of m
      | [] => .of (each (m.layersFor slot g.stream (· != 0)) (m.bump 0x4112 6 1 slot) (fun m k => m.bump (0x5140 + k) 0x0C))

/-- RTCP_BYE: a BYE on a slot's RTCP port that names the learned SSRC (R112, R116). -/
def rtcpBye (slot ssrc : Nat) (m : Mach) : Mach :=
  match m.source? slot with
  | some s => if s.1 = ssrc ∧ m.objB 0x4110 1 slot then m.leave slot 0 else m
  | none => m

/-- SOURCE_IDLE_TIMEOUT: no accepted packet for 0x5180:06 (R116). -/
def sourceIdleTimeout (slot : Nat) (m : Mach) : Mach :=
  match m.source? slot with
  | some s => if s.2.2 + ms (m.objN 0x5180 6) ≤ m.now then m.leave slot 1 else m
  | none => m

/-- The ports that a slot listens on. -/
def Mach.slotPorts (m : Mach) (c : Ctx) (slot : Nat) : List Nat :=
  if m.objN 0x4110 2 slot = 0xFF then (upTo 5).filter (portFitted c.unit.orderX) else [m.objN 0x4110 2 slot]

/-- SLOT_ENABLE: a slot is enabled or disabled (R116, R117, R391, R394). -/
def Mach.enableSlot (m : Mach) (c : Ctx) (slot : Nat) (on : Bool) : Mach :=
  if on = m.objB 0x4110 1 slot then m
  else
    let m := m.setB 0x4110 1 on slot
    let group := m.str 0x4110 3 slot
    let m := if multicast group then each (m.slotPorts c slot) m (fun m p => m.emit (.membership p group on)) else m
    if on then m.restartMeter slot else m.leave slot 3

/-! ### Reception (R384, R385, R390, R392, R393) -/

/-- A frame's fields (R385). -/
structure Parsed where
  dst : Nat
  vlan : Option Nat
  etype : Nat
  proto : Nat
  addr : Bytes
  port : Nat
  payload : Bytes
  deriving DecidableEq, Repr

/-- The upper layer of an IPv6 packet, with its protocol, behind up to `n` extension headers; none in a fragment after the first. -/
def upperLayer : Nat → Nat → Bytes → Nat × Bytes
  | 0, next, b => (next, b)
  | n + 1, next, b =>
    let skip (len : Nat) : Nat × Bytes := upperLayer n (ofBE (b.take 1)) (b.drop len)
    if next = 0 ∨ next = 43 ∨ next = 60 then skip (8 * (ofBE (slice 1 1 b) + 1))
    else if next = 51 then skip (4 * (ofBE (slice 1 1 b) + 2))
    else if next = 44 then (if ofBE (slice 2 2 b) / 8 = 0 then skip 8 else (256, []))
    else (next, b)

/-- A PAUSE or PFC frame (R382): MAC control, opcode 0x0001 or 0x0101, to its group address. -/
def pauseFrame (b : Bytes) : Bool :=
  ofBE (slice 12 2 b) = 0x8808 && (ofBE (slice 14 2 b) = 1 || ofBE (slice 14 2 b) = 0x0101) && ofBE (b.take 6) = 0x0180C2000001

/-- Reads a frame: the tag, IPv4 or IPv6, UDP. -/
def parseFrame (b : Bytes) : Parsed :=
  let tagged := ofBE (slice 12 2 b) = 0x8100
  let o := if tagged then 16 else 12
  let ty := ofBE (slice o 2 b)
  let ip := b.drop (o + 2)
  let base : Parsed :=
    { dst := ofBE (b.take 6), vlan := if tagged then some (ofBE (slice 14 2 b) % 4096) else none, etype := ty, proto := 256, addr := [],
      port := 0, payload := [] }
  let udp (proto : Nat) (addr l4 : Bytes) : Parsed :=
    { base with proto := proto, addr := addr, port := ofBE (slice 2 2 l4), payload := (l4.take (ofBE (slice 4 2 l4))).drop 8 }
  if ty = 0x0800 then
    let proto := ofBE (slice 9 1 ip)
    udp (if proto = 17 ∧ ofBE (slice 6 2 ip) % 8192 ≠ 0 then 256 else proto) (List.replicate 10 0 ++ [0xFF, 0xFF] ++ slice 16 4 ip) (ip.drop (4 * (ofBE (ip.take 1) % 16)))
  else if ty = 0x86DD then
    let up := upperLayer (b.length / 8) (ofBE (slice 6 1 ip)) (ip.drop 40)
    udp up.1 (slice 24 16 ip) up.2
  else base

/-- MAC addresses of PTP messages (R385, R412). -/
def ptpMacs : List Nat := [0x011B19000000, 0x0180C200000E, 0x01005E000181, 0x01005E00006B, 0x333300000181, 0x33330000006B]

/-- The multicast groups that the enabled slots of a port have joined (R117). -/
def Mach.groupsOn (m : Mach) (c : Ctx) (p : Nat) : List Bytes :=
  ((upTo 256).filter (fun s => m.objB 0x4110 1 s && multicast (m.str 0x4110 3 s) && (m.slotPorts c s).contains p)).map (fun s => m.str 0x4110 3 s)

/-- The MAC addresses at which the solicitations and queries arrive that firmware answers (R117, R383): the solicited-node addresses of the
interface's own, and with a group of the family joined that of all hosts or nodes (DEDUCED, log entry 83). -/
def Mach.askMacs (m : Mach) (c : Ctx) (p : Nat) : List Nat :=
  let node (a : Bytes) : Nat := 0x3333FF000000 + ofBE (slice 13 3 a)
  let joined (v6 : Bool) : Bool := (m.groupsOn c p).any (fun a => (a.take 1 = [0xFF]) = v6)
  let global := m.str (0x4010 + p) 6
  [node (linkLocal (c.unit.macs.getD p 0))] ++ (if global = List.replicate 16 0 then [] else [node global]) ++ (if joined false then [0x01005E000001] else []) ++
    (if joined true then [0x333300000001] else [])

/-- Whether the destination MAC address is one the port takes (row 1 of R385). -/
def Mach.takesMac (m : Mach) (c : Ctx) (p dst : Nat) : Bool :=
  dst = c.unit.macs.getD p 0 || dst = 0xFFFFFFFFFFFF || ptpMacs.contains dst || (m.askMacs c p).contains dst ||
    (m.groupsOn c p).any (fun g => groupMac g = dst)

/-- What firmware sends on a network-control frame, given without its tag: answers to ARP requests, solicitations and echo requests (R383),
and the membership reports that a query asks for (R117). -/
def Mach.controlAnswers (m : Mach) (c : Ctx) (p : Nat) (b : Bytes) : List Out :=
  let ty := ofBE (slice 12 2 b)
  let ip := b.drop 14
  let reports (v6 : Bool) (g : Bytes) : List Out :=
    let asked (a : Bytes) : Bool := (a.take 1 = [0xFF]) = v6 && (g.all (· = 0) || a = (if v6 then g else mapped4 g))
    ((m.groupsOn c p).eraseDups.filter asked).map (fun a => .membership p a true)
  if ty = 0x0806 then
    if ofBE (slice 6 2 ip) = 1 ∧ m.objN (0x4010 + p) 3 ≠ 0 ∧ ofBE (slice 24 4 ip) = m.objN (0x4010 + p) 3 then
      [.answer p (.arp (ofBE (slice 8 6 ip)) (slice 14 4 ip))]
    else []
  else if ty = 0x0800 then
    let l4 := (ip.take (ofBE (slice 2 2 ip))).drop (4 * (ofBE (ip.take 1) % 16))
    let own := mapped4 (slice 16 4 ip)
    let kind := ofBE (l4.take 1)
    if ofBE (slice 9 1 ip) = 1 then
      (if kind = 8 ∧ m.ownAddress c p own then [.answer p (.echo own (mapped4 (slice 12 4 ip)) (l4.drop 4))] else [])
    else if kind = 0x11 then reports false (slice 4 4 l4)
    else []
  else if ty = 0x86DD then
    let rest := (ip.take (40 + ofBE (slice 4 2 ip))).drop 40
    let l4 := (upperLayer (b.length / 8) (ofBE (slice 6 1 ip)) rest).2
    let asker := slice 8 16 ip
    let own := slice 24 16 ip
    match ofBE (l4.take 1) with
    | 128 => if m.ownAddress c p own then [.answer p (.echo own asker (l4.drop 4))] else []
    | 130 => reports true (slice 8 16 l4)
    | 135 => if m.ownAddress c p (slice 8 16 l4) then [.answer p (.neighbour (slice 8 16 l4) asker)] else []
    | _ => []
  else []

/-- The enabled slot that a UDP datagram is for (row 3 of R385, or row 4 with its port plus 1); the lower-numbered one wins. -/
def Mach.slotFor (m : Mach) (p : Nat) (a : Bytes) (udp : Nat) : Option Nat :=
  (upTo 256).find? (fun s => m.objB 0x4110 1 s && (m.objN 0x4110 2 s = 0xFF || m.objN 0x4110 2 s = p) && m.str 0x4110 3 s = a &&
    m.objN 0x4110 4 s = udp)

/-- Where a frame goes (R385). -/
inductive Path where
  | drop
  | ptp
  | slot (s : Nat)
  | rtcp (s : Nat)
  | koa
  | control
  deriving DecidableEq, Repr

/-- The first row of R385 that matches. -/
def Mach.classify (m : Mach) (c : Ctx) (p : Nat) (f : Parsed) : Path :=
  let udp := (f.etype = 0x0800 || f.etype = 0x86DD) && f.proto = 17
  if !m.takesMac c p f.dst then .drop
  else if f.etype = 0x88F7 ∨ (udp ∧ (f.port = 319 ∨ f.port = 320)) then .ptp
  else match (if udp then m.slotFor p f.addr f.port else none) with
    | some s => .slot s
    | none => match (if udp ∧ f.port ≠ 0 then m.slotFor p f.addr (f.port - 1) else none) with
      | some s => .rtcp s
      | none =>
        if udp ∧ f.port = 47620 ∧ m.ownAddress c p f.addr then .koa
        else if f.etype = 0x0806 ∨ (f.etype = 0x0800 ∧ (f.proto = 1 ∨ f.proto = 2)) ∨ (f.etype = 0x86DD ∧ f.proto = 58) then .control
        else .drop

/-- A frame for the receive ring (R257, R387, R389): written to the next buffer that firmware handed over, or dropped. -/
def Mach.toRing (m : Mach) (p path slot : Nat) (untagged : Bool) (stamp : Nat) (data : Bytes) : Eff :=
  match (m.port p).rxBuffers with
  | [] =>
    let drops := m.now :: lastSecond m.now (m.port p).ringDrops
    let m := (m.onPort p (fun x => { x with ringDrops := drops })).bump (0x4010 + p) 0x0D
    .of (m.raiseRate 1 0x5007 p [(1, p), (4, drops.length)])
  | b :: rest =>
    let a := descriptorAt (m.port p).rxBase (m.port p).rxConsumer
    let time := if path = 1 then timeLE stamp else List.replicate 14 0
    let m := m.onPort p (fun x => { x with rxBuffers := rest, rxConsumer := (x.rxConsumer + 1) % 512 })
    m.storeAll [⟨b, data⟩, ⟨a + 8, leBytes 2 data.length⟩, ⟨a + 12, leBytes 2 slot ++ [0, 0] ++ time⟩,
      ⟨a + 10, leBytes 1 (2 * path + bit (!untagged)) ++ [0]⟩]

/-- The control path's bucket (R390): whether it takes one more frame. -/
def Mach.controlPath (m : Mach) (p path slot : Nat) (untagged : Bool) (stamp : Nat) (data : Bytes) : Eff :=
  let owed := (m.port p).owed - (m.now - (m.port p).owedAt)
  if us 50 * 1999 < owed then
    let drops := m.now :: lastSecond m.now (m.port p).controlDrops
    let m := (m.onPort p (fun x => { x with controlDrops := drops, owed := owed, owedAt := m.now })).bump (0x4010 + p) 0x0E
    .of (m.raiseRate 1 0x5005 p [(1, p), (4, drops.length)])
  else (m.onPort p (fun x => { x with owed := owed + us 50, owedAt := m.now })).toRing p path slot untagged stamp data

/-- The colour of a frame of `len` bytes, 0 GREEN, 1 YELLOW, 2 RED, with the meter after it (R392). -/
def Meter.colour (x : Meter) (len : Nat) : Nat × Meter :=
  let b := len * 2 ^ 32
  if x.tp < b then (2, x)
  else if x.tc < b then (1, { x with tp := x.tp - b })
  else (0, { x with tp := x.tp - b, tc := x.tc - b })

/-- Event 0x5004 when a slot's red drops within one second exceed the alarm (R393, R336). -/
def Mach.judgeReds (m : Mach) (slot : Nat) : Mach :=
  let n := (lastSecond m.now (((m.net.reds.find? (fun r => r.1 = slot)).map Prod.snd).getD [])).length
  if m.objN 0x4100 4 < n then m.raiseRate 10 0x5004 slot [(2, slot), (4, n)] else m

/-- A red drop of a slot (R393). -/
def Mach.redDrop (m : Mach) (slot : Nat) : Mach :=
  let old := ((m.net.reds.find? (fun r => r.1 = slot)).map Prod.snd).getD []
  let new := (slot, m.now :: lastSecond m.now old)
  ({ m with net := { m.net with reds := new :: m.net.reds.filter (fun r => r.1 != slot) } } : Mach).judgeReds slot

/-- A frame at a slot's meter (R392, R393): whether it goes on. -/
def Mach.meterFrame (m : Mach) (slot len : Nat) : Mach × Bool :=
  let old := m.net.meters.getD slot {}
  let (colour, x) := if old.on then old.colour len else (0, old)
  let m := (m.onMeter slot (fun _ => x)).bump 0x4112 (1 + colour) 1 slot
  let action := old.action
  let congested : Bool := m.objN 0x4100 2 ≤ m.objN 0x4100 3
  let full : Bool := 33554432 < m.objN 0x4100 3 + len
  if colour = 2 then (m.redDrop slot, false)
  else if colour = 1 ∧ (action = 2 ∨ (action = 1 ∧ congested ∧ !full)) then (m.bump 0x4112 4 1 slot, false)
  else if full then (m.bump 0x4112 5 1 slot, false)
  else (m, true)

/-- FRAME_RECEIVED (R384, R385, R390, R392, R393), with what firmware answers on core 0 to network control that reaches the receive ring (R117,
R383; the core is a DESIGN CHOICE, log entry 83). -/
def frameReceived (f : EthFrame) (c : Ctx) (m : Mach) : Eff :=
  if 5 ≤ f.p ∨ !portFitted c.unit.orderX f.p ∨ !m.linkUp f.p ∨ 2 < m.power then .of m
  else
    let broken := m.armedAt 22 f.p
    let m := if broken then m.acted else m
    let len := f.data.length + 4
    if !f.fcsOk ∨ broken ∨ largestFrame f.p < len then .of (m.bump (0x4010 + f.p) 0x0B)
    else
      let m := (m.bump (0x4010 + f.p) 0x0A).setN 0x4100 3 (min f.held 33554432)
      let x := parseFrame f.data
      let stamp := m.stampIn c.unit.orderX f.p f.stamp
      let tagsRight := if m.objN (0x4010 + f.p) 8 = 1 then x.vlan = some (m.objN (0x4010 + f.p) 9) else x.vlan = none ∨ x.vlan = some 0
      let stripped := if x.vlan.isSome then f.data.take 12 ++ f.data.drop 16 else f.data
      if pauseFrame f.data then .of (m.bump (0x4010 + f.p) 0x10)
      else if !decide tagsRight then .of (m.bump (0x4010 + f.p) 0x0C)
      else match m.classify c f.p x with
        | .drop => .of (m.bump (0x4010 + f.p) 0x0C)
        | .ptp => m.toRing f.p 1 0xFFFF x.vlan.isNone stamp stripped
        | .slot s =>
          let (m, go) := m.meterFrame s len
          if go then m.sceneDatagram f.p s x.payload else .of m
        | .rtcp s => m.controlPath f.p 2 s x.vlan.isNone stamp stripped
        | .koa => m.controlPath f.p 3 0xFFFF x.vlan.isNone stamp stripped
        | .control =>
          let e := m.controlPath f.p 4 0xFFFF x.vlan.isNone stamp stripped
          if e.writes = [] ∨ !m.coreUp 0 then e else e.on (fun m => each (m.controlAnswers c f.p stripped) m Mach.emit)

/-- RX_DESCRIPTOR_POSTED: firmware hands a receive buffer over (R386, R387); the ring holds 512. A frame for a buffer that cannot be accessed is
not written (R257). -/
def rxPosted (p buffer : Nat) (c : Ctx) (m : Mach) : Eff :=
  if 5 ≤ p ∨ !portFitted c.unit.orderX p ∨ 2 < m.power ∨ 512 ≤ (m.port p).rxBuffers.length then .of m
  else
    let a := descriptorAt (m.port p).rxBase (m.port p).rxProducer
    let m := m.onPort p (fun x => { x with rxBuffers := x.rxBuffers ++ [buffer], rxProducer := (x.rxProducer + 1) % 512 })
    m.storeAll [⟨a, leBytes 8 buffer ++ [0, 0, 0x80] ++ List.replicate 21 0⟩]

/-! ### Links (R382, R403, R407) -/

/-- The link of a port comes up: event 0x5001. -/
def Mach.raiseLink (m : Mach) (c : Ctx) (p : Nat) : Mach :=
  if 5 ≤ p ∨ !portFitted c.unit.orderX p ∨ m.objN (0x4010 + p) 2 ≠ 0 ∨ 2 < m.power ∨ m.listening then m
  else (m.setN (0x4010 + p) 2 1).raise 0x5001 p [(1, p)]

/-- The link of a port goes down, to DOWN or to what its cage then reads: event 0x5002. -/
def Mach.dropLink (m : Mach) (p st : Nat) : Eff :=
  if !m.linkUp p then .of (m.setN (0x4010 + p) 2 st)
  else ((m.setN (0x4010 + p) 2 st).raise 0x5002 p [(1, p)]).dropQueues p

/-- QSFP_INSERTED (R382): kind 0 an accepted module, 1 neither SR4 nor DR4, 2 over power; with the temperature of its monitor page. -/
def qsfpInserted (p kind : Nat) (temp : Int) (c : Ctx) (m : Mach) : Mach :=
  if 4 ≤ p ∨ !portFitted c.unit.orderX p then m
  else
    let m := m.set (0x4010 + p) 0x11 temp
    if kind = 0 then (if m.linkUp p then m else m.setN (0x4010 + p) 2 0)
    else (m.setN (0x4010 + p) 2 3).raise 0x5003 p [(1, p), (1, min kind 2)]

/-- QSFP_REMOVED (R407). -/
def qsfpRemoved (p : Nat) (c : Ctx) (m : Mach) : Eff :=
  if 4 ≤ p ∨ !portFitted c.unit.orderX p ∨ m.objN (0x4010 + p) 2 = 2 then .of m
  else (m.dropLink p 2).on (fun m => m.raise 0x5003 p [(1, p), (1, 0)])

end Sys2Proof.Machine
end

