-- ==== Sys2Proof/Machine/Heat.lean ====
section
/-! DEFINITION. Heats (03): the schedule and its restarts (R76 to R81, R83), what a heat start does (R85, R90 to R95, R100, R161, R162, R166),
the re-pour decision (R96, R97), the commit point (R98, R101, R106 to R108, R173), prefetch and dross (R102 to R104). -/

namespace Sys2Proof.Machine

/-! ### The schedule (R76 to R81) -/

/-- Puts a schedule in force (0x5000:06 to :08). -/
def Mach.bringIn (m : Mach) (e n d : Nat) : Mach := m.sets 0x5000 [(6, e), (7, n), (8, d)]

/-- SCHEDULE_APPLY (R76, R78, R79): the staged schedule goes in force at once while STOPPED; otherwise it is brought in by a restart, the
one under way or a new one. -/
def Mach.applySchedule (m : Mach) : Except Nat Mach :=
  let e := m.objN 0x5000 1
  let n := m.objN 0x5000 2
  let d := m.objN 0x5000 3
  if !scheduleAllowed n d (m.objN 0x5000 4) (m.objN 0x5001 1) (m.objN 0x5001 2) then .error abInconsistent
  else if !m.scheduled then .ok (m.bringIn e n d)
  else match m.pipe.restart with
    | some r =>
      let after := if m.timeWord < r.t2 then r.t2 + us 1000 else max r.t2 m.timeWord + us 1000
      .ok (m.onPipe (fun p => { p with restart := some { r with epoch := e, num := n, den := d, after := after } }))
    | none =>
      let t1 := m.tickAt (m.frameNo + 1)
      let t2 := m.tickAt (m.frameNo + 2)
      let r : Restart := { phase := 1, t1 := t1, t2 := t2, after := t2 + us 1000, reason := 0, epoch := e, num := n, den := d }
      .ok (((m.onPipe (fun p => { p with restart := some r })).setN 0x5000 0x0A 3).endCapture 3)

/-- SLOTS_REQUESTED_WRITE (R76, R81): the slot rate is checked with the period in force. -/
def Mach.requestSlots (m : Mach) (s : Nat) : Except Nat Mach :=
  if s * m.objN 0x5000 8 ≤ 960 * m.objN 0x5000 7 then .ok (m.setN 0x5000 4 s) else .error abInconsistent

/-- Whether commit guard and late margin leave the late cut-off at t_H = 2,000 µs or later (R84): in the schedule in force and, while
RESTARTING, in the one that comes in. -/
def Mach.marginsAllowed (m : Mach) (g l : Nat) : Bool :=
  heatTiming (m.objN 0x5000 7) (m.objN 0x5000 8) g l &&
    (match m.pipe.restart with
      | some r => heatTiming r.num r.den g l
      | none => true)

/-! ### A heat ends -/

/-- Every pour segment leaves the lanes: its version is no longer sent (R86). -/
def Mach.dropRays (m : Mach) : Mach :=
  { m with lanes := m.lanes.map (fun (x : Lane) => { x with
      staged := x.staged.filter (fun s => s.kind != 0)
      naked := x.naked.filter (fun s => s.kind != 0)
      unacked := x.unacked.filter (fun s => s.1.kind != 0)
      cur := none }) }

/-- Every context of every cluster is free. -/
def Mach.freeContexts (m : Mach) : Mach :=
  m.onPipe (fun p => { p with clusters := p.clusters.map (fun (x : Cluster) => { x with ctx := [none, none], cur := none, ahead := none, waitAt := none, soloAt := none }) })

/-- The heat in flight is abandoned (R80, R83, R373): no COMMIT, no render, no prefetch of it goes on, and the graphic contents that it had bound
wait for the next snapshot (R178). -/
def Mach.dropHeat (m : Mach) : Mach :=
  let m := (m.freeBuffers m.heat.number).freeBuffers (m.heat.number + 1)
  let m := m.dropRays.freeContexts
  let m := m.onHeat (fun h => { h with running := false, pours := [], list := [] })
  let m := m.onPipe (fun p => { p with prefetched := [] })
  { m with
    tiles := { m.tiles with chains := m.tiles.chains.map (fun (ch : Chain) =>
      { ch with tiles := ch.tiles.map (fun (t : Tile) => { t with commits := [] }) }) }
    outs := { m.outs with shown := m.outs.shown.map (fun p => (p.1, 0)) } }

/-- Heats stop: the schedule is STOPPED, the newest applied one is in force (R79, R83), and what follows the stage follows it at once (R445). -/
def Mach.stopHeats (m : Mach) : Mach :=
  let m := match m.pipe.restart with
    | some r => m.bringIn r.epoch r.num r.den
    | none => m
  let m := (m.onPipe (fun p => { p with restart := none })).dropHeat
  let m := { m with boot := { m.boot with heatsFrom := none } }
  ((m.setN 0x5000 0x0A 0).setN 0x5300 7 (clusterClock m.stage)).observeStage.followCommons

/-- Heats are to start at the first frame tick at or after an instant (R83, R374, R533). -/
def Mach.heatsAt (m : Mach) (t : Nat) (starting : Bool) : Mach :=
  { m with boot := { m.boot with heatsFrom := some t, heatReason := 2, starting := starting } }

/-- The schedule is on its way to T1 and T2 of P2 (R453): it goes through RESTARTING, whatever restart was under way. -/
def Mach.headForP2 (m : Mach) : Mach :=
  match m.pipe.restart with
  | some _ => m
  | none =>
    let (e, n, d) := m.inForce
    let t1 := m.tickAt (m.frameNo + 1)
    let t2 := m.tickAt (m.frameNo + 2)
    let r : Restart := { phase := 1, t1 := t1, t2 := t2, after := t2 + us 1000, reason := 0, epoch := e, num := n, den := d }
    (m.onPipe (fun p => { p with restart := some r })).setN 0x5000 0x0A 3

/-! ### The tile map at a heat start (R100, R325, R327) -/

/-- The map entries accepted and waiting take effect. -/
def Mach.applyMap (m : Mach) : Mach :=
  match m.tiles.pendingMap with
  | none => m
  | some es =>
    let m := { m with tiles := { m.tiles with pendingMap := none } }.setN 0x6100 5 0
    Mach.showBands <| each (upTo 96) m (fun m c => each (upTo 10) m (fun m i =>
      let e := es.getD (10 * c + i) 0xFFFF
      let st := m.tileState c i
      let m := if e = 0xFFFF ∧ m.inMap c i ∧ st = 4 then (m.leftMap c i 2).setTile c i 3 else m
      m.onTile c i (fun t => { t with entry := e })))

/-- The READY tiles with a map entry become ACTIVE, their history in module memory (R100, R327, R351); a gain map that finds no free gain
slot waits for one, also where an ACTIVE tile has it loaded again (R357). -/
def Mach.joinTiles (m : Mach) : Eff :=
  ((upTo 96).flatMap (fun c => (upTo 10).map (fun i => (c, i)))).foldl (fun (e : Eff) t => e.then_ (fun m =>
    if m.tileState t.1 t.2 = 4 ∧ (m.load t.1 t.2 1).held.isSome then m.placeHistory t.1 t.2
    else if m.tileState t.1 t.2 ≠ 3 ∨ (m.tile t.1 t.2).entry = 0xFFFF then .of m
    else (m.placeHistory t.1 t.2).on (fun m =>
      if (m.load t.1 t.2 1).held.isSome then m
      else (m.setTile t.1 t.2 4).onTile t.1 t.2 (fun x => { x with heard := true, misses := 0 })))) (.of m)

/-! ### Pours (R158 to R162, R166) -/

/-- The tiles of the map in the order of the pour list (R166): by rank on the feeding lane, then by chain, A-fed before B-fed. -/
def Mach.pourOrder (m : Mach) : List (Nat × Nat × Nat) :=
  sortBy (fun a b => m.pourRank a.1 a.2.1 ≤ m.pourRank b.1 b.2.1) (m.mapTiles.filterMap (fun t => (m.panelFor t.1 t.2).map (fun p => (t.1, t.2, p))))

/-- The pours of the heat with their splits and removed layers, and the events of R174. -/
def Mach.makePours (m : Mach) : Mach :=
  let ls := m.layers1
  let pours := m.pourOrder.map (fun t => makePour ls m.heat.slots m.heat.shear t.1 t.2.1 t.2.2)
  let m := m.onHeat (fun h => { h with pours := pours, list := pours.map (fun p => (p.panel, 1)) })
  let h := m.heat.number
  let split := pours.filter (fun p => 1 < p.bands)
  let m := if split ≠ [] ∧ !m.pipe.splitBefore then
      m.raise 0x6010 0 [(8, h), (2, split.length), (1, (split.map Pour.bands).foldl max 0)]
    else m
  let m := m.onPipe (fun p => { p with splitBefore := decide (split ≠ []) })
  match pours.find? (fun p => p.removed != []) with
  | none => m
  | some p =>
    let order (i : Nat) : Nat := ((ls.find? (fun l => l.id = i)).map RayLayer.order).getD 0
    m.raise 0x6011 p.panel [(8, h), (1, p.panel % 32), (1, p.panel / 32), (1, p.removed.length),
      (1, (p.removed.map order).foldl min 255)]

/-! ### Prefetch (R102 to R104) -/

/-- The columns and row windows of a layer's footprint for a tile; none when it is empty (R156). -/
def footprintOf (l : RayLayer) (slots p : Nat) : Option (Int × Int × List (Int × Int)) :=
  let rows := (rowWindows l slots (panelY p)).filterMap id
  match windowAxis l false slots (panelX p) (panelX p + 59) with
  | none => none
  | some (lo, hi) => if rows = [] then none else some (lo, hi, rows)

/-- The panel positions of the first pours that clusters take: the head of the list, one to a cluster and to a lane (R102, R166). -/
def Mach.firstPours (m : Mach) : List Nat :=
  let n := ((upTo 68).filter (fun c => m.clusterUp c)).length
  ((m.pourOrder.foldl (fun (a : List Nat × List Nat) t =>
    let l := m.feedLane t.1 t.2.1
    if a.2.contains l then a else (a.1 ++ [t.2.2], l :: a.2)) ([], [])).1).take n

/-- At t_H = −G of the next heat the ladle prefetches from the layers complete for it, sized by the descriptors in force (R102). -/
def Mach.prefetch (m : Mach) : Mach :=
  let next := m.heat.number + 1
  if !m.heat.prefetch ∨ m.pipe.restart.isSome ∨ m.power_.stop.isSome then m
  else
    let ls := (upTo 64).filterMap (fun k =>
      if !(m.vdesc k).enable then none
      else match (m.layer k).bindFor (m.vdesc k) next with
        | some (b, true) => some (b, m.rayLayer k b)
        | _ => none)
    let ports := m.firstPours.flatMap (fun p => ls.filterMap (fun bl =>
      (footprintOf bl.2 m.heat.slots p).map (fun f =>
        ({ panel := p, layer := bl.2.id, buf := bl.1.buf, x0 := f.1, x1 := f.2.1, rows := f.2.2,
           bytes := footprint bl.2 m.heat.slots (panelX p) (panelY p) 0 59 } : Portion))))
    let m := each ports m (fun m p => m.markBusy p.layer p.buf next)
    m.onPipe (fun p => { p with prefetched := ports })

/-- Whether a prefetched portion still serves: its layer is bound from the same buffer, and the latched footprint lies inside it (R103). -/
def Mach.portionServes (m : Mach) (ls : List RayLayer) (p : Portion) : Bool :=
  match ls.find? (fun l => l.id = p.layer), (m.heat.bound1.getD p.layer none) with
  | some l, some b =>
    b.buf = p.buf && (match footprintOf l m.heat.slots p.panel with
      | none => true
      | some f => p.x0 ≤ f.1 && f.2.1 ≤ p.x1 &&
          f.2.2.all (fun r => (upTo (r.2 + 1 - r.1).toNat).all (fun i => p.rows.any (fun o => o.1 ≤ r.1 + i && r.1 + i ≤ o.2))))
  | _, _ => false

/-- At the descriptor latch the portions that do not serve become dross (R103), and the squash rate is followed (R104). -/
def Mach.squash (m : Mach) : Mach :=
  let ls := m.layers1
  let all := m.pipe.prefetched
  let bad := all.filter (fun p => !m.portionServes ls p)
  let bytes := (bad.map Portion.bytes).sum
  let m := (m.noteRead bytes).onHeat (fun h => { h with
    dross := bytes
    refetches := bad.length
    portions := all.length
    pours := h.pours.map (fun x => if bad.any (fun p => p.panel = x.panel) then { x with squashed := true } else x) })
  let m := m.onPipe (fun p => { p with prefetched := [] })
  if all.length < 10 * bad.length then
    let n := m.pipe.squashHigh + 1
    let total := (if n = 1 then 0 else m.pipe.squashed) + bad.length
    let tell := n = 60 ∧ 60 ≤ m.pipe.squashLow
    let m := m.onPipe (fun p => { p with squashHigh := n, squashed := total, squashLow := if tell ∨ p.squashLow < 60 then 0 else 60 })
    if tell then m.raise 0x6009 0 [(8, m.heat.number), (4, total)] else m
  else
    m.onPipe (fun p => { p with squashHigh := 0, squashed := 0, squashLow := min 60 (p.squashLow + 1) })

/-! ### Heat start -/

/-- What a heat latches as it starts (R81, R84, R151, R172, R181, R341, R342, R344, R370). -/
def Mach.latchHeat (m : Mach) (h start : Nat) : Mach :=
  let g (k : Nat) : Nat := m.objN 0x5001 k
  let text (b d : Bytes) : Bytes := if b = [] then d else b
  let on := m.mapTiles.filterMap (fun t => (m.panelFor t.1 t.2).map (fun p => (p, (m.tile t.1 t.2).band)))
  m.onPipe (fun p => { p with
    newSets := []
    heat := {
      running := true, number := h, start := start, slots := m.slotsFor
      guard_ := g 1, margin := g 2, perChain := g 4, total := g 5, policy := g 6, prefetch := decide (g 7 = 1)
      tap := m.objN 0x5400 1, shear := m.objN 0x5300 1, ceiling := m.driveCeiling
      weights := text (m.str 0x6201 0) defaultWeights, tempWeights := text (m.str 0x6202 0) defaultTempWeights
      filters := (upTo 64).map (fun k => m.objN 0x5301 (k + 1)), sets := (upTo 3).map (fun i => m.str (0x5311 + i) 0)
      bound1 := List.replicate 64 none, bound2 := List.replicate 64 none
      dark := m.darkTiles, regions := (upTo 16).filter (fun r => m.objB (0x5420 + r) 1)
      bands := on.filter (fun b => b.2 != 3)
      gains := (on.map (fun t => (t.1, m.objN 0x6211 7 t.1))).filter (fun b => b.2 != b.1) } })

/-- Heat h starts at its tick: the map, the latches, the readiness snapshot, the pours, the first contexts (R85, R90 to R95, R100, R103,
R120, R125, R161, R166). `restarted` says that it is the first after a restart or start. -/
def Mach.beginHeat (m : Mach) (h start : Nat) (restarted : Bool) : Eff :=
  m.applyMap.joinTiles.on (fun m =>
    let m := m.bindGains h
    let told := m.pipe.newSets
    let m := (m.latchHeat h start).recordFrom h
    let m := m.setN 0x5300 2 (contextCapacity m.heat.shear)
    let m := each told m (fun m s => m.raise 0x6015 s [(8, h), (1, s)])
    let m := (m.latchDescriptors h restarted).dropMisfits
    let m := each (upTo 64) m (fun m k => m.snapLayer h k)
    let m := m.bindGraphics h
    let m := m.freeContexts.makePours.squash
    let m := m.armCapture h
    let m := if m.coreUp 2 then m.beginCheckpoints h 4 else m
    m.assign.rescheduleAll)

/-! ### The re-pour decision (R96, R97) -/

/-- The late layers that are complete by now. -/
def Mach.lateComplete (m : Mach) : List (Nat × Bound) :=
  (upTo 64).filterMap (fun k =>
    if !m.heat.late.testBit k then none
    else match (m.layer k).bindFor (m.vdesc k) m.heat.number with
      | some (b, true) => some (k, b)
      | _ => none)

/-- A provisional version 1 is one of an affected pour whose render began before the instant now: t_D, and t_L with no version 2
admitted (R95). -/
def Mach.endProvisional (m : Mach) : Mach :=
  m.onPours (fun p => if p.mask &&& m.heat.late != 0 ∧ 3 ≤ p.v1.state ∧ p.v1.state ≤ 10 then { p with provisional := true } else p)

/-- The decision at t_D (R96, R97): the v2 set is fixed, and version 2 admitted or declined; both buffers of a layer of the set stay bound, and
so are not written, until t_C (R126, R127). -/
def Mach.decide_ (m : Mach) (v2 : List (Nat × Bound)) : Mach :=
  let m := m.endProvisional
  let set_ := v2.foldl (fun a k => a + 2 ^ k.1) 0
  let hit (p : Pour) : Bool := p.mask &&& set_ != 0 && p.v1.state != 11
  let hits := m.heat.pours.filter hit
  let most := ((upTo 96).map (fun c => (hits.filter (fun p => p.c = c)).length)).foldl max 0
  let ok : Bool := m.heat.perChain != 0 && m.heat.total != 0 && decide (most ≤ m.heat.perChain) && decide (hits.length ≤ m.heat.total)
  let m := m.onHeat (fun h => { h with
    decision := some (m.tHus, set_)
    affected := hits.length
    admitted := ok
    bound2 := v2.foldl (fun l k => setAt l k.1 (some k.2)) h.bound2 })
  let m := each v2 m (fun m k =>
    let m := match m.heat.bound1.getD k.1 none with
      | some b => m.markBusy k.1 b.buf m.heat.number
      | none => m
    m.markBusy k.1 k.2.buf m.heat.number)
  if !ok then m.raise 0x6005 0 [(8, m.heat.number), (2, hits.length), (1, most)]
  else
    let first := (m.pourOrder.filter (fun t => hits.any (fun p => p.panel = t.2.2))).map (fun t => (t.2.2, 2))
    let peak2 (p : Pour) : Nat := bandPeak (m.pourLayers p 2) m.heat.slots (panelX p.panel) (panelY p.panel) p.bands
    let m := m.onPours (fun p => if hit p then { p with v2 := { state := 1 }, peak2 := peak2 p } else p)
    (m.onHeat (fun h => { h with list := first ++ h.list })).assign.rescheduleAll

/-- Whether the decision is still open. -/
def Mach.undecided (m : Mach) : Bool :=
  m.heat.running && !m.heat.resolved && m.heat.decision.isNone && !m.heat.cutOff && m.heat.late != 0

/-- A content became complete: the decision is taken once every late layer is complete, at or before t_L (R96). -/
def Mach.checkDecision (m : Mach) : Mach :=
  if !m.undecided ∨ m.cutOffAt < m.timeWord then m
  else
    let done := m.lateComplete
    if done.length = ((upTo 64).filter (fun k => m.heat.late.testBit k)).length then m.decide_ done else m

/-- LATE_CUT_OFF: at t_L the decision is taken with the late layers then complete (R96). Where no version 2 was admitted, version 1 of an
affected pour that began to render before t_L has been provisional until now (R95). -/
def lateCutOff (m : Mach) : Mach :=
  if !m.heat.running ∨ m.heat.resolved ∨ m.heat.cutOff ∨ m.timeWord < m.cutOffAt then m
  else
    let m := if m.undecided then match m.lateComplete with
        | [] => m.endProvisional
        | done => m.decide_ done
      else if m.heat.decision.isSome ∧ !m.heat.admitted then m.endProvisional
      else m
    m.onHeat (fun h => { h with cutOff := true })

/-! ### The commit point (R98, R101) -/

/-- A version that is not RECEIVED by t_C is MISSED (R89). -/
def Ver.miss (v : Ver) : Ver := if 1 ≤ v.state ∧ v.state ≤ 5 then { v with state := 9 } else v

/-- A version takes a state. -/
def Ver.dest (v : Ver) (st : Nat) : Ver := { v with state := st }

/-- A RECEIVED version that is not shown (R89). -/
def Ver.discard (v : Ver) : Ver := if v.state = 6 then v.dest 10 else v

/-- How R98 leaves the versions of a pour: whether it is affected, whether v2_ok holds, whether the panel repeats. -/
def Pour.resolve (p : Pour) (affected ok repeat_ : Bool) : Pour :=
  if p.v1.state = 11 then p
  else if repeat_ then { p with v1 := p.v1.discard, v2 := p.v2.discard }
  else if affected then
    if ok then { p with v1 := p.v1.discard, v2 := p.v2.dest 7 }
    else { p with v1 := if p.v1.state = 6 then p.v1.dest 7 else p.v1, v2 := if p.v2.state = 6 then p.v2.dest 8 else p.v2 }
  else { p with v1 := if p.v1.state = 6 then p.v1.dest 7 else p.v1 }

/-- An entry of the pour snapshot (R108). -/
def Pour.entry (p : Pour) : Bytes :=
  let got (v : Ver) : Bytes := beBytes 4 (match v.received with
    | some t => t
    | none => 0xFFFFFFFF)
  beBytes 1 (p.panel % 32) ++ beBytes 1 (p.panel / 32) ++ beBytes 1 p.v1.state ++ beBytes 1 p.v2.state ++
    beBytes 1 (8 * bit (decide (1 < p.bands)) + 4 * bit p.squashed + 2 * bit p.provisional + 1) ++ [0, 0, 0] ++
    got p.v1 ++ got p.v2 ++ beBytes 8 p.mask

/-- The entry of a panel position without a tile. -/
def emptyEntry (p : Nat) : Bytes :=
  beBytes 1 (p % 32) ++ beBytes 1 (p / 32) ++ List.replicate 6 0 ++ List.replicate 8 0xFF ++ List.replicate 8 0

/-- The outcome of R106. -/
def Heat.outcome (h : Heat) (repeat_ : Bool) : Nat :=
  if h.late = 0 then 0
  else if h.decision.isNone then 1
  else if !h.admitted then 2
  else if repeat_ then 5
  else if h.v2ok then 3 else 4

/-- Resolution of the heat in flight (R98, R101): the versions, the control blocks, the hold counts. The answer says whether the panel
repeats and how many tiles were MISSED. -/
def Mach.resolve (m : Mach) : Mach × Bool × Nat :=
  let m := if !m.heat.admitted ∧ !m.heat.cutOff then m.endProvisional else m
  let m := m.onPours (fun p => { p with v1 := p.v1.miss, v2 := p.v2.miss })
  let h := m.heat
  let v2 := (h.decision.map Prod.snd).getD 0
  let hit (p : Pour) : Bool := h.admitted && p.mask &&& v2 != 0 && p.v1.state != 11
  let ok : Bool := h.admitted && h.pours.all (fun p => !hit p || p.v2.state = 6)
  let misses := (h.pours.filter (fun p => p.v1.state != 11 && !((hit p && ok) || p.v1.state = 6))).length
  let repeat_ : Bool := h.policy = 1 && misses != 0
  let m := each h.pours m (fun m p =>
    if p.v1.state = 11 then m
    else
      let m := if hit p ∧ (repeat_ ∨ !ok) then m.sendCommit p.c p.pos h.number 2 true else m
      if repeat_ then m
      else if hit p ∧ ok then m.sendCommit p.c p.pos h.number 2 false
      else if p.v1.state = 6 then m.sendCommit p.c p.pos h.number 1 false
      else m)
  let m := m.onHeat (fun x => { x with resolved := true, v2ok := ok && !repeat_, pours := x.pours.map (fun p => p.resolve (hit p) ok repeat_) })
  let m := if ok ∧ !repeat_ then each (upTo 64) m (fun m k => if v2.testBit k then m.setN 0x5004 (k + 1) 0 else m) else m
  (m, repeat_, misses)

/-- The status objects and counters of a resolved heat (R106 to R108, R173). -/
def Mach.postHeat (m : Mach) (repeat_ : Bool) : Mach :=
  let h := m.heat
  let v2 := (h.decision.map Prod.snd).getD 0
  let missed := (h.pours.filter (fun p => p.v1.state != 11 && p.committed = 0)).length
  let got := (h.pours.flatMap (fun p => [p.v1.received, p.v2.received])).filterMap id
  let last := got.foldl max 0
  let tc : Int := ((m.commitAt - h.start) / us 1 : Nat)
  let out := h.outcome repeat_
  let m := m.sets 0x5002 [(1, h.number), (2, h.late), (3, h.held), (4, h.transparent), (5, v2), (6, (out : Nat)), (7, h.affected),
    (8, missed), (9, bitI repeat_), (0x0A, ((h.decision.map Prod.fst).getD 0 : Nat)), (0x0B, (last : Nat)), (0x0C, tc - last),
    (0x0D, h.dross), (0x0E, h.refetches)]
  let m := ((m.bumpSat 0x5003 1).bumpSat 0x5003 2 (bit (h.late != 0))).bumpSat 0x5003 3 (bit (out = 3))
  let m := ((m.bumpSat 0x5003 4 (bit (out = 4 || out = 5))).bumpSat 0x5003 5 (bit (out = 2))).bumpSat 0x5003 6 missed
  let m := (m.bumpSat 0x5003 7 (bit repeat_)).bumpSat 0x5003 9 h.refetches
  let wait := h.waitTime + ((m.pipe.clusters.map (fun (x : Cluster) => match x.waitAt with | some t => m.now - t | none => 0)).sum)
  let solo := h.soloTime + ((m.pipe.clusters.map (fun (x : Cluster) => match x.soloAt with | some t => m.now - t | none => 0)).sum)
  let bands := h.pours.map Pour.bands
  let m := m.sets 0x5304 [(1, h.number), (2, h.rays), (3, h.blends), (4, h.early), (5, h.planeBytes), (6, ((h.pours.flatMap (fun p => [p.peak, p.peak2])).foldl max 0 : Nat)),
    (7, ((bands.filter (1 < ·)).length : Nat)), (8, (bands.foldl max 1 : Nat)), (9, ((h.pours.filter (fun p => p.removed != [])).length : Nat)),
    (0x0A, (solo / us 1 : Nat)), (0x0B, (wait / us 1 : Nat)), (0x0C, h.lastRender), (0x0D, h.reissues)]
  m.onPipe (fun p => { p with snapshot := h.pours.map (fun x => (x.panel, x.entry)) })

/-- The events of a resolved heat (R109). `misses` are the tiles that received no version they could show. -/
def Mach.tellHeat (m : Mach) (repeat_ : Bool) (misses : Nat) : Mach :=
  let h := m.heat
  let v2 := (h.decision.map Prod.snd).getD 0
  let out := h.outcome repeat_
  let got := (h.pours.filter (fun p => p.v2.received.isSome)).length
  let m := if out = 3 then m.raise 0x6003 0 [(8, h.number), (2, h.affected), (8, v2)]
    else if out = 4 ∨ out = 5 then m.raise 0x6004 0 [(8, h.number), (2, h.affected), (2, got), (1, out)]
    else m
  if repeat_ then m.raise 0x6007 0 [(8, h.number), (2, misses)]
  else if misses = 0 then m
  else
    let gone := (h.pours.filter (fun p => p.v1.state != 11 && p.committed = 0)).map Pour.panel
    let p := gone.foldl min 960
    m.raise 0x6006 0 [(8, h.number), (2, misses), (1, p % 32), (1, p / 32)]

/-- COMMIT_POINT: at t_C the heat is resolved (R98), its status posted, its observers served, incomplete contents abandoned (R124), the
snapshots of checkpoints taken (R354), and the prefetch of the next heat begins (R102). -/
def commitPoint (c : Ctx) (m : Mach) : Eff :=
  if !m.heat.running ∨ m.heat.resolved ∨ m.timeWord < m.commitAt then .of m
  else
    let (m, repeat_, misses) := m.resolve
    let m := (m.postHeat repeat_).tellHeat repeat_ misses
    let h := m.heat.number
    let m := m.dropRays.freeContexts
    (((m.snapCheckpoints c h m.commitAt).then_ (fun m => m.assemblePreviews c)).then_ (fun m => m.capture c)).on (fun m =>
      (((m.postSignatures c).abandonPast h).freeBuffers h).prefetch.feedEncode)

/-! ### A step of the time word (R80) -/

/-- The time word was stepped: the heat in flight is abandoned, every tile blanked, and the schedule restarts. With a stop of heats pending
they stop here, and the stop goes on from this instant. While STOPPED with a start of heats pending the spec is silent: that start moves to
the first frame tick at least 1,000 µs after the step, with no BLANK and its own reason (DESIGN CHOICE, log entry 81). -/
def Mach.restartAfterStep (m : Mach) : Mach :=
  let later := m.timeWord + us 1000
  if !m.scheduled then { m with boot := { m.boot with heatsFrom := m.boot.heatsFrom.map (fun _ => later) } }
  else
    let m := m.dropHeat.toAll (.blank 0xF 0 1)
    if m.power_.stop.isSome then m.stopHeats
    else
      let m := m.endCapture 3
      let (e, n, d) := match m.pipe.restart with
        | some r => (r.epoch, r.num, r.den)
        | none => m.inForce
      let t := m.timeWord
      let r : Restart := { phase := 3, t1 := t, t2 := t, after := later, reason := 1, epoch := e, num := n, den := d }
      (m.onPipe (fun p => { p with restart := some r })).setN 0x5000 0x0A 3

end Sys2Proof.Machine
end

