-- ==== Sys2Proof/Machine/Ptp.lean ====
section
/-! DEFINITION. Network time (14): status and uncertainty (R419, R424), sleep (R425), steps and the servo (R410, R420), the domains (R413 to
R418), sync outputs (R427 to R430) and sync inputs (R431). -/

namespace Sys2Proof.Machine

/-! ### Status and uncertainty -/

/-- Changes PTP, outputs and inputs. -/
def Mach.onPtp (m : Mach) (f : Ptp → Ptp) : Mach := { m with ptp := f m.ptp }

/-- Changes the time unit. -/
def Mach.onClk (m : Mach) (f : Clk → Clk) : Mach := { m with clk := f m.clk }

/-- The time status: 0 UNKNOWN, 1 ACQUIRING, 2 LOCKED, 3 HOLDOVER, 4 FREE_RUN. -/
def Mach.timeStatus (m : Mach) : Nat := m.objN 0x3000 1

/-- A sync output. -/
def Mach.syncOut (m : Mach) (o : Nat) : SyncOut := m.ptp.outs.getD o {}

/-- Changes a sync output. -/
def Mach.onSyncOut (m : Mach) (o : Nat) (f : SyncOut → SyncOut) : Mach := m.onPtp (fun p => { p with outs := modAt p.outs o f })

/-- The line level of an output without a pulse: the inactive level, or the level held (R427, R428). -/
def SyncSet.idle (x : SyncSet) : Bool := (x.mode = 5 && x.level = 1) != (x.polarity = 1)

/-- An output's pulse ends. -/
def Mach.endPulse (m : Mach) (o : Nat) (t : Int) : Mach :=
  (m.onSyncOut o (fun x => { x with active := false })).emit (.syncEdge o (m.syncOut o).set_.idle t)

/-- The pulses of modes 1 to 4 end at once: the module is QUENCHED, or the outputs are undriven (R430). -/
def Mach.cutPulses (m : Mach) : Mach :=
  each ((upTo 8).filter (fun o => (m.syncOut o).active)) m (fun m o => m.endPulse o m.timeWord)

/-- The sync outputs become driven, or undriven, with their power (R430). -/
def Mach.driveOutputs (m : Mach) (on : Bool) : Mach := m.emit (.syncDrive on m.timeWord)

/-- Where the status is not LOCKED, the outputs with a lock gate hold their inactive level, a pulse in flight included (R428). -/
def Mach.gateLock (m : Mach) : Mach :=
  if m.timeStatus = 2 then m
  else each ((upTo 8).filter (fun o => (m.syncOut o).active && (m.syncOut o).set_.lockGate)) m (fun m o => m.endPulse o m.timeWord)

/-- The time status changes (R419). -/
def Mach.setStatus (m : Mach) (st : Nat) : Mach := (m.setN 0x3000 1 st).gateLock

/-- A time in 2⁻¹⁶ ns rounded up to whole nanoseconds. -/
def nsUp (t : Nat) : Nat := ceilDiv t 65536

/-- All ones of a U64: unknown (R424). -/
def unknown64 : Nat := 2 ^ 64 - 1

/-- u(t) of R424 in ns, rounded up, for u0 and t in 2⁻¹⁶ ns: 10 ppb · t and half of 0.1 ppb/s · t². -/
def driftUp (u0 t : Nat) : Nat :=
  let s := perSecond
  ceilDiv (20 * s * s * u0 + 65536 * (200 * t * s + t * t)) (65536 * 20 * s * s)

/-- As `driftUp`, in 2⁻¹⁶ ns. -/
def driftFine (u0 t : Nat) : Nat :=
  let s := perSecond
  ceilDiv (20 * s * s * u0 + 65536 * (200 * t * s + t * t)) (20 * s * s)

/-- The uncertainty in force in ns (0x3000:08); none while unknown. -/
def Mach.uncertainty (m : Mach) : Option Nat :=
  match m.timeStatus with
  | 1 => some (7 + nsUp (m.obj (0x3010 + m.objN 0x3000 2) 8).natAbs)
  | 2 => some 7
  | 3 => m.clk.u0.map (fun u => driftUp u (m.now - m.clk.holdAt))
  | _ => none

/-- The uncertainty in force in 2⁻¹⁶ ns, as a latch of the time takes it (R425); none while unknown. -/
def Mach.uncertaintyFine (m : Mach) : Option Nat :=
  match m.timeStatus with
  | 3 => m.clk.u0.map (fun u => driftFine u (m.now - m.clk.holdAt))
  | _ => m.uncertainty.map ns

/-- The status becomes HOLDOVER (R424) with u0 in 2⁻¹⁶ ns. -/
def Mach.holdover (m : Mach) (u0 : Option Nat) : Mach :=
  let before := m.timeStatus
  let m := (m.onClk (fun k => { k with u0 := u0, holdAt := m.now })).sets 0x3000 [(1, 3), (0x0E, m.timeWord)]
  let m := m.gateLock
  m.raise 0x4002 0 [(1, before), (8, (u0.map nsUp).getD unknown64)]

/-- The increments of the last 16 s. -/
def Mach.lateIncs (m : Mach) : List Nat := (m.ptp.incs.filter (fun x => m.now < x.1 + sec 16)).map Prod.snd

/-- Entry to HOLDOVER while no domain is active (R419, R420, R424): the increment is frozen at its mean. -/
def Mach.loseTime (m : Mach) : Mach :=
  let l := m.lateIncs
  let m := if l = [] then m else m.setN 0x3000 9 (l.sum / l.length)
  match m.timeStatus with
  | 1 => m.holdover (some (m.obj (0x3010 + m.objN 0x3000 2) 8).natAbs)
  | 2 => m.holdover (some (ns 7))
  | 4 => m.holdover none
  | _ => m

/-! ### Sleep (R425) -/

/-- On entry to P3 or P4 the time word and its uncertainty are latched at the next AO edge, and the time unit stops. -/
def Mach.latchTime (m : Mach) : Mach :=
  if m.clk.latched.isSome then m else
  let left := aoPeriod - m.clk.aoPhase
  let u := m.uncertaintyFine
  m.onClk (fun k => { k with
    reg := k.reg + left * m.objN 0x3000 9 / 65536
    mono := k.mono + left
    ao := k.ao + 1
    aoPhase := 0
    latched := some ((k.reg + left * m.objN 0x3000 9 / 65536) / 65536)
    latchedU := u
    aoAtLatch := k.ao + 1 })

/-- On wake the time word is the latched value and the AO periods since; the status is HOLDOVER unless it is UNKNOWN. -/
def Mach.wakeTime (m : Mach) : Mach :=
  match m.clk.latched with
  | none => m
  | some t =>
    let n := m.clk.ao - m.clk.aoAtLatch
    let slept := n * aoPeriod
    let u0 := m.clk.latchedU.map (fun u => u + ns 100 + ceilDiv slept 50000)
    let m := m.onClk (fun k => { k with reg := (t + slept) * 65536, latched := none, latchedU := none })
    let m := (m.setN 0x3000 0x10 (slept / ms 1)).setN 0x3000 2 0xFF
    let m := if m.timeStatus = 0 then m
      else ((m.onClk (fun k => { k with u0 := u0, holdAt := m.now })).sets 0x3000 [(1, 3), (0x0E, m.timeWord)]).gateLock
    m.raise 0x4007 0 [(8, n), (8, (u0.map nsUp).getD unknown64)]

/-! ### Steps (R410, R420) -/

/-- The nearest value that an I64 holds. -/
def toI64 (v : Int) : Int := max (-(2 ^ 63 : Nat)) (min (2 ^ 63 - 1 : Nat) v)

/-- Whether a step may be made: at most one in any 1 s. -/
def Mach.mayStep (m : Mach) : Bool :=
  match m.ptp.lastStep with
  | none => true
  | some t => decide (t + sec 1 ≤ m.now)

/-- Active pulses end at a step, and no leading edge falls within 1 ms after it (R430). -/
def Mach.stepOutputs (m : Mach) : Mach :=
  let ended := (upTo 8).filter (fun o => (m.ptp.outs.getD o {}).active)
  let m := m.onPtp (fun p => { p with ticks := [], outs := p.outs.map (fun (x : SyncOut) =>
    { x with active := false, lastEdge := none, holdOff := some (m.timeWord + ms 1 : Nat) }) })
  each ended m (fun m o => m.emit (.syncEdge o (m.ptp.outs.getD o {}).set_.idle m.timeWord))

/-- A step of the time word by a signed value in 2⁻¹⁶ ns, with its reason (R80, R410, R420, R435). One below 0 s is refused. -/
def Mach.stepTime (m : Mach) (by_ : Int) (reason : Nat) : Mach :=
  if (m.clk.reg : Int) + by_ * 65536 < 0 then m
  else
    let m := m.onClk (fun k => { k with reg := (k.reg + by_ * 65536).toNat })
    let m := (m.onPtp (fun p => { p with lastStep := some m.now })).stepOutputs
    let m := (m.bump 0x3000 0x0A).set 0x3000 0x0B (toI64 by_)
    (m.raise 0x4004 0 [(8, toUnsigned 64 (toI64 by_)), (1, reason)]).restartAfterStep

/-! ### The servo (R409, R420) -/

/-- The increment that a domain's rate and a correction within the slew limit give, clamped as the time unit clamps it. -/
def incrementFor (rate : Int) (slew : Nat) (correction : Int) : Nat :=
  let one : Int := 4294967296
  let lim := one * slew / 1000000
  let i := one + one * rate / 1000000000000 + max (-lim) (min lim correction)
  (max (one * 9998 / 10000 + 1) (min (one * 10002 / 10000) i)).toNat

/-- Firmware writes the increment: the active domain's rate and a free correction (log entry 7). -/
def Mach.slew (m : Mach) (d : Nat) : Mach :=
  let i := incrementFor (m.obj (0x3010 + d) 0x0A) (m.objN 0x3000 7) (Config.servoCorrection m.free).toInt
  let m := (m.setN 0x3000 9 i).draw
  m.onPtp (fun p => { p with incs := (m.now, i) :: p.incs.filter (fun x => m.now < x.1 + sec 16) })

/-! ### The active domain (R417, R418) -/

/-- A domain. -/
def Mach.dom (m : Mach) (d : Nat) : Domain := m.ptp.doms.getD d {}

/-- Changes a domain. -/
def Mach.onDom (m : Mach) (d : Nat) (f : Domain → Domain) : Mach := m.onPtp (fun p => { p with doms := modAt p.doms d f })

/-- State of a domain (0x3010+d:06). -/
def Mach.domState (m : Mach) (d : Nat) : Nat := m.objN (0x3010 + d) 6

/-- Offset o_d of a domain in 2⁻¹⁶ ns (0x3010+d:08). -/
def Mach.offsetOf (m : Mach) (d : Nat) : Int := m.obj (0x3010 + d) 8

/-- The step threshold in 2⁻¹⁶ ns. -/
def Mach.stepOver (m : Mach) : Nat := ns (m.objN 0x3000 5)

/-- Whether a domain is QUALIFIED. -/
def Mach.qualified (m : Mach) (d : Nat) : Bool := m.domState d = 3

/-- The domain that the selection mode makes active; 0xFF for none (R417). -/
def Mach.chosen (m : Mach) : Nat :=
  let a := m.qualified 0
  let b := m.qualified 1
  match m.objN 0x3000 3 with
  | 0 => if a then 0 else 0xFF
  | 1 => if b then 1 else 0xFF
  | 2 =>
    let ready : Bool := a && (!m.ptp.bTook || decide ((m.dom 0).qualifiedAt + sec (m.objN 0x3000 4) ≤ m.now))
    if ready then 0 else if b then 1 else 0xFF
  | 3 =>
    let now := m.objN 0x3000 2
    if now ≤ 1 ∧ m.qualified now then now else if a then 0 else if b then 1 else 0xFF
  | _ => 0xFF

/-- The active domain changes (R418, R420). -/
def Mach.activate (m : Mach) (dest : Nat) : Mach :=
  let from_ := m.objN 0x3000 2
  let st := m.timeStatus
  if dest = 0xFF then
    let off := (Config.switchOffset m.free).toNat
    let m := m.draw
    let m := m.loseTime
    (m.setN 0x3000 2 0xFF).raise 0x4003 0 [(1, from_), (1, 0xFF), (8, off), (1, 0)]
  else
    let o := m.offsetOf dest
    let step : Bool := st = 0 || (decide (m.stepOver < o.natAbs) && m.mayStep)
    let reason := if st = 0 then 0 else if st = 3 ∨ st = 4 then 1 else 2
    let m := m.sets 0x3000 [(2, dest), (0x0F, (m.dom dest).utc)]
    let m := m.onPtp (fun p => { p with
      aWas := p.aWas || decide (dest = 0)
      bTook := decide (dest = 1) && (p.bTook || (p.aWas && decide (m.objN 0x3000 3 = 2))) })
    let m := if st = 1 ∨ st = 2 then m else m.setStatus 1
    let m := m.raise 0x4003 0 [(1, from_), (1, dest), (8, toUnsigned 64 o), (1, bit step)]
    if step then m.stepTime o reason else m.slew dest

/-- The selection is evaluated: at a change of a domain's state, of the mode, and when the revert delay elapses (R417 to R419). -/
def Mach.select (m : Mach) : Mach :=
  let dest := m.chosen
  let m := if dest ≠ m.objN 0x3000 2 then m.activate dest else m
  if m.timeStatus = 4 ∧ m.objN 0x3000 3 ≠ 4 ∧ m.objN 0x3000 2 = 0xFF then m.loseTime else m

/-- Event 0x4006 when both domains are QUALIFIED and differ by more than the step threshold, once until they agree (R418). -/
def Mach.compareDomains (m : Mach) : Mach :=
  if !(m.qualified 0 && m.qualified 1) then m
  else
    let far := decide (m.stepOver < (m.offsetOf 0 - m.offsetOf 1).natAbs)
    let told := m.ptp.disagree
    let m := m.onPtp (fun p => { p with disagree := far })
    if far ∧ !told then m.raise 0x4006 0 [(8, toUnsigned 64 (m.offsetOf 0)), (8, toUnsigned 64 (m.offsetOf 1))] else m

/-! ### Domain states (R416) -/

/-- A domain moves to a state, with event 0x4005 and the selection evaluated. -/
def Mach.setDomain (m : Mach) (d st : Nat) : Mach :=
  if m.domState d = st then m
  else
    let m := m.setN (0x3010 + d) 6 st
    let m := m.onDom d (fun x => if st = 3 then { x with qualifiedAt := m.now }
      else { x with offsets := [], inLock := 0, outLock := 0, overStep := 0, pending := [] })
    (m.raise 0x4005 d [(1, d), (1, st), (8, ofBE (m.str (0x3010 + d) 7))]).select

/-- A domain has no timeTransmitter: LISTENING. -/
def Mach.listen (m : Mach) (d : Nat) : Mach :=
  ((m.onDom d (fun x => { x with best := none })).setStr (0x3010 + d) 7 (List.replicate 8 0)).setDomain d 1

/-- A domain is enabled or disabled (0x3010+d:01), and its instance starts anew. -/
def Mach.enableDomain (m : Mach) (d : Nat) (on : Bool) : Mach :=
  if on = decide (m.domState d ≠ 0) then m
  else if !on then
    ((m.onDom d (fun x => { x with best := none, pathAt := none, asCapable := false, request := none })).setStr (0x3010 + d) 7
      (List.replicate 8 0)).setDomain d 0
  else if m.linkUp (m.objN (0x3010 + d) 4) then m.setDomain d 1
  else m.setDomain d 4

/-- The link of a port came up or went down: the domains on it (R416). -/
def Mach.domainsOfPort (m : Mach) (p : Nat) : Mach :=
  each (upTo 2) m (fun m d =>
    if m.objN (0x3010 + d) 4 ≠ p ∨ m.domState d = 0 then m
    else if m.linkUp p then (if m.domState d = 4 then m.setDomain d 1 else m)
    else if m.domState d = 4 then m
    else ((m.onDom d (fun x => { x with best := none, pathAt := none, asCapable := false, request := none })).setStr (0x3010 + d) 7
      (List.replicate 8 0)).setDomain d 4)

/-- An interval of 2^k s. -/
def logInterval (k : Int) : Nat := if 0 ≤ k then sec (2 ^ k.toNat) else sec 1 / 2 ^ (-k).toNat

/-- Whether a message of a domain number and transport is one of a domain's profile (R412). -/
def Mach.hearsPtp (m : Mach) (d number : Nat) (udp : Bool) : Bool :=
  number = m.objN (0x3010 + d) 3 && udp = (m.objN (0x3010 + d) 2 = 0)

/-- ANNOUNCE (R412, R416): best timeTransmitter selection has chosen, or found none. -/
def announce (a : PtpAnnounce) (m : Mach) : Mach :=
  let st := m.domState a.d
  if 2 ≤ a.d ∨ st = 0 ∨ st = 4 ∨ !m.hearsPtp a.d a.number a.udp then m
  else
    let m := m.onDom a.d (fun x => { x with lastAnnounceAt := m.now, announceInterval := a.interval, utc := a.utcOffset })
    let m := if m.objN 0x3000 2 = a.d then m.set 0x3000 0x0F a.utcOffset else m
    match a.best with
    | none => if st = 1 then m else m.listen a.d
    | some g =>
      if (m.dom a.d).best = some g ∧ st ≠ 1 then m
      else
        let m := m.onDom a.d (fun x => { x with best := some g, lastSyncAt := m.now, offsets := [], pending := [] })
        (m.setStr (0x3010 + a.d) 7 (beBytes 8 g)).setDomain a.d 2

/-- ANNOUNCE_RECEIPT_TIMEOUT (R416): 3 Announce intervals without an Announce. -/
def announceReceiptTimeout (d : Nat) (m : Mach) : Mach :=
  let x := m.dom d
  if (m.domState d = 2 ∨ m.domState d = 3) ∧ x.lastAnnounceAt + 3 * logInterval x.announceInterval ≤ m.now then
    (m.bump (0x3010 + d) 0x0E).listen d
  else m

/-- SYNC_LOSS (R416): 4 Sync intervals without a usable Sync. -/
def syncLoss (d : Nat) (m : Mach) : Mach :=
  if (m.domState d = 2 ∨ m.domState d = 3) ∧ (m.dom d).lastSyncAt + 4 * logInterval (m.obj (0x3010 + d) 0x0B) ≤ m.now then m.listen d
  else m

/-! ### Syncs (R414, R415) -/

/-- o_d of R415 in 2⁻¹⁶ ns, rounded down: the asymmetry is given in ps. -/
def Mach.offset (m : Mach) (d origin : Nat) (correction : Int) (rx : Nat) : Int :=
  let asym := m.obj (0x3020 + m.objN (0x3010 + d) 4) 1
  (((origin : Int) + correction + m.obj (0x3010 + d) 9 - rx) * 1000 + asym * 65536) / 1000

/-- Whether the last 16 offsets lie within 1 µs of their mean: |16·o − Σ| ≤ 16 µs. -/
def steady (l : List Int) : Bool :=
  l.length = 16 && l.all (fun o => (16 * o - l.sum).natAbs ≤ 16 * us 1)

/-- Whether a path delay stands (R416). -/
def Mach.pathKnown (m : Mach) (d : Nat) : Bool :=
  if m.objN (0x3010 + d) 2 = 1 then (m.dom d).asCapable
  else match (m.dom d).pathAt with
    | some t => decide (m.now ≤ t + sec 16)
    | none => false

/-- The domain becomes QUALIFIED once every condition of R416 holds, whichever came last. -/
def Mach.qualify (m : Mach) (d : Nat) : Mach :=
  if m.domState d = 2 ∧ steady (m.dom d).offsets ∧ m.pathKnown d then m.setDomain d 3 else m

/-- The active domain's Sync drives the servo (R419, R420). -/
def Mach.servo (m : Mach) (d : Nat) : Mach :=
  let o := m.offsetOf d
  let x := m.dom d
  let st := m.timeStatus
  if 16 ≤ x.overStep ∧ m.mayStep then (m.setStatus 1).stepTime o 3
  else
    let m := if (st = 2 ∧ 4 ≤ x.outLock) ∨ 16 ≤ x.overStep then m.setStatus 1
      else if st = 1 ∧ 16 ≤ x.inLock then (m.setStatus 2).raise 0x4001 d [(1, d), (8, toUnsigned 64 o)]
      else m
    m.slew d

/-- A Sync whose time is known gives its domain an offset (R415, R416). -/
def Mach.takeTime (m : Mach) (d origin : Nat) (correction : Int) (rx : Nat) : Mach :=
  let o := m.offset d origin correction rx
  let lock := ns (m.objN 0x3000 6)
  let next (n : Nat) (on : Bool) : Nat := if on then min 16 (n + 1) else 0
  let m := ((m.set (0x3010 + d) 8 o).bump (0x3010 + d) 0x0C).set (0x3010 + d) 0x0A (Config.frequency m.free).toInt
  let m := m.draw.onDom d (fun x => { x with
    lastSyncAt := m.now
    lastOrigin := origin + correction
    lastRx := rx
    offsets := (o :: x.offsets).take 16
    inLock := next x.inLock (o.natAbs ≤ lock)
    outLock := next x.outLock (4 * lock < o.natAbs)
    overStep := next x.overStep (m.stepOver < o.natAbs) })
  let was := m.objN 0x3000 2 = d
  let m := m.qualify d
  (if was ∧ m.objN 0x3000 2 = d then m.servo d else m).compareDomains

/-- The Syncs whose Follow_Up has not come within one Sync interval are discarded and counted (R414). -/
def Mach.discardSyncs (m : Mach) (d : Nat) : Mach :=
  let late (p : PendingSync) : Bool := p.at_ + logInterval (m.obj (0x3010 + d) 0x0B) ≤ m.now
  let n := ((m.dom d).pending.filter late).length
  if n = 0 then m
  else (m.bump (0x3010 + d) 0x0D n).onDom d (fun x => { x with
    pending := x.pending.filter (fun p => !late p), offsets := [], inLock := 0, outLock := 0, overStep := 0 })

/-- A received time of 48-bit seconds with the upper bits that bring it nearest the time word (R422). -/
def extendTime (word t : Nat) : Nat :=
  let span := sec 1 * 2 ^ 48
  let near := t % span + word / span * span
  if near + span / 2 < word then near + span else if word + span / 2 < near ∧ span ≤ near then near - span else near

/-- The Sync intervals that a profile accepts (R412). -/
def intervalTaken (profile : Nat) (k : Int) : Bool := -7 ≤ k && k ≤ (if profile = 1 then 0 else -1)

/-- A receive stamp on a domain's port, from what the stamp point read (R421). -/
def Mach.domainRx (m : Mach) (c : Ctx) (d raw : Nat) : Nat := m.stampIn c.unit.orderX (m.objN (0x3010 + d) 4) raw

/-- A transmit stamp on a domain's port, from what the stamp point read (R421). -/
def Mach.domainTx (m : Mach) (c : Ctx) (d raw : Nat) : Nat := m.stampOut c.unit.orderX (m.objN (0x3010 + d) 4) raw

/-- SYNC (R412, R414): from the selected timeTransmitter of a domain that has one. -/
def sync_ (s : PtpSync) (c : Ctx) (m : Mach) : Mach :=
  let rx := m.domainRx c s.d s.rx
  let st := m.domState s.d
  if 2 ≤ s.d ∨ !(st = 2 ∨ st = 3) ∨ !s.selected ∨ !intervalTaken (m.objN (0x3010 + s.d) 2) s.interval ∨ !m.hearsPtp s.d s.number s.udp then m
  else
    let m := m.set (0x3010 + s.d) 0x0B s.interval
    let m := m.discardSyncs s.d
    if s.twoStep then m.onDom s.d (fun x => { x with pending := x.pending.filter (fun p => p.seq != s.seq) ++ [⟨s.seq, s.correction, rx, m.now⟩] })
    else m.takeTime s.d (extendTime m.timeWord s.origin) s.correction rx

/-- FOLLOW_UP (R414): the time of the Sync with its number, where that came within one Sync interval; an injection discards it (R523). -/
def followUp_ (d seq origin : Nat) (correction : Int) (m : Mach) : Mach :=
  match (m.dom d).pending.find? (fun p => p.seq = seq) with
  | none => m
  | some p =>
    if p.at_ + logInterval (m.obj (0x3010 + d) 0x0B) < m.now then m
    else if m.armedAt 21 d then m.acted
    else
      let m := m.onDom d (fun x => { x with pending := x.pending.filter (fun p => p.seq != seq) })
      m.takeTime d (extendTime m.timeWord origin) (p.correction + correction) p.rx

/-- FOLLOW_UP_WINDOW_EXPIRY (R414): one Sync interval has passed. -/
def followUpWindowExpiry (d : Nat) (m : Mach) : Mach := m.discardSyncs d

/-! ### Path delay (R413, R415) -/

/-- DELAY_REQ: an instance sends its delay request, with its transmit stamp: end-to-end to a selected timeTransmitter, peer-to-peer while
the link is up. -/
def delayReq (d tx : Nat) (c : Ctx) (m : Mach) : Mach :=
  let tx := m.domainTx c d tx
  let st := m.domState d
  let peer := m.objN (0x3010 + d) 2
  if 2 ≤ d ∨ st = 0 ∨ st = 4 ∨ (peer = 0 ∧ st = 1) then m
  else
    let n := ((m.dom d).seq + 1) % 65536
    (m.onDom d (fun x => { x with seq := n, request := some (n, tx) })).emit
      (.ptp d peer n tx (m.objN (0x3010 + d) 3) (peer = 0 && m.objN (0x3010 + d) 5 = 1))

/-- DELAY_RESP: meanPathDelay from the last Sync used and the answered request. -/
def delayResp (d seq rx : Nat) (correction : Int) (m : Mach) : Mach :=
  let x := m.dom d
  match x.request with
  | none => m
  | some (n, tx) =>
    if n ≠ seq ∨ m.objN (0x3010 + d) 2 ≠ 0 ∨ x.offsets = [] then m
    else
      let path : Int := ((x.lastRx - tx) + (extendTime m.timeWord rx - x.lastOrigin) - correction) / 2
      (((m.set (0x3010 + d) 9 path).onDom d (fun x => { x with request := none, pathAt := some m.now })).qualify d).compareDomains

/-- PDELAY_RESP with its follow-up: the neighbour delay, and asCapable at or below 800 ns (R412). -/
def pdelayResp (d seq reqRx respTx rx : Nat) (correction : Int) (c : Ctx) (m : Mach) : Mach :=
  let rx := m.domainRx c d rx
  match (m.dom d).request with
  | none => m
  | some (n, tx) =>
    if n ≠ seq ∨ m.objN (0x3010 + d) 2 ≠ 1 then m
    else
      let path : Int := (((rx : Int) - tx) - ((extendTime m.timeWord respTx : Int) - extendTime m.timeWord reqRx) - correction) / 2
      (((m.set (0x3010 + d) 9 path).onDom d (fun x =>
        { x with request := none, pathAt := some m.now, asCapable := path ≤ (ns 800 : Nat) })).qualify d).compareDomains

/-- PDELAY_REQ (R413): answered two-step by a peer-to-peer instance. -/
def pdelayReq (d seq rx tx : Nat) (c : Ctx) (m : Mach) : Mach :=
  let rx := m.domainRx c d rx
  let tx := m.domainTx c d tx
  let st := m.domState d
  if 2 ≤ d ∨ st = 0 ∨ st = 4 ∨ m.objN (0x3010 + d) 2 ≠ 1 then m
  else (m.emit (.ptp d 2 seq rx (m.objN (0x3010 + d) 3) false)).emit (.ptp d 3 seq tx (m.objN (0x3010 + d) 3) false)

/-- REVERT_DELAY_EXPIRY (R417): the selection is evaluated. -/
def revertDelayExpiry (m : Mach) : Mach := m.select

/-- SELECTION_MODE_WRITE (R417, R419). -/
def Mach.writeSelection (m : Mach) (v : Nat) : Mach := (m.setN 0x3000 3 v).select

/-- TIME_SET (R420, R433): in selection mode FREE_RUN the time word is stepped to the written time. -/
def Mach.setTime (m : Mach) (t : Nat) : Except Nat Mach :=
  if m.objN 0x3000 3 ≠ 4 ∨ !m.mayStep then .error abPrecondition
  else .ok ((m.setStatus 4).stepTime ((t : Int) - m.timeWord) 4)

/-! ### Sync outputs (R427 to R430) -/

/-- The staged settings of an output (0x3110+o:01 to :0B). -/
def Mach.stagedOut (m : Mach) (o : Nat) : SyncSet :=
  let g (k : Nat) : Nat := m.objN (0x3110 + o) k
  { mode := g 1, polarity := g 2, offset := m.obj (0x3110 + o) 3, width := g 4, divider := g 5, slotStep := g 6, num := g 7, den := g 8,
    epoch := g 9, lockGate := m.objB (0x3110 + o) 0x0A, level := g 0x0B }

/-- The spacing of an output's reference instants as a fraction of seconds; none without any (R427). -/
def SyncSet.spacing (x : SyncSet) (n d slots : Nat) : Option (Nat × Nat) :=
  match x.mode with
  | 1 => some (n * x.divider, d)
  | 2 => some (n, d * slots)
  | 3 => some (if slots ≤ x.slotStep then (n * x.divider, d) else (n * x.slotStep, d * slots))
  | 4 => some (x.num, x.den)
  | _ => none

/-- Whether settings obey R429 under the schedule in force. -/
def Mach.outAllowed (m : Mach) (x : SyncSet) : Bool :=
  match x.spacing (m.objN 0x5000 7) (m.objN 0x5000 8) (m.objN 0x5000 9) with
  | none => true
  | some (a, b) => (x.width + 20) * b ≤ a * 1000000000 && (x.mode != 4 || decide (100 * b ≤ a * 1000000000))

/-- SYNC_OUTPUT_APPLY (R429). -/
def Mach.applyOutputs (m : Mach) : Except Nat Mach :=
  let l := (upTo 8).map m.stagedOut
  if l.all m.outAllowed then .ok ((m.onPtp (fun p => { p with staged := some (m.now, l) })).setN 0x3100 4 1)
  else .error abInconsistent

/-- The accepted settings take effect (R429): a pulse in flight completes, and no pulse begins before its end; the other lines go to their
new level. -/
def Mach.outputsInEffect (m : Mach) : Mach :=
  match m.ptp.staged with
  | none => m
  | some (t, l) =>
    if m.now < t + ms 1 then m
    else
      let moved := (upTo 8).filter (fun o => !(m.syncOut o).active && (m.syncOut o).set_.idle != (l.getD o {}).idle)
      let m := m.onPtp (fun p => { p with
        staged := none
        outs := (p.outs.zip l).map (fun (x : SyncOut × SyncSet) =>
          { x.1 with set_ := x.2, lastEdge := none, holdOff := if x.1.active then some x.1.endsAt else x.1.holdOff }) })
      let m := each moved m (fun m o => m.emit (.syncEdge o (m.syncOut o).set_.idle m.timeWord))
      (m.setN 0x3100 4 0).raise 0x4009 0 [(8, m.frameNo)]

/-- OUTPUT_SETTINGS_IN_EFFECT: 1 ms after the apply while the schedule is STOPPED (R429). -/
def outputSettingsInEffect (m : Mach) : Mach := if m.scheduled ∨ !m.coreUp 1 then m else m.outputsInEffect

/-- A number of ps in 2⁻¹⁶ ns, rounded down. -/
def ofPs (v : Int) : Int := v * 65536 / 1000

/-- A frame tick's instant, and that of a slot of its frame (R75). -/
def Ticked.start (x : Ticked) : Nat := frameTick x.epoch x.num x.den x.h
def Ticked.slot (x : Ticked) (s : Nat) : Nat := slotTick x.epoch x.num x.den x.slots x.h s

/-- A frame tick for whose ticks the outputs give pulses (R430): one that has come, or one to come of the schedule that runs, before T1 of a
restart. -/
def Mach.ticked? (m : Mach) (tick : Nat) : Option Ticked :=
  match m.ptp.ticks.find? (fun x => x.h = tick) with
  | some x => some x
  | none =>
    let (e, n, d) := m.inForce
    let inTime : Bool := match m.pipe.restart with
      | some r => m.tickAt tick < r.t1
      | none => true
    if m.ticking ∧ m.frameNo < tick ∧ inTime then some ⟨tick, e, n, d, m.slotsOf tick⟩ else none

/-- Frame tick `h` has come, and heats go on from it. -/
def Mach.noteTick (m : Mach) (h : Nat) : Mach :=
  let (e, n, d) := m.inForce
  m.onPtp (fun p => { p with ticks := ⟨h, e, n, d, m.objN 0x5000 9⟩ :: p.ticks.filter (fun x => m.timeWord < x.start + sec 2) })

/-- The leading edge of an output's pulse at frame or instant `tick` and slot `slot`, in 2⁻¹⁶ ns of the time word, where its settings have
one there (R427, R430). -/
def Mach.leading (m : Mach) (x : SyncSet) (tick slot : Nat) : Option Int :=
  let at_ (t : Nat) : Int := (t : Int) + ofPs x.offset
  match x.mode with
  | 1 => if tick % x.divider = 0 then (m.ticked? tick).map (fun k => at_ k.start) else none
  | 2 => ((m.ticked? tick).filter (fun k => slot < k.slots)).map (fun k => at_ (k.slot slot))
  | 3 =>
    let on (k : Ticked) : Bool := slot < k.slots && (if k.slots ≤ x.slotStep then slot = 0 else decide (slot % x.slotStep = 0))
    if tick % x.divider = 0 then ((m.ticked? tick).filter on).map (fun k => at_ (k.slot slot)) else none
  | 4 => some (at_ (x.epoch + tick * x.num * perSecond / x.den))
  | _ => none

/-- Whether an output may emit pulses now (R428, R430). -/
def Mach.pulses (m : Mach) (x : SyncSet) : Bool :=
  m.power ≤ 2 && m.objN 0x6401 1 != 2 && (!x.lockGate || m.timeStatus = 2)

/-- SYNC_OUTPUT_EDGE: an edge of an output falls due (R427, R428, R430): the end of its pulse, and the leading edge of the pulse at a tick
and slot (PERIODIC: the number k of its instant). A pulse that would reach the next leading edge ends 10 ns before. -/
def syncOutputEdge (o tick slot : Nat) (m : Mach) : Mach :=
  let x := m.syncOut o
  let now : Int := m.timeWord
  let lead : Option Int :=
    if !m.pulses x.set_ then none
    else match m.leading x.set_ tick slot with
      | none => none
      | some t =>
        let late : Bool := match x.lastEdge with
          | some l => decide (t ≤ l)
          | none => false
        let held : Bool := match x.holdOff with
          | some h => decide (t < h)
          | none => false
        if now < t ∨ late ∨ held then none else some t
  let stop : Int := match lead with
    | some t => min x.endsAt (t - ns 10)
    | none => x.endsAt
  let m := if x.active ∧ stop ≤ now then m.endPulse o stop else m
  match lead with
  | none => m
  | some t =>
    ((m.onSyncOut o (fun (y : SyncOut) => { y with active := true, endsAt := t + (ns y.set_.width : Nat), lastEdge := some t })).bump
      (0x3110 + o) 0x0C).emit (.syncEdge o (x.set_.polarity != 1) t)

/-! ### Sync inputs (R431) -/

/-- The phase of an instant from the nearest frame tick of the schedule in force, in ps. -/
def Mach.phaseOf (m : Mach) (t : Nat) : Int :=
  let (e, n, d) := m.inForce
  let h := firstFrame e n d t
  let next : Int := frameTick e n d h - (t : Int)
  let before : Int := (t : Int) - frameTick e n d (h - 1)
  (if h ≠ 0 ∧ before ≤ next then before else -next) * 1000 / 65536

/-- SYNC_INPUT_EDGE (R431): an edge on an enabled input, stamped on the time word. -/
def syncInputEdge (i : Nat) (falling : Bool) (stamp : Nat) (m : Mach) : Mach :=
  let ix := 0x3120 + i
  let which := m.objN ix 2
  if 2 ≤ i ∨ !m.objB ix 1 ∨ 2 < m.power ∨ !(which = 2 ∨ which = bit falling) then m
  else
    let x := m.ptp.ins.getD i {}
    let close : Bool := match x.last with
      | some t => decide (t ≤ stamp ∧ stamp < t + ns 100)
      | none => false
    if close then m.bump ix 5
    else
      let phase := m.phaseOf stamp
      let alarm := m.objN ix 7
      let far : Bool := alarm != 0 && decide (alarm * 1000 < phase.natAbs)
      let m := ((m.setN ix 3 stamp).set ix 6 phase).bump ix 4
      let m := m.onPtp (fun p => { p with ins := modAt p.ins i (fun y =>
        { last := some stamp, alarmed := far, log := (y.log ++ [(stamp, falling)]).drop (y.log.length - 63) }) })
      if far ∧ x.last.isSome ∧ !x.alarmed then m.raise 0x4008 i [(1, i), (8, toUnsigned 64 phase)] else m

end Sys2Proof.Machine
end

