-- ==== Sys2Proof/Machine/Power.lean ====
section
/-! DEFINITION. Power (15) and the stops of 19: the shedding stage (R436, R443 to R445), quench (R373, R374), the power states and their
transitions (R450 to R459), core phases (R448, R449), the orderly shutdown (R539) and the abrupt stops (R446, R447, R479, R541). -/

namespace Sys2Proof.Machine

/-! ### Demands (R436, R443) -/

/-- Changes power management. -/
def Mach.onPower (m : Mach) (f : Power → Power) : Mach := { m with power_ := f m.power_ }

/-- Thresholds of S1 to S7 in 0.1 V: line entry and exit, riser entry and exit; 0 where there is none (R443). -/
def stageThresholds : List (Nat × Nat × Nat × Nat) :=
  [(1000, 1040, 3850, 3920), (1000, 1040, 3750, 3850), (1000, 1040, 3650, 3750), (760, 800, 3500, 3650), (700, 740, 3350, 3500),
   (640, 680, 3200, 3350), (580, 0, 3100, 0)]

/-- The deepest stage demanded. -/
def Demand.stage (d : Demand) : Nat := (d.on.zipIdx.filter (fun x => x.1)).foldl (fun a x => max a (x.2 + 1)) 0

/-- One stage's demand after a value: `enter` says whether its dwell below the entry threshold is over, given since when it lies below. -/
def Demand.update (d : Demand) (now k v entry exit_ : Nat) (enter : Nat → Bool) : Demand :=
  let below := if v < entry then some ((d.below.getD k none).getD now) else none
  let above := if exit_ ≠ 0 ∧ exit_ ≤ v then some ((d.above.getD k none).getD now) else none
  let on : Bool := match below, above with
    | some t, _ => d.on.getD k false || (enter t && (d.below.getD k none).isSome)
    | none, some t => d.on.getD k false && decide (now < t + sec 2)
    | none, none => d.on.getD k false
  { below := setAt d.below k below, on := setAt d.on k on, above := setAt d.above k above }

/-- The line's demands after a half-cycle of `v` in 0.1 V: two consecutive values below the entry threshold. -/
def Demand.line (d : Demand) (now v : Nat) : Demand :=
  each (upTo 7) d (fun d k => let t := stageThresholds.getD k (0, 0, 0, 0); d.update now k v t.1 t.2.1 (fun _ => true))

/-- The riser's demands after a sample of `v` in 0.1 V: 2 ms below the entry threshold, 0.1 ms for S7. -/
def Demand.riser (d : Demand) (now v : Nat) : Demand :=
  each (upTo 7) d (fun d k =>
    let t := stageThresholds.getD k (0, 0, 0, 0)
    d.update now k v t.2.2.1 t.2.2.2 (fun since => decide (since + (if k = 6 then us 100 else ms 2) ≤ now)))

/-- The module starts anew after S7, which no exit threshold ends (R446). -/
def Demand.restart (d : Demand) : Demand := { d with on := setAt d.on 6 false }

/-- The output power available at a line voltage in 0.1 V (R436); the table gives none above 300 V, where the present one stays. -/
def availableOutput (v old : Nat) : Nat :=
  if v < 580 then 0 else if v < 700 then 250 else if v < 800 then 440 else if v < 1000 then 520 else if v ≤ 3000 then 600 else old

/-! ### Power states (R450, R451) -/

/-- The power state changes, with event 0x2010. Blocks that a duty treated as absent, and control domains woken by an access, are
reconsidered (R460, R543). -/
def Mach.setPower (m : Mach) (p cause : Nat) : Mach :=
  if m.power = p then m
  else
    let from_ := m.power
    let m := m.onPower (fun x => { x with absent := [], woken := [] })
    ((m.setN 0x2100 1 p).bump 0x2100 8).raise 0x2010 0 [(1, from_), (1, p), (1, cause)]

/-- The power state that the stage in force gives while heats run. -/
def Mach.runningState (m : Mach) : Nat := if m.stage = 0 then 0 else 1

/-- Work that ends when the module leaves P0 and P1, or stops (R235, R250, R454, R494, R539): drawing on channel 0 and calibration. -/
def Mach.endWork (m : Mach) (c : Ctx) : Eff := (m.accrueOnTime.cutDraw c).on Mach.cutCal

/-- The codec's engines stop; what they worked on starts again later (R450). -/
def Mach.stopEngines (m : Mach) : Mach :=
  { m with codec := { m.codec with decode := List.replicate 20 .idle, encode := List.replicate 4 .idle, redo := [] } }

/-- Every RUNNING host job pauses: the codec's engines lose power in P2 (R235, R450). -/
def Mach.pauseJobs (m : Mach) : Eff :=
  (upTo 8).foldl (fun (e : Eff) j => e.then_ (fun m => if m.jobState j = 2 then m.pauseJob j else .of m)) (.of m)

/-- What waits when a take-over in progress is begun again: a dead channel stays dead. -/
def TakeOver.again (t : TakeOver) : Nat × Nat := (t.logical, if t.dead then 2 else t.cause)

/-- A DRAM take-over in progress is abandoned and waits again from its first step (R454, R539), without the extents it had borrowed. -/
def Mach.abandonTakeOver (m : Mach) : Mach :=
  match m.dram.takeOver with
  | none => m
  | some t =>
    let m := match t.spare with
      | some s => m.sets (0x7010 + s) [(1, 0), (2, 0xFF)]
      | none => m
    let m := if m.objN (0x7010 + t.old) 1 = 3 then m.setN (0x7010 + t.old) 1 1 else m
    let kept := if t.spare.isSome then m.dram.borrowed else m.dram.borrowed.filter (fun b => b.1 != t.logical)
    { m with dram := { m.dram with takeOver := none, waiting := t.again :: m.dram.waiting, borrowed := kept } }.setN 0x7000 5 0

/-- Every channel in use is active (R275); those that leave self-refresh find a drift that is a free value (R277). -/
def Mach.wakeDram (m : Mach) : Mach :=
  each (upTo 36) m (fun m p =>
    if m.chanActive p && (m.chan p).selfRefresh != 0 then m.draw.leaveSelfRefresh p (Config.dramDrift m.free).toInt else m)

/-- Every channel in use is in self-refresh (R275, R454). -/
def Mach.sleepDram (m : Mach) : Mach :=
  each (upTo 36) m (fun m p => if m.chanActive p then m.onChan p (fun (ch : Channel) =>
    { ch with selfRefresh := 2, tapHeld := if ch.selfRefresh = 2 then ch.tapHeld else ch.tap }) else m)

/-- Every link goes down (R454, R539). -/
def Mach.dropLinks (m : Mach) : Eff :=
  (upTo 5).foldl (fun (e : Eff) p => e.then_ (fun m => if m.linkUp p then (m.dropLink p 0).on (fun m => m.domainsOfPort p) else .of m)) (.of m)

/-- Heats are to start 1 ms from now (R78 step 4, R83), unless the module is QUENCHED. -/
def Mach.heatsSoon (m : Mach) : Mach := if m.objN 0x6401 1 = 0 then m.heatsAt (m.timeWord + ms 1) false else m

/-! ### P2 (R83, R372, R451, R453) -/

/-- The slate engine stops, with 0x9022 where the slate was shown (R380). -/
def Mach.slateOff (m : Mach) : Mach :=
  let m := if m.objN 0x6400 9 = 1 then m.raise 0x9022 0 [(1, 0), (1, 0)] else m
  let m := m.sets 0x6400 [(9, 0), (0x0A, 0)]
  m.onPanel (fun x => { x with slate := { x.slate with dirty := false, sent := false, lit := [] } })

/-- The slate engine starts, with 0x9022: the frame numbers go on, and the lit tiles are sent the slate frame, which COMMIT at the first slate tick
shows at the second (R372, R376, R380). -/
def Mach.slateOn (m : Mach) (c : Ctx) : Mach :=
  let m := (m.sets 0x6400 [(9, 1), (0x0A, (m.slateTiles.length : Nat))]).raise 0x9022 0 [(1, 1), (1, m.slateTiles.length)]
  (m.onPanel (fun x => { x with slate := { x.slate with number := m.frameNo, tickAt := m.timeWord, lit := [] } })).sendSlate c

/-- P2 is entered at T2 (R372, R453): tiles not lit go to standby, other lanes go deep, the slate begins. -/
def Mach.enterP2 (m : Mach) (c : Ctx) : Eff :=
  ((m.stopHeats.endWork c).then_ Mach.pauseJobs).on (fun m =>
    let chain := m.objN 0x6400 1
    let lit := m.slateTiles
    let quenched : Bool := m.objN 0x6401 1 != 0
    let m := if quenched then m
      else each (upTo 96) m (fun m k =>
        if k ≠ chain then
          let m := m.sendKtl (2 * k) (.blank 0xF 1 4)
          if (upTo 10).any (fun i => m.fedFromB k i) then m.sendKtl (2 * k + 1) (.blank 0xF 1 4) else m
        else each (upTo 10) m (fun m i =>
          if m.tileState k i = 0 ∨ lit.any (fun t => t.1 = i) then m else m.toTile k i (.blank i 1 4)))
    let m := each lit m (fun m t => m.toTile chain t.1 (.configWrite t.1 0x11 2))
    let m := m.stopEngines
    let m := ((m.setPower 2 (if m.power_.shed then 1 else 0)).testConditions).followMode
    let m := if quenched then m else m.slateOn c
    m.followDeep.followCommons)

/-- P2 is left for P0 or P1 (R83, R451). -/
def Mach.leaveP2 (m : Mach) (cause : Nat) : Mach :=
  let m := (m.accrueOnTime.slateOff.dropRays).onPower (fun x => { x with shed := false })
  let m := (m.setN 0x2100 3 0xFF).setPower m.runningState cause
  (m.wakeDram.followDeep.heatsSoon).followCommons.resumeJobs

/-! ### P3 (R425, R454, R456) -/

/-- The time unit stops, and the stop is timed on the AO counter. -/
def Mach.sleepTime (m : Mach) : Mach :=
  let m := m.latchTime
  m.onPower (fun x => { x with downAt := m.now, downAo := m.clk.ao })

/-- T1 of an entry to P3 (R454): no heat runs, the tiles go to standby and the commons relax; the steps that follow have their instants. -/
def Mach.enterP3 (m : Mach) : Mach :=
  ((m.stopHeats.toAll (.blank 0xF 1 4)).slateOff.followCommons).onPower (fun x => { x with entry := some (m.now, 1) })

/-- T1 + 1 ms: codec jobs, drawing and calibration end, and a DRAM take-over in progress is abandoned (R235, R250, R454, R494). -/
def Mach.sleepWork (m : Mach) (c : Ctx) : Eff :=
  ((m.endWork c).then_ Mach.abortJobs).on (fun m =>
    m.abandonTakeOver.onPower (fun x => { x with entry := x.entry.map (fun y => (y.1, 2)) }))

/-- T1 + 2 ms: sessions end (R43), every lane is DEEP, the network ports go to wake listening (R299, R454). -/
def Mach.sleepLanes (m : Mach) : Eff :=
  (m.closeAll true).forgetShakes.dropLinks.on (fun m =>
    let m := (m.onPower (fun x => { x with entry := x.entry.map (fun y => (y.1, 3)) })).followDeep
    each (upTo 192) m (fun m l => if m.laneMode l ≠ 0 then m else (laneSleepSent l m).setRx l 1))

/-- T1 + 3 ms: every DRAM channel is in self-refresh, and the last step, for which R454 gives its end alone, follows at once (log entry 9):
the time is latched, and the domains lose power. -/
def Mach.sleepNow (m : Mach) : Mach :=
  let before := m.power
  let m := ((m.accrueOnTime.closeAll true).forgetShakes.haltDraw.stopEngines).dropRays
  let m := ((m.setPower 3 0).testConditions).followDeep
  let m := ((m.cutPulses.driveOutputs false).sleepDram.followCommons).onPower (fun x => { x with before := before, entry := none })
  m.sleepTime

/-- T1 + 3 ms: what was started since T1 + 1 ms ends as what ran before it did (R235, R250), and the module sleeps. -/
def Mach.sleepPower (m : Mach) (c : Ctx) : Eff := ((m.cutDraw c).then_ Mach.abortJobs).on Mach.sleepNow

/-- The next step of an entry to P3 once its instant has come (R454). -/
def Mach.sleepStep (m : Mach) (c : Ctx) : Eff :=
  match m.power_.entry with
  | none => .of m
  | some (t, k) =>
    if m.now < t + ms k then .of m
    else if k = 1 then m.sleepWork c
    else if k = 2 then m.sleepLanes
    else m.sleepPower c

/-- The module leaves P3 (R456): the state held before, or deeper as the stage gives. -/
def Mach.wakeP3 (m : Mach) (source unit : Nat) (c : Ctx) : Mach :=
  let asleep := (m.clk.ao - m.clk.aoAtLatch) * aoPeriod / ms 1
  let m := (m.accrueOnTime.wakeTime.wakeDram.forgetFilters).driveOutputs true
  let m := { m with net := { m.net with refillAt := m.now } }
  let dest := if m.power_.before = 2 ∨ 6 ≤ m.stage then 2 else m.runningState
  let m := m.onPower (fun x => { x with shed := x.shed || (decide (dest = 2) && decide (x.before ≠ 2)) })
  let m := (m.setPower dest 2).followDeep
  let m := (m.raise 0x2011 0 [(1, source), (1, unit), (8, asleep)]).judgePairs
  if dest = 2 then (m.slateOn c).followCommons else m.heatsSoon.followCommons

/-! ### P4 -/

/-- Supplies off (R446, R455, R539, R540): nothing but the AO island goes on, history transfers are abandoned, and the DRAM loses its contents. A wake latched meanwhile is acted on
(R509). `cause` is that of 0x2010. -/
def Mach.supplyOff (m : Mach) (cause : Nat) : Eff :=
  let m := (m.haltDraw.accrueOnTime.forgetShakes).onPanel (fun x => { x with transfers := [], checkpoints := [] })
  let m := m.onThermal (fun t => { t with tripAsked := none })
  let m := each (upTo 192) m (fun m l => (m.setTx l 0).setRx l 0)
  let m := { m with
    boot := { m.boot with step := 0, shut := 0, cores := [], heatsFrom := none, recovery := false }
    koa := { m.koa with imageWriting := none } }
  let m := if m.power ≤ 2 then m.driveOutputs false else m
  let m := (m.setN 0x2100 3 0xFF).setPower 4 cause
  let m := m.sleepTime.onPower (fun x => { x with stop := none, entry := none, shed := false, startable := x.latchedWake.isSome })
  let m := match m.power_.latchedWake with
    | some s => (m.setN 0x2100 5 s).onPower (fun x => { x with latchedWake := none })
    | none => m
  { m := m, wipe := true }

/-- Entry to P4: the host jobs not ended become ABORTED (R235), and the supplies go off. -/
def Mach.powerOff (m : Mach) (cause : Nat) : Eff := m.abortJobs.then_ (fun m => m.supplyOff cause)

/-! ### Quench (R373, R374) -/

/-- Lanes whose TX is ACTIVE. -/
def Mach.activeLanes (m : Mach) : List Nat := (upTo 192).filter (fun l => m.tx l = 4)

/-- A quench starts (R373): heats and slate stop, four copies of BLANK QUENCH from the AO block generator on every ACTIVE TX, the commons
discharge, record 0x9020. While the module is QUENCHED a written quench value has no effect (R374); the other causes go through the same steps. -/
def Mach.quench (m : Mach) (cause : Nat) : Mach :=
  if m.objN 0x6401 1 ≠ 0 ∧ cause = 4 then m
  else
    let m := ((m.stopHeats.slateOff).cutPulses).onPtp (fun p => { p with ticks := [] })
    let m := each m.activeLanes m (fun m l => each (List.replicate 4 (Ktl.blank 0xF 2 2)) m (fun m k => m.putKtl l k))
    let m := (m.sets 0x6401 [(1, 2), (2, cause), (5, (m.timeWord : Nat))]).bump 0x6401 4
    m.followCommons.raiseAO 0x9020 0 [(1, cause)]

/-- The release of a quench of cause 4 (R374). -/
def Mach.releaseQuench (m : Mach) (c : Ctx) : Except Nat Mach :=
  if m.objN 0x6401 1 ≠ 2 ∨ m.objN 0x6401 2 ≠ 4 then .error abPrecondition
  else
    let m := m.setN 0x6401 1 0
    let m := (each m.activeLanes m (fun m l => m.sendAll l (List.replicate 4 (.wake 0xF)))).followCommons
    let m := if m.power ≤ 1 ∧ m.boot.shut < 2 ∧ 8 ≤ m.boot.step then m.heatsAt (m.timeWord + ms 11) false
      else if m.power = 2 ∧ m.boot.shut < 2 then m.slateOn c else m
    .ok (m.raise 0x9021 0 [])

/-! ### The abrupt stops (R446, R447, R479, R540, R541) -/

/-- A shakeout in progress ends INCOMPLETE (R509). -/
def Mach.cutShakeout (m : Mach) : Mach := if m.boot.shut = 5 then m.setN 0x7C00 0x0A 3 else m

/-- The short stop after a quench: a calibration run is ABORTED (R494), flash writes are abandoned (R540), sessions end, by S7 and an abrupt loss (causes 1 and 2) without CLOSE
(R43), supplies off. `stop` is the cause that the next 0x1004 reports; the record written last decided it. -/
def Mach.shortStop (m : Mach) (stop cause decided : Nat) : Eff :=
  let m := (m.cutShakeout.closeAll (stop != 1 && stop != 2)).onPower (fun x => { x with lastStop := stop, decided := decided })
  let m := m.cutCal.onCalib (fun x => { x with run := { x.run with slot := none } })
  m.powerOff cause

/-- Whether the module has not reached P4: what the AO island guards. -/
def Mach.alive (m : Mach) : Bool := decide (m.power ≤ 3) && decide (1 ≤ m.boot.step)

/-- Entry to S7 (R445, R446): the stage with its event and count, record 0x2003, quench with cause 2, P4. The cause that 0x2001 carries for too few
phases is none that R465 lists: a free value (log entry 101). -/
def Mach.enterS7 (m : Mach) (cause : Nat) : Eff :=
  if !m.alive then .of m
  else
    let from_ := m.stage
    let m := ((m.setN 0x2000 6 7).bump 0x2000 0x0D).draw
    let why := if cause = 2 then (Config.stageCause m.free).toNat else cause
    let m := m.raise 0x2001 0 [(1, from_), (1, 7), (1, why), (2, m.objN 0x2000 1), (2, m.objN 0x2000 3)]
    let m := m.raiseAO 0x2003 0 [(1, cause)]
    let n := m.jrn.newest
    ((m.quench 2).onPower (fun x => { x with dead := true })).shortStop 1 3 n

/-- ABRUPT_LOSS: the line absent for 10 ms (kind 0), or above 305 V for two half-cycles (kind 1) (R447). -/
def abruptLoss (kind : Nat) (m : Mach) : Eff :=
  if !m.alive ∨ (kind = 1 ∧ m.power_.each < 2) ∨ 1 < kind then .of m
  else
    let m := (m.bump 0x2000 0x0E).raiseAO 0x2002 0 [(1, kind), (2, m.objN 0x2000 3)]
    let n := m.jrn.newest
    ((m.quench 1).onPower (fun x => { x with dead := true })).shortStop 2 3 n

/-- HARDWARE_TRIP: a sensor read at or above its trip threshold twice, or firmware asked for it (R476, R478, R479); `deferral` is how long
the trip waited for an MRAM record, in µs. In P4 only the records, the counts and the wait for a wake are left of it. -/
def hardwareTrip (s deferral : Nat) (m : Mach) : Eff :=
  let asked : Bool := m.thermal.tripAsked = some s
  let twice : Bool := 2 ≤ (m.sensor s).tripRun && m.sensorState s = 0 && (m.power ≤ 2 || 23 ≤ s)
  if !(m.alive || decide (m.power = 4)) ∨ 28 ≤ s ∨ !(asked || twice) then .of m
  else
    let m := (m.setN 0x2200 0x0B 3).bump 0x2200 0x0A
    let m := m.onThermal (fun t => { t with tripAsked := none, hold := true, sensors := t.sensors.map (fun x => { x with tripRun := 0 }) })
    let m := (m.quench 3).raiseAO 0x3005 s [(1, s), (2, toUnsigned 16 (m.obj (0x2220 + s) 3)), (2, min deferral 200)]
    let n := m.jrn.newest
    if m.alive then m.draw.shortStop 4 (Config.powerCause m.free).toNat n
    else .of (m.onPower (fun x => { x with lastStop := 4, decided := n, startable := false }))

/-- The whole-module watchdog resets the module (R541): quench with cause 5, record 0x1006, and a start 100 ms later. `why` is 0 timeout, 1
escalation; `last` is the core that checked in last. -/
def Mach.watchdogReset (m : Mach) (why last : Nat) : Eff :=
  if !m.alive then .of m
  else
    let m := (m.quench 5).raiseAO 0x1006 0 [(1, why), (1, last)]
    let n := m.jrn.newest
    (m.draw.shortStop 5 (Config.powerCause m.free).toNat n).on (fun m => m.onPower (fun x => { x with startable := true }))

/-! ### The orderly shutdown (R539) -/

/-- Whether the shutdown waits for checkpoints: snapshots that are not yet written. -/
def Mach.checkpointsOpen (m : Mach) : Bool := m.panel.checkpoints != [] || m.panel.transfers.any (fun t => t.kind = 2)

/-- The shutdown's checkpoints that may begin, with up to 64 in progress, copied at once (R354, R539). -/
def Mach.stopCheckpoints (m : Mach) (c : Ctx) : Eff :=
  let m := m.beginCheckpoints m.frameNo 64
  (m.snapCheckpoints c m.frameNo m.timeWord).on (fun m => m.feedEncode.runTransfers)

/-- Steps 6 and 7: tiles dark, lanes off, supplies off. -/
def Mach.finishShutdown (m : Mach) : Eff :=
  let cause := if m.boot.shutCause = 0 then 0 else (Config.powerCause m.free).toNat
  let m := if m.objN 0x6401 1 = 0 then m.toAll (.blank 0xF 0 4) else m
  (m.draw.dropLinks).then_ (fun m => (m.cutPulses.closeAll true).powerOff cause)

/-- The end of step 4, a pending calibration write completed; step 5: shakeout when R507 permits it, otherwise the end. -/
def Mach.afterCheckpoints (m : Mach) (c : Ctx) : Eff :=
  let m := (calFlashWritten m).onPanel (fun x => { x with checkpoints := [], transfers := x.transfers.filter (fun t => t.kind != 2) })
  if m.boot.shutCause = 0 ∧ m.objB 0x7C00 9 ∧ c.life ≠ .retired then
    .of ({ m with boot := { m.boot with shut := 5 }, test := { m.test with shakeoutAt := m.now } } : Mach)
  else m.finishShutdown

/-- The shutdown goes on once its checkpoints are written (R539 step 4). -/
def Mach.continueShutdown (m : Mach) (c : Ctx) : Eff :=
  if m.boot.shut ≠ 2 then .of m
  else
    (m.stopCheckpoints c).then_ (fun m => if m.checkpointsOpen then .of m else m.afterCheckpoints c)

/-- Steps 2 and 3 at T1: heats stop, tiles go to standby, the ACTIVE tiles' stress images are copied, and other work ends. -/
def Mach.shutAtT1 (m : Mach) (c : Ctx) : Eff :=
  let m := m.stopHeats
  let m := if m.objN 0x6401 1 = 0 then m.toAll (.blank 0xF 1 4) else m
  ((m.slateOff.endWork c).then_ Mach.abortJobs).then_ (fun m =>
    let m := (m.cutTest 4).abandonTakeOver
    let m := each m.activeTiles m (fun m t => m.askCheckpoint t.2.1 t.2.2 t.1)
    let m := ({ m with boot := { m.boot with shut := 2, t1 := m.now } } : Mach).followCommons
    m.continueShutdown c)

/-- CHECKPOINT_LIMIT: at T1 + 3 s unfinished checkpoints are abandoned (R539 step 4). -/
def checkpointLimit (c : Ctx) (m : Mach) : Eff :=
  if m.boot.shut = 2 ∧ m.boot.t1 + sec 3 ≤ m.now then m.afterCheckpoints c else .of m

/-- SHAKEOUT_END (R508, R539 step 6). -/
def shakeoutEnd (found : List Miscompare) (m : Mach) : Eff :=
  if m.boot.shut = 5 then (m.endShakeout found).finishShutdown else .of m

/-! ### Requests and pending stops (R451 to R454) -/

/-- A pending stop whose heats no longer run takes effect: this is its T1. -/
def Mach.doStop (m : Mach) (c : Ctx) : Eff :=
  match m.power_.stop with
  | none => .of m
  | some p =>
    if m.scheduled then .of m
    else
      let m := m.onPower (fun x => { x with stop := none })
      if p = 2 then m.enterP2 c else if p = 3 then .of m.enterP3 else if m.boot.shut = 1 then m.shutAtT1 c else .of m

/-- A stop of heats is decided (R453, R454): at once while no schedule runs, else at its frame ticks. -/
def Mach.pendStop (m : Mach) (p : Nat) (shed : Bool) (c : Ctx) : Eff :=
  let m := m.onPower (fun x => { x with stop := some p, shed := shed })
  (if p = 2 ∧ m.scheduled then m.headForP2 else m).doStop c

/-- A request for a power state takes effect (R451, R452): 0 RUN, 2 SLATE, 3 SLEEP, 4 OFF. -/
def Mach.applyRequest (m : Mach) (t : Nat) (c : Ctx) : Eff :=
  let m := m.setN 0x2100 3 0xFF
  if 2 < m.power then .of m
  else if t = 0 then
    if m.power ≠ 2 then .of m
    else if m.stage ≤ 5 then .of (m.leaveP2 0)
    else .of (m.setN 0x2100 3 0)
  else if t = 2 then (if m.power = 2 then .of (m.onPower (fun x => { x with shed := false })) else m.pendStop 2 false c)
  else if t = 3 then m.pendStop 3 m.power_.shed c
  else (m.decideShutdown 0).doStop c

/-- What follows when a transition has ended: a request written during it applies (R452). -/
def Mach.advanceStops (m : Mach) (c : Ctx) : Eff :=
  (m.doStop c).then_ (fun m =>
    if m.stopping ∨ m.boot.shut ≠ 0 ∨ 2 < m.power then .of m
    else
      let t := m.objN 0x2100 3
      if t = 0xFF ∨ (t = 0 ∧ m.power = 2 ∧ 6 ≤ m.stage) then .of m
      else (m.applyRequest t c).then_ (fun m => m.doStop c))

/-- A request (0x2100:02, R452): during a transition it waits, replacing one that waits. -/
def Mach.request (m : Mach) (t : Nat) (c : Ctx) : Eff :=
  if m.stopping then .of (m.setN 0x2100 3 t) else m.applyRequest t c

/-! ### The stage in force (R441, R444, R445) -/

/-- The deepest demand below S7, with its cause: 0 line, 1 riser, 2 floor, 3 hold. -/
def Mach.demanded (m : Mach) : Nat × Nat :=
  let l := [min 6 m.power_.line.stage, min 6 m.power_.riser.stage, m.objN 0x2000 9, m.objN 0x2000 0x0A]
  let d := l.foldl max 0
  (d, (l.findIdx? (fun x => x = d)).getD 0)

/-- The stage in force changes (R441, R445), with what follows at once: calibration, tests, jobs and the power state. -/
def Mach.takeStage (m : Mach) (dest cause : Nat) (c : Ctx) : Eff :=
  let from_ := m.stage
  let m := (m.setN 0x2000 6 dest).bump 0x2000 0x0D
  let m := if m.scheduled then m else (m.setN 0x5300 7 (clusterClock dest)).observeStage
  let m := m.onPower (fun x => { x with changedAt := m.now })
  let m := m.raise 0x2001 0 [(1, from_), (1, dest), (1, cause), (2, m.objN 0x2000 1), (2, m.objN 0x2000 3)]
  let m := if 2 ≤ dest then m.cutCal else m
  let m := m.testConditions
  if 6 ≤ dest then
    if m.power ≤ 1 ∧ !m.stopping then
      let p := if 8 ≤ m.boot.step ∧ m.boot.shut = 0 then m.pendStop 2 true c else .of m
      p
    else .of m
  else if m.power ≤ 1 then .of ((m.setPower m.runningState 1).resumeJobs)
  else if m.power = 2 ∧ m.boot.shut = 0 ∧ !m.stopping then
    if m.objN 0x2100 3 = 0 then .of (m.leaveP2 0)
    else if m.power_.shed then .of (m.leaveP2 1)
    else .of m
  else .of m

/-- The stage in force changes, with the host jobs that it holds from now on (R235, R445). -/
def Mach.setStage (m : Mach) (dest cause : Nat) (c : Ctx) : Eff := (m.takeStage dest cause c).then_ Mach.pauseHeld

/-- The stage is evaluated (R444): deepening at once, shallower one stage 2 s after the last change. While core 3 is being reset it is held
(R542). -/
def Mach.evaluateStage (m : Mach) (c : Ctx) : Eff :=
  if 2 < m.power ∨ m.boot.step < 5 ∨ m.boot.cores.contains 3 ∨ 6 < m.stage then .of m
  else
    let (d, cause) := m.demanded
    if m.stage < d then m.setStage d cause c
    else if d < m.stage ∧ m.power_.changedAt + sec 2 ≤ m.now then m.draw.setStage (m.stage - 1) (Config.stageCause m.free).toNat c
    else .of m

/-- LINE_HALF_CYCLE (R437, R443): the RMS of a half-cycle in 0.1 V and the line frequency in 0.01 Hz. The AO island evaluates S7 at once
(R444). An injected reading takes its place and never demands S7 (R523). -/
def lineHalfCycle (measured freq : Nat) (m : Mach) : Eff :=
  let rms := match m.forced 17 0 with
    | some v => max 580 (10 * v)
    | none => measured
  let d := m.power_.line.line m.now rms
  let m := m.onPower (fun x => { x with
    line := d
    each := if 3050 < rms then x.each + 1 else 0
    goodAt := if 850 ≤ rms then some (x.goodAt.getD m.now) else none })
  let m := m.sets 0x2000 [(1, rms), (2, freq), (7, (d.stage : Nat)), (0x0B, (availableOutput rms (m.objN 0x2000 0x0B) : Nat))]
  if d.on.getD 6 false then m.enterS7 0 else .of m

/-- RISER_SAMPLE (R437, R443): the riser voltage in 0.1 V. -/
def riserSample (v : Nat) (m : Mach) : Eff :=
  let d := m.power_.riser.riser m.now v
  let m := (m.onPower (fun x => { x with riser := d })).sets 0x2000 [(3, v), (8, (d.stage : Nat))]
  if d.on.getD 6 false then m.enterS7 1 else .of m

/-! ### Core phases (R448, R449) -/

/-- Core phases in use. -/
def Mach.phasesIn (m : Mach) (st : Nat) : Nat := ((upTo 7).filter (fun k => m.objN (0x2021 + k) 1 = st)).length

/-- PHASE_FAULT: a phase in use faults with cause 1 to 4 and is turned off (R448); with fewer than 5 usable phases left the module enters S7
(R449). -/
def phaseFault (k cause : Nat) (m : Mach) : Eff :=
  if 7 ≤ k ∨ cause = 0 ∨ 4 < cause ∨ m.objN (0x2021 + k) 1 ≠ 1 ∨ !m.alive then .of m
  else
    let m := ((m.setN (0x2021 + k) 1 2).bump (0x2021 + k) 3).setN (0x2021 + k) 4 cause
    let m := (m.raise 0x2004 k [(1, k), (1, cause)]).raise 0xD009 k [(1, 4), (2, k)]
    if m.phasesIn 0 + m.phasesIn 1 < 5 then m.enterS7 2 else .of m

/-- With fewer than six phases in use S3 is held (R34, R449). -/
def Mach.holdPhases (m : Mach) : Mach := if m.phasesIn 1 < 6 then m.setN 0x2000 0x0A 3 else m

/-- The ledger's part on core phases (R32, R448, R449): faulted phases are UNUSABLE, a spare comes into use, and without one S3 is held. -/
def Mach.phaseTakeOver (m : Mach) : Mach :=
  Mach.holdPhases <| each ((upTo 7).filter (fun k => m.objN (0x2021 + k) 1 = 2)) m (fun m k =>
    let m := m.setN (0x2021 + k) 1 3
    match (upTo 7).find? (fun s => m.objN (0x2021 + s) 1 = 0) with
    | some s => ((m.setN (0x2021 + s) 1 1).bump 0x7E04 7).raise 0x2005 k [(1, s), (1, k)]
    | none => m)

/-! ### Wakes (R446, R451, R456 to R459) -/

/-- A wake cancels an entry to P3 before its last step (R459): what its steps took away comes back as at step 4 of R456. -/
def Mach.cancelSleep (m : Mach) (source : Nat) (c : Ctx) : Eff :=
  let begun := m.power_.entry.isSome
  let m := (m.onPower (fun x => { x with stop := none, entry := none })).raise 0x2012 0 [(1, source)]
  if m.power ≤ 1 ∧ 6 ≤ m.stage then m.pendStop 2 true c
  else if !begun then .of m
  else
    let m := m.followDeep
    .of (if m.power = 2 then (m.slateOn c).followCommons else m.heatsSoon.followCommons)

/-- Whether a source can wake the module from its power state: one enabled in 0x2100:04, and in P4 one whose detector has power (R457). -/
def Mach.wakesBy (m : Mach) (source : Nat) : Bool :=
  (m.objN 0x2100 4 ||| 64).testBit source && (m.power != 4 || decide (3 ≤ source))

/-- A wake source is recognised; `unit` is its port, lane or input. While the module runs it is counted, enabled or not, and cancels a pending
entry to P3 when it is enabled; while the module shuts down an enabled one is latched (R457, R459, R509). -/
def Mach.recognise (m : Mach) (source unit : Nat) (c : Ctx) : Eff :=
  if 6 < source ∨ (2 < m.power ∧ !m.wakesBy source) then .of m
  else
    let m := m.onPower (fun x => { x with wakes := modAt x.wakes source (· + 1) })
    if !m.wakesBy source then .of m
    else if m.boot.shut ≠ 0 then .of (m.onPower (fun x => { x with latchedWake := some source }))
    else if m.power = 3 then
      if source = 6 then .of m else ((m.setN 0x2100 5 source).wakeP3 source unit c).advanceStops c
    else if m.power = 4 then
      if source = 6 ∨ !m.power_.dead then
        .of ((m.setN 0x2100 5 source).onPower (fun x => { x with startable := true, dead := false }))
      else .of m
    else if m.power_.stop = some 3 ∨ m.power_.entry.isSome then (m.cancelSleep source c).then_ (fun m => m.advanceStops c)
    else .of m

/-- The squelch detector of a lane recognises a wake in P3, or on the way there: it is counted, and 0x8005 is raised once the module runs again
(R300). -/
def Mach.laneRouses (m : Mach) (l : Nat) (activity : Bool) (c : Ctx) : Eff :=
  let e := (m.bump (0x6010 + l) 0x16).recognise 2 l c
  if m.power = 3 ∧ e.m.power ≠ 3 then e.on (fun m => m.raise 0x8005 l [(1, l), (1, bit activity)]) else e

/-- WAKE: the AO island sees link activity (0), a lane's wake in P3 (2) or an edge at a sync input, selected in 0x3120+i:02 (3, R557). Which of the two cases of R300 a lane's
detector saw, this command does not say: it is free. -/
def wake (source unit : Nat) (c : Ctx) (m : Mach) : Eff :=
  let seen : Bool := match source with
    | 0 => decide (unit < 5) && (m.objN 0x2100 7).testBit unit && portFitted c.unit.orderX unit
    | 3 => decide (unit < 2)
    | _ => false
  if source = 2 ∧ unit < 192 ∧ m.laneMode unit = 0 ∧ m.rx unit = 1 ∧ (m.power = 3 ∨ m.listening) then
    m.draw.laneRouses unit (Config.wakeKind m.free) c
  else if seen then m.recognise source unit c else .of m

/-- Whether a frame is a wake packet of a port (R458). -/
def Mach.wakeFrame (m : Mach) (c : Ctx) (p : Nat) (data : Bytes) : Bool :=
  let f := parseFrame data
  let wanted : Bytes := [0x4B, 0x57, 0x44, 0x2D, 0x57, 0x41, 0x4B, 0x45] ++ c.unit.serial
  let mine := f.dst = 0xFFFFFFFFFFFF || f.dst = c.unit.macs.getD p 0
  let body := data.drop (if f.vlan.isSome then 18 else 14)
  mine && ((f.etype = 0x88B5 && body.take 20 = wanted) ||
    ((f.etype = 0x0800 || f.etype = 0x86DD) && f.proto = 17 && f.port = 47621 && m.ownAddress c p f.addr && f.payload.take 20 = wanted))

/-- WAKE_PACKET: a frame on a port in P3 (R458). -/
def wakePacket (p : Nat) (data : Bytes) (c : Ctx) (m : Mach) : Eff :=
  if p < 5 ∧ (m.objN 0x2100 7).testBit p ∧ portFitted c.unit.orderX p ∧ m.wakeFrame c p data then m.recognise 1 p c else .of m

/-- AO_TIMER_EXPIRY: the AO timer, counted on the AO counter from entry to P3 or P4 (R457, R464). -/
def aoTimerExpiry (c : Ctx) (m : Mach) : Eff :=
  let t := m.objN 0x2100 6
  if 3 ≤ m.power ∧ t ≠ 0 ∧ t * 32768 ≤ m.clk.ao - m.power_.downAo then m.recognise 5 0 c else .of m

/-- MAINS_RESTORED: after S7 or an abrupt loss the line has stayed at or above 85 V for 2 s and the riser has reached 392 V (R446). -/
def mainsRestored (c : Ctx) (m : Mach) : Eff :=
  match m.power_.goodAt with
  | some t => if !(m.power = 4 ∧ m.power_.dead ∧ t + sec 2 ≤ m.now ∧ 3920 ≤ m.objN 0x2000 3) then .of m
    else if m.clk.lost then .of (m.onPower (fun x => { x with startable := true, dead := false }))
    else m.recognise 6 0 c
  | none => .of m

/-- An access to a wake-on-access object in P2 powers up its control domain (R460). -/
def Mach.wakeFor (m : Mach) (ix : Nat) : Mach :=
  if m.power = 2 ∧ ((0x5320 ≤ ix ∧ ix ≤ 0x5363) ∨ (0x7120 ≤ ix ∧ ix ≤ 0x7133) ∨ (0x7140 ≤ ix ∧ ix ≤ 0x7143)) then
    m.onPower (fun x => { x with woken := x.woken.filter (fun w => w.1 != ix) ++ [(ix, m.now)] })
  else m

/-- WAKE_ON_ACCESS_IDLE: 100 ms after its last access a woken control domain powers down again (R460). -/
def wakeOnAccessIdle (ix : Nat) (m : Mach) : Mach :=
  m.onPower (fun x => { x with woken := x.woken.filter (fun w => w.1 != ix || decide (m.now < w.2 + ms 100)) })

/-- AO_ISLAND_POWER_LOSS: in P4 the riser falls below 40 V without mains; the AO island loses its counter and what it latched (R426). -/
def aoIslandPowerLoss (m : Mach) : Mach :=
  if m.power ≠ 4 then m
  else
    let m := m.onClk (fun k => { k with reg := 0, ao := 0, aoPhase := 0, latched := none, latchedU := none, aoAtLatch := 0, u0 := none, lost := true })
    let m := m.sets 0x3000 [(1, 0), (2, 0xFF)]
    m.onPower (fun x => { x with
      dead := true, startable := false, latchedWake := none, lastStop := 7, decided := 0, downAo := 0 })

end Sys2Proof.Machine
end

