-- ==== Sys2Proof/Machine/Faults.lean ====
section
/-! DEFINITION. Faults that reach across the module: channel take-over (R278 to R281), uncorrectable reads (R271 to R273), core resets and bus
errors (R541 to R543), injection (R523, R530), and the ledger update (R32, R520). -/

namespace Sys2Proof.Machine

/-! ### Training (R277) -/

/-- The steps of training, in their order (R277). -/
inductive TrainStep where
  | zqCalibration
  | commandAddress
  | levelling
  | readDq
  | writeDq
  deriving DecidableEq, Repr

/-- The steps of training, in their order (R277). -/
def trainSteps : List TrainStep := [.zqCalibration, .commandAddress, .levelling, .readDq, .writeDq]

/-- A channel is trained: each attempt goes through the steps in order from the values of the calibration set in force, until one fails, and a
channel that fails is trained once more. `fails` gives the steps at which attempts failed. -/
def Mach.trainChannel (m : Mach) (p : Nat) (fails : List Nat) : Mach :=
  let passed := match fails with
    | _ :: f :: _ => min f (trainSteps.length - 1)
    | _ => trainSteps.length
  let m := if fails = [] then m else m.bump (0x7010 + p) 0x0A (min 2 fails.length)
  m.onChan p (fun (ch : Channel) => ({ ch with
    trained := passed, taps := m.valuesInForce (calKey 2 p), tap := 0, tapTarget := 0, tapHeld := 0 } : Channel).restartRefresh m.now)

/-! ### Channel take-over (R278 to R281) -/

/-- Changes the memory controller. -/
def Mach.onDram (m : Mach) (f : Dram → Dram) : Mach := { m with dram := f m.dram }

/-- Shows the state of the take-over (0x7000:05): 1 SPARE_TRAINING, 2 COPY_IN, 3 VERIFY, 4 WAITING_SWITCH. -/
def Mach.takeOverPhase (m : Mach) (phase : Nat) : Mach :=
  let shown := match phase with
    | 1 => 1
    | 2 => 2
    | 3 => 2
    | 4 => 3
    | 5 => 4
    | _ => 0
  (m.onDram (fun d => { d with takeOver := d.takeOver.map (fun (t : TakeOver) => { t with phase := phase }) })).setN 0x7000 5 shown

/-- The 32 highest-numbered extents on other logical channels that are not borrowed, in ascending number (R281). -/
def Mach.extentsToBorrow (m : Mach) (l : Nat) : List Nat :=
  let free := m.liveExtents.filter (fun e => e % 32 != l)
  free.drop (free.length - 32)

/-- The clip store's size in extents. -/
def Mach.storeExtents (m : Mach) : Nat := m.liveExtents.length

/-- A logical channel is to be re-homed (R281): the clips go, the store shrinks, event 0xA005. -/
def Mach.rehome (m : Mach) (l : Nat) (exts : List Nat) : Mach :=
  let own := m.liveExtents.filter (fun e => e % 32 = l)
  let m := m.loseExtents (own ++ exts)
  let m := { m with scene := { m.scene with lostExtents := m.scene.lostExtents ++ own } }
  let m := m.onDram (fun d => { d with borrowed := d.borrowed ++ [(l, exts)] })
  m.raise 0xA005 l [(1, l), (2, exts.headD 0), (4, 16 * m.storeExtents)]

/-- TAKE_OVER_START: the first take-over that waits begins (R278, R279, R281). With fewer than 32 extents left to borrow on other channels the
module enters orderly shutdown, as with a clip store of size 0 (DESIGN CHOICE, log entry 94: R34 and R281 name size 0 alone). -/
def takeOverStart (c : Ctx) (m : Mach) : Eff :=
  match m.dram.takeOver, m.dram.waiting with
  | none, (l, cause) :: rest =>
    if 2 < m.power ∨ m.boot.step < 8 ∨ m.boot.shut ≠ 0 ∨ !m.coreUp 3 then .of m
    else
      let old := m.objN (0x7040 + l) 1
      let m := m.onDram (fun d => { d with waiting := rest })
      let dead : Bool := cause = 2
      let t : TakeOver := { logical := l, old := old, spare := none, cause := cause, dead := dead, phase := 1, restarts := 0, copied := 0, rate := m.objN 0x7000 8, since := m.now }
      let start (m : Mach) (t : TakeOver) : Mach :=
        let m := (if dead then m else m.setN (0x7010 + old) 1 3).onDram (fun d => { d with takeOver := some t })
        m.raise 0xA002 l [(1, l), (1, old), (1, t.spare.getD 0xFF), (1, cause)]
      match (upTo 36).find? (fun p => m.objN (0x7010 + p) 1 = 0 && !m.dram.failed.contains p) with
      | some s => .of (((start m { t with spare := some s }).setN (0x7010 + s) 1 2).takeOverPhase 1)
      | none =>
        let exts := m.extentsToBorrow l
        if exts.length < 32 then ((m.raise 0xA006 l [(1, l)]).decideShutdown 3).doStop c
        else .of (((start m t).rehome l exts).takeOverPhase (if dead then 5 else 2))
  | _, _ => .of m

/-- RETIRE_REQUEST (R278, R283). -/
def Mach.retireChannel (m : Mach) (l : Nat) : Except Nat Mach :=
  if m.dram.takeOver.isSome then .error abPrecondition else .ok (m.wantTakeOver l 3)

/-- SPARE_TRAINED (R279, R280): training has ended, `fails` giving the steps at which attempts failed; a channel that fails twice is UNUSABLE from
the next ledger update on (R32), and the next spare is tried. -/
def spareTrained (fails : List Nat) (m : Mach) : Mach :=
  match m.dram.takeOver with
  | none => m
  | some t => match t.spare with
    | none => m
    | some s =>
      if t.phase ≠ 1 then m
      else
        let m := m.trainChannel s fails
        if 2 ≤ fails.length then
          (m.onDram (fun d => { d with failed := addNew d.failed s, takeOver := none, waiting := t.again :: d.waiting })).setN 0x7000 5 0
        else m.takeOverPhase (if t.dead then 5 else 2)

/-- The extents borrowed for a logical channel hold nothing any more: no access in them is listed as poisoned. -/
def Mach.clearBorrowed (m : Mach) (l : Nat) : Mach :=
  each (m.borrowedFor l) m (fun m e =>
    let a := fixedEnd + e * extentSize
    let p := m.objN (0x7040 + logicalOf a) 1
    (m.onChan p (fun ch => { ch with poison := ch.poison.filter (fun o => o < Sys2Proof.Machine.offsetOf a || Sys2Proof.Machine.offsetOf a + extentSize ≤ o) })).showPoison p)

/-- Copy-in reads the old channel and writes the new backing, each in ascending offset: their bytes and page history (R266, R279, R283). -/
def Mach.copyAll (m : Mach) (t : TakeOver) : Mach :=
  let size := if t.spare.isSome then 0x100000000 else 0x20000000
  let m := ((m.noteRead size).noteWritten size).onChan t.old (fun ch => ch.sweep (rowNumber (size - 1)))
  match t.spare with
  | some s => m.onChan s (fun ch => ch.sweep (rowNumber (size - 1)))
  | none => each (upTo 32) m (fun m j =>
      let x := m.movedTo t (j * extentSize + extentSize - 1)
      m.onChan x.1 (fun ch => ch.sweep (rowNumber x.2)))

/-- COPY_IN_COMPLETE (R279): accesses poisoned on the old channel, and those that copy-in found, are poisoned on the new one. -/
def copyInComplete (poisoned : List Nat) (m : Mach) : Mach :=
  match m.dram.takeOver with
  | none => m
  | some t =>
    if t.phase ≠ 2 then m
    else
      let m := m.readAccess t.old 0
      let m := if m.armedAt 9 t.old then m.acted.uncorrectable t.old 0 (256 * t.logical) (sourceBase 13) else m
      let bad := ((m.chan t.old).poison ++ poisoned.map (fun o => o / 64 * 64)).eraseDups
      let bad := if t.spare.isSome then bad else bad.filter (· < 0x20000000)
      let m := match t.spare with
        | some s => m.onChan s (fun ch => { ch with poison := [] })
        | none => m.clearBorrowed t.logical
      let m := each bad (m.copyAll t) (fun m o => let x := m.movedTo t o; (m.addPoison x.1 x.2).listFull x.1)
      (m.onDram (fun d => { d with takeOver := some { t with copied := bad.length } })).takeOverPhase 3

/-- The new backing takes over; the old channel is UNUSABLE (R279 step 5, R280, R281). -/
def Mach.switchChannel (m : Mach) (t : TakeOver) : Mach :=
  let m := (m.sets (0x7010 + t.old) [(1, 4), (2, 0xFF)]).onChan t.old (fun ch => { ch with poison := [] })
  let m := match t.spare with
    | some s => ((m.sets (0x7010 + s) [(1, 1), (2, t.logical)]).setN (0x7040 + t.logical) 1 s).resetPages s
    | none =>
      let first := (m.borrowedFor t.logical).headD 0
      ((m.setN (0x7040 + t.logical) 1 0xFF).setN (0x7040 + t.logical) 2 first).bump 0x7000 4
  let m := if t.spare.isSome then m.bump 0x7E01 7 else m
  let m := (m.onDram (fun d => { d with takeOver := none })).setN 0x7000 5 0
  match t.spare with
  | some s => m.listFull s
  | none => m

/-- The fixed-area in-channel offsets of a logical channel that are listed as poisoned, wherever they lie (R271, R281). -/
def Mach.listedPoison (m : Mach) (l : Nat) : List Nat :=
  let p := m.objN (0x7040 + l) 1
  if p ≠ 0xFF then (m.chan p).poison.filter (· < 0x20000000)
  else ((m.borrowedFor l).zipIdx).flatMap (fun e =>
    let a := fixedEnd + e.1 * extentSize
    let o := Sys2Proof.Machine.offsetOf a
    ((m.chan (m.objN (0x7040 + logicalOf a) 1)).poison.filter (fun x => o ≤ x && x < o + extentSize)).map (fun x => x - o + e.2 * extentSize))

/-- The firmware region of a channel that is dead is rebuilt from its mirror on channel L ^ 1 (R258, R280): what the mirror cannot give is poison
at the new backing. -/
def Mach.rebuildFirmware (m : Mach) (t : TakeOver) : Mach :=
  let twin := t.logical ^^^ 1
  let lost := ((m.listedPoison twin).filter (fun o => firmwareSize ≤ o && o < 2 * firmwareSize)).map (fun o => o - firmwareSize)
  let m := ((m.noteRead firmwareSize).noteWritten firmwareSize)
  let last := m.movedTo t (firmwareSize - 1)
  let from_ := m.objN (0x7040 + twin) 1
  let m := (m.onChan from_ (fun ch => ch.sweep (rowNumber (2 * firmwareSize - 1)))).onChan last.1 (fun ch => ch.sweep (rowNumber last.2))
  each lost m (fun m o => let x := m.movedTo t o; m.addPoison x.1 x.2)

/-- A switch without a copy (R280): the fixed area reads as poison until it is written, but for the firmware region, and the channel's clips are
gone. -/
def Mach.switchDead (m : Mach) (t : TakeOver) : Mach :=
  let own := if t.spare.isSome then m.liveExtents.filter (fun e => e % 32 = t.logical) else []
  let m := match t.spare with
    | some s => m.onChan s (fun ch => { ch with poison := [] })
    | none => m.clearBorrowed t.logical
  let mirror := (m.dram.fresh.find? (fun (f : Fresh) => f.logical = t.logical ^^^ 1)).map Fresh.written
  let m := ((m.loseExtents own).rebuildFirmware t).switchChannel t
  let m := m.onDram (fun d => { d with fresh := ⟨t.logical, [], mirror⟩ :: d.fresh.filter (fun f => f.logical != t.logical) })
  m.raise 0xA004 t.logical [(1, t.logical), (1, t.old), (1, t.spare.getD 0xFF)]

/-- A frame tick, or a ledger update while STOPPED, as the take-over sees it (R32, R279, R280): `mismatch` is what the verify heat that ends
found. -/
def Mach.takeOverTick (m : Mach) (mismatch : Bool) : Mach :=
  match m.dram.takeOver with
  | none => m
  | some t =>
    if t.phase = 3 then m.takeOverPhase 4
    else if t.phase = 5 then m.switchDead t
    else if t.phase ≠ 4 then m
    else if !mismatch then
      let m := m.switchChannel t
      match t.spare with
      | some s => m.raise 0xA003 t.logical [(1, t.logical), (1, t.old), (1, s), (2, min 65535 t.copied)]
      | none => m
    else
      let n := t.restarts + 1
      let m := m.raise 0xA00B t.logical [(1, t.logical), (1, n)]
      if 3 ≤ n then m.switchDead { t with restarts := n }
      else (m.onDram (fun d => { d with takeOver := some { t with restarts := n } })).takeOverPhase 2

/-! ### The ledger (R32, R520 to R522) -/

/-- An update of the ledger: at each frame tick, or every 16.667 ms while STOPPED. It is core 3's duty (R29). -/
def Mach.updateLedger (m : Mach) (mismatch : Bool) : Mach :=
  if !m.coreUp 3 then m else ((m.updateUnits.phaseTakeOver).takeOverTick mismatch).tellEmpty.keepLedger

/-- LEDGER_UPDATE_PERIOD: every 16.667 ms while the schedule is STOPPED. -/
def ledgerUpdatePeriod (m : Mach) : Mach :=
  if m.scheduled ∨ 2 < m.power ∨ m.boot.step < 6 ∨ m.now < m.test.ledgerAt + us 16667 then m
  else (m.onTest (fun t => { t with ledgerAt := m.now })).updateLedger false

/-! ### Core resets (R541, R542) -/

/-- Core resets of the last 60 s. -/
def Mach.recentResets (m : Mach) : List Nat := m.boot.resets.filter (fun t => m.now < t + sec 60)

/-- A core is reset alone; the third reset within 60 s resets the whole module. `last` is the core that checked in last. -/
def Mach.resetCore (m : Mach) (core last : Nat) : Eff :=
  let l := m.now :: m.recentResets
  let m := { m with boot := { m.boot with cores := addNew m.boot.cores core, resets := l } }
  if 3 ≤ l.length then { m with boot := { m.boot with resets := [] } }.watchdogReset 1 last else .of m

/-- Whether cores run: from step 5 of the start sequence to P2. -/
def Mach.coresRun (m : Mach) : Bool := decide (5 ≤ m.boot.step) && decide (m.power ≤ 2)

/-- CORE_WATCHDOG_EXPIRY: a core has missed its 50 ms watchdog (R541), for its own reasons or by an injection of point 20 (R523). -/
def coreWatchdogExpiry (core last : Nat) (m : Mach) : Eff :=
  let m := m.onTest (fun t => { t with timed := t.timed.filter (fun x => !(x.1 = 20 && x.2.1 = core)) })
  if !m.coresRun ∨ 4 ≤ core then .of m
  else
    (m.raise 0x1005 core [(1, core), (1, min 255 (m.recentResets.length + 1))]).resetCore core last

/-- The core that has stopped serving its watchdog by an injection 50 ms ago (R523, R541). -/
def Mach.unserved (m : Mach) : Option Nat := (m.test.timed.find? (fun x => x.1 = 20 && x.2.2.2 ≤ m.now)).map (fun x => x.2.1)

/-- The watchdog of a core that has stopped serving it expires (R541): which core checked in last is free. -/
def Mach.expireUnserved (m : Mach) : Eff :=
  match m.unserved with
  | some core => coreWatchdogExpiry core (Config.lastCore m.free).toNat m.draw
  | none => .of m

/-- MODULE_WATCHDOG_EXPIRY: the whole-module watchdog has not been served for 1 s (R541). -/
def moduleWatchdogExpiry (last : Nat) (m : Mach) : Eff := if m.coresRun then m.watchdogReset 0 last else .of m

/-- CORE_RESTARTED: a reset core goes on with its duties (R542). -/
def coreRestarted (core : Nat) (m : Mach) : Mach := { m with boot := { m.boot with cores := m.boot.cores.filter (· != core) } }

/-- The bytes of the image that runs, as far as the firmware region holds them (R533, R535). -/
def BootRecord.image (r : BootRecord) : Bytes := (Config.imageBytes (if r.running = 0 then r.bytesA else r.bytesB)).take 0x10000000

/-- A poisoned access of the firmware region is written again, with its mirror: code from the image in flash, data as its duty rebuilds them (R543). -/
def Mach.rebuild (m : Mach) (code : Bool) (a : Nat) : Eff :=
  if 0x10000000 ≤ a then .of m
  else
    let x := a / 64 * 64
    let old := slice x 64 m.boot.record.image
    m.draw.store x (if code then old ++ List.replicate (64 - old.length) 0 else (upTo 64).map (fun i => Config.rebuiltByte (x + i) m.free))

/-- INTERNAL_BUS_ERROR (R543): an access to an unpowered block (kind 2), or code (0) or data (1) poisoned in both copies. -/
def internalBusError (core kind address : Nat) (m : Mach) : Eff :=
  if !m.coresRun ∨ 4 ≤ core ∨ 2 < kind then .of m
  else
    let m := m.raise 0x1008 core [(1, core), (1, if kind = 2 then 0 else 1), (8, address)]
    if kind = 2 then .of (m.onPower (fun x => { x with absent := addNew x.absent address }))
    else (m.rebuild (kind = 0) address).then_ (fun m => m.draw.resetCore core (Config.lastCore m.free).toNat)

/-! ### Uncorrectable reads (R271 to R273) -/

/-- The number of the source that meets poison (R261, R271). A host job reads as the engine that it runs on. -/
def Mach.readSourceNumber (m : Mach) : ReadSource → Nat
  | .firmware core _ _ => sourceBase 11 + core % 4
  | .ladle _ _ => sourceBase 0
  | .decodeEngine e => sourceBase 4 + e % 20
  | .gain _ => sourceBase 1
  | .stress _ => sourceBase 1
  | .hostJob j =>
    match m.codec.decode.findIdx? (fun w => w.job? = some j), m.codec.encode.findIdx? (fun w => w.job? = some j) with
    | some e, _ => sourceBase 4 + e
    | none, some i => sourceBase 5 + i
    | none, none => sourceBase (if (m.job j).kind = 1 then 5 else 4)
  | .drawing ch _ => sourceBase 7 + ch % 2
  | .regionUpdate _ => sourceBase 8
  | .gainUpdate _ => sourceBase 1
  | .clipPlayback _ => sourceBase 9
  | .koaRead _ => sourceBase 10
  | .other n => n

/-- Whether the mirror of a firmware-region address is good (R258, R273). -/
def Mach.mirrorGood (m : Mach) (a : Nat) : Bool := !m.poisonedAt (a / 64 * 64 + 0x10000000) 64

/-- What a source does that receives poison (R273). -/
def Mach.onPoison (m : Mach) (c : Ctx) (a : Nat) : ReadSource → Eff
  | .firmware core good code =>
    if a < 0x10000000 ∧ good ∧ m.mirrorGood a then m.store (a / 64 * 64) (memLoad c.mem (a / 64 * 64 + 0x10000000) 64)
    else internalBusError core (if code then 0 else 1) a m
  | .ladle p v =>
    match m.pour? p with
    | none => .of m
    | some pr => .of ((((m.dropSegs (m.feedLane pr.c pr.pos) pr.pos v 0 (m.heat.number % 256)).stopVersion p v).assign).rescheduleAll)
  | .decodeEngine e =>
    let mark (k o : Nat) : Eff := match (m.layer k).decoding with
      | some x => .of (m.onContent k x.origin x.heat (fun x => { x with poison := addNew x.poison o }))
      | none => .of m
    match m.codec.decode.getD e .idle with
    | .content k o => mark k o
    | .again k o _ => mark k o
    | .job j => (m.jobEnter j 7 7).on (fun m => m.feedEngines)
    | .jobAgain j _ => (m.jobEnter j 7 7).on (fun m => m.feedEngines)
    | _ => .of m
  | .gain p => m.gainPoison p a
  | .stress p => m.stressPoison p a
  | .hostJob j => if m.jobState j = 2 then m.jobEnter j 7 7 else .of m
  | .drawing ch done => m.poisonDraw c ch done
  | .regionUpdate j => if m.regionState j = 2 then .of (m.failRegion j) else .of m
  | .gainUpdate j => if m.gainState j = 2 then .of (m.failGain j 2) else .of m
  | .clipPlayback k =>
    match (m.layer k).inOrder.find? (fun x => match x.origin with | .clip _ => true | _ => false) with
    | some x => .of (m.abandon k x 2)
    | none => .of m
  | .koaRead s =>
    match m.session? s with
    | some x => match x.xfer with
      | some t => .of ((m.say s 0x2F 0 0 (beBytes 4 abInternal)).onSession s (fun y => if t.write then y else { y with xfer := none }))
      | none => .of m
    | none => .of m
  | .other _ => .of m

/-- UNCORRECTABLE_READ: a read returns an uncorrectable codeword (R271): counted and listed, event 0xA001, the thresholds of R278, and what
the source does. -/
def uncorrectableRead (a : Nat) (source : ReadSource) (c : Ctx) (m : Mach) : Eff :=
  if !addressable a ∨ 2 < m.power ∨ m.boot.step < 4 then .of m
  else
    let x := m.physical a
    let m := if m.armedAt 9 x.1 then m.acted else m
    (m.uncorrectable x.1 x.2 a (m.readSourceNumber source)).onPoison c a source

/-! ### Injection (R523 to R525, R530) -/

/-- Instances of an injection point. -/
def pointInstances (p : Nat) : Nat :=
  match p with
  | 1 => 68 | 2 => 68 | 3 => 68 | 4 => 68
  | 5 => 20 | 6 => 20
  | 7 => 4
  | 8 => 36 | 9 => 36 | 10 => 36
  | 11 => 96
  | 12 => 64 | 13 => 64
  | 14 => 28 | 25 => 28
  | 15 => 4
  | 16 => 7
  | 18 => 1024
  | 19 => 2
  | 20 => 4
  | 21 => 2
  | 22 => 5
  | 23 => 16
  | 24 => 7
  | _ => 1

/-- An injection that lasts for a time, or for a number of readings, at a detector. -/
def Mach.inject (m : Mach) (point inst value time : Nat) : Mach :=
  (m.onTest (fun t => { t with timed := (point, inst, value, m.now + time) :: t.timed.filter (fun x => x.1 = 20 || m.now < x.2.2.2) })).acted

/-- What an injection does at once; the others wait for their detector's next event. -/
def Mach.injectNow (m : Mach) (point inst value : Nat) : Eff :=
  match point with
  | 4 => .of (m.inject 4 inst 0 (us 500))
  | 12 => .of (commonFault inst 1 m).acted
  | 13 => .of (m.inject 13 inst 20000 (sec 1))
  | 15 => .of (m.inject 15 inst 0 (sec 3))
  | 16 => phaseFault inst 3 m.acted
  | 17 => .of (m.inject 17 0 value (sec 3))
  | 20 => .of (m.inject 20 inst 0 (ms 50))
  | 24 => .of m.testStruck
  | 25 => .of (m.inject 25 inst 2 (sec 60))
  | 26 => abruptLoss 0 m.acted
  | _ => .of m

/-- INJECTION_START (R523, R524, R530). Points 17 and 26 act once, whatever the periodic flag. -/
def Mach.startInject (m : Mach) (c : Ctx) : Except Nat Eff :=
  let p := m.objN 0x7F01 1
  let i := m.objN 0x7F01 2
  let v := m.objN 0x7F01 4
  if (p = 25 ∨ p = 26) ∧ c.life ≠ .factory ∧ c.life ≠ .service then .error abLife
  else if !m.injectionAllowed c then .error abWindowShut
  else if pointInstances p ≤ i then .error abAbove
  else if p = 22 ∧ !portFitted c.unit.orderX i then .error abValue
  else if p = 17 ∧ v < 58 then .error abBelow
  else if p = 17 ∧ 300 < v then .error abAbove
  else
    let again : Bool := m.objB 0x7F01 3 && p != 17 && p != 26
    let a : Inject := { point := p, inst := i, periodic := again, value := v, at_ := m.now, live := true, slot := m.slotsUsed }
    let m := (m.onTest (fun t => { t with armed := some a })).setN 0x7F01 6 (if again then 2 else 1)
    let m := (m.bump 0x7F01 7).raise 0xD00B i [(1, p), (2, i), (1, bit again)]
    .ok (m.injectNow p i v)

/-- INJECTION_STOP (R530). -/
def Mach.stopInject (m : Mach) : Except Nat Mach :=
  match m.test.armed with
  | none => .error abNothing
  | some _ => .ok ((m.onTest (fun t => { t with armed := none })).setN 0x7F01 6 0)

/-- INJECTION_PERIOD: a periodic injection acts again (R530), as long as it may (R524). -/
def injectionPeriod (c : Ctx) (m : Mach) : Eff :=
  match m.test.armed with
  | none => .of m
  | some a =>
    if !a.periodic ∨ m.now < a.at_ + ms a.value ∨ !m.injectionAllowed c then .of m
    else
      let m := (m.onTest (fun t => { t with armed := some { a with at_ := m.now, live := true, slot := m.slotsUsed } })).bump 0x7F01 7
      m.injectNow a.point a.inst a.value

end Sys2Proof.Machine
end

