-- ==== Sys2Proof/Machine/Boot.lean ====
section
/-! DEFINITION. The start sequence (R533 to R537), what survives a stop (R532), the trial of a new image (R536), and the passing of time on
an empty queue (log entry 4). -/

namespace Sys2Proof.Machine

/-! ### What survives a stop (R532) -/

/-- The integer objects that a start keeps: those in flash or MRAM, counters since manufacture, the ledger's unit states with the
backing of the logical channels, and what the AO island holds or measures. -/
def survives (ix sub : Nat) : Bool :=
  if ix < 0x2000 then
    ix = 0x1000 || ix = 0x1001 || ix = 0x1010 || ix = 0x1111 || (ix = 0x1200 && sub = 4) || ix = 0x1202
  else if ix = 0x2000 then sub ≤ 3 || sub = 7 || sub = 8 || sub = 0x0B || sub = 0x0C || sub = 0x0E
  else if 0x2021 ≤ ix ∧ ix ≤ 0x2027 then sub = 1 || sub = 3
  else if ix = 0x2100 then sub = 1 || sub = 5 || sub = 8
  else if ix = 0x2200 then sub = 9 || sub = 0x0A || sub = 0x0B
  else if 0x2220 ≤ ix ∧ ix ≤ 0x223B then sub = 5 || sub = 6
  else if 0x2240 ≤ ix ∧ ix ≤ 0x2245 then true
  else if ix = 0x3000 then sub = 1
  else if 0x3020 ≤ ix ∧ ix ≤ 0x3024 then sub = 2 || sub = 3
  else if 0x5320 ≤ ix ∧ ix ≤ 0x5363 then sub = 1 || sub = 2 || sub = 3 || sub = 5
  else if 0x6010 ≤ ix ∧ ix ≤ 0x60CF then sub = 0x16
  else if 0x6310 ≤ ix ∧ ix ≤ 0x634F then sub = 8
  else if ix = 0x6401 then sub = 4
  else if ix = 0x7000 then sub = 4
  else if 0x7010 ≤ ix ∧ ix ≤ 0x7033 then sub = 1 || sub = 2 || sub = 4 || sub = 5 || sub = 6 || sub = 0x0A
  else if 0x7040 ≤ ix ∧ ix ≤ 0x705F then true
  else if 0x7120 ≤ ix ∧ ix ≤ 0x7143 then true
  else if ix = 0x7C00 then sub = 5 || (0x0A ≤ sub && sub ≤ 0x0D)
  else if 0x7E00 ≤ ix ∧ ix ≤ 0x7E08 then sub = 7
  else false

/-- A start: everything that no flash, MRAM or AO register holds stands at its default (R532). -/
def Mach.fresh (m : Mach) : Mach :=
  let m := m.abandonTakeOver
  let ch (x : Channel) : Channel := { corrected := x.corrected }
  { od := m.od.filter (fun x => survives (x.1 / 256 % 65536) (x.1 % 256))
    strs := m.strs.filter (fun x => x.1 / 256 % 65536 = 0x1110 || x.1 / 256 % 65536 = 0x7809)
    clk := { m.clk with up := 0, active := 0 }
    koa := { tagSecond := m.koa.tagSecond }
    net := { refillAt := m.now }
    jrn := m.jrn
    boot := { record := m.boot.record, startAt := m.now }
    dram := { chans := m.dram.chans.map ch, waiting := m.dram.waiting, failed := m.dram.failed, passed := m.dram.passed, borrowed := m.dram.borrowed, zqAt := m.now, oscAt := m.now, mr4At := m.now }
    scene := { lostExtents := m.scene.lostExtents }
    panel := { onAt := m.now }
    power_ := m.power_
    thermal := { hold := m.thermal.hold, failures := m.thermal.failures }
    calib := { sets := m.calib.sets, older := m.calib.older, latchedAt := m.now }
    test :=
      { repairs := m.test.repairs, mapSeq := m.test.mapSeq, failures := m.test.failures, ledgerAt := m.now, sliceAt := m.now, sliceWord := m.timeWord
        toldEmpty := m.test.toldEmpty, flashRetired := m.test.flashRetired, mramRetired := m.test.mramRetired, flashFailed := m.test.flashFailed
        mramFailed := m.test.mramFailed, flashRetry := m.test.flashRetry, erases := m.test.erases, mramGone := m.test.mramGone }
    out := m.out
    free := m.free }

/-! ### The image (R535, R536) -/

/-- Whether an image is valid. -/
def BootRecord.valid (r : BootRecord) (i : Nat) : Bool := if i = 0 then r.validA else r.validB

/-- The boot ROM's choice; none when neither image is valid. -/
def BootRecord.choose (r : BootRecord) : BootRecord × Option Nat :=
  let (r, sel) := if r.trial then
      if 3 ≤ r.count then ({ r with trial := false, fallback := 1 }, 1 - r.selected)
      else ({ r with count := r.count + 1, fallback := 0 }, r.selected)
    else ({ r with fallback := 0 }, r.selected)
  if r.valid sel then (r, some sel)
  else if r.valid (1 - sel) then ({ r with fallback := 2 }, some (1 - sel))
  else ({ r with fallback := 2 }, none)

/-- Changes the boot record. -/
def Mach.onRecord (m : Mach) (f : BootRecord → BootRecord) : Mach := { m with boot := { m.boot with record := f m.boot.record } }

/-- TRIAL_PERIOD_END (R536): the image has run for 600 s in P0 or P1 with no whole-module watchdog reset. -/
def trialPeriodEnd (m : Mach) : Mach :=
  let r := m.boot.record
  if r.trial ∧ 8 ≤ m.boot.step ∧ r.running = r.selected ∧ sec 600 ≤ m.clk.active then
    m.flashWrite.onRecord (fun x => { x with trial := false })
  else m

/-! ### The start sequence (R533) -/

/-- Step n of the sequence is complete. -/
def Mach.atStep (m : Mach) (n : Nat) : Mach := { m with boot := { m.boot with step := n } }

/-- Step 1: the main supplies are enabled; the time unit takes its time again (R425, R426), and the riser capacitance is recorded when the
riser charged from below 300 V (R440). -/
def startSupplies (x : StartInput) (m : Mach) : Mach :=
  let m := m.fresh
  let m := if m.clk.latched.isNone then
      (m.onClk (fun k => { k with reg := 0, latchedU := none, u0 := none, tellLost := true })).setN 0x3000 1 0
    else m.wakeTime
  let m := (m.onClk (fun k => { k with lost := false })).driveOutputs true
  let m := if x.riserLow then m.setN 0x2000 0x0C x.riserUf else m
  let m := m.onPower (fun p => { p with
    startable := false, cold := false, dead := false, stop := none, shed := false, before := 0, line := p.line.restart, riser := p.riser.restart })
  ((m.sets 0x2000 [(7, (m.power_.line.stage : Nat)), (8, (m.power_.riser.stage : Nat))]).setPower 0 2).atStep 1

/-- Step 3: repairs of class 6, and the image (R515, R535). Without a valid image the module enters recovery (R537). -/
def startImage (m : Mach) : Mach :=
  let m := m.applyRepairs (· = 6)
  let (r, sel) := m.boot.record.choose
  let m := m.atStep 3
  match sel with
  | some i => ((m.onRecord (fun _ => { r with running := i })).setN 0x1001 1 i)
  | none =>
    let m := { m with boot := { m.boot with recovery := true, record := r } }
    m.raiseAO 0x1007 0 [(1, r.selected), (1, 2)]

/-- Step 4: the DRAM is trained (R277); `failed` gives the channels that fail, with the steps at which their attempts failed. A channel that fails twice is dead; a spare one is
UNUSABLE when the ledger is built (R32). Then the repairs of class 0 are applied. -/
def startDram (failed : List (Nat × List Nat)) (m : Mach) : Mach :=
  ((each (upTo 36) m (fun m p =>
    if m.objN (0x7010 + p) 1 = 4 then m
    else
      let fails := ((failed.find? (fun f => f.1 = p)).map Prod.snd).getD []
      let m := m.trainChannel p fails
      if fails.length < 2 then m
      else match m.backs p with
        | some l => m.wantTakeOver l 2
        | none => { m with dram := { m.dram with failed := addNew m.dram.failed p } })).applyRepairs (· = 0)).atStep 4

/-- Step 5: the image is copied to the firmware region and its mirror (R258) and checked again, a check whose failure the manual gives no effect; the cores
start, and the sensors are read anew (R468). -/
def startCores (m : Mach) : Eff :=
  (m.store 0 m.boot.record.image).on (fun m => m.forgetFilters.clearFailed.atStep 5)

/-- Step 6: calibration sets, the remaining repairs, the ledger, and KOA for 0x1000 to 0x22FF (R32, R440). -/
def startLedger (copies : List (Nat × Bool)) (m : Mach) : Mach :=
  let m := ((m.readSets copies).applyRepairs (fun k => k != 0 && k != 6)).phaseTakeOver.updateUnits.tellRepairs.tellEmpty.keepLedger
  let uf := m.objN 0x2000 0x0C
  let m := if uf < 340 then (m.setN 0x2000 0x0A 3).raise 0x2006 0 [(2, uf)] else m
  m.atStep 6

/-- Step 7: the lanes wake; a chain is enumerated once one of its lanes receives (R324). The second without a tile of R298 begins here (DESIGN
CHOICE, log entry 88). -/
def startLanes (m : Mach) : Mach :=
  let m := each (upTo 96) m (fun m c => m.onChain c (fun ch => { ch with emptySince := m.now }))
  ((each (upTo 192) m (fun m l => m.applyMode l 3)).sets 0x5300 [(7, clusterClock m.stage)]).atStep 7

/-- The first heat after a start is to come (R533 steps 9 and 10); at S6 the module goes to P2 (R451). -/
def Mach.firstHeats (m : Mach) (c : Ctx) : Eff :=
  if 6 ≤ m.stage then m.pendStop 2 true c else .of (m.heatsAt (m.timeWord + us 1000) true)

/-- The events of step 8: the cause of the previous stop (R545), an image fallback (R535), UNKNOWN time (R426). -/
def Mach.tellStart (m : Mach) : Mach :=
  let r := m.boot.record
  let m := m.raise 0x1004 0 [(1, m.power_.lastStop), (8, m.power_.decided), (1, r.running), (4, (m.now - m.boot.startAt) / ms 1)]
  let m := if r.fallback = 0 then m else m.raise 0x1007 0 [(1, r.running), (1, if r.fallback = 2 then 0 else 1)]
  let m := if r.running = r.selected then m else m.raise 0x1002 0 [(1, r.selected), (1, r.running)]
  if m.clk.tellLost then (m.raise 0x400A 0 []).onClk (fun k => { k with tellLost := false }) else m

/-- Step 8: every object is available, pairs of sensors still without a VALID one stop the module (R477), else the first heat is to come. -/
def startDone (m : Mach) (c : Ctx) : Eff :=
  let m := ((m.atStep 8).bump 0x1001 4).tellStart
  let m := each (upTo 2) m (fun m d => if m.objB (0x3010 + d) 1 then m.enableDomain d true else m)
  let m := m.followCommons.judgePairs
  if m.boot.shut = 0 then m.firstHeats c else m.doStop c

/-- START: step `n` of the sequence is reached. Step 1 waits until the AO island may enable the supplies: after mains is applied until the riser has reached
392 V (R533), and 100 ms after a whole-module watchdog reset (R541). -/
def start (n : Nat) (x : StartInput) (c : Ctx) (m : Mach) : Eff :=
  if n ≠ m.boot.step + 1 ∨ m.boot.recovery ∨ m.boot.shut ≠ 0 then .of m
  else match n with
    | 1 =>
      if !m.power_.startable ∨ (m.power_.cold ∧ m.objN 0x2000 3 < 3920) ∨ (m.power_.lastStop = 5 ∧ m.now < m.power_.downAt + ms 100) then .of m
      else .of (startSupplies x m)
    | 2 => .of (m.atStep 2)
    | 3 => .of (startImage m)
    | 4 => .of (startDram x.failed m)
    | 5 => startCores m
    | 6 =>
      let m := startLedger x.copies m
      if m.phasesIn 1 < 5 then m.enterS7 2 else .of m
    | 7 => .of (startLanes m)
    | 8 => startDone m c
    | _ => .of m

/-! ### Time passes (R409, R411, R425) -/

/-- The time clock runs: from the start on, in P0 to P2 (R411). -/
def Mach.timeRuns (m : Mach) : Bool := m.boot.step != 0 && decide (m.power ≤ 2)

/-- One period of the time clock, 1 ns: the increment is added to the running register (R409), and the AO counter goes on. -/
def Mach.clockPeriod (m : Mach) : Mach :=
  m.onClk (fun k =>
    let phase := k.aoPhase + perNs
    { k with
      reg := k.reg + m.objN 0x3000 9
      mono := k.mono + perNs
      up := k.up + perNs
      oper := k.oper + perNs
      active := if m.power ≤ 1 then k.active + perNs else k.active
      ao := if aoPeriod ≤ phase then k.ao + 1 else k.ao
      aoPhase := if aoPeriod ≤ phase then phase - aoPeriod else phase })

/-- One period of the AO counter while the time unit is stopped (R411, R425); a lost AO island counts nothing (R426). -/
def Mach.aoTick (m : Mach) : Mach :=
  m.onClk (fun k => { k with mono := k.mono + aoPeriod, ao := if k.lost then k.ao else k.ao + 1, aoPhase := 0 })

/-- What the block does with no command waiting (log entry 4). -/
def Mach.idle (m : Mach) : Mach := if m.timeRuns then m.clockPeriod else m.aoTick

end Sys2Proof.Machine
end

