-- ==== Sys2Proof/Machine/Operands.lean ====
section
/-! DEFINITION. Values of objects as KOA carries them (R10, R11, R62), their ranges, the entries that selectors pick, and the checks of R66 on
an access. -/

namespace Sys2Proof.Machine

/-! ### Types and values (R62) -/

/-- The bytes of an integer object's value, most significant first. -/
def Ty.encode (t : Ty) (v : Int) : Bytes :=
  match t with
  | .time => timeBytes v.toNat
  | t =>
    let n := t.size.getD 0
    beBytes n (toUnsigned (8 * n) v)

/-- The value that bytes of the right length spell, or the abort of R62. -/
def Ty.decode (t : Ty) (b : Bytes) : Except Nat Int :=
  match t with
  | .bool => if ofBE b ≤ 1 then .ok (ofBE b) else .error abValue
  | .time => if 999999999 < ofBE (slice 8 4 b) then .error abAbove else .ok (timeOf b)
  | t => if t.signed then .ok (toSigned (8 * b.length) (ofBE b)) else .ok (ofBE b)

/-- The abort of a value outside an object's range (R66). -/
def Rng.abort (r : Rng) (v : Int) : Option Nat :=
  match r with
  | .any => none
  | .rng lo hi => if v < lo then some abBelow else if hi < v then some abAbove else none
  | .rngOr lo hi extra => if v = extra then none else if v < lo then some abBelow else if hi < v then some abAbove else none
  | .one vs => if vs.contains v.toNat && 0 ≤ v then none else some abValue
  | .len _ _ => none
  | .mapEntry => if v = 0xFFFF ∨ (v / 256 ≤ 31 ∧ v % 256 ≤ 29) then none else some abAbove

/-- The smallest and largest length of a byte string, text or domain. -/
def Row.lengths (r : Row) : Nat × Nat :=
  match r.rng with
  | .len lo hi => (lo, hi)
  | _ => (0, match r.ty with
    | .vis => 255
    | .oct => 1024
    | _ => 2 ^ 32 - 1)

/-- The abort of a length (R62, R66). -/
def Row.lengthAbort (r : Row) (n : Nat) : Option Nat :=
  let (lo, hi) := match r.ty.size with
    | some k => (k, k)
    | none => r.lengths
  if hi < n then some abTooLong else if n < lo then some abTooShort else none

/-! ### Selectors -/

/-- The panel position that a session selects (0x6210). -/
def Session.panel (s : Session) : Nat := (s.own_ 0x6210 2).toNat * 32 + (s.own_ 0x6210 1).toNat

/-- The chain and position that a session selects (0x6180). -/
def Session.tile (s : Session) : Nat × Nat := ((s.own_ 0x6180 1).toNat, (s.own_ 0x6180 2).toNat)

/-- The calibration instance that a session selects (0x7808). -/
def Session.calKey (s : Session) : Nat := Sys2Proof.Machine.calKey (s.own_ 0x7808 1).toNat (s.own_ 0x7808 2).toNat

/-- The entry of an object that a session's selectors pick; 0 for an object without a selector. -/
def Session.bank (s : Session) (ix : Nat) : Nat :=
  if 0x4110 ≤ ix ∧ ix ≤ 0x4112 then (s.own_ 0x4101 1).toNat
  else if ix = 0x6181 then tileBank s.tile.1 s.tile.2
  else if 0x6211 ≤ ix ∧ ix ≤ 0x6213 then s.panel
  else if 0x7808 ≤ ix ∧ ix ≤ 0x780B then s.calKey
  else 0

/-! ### The checks of an access (R66) -/

/-- Whether the order code lacks an object: those of ports 2 and 3 on KWD-8840-S (R381). -/
def absentObject (orderX : Bool) (ix : Nat) : Bool :=
  !orderX && ((0x4012 ≤ ix && ix ≤ 0x4013) || (0x3022 ≤ ix && ix ≤ 0x3023) || (0x4208 ≤ ix && ix ≤ 0x420F) ||
    (0x4222 ≤ ix && ix ≤ 0x4223) || (0x4232 ≤ ix && ix ≤ 0x4233) || (0x423A ≤ ix && ix ≤ 0x423B))

/-- An object that an access wakes (R461). -/
def wakeOnAccess (ix : Nat) : Bool := (0x5320 ≤ ix && ix ≤ 0x5363) || (0x7120 ≤ ix && ix ≤ 0x7133) || (0x7140 ≤ ix && ix ≤ 0x7143)

/-- Objects whose block has no power in P2 (R461). -/
def unpowered (ix : Nat) : Bool := ix = 0x5800 || (0x7800 ≤ ix && ix ≤ 0x78FF) || (0x7C00 ≤ ix && ix ≤ 0x7CFF)

/-- The abort of power state, start-up and shut-down (R66, R461, R533, R539), the last for a WRITE or a SEG_OPEN. -/
def Mach.unavailable (m : Mach) (ix : Nat) (write : Bool) : Option Nat :=
  if m.power = 2 ∧ unpowered ix then some abPower
  else if m.boot.step < 8 ∧ !m.boot.recovery ∧ 0x22FF < ix then some abStarting
  else if write ∧ m.boot.shut ≠ 0 then some abShutdown
  else none

/-- The abort of an object that does not exist (R66, R68, R381). -/
def missing (orderX : Bool) (ix sub : Nat) : Option Nat :=
  if !indexListed ix ∨ absentObject orderX ix then some abNoObject
  else if (objRow ix sub).isNone then some abNoSub
  else none

/-- The abort of a role for a write (R44, R63); the RW objects of a session's own every role may write. -/
def Acc.role (a : Acc) (own : Bool) (role : Nat) : Option Nat :=
  if own ∧ a = .rw then none
  else if role = 1 then some abRole
  else match a with
    | .woAdmin => if role < 3 then some abRole else none
    | .rws _ _ => if role < 3 then some abRole else none
    | _ => none

/-- The abort of the access class for a read (R63). -/
def Acc.noRead : Acc → Option Nat
  | .wo => some abWriteOnly
  | .woAdmin => some abWriteOnly
  | .rws _ readable => if readable then none else some abWriteOnly
  | _ => none

/-- The abort of the access class for a write (R63). -/
def Acc.noWrite : Acc → Option Nat
  | .ro => some abReadOnly
  | .const => some abReadOnly
  | _ => none

/-- The abort of the life-cycle state for a write (R63, R64). -/
def Acc.noLife (a : Acc) (ix : Nat) (l : Life) : Option Nat :=
  match a with
  | .rws states _ => if states.contains l then none else some abLife
  | _ => if l = .retired ∧ ix ≠ 0x1110 ∧ ix ≠ 0x1111 then some abLife else none

/-- The first abort of a list of checks. -/
def firstAbort (l : List (Option Nat)) : Option Nat := (l.filterMap id).head?

/-- The checks on a read of an object's row, up to the access class; `domain` for a segmented read (R51). An object of the wrong kind for the
request is reported after its access class (DESIGN CHOICE, log entry 80: the order of R66 does not name that condition). -/
def Mach.readAbort (m : Mach) (c : Ctx) (ix sub : Nat) (domain : Bool) : Option Nat :=
  match firstAbort [m.unavailable ix domain, missing c.unit.orderX ix sub] with
  | some a => some a
  | none => match objRow ix sub with
    | none => some abNoSub
    | some r => firstAbort [r.acc.noRead, if domain != decide (r.ty = .dom) then some abDomain else none]

/-- Whether a WRITE starts a host codec job (R229, R461). -/
def startsJob (ix sub : Nat) (b : Bytes) : Bool := 0x7110 ≤ ix && ix ≤ 0x7117 && sub = 0x0C && b = beBytes 4 0x4C430071

/-- The checks on a write of an object's row, up to the life-cycle state; `domain` for a segmented write (R51). A job start in P2 fails by the power
state (R461), which comes first (R66). -/
def Mach.writeAbort (m : Mach) (c : Ctx) (role ix sub : Nat) (domain : Bool) (b : Bytes := []) : Option Nat :=
  match firstAbort [if m.power = 2 ∧ startsJob ix sub b then some abPower else none, m.unavailable ix true, missing c.unit.orderX ix sub] with
  | some a => some a
  | none => match objRow ix sub with
    | none => some abNoSub
    | some r => firstAbort [r.acc.role (ownSession ix sub) role, r.acc.noWrite,
        if domain != decide (r.ty = .dom) then some abDomain else none, r.acc.noLife ix c.life]

/-- The checks of type, length and value on a written value (R62, R66). -/
def Row.valueAbort (r : Row) (ty : Nat) (b : Bytes) : Option Nat :=
  if ty ≠ r.ty.code then some abType
  else match r.lengthAbort b.length with
    | some a => some a
    | none => match r.ty.size with
      | none => none
      | some _ => match r.ty.decode b with
        | .error a => some a
        | .ok v => r.rng.abort v

/-- The value of checked bytes. -/
def Row.value (r : Row) (b : Bytes) : Int :=
  match r.ty.decode b with
  | .ok v => v
  | .error _ => 0

end Sys2Proof.Machine
end

