-- ==== Sys2Proof/Machine/Flags.lean ====
section
/-! DEFINITION. What an object reads: the status objects that follow from the block's state at the instant of the read, and the byte strings and
domains that are laid out at a read (R69 to R73 and the object tables of every chapter). Every other object reads its cell. -/

namespace Sys2Proof.Machine

/-! ### Counts -/

/-- Tiles present in a chain: those in states 1 to 6 (0x6110+c:03). -/
def Mach.tilesPresent (m : Mach) (c : Nat) : Nat := ((upTo 10).filter (fun i => 1 ≤ m.tileState c i && m.tileState c i ≤ 6)).length

/-- The hottest value of a zone (0x2210+z:02): of the sensors of Z1 to Z5, or of the tiles that have reported. -/
def Mach.hottest (m : Mach) (z : Nat) : Int :=
  let vs : List Int := if z < 5 then ((zoneSensors (z + 1)).filter (fun s => m.hasValue s)).map (fun s => m.thermalValue s)
    else ((upTo 96).flatMap (fun c => ((upTo 10).filter (fun i => (m.tile c i).told)).map (fun i => m.tileTemp c i)))
  match vs with
  | [] => 0
  | v :: l => l.foldl max v

/-- Bytes of an entry of a cyclic map; none for an object that a map may not list (R55, R57). -/
def mapEntrySize (orderX : Bool) (e : Nat) : Option Nat :=
  let ix := e / 65536
  let sub := e / 256 % 256
  if absentObject orderX ix then none
  else match objRow ix sub with
    | none => none
    | some r => r.ty.size

/-- The entries in use of a cyclic map. -/
def Mach.mapEntries (m : Mach) (i : Nat) : List Nat := (upTo (m.objN (0x1130 + i) 4)).map (fun e => m.objN (0x1130 + i) (5 + e))

/-- The packed size of a cyclic map (0x113m:45). -/
def Mach.mapSize (m : Mach) (orderX : Bool) (i : Nat) : Nat := ((m.mapEntries i).map (fun e => (mapEntrySize orderX e).getD 0)).sum

/-- The fingerprint of a key slot (0x1112). -/
def Mach.fingerprint (m : Mach) (slot : Nat) : Nat :=
  match m.str 0x1110 slot with
  | [] => 0
  | k => ofBE ((sha256 k).take 8)

/-- Objects whose value the manual does not give, so that a read draws a free value (log entry 7); a phase that is gated or turned off carries
no current (R30, R448). -/
def Mach.unstated (m : Mach) (ix sub : Nat) : Bool :=
  (ix = 0x2000 && (sub = 4 || sub = 5)) || (0x2021 ≤ ix && ix ≤ 0x2027 && sub = 2 && m.objN ix 1 = 1) ||
    (ix = 0x5000 && sub = 0x0C && m.nextTick.isNone)

/-! ### Integer objects -/

/-- The value of a status object that follows from the block's state; none for an object that reads its cell. -/
def Mach.live (m : Mach) (c : Ctx) (s : Session) (ix sub : Nat) : Option Int :=
  let nat (n : Nat) : Option Int := some (n : Int)
  let unstated : Option Int := nat (Config.unstated (okey ix sub) m.free).toNat
  if 0x1130 ≤ ix ∧ ix ≤ 0x1137 then (if sub = 0x45 then nat (m.mapSize c.unit.orderX (ix - 0x1130)) else none)
  else if 0x2021 ≤ ix ∧ ix ≤ 0x2027 then (if sub = 2 then (if m.objN ix 1 = 1 then unstated.map (· % 65536) else nat 0) else none)
  else if 0x2210 ≤ ix ∧ ix ≤ 0x2215 then
    (match sub with
      | 2 => some (m.hottest (ix - 0x2210))
      | 3 => nat (if ix = 0x2215 then 0 else ((zoneSensors (ix - 0x220F)).filter (fun s => !m.sensorValid s)).length)
      | _ => none)
  else if 0x3020 ≤ ix ∧ ix ≤ 0x3024 then (if sub = 4 then nat (bit (c.unit.orderX && ix != 0x3024)) else none)
  else if 0x3110 ≤ ix ∧ ix ≤ 0x3117 then (if sub = 0x0D then some (m.setting 3 (ix - 0x3110) 0) else none)
  else if 0x6010 ≤ ix ∧ ix ≤ 0x60CF then
    (match sub with
      | 0x0A => some (m.setting 0 (ix - 0x6010) 0)
      | 0x0B => some (m.setting 0 (ix - 0x6010) 1)
      | _ => none)
  else if 0x6110 ≤ ix ∧ ix ≤ 0x616F then (if sub = 3 then nat (m.tilesPresent (ix - 0x6110)) else none)
  else if 0x7E00 ≤ ix ∧ ix ≤ 0x7E08 then
    (let l := m.test.ledger.getD (ix - 0x7E00) (0, 0, 0, 0)
     match sub with
      | 3 => nat l.1
      | 4 => nat l.2.1
      | 5 => nat l.2.2.1
      | 6 => nat l.2.2.2
      | _ => none)
  else if ownSession ix sub then
    (if ix = 0x1100 then nat (if sub = 6 then s.id else s.role)
     else if ix = 0x1201 ∧ sub = 2 then none
     else some (s.own_ ix sub))
  else match ix, sub with
    | 0x1000, 4 => nat c.unit.hwRev
    | 0x1000, 5 => nat c.unit.mfgDate
    | 0x1000, 6 => nat (bit c.unit.orderX)
    | 0x1001, 5 => nat (m.clk.up / ms 1)
    | 0x1001, 6 => nat (m.clk.oper / sec 3600)
    | 0x1010, 1 => nat c.life.code
    | 0x1003, 2 => nat m.boot.record.selected
    | 0x1003, 3 => nat (bit m.boot.record.trial)
    | 0x1003, 4 => nat m.boot.record.count
    | 0x1100, 3 => nat m.koa.sessions.length
    | 0x1112, k => if k = 0 then none else nat (m.fingerprint k)
    | 0x1200, 1 => nat ((m.jrn.recs.getLast?.map Rec.seq).getD (m.jrn.newest + 1))
    | 0x1200, 2 => nat m.jrn.newest
    | 0x1200, 3 => nat m.jrn.recs.length
    | 0x1200, 4 => nat m.journalCapacity
    | 0x2000, 4 => unstated.map (· % 65536)
    | 0x2000, 5 => unstated.map (· % 65536)
    | 0x2020, 2 => nat (m.unitsIn 0x2021 7 1)
    | 0x2020, 3 => nat (m.unitsIn 0x2021 7 0)
    | 0x2020, 4 => nat (m.unitsIn 0x2021 7 3)
    | 0x3000, 8 => nat (m.uncertainty.getD unknown64)
    | 0x3000, 0x0C => nat m.timeWord
    | 0x3000, 0x11 => nat m.clk.ao
    | 0x4000, 1 => nat (if c.unit.orderX then 5 else 3)
    | 0x5000, 0x0C => match m.nextTick with
      | some t => nat t.2
      | none => unstated
    | 0x5180, 8 => nat (ceilDiv m.stagingUse 1048576)
    | 0x51B0, 1 => nat (16 * m.liveExtents.length)
    | 0x51B0, 2 => nat (16 * m.freeExtents.length)
    | 0x51B0, 3 => nat m.scene.clips.length
    | 0x5300, 4 => nat (m.clusterCount 1)
    | 0x5300, 5 => nat (m.clusterCount 0)
    | 0x5300, 6 => nat (m.clusterCount 3)
    | 0x5800, 0x0F => nat (bit (decide (2 ≤ m.outs.stage) && decide (m.outs.stage ≤ 5)))
    | 0x6000, 2 => nat ((upTo 192).filter (fun l => m.rx l = 4)).length
    | 0x6000, 3 => nat ((upTo 192).filter (fun l => m.tx l = 1 && m.rx l = 1)).length
    | 0x6100, 2 => nat m.mapTiles.length
    | 0x6200, 2 => nat (if 4 ≤ m.stage then 2047 else 4095)
    | 0x6211, 5 => nat (m.onTimeOf s.panel / sec 1)
    | 0x7000, 3 => nat (m.unitsIn 0x7010 36 0)
    | 0x7000, 0x0A => nat (((upTo 36).filter (fun p => m.objN (0x7010 + p) 1 = 1)).foldl (fun a p => max a (m.objN (0x7010 + p) 3)) 0)
    | 0x7100, 2 => nat (m.decodeCount 1)
    | 0x7100, 3 => nat (m.decodeCount 0)
    | 0x7100, 4 => nat (m.decodeCount 3)
    | 0x7100, 6 => nat m.encodeUsable
    | 0x7808, 4 => nat (bit ((m.calSlots s.calKey).all Option.isNone))
    | 0x7C00, 2 => nat (m.fettlingState c)
    | 0x7F00, 3 => nat (if m.objB 0x7F00 2 then ceilDiv (m.test.openedAt + sec 60 - m.now) (ms 1) else 0)
    | _, _ => none

/-- The value of an integer object as a session reads it. -/
def Mach.read (m : Mach) (c : Ctx) (s : Session) (ix sub : Nat) : Int :=
  match rowOf ix sub with
  | none => highestSub ix
  | some _ => (m.live c s ix sub).getD (m.obj ix sub (s.bank ix))

/-! ### Byte strings, texts and domains -/

/-- Bytes with zeros up to a length. -/
def padTo (n : Nat) (b : Bytes) : Bytes := b ++ List.replicate (n - b.length) 0

/-- The FFE of a TX in force, c(−2), c(−1), c(0), c(+1), from its side taps (R294). -/
def ffe (l : List Int) : List Int :=
  [l.getD 0 0, l.getD 1 0, 64 - ((l.map Int.natAbs).sum : Nat), l.getD 2 0]

/-- Signed bytes. -/
def signedBytes (l : List Int) : Bytes := l.map (fun v => BitVec.ofInt 8 v)

/-- An entry of the slot table (0x4120). -/
def Mach.slotEntry (m : Mach) (i : Nat) : Bytes :=
  m.str 0x4110 3 i ++ beBytes 2 (m.objN 0x4110 4 i) ++ beBytes 1 (m.objN 0x4110 2 i) ++ beBytes 1 (m.objN 0x4110 5 i) ++
    beBytes 1 (m.objN 0x4110 1 i) ++ beBytes 1 (m.objN 0x4110 6 i) ++ [0, 0] ++ beBytes 4 (m.objN 0x4110 7 i) ++
    beBytes 4 (m.objN 0x4112 3 i)

/-- An entry of the clip directory (0x51B4). -/
def Mach.clipEntry (m : Mach) (i : Nat) : Bytes :=
  match m.clip? i with
  | none => List.replicate 16 0
  | some k =>
    let w := (k.frames.head?.map ClipFrame.width).getD 0
    let h := (k.frames.head?.map ClipFrame.height).getD 0
    let recording : Bool := match m.scene.recording with
      | some r => r.clip = i
      | none => false
    beBytes 2 w ++ beBytes 2 h ++ beBytes 4 k.frames.length ++ beBytes 4 (ceilDiv k.size 1048576) ++ beBytes 1 (2 * bit recording + 1) ++ [0, 0, 0]

/-- An entry of the tile table (0x6182). -/
def Mach.tileEntry (m : Mach) (c i : Nat) : Bytes :=
  let o (k : Nat) := m.objN 0x6181 k (tileBank c i)
  beBytes 1 c ++ beBytes 1 i ++ beBytes 1 (o 1) ++ beBytes 1 (o 5) ++ beBytes 2 (m.tile c i).entry ++ [0, 0] ++ beBytes 8 (o 2)

/-- The stress counters of a panel position (0x6212): in order of ey and then ex. -/
def stressBytes (mem : Mem) (p : Nat) : Bytes :=
  (upTo 288).flatMap (fun y => (upTo 160).flatMap (fun j => (readGroup (memLoad mem (stressGroup p j y) 12)).flatMap (beBytes 4)))

/-- An entry of the repair map (R528). -/
def RepairRow.bytes (r : RepairRow) : Bytes :=
  beBytes 1 r.cls ++ beBytes 1 r.state ++ beBytes 1 r.source ++ beBytes 1 (bit r.injected) ++ beBytes 2 r.inst ++ beBytes 2 r.macro_ ++
    beBytes 4 r.row ++ beBytes 2 r.bit_ ++ [0, 0]

/-- The repair map with its header (R528). -/
def Mach.mapBytes (m : Mach) : Bytes :=
  let b := m.test.repairs.flatMap RepairRow.bytes
  beBytes 2 m.test.repairs.length ++ [0, 0] ++ beBytes 4 m.test.mapSeq ++ [0, 0, 0, 0] ++ beBytes 4 (crcOf b) ++ b

/-- An entry of the failure log (0x7C03). -/
def Failure.bytes (f : Failure) : Bytes :=
  timeBytes f.time ++ beBytes 1 f.source ++ beBytes 1 f.cls ++ beBytes 2 f.inst ++ beBytes 2 f.macro_ ++ beBytes 8 f.addr ++
    beBytes 2 f.bit_ ++ beBytes 1 (bit f.injected) ++ [0]

/-- The threshold table (0x2001). -/
def thresholdBytes : Bytes := stageThresholds.flatMap (fun t => beBytes 2 t.1 ++ beBytes 2 t.2.1 ++ beBytes 2 t.2.2.1 ++ beBytes 2 t.2.2.2)

/-- The bytes of a calibration instance's values; empty for an instance that its item does not have. -/
def calBytes (key : Nat) (vs : List Int) : Bytes := if key % 1024 < itemCount (key / 1024) then recordBytes (key / 1024) vs else []

/-- The slot directory of a calibration instance (0x7808:06). -/
def Mach.slotDirectory (m : Mach) (key : Nat) : Bytes :=
  (upTo 5).flatMap (fun i => match (m.calSlots key).getD i none with
    | some x => beBytes 2 (toUnsigned 16 x.temp) ++ [1, 0]
    | none => [0, 0, 0, 0])

/-- The memory that a domain is read from, as address and length of its runs. -/
def Mach.domainRuns (m : Mach) (s : Session) (ix : Nat) : List (Nat × Nat) :=
  match ix with
  | 0x7102 => [(jobBase + m.objN 0x7101 1, m.objN 0x7101 2)]
  | 0x6212 => [(stressBase s.panel, 552960)]
  | 0x6213 => [(slotBase (m.objN 0x6211 7 s.panel), 276480)]
  | 0x51B3 => match m.clip? (m.objN 0x51B2 1) with
    | some k => k.runs 0 k.size
    | none => []
  | 0x541A =>
    ((m.outs.capture.recs.find? (fun r => r.1 = m.objN 0x5419 1 && r.2.1 = m.objN 0x5419 2)).map (fun r => (r.2.2.1, r.2.2.2))).toList
  | _ => []

/-- The contents of a byte string, text or domain as a session reads them, or the abort. A read of module memory that returns poison aborts
(R273). -/
def Mach.readBytes (m : Mach) (c : Ctx) (s : Session) (ix sub : Nat) : Except Nat Bytes :=
  let orElse (b d : Bytes) : Bytes := if b = [] then d else b
  let poisoned : Bool := (m.domainRuns s ix).any (fun r => m.poisonedAt r.1 r.2)
  if poisoned then .error abInternal
  else if 0x3120 ≤ ix ∧ ix ≤ 0x3121 then
    .ok (padTo 1024 ((m.ptp.ins.getD (ix - 0x3120) {}).log.flatMap (fun e => timeBytes e.1 ++ [BitVec.ofNat 8 (bit e.2), 0])))
  else if 0x4010 ≤ ix ∧ ix ≤ 0x4014 ∧ sub = 1 then .ok (beBytes 6 (c.unit.macs.getD (ix - 0x4010) 0))
  else if 0x5311 ≤ ix ∧ ix ≤ 0x5313 then .ok (orElse (m.str ix 0) cubicBytes)
  else if 0x5420 ≤ ix ∧ ix ≤ 0x542F then .ok (m.viewMask (ix - 0x5420))
  else if 0x6010 ≤ ix ∧ ix ≤ 0x60CF then
    .ok (signedBytes (if sub = 9 then ffe (m.settings (calKey 1 (ix - 0x6010))) else (m.settings (calKey 0 (ix - 0x6010))).drop 2))
  else if 0x6350 ≤ ix ∧ ix ≤ 0x6357 then .ok (m.waveTable (ix - 0x6350))
  else match ix, sub with
    | 0x1000, 1 => .ok [0x4E, 0x6F, 0x6C, 0x6D, 0x65, 0x74]
    | 0x1000, 2 => .ok ([0x4B, 0x57, 0x44, 0x2D, 0x38, 0x38, 0x34, 0x30, 0x2D] ++ [if c.unit.orderX then 0x58 else 0x53])
    | 0x1000, _ => .ok c.unit.serial
    | 0x1201, _ => match m.jrn.recs.find? (fun r => (r.seq : Int) = s.own_ 0x1201 1) with
      | some r => .ok r.bytes
      | none => .error abNotHeld
    | 0x2001, _ => .ok thresholdBytes
    | 0x2100, _ => .ok (m.power_.wakes.flatMap (beBytes 4))
    | 0x2200, _ => .ok (padTo 8 (m.str 0x2200 6))
    | 0x4120, _ => .ok ((upTo 256).flatMap m.slotEntry)
    | 0x5005, _ => .ok ((upTo 960).flatMap (fun p => ((m.pipe.snapshot.find? (fun x => x.1 = p)).map Prod.snd).getD (emptyEntry p)))
    | 0x51B3, _ => .ok (match m.clip? (m.objN 0x51B2 1) with
      | some k => k.read c.mem 0 k.size
      | none => [])
    | 0x51B4, _ => .ok ((upTo 256).flatMap m.clipEntry)
    | 0x5310, _ => .ok cubicBytes
    | 0x541A, _ => match m.domainRuns s ix with
      | r :: _ => .ok (memLoad c.mem r.1 r.2)
      | [] => .error abPrecondition
    | 0x5450, _ =>
      let h := m.outs.history.reverse.flatten
      .ok (List.replicate (16384 - h.length) 0 ++ h)
    | 0x6182, _ => .ok ((upTo 96).flatMap (fun k => (upTo 10).flatMap (fun i => m.tileEntry k i)))
    | 0x6201, _ => .ok (orElse (m.str 0x6201 0) defaultWeights)
    | 0x6202, _ => .ok (orElse (m.str 0x6202 0) defaultTempWeights)
    | 0x6212, _ => .ok (stressBytes c.mem s.panel)
    | 0x6213, _ => .ok (gainBody c.mem (m.objN 0x6211 7 s.panel))
    | 0x6400, _ => .ok m.palette
    | 0x7102, _ =>
      if 0x10000000 < m.objN 0x7101 1 + m.objN 0x7101 2 then .error abAbove
      else .ok (memLoad c.mem (jobBase + m.objN 0x7101 1) (m.objN 0x7101 2))
    | 0x7801, _ => .ok (if m.calib.run.v1 = [] then [] else recordBytes m.calib.run.item m.calib.run.v1)
    | 0x7802, _ => .ok (if m.calib.run.v2 = [] then [] else recordBytes m.calib.run.item m.calib.run.v2)
    | 0x7803, _ => .ok (if m.calib.run.result = [] then [] else recordBytes m.calib.run.item m.calib.run.result)
    | 0x7808, _ => .ok (m.slotDirectory s.calKey)
    | 0x7809, _ => .ok (calBytes s.calKey (m.factory s.calKey))
    | 0x780A, _ => .ok (match (m.calSlots s.calKey).getD (s.own_ 0x7808 3).toNat none with
      | some x => calBytes s.calKey x.values
      | none => [])
    | 0x780B, _ => .ok (calBytes s.calKey (m.valuesInForce s.calKey))
    | 0x7C02, _ => .ok m.mapBytes
    | 0x7C03, _ => .ok (padTo 8192 (m.test.failures.flatMap Failure.bytes))
    | _, _ => .ok (m.str ix sub (s.bank ix))

end Sys2Proof.Machine
end

