-- ==== Sys2Proof/Machine/Frame.lean ====
section
/-! DEFINITION. The frame tick: what becomes visible and what is evaluated at it (R131, R178, R186, R342, R360, R511, R520), the cyclic maps
(R55, R56), the steps of a restart (R78 to R80) and the start of the next heat (R85). -/

namespace Sys2Proof.Machine

/-! ### Cyclic maps -/

/-- The value of an entry of a cyclic map, as its session reads it; what an object that cannot be read gives is a free value (log entry 7). -/
def Mach.sample (c : Ctx) (s : Session) (m : Mach) (e : Nat) : Mach × Bytes :=
  let ix := e / 65536
  let sub := e / 256 % 256
  match objRow ix sub with
  | none => (m, [])
  | some r =>
    let open_ : Bool := r.acc.noRead.isNone
    let m := if m.unstated ix sub || !open_ then m.draw else m
    let v : Int := if open_ then m.read c s ix sub else (Config.unstated (okey ix sub) m.free).toNat
    (m, r.ty.encode v)

/-- The divider of a cyclic map in force (R57). -/
def Mach.mapDivider (m : Mach) (i : Nat) : Nat := m.objN (0x1130 + i) 3 * (if m.stage = 0 then 1 else 4)

/-- At frame tick h, whose instant is t, every enabled map whose divider divides h sends its values (R55, R56): core 0's duty (R29). -/
def Mach.sendCyclic (m : Mach) (c : Ctx) (h t : Nat) : Mach :=
  if !m.coreUp 0 then m else each (upTo 8) m (fun m i =>
    if !m.objB (0x1130 + i) 1 ∨ h % m.mapDivider i ≠ 0 then m
    else
      let id := m.objN (0x1130 + i) 2
      let s := m.session id
      let r := (m.mapEntries i).foldl (fun (a : Mach × Bytes) e => let x := Mach.sample c s a.1 e; (x.1, a.2 ++ x.2)) (m, [])
      r.1.say id 0x30 0 0 ([BitVec.ofNat 8 i, 0] ++ beBytes 8 h ++ timeBytes t ++ r.2))

/-! ### What happens at every frame tick -/

/-- The part of frame tick h, at instant t, that concerns frame h and the module's state; `mismatch` and `found` are what the verify heat
of a take-over and the fettling slice find. -/
def Mach.tickWork (m : Mach) (c : Ctx) (h t : Nat) (mismatch : Bool) (found : List (Nat × Nat)) : Mach :=
  let m := (m.setN 0x5000 9 (m.slotsOf h)).followMode
  let m := (m.accrueOnTime.setN 0x5000 0x0B h).forgetKnown h
  let m := if m.coreUp 1 then m.outputsInEffect else m
  let m := ((m.showUploads h).showRegions h).showGains c h t
  let m := ((m.observeStage.sendPreviews c h).finishUnheals h).latchViews
  let m := m.judgeStatus.followTiles.frameCommons.evaluateBands
  let m := m.latchTemps.onHeat (fun x => { x with number := h + 1 })
  let m := (m.updateLedger mismatch).fettle c found
  (m.resumeJobs.setN 0x5300 7 (clusterClock m.stage)).sendCyclic c h t

/-- Heat h + 1 starts at frame tick h, the clip frames due under its descriptors are placed (R135), and the engines take what waits. -/
def Mach.nextHeat (m : Mach) (c : Ctx) (h t : Nat) (restarted : Bool) : Eff :=
  let m := m.noteTick h
  let e := (upTo 64).foldl (fun (e : Eff) k => e.then_ (fun m => Mach.playClip c k (m.frameNo + 4) m)) (m.beginHeat (h + 1) t restarted)
  e.on (fun m => m.feedEngines.feedEncode)

/-- Heats start at frame tick F0 = f (R78 step 4, R79, R80, R83, R374, R533 step 9). No heat ran for frame F0: its slot count is the one
that the heat starting now latches (DESIGN CHOICE, log entry 81). -/
def Mach.startHeats (m : Mach) (c : Ctx) (f t : Nat) (mismatch : Bool) (found : List (Nat × Nat)) : Eff :=
  let reason := match m.pipe.restart with
    | some r => r.reason
    | none => m.boot.heatReason
  let m := match m.pipe.restart with
    | some r => (m.bringIn r.epoch r.num r.den).bumpSat 0x5003 0x0A
    | none => m
  let m := m.onPipe (fun p => { p with restart := none })
  let m := m.setN 0x5000 0x0A (if m.boot.starting then 1 else 2)
  let m := { m with boot := { m.boot with heatsFrom := none, starting := false } }
  let m := (m.onThermal (fun x => { x with hold := false })).followCommons
  let m := (m.agePast.rewindClips f).raise 0x6008 0 [(8, f + 1), (1, reason)]
  ((m.setN 0x5000 9 m.slotsFor).tickWork c f t mismatch found).nextHeat c f t true

/-- A frame tick of the schedule that runs (R78 steps 2 and 3, R85, R453, R454, R539). -/
def Mach.runningTick (m : Mach) (c : Ctx) (f t : Nat) (mismatch : Bool) (found : List (Nat × Nat)) : Eff :=
  let m := m.tickWork c f t mismatch found
  let stop := m.power_.stop
  match m.pipe.restart with
  | none =>
    let m := m.setN 0x5000 0x0A 2
    if stop.isSome then m.stopHeats.advanceStops c else m.nextHeat c f t false
  | some r =>
    if stop.isSome ∧ (r.phase = 2 ∨ stop ≠ some 2) then m.stopHeats.advanceStops c
    else
      let m := m.dropHeat
      let m := if r.phase = 2 then m.toAll (.blank 0xF 0 0) else m
      .of (m.onPipe (fun p => { p with restart := some { r with phase := r.phase + 1 } }))

/-- FRAME_TICK: the next frame tick is reached. A commit point that falls before it and has not been taken is taken first. -/
def frameTick_ (mismatch : Bool) (found : List (Nat × Nat)) (c : Ctx) (m : Mach) : Eff :=
  match m.nextTick with
  | none => .of m
  | some (f, t) =>
    if m.timeWord < t then .of m
    else if m.startTick.isNone then
      let e := commitPoint c m
      e.then_ (fun m => m.runningTick { c with mem := memApply c.mem e.writes } f t mismatch found)
    else if m.stopping then m.stopHeats.advanceStops c
    else if m.thermalHold then .of { m with boot := { m.boot with heatsFrom := some (m.timeWord + 1) } }
    else m.startHeats c f t mismatch found

end Sys2Proof.Machine
end

