-- ==== Sys2Proof/Machine/KoaWrite.lean ====
section
/-! DEFINITION. What a WRITE does to each object beside storing its value: the checks and the actions of the objects' own rules
(R57, R65, R71, R73, R76, R84, R120, R128, R190, R229, R244, R283, R305, R325, R343, R353, R370, R381, R391, R395, R398, R415, R429, R444,
R452, R469, R480, R489, R517, R524), and what the end of a segmented write does (R53, R70). -/

namespace Sys2Proof.Machine

/-- An accepted WRITE: the session, the object, the value of an integer object, the bytes, and how far a work that the write aborts still
goes, where the command says so. -/
structure Put where
  c : Ctx
  s : Session
  ix : Nat
  sub : Nat
  v : Int
  b : Bytes
  hint : Option Nat

/-- What an access comes to: an abort code, or its effect. -/
abbrev Act : Type := Except Nat Eff

/-- An effect on the block alone. -/
def act (m : Mach) : Act := .ok (.of m)

/-- An action that may abort, on the block alone. -/
def actM (r : Except Nat Mach) : Act := r.map Eff.of

/-- An action under a condition. -/
def actIf (ok : Bool) (code : Nat) (m : Mach) : Act := if ok then act m else .error code

/-- A write after which a calibration's checks are looked at again (R492). -/
def Act.watch (a : Act) (old : Mach) : Act := a.map (fun e => e.on old.watchCal)

/-- The written value as a number. -/
def Put.n (p : Put) : Nat := p.v.toNat

/-- Stores the value: a session's own object, a byte string, or a number. -/
def Put.store (p : Put) (m : Mach) : Mach :=
  if ownSession p.ix p.sub then m.onSession p.s.id (fun s => s.setOwn p.ix p.sub p.v)
  else match objRow p.ix p.sub with
    | none => m
    | some r => if r.ty.size.isNone then m.setStr p.ix p.sub p.b (p.s.bank p.ix) else m.set p.ix p.sub p.v (p.s.bank p.ix)

/-- How many further elements a stopped operation takes: the command's own count, or a free value. -/
def Put.reach (p : Put) (f : Nat → BitVec 32) (m : Mach) : Mach × Nat :=
  match p.hint with
  | some n => (m, n)
  | none => (m.draw, (f m.draw.free).toNat)

/-! ### Sessions, keys, maps, journal (02) -/

/-- The target of a transition request. -/
def Put.target (p : Put) : Life :=
  match p.n - 0x4C430000 with
  | 1 => .provisioned
  | 2 => .field
  | 3 => .service
  | _ => .retired

/-- TRANSITION_REQUEST (R65, R74, R524). -/
def Put.transition (p : Put) (m : Mach) : Act :=
  let l := p.c.life
  let t := p.target
  let admin : Bool := (upTo 8).any (fun k => m.objN 0x1111 (k + 1) = 3 && m.slotKey (k + 1) != [])
  if !l.permits t then .error abTransition
  else if (l = .factory ∧ !admin) ∨ (l = .service ∧ t = .field ∧ m.testRunning) then .error abPrecondition
  else
    let m := (m.raise 0x1001 0 [(1, l.code), (1, t.code)]).bump 0x1010 3
    .ok { m := (m.closeWindow p.s.id).disarm, life := some t }

/-- KEY_WRITE and KEY_ROLE_WRITE (R71): 32 zero bytes empty the slot. -/
def Put.key (p : Put) (m : Mach) : Act :=
  let m := if p.ix = 0x1110 then m.setStr 0x1110 p.sub (if p.b.all (· = 0) then [] else p.b) else p.store m
  act (m.raise 0xE005 0 [(1, p.sub), (1, m.objN 0x1111 p.sub)])

/-- The objects of a cyclic map (R9, R57, R72). -/
def Put.cyclicMap (p : Put) (m : Mach) : Act :=
  if p.sub = 1 then
    if p.v = 0 then act ((m.setN p.ix 1 0).setN p.ix 2 0)
    else
      let bad : Bool := (m.mapEntries (p.ix - 0x1130)).any (fun e => (mapEntrySize p.c.unit.orderX e).isNone)
      actIf (!bad && decide (m.mapSize p.c.unit.orderX (p.ix - 0x1130) ≤ 1368)) abMapInvalid ((m.setN p.ix 1 1).setN p.ix 2 p.s.id)
  else if p.sub = 3 then act (p.store m)
  else actIf (!m.objB p.ix 1) abMapLocked (if p.sub = 4 then p.store m else m.setN p.ix p.sub (p.n / 256 * 256))

/-- Objects of chapters 02. -/
def Put.sessions (p : Put) (m : Mach) : Option Act :=
  if p.ix = 0x1010 then some (p.transition m)
  else if p.ix = 0x1110 ∨ p.ix = 0x1111 then some (p.key m)
  else if 0x1130 ≤ p.ix ∧ p.ix ≤ 0x1137 then some (p.cyclicMap m)
  else if p.ix = 0x1200 then some (act { m with jrn := { m.jrn with recs := [] } })
  else if p.ix = 0x7808 ∧ p.sub = 2 then
    some (actIf (decide (p.n < itemCount (p.s.own_ 0x7808 1).toNat)) abAbove (p.store m))
  else none

/-! ### Power, temperature, time (14, 15, 16) -/

/-- A threshold of a sensor class (R480): at most its default, and the five in rising order; in force from the next conversion (R486). -/
def Put.threshold (p : Put) (m : Mach) : Act :=
  let m' := p.store (m.holdLimits (p.ix - 0x2240))
  let l := m'.classLimits (p.ix - 0x2240)
  actIf (decide (p.v ≤ dflt (okey p.ix p.sub)) && (List.zipWith (fun a b => decide (a < b)) l (l.drop 1)).all id) abInconsistent m'

/-- The value names port 2 or 3, which do not exist on KWD-8840-S (R381). -/
def Put.noPort (p : Put) : Bool := !p.c.unit.orderX && (p.n = 2 || p.n = 3)

/-- Objects of chapters 15 and 16. -/
def Put.supply (p : Put) (m : Mach) : Option Act :=
  match p.ix, p.sub with
  | 0x2000, 9 => some (.ok ((p.store m).evaluateStage p.c))
  | 0x2100, 2 => some (.ok (m.request (p.n % 16) p.c))
  | 0x2100, 4 => some (act (m.setN 0x2100 4 ((p.n &&& 0x7F) ||| 0x40)))
  | 0x2100, 7 => some (actIf (p.c.unit.orderX || p.n / 4 % 4 = 0) abValue (m.setN 0x2100 7 (p.n &&& 0x1F)))
  | ix, 8 => if 0x2220 ≤ ix ∧ ix ≤ 0x223B then some (actM (m.clearSensor (ix - 0x2220)))
      else if 0x2240 ≤ ix ∧ ix ≤ 0x2245 then some (p.threshold m) else none
  | ix, 9 => if 0x2220 ≤ ix ∧ ix ≤ 0x223B then some (actM (m.releaseSensor (ix - 0x2220)))
      else if 0x2240 ≤ ix ∧ ix ≤ 0x2245 then some (p.threshold m) else none
  | ix, _ => if 0x2240 ≤ ix ∧ ix ≤ 0x2245 then some (p.threshold m) else none

/-- The objects of a time domain (R415): :02 to :05 only while it is disabled. -/
def Put.domain (p : Put) (m : Mach) : Act :=
  let d := p.ix - 0x3010
  if p.sub = 1 then .ok ((((p.store m).enableDomain d (p.v != 0))).advanceStops p.c)
  else if p.sub = 4 ∧ p.noPort then .error abValue
  else if 2 ≤ p.sub ∧ p.sub ≤ 5 ∧ m.objB p.ix 1 then .error abPrecondition
  else act (p.store m)

/-- Objects of chapter 14. A step that they make may end a stop of heats (R80). -/
def Put.times (p : Put) (m : Mach) : Option Act :=
  match p.ix, p.sub with
  | 0x3000, 3 => some (.ok ((m.writeSelection p.n).advanceStops p.c))
  | 0x3000, 0x0D => some ((m.setTime p.n).map (fun m => m.advanceStops p.c))
  | 0x3100, 3 => some (actM m.applyOutputs)
  | ix, _ => if ix = 0x3010 ∨ ix = 0x3011 then some (p.domain m) else none

/-! ### Network ports (13) -/

/-- The objects of a source slot (R391): its configuration only while it is disabled. -/
def Put.slot (p : Put) (m : Mach) : Act :=
  let k := p.s.bank p.ix
  if p.sub = 1 then act (m.enableSlot p.c k (p.v != 0))
  else if p.sub = 2 ∧ p.noPort then .error abValue
  else if m.objB 0x4110 1 k then .error abPrecondition
  else if p.sub = 2 then actIf ((p.store m).meterAllowed k) abInconsistent (p.store m)
  else act (p.store m)

/-- Objects of chapter 13. -/
def Put.ports (p : Put) (m : Mach) : Option Act :=
  if p.ix = 0x4110 then some (p.slot m)
  else if p.ix = 0x4100 ∧ p.sub = 4 then some (act (each (upTo 256) (p.store m) Mach.judgeReds))
  else if p.ix = 0x4111 then
    some (actIf ((p.store m).meterAllowed (p.s.bank p.ix)) abInconsistent ((p.store m).restartMeter (p.s.bank p.ix)))
  else if 0x4200 ≤ p.ix ∧ p.ix ≤ 0x4213 then
    let q := (p.ix - 0x4200) / 4
    let k := (p.ix - 0x4200) % 4
    some (actIf (p.sub != 3 || (p.store m).burstAllowed q k) abInconsistent ((p.store m).restartShaper q k))
  else if 0x4220 ≤ p.ix ∧ p.ix ≤ 0x4224 ∧ p.sub = 1 then 
    some (.ok (((p.store m).dropTooLong (p.ix - 0x4220)).on (fun m => m.startNext p.c (p.ix - 0x4220))))
  else if 0x4220 ≤ p.ix ∧ p.ix ≤ 0x4224 ∧ p.sub = 6 then some (actM (m.applyGates (p.ix - 0x4220)))
  else none

/-! ### Heats, scene, outputs (03, 04, 06) -/

/-- Objects of chapter 03. -/
def Put.schedule (p : Put) (m : Mach) : Option Act :=
  match p.ix, p.sub with
  | 0x5000, 4 => some (actM (m.requestSlots p.n))
  | 0x5000, 5 => some (actM m.applySchedule)
  | 0x5001, 1 => some (actIf (m.marginsAllowed p.n (m.objN 0x5001 2)) abInconsistent (p.store m))
  | 0x5001, 2 => some (actIf (m.marginsAllowed (m.objN 0x5001 1) p.n) abInconsistent (p.store m))
  | _, _ => none

/-- Objects of chapter 04. -/
def Put.layers (p : Put) (m : Mach) : Option Act :=
  match p.ix, p.sub with
  | 0x5180, 1 => some (actM m.applyDescriptors)
  | 0x51B1, 5 => some (actM (if p.n = 0x4C4300B1 then m.startRecording else m.recordStop))
  | 0x51B2, 2 => some (actM m.deleteClip)
  | ix, 7 => if 0x51A0 ≤ ix ∧ ix ≤ 0x51A7 then some (actM (m.startUpload (ix - 0x51A0))) else none
  | _, _ => none

/-- The objects of a signature region (R190). -/
def Put.region (p : Put) (m : Mach) : Act :=
  let r := p.ix - 0x5420
  if p.sub = 1 then actM (m.enableRegion r (p.v != 0))
  else if p.sub = 9 then act (m.learnRegion r)
  else actIf (!(decide (2 ≤ p.sub) && decide (p.sub ≤ 6) && m.objB p.ix 1)) abPrecondition (p.store m)

/-- Objects of chapter 06. -/
def Put.observers (p : Put) (m : Mach) : Option Act :=
  if 0x5408 ≤ p.ix ∧ p.ix ≤ 0x540F ∧ p.sub = 6 then some (actM (m.startRegion (p.ix - 0x5408)))
  else if 0x5410 ≤ p.ix ∧ p.ix ≤ 0x5413 ∧ p.sub = 5 then some (actIf (!p.noPort) abValue (p.store m))
  else if p.ix = 0x5418 ∧ p.sub = 7 then some (actM (if p.n = 0x4C4300C1 then m.startCapture else m.stopCapture))
  else if 0x5420 ≤ p.ix ∧ p.ix ≤ 0x542F then some (p.region m)
  else none

/-! ### Codec, drawing, DRAM (07, 08, 09) -/

/-- The command of a host job (R229, R233). -/
def Put.job (p : Put) (m : Mach) : Act :=
  let j := p.ix - 0x7110
  if p.n = 0x4C430071 then
    match m.jobRefused p.c j with
    | some a => .error a
    | none => .ok (m.startJob p.c j)
  else
    let r := p.reach Config.abortTokens m
    (r.1.abortJob p.c j r.2).map (fun e => e.on (fun m => m.feedEngines.feedEncode))

/-- The command of drawing channel 0 (R244, R247). -/
def Put.draw (p : Put) (m : Mach) : Act :=
  if p.n = 0x4C430081 then actM m.startDraw
  else
    let r := p.reach Config.drawDone m
    r.1.abortDraw p.c r.2

/-- Objects of chapters 07, 08 and 09. -/
def Put.memory (p : Put) (m : Mach) : Option Act :=
  match p.ix, p.sub with
  | 0x5800, 0x0B => some (p.draw m)
  | 0x5800, k => some (actIf (m.drawState 0 != 1) abPrecondition (if k = 1 then m.setN 0x5800 1 (p.n &&& 0xF33) else p.store m))
  | 0x7000, 6 => some (actIf (decide (m.objN 0x7000 7 < p.n)) abInconsistent (p.store m))
  | 0x7000, 7 => some (actIf (decide (p.n < m.objN 0x7000 6)) abInconsistent (p.store m))
  | 0x7060, _ => some (actM (m.retireChannel (p.n - 0x4C430900)))
  | ix, 0x0C => if 0x7110 ≤ ix ∧ ix ≤ 0x7117 then some (p.job m) else none
  | _, _ => none

/-! ### Lanes, tiles, panel (10, 11, 12) -/

/-- A removal request (R327): an ACTIVE tile leaves once its final checkpoint is written, a READY one at once. -/
def Mach.requestRemoval (m : Mach) (c pos : Nat) : Except Nat Mach :=
  if m.tileState c pos = 3 then .ok (m.park c pos)
  else if m.tileState c pos ≠ 4 then .error abPrecondition
  else
    let m := m.onTile c pos (fun t => { t with leaving := true })
    match m.panelFor c pos with
    | some q => .ok (m.askCheckpoint c pos q)
    | none => .ok m

/-- Objects of chapters 10 and 11. -/
def Put.links (p : Put) (m : Mach) : Option Act :=
  if p.ix = 0x6100 ∧ p.sub = 3 then some ((actM m.applyMapWrite).watch m)
  else if p.ix = 0x6000 ∧ p.sub = 4 then some (act (each (upTo 192) (p.store m) Mach.judgeErrors))
  else if p.ix = 0x6181 then some (actM (m.requestRemoval p.s.tile.1 p.s.tile.2))
  else if p.ix < 0x6010 ∨ 0x60CF < p.ix then none
  else
    let l := p.ix - 0x6010
    match p.sub with
    | 1 => some ((actM (m.writeMode l p.n)).watch m)
    | 2 => some (act (p.store m).followDeep)
    | 0x11 => some (act (m.clearPrbs l))
    | 0x14 => some (actM (if p.n = 0x4C430061 then m.startInjection p.c l else m.stopInjection l))
    | _ => none

/-- A band boundary (R343): the seven stay in rising order. -/
def Put.boundary (p : Put) (m : Mach) : Act :=
  let m' := p.store m
  let l := (upTo 7).map (fun k => m'.obj 0x6301 (k + 1))
  actIf ((List.zipWith (fun a b => decide (a < b)) l (l.drop 1)).all id) abInconsistent m'

/-- The quench command (R373, R374). -/
def Put.quench (p : Put) (m : Mach) : Act :=
  if p.n = 0x4C430F0F then Act.watch (.ok ((m.quench 4).advanceStops p.c)) m else actM (m.releaseQuench p.c)

/-- Objects of chapter 12. -/
def Put.panel (p : Put) (m : Mach) : Option Act :=
  match p.ix, p.sub with
  | 0x6211, 8 => some (actM (m.requestCheckpoint p.s.panel))
  | 0x6300, 3 => some (act (m.writeSettle p.n))
  | 0x6301, _ => some (p.boundary m)
  | 0x6400, 7 => some (act (m.setStr 0x6400 7 (p.b.mapIdx (fun i x => if i % 2 = 0 then x &&& 0x0F else x))).touchSlate)
  | 0x6400, k => if k = 1 then some (act (p.store m).followDeep.touchSlate) else if k ≤ 5 then some (act (p.store m).touchSlate) else none
  | 0x6401, _ => some (p.quench m)
  | ix, 3 => if 0x6220 ≤ ix ∧ ix ≤ 0x6227 then some (actM (m.startGain (ix - 0x6220))) else none
  | ix, 9 => if 0x6310 ≤ ix ∧ ix ≤ 0x634F then some (actM (m.clearCommon (ix - 0x6310))) else none
  | _, _ => none

/-! ### Calibration, self-test, injection (17, 18) -/

/-- The command of a calibration (R489, R494, R495). -/
def Put.calibration (p : Put) (m : Mach) : Act :=
  match p.n - 0x4C430780 with
  | 0 => actM (m.startCal p.c)
  | 1 => actM m.abortCal
  | 2 => actM m.acceptCal
  | _ => actM m.rejectCal

/-- A factory set (R498): the record of the selected instance. -/
def Put.factorySet (p : Put) (m : Mach) : Act :=
  let item := p.s.calKey / 1024
  let size := ((itemShape item).map Prod.fst).sum
  if itemCount item ≤ p.s.calKey % 1024 then .error abAbove
  else if p.b.length < size then .error abTooShort
  else if size < p.b.length then .error abTooLong
  else actIf (recordAllowed item (recordValues (itemShape item) p.b)) abValue
    (m.keepValues p.s.calKey (fun m => (m.setStr 0x7809 0 p.b p.s.calKey).flashWrite))

/-- Objects of chapters 17 and 18. -/
def Put.tests (p : Put) (m : Mach) : Option Act :=
  match p.ix, p.sub with
  | 0x7800, 2 => some (actIf (decide (p.n < itemCount (m.objN 0x7800 1))) abAbove (p.store m))
  | 0x7800, 3 => some ((act (p.store m)).watch m)
  | 0x7800, 5 => some (p.calibration m)
  | 0x7808, 5 => some (actM (m.clearSlot p.s.calKey (p.s.own_ 0x7808 3).toNat))
  | 0x7809, _ => some (p.factorySet m)
  | 0x7C01, 5 => some (actM (if p.n = 0x4C4307C1 then m.startTest p.c else m.abortTest))
  | 0x7F00, _ => some (act (if p.n = 0x4C437F01 then m.openWindow p.s.id else m.closeWindow p.s.id))
  | 0x7F01, 4 => some (if m.objN 0x7F01 1 = 17 ∧ p.n < 58 then .error abBelow
    else actIf (decide (m.objN 0x7F01 1 = 17 → p.n ≤ 300)) abAbove (p.store m))
  | 0x7F01, 5 => some (if p.n = 0x4C437F61 then m.startInject p.c else actM m.stopInject)
  | _, _ => none

/-! ### A write -/

/-- The effect of a WRITE whose checks have passed: the object's own behaviour, or its value stored. -/
def Put.run (p : Put) (m : Mach) : Act :=
  match [p.sessions, p.supply, p.times, p.ports, p.schedule, p.layers, p.observers, p.memory, p.links, p.panel, p.tests].findSome? (fun f => f m) with
  | some a => a
  | none => act (p.store m)

/-! ### The end of a segmented write (R53, R70) -/

/-- The image that an upload goes to (R70). -/
def Mach.uploadTarget (m : Mach) : Nat := if m.boot.recovery then m.boot.record.selected else 1 - m.boot.record.running

/-- A firmware image has arrived (R70): its flash write begins, or it is refused. -/
def Mach.takeImage (m : Mach) (x : ImageVerdict) : Except Nat Mach :=
  if x.valid then .ok { m.setN 0x1003 1 1 with koa := { m.koa with imageWriting := some x.version } } else .error abValue

/-- IMAGE_FLASH_WRITTEN (R70, R536): the boot record names the new image, on trial. -/
def imageFlashWritten (m : Mach) : Mach :=
  match m.koa.imageWriting with
  | none => m
  | some v =>
    let t := m.uploadTarget
    let m := m.flashWrite
    let m := { m with koa := { m.koa with imageWriting := none } }
    let m := m.draw.onRecord (fun r => { r with
      selected := t, trial := true, count := 0, validA := r.validA || t = 0, validB := r.validB || t = 1
      bytesA := if t = 0 then m.free + 2 else r.bytesA, bytesB := if t = 1 then m.free + 2 else r.bytesB })
    (m.setN 0x1001 (2 + t) v).setN 0x1003 1 2

/-- A DOMAIN object that a write cannot replace now (R128, R358). -/
def Mach.domainBusy (m : Mach) (ix : Nat) : Bool :=
  if 0x5190 ≤ ix ∧ ix ≤ 0x5197 then m.scene.uploads.any (fun u => u.buf = ix - 0x5190)
  else if 0x6230 ≤ ix ∧ ix ≤ 0x6237 then m.gainState (ix - 0x6230) = 1 || m.gainState (ix - 0x6230) = 2
  else false

/-- A gate list's entries as they are kept, the reserved bits 0 (R9, R399). -/
def gateStaged (b : Bytes) : Bytes :=
  b.mapIdx (fun i x => if i % 8 = 0 then x &&& 0x0F else if i % 8 ≤ 3 then 0 else x)

/-- What the end of a segmented write does, once length and CRC-32C are right. -/
def Mach.putDomain (m : Mach) (ix : Nat) (b : Bytes) (x : ImageVerdict) : Act :=
  let keep : Act := act (m.setStr ix 0 b)
  if m.domainBusy ix then .error abInUse
  else if ix = 0x1002 then actM (m.takeImage x)
  else if ix = 0x51B3 then m.writeClip b
  else if 0x5311 ≤ ix ∧ ix ≤ 0x5313 then
    (if filterAllowed b then act ((m.setStr ix 0 b).onPipe (fun p => { p with newSets := addNew p.newSets (ix - 0x5310) })) else .error abValue)
  else if 0x5404 ≤ ix ∧ ix ≤ 0x5407 then (if patchAllowed b then .ok (m.writePatch (ix - 0x5404) b) else .error abInconsistent)
  else if ix = 0x7102 then
    (if 0x10000000 < m.objN 0x7101 1 + b.length then .error abAbove else .ok (m.store (jobBase + m.objN 0x7101 1) b))
  else if 0x6230 ≤ ix ∧ ix ≤ 0x6237 then (if gainPatchAllowed b then keep else .error abInconsistent)
  else if 0x6350 ≤ ix ∧ ix ≤ 0x6357 then
    (if tableAllowed b then act ((m.setStr ix 0 (b.mapIdx (fun i y => if 6 ≤ i % 8 then 0 else y))).onPanel (fun y => { y with newTables := addNew y.newTables (ix - 0x6350) })) else .error abValue)
  else if 0x4230 ≤ ix ∧ ix ≤ 0x4234 then act (m.setStr ix 0 (gateStaged b))
  else keep

end Sys2Proof.Machine
end

