-- ==== Sys2Proof/Machine/KoaServe.lean ====
section
/-! DEFINITION. The KOA server: requests, their order of checks and their kept responses (R45 to R48, R66, R568), READ and WRITE, segmented
transfers (R51 to R54). -/

namespace Sys2Proof.Machine

/-! ### Requests -/

/-- What a request is answered: the effect, the type and payload of the response, and what follows the response. -/
structure Reply where
  eff : Eff
  ty : Nat
  bytes : Bytes
  after : Mach → Eff := Eff.of

/-- Keeps a response: the newest 16, one to a request tag (R47). -/
def keepResponse (l : List Kept) (k : Kept) : List Kept :=
  let l := l.filter (fun x => x.tag != k.tag) ++ [k]
  l.drop (l.length - 16)

/-- Answers a request and keeps the response (R47); the access without a session keeps none. -/
def Mach.answer (m : Mach) (id ty : Nat) (g : KoaMsg) (respTy : Nat) (resp : Bytes) : Mach :=
  let m := if id = 0 then m else m.onSession id (fun s => { s with kept := keepResponse s.kept ⟨g.hdr.tag, ty, g.payload, respTy, resp⟩ })
  m.sayTo g.hdr.peer id respTy 0 g.hdr.tag resp

/-- Whether recovery accepts a request (R45): READ of 0x1000 to 0x10FF, and the segmented write of 0x1002. -/
def recoveryTakes (ty : Nat) (p : Bytes) : Bool :=
  let ix := ofBE (p.take 2)
  (ty = 0x10 && 0x1000 ≤ ix && ix ≤ 0x10FF) || (ty = 0x20 && ix = 0x1002 && slice 3 1 p = [1])

/-- A message of a session after the checks of R36 to R42. -/
def Mach.serve (m : Mach) (c : Ctx) (ty : Nat) (g : KoaMsg) (f : Session → Mach → Eff) : Eff :=
  match m.vet c ty g with
  | .drop m => .of m
  | .take m s => f s m

/-! ### READ and WRITE -/

/-- The payload of a READ_RESPONSE (R38). -/
def readResponse (ix sub ty : Nat) (v : Bytes) : Bytes := beBytes 2 ix ++ beBytes 1 sub ++ beBytes 1 ty ++ beBytes 2 v.length ++ v

/-- A READ of an object. -/
def Mach.doRead (m : Mach) (c : Ctx) (s : Session) (ix sub : Nat) : Except Nat Reply :=
  let m := m.wakeFor ix
  match m.readAbort c ix sub false with
  | some a => .error a
  | none => match objRow ix sub with
    | none => .error abNoSub
    | some r =>
      if r.ty.size.isNone then (m.readBytes c s ix sub).map (fun b => ⟨.of m, 0x11, readResponse ix sub r.ty.code b, Eff.of⟩)
      else
        let m := if m.unstated ix sub then m.draw else m
        .ok ⟨.of m, 0x11, readResponse ix sub r.ty.code (r.ty.encode (m.read c s ix sub)), Eff.of⟩

/-- A WRITE of an object. After the response the sessions of a written key slot close (R43). -/
def Mach.doWrite (m : Mach) (c : Ctx) (s : Session) (ix sub ty : Nat) (b : Bytes) (hint : Option Nat) : Except Nat Reply :=
  let m := m.wakeFor ix
  match m.writeAbort c s.role ix sub false b with
  | some a => .error a
  | none => match objRow ix sub with
    | none => .error abNoSub
    | some r => match r.valueAbort ty b with
      | some a => .error a
      | none => match Put.run { c := c, s := s, ix := ix, sub := sub, v := r.value b, b := b, hint := hint } m with
        | .error a => .error a
        | .ok e => .ok ⟨e, 0x13, beBytes 2 ix ++ beBytes 1 sub ++ [0],
            fun m => .of (if ix = 0x1110 ∨ ix = 0x1111 then m.closeSlot sub else m)⟩

/-! ### Segmented transfer -/

/-- Whether a session has a transfer open: one that runs, or a work-surface patch whose final SEG_ACK is to come. -/
def Mach.transferOpen (m : Mach) (s : Session) : Bool := s.xfer.isSome || m.outs.held.any (fun x => x.session = s.id)

/-- Whether another session writes a DOMAIN object (R54). -/
def Mach.domainTaken (m : Mach) (ix sub : Nat) : Bool :=
  (m.koa.direct :: m.koa.sessions).any (fun s => match s.xfer with
    | some x => x.write && x.ix = ix && x.sub = sub
    | none => false) || (0x5404 ≤ ix && ix ≤ 0x5407 && m.outs.held.any (fun x => x.layer = ix - 0x5404))

/-- Segments of a snapshot. -/
def segCount (n : Nat) : Nat := ceilDiv n 1024

/-- Sends segment `i` of a read transfer; the last one sets LAST (R52). -/
def Mach.sendSegment (m : Mach) (id : Nat) (x : Xfer) (i : Nat) : Mach :=
  m.say id 0x22 (if i + 1 = segCount x.total then 1 else 0) x.tag (beBytes 4 i ++ slice (1024 * i) 1024 x.data)

/-- A read transfer sends what its window of 8 allows (R52). -/
def Mach.pumpRead (m : Mach) (id : Nat) : Mach :=
  match (m.session id).xfer with
  | none => m
  | some x =>
    let top := min (x.next + 8) (segCount x.total)
    let m := each (List.range' x.sent (top - x.sent)) m (fun m i => m.sendSegment id x i)
    if x.sent < top then m.onSession id (fun s => { s with xfer := some { x with sent := top, lastSend := m.now } }) else m

/-- A transfer is over. -/
def Mach.endTransfer (m : Mach) (id : Nat) : Mach := m.onSession id (fun s => { s with xfer := none })

/-- The module cancels a transfer (R52). -/
def Mach.cancelTransfer (m : Mach) (id tag code : Nat) : Mach := (m.endTransfer id).say id 0x2F 0 tag (beBytes 4 code)

/-- The abort of the end of a segmented write (R53, R52, R64): power state, role, access and life cycle as they stand now, the length against
SEG_OPEN and the object's own, then the CRC-32C. A shut-down, which refuses a SEG_OPEN (R509, R539), lets an open transfer end. -/
def Mach.endAbort (m : Mach) (c : Ctx) (s : Session) (x : Xfer) : Option Nat :=
  let open_ : Mach := { m with boot := { m.boot with shut := 0 } }
  firstAbort [open_.writeAbort c s.role x.ix x.sub true, if x.data.length < x.total then some abTooShort else none,
    (objRow x.ix x.sub).bind (fun r => r.lengthAbort x.data.length), if crc32c x.data ≠ x.crc then some abCrc else none]

/-- The end of a segmented write (R53, R70, R176): the content replaces the old one and the final SEG_ACK is sent, or the transfer is cancelled.
A refused image shows REFUSED; a patch that a RUNNING region update holds back waits. -/
def Mach.finishWrite (m : Mach) (c : Ctx) (s : Session) (x : Xfer) (tag : Nat) (image : ImageVerdict) : Eff :=
  let ack := beBytes 4 x.next
  let g := x.ix - 0x5404
  match m.endAbort c s x with
  | some a => .of (m.cancelTransfer s.id tag a)
  | none =>
    if 0x5404 ≤ x.ix ∧ x.ix ≤ 0x5407 ∧ patchAllowed x.data ∧ m.patchHeld g x.data then
      let m := m.endTransfer s.id
      .of { m with outs := { m.outs with held := m.outs.held ++ [⟨g, x.data, s.id, s.peer, tag, ack⟩] } }
    else match m.putDomain x.ix x.data image with
      | .error a => .of ((if x.ix = 0x1002 then m.setN 0x1003 1 3 else m).cancelTransfer s.id tag a)
      | .ok e => e.on (fun m => (m.endTransfer s.id).say s.id 0x23 0 tag ack)

/-- The checks of a SEG_OPEN (R51, R54, R66, R128). A transfer that is open already is reported before every condition of R66 (DESIGN CHOICE,
log entry 80: the order of R66 does not name it). -/
def Mach.openAbort (m : Mach) (c : Ctx) (s : Session) (ix sub dir : Nat) : Option Nat :=
  if m.transferOpen s then some abXferOpen
  else if dir = 1 then
    firstAbort [m.writeAbort c s.role ix sub true, if m.domainTaken ix sub ∨ m.domainBusy ix then some abInUse else none]
  else if dir = 0 then m.readAbort c ix sub true
  else firstAbort [m.unavailable ix true, missing c.unit.orderX ix sub,
    if (objRow ix sub).map Row.ty ≠ some .dom then some abDomain else none, some abValue]

/-- SEG_OPEN of a write: a transfer of zero bytes runs its end checks at once (R52). -/
def Mach.openWrite (m : Mach) (c : Ctx) (s : Session) (ix sub tag total crc : Nat) : Reply :=
  let x : Xfer := { ix := ix, sub := sub, write := true, total := total, crc := crc, data := [], next := 0, sent := 0,
                    progress := m.now, lastSend := m.now, tag := tag }
  { eff := .of (m.onSession s.id (fun s => { s with xfer := some x })), ty := 0x21, bytes := beBytes 4 total ++ beBytes 4 0,
    after := fun m => if total = 0 then m.finishWrite c s x tag ⟨false, 0⟩ else .of m }

/-- SEG_OPEN of a read: the snapshot, its CRC-32C, and the first segments (R52). An injection that waits for the next read of a channel acts on it,
and the read aborts (R273, R523). -/
def Mach.openRead (m : Mach) (c : Ctx) (s : Session) (ix sub tag : Nat) : Except Nat Reply :=
  let was := m.poisonWaits
  let m := (m.wakeFor ix).strike (sourceBase 10) (m.domainRuns s ix)
  match m.readBytes c s ix sub with
  | .error a => if was then .ok ⟨.of m, 0x7F, abortPayload ix sub a, Eff.of⟩ else .error a
  | .ok b =>
    let m := m.reads (sourceBase 10) (m.domainRuns s ix)
    let x : Xfer := { ix := ix, sub := sub, write := false, total := b.length, crc := crc32c b, data := b, next := 0, sent := 0,
                      progress := m.now, lastSend := m.now, tag := tag }
    .ok { eff := .of (if b = [] then m else m.onSession s.id (fun s => { s with xfer := some x })), ty := 0x21,
          bytes := beBytes 4 b.length ++ beBytes 4 (crc32c b), after := fun m => .of (m.pumpRead s.id) }

/-- A SEG_OPEN (R47, R51, R52, R54). -/
def Mach.doOpen (m : Mach) (c : Ctx) (s : Session) (ix sub dir tag total crc : Nat) : Except Nat Reply :=
  match m.openAbort c s ix sub dir with
  | some a => .error a
  | none => if dir = 1 then .ok (m.openWrite c s ix sub tag total crc) else m.openRead c s ix sub tag

/-! ### Requests in their order (R46) -/

/-- What a request does: READ, WRITE or SEG_OPEN. -/
def Mach.perform (m : Mach) (c : Ctx) (s : Session) (ty : Nat) (g : KoaMsg) (hint : Option Nat) : Except Nat Reply :=
  let p := g.payload
  let ix := ofBE (p.take 2)
  let sub := ofBE (slice 2 1 p)
  match ty with
  | 0x10 => m.doRead c s ix sub
  | 0x12 => m.doWrite c s ix sub (ofBE (slice 3 1 p)) (p.drop 6) hint
  | _ => m.doOpen c s ix sub (ofBE (slice 3 1 p)) g.hdr.tag (ofBE (slice 4 4 p)) (ofBE (slice 8 4 p))

/-- Answers a request with an ABORT that carries the object of its payload. -/
def Mach.refuse (m : Mach) (id ty : Nat) (g : KoaMsg) (a : Nat) : Mach :=
  let o := payloadObject ty g.payload
  m.answer id ty g 0x7F (abortPayload o.1 o.2 a)

/-- Executes a request and answers it. -/
def Mach.execute (m : Mach) (c : Ctx) (s : Session) (ty : Nat) (g : KoaMsg) (hint : Option Nat) : Eff :=
  match m.perform c s ty g hint with
  | .error a => .of (m.refuse s.id ty g a)
  | .ok r => (r.eff.on (fun m => m.answer s.id ty g r.ty r.bytes)).then_ r.after

/-- The response kept for a request (R47). -/
def Session.keeps (s : Session) (ty : Nat) (g : KoaMsg) : Option Kept :=
  s.kept.find? (fun k => k.tag = g.hdr.tag && k.ty = ty && k.payload = g.payload)

/-- An outstanding request has its turn: executed, or answered by the response kept for it meanwhile (R47). -/
def Mach.turn (m : Mach) (c : Ctx) (w : Waiting) : Eff :=
  match m.session? w.session with
  | none => .of m
  | some s => match s.keeps w.ty w.msg with
    | some k => .of (m.sayTo w.msg.hdr.peer s.id k.respTy 0 k.tag k.resp)
    | none => m.execute c s w.ty w.msg w.hint

/-- The outstanding request that comes next: of the session whose request was accepted first, the one with the lowest counter (R46). -/
def nextWaiting (l : List Waiting) : Option Waiting :=
  l.head?.map (fun w => (l.filter (fun x => x.session = w.session)).foldl (fun a x => if x.msg.hdr.counter < a.msg.hdr.counter then x else a) w)

/-- Executes `n` outstanding requests one after the other (R46). -/
def Mach.drain (c : Ctx) : Nat → Mach → Eff
  | 0, m => .of m
  | n + 1, m => match nextWaiting m.koa.waiting with
    | none => .of m
    | some w =>
      let e := ({ m with koa := { m.koa with waiting := m.koa.waiting.erase w } } : Mach).turn c w
      e.then_ (Mach.drain (e.after c) n)

/-- READ, WRITE or SEG_OPEN after the checks of R36 to R42: a kept response is sent again (R47); otherwise the length (R568), the restriction of
recovery (R45), the number of outstanding requests (R46), and the request itself, in its turn. -/
def Mach.request16 (m : Mach) (c : Ctx) (s : Session) (ty : Nat) (g : KoaMsg) (hint : Option Nat) : Eff :=
  match s.keeps ty g with
  | some k => .of (m.say s.id k.respTy 0 k.tag k.resp)
  | none =>
    match lengthAbort ty g.payload with
    | some a => .of (m.refuse s.id ty g a)
    | none =>
      if m.boot.recovery ∧ !recoveryTakes ty g.payload then .of (m.refuse s.id ty g abRole)
      else if 16 ≤ (m.koa.waiting.filter (fun w => w.session = s.id)).length then .of (m.refuse s.id ty g abOutstanding)
      else if !g.hdr.busy ∧ m.koa.waiting = [] then m.execute c s ty g hint
      else
        let m := { m with koa := { m.koa with waiting := m.koa.waiting ++ [⟨s.id, ty, g, hint⟩] } }
        if g.hdr.busy then .of m else m.drain c m.koa.waiting.length

/-- READ (R46, R51, R63, R66). -/
def koaRead (g : KoaMsg) (c : Ctx) (m : Mach) : Eff := m.serve c 0x10 g (fun s m => m.request16 c s 0x10 g none)

/-- WRITE (R46, R48, R51, R63, R66). -/
def koaWrite (g : KoaMsg) (hint : Option Nat) (c : Ctx) (m : Mach) : Eff := m.serve c 0x12 g (fun s m => m.request16 c s 0x12 g hint)

/-- SEG_OPEN (R46, R47, R51, R52, R54). -/
def segOpen (g : KoaMsg) (c : Ctx) (m : Mach) : Eff := m.serve c 0x20 g (fun s m => m.request16 c s 0x20 g none)

/-- The message that a WRITE of a given object is. -/
def writeMsg (w : WriteReq) (ix sub : Nat) : KoaMsg :=
  { hdr := w.hdr, payload := beBytes 2 ix ++ beBytes 1 sub ++ beBytes 1 w.ty ++ beBytes 2 w.value.length ++ w.value }

/-- A command that is the WRITE of one object. -/
def writeOf (ix sub : Nat) (w : WriteReq) (c : Ctx) (m : Mach) : Eff := koaWrite (writeMsg w ix sub) none c m

/-- With no command waiting: core 0 executes the outstanding requests, a period of the clock goes by, a step of an entry to P3 whose instant
has come is taken (R454), and the watchdog of a core that an injection has stopped expires (R523, R541; log entries 4 and 9). -/
def idle (c : Ctx) (m : Mach) : Eff :=
  let e : Eff := if m.koa.waiting = [] ∨ !m.coreUp 0 then .of m.idle else (m.drain c m.koa.waiting.length).on Mach.idle
  (e.then_ (fun m => m.sleepStep (e.after c))).then_ Mach.expireUnserved

/-! ### The segments of a transfer -/

/-- A segment of a write that was expected or not (R52). -/
def Mach.takeSegment (m : Mach) (c : Ctx) (s : Session) (x : Xfer) (g : KoaMsg) (image : ImageVerdict) : Eff :=
  let n := ofBE (g.payload.take 4)
  let b := g.payload.drop 4
  let last : Bool := g.hdr.flags % 2 = 1
  let cancel (a : Nat) : Eff := .of (m.cancelTransfer s.id g.hdr.tag a)
  if x.next + 8 < n then cancel abWindow
  else if n ≠ x.next then .of (m.say s.id 0x23 0 g.hdr.tag (beBytes 4 x.next))
  else if b = [] ∨ (!last ∧ b.length < 1024) then cancel abTooShort
  else if 1024 < b.length ∨ x.total < x.data.length + b.length then cancel abTooLong
  else
    let x := { x with data := x.data ++ b, next := n + 1, progress := m.now }
    let m := m.onSession s.id (fun s => { s with xfer := some x })
    if last then m.finishWrite c s x g.hdr.tag image else .of (m.say s.id 0x23 0 g.hdr.tag (beBytes 4 x.next))

/-- A message of a transfer: its length (R568), then what it does to the open transfer; without one nothing is answered (R52). -/
def Mach.ofTransfer (m : Mach) (c : Ctx) (ty : Nat) (g : KoaMsg) (f : Session → Xfer → Mach → Eff) : Eff :=
  m.serve c ty g (fun s m =>
    match lengthAbort ty g.payload with
    | some a => .of (m.abort s.id g.hdr.tag 0 0 a)
    | none => match s.xfer with
      | none => .of m
      | some x => f s x m)

/-- SEG_DATA (R52, R53). `image` is what the check of R535 finds when the segment completes a firmware image. -/
def segData (g : KoaMsg) (image : ImageVerdict) (c : Ctx) (m : Mach) : Eff :=
  m.ofTransfer c 0x22 g (fun s x m => if x.write then m.takeSegment c s x g image else .of m)

/-- SEG_ACK during a read (R52). -/
def segAck (g : KoaMsg) (c : Ctx) (m : Mach) : Eff :=
  m.ofTransfer c 0x23 g (fun s x m =>
    let n := ofBE g.payload
    if x.write then .of m
    else if x.sent < n then .of (m.cancelTransfer s.id g.hdr.tag abWindow)
    else if n ≤ x.next then .of m
    else if n = segCount x.total then .of (m.endTransfer s.id)
    else .of ((m.onSession s.id (fun s => { s with xfer := some { x with next := n, progress := m.now } })).pumpRead s.id))

/-- SEG_CANCEL from the host (R52). -/
def segCancel (g : KoaMsg) (c : Ctx) (m : Mach) : Eff :=
  m.serve c 0x2F g (fun s m =>
    match lengthAbort 0x2F g.payload with
    | some a => .of (m.abort s.id g.hdr.tag 0 0 a)
    | none => .of ((m.endTransfer s.id).dropHeld s.id))

/-- SEGMENT_RETRANSMISSION_TIMEOUT (R52): t_seg after its last segment without acknowledgement a read transfer sends again from the
acknowledged number. Core 0 keeps it (R29). -/
def segmentRetransmissionTimeout (id : Nat) (m : Mach) : Mach :=
  match (m.session id).xfer with
  | none => m
  | some x =>
    if x.write ∨ x.sent = x.next ∨ m.now < x.lastSend + ms 50 ∨ !m.coreUp 0 then m
    else
      let m := each (List.range' x.next (x.sent - x.next)) m (fun m i => m.sendSegment id x i)
      m.onSession id (fun s => { s with xfer := some { x with lastSend := m.now } })

/-- SEGMENTED_TRANSFER_STALL (R52): t_stall without progress. Core 0 keeps it (R29). -/
def segmentedTransferStall (id : Nat) (m : Mach) : Mach :=
  match (m.session id).xfer with
  | none => m
  | some x => if m.now < x.progress + ms 2000 ∨ !m.coreUp 0 then m else m.cancelTransfer id x.tag abStalled

/-- WORK_SURFACE_PATCH_DEFERRED (R176): a patch of a layer that no RUNNING update holds back any longer is applied, and its final SEG_ACK sent to where its last segment came from (R35); core 0 does it (R29). -/
def patchDeferred (g : Nat) (m : Mach) : Eff :=
  match m.outs.held.find? (fun x => x.layer = g && !m.patchHeld g x.data && m.coreUp 0) with
  | none => .of m
  | some x =>
    let m := { m with outs := { m.outs with held := m.outs.held.erase x } }
    (m.writePatch g x.data).on (fun m => m.sayTo x.peer x.session 0x23 0 x.tag x.ack)

end Sys2Proof.Machine
end

