-- ==== Sys2Proof/Machine/Engine.lean ====
section
/-! DEFINITION. What a codec engine's end of work leaves: blocks decoded and encoded, engine faults and host jobs taking engines
(R222 to R227, R230, R235). -/

namespace Sys2Proof.Machine

/-- Puts a decode engine to work or to rest. -/
def Mach.setDecode (m : Mach) (e : Nat) (w : EngineWork) : Mach := { m with codec := { m.codec with decode := setAt m.codec.decode e w } }

/-- Puts an encode engine to work or to rest. -/
def Mach.setEncode (m : Mach) (i : Nat) (w : EngineWork) : Mach := { m with codec := { m.codec with encode := setAt m.codec.encode i w } }

/-- The tokens of a whole block, and more. -/
def allTokens : Nat := 1048576

/-- A decode engine is charged with a parity error: its block goes to another engine ahead of all others (R222, R226). -/
def decodeFault (e : Nat) (m : Mach) : Mach :=
  if m.objN (0x7120 + e) 1 ≠ 1 ∨ 20 ≤ e then m else (m.engineFault e 1).feedEngines

/-- A host DECODE job's block ends on an engine (R222, R224, R235): it is decoded again where its check value differs; the job ends, pauses
at the block boundary when it is held, or goes on. `first` is the engine whose decode this one repeats. -/
def Mach.jobBlock (m : Mach) (c : Ctx) (e j : Nat) (wrong : Bool) (first : Option Nat) : Eff :=
  let m := m.strikeDecode c j e allTokens
  let st := m.decodeWork c j allTokens
  let differs : Bool := st.stop = some (7, 1) || (wrong && st.block)
  let m := if st.block ∨ differs then m.countDecoded e else m
  if differs ∧ first.isNone then .of ((m.setDecode e .idle).decodeAgain (.jobAgain j e))
  else if differs then ((m.bump 0x7103 2).keepWork j { st with block := false }).then_ (fun m => m.jobEnter j 7 1)
  else
    let m := match first with
      | some f => if st.block then (m.setDecode e .idle).engineFault f 2 else m
      | none => m
    let f := (m.setDecode e (.job j)).takeWork j st
    if st.stop.isSome then f
    else f.then_ (fun m =>
      if m.jobHeld j then m.pauseJob j
      else if m.objN (0x7120 + e) 1 = 1 ∧ !m.decodeWaits then .of m
      else .of (m.setDecode e .idle))

/-- BLOCK_DECODED: a decode engine finishes its block (R221, R222). `engineWrong` says that the engine delivers a wrong check value where
the data is good, and `taker` which engine is the first to take what waits then: R222 and R224 leave it to the module. -/
def blockDecoded (e : Nat) (engineWrong : Bool) (taker : Nat) (c : Ctx) (m : Mach) : Eff :=
  if 20 ≤ e ∨ m.codec.decode.getD e .idle = .idle then .of m
  else if m.armedAt 5 e ∧ m.objN (0x7120 + e) 1 = 1 then .of (decodeFault e m.acted)
  else
    let wrong := engineWrong || m.armedAt 6 e
    let m := if m.armedAt 6 e then m.acted else m
    let feed (m : Mach) : Mach := (m.feedEngine taker).feedEngines
    let block (k o : Nat) (first : Option Nat) : Eff :=
      (((m.setDecode e .idle).contentBlock e k o wrong first).on (fun m => m.checkDecision)).on feed
    match m.codec.decode.getD e .idle with
    | .content k o => block k o none
    | .again k o first => block k o (some first)
    | .job j => (m.jobBlock c e j wrong none).on feed
    | .jobAgain j first => (m.jobBlock c e j wrong (some first)).on feed
    | .spent => .of (feed ((m.setDecode e .idle).countDecoded e))
    | _ => .of m

/-- ENCODE_ENGINE_FAULT: a parity error in an encode engine's data path (R227). -/
def encodeParity (i : Nat) (m : Mach) : Mach := if 4 ≤ i then m else (m.encodeFault i 1).feedEncode

/-- BLOCK_ENCODED: an encode engine finishes its block and its self-verify (R217 to R220). -/
def blockEncoded (i : Nat) (mismatch : Bool) (c : Ctx) (m : Mach) : Eff :=
  if 4 ≤ i ∨ m.codec.encode.getD i .idle = .idle then .of m
  else
    let f : Eff := match m.codec.encode.getD i .idle with
      | .preview v b => .of ((m.setEncode i .idle).previewBlock c i v b mismatch)
      | .checkpoint p b => .of ((m.setEncode i .idle).checkpointDone c i p b mismatch)
      | .job j =>
        let (f, ended) := m.runEncode c j i mismatch
        if ended then f else f.then_ (fun m =>
          if m.jobState j ≠ 2 then .of m
          else if m.jobHeld j then m.pauseJob j
          else if m.encodeWaits then .of (m.setEncode i .idle)
          else .of m)
      | _ => .of m
    f.on (fun m => m.feedEncode)

/-- HOST_JOB_RUN: a job takes a free engine (R224, R225, R230): the oldest QUEUED job of its kind, or a RUNNING one that gave its engine
up. -/
def hostJobRun (j engine : Nat) (m : Mach) : Mach :=
  let kind := (m.job j).kind
  let oldest := (m.codec.order.find? (fun i => m.jobState i = 1 ∧ (m.job i).kind = kind)) = some j
  let housed := (m.codec.decode ++ m.codec.encode ++ m.codec.redo).any (fun w => w.job? = some j)
  let waits := (m.jobState j = 1 && oldest) || (m.jobState j = 2 && !housed)
  if waits ∧ !m.jobHeld j ∧ m.power ≤ 1 ∧ m.engineFor j engine then m.putJob j engine else m

end Sys2Proof.Machine
end

