-- ==== Sys2Proof/Machine/Events.lean ====
section
/-! DEFINITION. What a command does where it is more than one operation: the operation with what follows from it at once. -/

namespace Sys2Proof.Machine

/-! ### Writes that are commands of their own -/

/-- A WRITE of one object within the range of its instances; outside it the command spells no object. -/
def writeIn (ok : Bool) (ix sub : Nat) (w : WriteReq) (c : Ctx) (m : Mach) : Eff := if ok then writeOf ix sub w c m else .of m

/-- A WRITE of one command value to a command object; with another value it is not this command. -/
def writeCode (ok : Bool) (ix sub code : Nat) (w : WriteReq) (c : Ctx) (m : Mach) : Eff :=
  if ok ∧ ofBE w.value = code then writeOf ix sub w c m else .of m

/-- As `writeCode`, where the write ends a work that still goes some way. -/
def writeCodeAt (ok : Bool) (ix sub code reach : Nat) (w : WriteReq) (c : Ctx) (m : Mach) : Eff :=
  if ok ∧ ofBE w.value = code then koaWrite (writeMsg w ix sub) (some reach) c m else .of m

/-! ### Lanes and tiles -/

/-- WAKE_RECOGNISED: the squelch detector of a lane recognises a wake (R298, R300, R302, R303). In P0 and P1 both lanes of its chain leave the deep
state, and the second without a tile of R298 begins anew (DESIGN CHOICE, log entry 88). -/
def laneWake (l : Nat) (activity sleepLeft : Bool) (c : Ctx) (m : Mach) : Eff :=
  if 192 ≤ l ∨ m.laneMode l ≠ 0 ∨ 3 < m.power ∨ (m.rx l ≠ 1 ∧ m.tx l ≠ 2) then .of m
  else if m.power = 3 ∨ m.power_.stop = some 3 ∨ m.power_.entry.isSome then m.laneRouses l activity c
  else
    let m := m.bump (0x6010 + l) 0x16
    if m.power = 2 ∧ l / 2 ≠ m.objN 0x6400 1 then .of m
    else
      let m := m.onChain (l / 2) (fun ch => { ch with emptySince := m.now })
      .of (each [l / 2 * 2, l / 2 * 2 + 1] m (fun m x => m.wakeOrCancel x sleepLeft))

/-- ACK (R318, R319): segments 0 to `seq` of a version or transfer, or a COMMIT or WITHDRAW (kind 7). -/
def ackBlock (c pos version kind tag seq : Nat) (m : Mach) : Mach :=
  if 96 ≤ c ∨ 10 ≤ pos then m
  else
  let m := m.answers c pos
  if kind = 7 then m.ackCommit c pos version tag
  else
    let l := m.feedLane c pos
    let m := m.ackSegs l pos version kind tag seq
    if kind = 0 then (m.checkReceived l pos version).rescheduleAll
    else if kind ≤ 2 then m.checkObject c pos kind else m

/-- NAK (R86, R318), with what the dropped version leaves to others. -/
def nakBlock (c pos version kind tag seq : Nat) (m : Mach) : Mach := ((nak c pos version kind tag seq (m.answers c pos)).assign).rescheduleAll

/-- SEGMENT_ACK_TIMEOUT (R318), as a NAK. -/
def ackTimeout (l pos version kind seq : Nat) (m : Mach) : Mach := ((segmentAckTimeout l pos version kind seq m).assign).rescheduleAll

/-- A LANE_SLEEP block arrives (R299). -/
def sleepBlock (l count : Nat) (m : Mach) : Mach := m.sleepBlock l count

/-- Where a pour was CANCELLED with its tile, the contexts that it frees take what waits (R100, R166). -/
def Mach.pourLost (old m : Mach) : Mach := if m.heat.pours = old.heat.pours then m else m.assign.rescheduleAll

/-- FLASH_DONE (R354, R355), with the shutdown that waits for the checkpoints. -/
def flashEnds (c pos kind status : Nat) (x : Ctx) (m : Mach) : Eff :=
  if !m.coreUp 2 then .of (m.later (.loaded c pos kind status)) else ((flashDone c pos kind status x m).on m.pourLost).then_ (fun m => m.continueShutdown x)

/-- An event of a tile (R320, R327, R354), with what a tile that leaves the map lets go. -/
def tileEvent (f : Mach → Mach) (x : Ctx) (m : Mach) : Eff := (m.pourLost (f m)).continueShutdown x

/-- After a heal, contexts that are free take what the B-lane can now carry (R166, R331). -/
def Mach.healedSince (old : Mach) (c : Nat) (m : Mach) : Mach :=
  if m.objN (0x6110 + c) 6 = old.objN (0x6110 + c) 6 then m else m.assign.rescheduleAll

/-- ENUM_REPLY, with what a tile that leaves lets go and what a heal moves. -/
def tileReplies (r : EnumReply) (x : Ctx) (m : Mach) : Eff :=
  if !m.coreUp 2 then .of (m.later (.reply r)) else (m.healedSince r.c (m.pourLost (enumReply r m))).continueShutdown x

/-- DELAY_REPLY (R320, R321). -/
def tileMeasured (c pos id roundTrip : Nat) (x : Ctx) (m : Mach) : Eff :=
  if !m.coreUp 2 then .of (m.later (.measured c pos id roundTrip)) else tileEvent (delayReply c pos id roundTrip) x m

/-- CONFIG_ACK (R320). -/
def tileWritten (c pos reg value : Nat) (m : Mach) : Eff :=
  if !m.coreUp 2 then .of (m.later (.written c pos reg value)) else configAck c pos reg value m

/-- FAULT, with what a heal moves. -/
def tileFault (c pos : Nat) (fromB : Bool) (code : Nat) (x : Ctx) (m : Mach) : Eff :=
  if !m.coreUp 2 then .of (m.later (.fault c pos fromB code)) else (m.healedSince c (fault c pos fromB code m)).continueShutdown x

/-- B_SIDE_SILENT, with what a heal moves. -/
def silentSide (c : Nat) (x : Ctx) (m : Mach) : Eff := (m.healedSince c (bSideSilent c m)).continueShutdown x

/-- STATUS, with the panel alarm of the tile's place (R475) and its band (R343). -/
def statusBlock (c pos version frame : Nat) (temperature : Int) (flags : Nat) (m : Mach) : Mach :=
  let known := decide (c < 96) && decide (pos < 10) && decide (m.tileState c pos ≠ 0)
  let m := status c pos version frame temperature flags (if known then m.answers c pos else m)
  let m := if known then m.onTile c pos (fun t => { t with read := true }) else m
  match m.panelFor c pos with
  | some p =>
    if known then m.panelAlarm p temperature else m
  | none => m

/-- The ENUM_REPLY that a payload spells (R314). A tile reached from B replies with its hop count (DEDUCED, log entry 88); the last reply of a
round is the one with which every position has answered, in a round that asks the B side alone every one that the A-lane does not reach (DESIGN
CHOICE, log entry 88). -/
def Mach.replyOf (m : Mach) (c n : Nat) : EnumReply :=
  let fromB := field n 115 115 = 1
  let hop := field n 119 116
  let len := m.chainLength c
  let pos := if fromB then len - 1 - hop else hop
  let ch := m.chain c
  let a := ((ch.brk.filter Break.asked).map (fun b => ((leastKnown b.aCount ch.aReach).getD 0))).getD 0
  { c := c, fromB := fromB, hop := hop, serial := field n 95 48, hwRev := field n 47 40, firmware := field n 39 24
    gainInFlash := n.testBit 16, checkpointInFlash := n.testBit 17
    last := (upTo len).all (fun i => i < a || i = pos || ch.fromA.contains i || ch.fromB.contains i) }

/-- The segment that a SEG_START of a tile opens (R315). -/
def openedSeg (c n : Nat) : TileSeg :=
  { c := c, pos := field n 119 116, kind := field n 113 111, seq := field n 102 87, length := field n 86 79 + 1
    locator := field n 78 54, crc := field n 31 0, blocks := [] }

/-- The segment that was arriving on a lane ends: all its blocks are there, or no more of them can be accepted (R317). -/
def Mach.endSegment (m : Mach) (l : Nat) (x : Ctx) : Eff :=
  match (m.lane l).arriving with
  | none => .of m
  | some g => tileSegment g x (m.onLane l (fun y => { y with arriving := none }))

/-- A block of the segment that arrives on a lane, or an erasure among its blocks (R317). -/
def Mach.segmentBlock (m : Mach) (l : Nat) (d : Option (BitVec 128)) (x : Ctx) : Eff :=
  match (m.lane l).arriving with
  | none => .of m
  | some g =>
    let g := { g with blocks := g.blocks ++ [d] }
    let m := m.onLane l (fun y => { y with arriving := some g })
    if d.isNone ∨ g.length ≤ g.blocks.length then m.endSegment l x else .of m

/-- What a control block that a lane's RX delivers does (R312 to R315): a tile sends its own blocks on its feeding lane, but for FAULT, which it sends
on both, and ENUM_REPLY; the B-lane's TICKs are the A-lane's, once round the ring (R322). Other types come round the ring and are the module's own. -/
def tileBlock (l n : Nat) (x : Ctx) (m : Mach) : Eff :=
  let c := l / 2
  let pos := field n 119 116
  let fed : Bool := decide (pos < 10) && m.feedLane c pos = l
  match n / 2 ^ 120 with
  | 0x10 => .of (if l % 2 = 1 then m.ringTick c (field n 55 40) else m)
  | 0x17 => if fed then (m.endSegment l x).on (fun m => m.onLane l (fun y => { y with arriving := some (openedSeg c n) })) else .of m
  | 0x20 => .of (if fed then ackBlock c pos (field n 115 114) (field n 113 111) (field n 110 103) (field n 102 87) m else m)
  | 0x21 => .of (if fed then nakBlock c pos (field n 115 114) (field n 113 111) (field n 110 103) (field n 102 87) m else m)
  | 0x22 => .of (if fed then statusBlock c pos (field n 115 114) (field n 111 96) (toSigned 16 (field n 95 80)) (field n 79 72) m else m)
  | 0x23 => if field n 111 96 = (m.chain c).enumSeq then tileReplies (m.replyOf c n) x m else .of m
  | 0x24 => if fed then tileMeasured c pos (field n 115 108) (m.now - ((m.tile c pos).probedAt + field n 115 108 * blockTime)) x m else .of m
  | 0x25 => tileFault c pos (l % 2 = 1) (field n 115 108) x m
  | 0x26 => if fed then tileWritten c pos (field n 115 108) (field n 107 76) m else .of m
  | 0x27 => if fed then flashEnds c pos (field n 115 113) (field n 112 111) x m else .of m
  | _ => .of m

/-- BLOCK_RECEIVED: the lane takes the block (R291, R292), with the heal that a loss of lock may lead to; a block that it delivers has its effect at
once, and an erasure falls among the blocks of a segment that arrives (R317). -/
def blockArrives (l : Nat) (symbols : List Level) (x : Ctx) (m : Mach) : Eff :=
  let old := m.onLane l (fun y => { y with delivered := none, erased := false })
  let e : Eff := (old.healedSince (l / 2) (blockReceived l symbols old)).continueShutdown x
  e.then_ (fun m =>
    match (m.lane l).delivered with
    | some (false, d) => m.segmentBlock l (some d) x
    | some (true, d) => tileBlock l d.toNat x m
    | none => if (m.lane l).erased then m.segmentBlock l none x else .of m)

/-- What has waited for core 2 is dealt with (R29). -/
def takeNews (x : Ctx) (m : Mach) : TileNews → Eff
  | .report c => .of (m.report c)
  | .late c pos heat => .of (m.reportLate c pos heat)
  | .broken c a k => (m.healedSince c (m.noteBreak c a k)).continueShutdown x
  | .silent c pos => .of (m.noAnswer c pos)
  | .enumerate c => .of (m.enumerateChain c)
  | .reply r => tileReplies r x m
  | .measured c pos id roundTrip => tileMeasured c pos id roundTrip x m
  | .fault c pos fromB code => tileFault c pos fromB code x m
  | .written c pos reg value => tileWritten c pos reg value m
  | .loaded c pos kind status => flashEnds c pos kind status x m

/-- CORE_RESTARTED: the core goes on with its duties (R542): core 0 sends the events that have waited, core 1 sees the links as they are now
(R411), and core 2 deals with what has waited for it (DESIGN CHOICE, log entry 91). -/
def coreReturns (core : Nat) (x : Ctx) (m : Mach) : Eff :=
  let was := m.coreUp core
  let m := coreRestarted core m
  if was then .of m
  else if core = 0 then .of (each (m.koa.sessions.map Session.id) m Mach.pumpEvents)
  else if core = 1 then (each (upTo 5) m Mach.domainsOfPort).advanceStops x
  else if core ≠ 2 then .of m
  else m.tiles.later.foldl (fun (e : Eff) n => e.then_ (fun m => takeNews (e.after x) m n)) (.of { m with tiles := { m.tiles with later := [] } })

/-! ### Clusters and slots -/

/-- The pour and version whose row a cluster renders now. -/
def Mach.rowAt (m : Mach) (cl : Nat) : Option (Pour × Work) :=
  ((m.cluster cl).cur.bind (fun k => (m.cluster cl).ctx.getD k none)).bind (fun w =>
    if m.clusterUp cl then (m.pour? w.panel).bind (fun p => if 3 ≤ (p.ver w.version).state ∧ (p.ver w.version).state ≤ 5 then some (p, w) else none)
    else none)

/-- HOGEL_ROW_RENDERED, with poison that the emitter pipeline read for the row (R357), with the SRAM words corrected on the way (R164, R167, R521) and the injections of R523 at the cluster. -/
def hogelRow (cl corrected : Nat) (c : Ctx) (m : Mach) : Eff :=
  if 68 ≤ cl ∨ (m.forced 4 cl).isSome then .of m
  else if m.armedAt 1 cl then .of (clusterFault cl 1 m.acted)
  else if m.armedAt 3 cl then .of (clusterFault cl 2 m.acted)
  else
    let n := corrected + bit (m.armedAt 2 cl)
    let m := if m.armedAt 2 cl then m.acted else m
    let m := if n = 0 then m else m.bump (0x5320 + cl) 4 n
    let m := if 1000 ≤ m.objN (0x5320 + cl) 4 ∧ n ≠ 0 ∧ m.objN (0x5320 + cl) 1 ≤ 1 then m.passThreshold 0 cl else m
    match (m.rowAt cl) with
    | none => rowRendered cl c m
    | some (p, w) => (rowRendered cl c m).then_ (fun m => m.pipelinePoison p w.version (p.ver w.version).row (60 / p.bands * (p.ver w.version).band) (60 / p.bands))

/-- SLOT_TICK: the averages of the samples less the DC sense offsets in force, with that of an injection (R366, R488, R523). -/
def slotBegins (slot : Nat) (averages : List Int) (m : Mach) : Mach :=
  slotTick_ slot ((upTo 64).map (fun n => averages.getD n 0 - 10 * m.setting 4 n 1 + ((m.forced 13 n).getD 0 : Nat))) m

/-- COMMON_FAULT, with a calibration pass that it ends (R492). -/
def commonFails (n cause : Nat) (m : Mach) : Mach := m.watchCal (commonFault n cause m)

/-- CHECKER_SYNC, with a calibration pass that a loss of sync ends (R492). -/
def checkerTakes (l : Nat) (symbols : List Level) (m : Mach) : Mach := m.watchCal (checkerBits l symbols m)

/-- FRAME_TICK, with a calibration pass that what starts at it ends (R492). -/
def tickComes (mismatch : Bool) (found : List (Nat × Nat)) (c : Ctx) (m : Mach) : Eff := (frameTick_ mismatch found c m).on m.watchCal

/-- OUTPUT_SETTINGS_IN_EFFECT, with a calibration pass that an output in use ends (R492). -/
def settingsInEffect (m : Mach) : Mach := m.watchCal (outputSettingsInEffect m)

/-- TAKE_OVER_START, with a calibration pass and a commanded test that it ends (R492, R518). -/
def takeOverBegins (c : Ctx) (m : Mach) : Eff := (takeOverStart c m).on (fun x => (m.watchCal x).testTaken)

/-! ### Settings (R500) -/

/-- Whether an edge of an output falls within the next 50 ns: the end of its pulse, or the leading edge at a tick near by (R500). -/
def Mach.edgeNear (m : Mach) (o : Nat) : Bool :=
  let x := m.syncOut o
  let now : Int := m.timeWord
  let near (t : Int) : Bool := decide (now < t) && decide (t ≤ now + (ns 50 : Nat))
  let (e, n, d) := m.inForce
  let back : Nat := (now - ofPs x.set_.offset).toNat
  let k := if x.set_.mode = 4 then (back - x.set_.epoch) * x.set_.den / (x.set_.num * perSecond) else firstFrame e n d back - 1
  (x.active && near x.endsAt) ||
    (m.pulses x.set_ && (upTo 3).any (fun i => (upTo (max 1 (m.slotsOf (k + i)))).any (fun s =>
      match m.leading x.set_ (k + i) s with
      | some t => near t
      | none => false)))

/-- TAP_STEP: the delay tap of an output waits for an edge that is near (R500). -/
def settingsStep (adapt : List (Nat × List Int)) (held : List Nat) (m : Mach) : Mach :=
  let moving := (upTo 8).filter (fun o => m.calib.moving.any (fun k => k.1 = calKey 3 o))
  tapStep adapt (held ++ (moving.filter m.edgeNear).map (calKey 3)) m

/-! ### Time -/

/-- A PTP message or timer: nothing while core 1 restarts (R542); a step of the time may end a stop that waits. -/
def ptpEvent (f : Mach → Mach) (c : Ctx) (m : Mach) : Eff := if m.boot.cores.contains 1 then .of m else (f m).advanceStops c

/-- SYNC_INPUT_EDGE (R431): in P0 to P2 it is stamped; an edge selected in 0x3120+i:02 is a wake source in every power state (R457, R459,
R557). -/
def inputEdge (input : Nat) (falling : Bool) (stamp : Nat) (c : Ctx) (m : Mach) : Eff :=
  let m := if m.power ≤ 2 then syncInputEdge input falling stamp m else m
  if input < 2 ∧ (m.objN (0x3120 + input) 2 = 2 ∨ m.objN (0x3120 + input) 2 = bit falling) then
    m.recognise 3 input c
  else .of m

/-- The PTP domains of a port follow its link (R411); while core 1 restarts the time status stays as it was (R29, R542). -/
def Mach.linkSeen (m : Mach) (p : Nat) : Mach := if m.coreUp 1 then m.domainsOfPort p else m

/-- A link comes up, with the PTP domains of its port (R411). Link activity at a port of 0x2100:07 is a wake source (R457, R459). -/
def linkComesUp (p : Nat) (c : Ctx) (m : Mach) : Eff :=
  let seen : Bool := p < 5 && (m.objN 0x2100 7).testBit p && portFitted c.unit.orderX p && !m.linkUp p
  let m := (m.raiseLink c p).linkSeen p
  (if seen then m.recognise 0 p c else .of m).then_ (fun m => m.advanceStops c)

/-- A link goes down, its queued frames dropped, with the PTP domains of its port (R407, R411). -/
def linkGoesDown (p : Nat) (c : Ctx) (m : Mach) : Eff :=
  if 5 ≤ p ∨ !m.linkUp p then .of m
  else ((m.dropLink p 0).on (fun m => m.linkSeen p)).then_ (fun m => m.advanceStops c)

/-- A QSFP56 module is inserted (R382). -/
def qsfpComes (p kind : Nat) (temp : Int) (c : Ctx) (m : Mach) : Eff :=
  ((qsfpInserted p kind temp c m).linkSeen p).advanceStops c

/-- A QSFP56 module is removed (R407). -/
def qsfpGoes (p : Nat) (c : Ctx) (m : Mach) : Eff :=
  ((qsfpRemoved p c m).on (fun m => m.linkSeen p)).then_ (fun m => m.advanceStops c)

/-- FRAME_TRANSMITTED: the frame in transmission has left its port. -/
def sentFrame (p view packets : Nat) (c : Ctx) (m : Mach) : Eff := m.transmitted c p view packets

/-! ### Drawing -/

/-- DRAW_START: the host's WRITE of the start value, or firmware's start on channel 1 (R239, R244). -/
def drawStarts : DrawStart → Ctx → Mach → Eff
  | .host w => writeCode true 0x5800 0x0B 0x4C430081 w
  | .firmware o => fun _ m => .of (firmwareDraw o m)

/-! ### Content -/

/-- DECODE_START, with its blocks put on the engines that are free (R127). -/
def startContent (k : Nat) (m : Mach) : Mach := if k < 64 then (m.startDecode k).feedEngines else m

/-- UPLOAD_RUN, with its blocks put on the engines that are free (R130). -/
def startUpload (j : Nat) (m : Mach) : Mach := if j < 8 then (m.runUpload j).feedEngines else m

/-- UPLOAD_FINISH, with the decision that the content may complete (R96). -/
def endUpload (j : Nat) (c : Ctx) (m : Mach) : Eff := (m.finishUpload c j).on (fun m => m.checkDecision)

/-! ### Temperature -/

/-- What a sensor's event leads to: a throttle stage that changes ends a calibration run (R494) and a commanded test (R518) and lets go the
jobs it no longer holds or pauses those it now holds (R235, R472), and a decided shutdown begins (R539). -/
def thermalEvent (f : Mach → Mach) (c : Ctx) (m : Mach) : Eff :=
  let was := m
  let old := m.throttle
  let m := f m
  let m := if m.throttle = old then m
    else ((if 2 ≤ m.throttle then m.cutCal else m).testConditions).resumeJobs
  (m.pauseHeld.then_ (fun m => m.advanceStops c)).on (fun x => was.watchCal x)

/-! ### Power -/

/-- STAGE_EVALUATION: every 1 ms (R444). -/
def evaluateStage (c : Ctx) (m : Mach) : Eff := m.evaluateStage c

/-- SERVICE_PORT_ATTACH: wake source 4 (R457, R559). -/
def serviceAttach (c : Ctx) (m : Mach) : Eff := m.recognise 4 0 c

/-! ### Memory -/

/-- MR4_POLL (R268): a package with a channel in band 5 gives its sensor a reading above the shutdown threshold (R480). -/
def mr4Poll (bands : List Nat) (c : Ctx) (m : Mach) : Eff :=
  let polled : Bool := m.power ≤ 2 && decide (m.dram.mr4At + us 250 ≤ m.now)
  let m := pollBands bands m
  let hot := (upTo 9).filter (fun p => polled && (upTo 4).any (fun k => m.chanActive (4 * p + k) && m.objN (0x7010 + (4 * p + k)) 3 = 5))
  thermalEvent (fun m => each hot m Mach.bandFive) c m

end Sys2Proof.Machine
end

