-- ==== Sys2Proof/Machine/CalibrationCommands.lean ====
section
/-! DEFINITION. The commands of this family: Calibration and trimming (chapter 17). -/

namespace Sys2Proof.Machine

/-- CALIBRATION_START (R489): A calibration run is checked and begins CHECKING. -/
def execCalibrationStart (w : WriteReq) (s : State) : Host.Outcome State Fault Refusal :=
  liftE (writeCode true 0x7800 5 0x4C430780 w) s

/-- CALIBRATION_ABORT (R494): the abort value ends a run in ABORTED. -/
def execCalibrationAbort (w : WriteReq) (s : State) : Host.Outcome State Fault Refusal :=
  liftE (writeCode true 0x7800 5 0x4C430781 w) s

/-- CALIBRATION_ACCEPT (R496): the accept value stores a PENDING result in a set slot. -/
def execCalibrationAccept (w : WriteReq) (s : State) : Host.Outcome State Fault Refusal :=
  liftE (writeCode true 0x7800 5 0x4C430782 w) s

/-- CALIBRATION_REJECT (R495): the reject value discards a PENDING result. -/
def execCalibrationReject (w : WriteReq) (s : State) : Host.Outcome State Fault Refusal :=
  liftE (writeCode true 0x7800 5 0x4C430783 w) s

/-- CALIBRATION_CHECKS_DONE (R492): the precondition checks end, leading to a pass or to PRECONDITION. -/
def execCalibrationChecksDone (failed : Nat) (s : State) : Host.Outcome State Fault Refusal :=
  liftE (checksDone failed) s

/-- CALIBRATION_PASS_END (R493): A measurement pass ends and its values are recorded or compared. -/
def execCalibrationPassEnd (values : List Int) (lost : Bool) (s : State) : Host.Outcome State Fault Refusal :=
  lift (fun _ => passEnd values lost) s

/-- CALIBRATION_GAP_END (R491): the gap between passes ends and pass 2 is checked. -/
def execCalibrationGapEnd (failed : Nat) (s : State) : Host.Outcome State Fault Refusal := liftE (gapEnd failed) s

/-- CALIBRATION_TIMEOUT (R493): A pass exceeds its timeout, and the run ends TIMEOUT. -/
def execCalibrationTimeout (s : State) : Host.Outcome State Fault Refusal := lift (fun _ => calTimeoutExpiry) s

/-- CALIBRATION_EXPIRY (R495): t_cex passes in PENDING, and the run ends EXPIRED. -/
def execCalibrationExpiry (s : State) : Host.Outcome State Fault Refusal := lift (fun _ => calExpiry) s

/-- CALIBRATION_FLASH_WRITTEN (R497): the flash write of an accepted set completes, and the run is ACCEPTED. -/
def execCalibrationFlashWritten (s : State) : Host.Outcome State Fault Refusal := lift (fun _ => calFlashWritten) s

/-- CALIBRATION_SLOT_CLEAR (R498): the clear value empties a calibration slot. -/
def execCalibrationSlotClear (w : WriteReq) (s : State) : Host.Outcome State Fault Refusal := liftE (writeOf 0x7808 5 w) s

/-- TAP_STEP (R500): every 1 µs each setting moves one step toward its value in force. -/
def execTapStep (adapt : List (Nat × List Int)) (held : List Nat) (s : State) : Host.Outcome State Fault Refusal :=
  lift (fun _ => settingsStep adapt held) s

/-- VALUES_IN_FORCE_PERIOD (R499): while the schedule is STOPPED, temperatures are latched and calibration values in force are computed every 10 ms. -/
def execValuesInForcePeriod (s : State) : Host.Outcome State Fault Refusal :=
  lift (fun _ => Sys2Proof.Machine.valuesInForcePeriod) s

end Sys2Proof.Machine
end

