-- ==== Sys2Proof/Machine/CodecCommands.lean ====
section
/-! DEFINITION. The commands of this family: Codec engines and host jobs (chapter 07). -/

namespace Sys2Proof.Machine

/-- DECODE_ENGINE_FAULT (R226): A decode-engine parity error re-issues its block and faults the engine. -/
def execDecodeEngineFault (e : Nat) (s : State) : Host.Outcome State Fault Refusal := lift (fun _ => decodeFault e) s

/-- ENCODE_ENGINE_FAULT (R227): an encode-engine parity error makes the engine UNUSABLE at the next frame tick. -/
def execEncodeEngineFault (e : Nat) (s : State) : Host.Outcome State Fault Refusal := lift (fun _ => encodeParity e) s

/-- BLOCK_DECODED (R123): A decode engine finishes a block and its header, payload and check value are judged. -/
def execBlockDecoded (e : Nat) (engineWrong : Bool) (taker : Nat) (s : State) : Host.Outcome State Fault Refusal :=
  liftE (Sys2Proof.Machine.blockDecoded e engineWrong taker) s

/-- BLOCK_ENCODED (R220): an encode engine finishes a block, self-verifies it and releases it. -/
def execBlockEncoded (e : Nat) (mismatch : Bool) (s : State) : Host.Outcome State Fault Refusal :=
  liftE (Sys2Proof.Machine.blockEncoded e mismatch) s

/-- HOST_JOB_START (R229): A codec host job start is checked and queued. -/
def execHostJobStart (j : Nat) (w : WriteReq) (s : State) : Host.Outcome State Fault Refusal :=
  liftE (writeCode (decide (j < 8)) (0x7110 + j) 0x0C 0x4C430071 w) s

/-- HOST_JOB_ABORT (R233): the abort value stops a queued, running or paused codec job. -/
def execHostJobAbort (j : Nat) (w : WriteReq) (tokens : Nat) (s : State) : Host.Outcome State Fault Refusal :=
  liftE (writeCodeAt (decide (j < 8)) (0x7110 + j) 0x0C 0x4C430070 tokens w) s

/-- HOST_JOB_RUN (R230): A queued codec job takes a free engine and becomes RUNNING. -/
def execHostJobRun (j : Nat) (engine : Nat) (s : State) : Host.Outcome State Fault Refusal :=
  lift (fun _ => Sys2Proof.Machine.hostJobRun j engine) s

end Sys2Proof.Machine
end

