-- ==== Sys2Proof/Machine/LaneCommands.lean ====
section
/-! DEFINITION. The commands of this family: Tile-link lanes (chapter 10). -/

namespace Sys2Proof.Machine

/-- LANE_MODE_WRITE (R305): A lane mode write changes BLOCKS, PRBS or OFF and restarts generator and checker. -/
def execLaneModeWrite (l : Nat) (w : WriteReq) (s : State) : Host.Outcome State Fault Refusal :=
  liftE (writeIn (decide (l < 192)) (0x6010 + l) 1 w) s

/-- BLOCK_RECEIVED (R291): A 130-bit block arrives at a lane RX and is delivered, erased or counted for lock. -/
def execBlockReceived (l : Nat) (header : Level) (line : List Level) (s : State) : Host.Outcome State Fault Refusal :=
  liftE (blockArrives l (header :: line)) s

/-- HUNT_ALARM (R293): the RX hunts for the hunt alarm time without locking, and 0x8004 is raised. -/
def execHuntAlarm (l : Nat) (s : State) : Host.Outcome State Fault Refusal := lift (fun _ => Sys2Proof.Machine.huntAlarm l) s

/-- LANE_SLEEP (R299): A LANE_SLEEP block received with count 0 makes the RX DEEP. -/
def execLaneSleep (l : Nat) (count : Nat) (s : State) : Host.Outcome State Fault Refusal :=
  lift (fun _ => sleepBlock l count) s

/-- DEEP_IDLE_TIMEOUT (R298): A chain has had no tile present for 1 s, and its lanes enter deep state. -/
def execDeepIdleTimeout (c : Nat) (s : State) : Host.Outcome State Fault Refusal :=
  lift (fun _ => Sys2Proof.Machine.deepIdleTimeout c) s

/-- LANE_SLEEP_SENT (R299): the last LANE_SLEEP block is sent and the TX goes to electrical idle, DEEP. -/
def execLaneSleepSent (l : Nat) (s : State) : Host.Outcome State Fault Refusal :=
  lift (fun _ => Sys2Proof.Machine.laneSleepSent l) s

/-- WAKE_RECOGNISED (R300): A squelch detector recognises a wake pattern or lane activity. -/
def execWakeRecognised (l : Nat) (activity : Bool) (sleepLeft : Bool) (s : State) : Host.Outcome State Fault Refusal :=
  liftE (laneWake l activity sleepLeft) s

/-- WAKE_PATTERN_DONE (R301): the wake pattern has been sent for t_wps. -/
def execWakePatternDone (l : Nat) (s : State) : Host.Outcome State Fault Refusal :=
  lift (fun _ => Sys2Proof.Machine.wakePatternDone l) s

/-- PLL_LOCKED (R301): the TX PLL locks and the TX becomes ACTIVE sending IDLE. -/
def execPllLocked (l : Nat) (s : State) : Host.Outcome State Fault Refusal := lift (fun _ => Sys2Proof.Machine.pllLocked l) s

/-- CDR_LOCKED (R301): the RX CDR locks and the RX becomes HUNTING. -/
def execCdrLocked (l : Nat) (s : State) : Host.Outcome State Fault Refusal := lift (fun _ => Sys2Proof.Machine.cdrLocked l) s

/-- DEEP_RESIDENCY_END (R302): t_dmin in deep state ends, and a pending exit starts. -/
def execDeepResidencyEnd (l : Nat) (s : State) : Host.Outcome State Fault Refusal :=
  lift (fun _ => Sys2Proof.Machine.deepResidencyEnd l) s

/-- PRBS_COUNTER_CLEAR (R306): the clear value resets the checker's compared and error counters. -/
def execPrbsCounterClear (l : Nat) (w : WriteReq) (s : State) : Host.Outcome State Fault Refusal :=
  liftE (writeIn (decide (l < 192)) (0x6010 + l) 0x11 w) s

/-- LANE_INJECTION_START (R307): the start value arms a lane injection kind. -/
def execLaneInjectionStart (l : Nat) (w : WriteReq) (s : State) : Host.Outcome State Fault Refusal :=
  liftE (writeCode (decide (l < 192)) (0x6010 + l) 0x14 0x4C430061 w) s

/-- LANE_INJECTION_STOP (R307): the stop value ends an armed or periodic lane injection. -/
def execLaneInjectionStop (l : Nat) (w : WriteReq) (s : State) : Host.Outcome State Fault Refusal :=
  liftE (writeCode (decide (l < 192)) (0x6010 + l) 0x14 0x4C430060 w) s

/-- LANE_INJECTION_PERIOD (R307): the periodic injection count expires and another bit is inverted. -/
def execLaneInjectionPeriod (l : Nat) (s : State) : Host.Outcome State Fault Refusal :=
  lift (Sys2Proof.Machine.laneInjectionPeriod l) s

/-- CHECKER_SYNC (R306): the test-pattern checker of a lane in PRBS mode gains sync after 1,024 bits predicted without error, or loses it on 64 errors within 1,024 bits and reloads. -/
def execCheckerSync (l : Nat) (received : List Level) (s : State) : Host.Outcome State Fault Refusal :=
  lift (fun _ => checkerTakes l received) s

end Sys2Proof.Machine
end

