-- ==== Sys2Proof/Machine/MemoryCommands.lean ====
section
/-! DEFINITION. The commands of this family: Memory controller and DRAM (chapter 09). -/

namespace Sys2Proof.Machine

/-- REFRESH_DUE (R269): A rank's refresh interval ends; the refresh is issued, postponed or forced. -/
def execRefreshDue (channel : Nat) (rank : Nat) (burst : Bool) (postpone : Bool) (paid : Nat) (pulledIn : Nat) (s : State) : Host.Outcome State Fault Refusal :=
  lift (fun _ => Sys2Proof.Machine.refreshDue channel rank burst postpone paid pulledIn) s

/-- MR4_POLL (R268): every 250 µs the refresh-rate indication is read and the rank's band updated. -/
def execMr4Poll (bands : List Nat) (s : State) : Host.Outcome State Fault Refusal :=
  liftE (Sys2Proof.Machine.mr4Poll bands) s

/-- UNCORRECTABLE_READ (R271): A read returns an uncorrectable codeword; data is poisoned, listed and handled by the reader. -/
def execUncorrectableRead (address : Nat) (source : ReadSource) (s : State) : Host.Outcome State Fault Refusal :=
  liftE (Sys2Proof.Machine.uncorrectableRead address source) s

/-- FENCE (R264): A source issues a fence over its earlier writes. -/
def execFence (source : Nat) (s : State) : Host.Outcome State Fault Refusal :=
  lift (fun _ => Sys2Proof.Machine.fence source) s

/-- FENCE_COMPLETE (R264): every earlier write of the source is visible, and the fence completes. -/
def execFenceComplete (source : Nat) (s : State) : Host.Outcome State Fault Refusal :=
  lift (fun _ => Sys2Proof.Machine.fenceComplete source) s

/-- IDLE_SELF_REFRESH (R275): A channel without requests for the idle time enters self-refresh. -/
def execIdleSelfRefresh (channel : Nat) (idle : Nat) (s : State) : Host.Outcome State Fault Refusal :=
  lift (fun _ => Sys2Proof.Machine.idleSelfRefresh channel idle) s

/-- SELF_REFRESH_REQUEST (R276): A request reaches a channel entering or in self-refresh, which cancels the entry or exits. -/
def execSelfRefreshRequest (channel : Nat) (onBus : Bool) (drift : Int) (s : State) : Host.Outcome State Fault Refusal :=
  lift (fun _ => Sys2Proof.Machine.selfRefreshRequest channel onBus drift) s

/-- ZQ_CALIBRATION_TIMER (R277): every 32 ms background ZQ calibration runs on every channel. -/
def execZqCalibrationTimer (s : State) : Host.Outcome State Fault Refusal :=
  lift (fun _ => Sys2Proof.Machine.zqCalibrationTimer) s

/-- OSCILLATOR_MEASUREMENT (R277): every 16 ms the WCK-to-DQ oscillator is measured and drift corrections begin. -/
def execOscillatorMeasurement (drifts : List Int) (s : State) : Host.Outcome State Fault Refusal :=
  lift (fun _ => Sys2Proof.Machine.oscillatorMeasurement drifts) s

/-- TAKE_OVER_START (R279): A channel take-over is decided and the lowest spare powers up and trains. -/
def execTakeOverStart (s : State) : Host.Outcome State Fault Refusal :=
  liftE takeOverBegins s

/-- RETIRE_REQUEST (R283): the retire command in SERVICE requests take-over of a logical channel. -/
def execRetireRequest (w : WriteReq) (s : State) : Host.Outcome State Fault Refusal := liftE (writeOf 0x7060 1 w) s

/-- SPARE_TRAINED (R279): spare training completes; copy-in starts, or a dead channel's spare is switched in. -/
def execSpareTrained (failures : List Nat) (s : State) : Host.Outcome State Fault Refusal :=
  lift (fun _ => Sys2Proof.Machine.spareTrained failures) s

/-- COPY_IN_COMPLETE (R279): copy-in of the old channel to the spare completes. -/
def execCopyInComplete (poisoned : List Nat) (s : State) : Host.Outcome State Fault Refusal :=
  lift (fun _ => Sys2Proof.Machine.copyInComplete poisoned) s

/-- PATROL_SCRUB (R274): patrol scrub reads the next fixed-area address or allocated clip extent of a channel and rewrites a codeword the die corrected. -/
def execPatrolScrub (channel : Nat) (found : ScrubReport) (s : State) : Host.Outcome State Fault Refusal :=
  lift (fun _ => Sys2Proof.Machine.patrolScrub channel found) s

end Sys2Proof.Machine
end

