-- ==== Sys2Proof/Machine/NetworkCommands.lean ====
section
/-! DEFINITION. The commands of this family: Network ports and traffic control (chapter 13). -/

namespace Sys2Proof.Machine

/-- FRAME_RECEIVED (R385): an Ethernet frame is received, checked and classified onto a path. -/
def execFrameReceived (f : EthFrame) (s : State) : Host.Outcome State Fault Refusal :=
  liftE (Sys2Proof.Machine.frameReceived f) s

/-- SLOT_ENABLE (R391): enabling or disabling a source slot joins or leaves multicast groups and restarts its meter. -/
def execSlotEnable (w : WriteReq) (s : State) : Host.Outcome State Fault Refusal := liftE (writeOf 0x4110 1 w) s

/-- METER_REFILL (R392): every 128 ns the meter and shaper buckets refill, and pending writes take effect. -/
def execMeterRefill (s : State) : Host.Outcome State Fault Refusal := lift Sys2Proof.Machine.meterRefill s

/-- TX_DESCRIPTOR_POSTED (R388): firmware hands a transmit descriptor to the port, and its frame is queued in its class. -/
def execTxDescriptorPosted (t : TxPost) (s : State) : Host.Outcome State Fault Refusal := liftE (txPosted t) s

/-- RX_DESCRIPTOR_POSTED (R386): firmware hands a receive descriptor to the port by setting OWN and advancing the producer index. -/
def execRxDescriptorPosted (p : Nat) (buffer : Nat) (s : State) : Host.Outcome State Fault Refusal :=
  liftE (rxPosted p buffer) s

/-- FRAME_TRANSMITTED (R389): A frame leaves the port or is dropped, and its descriptor is written back. -/
def execFrameTransmitted (p view packets : Nat) (s : State) : Host.Outcome State Fault Refusal :=
  liftE (sentFrame p view packets) s

/-- GATE_ENTRY_END (R399): A gate-list entry's interval ends and the next entry's gate state applies. -/
def execGateEntryEnd (p : Nat) (s : State) : Host.Outcome State Fault Refusal := lift (Sys2Proof.Machine.gateEntryEnd p) s

/-- GATE_LIST_APPLY (R401): the apply value checks a staged gate list and fixes its switch instant. -/
def execGateListApply (p : Nat) (w : WriteReq) (s : State) : Host.Outcome State Fault Refusal :=
  liftE (writeIn (decide (p < 5)) (0x4220 + p) 6 w) s

/-- GATE_LIST_SWITCH (R401): at the switch instant the new gate list takes over. -/
def execGateListSwitch (p : Nat) (s : State) : Host.Outcome State Fault Refusal :=
  liftE (Sys2Proof.Machine.gateListSwitch p) s

/-- LINK_UP (R403): A network port's link comes up. -/
def execLinkUp (p : Nat) (s : State) : Host.Outcome State Fault Refusal := liftE (linkComesUp p) s

/-- LINK_DOWN (R407): A network port's link goes down. -/
def execLinkDown (p : Nat) (s : State) : Host.Outcome State Fault Refusal := liftE (linkGoesDown p) s

/-- QSFP_INSERTED (R382): A QSFP56 module is read and accepted or powered down. -/
def execQsfpInserted (p : Nat) (kind : Nat) (temp : Int) (s : State) : Host.Outcome State Fault Refusal :=
  liftE (qsfpComes p kind temp) s

/-- QSFP_REMOVED (R407): A QSFP56 module is removed. -/
def execQsfpRemoved (p : Nat) (s : State) : Host.Outcome State Fault Refusal := liftE (qsfpGoes p) s

end Sys2Proof.Machine
end

