-- ==== Sys2Proof/Machine/OutputCommands.lean ====
section
/-! DEFINITION. The commands of this family: View synthesis, composition, outputs and drawing (chapters 05, 06 and 08). -/

namespace Sys2Proof.Machine

/-- PLANE_SET_COMPLETE (R89): the ladle completes a plane set in cluster SRAM, and the pour becomes RENDERING. -/
def execPlaneSetComplete (cl : Nat) (n : Nat) (s : State) : Host.Outcome State Fault Refusal :=
  lift (fun _ => planeSetComplete cl n) s

/-- HOGEL_ROW_RENDERED (R164): A cluster completes a hogel row, accumulates stress, stages rays and picks the next eligible context. -/
def execHogelRowRendered (cl : Nat) (corrected : Nat) (s : State) : Host.Outcome State Fault Refusal :=
  liftE (hogelRow cl corrected) s

/-- CLUSTER_FAULT (R167): A residue mismatch or an uncorrectable SRAM word stops a cluster and re-issues its pours. -/
def execClusterFault (cl : Nat) (cause : Nat) (s : State) : Host.Outcome State Fault Refusal :=
  lift (fun _ => Sys2Proof.Machine.clusterFault cl cause) s

/-- POUR_WATCHDOG (R167): no hogel row of an eligible context completes within t_pwd; the cluster is faulted. -/
def execPourWatchdog (cl : Nat) (s : State) : Host.Outcome State Fault Refusal :=
  lift (fun _ => Sys2Proof.Machine.pourWatchdog cl) s

/-- WORK_SURFACE_PATCH_DEFERRED (R176): A patch held back by a RUNNING region update is applied once that job leaves RUNNING, and the final SEG_ACK is sent. -/
def execWorkSurfacePatchDeferred (g : Nat) (s : State) : Host.Outcome State Fault Refusal :=
  liftE (fun _ => patchDeferred g) s

/-- REGION_UPDATE_START (R177): A region-update start is checked, supersedes contained queued jobs and is queued. -/
def execRegionUpdateStart (j : Nat) (w : WriteReq) (s : State) : Host.Outcome State Fault Refusal :=
  liftE (writeIn (decide (j < 8)) (0x5408 + j) 6 w) s

/-- REGION_UPDATE_RUN (R178): A queued region update becomes RUNNING once a display buffer is free. -/
def execRegionUpdateRun (j : Nat) (s : State) : Host.Outcome State Fault Refusal := lift (fun _ => regionRun j) s

/-- REGION_UPDATE_COMPLETE (R178): the copy of a region update ends COMPLETE, or FAILED. -/
def execRegionUpdateComplete (j : Nat) (s : State) : Host.Outcome State Fault Refusal := liftE (regionComplete j) s

/-- CAPTURE_START (R187): the capture start value is checked and arms the tile capture. -/
def execCaptureStart (w : WriteReq) (s : State) : Host.Outcome State Fault Refusal :=
  liftE (writeCode true 0x5418 7 0x4C4300C1 w) s

/-- CAPTURE_STOP (R189): the stop value ends the capture job in STOPPED. -/
def execCaptureStop (w : WriteReq) (s : State) : Host.Outcome State Fault Refusal :=
  liftE (writeCode true 0x5418 7 0x4C4300C0 w) s

/-- SIGNATURE_REGION_ENABLE (R190): A signature region enable is checked and the region covers the next heat. -/
def execSignatureRegionEnable (r : Nat) (w : WriteReq) (s : State) : Host.Outcome State Fault Refusal :=
  liftE (writeIn (decide (r < 16)) (0x5420 + r) 1 w) s

/-- SIGNATURE_LEARN (R194): the learn value takes the next COMPLETE heat's signature as the expected value. -/
def execSignatureLearn (r : Nat) (w : WriteReq) (s : State) : Host.Outcome State Fault Refusal :=
  liftE (writeIn (decide (r < 16)) (0x5420 + r) 9 w) s

/-- DRAW_START (R244): the drawing start value is checked, latches the registers and runs the operation. -/
def execDrawStart (x : DrawStart) (s : State) : Host.Outcome State Fault Refusal := liftE (drawStarts x) s

/-- DRAW_ABORT (R247): the abort value stops a running drawing operation after the element in progress. -/
def execDrawAbort (w : WriteReq) (done : Nat) (s : State) : Host.Outcome State Fault Refusal :=
  liftE (writeCodeAt true 0x5800 0x0B 0x4C430080 done w) s

/-- DRAW_COMPLETE (R246): all elements are written and made visible, and the operation reports COMPLETE. -/
def execDrawComplete (ch : Nat) (next : Option DrawOp) (s : State) : Host.Outcome State Fault Refusal :=
  liftE (Sys2Proof.Machine.drawComplete ch next) s

/-- DRAW_HANG (R249): no element completes within 100 µs, and the operation ends FAILED with error 2. -/
def execDrawHang (ch : Nat) (done : Nat) (s : State) : Host.Outcome State Fault Refusal :=
  liftE (Sys2Proof.Machine.drawHang ch done) s

end Sys2Proof.Machine
end

