-- ==== Sys2Proof/Machine/PanelCommands.lean ====
section
/-! DEFINITION. The commands of this family: Panel drive, gain maps, commons, slate and quench (chapter 12). -/

namespace Sys2Proof.Machine

/-- CHECKPOINT_REQUEST (R353): A write to 0x6211:08 requests a checkpoint of an ACTIVE tile. -/
def execCheckpointRequest (w : WriteReq) (s : State) : Host.Outcome State Fault Refusal := liftE (writeOf 0x6211 8 w) s

/-- CHECKPOINT_ENCODED (R354): the checkpoint object is formed, and its segments wait for free lane time. -/
def execCheckpointEncoded (p : Nat) (s : State) : Host.Outcome State Fault Refusal :=
  liftE (fun x m => (Sys2Proof.Machine.checkpointEncoded p x m).continueShutdown x) s

/-- FLASH_TIMEOUT (R355): no FLASH_DONE within t_fto; the transfer is retried or fails. -/
def execFlashTimeout (c : Nat) (pos : Nat) (kind : Nat) (s : State) : Host.Outcome State Fault Refusal :=
  liftE (tileEvent (Sys2Proof.Machine.flashTimeout c pos kind)) s

/-- HISTORY_RETRY (R355): 10 s after a failed history transfer it is retried once. -/
def execHistoryRetry (c : Nat) (pos : Nat) (kind : Nat) (s : State) : Host.Outcome State Fault Refusal :=
  liftE (tileEvent (Sys2Proof.Machine.historyRetry c pos kind)) s

/-- FLASH_READ_TIMEOUT (R351): A flash object is not whole within t_frd and is rejected. -/
def execFlashReadTimeout (c : Nat) (pos : Nat) (kind : Nat) (s : State) : Host.Outcome State Fault Refusal :=
  liftE (Sys2Proof.Machine.flashReadTimeout c pos kind) s

/-- GAIN_UPDATE_START (R359): A gain-map update start is checked, supersedes contained jobs and is queued. -/
def execGainUpdateStart (j : Nat) (w : WriteReq) (s : State) : Host.Outcome State Fault Refusal :=
  liftE (writeIn (decide (j < 8)) (0x6220 + j) 3 w) s

/-- GAIN_UPDATE_RUN (R360): A queued gain update becomes RUNNING once a gain slot is free. -/
def execGainUpdateRun (j : Nat) (s : State) : Host.Outcome State Fault Refusal := lift (fun _ => gainRun j) s

/-- GAIN_UPDATE_COMPLETE (R360): A gain update's copy ends COMPLETE, or FAILED. -/
def execGainUpdateComplete (j : Nat) (s : State) : Host.Outcome State Fault Refusal := liftE (gainComplete j) s

/-- SETTLE_TIME_WRITE (R368): A changed settle time is broadcast to every tile by CONFIG_WRITE. -/
def execSettleTimeWrite (w : WriteReq) (s : State) : Host.Outcome State Fault Refusal := liftE (writeOf 0x6300 3 w) s

/-- COMMON_FAULT (R370): A common is shorted, open or stuck, is clamped and enters FAULT. -/
def execCommonFault (n : Nat) (cause : Nat) (s : State) : Host.Outcome State Fault Refusal :=
  lift (fun _ => commonFails n cause) s

/-- COMMON_FAULT_CLEAR (R370): the clear value returns a faulted common to DRIVING at the next frame tick. -/
def execCommonFaultClear (n : Nat) (w : WriteReq) (s : State) : Host.Outcome State Fault Refusal :=
  liftE (writeIn (decide (n < 64)) (0x6310 + n) 9 w) s

/-- SLATE_TICK (R372): in P2 a slate tick sends TICK and COMMIT on the slate chain. -/
def execSlateTick (s : State) : Host.Outcome State Fault Refusal := lift Sys2Proof.Machine.slateTick s

/-- QUENCH_COMMAND (R373): the quench value starts a quench with cause 4. -/
def execQuenchCommand (w : WriteReq) (s : State) : Host.Outcome State Fault Refusal :=
  liftE (writeCode true 0x6401 3 0x4C430F0F w) s

/-- QUENCH_RELEASE (R374): the release value ends a cause-4 quench and restarts the schedule. -/
def execQuenchRelease (w : WriteReq) (s : State) : Host.Outcome State Fault Refusal :=
  liftE (writeCode true 0x6401 3 0x4C430F00 w) s

end Sys2Proof.Machine
end

