-- ==== Sys2Proof/Machine/PowerCommands.lean ====
section
/-! DEFINITION. The commands of this family: Mains, stages, power states and wakes (chapter 15). -/

namespace Sys2Proof.Machine

/-- LINE_HALF_CYCLE (R443): A line half-cycle RMS is measured and the line's stage demand updated. -/
def execLineHalfCycle (measured : Nat) (freq : Nat) (s : State) : Host.Outcome State Fault Refusal :=
  liftE (fun _ => Sys2Proof.Machine.lineHalfCycle measured freq) s

/-- RISER_SAMPLE (R443): A riser voltage sample updates the riser's stage demand. -/
def execRiserSample (v : Nat) (s : State) : Host.Outcome State Fault Refusal :=
  liftE (fun _ => Sys2Proof.Machine.riserSample v) s

/-- STAGE_EVALUATION (R444): every 1 ms firmware sets the shedding stage in force. -/
def execStageEvaluation (s : State) : Host.Outcome State Fault Refusal := liftE evaluateStage s

/-- ABRUPT_LOSS (R447): line absent for 10 ms or over-voltage; the AO island quenches and stops. -/
def execAbruptLoss (kind : Nat) (s : State) : Host.Outcome State Fault Refusal :=
  liftE (fun _ => Sys2Proof.Machine.abruptLoss kind) s

/-- PHASE_FAULT (R448): A core supply phase faults, is turned off and is replaced at the next frame tick. -/
def execPhaseFault (k : Nat) (cause : Nat) (s : State) : Host.Outcome State Fault Refusal :=
  liftE (fun _ => Sys2Proof.Machine.phaseFault k cause) s

/-- STAGE_FLOOR_WRITE (R444): A stage floor write takes effect at once in the stage in force. -/
def execStageFloorWrite (w : WriteReq) (s : State) : Host.Outcome State Fault Refusal := liftE (writeOf 0x2000 9 w) s

/-- RUN_REQUEST (R452): A RUN request returns the module from P2 to P0 or P1. -/
def execRunRequest (w : WriteReq) (s : State) : Host.Outcome State Fault Refusal :=
  liftE (writeCode true 0x2100 2 0x4C430210 w) s

/-- SLATE_REQUEST (R453): A SLATE request stops heats and enters P2 with the slate. -/
def execSlateRequest (w : WriteReq) (s : State) : Host.Outcome State Fault Refusal :=
  liftE (writeCode true 0x2100 2 0x4C430212 w) s

/-- SLEEP_REQUEST (R454): A SLEEP request enters P3. -/
def execSleepRequest (w : WriteReq) (s : State) : Host.Outcome State Fault Refusal :=
  liftE (writeCode true 0x2100 2 0x4C430213 w) s

/-- OFF_REQUEST (R452): an OFF request starts the orderly shutdown to P4. -/
def execOffRequest (w : WriteReq) (s : State) : Host.Outcome State Fault Refusal :=
  liftE (writeCode true 0x2100 2 0x4C430214 w) s

/-- WAKE (R456): the AO island recognises an enabled wake source and the module leaves P3 or starts from P4. -/
def execWake (source : Nat) (unit : Nat) (s : State) : Host.Outcome State Fault Refusal :=
  liftE (Sys2Proof.Machine.wake source unit) s

/-- WAKE_PACKET (R458): A wake packet with the module's serial number arrives on an enabled port. -/
def execWakePacket (p : Nat) (data : Bytes) (s : State) : Host.Outcome State Fault Refusal :=
  liftE (Sys2Proof.Machine.wakePacket p data) s

/-- SERVICE_PORT_ATTACH (R559): A USB-C attach or configuration-channel change is detected on the service port. -/
def execServicePortAttach (s : State) : Host.Outcome State Fault Refusal := liftE serviceAttach s

/-- AO_TIMER_EXPIRY (R457): the AO timer expires in P3 or P4. -/
def execAoTimerExpiry (s : State) : Host.Outcome State Fault Refusal := liftE Sys2Proof.Machine.aoTimerExpiry s

/-- MAINS_RESTORED (R446): after S7 the line holds 85 V for 2 s and the riser reaches 392 V. -/
def execMainsRestored (s : State) : Host.Outcome State Fault Refusal := liftE Sys2Proof.Machine.mainsRestored s

/-- WAKE_ON_ACCESS_IDLE (R460): 100 ms after the last access, a woken control domain powers down again. -/
def execWakeOnAccessIdle (ix : Nat) (s : State) : Host.Outcome State Fault Refusal :=
  lift (fun _ => Sys2Proof.Machine.wakeOnAccessIdle ix) s

end Sys2Proof.Machine
end

