-- ==== Sys2Proof/Machine/SceneCommands.lean ====
section
/-! DEFINITION. The commands of this family: Scene layers, clips and uploads (chapter 04). -/

namespace Sys2Proof.Machine

/-- RTCP_BYE (R116): an RTCP BYE naming the learned SSRC makes the source leave. -/
def execRtcpBye (slot : Nat) (ssrc : Nat) (s : State) : Host.Outcome State Fault Refusal :=
  lift (fun _ => rtcpBye slot ssrc) s

/-- SOURCE_IDLE_TIMEOUT (R116): no accepted packet within the source idle timeout; the slot becomes IDLE. -/
def execSourceIdleTimeout (slot : Nat) (s : State) : Host.Outcome State Fault Refusal :=
  lift (fun _ => sourceIdleTimeout slot) s

/-- DECODE_START (R127): A pending content starts decoding once a buffer is writable and its heat is within the window. -/
def execDecodeStart (k : Nat) (s : State) : Host.Outcome State Fault Refusal := lift (fun _ => startContent k) s

/-- DESCRIPTOR_APPLY (R120): the apply write to 0x5180:01 checks the staged descriptors and schedules them for a target heat. -/
def execDescriptorApply (w : WriteReq) (s : State) : Host.Outcome State Fault Refusal := liftE (writeOf 0x5180 1 w) s

/-- UPLOAD_START (R129): an upload job start is checked, supersedes contained queued jobs and is queued. -/
def execUploadStart (j : Nat) (w : WriteReq) (s : State) : Host.Outcome State Fault Refusal :=
  liftE (writeIn (decide (j < 8)) (0x51A0 + j) 7 w) s

/-- UPLOAD_RUN (R130): A queued upload job becomes RUNNING once a buffer of its layer is writable. -/
def execUploadRun (j : Nat) (s : State) : Host.Outcome State Fault Refusal := lift (fun _ => startUpload j) s

/-- UPLOAD_FINISH (R131): A running upload job ends COMPLETE with a span-0 content, or FAILED. -/
def execUploadFinish (j : Nat) (s : State) : Host.Outcome State Fault Refusal := liftE (endUpload j) s

/-- RECORD_START (R134): the start value arms clip recording. -/
def execRecordStart (w : WriteReq) (s : State) : Host.Outcome State Fault Refusal :=
  liftE (writeCode true 0x51B1 5 0x4C4300B1 w) s

/-- RECORD_STOP (R134): the stop value ends clip recording. -/
def execRecordStop (w : WriteReq) (s : State) : Host.Outcome State Fault Refusal :=
  liftE (writeCode true 0x51B1 5 0x4C4300B0 w) s

/-- CLIP_DELETE (R138): the delete value removes the selected clip unless it is played or recorded. -/
def execClipDelete (w : WriteReq) (s : State) : Host.Outcome State Fault Refusal := liftE (writeOf 0x51B2 2 w) s

end Sys2Proof.Machine
end

