-- ==== Sys2Proof/Machine/SessionCommands.lean ====
section
/-! DEFINITION. The commands of this family: Messages and timers of Kwatradel Object Access, and the writes of chapter 02 that are commands of their own. -/

namespace Sys2Proof.Machine

/-- HELLO (R39): host opens a session handshake naming a key slot; the module checks it and answers CHALLENGE or drops it. -/
def execHello (m : KoaMsg) (s : State) : Host.Outcome State Fault Refusal := lift (hello m) s

/-- PROOF (R41): host proves the session key; the module opens the session with ACCEPT, or refuses when 8 sessions are open. -/
def execProof (m : KoaMsg) (s : State) : Host.Outcome State Fault Refusal := lift (proof m) s

/-- CLOSE (R43): A CLOSE received from the peer closes the session, cancels its transfer and disables its cyclic maps. -/
def execClose (m : KoaMsg) (s : State) : Host.Outcome State Fault Refusal := lift (close m) s

/-- READ (R46): host reads one non-DOMAIN object and gets READ_RESPONSE or ABORT, or a kept response when the request repeats. -/
def execRead (m : KoaMsg) (s : State) : Host.Outcome State Fault Refusal := liftE (koaRead m) s

/-- WRITE (R48): host writes an object with no behaviour of its own, after the role, access, type, length and value checks. -/
def execWrite (m : KoaMsg) (s : State) : Host.Outcome State Fault Refusal := liftE (koaWrite m none) s

/-- SEG_OPEN (R51): host opens a segmented read or write of a DOMAIN object. -/
def execSegOpen (m : KoaMsg) (s : State) : Host.Outcome State Fault Refusal := liftE (segOpen m) s

/-- SEG_DATA (R52): A segment of a segmented transfer arrives; it is acknowledged, and the last one runs the end checks and replaces the content atomically. -/
def execSegData (m : KoaMsg) (image : ImageVerdict) (s : State) : Host.Outcome State Fault Refusal :=
  liftE (segData m image) s

/-- SEG_ACK (R52): host acknowledges segments of a segmented read. -/
def execSegAck (m : KoaMsg) (s : State) : Host.Outcome State Fault Refusal := liftE (segAck m) s

/-- SEG_CANCEL (R52): peer cancels the open segmented transfer. -/
def execSegCancel (m : KoaMsg) (s : State) : Host.Outcome State Fault Refusal := liftE (segCancel m) s

/-- EVENT_ACK (R61): host acknowledges an EVENT by sequence number. -/
def execEventAck (m : KoaMsg) (s : State) : Host.Outcome State Fault Refusal := lift (eventAck m) s

/-- SESSION_IDLE_TIMEOUT (R43): no message accepted within the idle timeout; the module closes the session and sends CLOSE. -/
def execSessionIdleTimeout (session : Nat) (s : State) : Host.Outcome State Fault Refusal :=
  lift (fun _ => sessionIdleTimeout session) s

/-- HANDSHAKE_TIMEOUT (R41): no valid PROOF for a pending handshake within the idle timeout; the handshake is forgotten. -/
def execHandshakeTimeout (session : Nat) (s : State) : Host.Outcome State Fault Refusal :=
  lift (fun _ => handshakeTimeout session) s

/-- SEGMENT_RETRANSMISSION_TIMEOUT (R52): t_seg passes without acknowledgement, and the sender resends from the acknowledged number. -/
def execSegmentRetransmissionTimeout (session : Nat) (s : State) : Host.Outcome State Fault Refusal :=
  lift (fun _ => segmentRetransmissionTimeout session) s

/-- SEGMENTED_TRANSFER_STALL (R52): t_stall passes without progress, and SEG_CANCEL with 0x0504_0000 is sent. -/
def execSegmentedTransferStall (session : Nat) (s : State) : Host.Outcome State Fault Refusal :=
  lift (fun _ => segmentedTransferStall session) s

/-- EVENT_RETRANSMISSION_TIMEOUT (R61): t_evr passes without EVENT_ACK; the event is resent, at most 5 times. -/
def execEventRetransmissionTimeout (session : Nat) (sequence : Nat) (s : State) : Host.Outcome State Fault Refusal :=
  lift (fun _ => eventRetransmissionTimeout session sequence) s

/-- EVENT_SEND_RELEASE (R61): the rate limit allows it, and queued events are sent in sequence order. -/
def execEventSendRelease (session : Nat) (s : State) : Host.Outcome State Fault Refusal :=
  lift (fun _ => eventSendRelease session) s

/-- TAG_FAILURE_INTERVAL_END (R40): A 1 s tag-failure interval ends; 0xE003 is raised when more than 16 failures occurred. -/
def execTagFailureIntervalEnd (s : State) : Host.Outcome State Fault Refusal := lift (fun _ => tagFailureIntervalEnd) s

/-- TRANSITION_REQUEST (R65): A write to 0x1010:02 requests a life-cycle transition, which takes effect when its journal record is written. -/
def execTransitionRequest (w : WriteReq) (s : State) : Host.Outcome State Fault Refusal := liftE (writeOf 0x1010 2 w) s

/-- KEY_WRITE (R71): A write of a key slot raises 0xE005 and closes the slot's sessions. -/
def execKeyWrite (slot : Nat) (w : WriteReq) (s : State) : Host.Outcome State Fault Refusal :=
  liftE (writeIn (decide (slot < 256)) 0x1110 slot w) s

/-- KEY_ROLE_WRITE (R71): A write of a key slot's role raises 0xE005 and closes the slot's sessions. -/
def execKeyRoleWrite (slot : Nat) (w : WriteReq) (s : State) : Host.Outcome State Fault Refusal :=
  liftE (writeIn (decide (slot < 256)) 0x1111 slot w) s

/-- JOURNAL_CLEAR (R73): the clear value empties the event journal, and sequence numbering continues. -/
def execJournalClear (w : WriteReq) (s : State) : Host.Outcome State Fault Refusal := liftE (writeOf 0x1200 5 w) s

/-- CYCLIC_MAP_ENABLE (R57): enable write validates a cyclic map and makes the writing session its destination. -/
def execCyclicMapEnable (map : Nat) (w : WriteReq) (s : State) : Host.Outcome State Fault Refusal :=
  liftE (writeIn (decide (map < 8)) (0x1130 + map) 1 w) s

/-- IMAGE_FLASH_WRITTEN (R70): the journaled flash write of a valid image completes; the boot record names it with TRIAL set. -/
def execImageFlashWritten (s : State) : Host.Outcome State Fault Refusal := lift (fun _ => imageFlashWritten) s

end Sys2Proof.Machine
end

