-- ==== Sys2Proof/Machine/StartCommands.lean ====
section
/-! DEFINITION. The commands of this family: Start-up, shut-down and fault handling (chapter 19). -/

namespace Sys2Proof.Machine

/-- START (R533): the AO island enables the main supplies and the start sequence runs. -/
def execStart (n : Nat) (x : StartInput) (s : State) : Host.Outcome State Fault Refusal :=
  liftE (Sys2Proof.Machine.start n x) s

/-- CHECKPOINT_LIMIT (R539): at T1 + 3 s unfinished shutdown checkpoints are abandoned. -/
def execCheckpointLimit (s : State) : Host.Outcome State Fault Refusal := liftE Sys2Proof.Machine.checkpointLimit s

/-- CORE_WATCHDOG_EXPIRY (R541): A core misses its 50 ms watchdog and is reset alone. -/
def execCoreWatchdogExpiry (core : Nat) (last : Nat) (s : State) : Host.Outcome State Fault Refusal :=
  liftE (fun _ => Sys2Proof.Machine.coreWatchdogExpiry core last) s

/-- MODULE_WATCHDOG_EXPIRY (R541): the whole-module watchdog expires; the module quenches and starts again. -/
def execModuleWatchdogExpiry (last : Nat) (s : State) : Host.Outcome State Fault Refusal :=
  liftE (fun _ => Sys2Proof.Machine.moduleWatchdogExpiry last) s

/-- CORE_RESTARTED (R542): A reset core restarts from the firmware region and resumes its duties. -/
def execCoreRestarted (core : Nat) (s : State) : Host.Outcome State Fault Refusal :=
  liftE (coreReturns core) s

/-- TRIAL_PERIOD_END (R536): A trial image has run 600 s in P0 or P1, and TRIAL is cleared. -/
def execTrialPeriodEnd (s : State) : Host.Outcome State Fault Refusal := lift (fun _ => Sys2Proof.Machine.trialPeriodEnd) s

/-- INTERNAL_BUS_ERROR (R543): A core gets a bus error and abandons the access, which is handled by its kind. -/
def execInternalBusError (core : Nat) (kind : Nat) (address : Nat) (s : State) : Host.Outcome State Fault Refusal :=
  liftE (fun _ => Sys2Proof.Machine.internalBusError core kind address) s

end Sys2Proof.Machine
end

