-- ==== Sys2Proof/Machine/TestCommands.lean ====
section
/-! DEFINITION. The commands of this family: Self-test, the ledger and error injection (chapter 18). -/

namespace Sys2Proof.Machine

/-- FETTLING_YIELD (R512): A normal request reaching a macro under test makes the slice yield. -/
def execFettlingYield (test : Bool) (region : Nat) (s : State) : Host.Outcome State Fault Refusal :=
  lift (fun _ => Sys2Proof.Machine.fettlingYield test region) s

/-- FETTLING_SLICE_PERIOD (R511): while the schedule is STOPPED, one fettling slice runs every 16.667 ms of the time word. -/
def execFettlingSlicePeriod (found : List (Nat × Nat)) (s : State) : Host.Outcome State Fault Refusal :=
  lift (slicePeriod found) s

/-- TEST_START (R517): A commanded self-test start is checked and the test runs. -/
def execTestStart (w : WriteReq) (s : State) : Host.Outcome State Fault Refusal :=
  liftE (writeCode true 0x7C01 5 0x4C4307C1 w) s

/-- TEST_ABORT (R519): the abort value stops a running commanded test. -/
def execTestAbort (w : WriteReq) (s : State) : Host.Outcome State Fault Refusal :=
  liftE (writeCode true 0x7C01 5 0x4C4307C0 w) s

/-- TEST_END (R518): A commanded test ends with PASS, FAIL or INCOMPLETE. -/
def execTestEnd (elements : Nat) (signature : Nat) (found : List (Nat × Nat × Nat)) (s : State) : Host.Outcome State Fault Refusal :=
  lift (fun _ => Sys2Proof.Machine.testEnd elements signature found) s

/-- SHAKEOUT_END (R508): shakeout ends and the repair map is written to flash. -/
def execShakeoutEnd (found : List Miscompare) (s : State) : Host.Outcome State Fault Refusal :=
  liftE (fun _ => Sys2Proof.Machine.shakeoutEnd found) s

/-- WINDOW_OPEN (R524): the open value opens the injection window for 60 s. -/
def execWindowOpen (w : WriteReq) (s : State) : Host.Outcome State Fault Refusal :=
  liftE (writeCode true 0x7F00 1 0x4C437F01 w) s

/-- WINDOW_CLOSE (R524): the close value closes the injection window and disarms injections. -/
def execWindowClose (w : WriteReq) (s : State) : Host.Outcome State Fault Refusal :=
  liftE (writeCode true 0x7F00 1 0x4C437F00 w) s

/-- WINDOW_EXPIRY (R524): 60 s after the latest open write, the injection window closes. -/
def execWindowExpiry (s : State) : Host.Outcome State Fault Refusal := lift (fun _ => Sys2Proof.Machine.windowExpiry) s

/-- INJECTION_START (R523): the start value arms an injection point. -/
def execInjectionStart (w : WriteReq) (s : State) : Host.Outcome State Fault Refusal :=
  liftE (writeCode true 0x7F01 5 0x4C437F61 w) s

/-- INJECTION_STOP (R530): the stop value disarms an armed or periodic injection. -/
def execInjectionStop (w : WriteReq) (s : State) : Host.Outcome State Fault Refusal :=
  liftE (writeCode true 0x7F01 5 0x4C437F60 w) s

/-- INJECTION_PERIOD (R530): A periodic injection's period expires and it injects again. -/
def execInjectionPeriod (s : State) : Host.Outcome State Fault Refusal :=
  liftE Sys2Proof.Machine.injectionPeriod s

/-- LEDGER_UPDATE_PERIOD (R520): while the schedule is STOPPED, the spare resources ledger is updated every 16.667 ms, and FAULTED units become UNUSABLE with spares taking over. -/
def execLedgerUpdatePeriod (s : State) : Host.Outcome State Fault Refusal :=
  lift (fun _ => Sys2Proof.Machine.ledgerUpdatePeriod) s

end Sys2Proof.Machine
end

