-- ==== Sys2Proof/Machine/ThermalCommands.lean ====
section
/-! DEFINITION. The commands of this family: Sensors, fans and thermal trips (chapter 16). -/

namespace Sys2Proof.Machine

/-- SENSOR_CONVERSION (R467): A sensor conversion is filtered and drives throttle and shutdown. -/
def execSensorConversion (n : Nat) (raw : Int) (error : Bool) (s : State) : Host.Outcome State Fault Refusal :=
  liftE (thermalEvent (Sys2Proof.Machine.sensorConversion n raw error)) s

/-- SENSOR_MISSING (R469): no conversion in 3 periods, and the sensor becomes FAILED. -/
def execSensorMissing (n : Nat) (s : State) : Host.Outcome State Fault Refusal :=
  liftE (thermalEvent (Sys2Proof.Machine.sensorMissing n)) s

/-- FAN_CONTROL (R474): every 100 ms the fan duty is set from the thermal margin. -/
def execFanControl (speeds : List Nat) (s : State) : Host.Outcome State Fault Refusal :=
  lift (fun _ => Sys2Proof.Machine.fanControl speeds) s

/-- FAN_TACH_FAULT (R474): A fan reads below half its speed for 2 s. -/
def execFanTachFault (fan : Nat) (speed : Nat) (s : State) : Host.Outcome State Fault Refusal :=
  lift (fun _ => Sys2Proof.Machine.fanTachFault fan speed) s

/-- SENSOR_CLEAR (R469): the clear value lets a failed sensor return to VALID. -/
def execSensorClear (n : Nat) (w : WriteReq) (s : State) : Host.Outcome State Fault Refusal :=
  liftE (writeIn (decide (n < 28)) (0x2220 + n) 8 w) s

/-- SENSOR_RELEASE (R470): the release value lets a failed sensor's twin stand in for throttle and fans. -/
def execSensorRelease (n : Nat) (w : WriteReq) (s : State) : Host.Outcome State Fault Refusal :=
  liftE (writeIn (decide (n < 28)) (0x2220 + n) 9 w) s

/-- HARDWARE_TRIP (R479): the AO island trips on two raw readings at the trip threshold, then quenches and stops. -/
def execHardwareTrip (n : Nat) (deferral : Nat) (s : State) : Host.Outcome State Fault Refusal :=
  liftE (fun _ => Sys2Proof.Machine.hardwareTrip n deferral) s

end Sys2Proof.Machine
end

