-- ==== Sys2Proof/Machine/TileCommands.lean ====
section
/-! DEFINITION. The commands of this family: The tile link protocol and the tile population (chapter 11). -/

namespace Sys2Proof.Machine

/-- TICK_SEND (R321): A TICK leaves the feeding lane at the slot tick minus the lead. -/
def execTickSend (c : Nat) (h : Nat) (slot : Nat) (s : State) : Host.Outcome State Fault Refusal :=
  lift (fun _ => Sys2Proof.Machine.tickSend c h slot) s

/-- ACK (R318): A tile acknowledges segments, or a COMMIT or WITHDRAW. -/
def execAck (c : Nat) (pos : Nat) (version : Nat) (kind : Nat) (tag : Nat) (seq : Nat) (s : State) : Host.Outcome State Fault Refusal :=
  lift (fun _ => ackBlock c pos version kind tag seq) s

/-- NAK (R318): A tile rejects a segment, which is queued for retransmission. -/
def execNak (c : Nat) (pos : Nat) (version : Nat) (kind : Nat) (tag : Nat) (seq : Nat) (s : State) : Host.Outcome State Fault Refusal :=
  lift (fun _ => nakBlock c pos version kind tag seq) s

/-- STATUS (R314): A tile reports the frame shown, its temperature and its fault flags. -/
def execStatus (c : Nat) (pos : Nat) (version : Nat) (frame : Nat) (temperature : Int) (flags : Nat) (s : State) : Host.Outcome State Fault Refusal :=
  lift (fun _ => statusBlock c pos version frame temperature flags) s

/-- ENUM_REPLY (R324): A tile replies to enumeration with its position and identity. -/
def execEnumReply (r : EnumReply) (s : State) : Host.Outcome State Fault Refusal :=
  liftE (tileReplies r) s

/-- DELAY_REPLY (R320): A tile answers a delay probe; after 16, d is computed and C written. -/
def execDelayReply (c : Nat) (pos : Nat) (id : Nat) (roundTrip : Nat) (s : State) : Host.Outcome State Fault Refusal :=
  liftE (tileMeasured c pos id roundTrip) s

/-- FAULT (R330): A tile reports a link or device fault, for break location and coalescing. -/
def execFault (c : Nat) (pos : Nat) (fromB : Bool) (code : Nat) (s : State) : Host.Outcome State Fault Refusal :=
  liftE (tileFault c pos fromB code) s

/-- CONFIG_ACK (R327): A tile confirms a register write; C acknowledged moves it to LOADING. -/
def execConfigAck (c : Nat) (pos : Nat) (reg : Nat) (value : Nat) (s : State) : Host.Outcome State Fault Refusal :=
  liftE (fun _ => tileWritten c pos reg value) s

/-- FLASH_DONE (R354): A tile reports the outcome of a flash commit. -/
def execFlashDone (c : Nat) (pos : Nat) (kind : Nat) (status : Nat) (s : State) : Host.Outcome State Fault Refusal :=
  liftE (flashEnds c pos kind status) s

/-- TILE_SEG_START (R351): A tile sends a segment of a flash object in answer to FLASH_READ. -/
def execTileSegStart (seg : TileSeg) (s : State) : Host.Outcome State Fault Refusal := liftE (tileSegment seg) s

/-- SEGMENT_SENT (R87): A lane finishes a segment and begins the next, with version-2 pours and NAKed segments first. -/
def execSegmentSent (l : Nat) (s : State) : Host.Outcome State Fault Refusal :=
  lift (fun _ => Sys2Proof.Machine.segmentSent l) s

/-- SEGMENT_ACK_TIMEOUT (R318): no ACK covers a segment within t_ato, and it is treated as NAKed. -/
def execSegmentAckTimeout (l : Nat) (pos : Nat) (version : Nat) (kind : Nat) (seq : Nat) (s : State) : Host.Outcome State Fault Refusal :=
  lift (fun _ => ackTimeout l pos version kind seq) s

/-- COMMIT_RESEND (R319): an unacknowledged COMMIT or WITHDRAW is resent every t_cak. -/
def execCommitResend (c : Nat) (pos : Nat) (s : State) : Host.Outcome State Fault Refusal :=
  lift (fun _ => Sys2Proof.Machine.commitResend c pos) s

/-- COMMIT_DEADLINE (R319): at frame tick H minus 20 µs, resending stops and the timeout is reported. -/
def execCommitDeadline (c : Nat) (pos : Nat) (s : State) : Host.Outcome State Fault Refusal :=
  lift (fun _ => Sys2Proof.Machine.commitDeadline c pos) s

/-- TILE_MAP_APPLY (R325): the apply value checks the staged tile map, which takes effect at the next heat start. -/
def execTileMapApply (w : WriteReq) (s : State) : Host.Outcome State Fault Refusal := liftE (writeOf 0x6100 3 w) s

/-- REMOVAL_REQUEST (R327): A tile is checkpointed, blanked in standby and PARKED. -/
def execRemovalRequest (w : WriteReq) (s : State) : Host.Outcome State Fault Refusal := liftE (writeOf 0x6181 0x0C w) s

/-- LOST_TIME_EXPIRY (R327): an UNREACHABLE tile's lost time elapses, and it becomes ABSENT. -/
def execLostTimeExpiry (c : Nat) (pos : Nat) (s : State) : Host.Outcome State Fault Refusal :=
  liftE (tileEvent (Sys2Proof.Machine.lostTimeExpiry c pos)) s

/-- B_SIDE_SILENT (R330): no B-side report 200 µs after the first; ENUM from B is sent to locate the break. -/
def execBSideSilent (c : Nat) (s : State) : Host.Outcome State Fault Refusal :=
  liftE (silentSide c) s

/-- UN_HEAL_DELAY_EXPIRY (R333): A healed chain has been whole for the un-heal delay. -/
def execUnHealDelayExpiry (c : Nat) (s : State) : Host.Outcome State Fault Refusal :=
  lift (fun _ => Sys2Proof.Machine.unHealDelayExpiry c) s

/-- UNHEAL (R333): in the quiet window the module sends ROUTE back to U and the A-side C values. -/
def execUnheal (c : Nat) (s : State) : Host.Outcome State Fault Refusal := lift (fun _ => Sys2Proof.Machine.unheal c) s

/-- COALESCING_WINDOW_CLOSE (R334): A chain's 2 ms window closes and one root event is raised. -/
def execCoalescingWindowClose (c : Nat) (s : State) : Host.Outcome State Fault Refusal :=
  lift (fun _ => Sys2Proof.Machine.coalescingWindowClose c) s

/-- RE_PROBE_TIMER (R322): the tiles of a chain are probed again on ring-delay drift or the periodic timer. -/
def execReProbeTimer (c : Nat) (s : State) : Host.Outcome State Fault Refusal :=
  lift (fun _ => Sys2Proof.Machine.reProbeTimer c) s

end Sys2Proof.Machine
end

