-- ==== Sys2Proof/Machine/TimeCommands.lean ====
section
/-! DEFINITION. The commands of this family: The frame schedule, network time and the sync signals (chapters 03 and 14). -/

namespace Sys2Proof.Machine

/-- FRAME_TICK (R82): frame tick H: frame H becomes visible and heat H+1 starts. -/
def execFrameTick (mismatch : Bool) (found : List (Nat × Nat)) (s : State) : Host.Outcome State Fault Refusal :=
  liftE (tickComes mismatch found) s

/-- SLOT_TICK (R75): A slot tick of the schedule in force begins a slot. -/
def execSlotTick (slot : Nat) (averages : List Int) (s : State) : Host.Outcome State Fault Refusal :=
  lift (fun _ => slotBegins slot averages) s

/-- LATE_CUT_OFF (R96): t_L is reached, and the re-pour decision is taken with the late layers then complete. -/
def execLateCutOff (s : State) : Host.Outcome State Fault Refusal := lift (fun _ => lateCutOff) s

/-- COMMIT_POINT (R98): at t_C the heat is resolved and COMMIT or WITHDRAW blocks are sent to every tile. -/
def execCommitPoint (s : State) : Host.Outcome State Fault Refusal := liftE commitPoint s

/-- SCHEDULE_APPLY (R78): the apply value to 0x5000:05 checks the staged schedule and starts a restart, or replaces a pending one. -/
def execScheduleApply (w : WriteReq) (s : State) : Host.Outcome State Fault Refusal := liftE (writeOf 0x5000 5 w) s

/-- SLOTS_REQUESTED_WRITE (R81): A write to 0x5000:04 checks the slot rate and changes the slot count from the next heat start. -/
def execSlotsRequestedWrite (w : WriteReq) (s : State) : Host.Outcome State Fault Refusal := liftE (writeOf 0x5000 4 w) s

/-- SYNC (R414): A PTP Sync gives a domain an offset and drives the servo. -/
def execSync (x : PtpSync) (s : State) : Host.Outcome State Fault Refusal := liftE (fun c => ptpEvent (sync_ x c) c) s

/-- FOLLOW_UP (R414): A Follow_Up gives the time for a two-step Sync. -/
def execFollowUp (d : Nat) (seq : Nat) (origin : Nat) (correction : Int) (s : State) : Host.Outcome State Fault Refusal :=
  liftE (ptpEvent (followUp_ d seq origin correction)) s

/-- ANNOUNCE (R416): an Announce feeds the BMCA selection of a timeTransmitter. -/
def execAnnounce (a : PtpAnnounce) (s : State) : Host.Outcome State Fault Refusal :=
  liftE (ptpEvent (Sys2Proof.Machine.announce a)) s

/-- DELAY_REQ (R413): an enabled domain instance sends a Delay_Req (end-to-end) or a Pdelay_Req (peer-to-peer) to measure its path delay. -/
def execDelayReq (d : Nat) (tx : Nat) (s : State) : Host.Outcome State Fault Refusal :=
  liftE (fun c => ptpEvent (Sys2Proof.Machine.delayReq d tx c) c) s

/-- DELAY_RESP (R415): A Delay_Resp completes an end-to-end path delay measurement. -/
def execDelayResp (d : Nat) (seq : Nat) (rx : Nat) (correction : Int) (s : State) : Host.Outcome State Fault Refusal :=
  liftE (ptpEvent (Sys2Proof.Machine.delayResp d seq rx correction)) s

/-- PDELAY_REQ (R413): A Pdelay_Req is answered with a two-step Pdelay_Resp. -/
def execPdelayReq (d : Nat) (seq : Nat) (rx : Nat) (tx : Nat) (s : State) : Host.Outcome State Fault Refusal :=
  liftE (fun c => ptpEvent (Sys2Proof.Machine.pdelayReq d seq rx tx c) c) s

/-- PDELAY_RESP (R415): A Pdelay_Resp and its follow-up complete a neighbour delay measurement. -/
def execPdelayResp (d : Nat) (seq : Nat) (reqRx : Nat) (respTx : Nat) (rx : Nat) (correction : Int) (s : State) : Host.Outcome State Fault Refusal :=
  liftE (fun c => ptpEvent (Sys2Proof.Machine.pdelayResp d seq reqRx respTx rx correction c) c) s

/-- ANNOUNCE_RECEIPT_TIMEOUT (R416): three Announce intervals pass without an Announce, and the domain becomes LISTENING. -/
def execAnnounceReceiptTimeout (d : Nat) (s : State) : Host.Outcome State Fault Refusal :=
  liftE (ptpEvent (Sys2Proof.Machine.announceReceiptTimeout d)) s

/-- SYNC_LOSS (R416): no usable Sync for 4 intervals, and the domain becomes LISTENING. -/
def execSyncLoss (d : Nat) (s : State) : Host.Outcome State Fault Refusal :=
  liftE (ptpEvent (Sys2Proof.Machine.syncLoss d)) s

/-- FOLLOW_UP_WINDOW_EXPIRY (R414): A Sync's Follow_Up does not arrive within one interval, and the Sync is discarded. -/
def execFollowUpWindowExpiry (d : Nat) (s : State) : Host.Outcome State Fault Refusal :=
  liftE (ptpEvent (Sys2Proof.Machine.followUpWindowExpiry d)) s

/-- REVERT_DELAY_EXPIRY (R417): domain A has been QUALIFIED for the revert delay and becomes active again. -/
def execRevertDelayExpiry (s : State) : Host.Outcome State Fault Refusal :=
  liftE (ptpEvent Sys2Proof.Machine.revertDelayExpiry) s

/-- TIME_SET (R420): in FREE_RUN a write to 0x3000:0D steps the time word. -/
def execTimeSet (w : WriteReq) (s : State) : Host.Outcome State Fault Refusal := liftE (writeOf 0x3000 0x0D w) s

/-- SELECTION_MODE_WRITE (R419): A selection mode change re-evaluates the active domain and time status. -/
def execSelectionModeWrite (w : WriteReq) (s : State) : Host.Outcome State Fault Refusal := liftE (writeOf 0x3000 3 w) s

/-- SYNC_OUTPUT_APPLY (R429): the apply value checks the staged sync-output settings. -/
def execSyncOutputApply (w : WriteReq) (s : State) : Host.Outcome State Fault Refusal := liftE (writeOf 0x3100 3 w) s

/-- SYNC_OUTPUT_EDGE (R427): A sync output's pulse edge falls due. -/
def execSyncOutputEdge (o : Nat) (tick : Nat) (slot : Nat) (s : State) : Host.Outcome State Fault Refusal :=
  lift (fun _ => syncOutputEdge o tick slot) s

/-- SYNC_INPUT_EDGE (R431): A selected edge at a sync input is stamped, with its phase. -/
def execSyncInputEdge (input : Nat) (falling : Bool) (stamp : Nat) (s : State) : Host.Outcome State Fault Refusal :=
  liftE (inputEdge input falling stamp) s

/-- OUTPUT_SETTINGS_IN_EFFECT (R429): while the schedule is STOPPED, staged sync-output settings take effect 1 ms after the apply, and 0x4009 is raised. -/
def execOutputSettingsInEffect (s : State) : Host.Outcome State Fault Refusal := lift (fun _ => settingsInEffect) s

/-- AO_ISLAND_POWER_LOSS (R426): the riser falls below the AO island's 40 V limit with no mains, and the AO island loses power, its time counter and latched state. -/
def execAoIslandPowerLoss (s : State) : Host.Outcome State Fault Refusal := lift (fun _ => aoIslandPowerLoss) s

end Sys2Proof.Machine
end

