-- ==== Sys2Proof/Machine/Dispatch.lean ====
section
/-! DEFINITION. One arm per command, each one direct call of its meaning. -/

namespace Sys2Proof.Machine

def exec (i : Instr) (s : State) : Host.Outcome State Fault Refusal :=
  match i with
  | .hello m => Sys2Proof.Machine.execHello m s
  | .proof m => Sys2Proof.Machine.execProof m s
  | .close m => Sys2Proof.Machine.execClose m s
  | .read m => Sys2Proof.Machine.execRead m s
  | .write m => Sys2Proof.Machine.execWrite m s
  | .segOpen m => Sys2Proof.Machine.execSegOpen m s
  | .segData m image => Sys2Proof.Machine.execSegData m image s
  | .segAck m => Sys2Proof.Machine.execSegAck m s
  | .segCancel m => Sys2Proof.Machine.execSegCancel m s
  | .eventAck m => Sys2Proof.Machine.execEventAck m s
  | .sessionIdleTimeout session => Sys2Proof.Machine.execSessionIdleTimeout session s
  | .handshakeTimeout session => Sys2Proof.Machine.execHandshakeTimeout session s
  | .segmentRetransmissionTimeout session => Sys2Proof.Machine.execSegmentRetransmissionTimeout session s
  | .segmentedTransferStall session => Sys2Proof.Machine.execSegmentedTransferStall session s
  | .eventRetransmissionTimeout session sequence => Sys2Proof.Machine.execEventRetransmissionTimeout session sequence s
  | .eventSendRelease session => Sys2Proof.Machine.execEventSendRelease session s
  | .tagFailureIntervalEnd => Sys2Proof.Machine.execTagFailureIntervalEnd s
  | .transitionRequest w => Sys2Proof.Machine.execTransitionRequest w s
  | .keyWrite slot w => Sys2Proof.Machine.execKeyWrite slot w s
  | .keyRoleWrite slot w => Sys2Proof.Machine.execKeyRoleWrite slot w s
  | .journalClear w => Sys2Proof.Machine.execJournalClear w s
  | .cyclicMapEnable map w => Sys2Proof.Machine.execCyclicMapEnable map w s
  | .imageFlashWritten => Sys2Proof.Machine.execImageFlashWritten s
  | .frameTick mismatch found => Sys2Proof.Machine.execFrameTick mismatch found s
  | .slotTick slot averages => Sys2Proof.Machine.execSlotTick slot averages s
  | .lateCutOff => Sys2Proof.Machine.execLateCutOff s
  | .commitPoint => Sys2Proof.Machine.execCommitPoint s
  | .scheduleApply w => Sys2Proof.Machine.execScheduleApply w s
  | .slotsRequestedWrite w => Sys2Proof.Machine.execSlotsRequestedWrite w s
  | .planeSetComplete cl n => Sys2Proof.Machine.execPlaneSetComplete cl n s
  | .hogelRowRendered cl corrected => Sys2Proof.Machine.execHogelRowRendered cl corrected s
  | .segmentSent l => Sys2Proof.Machine.execSegmentSent l s
  | .frameReceived f => Sys2Proof.Machine.execFrameReceived f s
  | .rtcpBye slot ssrc => Sys2Proof.Machine.execRtcpBye slot ssrc s
  | .sourceIdleTimeout slot => Sys2Proof.Machine.execSourceIdleTimeout slot s
  | .slotEnable w => Sys2Proof.Machine.execSlotEnable w s
  | .decodeStart k => Sys2Proof.Machine.execDecodeStart k s
  | .blockDecoded e engineWrong taker => Sys2Proof.Machine.execBlockDecoded e engineWrong taker s
  | .descriptorApply w => Sys2Proof.Machine.execDescriptorApply w s
  | .uploadStart j w => Sys2Proof.Machine.execUploadStart j w s
  | .uploadRun j => Sys2Proof.Machine.execUploadRun j s
  | .uploadFinish j => Sys2Proof.Machine.execUploadFinish j s
  | .recordStart w => Sys2Proof.Machine.execRecordStart w s
  | .recordStop w => Sys2Proof.Machine.execRecordStop w s
  | .clipDelete w => Sys2Proof.Machine.execClipDelete w s
  | .clusterFault cl cause => Sys2Proof.Machine.execClusterFault cl cause s
  | .pourWatchdog cl => Sys2Proof.Machine.execPourWatchdog cl s
  | .workSurfacePatchDeferred g => Sys2Proof.Machine.execWorkSurfacePatchDeferred g s
  | .regionUpdateStart j w => Sys2Proof.Machine.execRegionUpdateStart j w s
  | .regionUpdateRun j => Sys2Proof.Machine.execRegionUpdateRun j s
  | .regionUpdateComplete j => Sys2Proof.Machine.execRegionUpdateComplete j s
  | .captureStart w => Sys2Proof.Machine.execCaptureStart w s
  | .captureStop w => Sys2Proof.Machine.execCaptureStop w s
  | .signatureRegionEnable r w => Sys2Proof.Machine.execSignatureRegionEnable r w s
  | .signatureLearn r w => Sys2Proof.Machine.execSignatureLearn r w s
  | .decodeEngineFault e => Sys2Proof.Machine.execDecodeEngineFault e s
  | .encodeEngineFault e => Sys2Proof.Machine.execEncodeEngineFault e s
  | .blockEncoded e mismatch => Sys2Proof.Machine.execBlockEncoded e mismatch s
  | .hostJobStart j w => Sys2Proof.Machine.execHostJobStart j w s
  | .hostJobAbort j w tokens => Sys2Proof.Machine.execHostJobAbort j w tokens s
  | .hostJobRun j engine => Sys2Proof.Machine.execHostJobRun j engine s
  | .drawStart x => Sys2Proof.Machine.execDrawStart x s
  | .drawAbort w done => Sys2Proof.Machine.execDrawAbort w done s
  | .drawComplete ch next => Sys2Proof.Machine.execDrawComplete ch next s
  | .drawHang ch done => Sys2Proof.Machine.execDrawHang ch done s
  | .refreshDue channel rank burst postpone paid pulledIn => Sys2Proof.Machine.execRefreshDue channel rank burst postpone paid pulledIn s
  | .mr4Poll bands => Sys2Proof.Machine.execMr4Poll bands s
  | .uncorrectableRead address source => Sys2Proof.Machine.execUncorrectableRead address source s
  | .fence source => Sys2Proof.Machine.execFence source s
  | .fenceComplete source => Sys2Proof.Machine.execFenceComplete source s
  | .idleSelfRefresh channel idle => Sys2Proof.Machine.execIdleSelfRefresh channel idle s
  | .selfRefreshRequest channel onBus drift => Sys2Proof.Machine.execSelfRefreshRequest channel onBus drift s
  | .zqCalibrationTimer => Sys2Proof.Machine.execZqCalibrationTimer s
  | .oscillatorMeasurement drifts => Sys2Proof.Machine.execOscillatorMeasurement drifts s
  | .takeOverStart => Sys2Proof.Machine.execTakeOverStart s
  | .retireRequest w => Sys2Proof.Machine.execRetireRequest w s
  | .spareTrained failures => Sys2Proof.Machine.execSpareTrained failures s
  | .copyInComplete poisoned => Sys2Proof.Machine.execCopyInComplete poisoned s
  | .laneModeWrite l w => Sys2Proof.Machine.execLaneModeWrite l w s
  | .blockReceived l header line => Sys2Proof.Machine.execBlockReceived l header line s
  | .huntAlarm l => Sys2Proof.Machine.execHuntAlarm l s
  | .laneSleep l count => Sys2Proof.Machine.execLaneSleep l count s
  | .deepIdleTimeout c => Sys2Proof.Machine.execDeepIdleTimeout c s
  | .laneSleepSent l => Sys2Proof.Machine.execLaneSleepSent l s
  | .wakeRecognised l activity sleepLeft => Sys2Proof.Machine.execWakeRecognised l activity sleepLeft s
  | .wakePatternDone l => Sys2Proof.Machine.execWakePatternDone l s
  | .pllLocked l => Sys2Proof.Machine.execPllLocked l s
  | .cdrLocked l => Sys2Proof.Machine.execCdrLocked l s
  | .deepResidencyEnd l => Sys2Proof.Machine.execDeepResidencyEnd l s
  | .prbsCounterClear l w => Sys2Proof.Machine.execPrbsCounterClear l w s
  | .laneInjectionStart l w => Sys2Proof.Machine.execLaneInjectionStart l w s
  | .laneInjectionStop l w => Sys2Proof.Machine.execLaneInjectionStop l w s
  | .laneInjectionPeriod l => Sys2Proof.Machine.execLaneInjectionPeriod l s
  | .tickSend c h slot => Sys2Proof.Machine.execTickSend c h slot s
  | .ack c pos version kind tag seq => Sys2Proof.Machine.execAck c pos version kind tag seq s
  | .nak c pos version kind tag seq => Sys2Proof.Machine.execNak c pos version kind tag seq s
  | .status c pos version frame temperature flags => Sys2Proof.Machine.execStatus c pos version frame temperature flags s
  | .enumReply r => Sys2Proof.Machine.execEnumReply r s
  | .delayReply c pos id roundTrip => Sys2Proof.Machine.execDelayReply c pos id roundTrip s
  | .fault c pos fromB code => Sys2Proof.Machine.execFault c pos fromB code s
  | .configAck c pos reg value => Sys2Proof.Machine.execConfigAck c pos reg value s
  | .flashDone c pos kind status => Sys2Proof.Machine.execFlashDone c pos kind status s
  | .tileSegStart seg => Sys2Proof.Machine.execTileSegStart seg s
  | .segmentAckTimeout l pos version kind seq => Sys2Proof.Machine.execSegmentAckTimeout l pos version kind seq s
  | .commitResend c pos => Sys2Proof.Machine.execCommitResend c pos s
  | .commitDeadline c pos => Sys2Proof.Machine.execCommitDeadline c pos s
  | .tileMapApply w => Sys2Proof.Machine.execTileMapApply w s
  | .removalRequest w => Sys2Proof.Machine.execRemovalRequest w s
  | .lostTimeExpiry c pos => Sys2Proof.Machine.execLostTimeExpiry c pos s
  | .bSideSilent c => Sys2Proof.Machine.execBSideSilent c s
  | .unHealDelayExpiry c => Sys2Proof.Machine.execUnHealDelayExpiry c s
  | .unheal c => Sys2Proof.Machine.execUnheal c s
  | .coalescingWindowClose c => Sys2Proof.Machine.execCoalescingWindowClose c s
  | .reProbeTimer c => Sys2Proof.Machine.execReProbeTimer c s
  | .checkpointRequest w => Sys2Proof.Machine.execCheckpointRequest w s
  | .checkpointEncoded p => Sys2Proof.Machine.execCheckpointEncoded p s
  | .flashTimeout c pos kind => Sys2Proof.Machine.execFlashTimeout c pos kind s
  | .historyRetry c pos kind => Sys2Proof.Machine.execHistoryRetry c pos kind s
  | .flashReadTimeout c pos kind => Sys2Proof.Machine.execFlashReadTimeout c pos kind s
  | .gainUpdateStart j w => Sys2Proof.Machine.execGainUpdateStart j w s
  | .gainUpdateRun j => Sys2Proof.Machine.execGainUpdateRun j s
  | .gainUpdateComplete j => Sys2Proof.Machine.execGainUpdateComplete j s
  | .settleTimeWrite w => Sys2Proof.Machine.execSettleTimeWrite w s
  | .commonFault n cause => Sys2Proof.Machine.execCommonFault n cause s
  | .commonFaultClear n w => Sys2Proof.Machine.execCommonFaultClear n w s
  | .slateTick => Sys2Proof.Machine.execSlateTick s
  | .quenchCommand w => Sys2Proof.Machine.execQuenchCommand w s
  | .quenchRelease w => Sys2Proof.Machine.execQuenchRelease w s
  | .meterRefill => Sys2Proof.Machine.execMeterRefill s
  | .txDescriptorPosted t => Sys2Proof.Machine.execTxDescriptorPosted t s
  | .frameTransmitted p view packets => Sys2Proof.Machine.execFrameTransmitted p view packets s
  | .gateEntryEnd p => Sys2Proof.Machine.execGateEntryEnd p s
  | .gateListApply p w => Sys2Proof.Machine.execGateListApply p w s
  | .gateListSwitch p => Sys2Proof.Machine.execGateListSwitch p s
  | .linkUp p => Sys2Proof.Machine.execLinkUp p s
  | .linkDown p => Sys2Proof.Machine.execLinkDown p s
  | .qsfpInserted p kind temp => Sys2Proof.Machine.execQsfpInserted p kind temp s
  | .qsfpRemoved p => Sys2Proof.Machine.execQsfpRemoved p s
  | .sync x => Sys2Proof.Machine.execSync x s
  | .followUp d seq origin correction => Sys2Proof.Machine.execFollowUp d seq origin correction s
  | .announce a => Sys2Proof.Machine.execAnnounce a s
  | .delayResp d seq rx correction => Sys2Proof.Machine.execDelayResp d seq rx correction s
  | .pdelayReq d seq rx tx => Sys2Proof.Machine.execPdelayReq d seq rx tx s
  | .pdelayResp d seq reqRx respTx rx correction => Sys2Proof.Machine.execPdelayResp d seq reqRx respTx rx correction s
  | .announceReceiptTimeout d => Sys2Proof.Machine.execAnnounceReceiptTimeout d s
  | .syncLoss d => Sys2Proof.Machine.execSyncLoss d s
  | .followUpWindowExpiry d => Sys2Proof.Machine.execFollowUpWindowExpiry d s
  | .revertDelayExpiry => Sys2Proof.Machine.execRevertDelayExpiry s
  | .timeSet w => Sys2Proof.Machine.execTimeSet w s
  | .selectionModeWrite w => Sys2Proof.Machine.execSelectionModeWrite w s
  | .syncOutputApply w => Sys2Proof.Machine.execSyncOutputApply w s
  | .syncOutputEdge o tick slot => Sys2Proof.Machine.execSyncOutputEdge o tick slot s
  | .syncInputEdge input falling stamp => Sys2Proof.Machine.execSyncInputEdge input falling stamp s
  | .lineHalfCycle measured freq => Sys2Proof.Machine.execLineHalfCycle measured freq s
  | .riserSample v => Sys2Proof.Machine.execRiserSample v s
  | .stageEvaluation => Sys2Proof.Machine.execStageEvaluation s
  | .abruptLoss kind => Sys2Proof.Machine.execAbruptLoss kind s
  | .phaseFault k cause => Sys2Proof.Machine.execPhaseFault k cause s
  | .stageFloorWrite w => Sys2Proof.Machine.execStageFloorWrite w s
  | .runRequest w => Sys2Proof.Machine.execRunRequest w s
  | .slateRequest w => Sys2Proof.Machine.execSlateRequest w s
  | .sleepRequest w => Sys2Proof.Machine.execSleepRequest w s
  | .offRequest w => Sys2Proof.Machine.execOffRequest w s
  | .wake source unit => Sys2Proof.Machine.execWake source unit s
  | .wakePacket p data => Sys2Proof.Machine.execWakePacket p data s
  | .servicePortAttach => Sys2Proof.Machine.execServicePortAttach s
  | .aoTimerExpiry => Sys2Proof.Machine.execAoTimerExpiry s
  | .mainsRestored => Sys2Proof.Machine.execMainsRestored s
  | .wakeOnAccessIdle ix => Sys2Proof.Machine.execWakeOnAccessIdle ix s
  | .internalBusError core kind address => Sys2Proof.Machine.execInternalBusError core kind address s
  | .sensorConversion n raw error => Sys2Proof.Machine.execSensorConversion n raw error s
  | .sensorMissing n => Sys2Proof.Machine.execSensorMissing n s
  | .fanControl speeds => Sys2Proof.Machine.execFanControl speeds s
  | .fanTachFault fan speed => Sys2Proof.Machine.execFanTachFault fan speed s
  | .sensorClear n w => Sys2Proof.Machine.execSensorClear n w s
  | .sensorRelease n w => Sys2Proof.Machine.execSensorRelease n w s
  | .hardwareTrip n deferral => Sys2Proof.Machine.execHardwareTrip n deferral s
  | .calibrationStart w => Sys2Proof.Machine.execCalibrationStart w s
  | .calibrationAbort w => Sys2Proof.Machine.execCalibrationAbort w s
  | .calibrationAccept w => Sys2Proof.Machine.execCalibrationAccept w s
  | .calibrationReject w => Sys2Proof.Machine.execCalibrationReject w s
  | .calibrationChecksDone failed => Sys2Proof.Machine.execCalibrationChecksDone failed s
  | .calibrationPassEnd values lost => Sys2Proof.Machine.execCalibrationPassEnd values lost s
  | .calibrationGapEnd failed => Sys2Proof.Machine.execCalibrationGapEnd failed s
  | .calibrationTimeout => Sys2Proof.Machine.execCalibrationTimeout s
  | .calibrationExpiry => Sys2Proof.Machine.execCalibrationExpiry s
  | .calibrationFlashWritten => Sys2Proof.Machine.execCalibrationFlashWritten s
  | .calibrationSlotClear w => Sys2Proof.Machine.execCalibrationSlotClear w s
  | .tapStep adapt held => Sys2Proof.Machine.execTapStep adapt held s
  | .fettlingYield test region => Sys2Proof.Machine.execFettlingYield test region s
  | .testStart w => Sys2Proof.Machine.execTestStart w s
  | .testAbort w => Sys2Proof.Machine.execTestAbort w s
  | .testEnd elements signature found => Sys2Proof.Machine.execTestEnd elements signature found s
  | .shakeoutEnd found => Sys2Proof.Machine.execShakeoutEnd found s
  | .windowOpen w => Sys2Proof.Machine.execWindowOpen w s
  | .windowClose w => Sys2Proof.Machine.execWindowClose w s
  | .windowExpiry => Sys2Proof.Machine.execWindowExpiry s
  | .injectionStart w => Sys2Proof.Machine.execInjectionStart w s
  | .injectionStop w => Sys2Proof.Machine.execInjectionStop w s
  | .injectionPeriod => Sys2Proof.Machine.execInjectionPeriod s
  | .start n x => Sys2Proof.Machine.execStart n x s
  | .checkpointLimit => Sys2Proof.Machine.execCheckpointLimit s
  | .coreWatchdogExpiry core last => Sys2Proof.Machine.execCoreWatchdogExpiry core last s
  | .moduleWatchdogExpiry last => Sys2Proof.Machine.execModuleWatchdogExpiry last s
  | .coreRestarted core => Sys2Proof.Machine.execCoreRestarted core s
  | .trialPeriodEnd => Sys2Proof.Machine.execTrialPeriodEnd s
  | .patrolScrub channel found => Sys2Proof.Machine.execPatrolScrub channel found s
  | .checkerSync l received => Sys2Proof.Machine.execCheckerSync l received s
  | .delayReq d tx => Sys2Proof.Machine.execDelayReq d tx s
  | .rxDescriptorPosted p buffer => Sys2Proof.Machine.execRxDescriptorPosted p buffer s
  | .ledgerUpdatePeriod => Sys2Proof.Machine.execLedgerUpdatePeriod s
  | .fettlingSlicePeriod found => Sys2Proof.Machine.execFettlingSlicePeriod found s
  | .valuesInForcePeriod => Sys2Proof.Machine.execValuesInForcePeriod s
  | .outputSettingsInEffect => Sys2Proof.Machine.execOutputSettingsInEffect s
  | .aoIslandPowerLoss => Sys2Proof.Machine.execAoIslandPowerLoss s

end Sys2Proof.Machine
end

