-- ==== Sys2Proof/Safety.lean ====
section
/-! DEFINITION. The terms in which claims about the block are stated: what it keeps at every step, and when a WRITE reaches its object. -/

namespace Sys2Proof.Machine

/-- What every step keeps: the DRAM contents are in their one canonical form. -/
def State.Inv (s : State) : Prop := memWf s.mem = true

/-- A command's answer is a next state with a property. -/
def Runs (i : Instr) (s : State) (P : State → Prop) : Prop := ∃ t, exec i s = .next t ∧ P t

/-- Two blocks that differ in their sessions and in what has left them only: what a response changes. -/
abbrev SameBut (a b : Mach) : Prop := a = { b with koa := a.koa, out := a.out }

/-- No stop of heats, no shutdown and no request waits, so that nothing else follows a command (R452 to R454, R539). -/
def Mach.settled (m : Mach) : Bool := !m.stopping && m.boot.shut = 0 && m.objN 0x2100 3 = 0xFF

/-- The objects of the dictionary are as before, but for those of the named indices (with the indices between each pair). -/
def ObjectsBut (l : List (Nat × Nat)) (a b : Mach) : Prop :=
  ∀ k, (∀ r ∈ l, k / 256 % 65536 < r.1 ∨ r.2 < k / 256 % 65536) → storeGet b.od k = storeGet a.od k

/-- A control block was sent on a lane. -/
def Mach.sentOn (m : Mach) (l : Nat) (k : Ktl) : Bool :=
  m.out.any (fun o => match o with
    | .ktl x y _ => x = l && y = k
    | _ => false)

/-- What has left the block between two states. -/
def sentBy (a b : Mach) : List Out := b.out.take (b.out.length - a.out.length)

/-- A message of a type, session, request tag and payload was sent between two states. -/
def answeredBy (a b : Mach) (ty session tag : Nat) (payload : Bytes) : Bool :=
  (sentBy a b).any (fun o => match o with
    | .koa _ ty' _ session' _ tag' payload' _ => ty' = ty && session' = session && tag' = tag && payload' = payload
    | _ => false)

/-- A message of a type passes the checks of R35 to R42 and R45 in session `z`; `m` is the block with the message noted. -/
abbrev Accepts (s : State) (ty : Nat) (g : KoaMsg) (m : Mach) (z : Session) : Prop := s.m.vet s.ctx ty g = .take m z

/-- A WRITE of an object gets through: the message is accepted in a session, no response is kept for it, no request is outstanding and core 0 not at work, and
the object, the role, the access class, the life-cycle state, the type, the length and the range let the value in (R35 to R48, R62 to R66).
`p` is the write, with the reach that the command gives a work it ends, and `m` the block on which the object's own rule then acts. -/
structure Reaches (s : State) (ix sub : Nat) (w : WriteReq) (p : Put) (m : Mach) (hint : Option Nat := none) : Prop where
  taken : ∃ m0, s.m.vet s.ctx 0x12 (writeMsg w ix sub) = .take m0 p.s ∧ m = m0.wakeFor ix
  normal : s.m.boot.recovery = false
  unkept : p.s.keeps 0x12 (writeMsg w ix sub) = none
  length : lengthAbort 0x12 (writeMsg w ix sub).payload = none
  turn : w.hdr.busy = false ∧ s.m.koa.waiting = []
  allowed : m.writeAbort s.ctx p.s.role ix sub false w.value = none
  value : ∃ r, objRow ix sub = some r ∧ r.valueAbort w.ty w.value = none ∧ p.v = r.value w.value
  put : p.c = s.ctx ∧ p.ix = ix ∧ p.sub = sub ∧ p.b = w.value ∧ p.hint = hint
  small : ix < 65536 ∧ sub < 256 ∧ w.ty < 256

end Sys2Proof.Machine
end

