-- ==== Sys2Proof/Certificates/Slice0/Obligations.lean ====
section
/-! DEFINITION. The statements for the provers: each says what commands do, with the rules of the spec it formalises. -/

open Sys2Proof Sys2Proof.Machine


/-- The step of the block; what it does on an empty queue is the model's choice (log entries 4 and 9). -/
def Obligations.StepRunsTheFrontCommand : Prop :=
  (∀ (s : State) (c : Instr), step { s with pending := c :: s.pending } = exec c s) ∧
  (∀ s : State, s.pending = [] → step s = liftE idle s) ∧
  (∀ s : State, s.pending = [] → s.m.koa.waiting = [] → s.m.power_.entry = none → s.m.idle.unserved = none → step s = .next { s with m := s.m.idle }) ∧
  (∀ (s : State) (core : Nat), s.pending = [] → s.m.koa.waiting = [] → s.m.power_.entry = none → s.m.idle.unserved = some core → core < 4 → s.m.idle.power ≤ 2 →
    5 ≤ s.m.idle.boot.step → s.m.idle.recentResets.length < 2 → ∃ t : State, step s = .next t ∧ t.m.boot.cores.contains core = true ∧ t.m.test.timed.length < s.m.test.timed.length) ∧
  (∀ (s : State) (x : Nat), s.pending = [] → s.m.koa.waiting = [] → s.m.idle.power_.entry = some (x, 3) → x + ms 3 ≤ s.m.idle.now →
    ∃ t : State, step s = .next t ∧ t.m.power = 3 ∧ t.m.power_.entry = none ∧ t.m.clk.latched.isSome = true ∧ t.pending = [] ∧ t.mem = s.mem)

/-- Every command completes, keeps the queue and the unit, and changes the life-cycle state only along R65; RETIRED is never left. -/
def Obligations.EveryCommandCompletesAndRetiredIsForever : Prop :=
  ∀ (c : Instr) (s : State), ∃ t : State, exec c s = .next t ∧ t.pending = s.pending ∧ t.unit = s.unit ∧
    (t.life = s.life ∨ (s.life, t.life) ∈ ([(.factory, .provisioned), (.provisioned, .field), (.field, .service), (.service, .field), (.provisioned, .retired), (.field, .retired), (.service, .retired)] : List (Life × Life))) ∧
    (s.life = .retired → t.life = .retired)

/-- Every step keeps the DRAM contents in their canonical form. -/
def Obligations.MemoryStaysCanonical : Prop :=
  ∀ s t : State, s.Inv → step s = .next t → t.Inv

/-- After reset the queue and DRAM list nothing, no session is open, and the objects hold the defaults of their tables. -/
def Obligations.ResetLeavesTheDefaults : Prop :=
  State.reset.Inv ∧ State.reset.pending = [] ∧ State.reset.mem = [] ∧ State.reset.m.koa.sessions = [] ∧ State.reset.m.jrn.newest = 0 ∧
  State.reset.life = .factory ∧ (∀ j < 8, State.reset.m.jobState j = 0) ∧
  State.reset.m.objN 0x1100 2 = 10000 ∧
  State.reset.m.objN 0x1100 3 = 0 ∧
  State.reset.m.objN 0x2000 6 = 0 ∧
  State.reset.m.objN 0x2200 1 = 0 ∧
  State.reset.m.objN 0x3000 1 = 0 ∧
  State.reset.m.objN 0x5000 0x0A = 0 ∧
  State.reset.m.objN 0x5418 8 = 0 ∧
  State.reset.m.objN 0x5800 1 = 0x300 ∧
  State.reset.m.objN 0x7000 6 = 48 ∧
  State.reset.m.objN 0x7000 7 = 16 ∧
  State.reset.m.objN 0x7F01 6 = 0

/-- A class with its extra field stands for the value of the class scheme, and the encoder's class and extra field of a value read back as it. -/
def Obligations.ClassSchemeCodesItsValues : Prop :=
  (∀ l : List Bool, readExtra 0 l = .ok (0, l) ∧ readExtra 1 l = .ok (1, l)) ∧
  (∀ (k x : Nat) (l : List Bool), 2 ≤ k → k ≤ 12 → x < 2 ^ (k - 1) → readExtra k (bitsN (k - 1) x ++ l) = .ok (2 ^ (k - 1) + x, l)) ∧
  (∀ (k v : Nat) (l r : List Bool), 2 ≤ k → k ≤ 12 → readExtra k l = .ok (v, r) → 2 ^ (k - 1) ≤ v ∧ v < 2 ^ k ∧ r = l.drop (k - 1)) ∧
  (∀ (v : Nat) (l : List Bool), v < 4096 → classOf v ≤ 12 ∧ readExtra (classOf v) (extraBits v ++ l) = .ok (v, l))

/-- A STORED block carries the sample bytes in order, is at most 23 bytes longer than them, and decodes to its header and samples. -/
def Obligations.StoredBlocksHoldTheirSamples : Prop :=
  ∀ (layer col row w h : Nat) (l : List Sample), layer < 256 → col < 64 → row < 64 → 1 ≤ w → w ≤ 64 → 1 ≤ h → h ≤ 64 → l.length = w * h →
    l.all Sample.wf = true →
    slice 16 (6 * w * h) (storedBlock layer col row w h l) = l.flatMap Sample.bytes ∧ (l.flatMap Sample.bytes).length = 6 * w * h ∧
    (storedBlock layer col row w h l).length ≤ 6 * w * h + 23 ∧
    (w = 64 → h = 64 → (storedBlock layer col row w h l).length = 24596) ∧
    (∃ g : GwynHeader, decodeBlock (storedBlock layer col row w h l) = .ok (g, l) ∧
      g = ⟨layer, col, row, 0, 0, w, h, (storedBlock layer col row w h l).length⟩)

/-- A message is dropped or accepted by the checks of R35 to R42, and the drops are counted. -/
def Obligations.MessagesAreChecked : Prop :=
  ∀ (s : State) (ty : Nat) (g : KoaMsg),
    (s.m.hears s.ctx g.hdr.peer = false → s.m.vet s.ctx ty g = .drop s.m) ∧
    (wellFramed g (s.m.sessionless s.ctx g.hdr) = false → s.m.vet s.ctx ty g = .drop s.m) ∧
    (s.m.hears s.ctx g.hdr.peer = true → wellFramed g (s.m.sessionless s.ctx g.hdr) = true → s.m.sessionless s.ctx g.hdr = false →
      s.m.objN 0x1100 4 < 4294967295 → s.m.objN 0x1100 5 < 4294967295 →
      (s.m.koa.sessions.find? (fun x => x.id = g.hdr.session) = none →
        ∃ m, s.m.vet s.ctx ty g = .drop m ∧ m.objN 0x1100 4 = s.m.objN 0x1100 4 + 1 ∧ m.koa.sessions = s.m.koa.sessions) ∧
      ∀ x, s.m.koa.sessions.find? (fun x => x.id = g.hdr.session) = some x →
        (tagged g ty x.key = false →
          ∃ m, s.m.vet s.ctx ty g = .drop m ∧ m.objN 0x1100 4 = s.m.objN 0x1100 4 + 1 ∧ m.koa.sessions = s.m.koa.sessions) ∧
        (tagged g ty x.key = true → g.hdr.counter ≤ x.rxHigh → g.hdr.counter + 64 < x.rxHigh ∨ g.hdr.counter ∈ x.rxSeen →
          ∃ m, s.m.vet s.ctx ty g = .drop m ∧ m.objN 0x1100 5 = s.m.objN 0x1100 5 + 1 ∧ m.koa = s.m.koa) ∧
        (tagged g ty x.key = true → x.rxHigh < g.hdr.counter ∨ x.rxHigh ≤ g.hdr.counter + 64 ∧ g.hdr.counter ∉ x.rxSeen →
          ∃ m z, s.m.vet s.ctx ty g = .take m z ∧ SameBut m s.m ∧ z.id = x.id ∧ z.lastAt = s.m.now ∧ z.peer = g.hdr.peer ∧
            z.rxHigh = max x.rxHigh g.hdr.counter ∧ z.takes g.hdr.counter = false))

/-- HELLO, PROOF, CLOSE and their timers open and close sessions as R39 to R43 say. -/
def Obligations.SessionsOpenAndClose : Prop :=
  (∀ (s : State) (g : KoaMsg), s.m.hears s.ctx g.hdr.peer = true → s.m.offersSessions s.ctx = true → wellFramed g false = true →
    g.payload.length = 20 → s.m.slotKey (ofBE (g.payload.take 1)) ≠ [] →
    tagged g 1 (s.m.slotKey (ofBE (g.payload.take 1))) = true → s.m.boot.shut = 0 → s.m.koa.sessions.length < 8 →
    Runs (.hello g) s (fun t => t.m.koa.shakes.map Handshake.id = (s.m.koa.shakes.map Handshake.id).drop (if s.m.koa.shakes.length < 8 then 0 else 1) ++ [s.m.freshId] ∧
    t.m.koa.sessions = s.m.koa.sessions ∧
    answeredBy s.m t.m 2 s.m.freshId g.hdr.tag (beBytes 16 (Config.nonce s.m.free).toNat) = true)) ∧
  (∀ (s : State) (g : KoaMsg), s.m.hears s.ctx g.hdr.peer = true → s.m.offersSessions s.ctx = true → wellFramed g false = true →
    g.payload.length = 20 → s.m.slotKey (ofBE (g.payload.take 1)) ≠ [] →
    tagged g 1 (s.m.slotKey (ofBE (g.payload.take 1))) = true → s.m.boot.shut = 0 → 8 ≤ s.m.koa.sessions.length →
    Runs (.hello g) s (fun t => t.m.koa.shakes = s.m.koa.shakes ∧ t.m.jrn.newest = s.m.jrn.newest + 1 ∧
    answeredBy s.m t.m 0x7F 0 g.hdr.tag (abortPayload 0 0 0x08000020) = true)) ∧
  (∀ (s : State) (g : KoaMsg) (h : Handshake), s.m.hears s.ctx g.hdr.peer = true → s.m.offersSessions s.ctx = true →
    wellFramed g false = true → s.m.koa.shakes.find? (fun x => x.id = g.hdr.session) = some h → tagged g 3 h.key = true →
    g.hdr.counter ≠ 0 → g.payload = [] → s.m.koa.sessions.length < 8 → h.id ≠ 0 →
    Runs (.proof g) s (fun t => t.m.koa.sessions.map Session.id = s.m.koa.sessions.map Session.id ++ [h.id] ∧
    t.m.koa.shakes.map Handshake.id = (s.m.koa.shakes.map Handshake.id).filter (· != h.id) ∧
    (t.m.koa.sessions.map Session.role).getLast? = some (s.m.objN 0x1111 h.slot) ∧ t.m.jrn.newest = s.m.jrn.newest + 1)) ∧
  (∀ (s : State) (g : KoaMsg) (m : Mach) (z : Session), Accepts s 5 g m z → g.payload = [] → z.id ≠ 0 →
    Runs (.close g) s (fun t => t.m.koa.sessions.map Session.id = (s.m.koa.sessions.map Session.id).filter (· != z.id) ∧
    t.m.jrn.newest = s.m.jrn.newest + 1 ∧
    (upTo 8).all (fun k => t.m.objN (0x1130 + k) 2 != z.id || !t.m.objB (0x1130 + k) 1) = true)) ∧
  (∀ (s : State) (k : Nat) (z : Session), k ≠ 0 → s.m.coreUp 0 = true → s.m.koa.sessions.find? (fun x => x.id = k) = some z →
    z.lastAt + ms z.idle ≤ s.m.now →
    Runs (.sessionIdleTimeout k) s (fun t => t.m.koa.sessions.map Session.id = (s.m.koa.sessions.map Session.id).filter (· != k) ∧
    t.m.jrn.newest = s.m.jrn.newest + 1 ∧ answeredBy s.m t.m 5 k 0 [] = true)) ∧
  (∀ (s : State) (k : Nat) (z : Session), s.m.koa.sessions.find? (fun x => x.id = k) = some z → s.m.now < z.lastAt + ms z.idle →
    Runs (.sessionIdleTimeout k) s (fun t => t = s)) ∧
  (∀ (s : State) (k : Nat), s.m.coreUp 0 = true → Runs (.handshakeTimeout k) s (fun t => (∀ h ∈ t.m.koa.shakes, h.id = k →
    s.m.now < h.at_ + ms h.idle) ∧ t.m.koa.sessions = s.m.koa.sessions))

/-- A fresh session ID is not 0 and names no open session and no pending handshake. -/
def Obligations.FreshSessionIds : Prop :=
  ∀ m : Mach, m.koa.sessions.length ≤ 8 → m.koa.shakes.length ≤ 8 →
    m.freshId ≠ 0 ∧ m.freshId < 2 ^ 32 ∧ m.freshId ∉ m.koa.sessions.map Session.id ∧ m.freshId ∉ m.koa.shakes.map Handshake.id

/-- READ and WRITE are carried out once, refused as R66 orders, and repeated from the kept response. -/
def Obligations.RequestsAreAnswered : Prop :=
  (∀ (s : State) (g : KoaMsg) (m : Mach) (z : Session) (ix sub n : Nat) (r : Row), Accepts s 0x10 g m z →
    z.kept.find? (fun k => k.tag = g.hdr.tag && k.ty = 0x10 && k.payload = g.payload) = none → s.m.boot.recovery = false →
    g.payload = beBytes 2 ix ++ beBytes 1 sub ++ [0] → ix < 65536 → sub < 256 → g.hdr.busy = false → s.m.koa.waiting = [] →
    (m.wakeFor ix).readAbort s.ctx ix sub false = none → objRow ix sub = some r → r.ty.size = some n →
    (m.wakeFor ix).unstated ix sub = false →
    Runs (.read g) s (fun t => answeredBy s.m t.m 0x11 z.id g.hdr.tag (readResponse ix sub r.ty.code (r.ty.encode ((m.wakeFor ix).read s.ctx z ix sub))) = true ∧
    t.mem = s.mem ∧ t.life = s.life)) ∧
  (∀ (s : State) (g : KoaMsg) (m : Mach) (z : Session) (ix sub a : Nat), Accepts s 0x10 g m z →
    z.kept.find? (fun k => k.tag = g.hdr.tag && k.ty = 0x10 && k.payload = g.payload) = none → s.m.boot.recovery = false →
    g.payload = beBytes 2 ix ++ beBytes 1 sub ++ [0] → ix < 65536 → sub < 256 → g.hdr.busy = false → s.m.koa.waiting = [] →
    (m.wakeFor ix).readAbort s.ctx ix sub false = some a →
    Runs (.read g) s (fun t => answeredBy s.m t.m 0x7F z.id g.hdr.tag (abortPayload ix sub a) = true ∧ SameBut t.m s.m)) ∧
  (∀ (s : State) (g : KoaMsg) (m : Mach) (z : Session), Accepts s 0x10 g m z →
    z.kept.find? (fun k => k.tag = g.hdr.tag && k.ty = 0x10 && k.payload = g.payload) = none → s.m.boot.recovery = false →
    g.payload.length = 4 → 16 ≤ (s.m.koa.waiting.filter (fun w => w.session = z.id)).length →
    Runs (.read g) s (fun t => answeredBy s.m t.m 0x7F z.id g.hdr.tag (abortPayload (ofBE (g.payload.take 2)) (ofBE (slice 2 1 g.payload)) 0x08000026) = true ∧
    SameBut t.m s.m)) ∧
  (∀ (s : State) (g : KoaMsg) (m : Mach) (z : Session), Accepts s 0x10 g m z →
    z.kept.find? (fun k => k.tag = g.hdr.tag && k.ty = 0x10 && k.payload = g.payload) = none → s.m.boot.recovery = false →
    g.payload.length = 4 → (s.m.koa.waiting.filter (fun w => w.session = z.id)).length < 16 → g.hdr.busy = true →
    Runs (.read g) s (fun t => t.m = { m with koa := { m.koa with waiting := s.m.koa.waiting ++ [⟨z.id, 0x10, g, none⟩] } } ∧
    t.mem = s.mem)) ∧
  (∀ (s : State) (g : KoaMsg) (m : Mach) (z : Session) (k : Kept), Accepts s 0x10 g m z →
    z.kept.find? (fun k => k.tag = g.hdr.tag && k.ty = 0x10 && k.payload = g.payload) = some k →
    Runs (.read g) s (fun t => answeredBy s.m t.m k.respTy z.id k.tag k.resp = true ∧ SameBut t.m s.m ∧ t.mem = s.mem)) ∧
  (∀ (s : State) (w : WriteReq) (p : Put) (m : Mach), Reaches s 0x2200 5 w p m →
    Runs (.write (writeMsg w 0x2200 5)) s (fun t => t.m.objN 0x2200 5 = p.n ∧ t.mem = s.mem ∧ t.life = s.life ∧
    answeredBy s.m t.m 0x13 p.s.id w.hdr.tag [0x22, 0x00, 0x05, 0x00] = true)) ∧
  (∀ (s : State) (g : KoaMsg) (m : Mach) (z : Session) (k : Kept), Accepts s 0x12 g m z →
    z.kept.find? (fun k => k.tag = g.hdr.tag && k.ty = 0x12 && k.payload = g.payload) = some k →
    Runs (.write g) s (fun t => answeredBy s.m t.m k.respTy z.id k.tag k.resp = true ∧ SameBut t.m s.m ∧ t.mem = s.mem)) ∧
  (∀ (s : State) (g : KoaMsg) (m : Mach) (z : Session) (ix sub ty a : Nat) (b : Bytes), Accepts s 0x12 g m z →
    z.kept.find? (fun k => k.tag = g.hdr.tag && k.ty = 0x12 && k.payload = g.payload) = none → s.m.boot.recovery = false →
    g.payload = beBytes 2 ix ++ beBytes 1 sub ++ beBytes 1 ty ++ beBytes 2 b.length ++ b → ix < 65536 → sub < 256 → ty < 256 →
    b.length < 65536 → g.hdr.busy = false → s.m.koa.waiting = [] →
    (m.wakeFor ix).writeAbort s.ctx z.role ix sub false b = some a →
    Runs (.write g) s (fun t => answeredBy s.m t.m 0x7F z.id g.hdr.tag (abortPayload ix sub a) = true ∧ SameBut t.m s.m ∧
    t.mem = s.mem ∧ t.life = s.life))

/-- Segmented transfers open, move, end, repeat and stall as R51 to R53 say. -/
def Obligations.SegmentedTransfers : Prop :=
  (∀ (s : State) (g : KoaMsg) (m : Mach) (z : Session) (ix sub total crc : Nat), Accepts s 0x20 g m z →
    z.kept.find? (fun k => k.tag = g.hdr.tag && k.ty = 0x20 && k.payload = g.payload) = none → s.m.boot.recovery = false →
    g.payload = beBytes 2 ix ++ beBytes 1 sub ++ [1] ++ beBytes 4 total ++ beBytes 4 crc → ix < 65536 → sub < 256 → 0 < total →
    total < 2 ^ 32 → crc < 2 ^ 32 → g.hdr.busy = false → s.m.koa.waiting = [] → m.openAbort s.ctx z ix sub 1 = none →
    Runs (.segOpen g) s (fun t => (t.m.session z.id).xfer = some ⟨ix, sub, true, total, crc, [], 0, 0, s.m.now, s.m.now, g.hdr.tag⟩ ∧
    answeredBy s.m t.m 0x21 z.id g.hdr.tag (beBytes 4 total ++ beBytes 4 0) = true ∧ t.m.strs = s.m.strs)) ∧
  (∀ (s : State) (g : KoaMsg) (m : Mach) (z : Session) (v : ImageVerdict) (x : Xfer) (b : Bytes), Accepts s 0x22 g m z →
    z.xfer = some x → x.write = true → g.payload = beBytes 4 x.next ++ b → b.length = 1024 → g.hdr.flags % 2 = 0 →
    x.data.length + 1024 ≤ x.total → x.next < 2 ^ 32 - 1 →
    Runs (.segData g v) s (fun t => (t.m.session z.id).xfer = some { x with data := x.data ++ b, next := x.next + 1, progress := s.m.now } ∧
    answeredBy s.m t.m 0x23 z.id g.hdr.tag (beBytes 4 (x.next + 1)) = true ∧ t.m.strs = s.m.strs ∧ t.mem = s.mem)) ∧
  (∀ (s : State) (g : KoaMsg) (m : Mach) (z : Session) (v : ImageVerdict) (x : Xfer) (n : Nat) (b : Bytes), Accepts s 0x22 g m z →
    z.xfer = some x → x.write = true → g.payload = beBytes 4 n ++ b → n < 2 ^ 32 → n ≠ x.next → n ≤ x.next + 8 →
    Runs (.segData g v) s (fun t => (t.m.session z.id).xfer = some x ∧
    answeredBy s.m t.m 0x23 z.id g.hdr.tag (beBytes 4 x.next) = true ∧ SameBut t.m s.m ∧ t.mem = s.mem)) ∧
  (∀ (s : State) (g : KoaMsg) (m : Mach) (z : Session) (v : ImageVerdict) (x : Xfer) (n : Nat) (b : Bytes), Accepts s 0x22 g m z →
    z.xfer = some x → x.write = true → g.payload = beBytes 4 n ++ b → n < 2 ^ 32 → x.next + 8 < n →
    Runs (.segData g v) s (fun t => (t.m.session z.id).xfer = none ∧
    answeredBy s.m t.m 0x2F z.id g.hdr.tag (beBytes 4 0x05040002) = true ∧ SameBut t.m s.m ∧ t.mem = s.mem)) ∧
  (∀ (s : State) (g : KoaMsg) (m : Mach) (z : Session) (v : ImageVerdict) (x : Xfer) (b : Bytes) (r : Row), Accepts s 0x22 g m z →
    z.xfer = some x → x.write = true → x.data = [] → x.next = 0 → x.total = b.length → x.crc = crc32c b →
    g.payload = beBytes 4 0 ++ b → b.length ≤ 1024 → b ≠ [] → g.hdr.flags % 2 = 1 → 0x6230 ≤ x.ix ∧ x.ix ≤ 0x6237 ∧
    m.domainBusy x.ix = false ∧ gainPatchAllowed b = true → m.writeAbort s.ctx z.role x.ix x.sub true = none →
    objRow x.ix x.sub = some r → r.lengthAbort b.length = none → Runs (.segData g v) s (fun t => t.m.str x.ix 0 = b ∧
    (t.m.session z.id).xfer = none ∧ answeredBy s.m t.m 0x23 z.id g.hdr.tag (beBytes 4 1) = true ∧ t.mem = s.mem)) ∧
  (∀ (s : State) (g : KoaMsg) (m : Mach) (z : Session) (v : ImageVerdict) (x : Xfer) (b : Bytes) (r : Row), Accepts s 0x22 g m z →
    z.xfer = some x → x.write = true → x.data = [] → x.next = 0 → x.total = b.length → x.crc ≠ crc32c b →
    g.payload = beBytes 4 0 ++ b → b.length ≤ 1024 → b ≠ [] → g.hdr.flags % 2 = 1 →
    m.writeAbort s.ctx z.role x.ix x.sub true = none → objRow x.ix x.sub = some r → r.lengthAbort b.length = none →
    Runs (.segData g v) s (fun t => (t.m.session z.id).xfer = none ∧
    answeredBy s.m t.m 0x2F z.id g.hdr.tag (beBytes 4 0x05040004) = true ∧ SameBut t.m s.m ∧ t.mem = s.mem)) ∧
  (∀ (s : State) (g : KoaMsg) (m : Mach) (z : Session) (x : Xfer), Accepts s 0x23 g m z → z.xfer = some x → x.write = false →
    g.payload = beBytes 4 (segCount x.total) → segCount x.total < 2 ^ 32 → x.next < segCount x.total → x.sent = segCount x.total →
    Runs (.segAck g) s (fun t => (t.m.session z.id).xfer = none ∧ SameBut t.m s.m)) ∧
  (∀ (s : State) (g : KoaMsg) (m : Mach) (z : Session) (x : Xfer) (n : Nat), Accepts s 0x23 g m z → z.xfer = some x →
    x.write = false → g.payload = beBytes 4 n → n < 2 ^ 32 → n < segCount x.total → x.next < n → n ≤ x.sent →
    x.sent ≤ segCount x.total →
    Runs (.segAck g) s (fun t => ((t.m.session z.id).xfer.map (fun y => (y.next, y.sent, y.progress))) = some (n, max x.sent (min (n + 8) (segCount x.total)), s.m.now) ∧
    SameBut t.m s.m ∧ t.m.out.length = s.m.out.length + (min (n + 8) (segCount x.total) - x.sent))) ∧
  (∀ (s : State) (g : KoaMsg) (m : Mach) (z : Session), Accepts s 0x2F g m z → g.payload.length = 4 →
    Runs (.segCancel g) s (fun t => (t.m.session z.id).xfer = none ∧ t.m.outs.held.all (fun x => x.session != z.id) = true ∧
    t.m.strs = s.m.strs ∧ t.mem = s.mem)) ∧
  (∀ (s : State) (k : Nat) (x : Xfer), (s.m.session k).xfer = some x → x.write = false → x.next < x.sent → s.m.coreUp 0 = true →
    x.lastSend + ms 50 ≤ s.m.now →
    Runs (.segmentRetransmissionTimeout k) s (fun t => t.m.out.length = s.m.out.length + (x.sent - x.next) ∧
    (t.m.session k).xfer = some { x with lastSend := s.m.now } ∧ SameBut t.m s.m)) ∧
  (∀ (s : State) (k : Nat) (x : Xfer), (s.m.session k).xfer = some x → x.progress + ms 2000 ≤ s.m.now → s.m.coreUp 0 = true →
    Runs (.segmentedTransferStall k) s (fun t => (t.m.session k).xfer = none ∧
    answeredBy s.m t.m 0x2F k x.tag (beBytes 4 0x05040000) = true ∧ SameBut t.m s.m))

/-- Events are acknowledged, repeated at most 5 times, released by the rate, and tag failures reported. -/
def Obligations.EventsAreDelivered : Prop :=
  (∀ (s : State) (g : KoaMsg) (m : Mach) (z : Session), Accepts s 0x41 g m z → g.payload.length = 8 →
    Runs (.eventAck g) s (fun t => (t.m.session z.id).queue.all (fun q => q.record.seq != ofBE g.payload) = true ∧
    t.m.jrn = s.m.jrn)) ∧
  (∀ (s : State) (k n b : Nat) (z : Session) (q : QEvent), k ≠ 0 → s.m.koa.sessions.find? (fun x => x.id = k) = some z →
    z.queue.find? (fun x => x.record.seq = n) = some q → q.sent = some b → b + ms 100 ≤ s.m.now → s.m.coreUp 0 = true →
    q.resends < 5 → z.sentLately s.m.now < 200 →
    Runs (.eventRetransmissionTimeout k n) s (fun t => ((t.m.session k).queue.find? (fun x => x.record.seq = n)).map (fun x => (x.sent, x.resends)) = some (some s.m.now, q.resends + 1) ∧
    answeredBy s.m t.m 0x40 k 0 q.record.bytes = true ∧ t.m.jrn = s.m.jrn)) ∧
  (∀ (s : State) (k n b : Nat) (z : Session) (q : QEvent), k ≠ 0 → s.m.koa.sessions.find? (fun x => x.id = k) = some z →
    z.queue.find? (fun x => x.record.seq = n) = some q → q.sent = some b → b + ms 100 ≤ s.m.now → s.m.coreUp 0 = true →
    5 ≤ q.resends →
    Runs (.eventRetransmissionTimeout k n) s (fun t => (t.m.session k).queue.all (fun x => x.record.seq != n) = true ∧
    t.m.jrn = s.m.jrn)) ∧
  (∀ (s : State) (k : Nat) (z : Session) (q : QEvent), k ≠ 0 → s.m.koa.sessions.find? (fun x => x.id = k) = some z → z.queue = [q] →
    q.sent = none → s.m.coreUp 0 = true → z.sentLately s.m.now < 200 →
    Runs (.eventSendRelease k) s (fun t => (t.m.session k).queue = [{ q with sent := some s.m.now }] ∧
    answeredBy s.m t.m 0x40 k 0 q.record.bytes = true)) ∧
  (∀ (s : State), s.m.koa.tagSecond < s.m.timeWord / sec 1 → Runs (.tagFailureIntervalEnd) s (fun t => t.m.koa.tagFails = 0 ∧
    t.m.koa.tagSecond = s.m.timeWord / sec 1 ∧ t.m.jrn.newest = s.m.jrn.newest + (if 16 < s.m.koa.tagFails then 1 else 0)))

/-- Life-cycle transitions, key slots, the journal and cyclic maps act as R57, R65, R71 and R73 say. -/
def Obligations.LifeCycleKeysAndMaps : Prop :=
  (∀ (s : State) (w : WriteReq) (p : Put) (m : Mach), Reaches s 0x1010 2 w p m → s.life.permits p.target = true →
    s.life ≠ Life.factory → (p.target ≠ Life.field ∨ m.testRunning = false) →
    Runs (.transitionRequest w) s (fun t => t.life = p.target ∧ m.jrn.newest < t.m.jrn.newest ∧ t.mem = s.mem)) ∧
  (∀ (s : State) (w : WriteReq) (p : Put) (m : Mach), Reaches s 0x1010 2 w p m → s.life = Life.factory →
    p.target = Life.provisioned → m.objN 0x1111 8 = 3 → m.slotKey 8 ≠ [] →
    Runs (.transitionRequest w) s (fun t => t.life = Life.provisioned ∧ m.jrn.newest < t.m.jrn.newest ∧ t.mem = s.mem)) ∧
  (∀ (s : State) (w : WriteReq) (p : Put) (m : Mach), Reaches s 0x1010 2 w p m → s.life.permits p.target = false →
    Runs (.transitionRequest w) s (fun t => t.life = s.life ∧ SameBut t.m m ∧ t.mem = s.mem)) ∧
  (∀ (s : State) (k : Nat) (w : WriteReq) (p : Put) (m : Mach), Reaches s 0x1110 k w p m → 1 ≤ k → k ≤ 8 →
    Runs (.keyWrite k w) s (fun t => t.m.str 0x1110 k = (if w.value.all (· = 0) then [] else w.value) ∧
    t.m.koa.sessions.all (fun z => z.slot != k) = true ∧ m.jrn.newest < t.m.jrn.newest ∧ t.life = s.life)) ∧
  (∀ (s : State) (k : Nat) (w : WriteReq) (p : Put) (m : Mach), Reaches s 0x1111 k w p m → 1 ≤ k → k ≤ 8 →
    Runs (.keyRoleWrite k w) s (fun t => t.m.objN 0x1111 k = p.n ∧ t.m.koa.sessions.all (fun z => z.slot != k) = true ∧
    m.jrn.newest < t.m.jrn.newest ∧ t.life = s.life)) ∧
  (∀ (s : State) (w : WriteReq) (p : Put) (m : Mach), Reaches s 0x1200 5 w p m →
    Runs (.journalClear w) s (fun t => t.m.jrn = { m.jrn with recs := [] } ∧ t.mem = s.mem ∧ t.life = s.life)) ∧
  (∀ (s : State) (k : Nat) (w : WriteReq) (p : Put) (m : Mach), Reaches s (0x1130 + k) 1 w p m → k < 8 → p.v = 0 →
    Runs (.cyclicMapEnable k w) s (fun t => t.m.objB (0x1130 + k) 1 = false ∧ t.m.objN (0x1130 + k) 2 = 0 ∧ t.mem = s.mem)) ∧
  (∀ (s : State) (k : Nat) (w : WriteReq) (p : Put) (m : Mach), Reaches s (0x1130 + k) 1 w p m → k < 8 → p.v = 1 →
    (m.mapEntries k).all (fun e => (mapEntrySize s.unit.orderX e).isSome) = true → m.mapSize s.unit.orderX k ≤ 1368 →
    Runs (.cyclicMapEnable k w) s (fun t => t.m.objB (0x1130 + k) 1 = true ∧ t.m.objN (0x1130 + k) 2 = p.s.id ∧ t.mem = s.mem)) ∧
  (∀ (s : State) (k : Nat) (w : WriteReq) (p : Put) (m : Mach), Reaches s (0x1130 + k) 1 w p m → k < 8 → p.v = 1 →
    (m.mapEntries k).any (fun e => (mapEntrySize s.unit.orderX e).isNone) = true →
    Runs (.cyclicMapEnable k w) s (fun t => SameBut t.m m ∧ t.mem = s.mem))

/-- The commands of sessions, transfers and events change sessions, counters and what is sent only. -/
def Obligations.SessionCommandsChangeSessionsOnly : Prop :=
  (∀ (s t : State) (g : KoaMsg) (c : Instr), c ∈ ([.hello g, .proof g, .eventAck g,
    .segAck g, .tagFailureIntervalEnd] : List Instr) → exec c s = .next t →
    t = { s with m := { s.m with od := t.m.od, koa := t.m.koa, jrn := t.m.jrn, out := t.m.out, free := t.m.free } } ∧
    ObjectsBut [(0x1100, 0x1100), (0x1202, 0x1202)] s.m t.m) ∧
  (∀ (s t : State) (g : KoaMsg) (k : Nat) (c : Instr), c ∈ ([.close g, .sessionIdleTimeout k, .segCancel g] : List Instr) →
    exec c s = .next t →
    t = { s with m := { s.m with od := t.m.od, koa := t.m.koa, jrn := t.m.jrn, outs := t.m.outs, out := t.m.out } } ∧
    ObjectsBut [(0x1100, 0x1100), (0x1130, 0x1137), (0x1202, 0x1202)] s.m t.m ∧
    t.m.outs = { s.m.outs with held := t.m.outs.held }) ∧
  (∀ (s t : State) (k n : Nat) (c : Instr), c ∈ ([.handshakeTimeout k, .segmentRetransmissionTimeout k, .segmentedTransferStall k,
    .eventRetransmissionTimeout k n, .eventSendRelease k] : List Instr) → exec c s = .next t →
    t = { s with m := { s.m with koa := t.m.koa, out := t.m.out } }) ∧
  (∀ (s t : State) (g : KoaMsg), s.m.koa.waiting = [] → s.m.test.armed = none → exec (.read g) s = .next t →
    t = { s with m := { s.m with od := t.m.od, koa := t.m.koa, power_ := t.m.power_, out := t.m.out, free := t.m.free } } ∧
    ObjectsBut [(0x1100, 0x1100)] s.m t.m ∧ t.m.power_ = { s.m.power_ with woken := t.m.power_.woken })

/-- Frame ticks, slot ticks, the late cut-off, the commit point and schedule writes act as R76 to R85, R96 and R98 say. -/
def Obligations.HeatsFollowTheSchedule : Prop :=
  (∀ (s : State) (b : Bool) (l : List (Nat × Nat)) (f u : Nat), s.m.nextTick = some (f, u) → u ≤ s.m.timeWord →
    s.m.startTick = none → s.m.power_.stop = none → s.m.pipe.restart = none → Runs (.frameTick b l) s (fun t => t.m.frameNo = f ∧
    t.m.schedState = 2 ∧ t.m.heat.running = true ∧ t.m.heat.number = f + 1 ∧ t.m.heat.start = u ∧ t.m.heat.resolved = false ∧
    t.life = s.life)) ∧
  (∀ (s : State) (b : Bool) (l : List (Nat × Nat)) (f u : Nat), s.m.startTick = some (f, u) → u ≤ s.m.timeWord →
    s.m.stopping = false → s.m.thermalHold = false → Runs (.frameTick b l) s (fun t => t.m.frameNo = f ∧
    t.m.schedState = (if s.m.boot.starting then 1 else 2) ∧ t.m.heat.running = true ∧ t.m.heat.number = f + 1 ∧
    t.m.heat.start = u ∧ t.m.boot.heatsFrom = none ∧ t.m.pipe.restart = none ∧ s.m.jrn.newest < t.m.jrn.newest)) ∧
  (∀ (s : State) (b : Bool) (l : List (Nat × Nat)) (f u : Nat), s.m.nextTick = some (f, u) → s.m.timeWord < u →
    Runs (.frameTick b l) s (fun t => t = s)) ∧
  (∀ (s : State) (k : Nat) (l : List Int), s.m.scheduled = true → s.m.startTick = none → k < s.m.objN 0x5000 9 →
    s.m.slotAt s.m.frameNo k ≤ s.m.timeWord → Runs (.slotTick k l) s (fun t => t.m.pipe.slot = k ∧ t.m.panel.g = s.m.panel.g + 1 ∧
    t.m.clk = s.m.clk)) ∧
  (∀ (s : State), s.m.heat.running = true → s.m.heat.resolved = false → s.m.heat.cutOff = false → s.m.cutOffAt ≤ s.m.timeWord →
    (s.m.heat.late = 0 ∨ s.m.lateComplete = [] ∨ s.m.heat.decision.isSome = true) →
    Runs (.lateCutOff) s (fun t => t.m.heat.cutOff = true ∧ t.m.heat.decision = s.m.heat.decision ∧ t.m.jrn = s.m.jrn)) ∧
  (∀ (s : State), s.m.heat.running = true → s.m.heat.resolved = false → s.m.heat.cutOff = false → s.m.cutOffAt ≤ s.m.timeWord →
    s.m.heat.late ≠ 0 → s.m.lateComplete ≠ [] → s.m.heat.decision = none → Runs (.lateCutOff) s (fun t => t.m.heat.cutOff = true ∧
    (t.m.heat.decision.map Prod.fst) = some s.m.tHus)) ∧
  (∀ (s : State), s.m.heat.running = true → s.m.heat.resolved = false → s.m.commitAt ≤ s.m.timeWord →
    Runs (.commitPoint) s (fun t => t.m.heat.resolved = true ∧ t.m.objN 0x5002 1 = s.m.heat.number ∧
    t.m.heat.number = s.m.heat.number ∧ t.life = s.life)) ∧
  (∀ (s : State), (s.m.timeWord < s.m.commitAt ∨ s.m.heat.running = false ∨ s.m.heat.resolved = true) →
    Runs (.commitPoint) s (fun t => t = s)) ∧
  (∀ (s : State) (w : WriteReq) (p : Put) (m : Mach), Reaches s 0x5000 5 w p m →
    scheduleAllowed (m.objN 0x5000 2) (m.objN 0x5000 3) (m.objN 0x5000 4) (m.objN 0x5001 1) (m.objN 0x5001 2) = true →
    m.scheduled = false → Runs (.scheduleApply w) s (fun t => t.m.inForce = (m.objN 0x5000 1, m.objN 0x5000 2, m.objN 0x5000 3) ∧
    t.m.schedState = 0 ∧ t.mem = s.mem)) ∧
  (∀ (s : State) (w : WriteReq) (p : Put) (m : Mach), Reaches s 0x5000 5 w p m →
    scheduleAllowed (m.objN 0x5000 2) (m.objN 0x5000 3) (m.objN 0x5000 4) (m.objN 0x5001 1) (m.objN 0x5001 2) = true →
    m.scheduled = true → m.pipe.restart = none → Runs (.scheduleApply w) s (fun t => t.m.schedState = 3 ∧
    (t.m.pipe.restart.map (fun r : Restart => (r.phase, r.t1, r.t2, r.reason))) = some (1, m.tickAt (m.frameNo + 1), m.tickAt (m.frameNo + 2), 0) ∧
    (t.m.pipe.restart.map (fun r : Restart => (r.epoch, r.num, r.den))) = some (m.objN 0x5000 1, m.objN 0x5000 2, m.objN 0x5000 3) ∧
    t.m.inForce = m.inForce ∧ t.mem = s.mem)) ∧
  (∀ (s : State) (w : WriteReq) (p : Put) (m : Mach), Reaches s 0x5000 5 w p m →
    scheduleAllowed (m.objN 0x5000 2) (m.objN 0x5000 3) (m.objN 0x5000 4) (m.objN 0x5001 1) (m.objN 0x5001 2) = false →
    Runs (.scheduleApply w) s (fun t => SameBut t.m m ∧ t.mem = s.mem)) ∧
  (∀ (s : State) (w : WriteReq) (p : Put) (m : Mach), Reaches s 0x5000 4 w p m → p.n * m.objN 0x5000 8 ≤ 960 * m.objN 0x5000 7 →
    Runs (.slotsRequestedWrite w) s (fun t => t.m.objN 0x5000 4 = p.n ∧ t.m.objN 0x5000 9 = m.objN 0x5000 9 ∧ t.mem = s.mem)) ∧
  (∀ (s : State) (w : WriteReq) (p : Put) (m : Mach), Reaches s 0x5000 4 w p m → 960 * m.objN 0x5000 7 < p.n * m.objN 0x5000 8 →
    Runs (.slotsRequestedWrite w) s (fun t => SameBut t.m m ∧ t.mem = s.mem))

/-- Slot 0 of a frame begins at its frame tick, the last slot ends at the next, and ticks do not drift. -/
def Obligations.SlotTicksSplitFrames : Prop :=
  ∀ e n d slots h k : Nat, 0 < d → 0 < slots →
    slotTick e n d slots h 0 = frameTick e n d h ∧ slotTick e n d slots h slots = frameTick e n d (h + 1) ∧
    slotTick e n d slots h k ≤ slotTick e n d slots h (k + 1) ∧
    frameTick e n d h * d ≤ e * d + h * n * perSecond ∧ e * d + h * n * perSecond < (frameTick e n d h + 1) * d

/-- PTP messages and timers move the domains as R413 to R416 say. -/
def Obligations.PtpDomainsFollowTheirMessages : Prop :=
  (∀ (s : State) (x : PtpSync), s.m.boot.cores.contains 1 = false → s.m.settled = true → x.d < 2 → x.d < s.m.ptp.doms.length →
    (s.m.domState x.d = 2 ∨ s.m.domState x.d = 3) → x.selected = true →
    intervalTaken (s.m.objN (0x3010 + x.d) 2) x.interval = true → (s.m.dom x.d).pending = [] →
    s.m.hearsPtp x.d x.number x.udp = true → x.twoStep = true →
    Runs (.sync x) s (fun t => (t.m.dom x.d).pending = [⟨x.seq, x.correction, s.m.domainRx s.ctx x.d x.rx, s.m.now⟩] ∧
    t.m.obj (0x3010 + x.d) 0x0B = x.interval ∧ t.m.clk = s.m.clk)) ∧
  (∀ (s : State) (x : PtpSync), s.m.boot.cores.contains 1 = false → s.m.settled = true → x.d < 2 → x.d < s.m.ptp.doms.length →
    s.m.domState x.d = 3 → x.selected = true → intervalTaken (s.m.objN (0x3010 + x.d) 2) x.interval = true →
    (s.m.dom x.d).pending = [] → s.m.hearsPtp x.d x.number x.udp = true → x.twoStep = false →
    s.m.objN (0x3010 + x.d) 0x0C < 2 ^ 64 - 1 →
    Runs (.sync x) s (fun t => t.m.obj (0x3010 + x.d) 8 = s.m.offset x.d (extendTime s.m.timeWord x.origin) x.correction (s.m.domainRx s.ctx x.d x.rx) ∧
    t.m.objN (0x3010 + x.d) 0x0C = s.m.objN (0x3010 + x.d) 0x0C + 1 ∧
    (t.m.dom x.d).offsets.head? = some (s.m.offset x.d (extendTime s.m.timeWord x.origin) x.correction (s.m.domainRx s.ctx x.d x.rx)) ∧
    (t.m.dom x.d).lastSyncAt = s.m.now)) ∧
  (∀ (s : State) (x : PtpSync), s.m.boot.cores.contains 1 = false → s.m.settled = true → x.d < 2 → x.d < s.m.ptp.doms.length →
    s.m.domState x.d = 2 → x.selected = true → intervalTaken (s.m.objN (0x3010 + x.d) 2) x.interval = true →
    (s.m.dom x.d).pending = [] → s.m.hearsPtp x.d x.number x.udp = true → x.twoStep = false →
    steady (((s.m.offset x.d (extendTime s.m.timeWord x.origin) x.correction (s.m.domainRx s.ctx x.d x.rx)) :: (s.m.dom x.d).offsets).take 16) = true →
    s.m.pathKnown x.d = true → Runs (.sync x) s (fun t => t.m.domState x.d = 3 ∧ (t.m.dom x.d).qualifiedAt = s.m.now ∧
    s.m.jrn.newest < t.m.jrn.newest)) ∧
  (∀ (s : State) (x : PtpSync), s.m.boot.cores.contains 1 = true → Runs (.sync x) s (fun t => t = s)) ∧
  (∀ (s : State) (d n o : Nat) (c : Int) (q : PendingSync), s.m.boot.cores.contains 1 = false → s.m.settled = true → d < 2 →
    (s.m.dom d).pending.find? (fun p => p.seq = n) = some q → s.m.now ≤ q.at_ + logInterval (s.m.obj (0x3010 + d) 0x0B) →
    s.m.armedAt 21 d = false →
    Runs (.followUp d n o c) s (fun t => t.m.obj (0x3010 + d) 8 = s.m.offset d (extendTime s.m.timeWord o) (q.correction + c) q.rx ∧
    (t.m.domState d = s.m.domState d → (t.m.dom d).pending = (s.m.dom d).pending.filter (fun p => p.seq != n)) ∧
    (t.m.dom d).lastSyncAt = s.m.now)) ∧
  (∀ (s : State) (d n o : Nat) (c : Int) (q : PendingSync), s.m.boot.cores.contains 1 = false → s.m.settled = true →
    (s.m.dom d).pending.find? (fun p => p.seq = n) = some q → s.m.now ≤ q.at_ + logInterval (s.m.obj (0x3010 + d) 0x0B) →
    s.m.armedAt 21 d = true → Runs (.followUp d n o c) s (fun t => t.m.ptp = s.m.ptp ∧ t.m.clk = s.m.clk ∧
    t.m.obj (0x3010 + d) 8 = s.m.obj (0x3010 + d) 8)) ∧
  (∀ (s : State) (d : Nat) (q r : PendingSync), s.m.boot.cores.contains 1 = false → s.m.settled = true → d < 2 →
    (s.m.dom d).pending = [q, r] → q.at_ + logInterval (s.m.obj (0x3010 + d) 0x0B) ≤ s.m.now →
    s.m.now < r.at_ + logInterval (s.m.obj (0x3010 + d) 0x0B) → s.m.objN (0x3010 + d) 0x0D < 2 ^ 64 - 1 →
    Runs (.followUpWindowExpiry d) s (fun t => (t.m.dom d).pending = [r] ∧ (t.m.dom d).offsets = [] ∧
    t.m.objN (0x3010 + d) 0x0D = s.m.objN (0x3010 + d) 0x0D + 1)) ∧
  (∀ (s : State) (a : PtpAnnounce) (g : Nat), s.m.boot.cores.contains 1 = false → s.m.settled = true → a.d < 2 →
    a.d < s.m.ptp.doms.length → s.m.domState a.d = 1 → a.best = some g → s.m.hearsPtp a.d a.number a.udp = true →
    Runs (.announce a) s (fun t => t.m.domState a.d = 2 ∧ (t.m.dom a.d).best = some g ∧ t.m.str (0x3010 + a.d) 7 = beBytes 8 g ∧
    s.m.jrn.newest < t.m.jrn.newest)) ∧
  (∀ (s : State) (a : PtpAnnounce), s.m.boot.cores.contains 1 = false → s.m.settled = true → a.d < 2 →
    (s.m.domState a.d = 2 ∨ s.m.domState a.d = 3) → a.best = none → s.m.hearsPtp a.d a.number a.udp = true →
    Runs (.announce a) s (fun t => t.m.domState a.d = 1 ∧ s.m.jrn.newest < t.m.jrn.newest)) ∧
  (∀ (s : State) (d : Nat), s.m.boot.cores.contains 1 = false → s.m.settled = true → d < 2 →
    (s.m.domState d = 2 ∨ s.m.domState d = 3) →
    (s.m.dom d).lastAnnounceAt + 3 * logInterval (s.m.dom d).announceInterval ≤ s.m.now →
    s.m.objN (0x3010 + d) 0x0E < 2 ^ 32 - 1 → Runs (.announceReceiptTimeout d) s (fun t => t.m.domState d = 1 ∧
    t.m.objN (0x3010 + d) 0x0E = s.m.objN (0x3010 + d) 0x0E + 1 ∧ s.m.jrn.newest < t.m.jrn.newest)) ∧
  (∀ (s : State) (d : Nat), s.m.boot.cores.contains 1 = false → s.m.settled = true →
    s.m.now < (s.m.dom d).lastAnnounceAt + 3 * logInterval (s.m.dom d).announceInterval →
    Runs (.announceReceiptTimeout d) s (fun t => t = s)) ∧
  (∀ (s : State) (d : Nat), s.m.boot.cores.contains 1 = false → s.m.settled = true → d < 2 →
    (s.m.domState d = 2 ∨ s.m.domState d = 3) → (s.m.dom d).lastSyncAt + 4 * logInterval (s.m.obj (0x3010 + d) 0x0B) ≤ s.m.now →
    Runs (.syncLoss d) s (fun t => t.m.domState d = 1 ∧ s.m.jrn.newest < t.m.jrn.newest)) ∧
  (∀ (s : State) (d tx : Nat), s.m.boot.cores.contains 1 = false → s.m.settled = true → d < 2 → d < s.m.ptp.doms.length →
    (s.m.domState d = 2 ∨ s.m.domState d = 3) →
    Runs (.delayReq d tx) s (fun t => t.m.out = Out.ptp d (s.m.objN (0x3010 + d) 2) (((s.m.dom d).seq + 1) % 65536) (s.m.domainTx s.ctx d tx) (s.m.objN (0x3010 + d) 3) (s.m.objN (0x3010 + d) 2 = 0 && s.m.objN (0x3010 + d) 5 = 1) :: s.m.out ∧
    (t.m.dom d).request = some (((s.m.dom d).seq + 1) % 65536, s.m.domainTx s.ctx d tx))) ∧
  (∀ (s : State) (d n rx tx : Nat) (c : Int), s.m.boot.cores.contains 1 = false → s.m.settled = true → d < 2 →
    (s.m.dom d).request = some (n, tx) → s.m.objN (0x3010 + d) 2 = 0 → (s.m.dom d).offsets ≠ [] →
    Runs (.delayResp d n rx c) s (fun t => t.m.obj (0x3010 + d) 9 = (((s.m.dom d).lastRx - tx : Int) + (extendTime s.m.timeWord rx - (s.m.dom d).lastOrigin) - c) / 2 ∧
    (t.m.dom d).request = none ∧ (t.m.dom d).pathAt = some s.m.now)) ∧
  (∀ (s : State) (d n rx tx : Nat) (c : Int), s.m.boot.cores.contains 1 = false → s.m.settled = true → d < 2 →
    d < s.m.ptp.doms.length → (s.m.dom d).request = some (n, tx) → s.m.objN (0x3010 + d) 2 = 0 → s.m.domState d = 2 →
    steady (s.m.dom d).offsets = true → Runs (.delayResp d n rx c) s (fun t => t.m.domState d = 3 ∧
    s.m.jrn.newest < t.m.jrn.newest ∧ (t.m.dom d).request = none)) ∧
  (∀ (s : State) (d n rx tx : Nat), s.m.boot.cores.contains 1 = false → s.m.settled = true → d < 2 → s.m.domState d ≠ 0 →
    s.m.domState d ≠ 4 → s.m.objN (0x3010 + d) 2 = 1 →
    Runs (.pdelayReq d n rx tx) s (fun t => t.m.out = Out.ptp d 3 n (s.m.domainTx s.ctx d tx) (s.m.objN (0x3010 + d) 3) false :: Out.ptp d 2 n (s.m.domainRx s.ctx d rx) (s.m.objN (0x3010 + d) 3) false :: s.m.out ∧
    t.m.ptp = s.m.ptp)) ∧
  (∀ (s : State) (d n a b rx tx : Nat) (c : Int), s.m.boot.cores.contains 1 = false → s.m.settled = true → d < 2 →
    (s.m.dom d).request = some (n, tx) → s.m.objN (0x3010 + d) 2 = 1 →
    Runs (.pdelayResp d n a b rx c) s (fun t => t.m.obj (0x3010 + d) 9 = (((s.m.domainRx s.ctx d rx : Int) - tx) - ((extendTime s.m.timeWord b : Int) - extendTime s.m.timeWord a) - c) / 2 ∧
    (t.m.dom d).asCapable = decide ((((s.m.domainRx s.ctx d rx : Int) - tx) - ((extendTime s.m.timeWord b : Int) - extendTime s.m.timeWord a) - c) / 2 ≤ (ns 800 : Nat)) ∧
    (t.m.dom d).request = none))

/-- TIME_SET, the selection mode, the revert delay and the AO island's loss of power act as R410, R417 to R420 and R426 say. -/
def Obligations.TimeIsSteppedAndSelected : Prop :=
  (∀ (s : State) (w : WriteReq) (p : Put) (m : Mach), Reaches s 0x3000 0x0D w p m → m.objN 0x3000 3 = 4 → m.mayStep = true →
    m.settled = true → m.objN 0x3000 0x0A < 2 ^ 32 - 1 → Runs (.timeSet w) s (fun t => t.m.timeWord = p.n ∧ t.m.timeStatus = 4 ∧
    t.m.objN 0x3000 0x0A = m.objN 0x3000 0x0A + 1 ∧ t.m.ptp.lastStep = some m.now ∧ m.jrn.newest < t.m.jrn.newest ∧
    t.mem = s.mem)) ∧
  (∀ (s : State) (w : WriteReq) (p : Put) (m : Mach), Reaches s 0x3000 0x0D w p m → (m.objN 0x3000 3 ≠ 4 ∨ m.mayStep = false) →
    Runs (.timeSet w) s (fun t => SameBut t.m m ∧ t.mem = s.mem)) ∧
  (∀ (s : State) (w : WriteReq) (p : Put) (m : Mach), Reaches s 0x3000 3 w p m → m.settled = true →
    Runs (.selectionModeWrite w) s (fun t => t.m.objN 0x3000 3 = p.n ∧ (p.n = 0 →
    t.m.objN 0x3000 2 = if m.qualified 0 then 0 else 0xFF) ∧ (p.n = 1 → t.m.objN 0x3000 2 = if m.qualified 1 then 1 else 0xFF) ∧
    (p.n = 3 → t.m.objN 0x3000 2 = if m.objN 0x3000 2 ≤ 1 ∧
    m.qualified (m.objN 0x3000 2) = true then m.objN 0x3000 2 else if m.qualified 0 then 0 else if m.qualified 1 then 1 else 0xFF) ∧
    (p.n = 4 → t.m.objN 0x3000 2 = 0xFF))) ∧
  (∀ (s : State), s.m.boot.cores.contains 1 = false → s.m.settled = true → s.m.objN 0x3000 3 = 2 → s.m.objN 0x3000 2 = 1 →
    s.m.qualified 0 = true → (s.m.dom 0).qualifiedAt + sec (s.m.objN 0x3000 4) ≤ s.m.now →
    Runs (.revertDelayExpiry) s (fun t => t.m.objN 0x3000 2 = 0 ∧ s.m.jrn.newest < t.m.jrn.newest)) ∧
  (∀ (s : State), s.m.boot.cores.contains 1 = false → s.m.settled = true → s.m.objN 0x3000 3 = 2 → s.m.objN 0x3000 2 = 1 →
    s.m.qualified 1 = true → s.m.ptp.bTook = true → s.m.now < (s.m.dom 0).qualifiedAt + sec (s.m.objN 0x3000 4) →
    Runs (.revertDelayExpiry) s (fun t => t = s)) ∧
  (∀ (s : State), s.m.power = 4 → Runs (.aoIslandPowerLoss) s (fun t => t.m.timeStatus = 0 ∧ t.m.objN 0x3000 2 = 0xFF ∧
    t.m.timeWord = 0 ∧ t.m.clk.ao = 0 ∧ t.m.clk.latched = none ∧ t.m.clk.lost = true ∧ t.m.jrn = s.m.jrn)) ∧
  (∀ (s : State), s.m.power ≠ 4 → Runs (.aoIslandPowerLoss) s (fun t => t = s))

/-- Sync outputs apply, pulse and end, and sync inputs stamp, as R427 to R431 say. -/
def Obligations.SyncOutputsAndInputs : Prop :=
  (∀ (s : State) (w : WriteReq) (p : Put) (m : Mach), Reaches s 0x3100 3 w p m →
    (upTo 8).all (fun o => m.outAllowed (m.stagedOut o)) = true →
    Runs (.syncOutputApply w) s (fun t => t.m.ptp.staged = some (m.now, (upTo 8).map m.stagedOut) ∧ t.m.objN 0x3100 4 = 1 ∧
    t.m.ptp.outs = m.ptp.outs ∧ t.mem = s.mem)) ∧
  (∀ (s : State) (o : Nat) (w : WriteReq) (p : Put) (m : Mach), Reaches s 0x3100 3 w p m → o < 8 →
    m.outAllowed (m.stagedOut o) = false → Runs (.syncOutputApply w) s (fun t => SameBut t.m m ∧ t.mem = s.mem)) ∧
  (∀ (s : State) (a : Nat) (l : List SyncSet), s.m.testing = none → s.m.coreUp 1 = true → s.m.scheduled = false →
    s.m.ptp.staged = some (a, l) → a + ms 1 ≤ s.m.now → s.m.ptp.outs.length = 8 → l.length = 8 →
    Runs (.outputSettingsInEffect) s (fun t => t.m.ptp.staged = none ∧ t.m.ptp.outs.map SyncOut.set_ = l ∧ t.m.objN 0x3100 4 = 0 ∧
    t.m.jrn.newest = s.m.jrn.newest + 1)) ∧
  (∀ (s : State) (a : Nat) (l : List SyncSet), s.m.ptp.staged = some (a, l) → s.m.now < a + ms 1 →
    Runs (.outputSettingsInEffect) s (fun t => t = s)) ∧
  (∀ (s : State) (o k j : Nat) (u : Int), o < s.m.ptp.outs.length → s.m.pulses (s.m.syncOut o).set_ = true →
    s.m.leading (s.m.syncOut o).set_ k j = some u → u ≤ s.m.timeWord → (s.m.syncOut o).active = false →
    (s.m.syncOut o).lastEdge = none → (s.m.syncOut o).holdOff = none → s.m.objN (0x3110 + o) 0x0C < 2 ^ 64 - 1 →
    Runs (.syncOutputEdge o k j) s (fun t => t.m.out = Out.syncEdge o ((s.m.syncOut o).set_.polarity != 1) u :: s.m.out ∧
    (t.m.syncOut o).active = true ∧ (t.m.syncOut o).endsAt = u + (ns (s.m.syncOut o).set_.width : Nat) ∧
    t.m.objN (0x3110 + o) 0x0C = s.m.objN (0x3110 + o) 0x0C + 1)) ∧
  (∀ (s : State) (o k j : Nat) (y : Ticked), o < s.m.ptp.outs.length → s.m.power ≤ 2 → s.m.objN 0x6401 1 ≠ 2 →
    (s.m.syncOut o).set_.lockGate = false → (s.m.syncOut o).set_.mode = 1 → s.m.ptp.ticks.find? (fun y => y.h = k) = some y →
    k % (s.m.syncOut o).set_.divider = 0 → (y.start : Int) + ofPs (s.m.syncOut o).set_.offset ≤ s.m.timeWord →
    (s.m.syncOut o).active = false → (s.m.syncOut o).lastEdge = none → (s.m.syncOut o).holdOff = none →
    Runs (.syncOutputEdge o k j) s (fun t => (t.m.syncOut o).active = true ∧
    (t.m.syncOut o).lastEdge = some ((y.start : Int) + ofPs (s.m.syncOut o).set_.offset))) ∧
  (∀ (s : State) (o k j : Nat), o < s.m.ptp.outs.length → (s.m.syncOut o).active = true → (s.m.syncOut o).endsAt ≤ s.m.timeWord →
    (s.m.leading (s.m.syncOut o).set_ k j = none ∨ s.m.pulses (s.m.syncOut o).set_ = false) →
    Runs (.syncOutputEdge o k j) s (fun t => t.m.out = Out.syncEdge o (s.m.syncOut o).set_.idle (s.m.syncOut o).endsAt :: s.m.out ∧
    (t.m.syncOut o).active = false ∧ t.m.od = s.m.od)) ∧
  (∀ (s : State) (n x : Nat) (b : Bool), n < 2 → n < s.m.ptp.ins.length → s.m.objB (0x3120 + n) 1 = true → s.m.power ≤ 2 →
    (s.m.objN (0x3120 + n) 2 = 2 ∨ s.m.objN (0x3120 + n) 2 = bit b) →
    ((s.m.ptp.ins.getD n {}).last = none ∨ ∃ y, (s.m.ptp.ins.getD n {}).last = some y ∧ y + ns 100 ≤ x) →
    s.m.objN (0x3120 + n) 4 < 2 ^ 64 - 1 → Runs (.syncInputEdge n b x) s (fun t => t.m.objN (0x3120 + n) 3 = x ∧
    t.m.obj (0x3120 + n) 6 = s.m.phaseOf x ∧ t.m.objN (0x3120 + n) 4 = s.m.objN (0x3120 + n) 4 + 1 ∧
    (t.m.ptp.ins.getD n {}).last = some x ∧ t.m.clk = s.m.clk)) ∧
  (∀ (s : State) (n x y : Nat) (b : Bool), n < 2 → s.m.objB (0x3120 + n) 1 = true → s.m.power ≤ 2 →
    (s.m.objN (0x3120 + n) 2 = 2 ∨ s.m.objN (0x3120 + n) 2 = bit b) → (s.m.ptp.ins.getD n {}).last = some y → y ≤ x →
    x < y + ns 100 → s.m.objN (0x3120 + n) 5 < 2 ^ 32 - 1 →
    Runs (.syncInputEdge n b x) s (fun t => t.m.objN (0x3120 + n) 5 = s.m.objN (0x3120 + n) 5 + 1 ∧
    t.m.objN (0x3120 + n) 4 = s.m.objN (0x3120 + n) 4 ∧ t.m.ptp = s.m.ptp)) ∧
  (∀ (s : State) (n x : Nat) (b : Bool), (2 ≤ n ∨ (s.m.objN (0x3120 + n) 2 ≠ 2 ∧ s.m.objN (0x3120 + n) 2 ≠ bit b)) →
    Runs (.syncInputEdge n b x) s (fun t => t = s)) ∧
  (∀ (s : State) (n x : Nat) (b : Bool), n < 2 → s.m.objB (0x3120 + n) 1 = false →
    (s.m.objN (0x3120 + n) 2 = 2 ∨ s.m.objN (0x3120 + n) 2 = bit b) → s.m.power ≤ 2 → s.m.boot.shut = 0 →
    s.m.power_.stop ≠ some 3 → s.m.power_.entry = none →
    Runs (.syncInputEdge n b x) s (fun t => t = { s with m := { s.m with power_ := { s.m.power_ with wakes := modAt s.m.power_.wakes 3 (· + 1) } } }))

/-- Path-delay messages, sync edges, slot ticks and the late cut-off change their own units only. -/
def Obligations.TimeCommandsChangeTimeOnly : Prop :=
  (∀ (s t : State) (d n a b : Nat) (c : Instr), d < 2 → s.m.settled = true → c ∈ ([.delayReq d a,
    .pdelayReq d n a b] : List Instr) → exec c s = .next t →
    t = { s with m := { s.m with od := t.m.od, ptp := t.m.ptp, out := t.m.out } } ∧ ObjectsBut [(0x3010 + d, 0x3010 + d)] s.m t.m) ∧
  (∀ (s t : State) (d n a b e : Nat) (c' : Int) (c : Instr), d < 2 → s.m.settled = true →
    s.m.domState d ≠ 2 ∨ steady (s.m.dom d).offsets = false → s.m.qualified 0 = false ∨ s.m.qualified 1 = false →
    c ∈ ([.delayResp d n a c', .pdelayResp d n a b e c'] : List Instr) → exec c s = .next t →
    t = { s with m := { s.m with od := t.m.od, ptp := t.m.ptp, out := t.m.out } } ∧ ObjectsBut [(0x3010 + d, 0x3010 + d)] s.m t.m) ∧
  (∀ (s t : State) (o k j : Nat), o < 8 → exec (.syncOutputEdge o k j) s = .next t →
    t = { s with m := { s.m with od := t.m.od, ptp := t.m.ptp, out := t.m.out } } ∧ ObjectsBut [(0x3110 + o, 0x3110 + o)] s.m t.m) ∧
  (∀ (s t : State) (n x : Nat) (b : Bool), s.m.power ≤ 2 → s.m.power_.stop ≠ some 3 → s.m.power_.entry = none →
    exec (.syncInputEdge n b x) s = .next t →
    t = { s with m := { s.m with od := t.m.od, koa := t.m.koa, jrn := t.m.jrn, ptp := t.m.ptp, power_ := t.m.power_, out := t.m.out } } ∧
    ObjectsBut [(0x3120 + n, 0x3120 + n), (0x1202, 0x1202)] s.m t.m) ∧
  (∀ (s t : State), s.m.testing = none → exec (.outputSettingsInEffect) s = .next t →
    t = { s with m := { s.m with od := t.m.od, koa := t.m.koa, jrn := t.m.jrn, ptp := t.m.ptp, out := t.m.out } } ∧
    ObjectsBut [(0x3100, 0x3100), (0x1202, 0x1202)] s.m t.m) ∧
  (∀ (s t : State) (k : Nat) (l : List Int), exec (.slotTick k l) s = .next t →
    t = { s with m := { s.m with od := t.m.od, koa := t.m.koa, jrn := t.m.jrn, pipe := t.m.pipe, panel := t.m.panel, out := t.m.out } } ∧
    ObjectsBut [(0x6300, 0x6300), (0x6310, 0x634F), (0x1202, 0x1202)] s.m t.m) ∧
  (∀ (s t : State), exec (.lateCutOff) s = .next t →
    t = { s with m := { s.m with od := t.m.od, koa := t.m.koa, jrn := t.m.jrn, scene := t.m.scene, outs := t.m.outs, pipe := t.m.pipe, out := t.m.out } } ∧
    ObjectsBut [(0x1202, 0x1202), (0x7000, 0x7000)] s.m t.m) ∧
  (∀ (s t : State), exec (.aoIslandPowerLoss) s = .next t →
    t = { s with m := { s.m with od := t.m.od, clk := t.m.clk, power_ := t.m.power_ } } ∧ ObjectsBut [(0x3000, 0x3000)] s.m t.m)

/-- Sources, decode, descriptors, uploads, recordings and clips act as R116, R120, R127 to R134 and R138 say. -/
def Obligations.SceneContentsUploadsAndClips : Prop :=
  (∀ (s : State) (k x b : Nat) (a : Option Nat), k < 256 → s.m.source? k = some (x, a, b) → s.m.objB 0x4110 1 k = true →
    s.m.scene.layers.length ≤ 64 → Runs (.rtcpBye k x) s (fun t => t.m.source? k = none ∧ t.m.objN 0x4110 6 k = 0 ∧
    (t.m.scene.layers.all (fun y => y.pending.all (fun c => match c.origin with | .stream z _ => z != k | _ => true))) = true)) ∧
  (∀ (s : State) (k x y b : Nat) (a : Option Nat), s.m.source? k = some (y, a, b) → x ≠ y → Runs (.rtcpBye k x) s (fun t => t = s)) ∧
  (∀ (s : State) (k x b : Nat) (a : Option Nat), k < 256 → s.m.source? k = some (x, a, b) → b + ms (s.m.objN 0x5180 6) ≤ s.m.now →
    Runs (.sourceIdleTimeout k) s (fun t => t.m.source? k = none ∧ t.m.objN 0x4110 6 k = 0)) ∧
  (∀ (s : State) (k x b : Nat) (a : Option Nat), s.m.source? k = some (x, a, b) → s.m.now < b + ms (s.m.objN 0x5180 6) →
    Runs (.sourceIdleTimeout k) s (fun t => t = s)) ∧
  (∀ (s : State) (k : Nat) (c : Content) (l : List Content), k < 64 → k < s.m.scene.layers.length → (s.m.layer k).inOrder = c :: l →
    (s.m.layer k).writable = true → c.heat ≤ s.m.frameNo + 2 → (s.m.layer k).target < (s.m.layer k).bufs.length →
    Runs (.decodeStart k) s (fun t => (t.m.layer k).bufs.getD (s.m.layer k).target none = none ∧
    (t.m.layer k).pending.all (fun y => !(y.origin = c.origin && y.heat = c.heat) || y.buf = some (s.m.layer k).target) = true ∧
    t.mem = s.mem)) ∧
  (∀ (s : State) (w : WriteReq) (p : Put) (m : Mach), Reaches s 0x5180 1 w p m →
    (m.objN 0x5180 2 = 0 ∨ m.frameNo + 2 ≤ m.objN 0x5180 2) →
    m.descriptorsAllowed ((upTo 64).map m.stagedV) ((upTo 4).map m.stagedG) = true →
    Runs (.descriptorApply w) s (fun t => t.m.scene.staged = some (m.objN 0x5180 2, (upTo 64).map m.stagedV, (upTo 4).map m.stagedG) ∧
    t.m.objN 0x5180 3 = 1 ∧ t.m.scene.vdesc = m.scene.vdesc ∧ t.mem = s.mem)) ∧
  (∀ (s : State) (w : WriteReq) (p : Put) (m : Mach), Reaches s 0x5180 1 w p m → m.objN 0x5180 2 ≠ 0 →
    m.objN 0x5180 2 < m.frameNo + 2 → Runs (.descriptorApply w) s (fun t => SameBut t.m m ∧ t.mem = s.mem)) ∧
  (∀ (s : State) (j : Nat) (w : WriteReq) (p : Put) (m : Mach), Reaches s (0x51A0 + j) 7 w p m → j < 8 →
    live (m.uploadState j) = false → (m.vdesc (m.objN (0x51A0 + j) 1)).enable = true →
    (m.vdesc (m.objN (0x51A0 + j) 1)).mode = 1 →
    m.objN (0x51A0 + j) 2 + m.objN (0x51A0 + j) 4 ≤ ((m.vdesc (m.objN (0x51A0 + j) 1)).width + 63) / 64 →
    m.objN (0x51A0 + j) 3 + m.objN (0x51A0 + j) 5 ≤ ((m.vdesc (m.objN (0x51A0 + j) 1)).height + 63) / 64 →
    m.scene.uploads.all (fun a => a.job = j || a.buf != m.objN (0x51A0 + j) 6) = true →
    Runs (.uploadStart j w) s (fun t => t.m.uploadState j = 1 ∧ t.m.scene.uploads.getLast? = some (m.stagedUpload j) ∧
    t.m.objN (0x51A0 + j) 0x0A = 0 ∧ t.mem = s.mem)) ∧
  (∀ (s : State) (j : Nat) (w : WriteReq) (p : Put) (m : Mach), Reaches s (0x51A0 + j) 7 w p m → j < 8 →
    (live (m.uploadState j) = true ∨ (m.vdesc (m.objN (0x51A0 + j) 1)).mode ≠ 1) →
    Runs (.uploadStart j w) s (fun t => SameBut t.m m ∧ t.mem = s.mem)) ∧
  (∀ (s : State) (j : Nat) (u : Upload), j < 8 → s.m.upload? j = some u → u.layer < 64 → u.layer < s.m.scene.layers.length →
    s.m.uploadState j = 1 → s.m.scene.uploads.find? (fun a => a.layer = u.layer) = some u → (s.m.vdesc u.layer).enable = true →
    (s.m.vdesc u.layer).mode = 1 → (s.m.layer u.layer).writable = true → (s.m.layer u.layer).pending = [] →
    Runs (.uploadRun j) s (fun t => t.m.uploadState j = 2 ∧
    (t.m.layer u.layer).pending.map (fun c => (c.heat, c.span, c.buf)) = [(s.m.frameNo + 2, 0, some (s.m.layer u.layer).target)] ∧
    t.m.scene.uploads = s.m.scene.uploads)) ∧
  (∀ (s : State) (j : Nat) (u : Upload), j < 8 → s.m.upload? j = some u →
    (s.m.uploadState j ≠ 1 ∨ (s.m.layer u.layer).writable = false ∨ (s.m.vdesc u.layer).mode ≠ 1) →
    Runs (.uploadRun j) s (fun t => t.m.scene = s.m.scene ∧ t.m.uploadState j = s.m.uploadState j)) ∧
  (∀ (s : State) (j : Nat) (u : Upload) (b : Content), j < 8 → s.m.upload? j = some u → u.layer < 64 →
    (s.m.layer u.layer).pending.find? (fun x => x.origin = .upload j) = some b →
    b.ready.all (fun r => b.blocks.any (fun x => x.1 = r.1)) = true → (b.ready.map Prod.snd).sum = b.length →
    b.blocks.length = u.cols * u.rows → s.m.anyPoison = false → s.m.poisonWaits = false →
    Runs (.uploadFinish j) s (fun t => t.m.uploadState j = 3 ∧ t.m.scene.shown.contains (j, u.layer, s.m.frameNo + 2) = true ∧
    t.m.scene.uploads.contains u = false)) ∧
  (∀ (s : State) (j : Nat) (u : Upload) (b : Content), j < 8 → s.m.upload? j = some u → u.layer < 64 →
    (s.m.layer u.layer).pending.find? (fun x => x.origin = .upload j) = some b →
    b.ready.all (fun r => b.blocks.any (fun x => x.1 = r.1)) = true → (b.ready.map Prod.snd).sum ≠ b.length →
    Runs (.uploadFinish j) s (fun t => t.m.uploadState j = 6 ∧ t.m.objN (0x51A0 + j) 0x0A = 4 ∧
    t.m.scene.uploads.contains u = false ∧ t.mem = s.mem)) ∧
  (∀ (s : State) (j : Nat) (u : Upload) (b : Content), j < 8 → s.m.upload? j = some u → u.layer < 64 →
    (s.m.layer u.layer).pending.find? (fun x => x.origin = .upload j) = some b →
    b.ready.all (fun r => b.blocks.any (fun x => x.1 = r.1)) = true → (b.ready.map Prod.snd).sum = b.length →
    b.blocks.length ≠ u.cols * u.rows → Runs (.uploadFinish j) s (fun t => t.m.uploadState j = 6 ∧
    t.m.objN (0x51A0 + j) 0x0A = 3 ∧ t.m.scene.uploads.contains u = false ∧ t.mem = s.mem)) ∧
  (∀ (s : State) (w : WriteReq) (p : Put) (m : Mach), Reaches s 0x51B1 5 w p m → ofBE w.value = 0x4C4300B1 → p.n = 0x4C4300B1 →
    m.objN 0x51B1 6 ≠ 1 → m.objN 0x51B1 6 ≠ 2 → Runs (.recordStart w) s (fun t => t.m.objN 0x51B1 6 = 1 ∧ t.m.objN 0x51B1 7 = 0 ∧
    t.m.scene.recording.map (fun r : Recording => (r.clip, r.layer, r.limit)) = some (m.objN 0x51B1 1, m.objN 0x51B1 2, m.objN 0x51B1 4) ∧
    t.mem = s.mem)) ∧
  (∀ (s : State) (w : WriteReq) (p : Put) (m : Mach), Reaches s 0x51B1 5 w p m → ofBE w.value = 0x4C4300B1 → p.n = 0x4C4300B1 →
    (m.objN 0x51B1 6 = 1 ∨ m.objN 0x51B1 6 = 2) → Runs (.recordStart w) s (fun t => SameBut t.m m ∧ t.mem = s.mem)) ∧
  (∀ (s : State) (w : WriteReq) (p : Put) (m : Mach), Reaches s 0x51B1 5 w p m → ofBE w.value = 0x4C4300B0 → p.n = 0x4C4300B0 →
    m.scene.recording.isSome = true → Runs (.recordStop w) s (fun t => t.m.scene.recording = none ∧ t.m.objN 0x51B1 6 = 3 ∧
    t.m.jrn.newest = m.jrn.newest + 1 ∧ t.mem = s.mem)) ∧
  (∀ (s : State) (w : WriteReq) (p : Put) (m : Mach), Reaches s 0x51B1 5 w p m → ofBE w.value = 0x4C4300B0 → p.n = 0x4C4300B0 →
    m.scene.recording = none → Runs (.recordStop w) s (fun t => SameBut t.m m ∧ t.mem = s.mem)) ∧
  (∀ (s : State) (w : WriteReq) (p : Put) (m : Mach), Reaches s 0x51B2 2 w p m → m.clipInUse (m.objN 0x51B2 1) = false →
    Runs (.clipDelete w) s (fun t => t.m.clip? (m.objN 0x51B2 1) = none ∧ t.mem = s.mem)) ∧
  (∀ (s : State) (w : WriteReq) (p : Put) (m : Mach), Reaches s 0x51B2 2 w p m → m.clipInUse (m.objN 0x51B2 1) = true →
    Runs (.clipDelete w) s (fun t => SameBut t.m m ∧ t.mem = s.mem))

/-- Plane sets, hogel rows, cluster faults and the pour watchdog act as R89, R164, R165 and R167 say. -/
def Obligations.ClustersRenderPours : Prop :=
  (∀ (s : State) (c k : Nat) (w : Work) (p : Pour), k ≠ 2 → (s.m.cluster c).ctx.getD k none = some w → s.m.pour? w.panel = some p →
    s.m.clusterUp c = true → w.rows ≤ w.start → s.m.anyPoison = false → s.m.poisonWaits = false →
    Runs (.planeSetComplete c k) s (fun t => ((t.m.cluster c).ctx.getD k none).map (fun x : Work => (x.panel, x.version, x.start, x.rows)) = some (w.panel, w.version, w.start, min 36 ((p.ver w.version).row + 2)) ∧
    (t.m.pour? w.panel).map (fun p => (p.ver w.version).state) = some (if (p.ver w.version).state = 2 then 3 else (p.ver w.version).state))) ∧
  (∀ (s : State) (c k : Nat) (w : Work) (p : Pour), k ≠ 2 → (s.m.cluster c).ctx.getD k none = some w → s.m.pour? w.panel = some p →
    s.m.clusterUp c = true → w.start < w.rows → w.rows < 36 → (w.rows ≤ (p.ver w.version).row ∨ (s.m.cluster c).cur = some k ∧
    w.rows ≤ (p.ver w.version).row + 1) → s.m.anyPoison = false → s.m.poisonWaits = false →
    Runs (.planeSetComplete c k) s (fun t => ((t.m.cluster c).ctx.getD k none).map (fun x : Work => (x.panel, x.version, x.start, x.rows)) = some (w.panel, w.version, w.start, w.rows + 1))) ∧
  (∀ (s : State) (c : Nat) (e : Nat × Nat) (p : Pour), c < s.m.pipe.clusters.length →
    s.m.heat.list.find? (fun e => !s.m.pipe.clusters.any (fun x => x.ahead = some e)) = some e → s.m.pour? e.1 = some p →
    s.m.clusterUp c = true → (s.m.cluster c).ahead = none →
    ((s.m.ladleRuns p e.2 (p.ver e.2).row (p.ver e.2).row (min 36 ((p.ver e.2).row + 2))).map Prod.snd).sum ≤ s.m.poolSize →
    Runs (.planeSetComplete c 2) s (fun t => (t.m.cluster c).ahead = some e ∧ t.mem = s.mem)) ∧
  (∀ (s : State) (cl k : Nat) (w : Work) (p : Pour), cl < 68 → s.m.forced 4 cl = none → s.m.armedAt 1 cl = false →
    s.m.armedAt 2 cl = false → s.m.armedAt 3 cl = false → (s.m.cluster cl).cur = some k →
    (s.m.cluster cl).ctx.getD k none = some w → s.m.pour? w.panel = some p → s.m.clusterUp cl = true →
    3 ≤ (p.ver w.version).state → (p.ver w.version).state ≤ 5 → (p.ver w.version).rendered = false →
    (p.ver w.version).row + 1 < 36 →
    Runs (.hogelRowRendered cl 0) s (fun t => (t.m.pour? w.panel).map (fun q : Pour => ((q.ver w.version).row, (q.ver w.version).band)) = some ((p.ver w.version).row + 1, (p.ver w.version).band) ∧
    (t.m.pour? w.panel).map (fun q : Pour => ((q.ver w.version).rendered, (q.ver w.version).state)) = some (false, max (p.ver w.version).state 4) ∧
    ((t.m.cluster cl).ctx.getD k none).map (fun x : Work => (x.panel, x.version, x.start, x.rows)) = some (w.panel, w.version, w.start, w.rows))) ∧
  (∀ (s : State) (cl k : Nat) (w : Work) (p : Pour), cl < 68 → s.m.forced 4 cl = none → s.m.armedAt 1 cl = false →
    s.m.armedAt 2 cl = false → s.m.armedAt 3 cl = false → (s.m.cluster cl).cur = some k →
    (s.m.cluster cl).ctx.getD k none = some w → s.m.pour? w.panel = some p → s.m.clusterUp cl = true →
    3 ≤ (p.ver w.version).state → (p.ver w.version).state ≤ 5 → (p.ver w.version).rendered = false →
    (p.ver w.version).row + 1 = 36 → p.bands ≤ (p.ver w.version).band + 1 →
    Runs (.hogelRowRendered cl 0) s (fun t => (t.m.pour? w.panel).map (fun q : Pour => (q.ver w.version).rendered) = some true)) ∧
  (∀ (s : State) (cl n : Nat), (68 ≤ cl ∨ (s.m.forced 4 cl).isSome = true) → Runs (.hogelRowRendered cl n) s (fun t => t = s)) ∧
  (∀ (s : State) (cl cause : Nat), cl < 68 → cl < s.m.pipe.clusters.length → s.m.objN (0x5320 + cl) 1 = 1 →
    s.m.objN (0x5320 + cl) 5 < 2 ^ 16 - 1 → Runs (.clusterFault cl cause) s (fun t => t.m.objN (0x5320 + cl) 1 = 2 ∧
    t.m.objN (0x5320 + cl) 5 = s.m.objN (0x5320 + cl) 5 + 1 ∧ t.m.objN (0x5320 + cl) 6 = cause ∧
    t.m.cluster cl = { stopped := true } ∧ t.m.heat.reissues = s.m.heat.reissues + ((s.m.cluster cl).ctx.filterMap id).length ∧
    t.m.jrn.newest = s.m.jrn.newest + 1)) ∧
  (∀ (s : State) (cl cause : Nat), s.m.objN (0x5320 + cl) 1 ≠ 1 → Runs (.clusterFault cl cause) s (fun t => t = s)) ∧
  (∀ (s : State) (cl : Nat), cl < 68 → cl < s.m.pipe.clusters.length →
    (s.m.cluster cl).ctx.any (fun x : Option Work => match x.bind Work.eligibleAt with | some a => decide (a + us 400 ≤ s.m.now) | none => false) = true →
    s.m.objN (0x5320 + cl) 1 = 1 → Runs (.pourWatchdog cl) s (fun t => t.m.objN (0x5320 + cl) 1 = 2 ∧
    t.m.objN (0x5320 + cl) 6 = 3 ∧ (t.m.cluster cl).stopped = true ∧ t.m.jrn.newest = s.m.jrn.newest + 1)) ∧
  (∀ (s : State) (cl : Nat), (s.m.cluster cl).ctx.any (fun x : Option Work => match x.bind Work.eligibleAt with | some a => decide (a + us 400 ≤ s.m.now) | none => false) = false →
    Runs (.pourWatchdog cl) s (fun t => t = s))

/-- Region updates, deferred patches, captures and signature regions act as R176 to R178, R187, R189, R190 and R194 say. -/
def Obligations.RegionUpdatesCapturesAndSignatures : Prop :=
  (∀ (s : State) (j : Nat) (w : WriteReq) (p : Put) (m : Mach), Reaches s (0x5408 + j) 6 w p m → j < 8 →
    m.objN (0x5408 + j) 1 < m.outs.graphics.length → live (m.regionState j) = false →
    m.objN (0x5408 + j) 2 + m.objN (0x5408 + j) 4 ≤ 1920 → m.objN (0x5408 + j) 3 + m.objN (0x5408 + j) 5 ≤ 1080 →
    Runs (.regionUpdateStart j w) s (fun t => t.m.regionState j = 1 ∧ (m.outs.jobs.length = 8 →
    (t.m.regionJob j).rect = m.regionRect j) ∧ (t.m.graphic (m.objN (0x5408 + j) 1)).order.getLast? = some j ∧ t.mem = s.mem)) ∧
  (∀ (s : State) (j : Nat) (w : WriteReq) (p : Put) (m : Mach), Reaches s (0x5408 + j) 6 w p m → j < 8 →
    (live (m.regionState j) = true ∨ 1920 < m.objN (0x5408 + j) 2 + m.objN (0x5408 + j) 4) →
    Runs (.regionUpdateStart j w) s (fun t => SameBut t.m m ∧ t.mem = s.mem)) ∧
  (∀ (s : State) (j : Nat), s.m.regionState j = 1 → (s.m.graphic (s.m.regionJob j).layer).order.head? = some j →
    (s.m.graphic (s.m.regionJob j).layer).busy.all (fun b => b.1 != (s.m.graphic (s.m.regionJob j).layer).target) = true →
    Runs (.regionUpdateRun j) s (fun t => t.m.regionState j = 2 ∧ t.m.outs = s.m.outs)) ∧
  (∀ (s : State) (j : Nat), j < 8 → s.m.regionState j = 2 → (s.m.regionJob j).layer < s.m.outs.graphics.length →
    ((regionReads (graphicBase (s.m.regionJob j).layer (s.m.graphic (s.m.regionJob j).layer).newest) (graphicBase (s.m.regionJob j).layer 0) (s.m.regionJob j).rect).filter (fun a => a.2 != 0)).any (fun a => s.m.poisonedAt a.1 a.2) = false →
    s.m.poisonWaits = false → Runs (.regionUpdateComplete j) s (fun t => t.m.regionState j = 3 ∧
    (t.m.graphic (s.m.regionJob j).layer).newest = (s.m.graphic (s.m.regionJob j).layer).target ∧
    t.m.outs.shown.contains (j, 0) = true)) ∧
  (∀ (s : State) (j : Nat), j < 8 → s.m.regionState j = 2 →
    ((regionReads (graphicBase (s.m.regionJob j).layer (s.m.graphic (s.m.regionJob j).layer).newest) (graphicBase (s.m.regionJob j).layer 0) (s.m.regionJob j).rect).filter (fun a => a.2 != 0)).any (fun a => s.m.poisonedAt a.1 a.2) = true →
    s.m.poisonWaits = false → Runs (.regionUpdateComplete j) s (fun t => t.m.regionState j = 6 ∧
    t.m.jrn.newest = s.m.jrn.newest + 1 ∧ t.mem = s.mem)) ∧
  (∀ (s : State) (g : Nat) (x : HeldPatch), s.m.coreUp 0 = true →
    s.m.outs.held.find? (fun y => y.layer = g && !s.m.patchHeld g y.data) = some x → (s.m.session? x.session).isSome = true →
    Runs (.workSurfacePatchDeferred g) s (fun t => t.m.outs.held = s.m.outs.held.erase x ∧
    t.mem = memApply s.mem (s.m.writePatch g x.data).writes ∧ answeredBy s.m t.m 0x23 x.session x.tag x.ack = true)) ∧
  (∀ (s : State) (w : WriteReq) (p : Put) (m : Mach), Reaches s 0x5418 7 w p m → ofBE w.value = 0x4C4300C1 → p.n = 0x4C4300C1 →
    m.objN 0x5418 8 ≠ 1 → m.objN 0x5418 8 ≠ 2 → m.objN 0x5418 1 + m.objN 0x5418 3 ≤ 32 → m.objN 0x5418 2 + m.objN 0x5418 4 ≤ 30 →
    m.objN 0x5418 3 * m.objN 0x5418 4 ≤ 32 → m.objN 0x5418 3 * m.objN 0x5418 4 * m.objN 0x5418 5 * 13271072 ≤ 3489660928 →
    m.outs.stage = 0 → (m.objN 0x5418 6 = 0 ∨ m.frameNo + 2 ≤ m.objN 0x5418 6) →
    Runs (.captureStart w) s (fun t => t.m.objN 0x5418 8 = 1 ∧ t.m.objN 0x5418 9 = 0 ∧ t.m.outs.capture.frames = m.objN 0x5418 5 ∧
    t.mem = s.mem)) ∧
  (∀ (s : State) (w : WriteReq) (p : Put) (m : Mach), Reaches s 0x5418 7 w p m → ofBE w.value = 0x4C4300C1 → p.n = 0x4C4300C1 →
    (1 ≤ m.outs.stage ∨ m.objN 0x5418 8 = 1 ∨ m.objN 0x5418 8 = 2) → Runs (.captureStart w) s (fun t => SameBut t.m m ∧
    t.mem = s.mem)) ∧
  (∀ (s : State) (w : WriteReq) (p : Put) (m : Mach), Reaches s 0x5418 7 w p m → ofBE w.value = 0x4C4300C0 → p.n = 0x4C4300C0 →
    (m.objN 0x5418 8 = 1 ∨ m.objN 0x5418 8 = 2) → Runs (.captureStop w) s (fun t => t.m.objN 0x5418 8 = 4 ∧
    t.m.objN 0x5418 0x0A = 1 ∧ t.m.jrn.newest = m.jrn.newest + 1 ∧ t.mem = s.mem)) ∧
  (∀ (s : State) (w : WriteReq) (p : Put) (m : Mach), Reaches s 0x5418 7 w p m → ofBE w.value = 0x4C4300C0 → p.n = 0x4C4300C0 →
    m.objN 0x5418 8 ≠ 1 → m.objN 0x5418 8 ≠ 2 → Runs (.captureStop w) s (fun t => SameBut t.m m ∧ t.mem = s.mem)) ∧
  (∀ (s : State) (r : Nat) (w : WriteReq) (p : Put) (m : Mach), Reaches s (0x5420 + r) 1 w p m → r < 16 → p.v = 1 →
    m.objN (0x5420 + r) 2 + m.objN (0x5420 + r) 4 ≤ 1920 → m.objN (0x5420 + r) 3 + m.objN (0x5420 + r) 5 ≤ 1080 →
    (m.viewMask r).all (· = 0) = false → Runs (.signatureRegionEnable r w) s (fun t => t.m.objN (0x5420 + r) 1 = 1 ∧
    t.mem = s.mem ∧ t.m.outs = m.outs)) ∧
  (∀ (s : State) (r : Nat) (w : WriteReq) (p : Put) (m : Mach), Reaches s (0x5420 + r) 1 w p m → r < 16 → p.v = 1 →
    (1920 < m.objN (0x5420 + r) 2 + m.objN (0x5420 + r) 4 ∨ (m.viewMask r).all (· = 0) = true) →
    Runs (.signatureRegionEnable r w) s (fun t => SameBut t.m m ∧ t.mem = s.mem)) ∧
  (∀ (s : State) (r : Nat) (w : WriteReq) (p : Put) (m : Mach), Reaches s (0x5420 + r) 1 w p m → r < 16 → p.v = 0 →
    Runs (.signatureRegionEnable r w) s (fun t => t.m.objN (0x5420 + r) 1 = 0 ∧ t.m.objN (0x5440 + r) 6 = 0 ∧
    t.m.heat.regions = m.heat.regions.filter (· != r) ∧ t.mem = s.mem)) ∧
  (∀ (s : State) (r : Nat) (w : WriteReq) (p : Put) (m : Mach), Reaches s (0x5420 + r) 9 w p m → r < 16 →
    Runs (.signatureLearn r w) s (fun t => t.m.outs.learn = addNew m.outs.learn r ∧ t.m.od = m.od ∧ t.mem = s.mem))

/-- Codec engines, content blocks and host jobs act as R221, R222, R226, R227 and R229 to R235 say. -/
def Obligations.CodecEnginesAndHostJobs : Prop :=
  (∀ (s : State) (e : Nat), e < 20 → s.m.codec.decode.length = 20 → s.m.objN (0x7120 + e) 1 = 1 →
    s.m.objN (0x7120 + e) 3 < 2 ^ 16 - 1 → Runs (.decodeEngineFault e) s (fun t => t.m.objN (0x7120 + e) 1 = 2 ∧
    t.m.objN (0x7120 + e) 3 = s.m.objN (0x7120 + e) 3 + 1 ∧ t.m.objN (0x7120 + e) 4 = 1 ∧ t.m.jrn.newest = s.m.jrn.newest + 1 ∧
    (s.m.codec.decode.getD e .idle = .idle ∨ s.m.codec.decode.getD e .idle = .spent ∨ (t.m.codec.redo ++ t.m.codec.decode).contains (s.m.codec.decode.getD e .idle) = true))) ∧
  (∀ (s : State) (e : Nat), (20 ≤ e ∨ s.m.objN (0x7120 + e) 1 ≠ 1) → Runs (.decodeEngineFault e) s (fun t => t = s)) ∧
  (∀ (s : State) (i : Nat), i < 4 → s.m.objN (0x7140 + i) 1 = 1 → 2 ≤ s.m.encodeUsable →
    Runs (.encodeEngineFault i) s (fun t => t.m.objN (0x7140 + i) 1 = 2 ∧ t.m.encodeUsable + 1 = s.m.encodeUsable ∧
    t.m.jrn.newest = s.m.jrn.newest + 1)) ∧
  (∀ (s : State) (i j : Nat), i < 4 → j < 8 → s.m.objN (0x7140 + i) 1 = 1 → s.m.encodeUsable = 1 → (s.m.job j).kind = 1 →
    (s.m.jobState j = 1 ∨ s.m.jobState j = 2) → Runs (.encodeEngineFault i) s (fun t => t.m.objN (0x7140 + i) 1 = 2 ∧
    t.m.jobState j = 7 ∧ t.m.objN (0x7110 + j) 0x0E = 7 ∧ t.mem = s.mem)) ∧
  (∀ (s : State) (i : Nat), 4 ≤ i → Runs (.encodeEngineFault i) s (fun t => t = s)) ∧
  (∀ (s : State) (e y : Nat) (x : Bool), (20 ≤ e ∨ s.m.codec.decode.getD e .idle = .idle) →
    Runs (.blockDecoded e x y) s (fun t => t = s)) ∧
  (∀ (s : State) (e k o n col row y : Nat) (c : Content) (l : List Sample), e < 20 → k < 64 → s.m.armedAt 5 e = false →
    s.m.armedAt 6 e = false → s.m.codec.decode.getD e .idle = .content k o → (s.m.layer k).decoding = some c →
    c.ready.find? (fun r => r.1 = o) = some (o, n) → c.poison.contains o = false →
    (c.staged o n).all (fun r => !s.m.poisonedAt r.1 r.2) = true → s.m.poisonWaits = false → s.m.scene.recording.isNone = true →
    judgeBlock ((c.read? o n).getD []) c.width c.height c.streamLayer (c.blocks.map Prod.snd) = .ok (col, row, l) →
    s.m.takesBlock c col row = true → s.m.objN 0x7103 1 < 2 ^ 64 - 1 →
    Runs (.blockDecoded e false y) s (fun t => t.mem = memApply s.mem ((blockWrites (layerBase k (c.buf.getD 0)) c.width col row (blockSize c.width c.height col row).1 l).flatMap writesOf) ∧
    t.m.objN 0x7103 1 = s.m.objN 0x7103 1 + 1)) ∧
  (∀ (s : State) (e k o n col row y : Nat) (c : Content) (l : List Sample), e < 20 → k < 64 → s.m.armedAt 5 e = false →
    s.m.armedAt 6 e = false → s.m.codec.decode.getD e .idle = .content k o → (s.m.layer k).decoding = some c →
    c.ready.find? (fun r => r.1 = o) = some (o, n) → c.poison.contains o = false →
    (c.staged o n).all (fun r => !s.m.poisonedAt r.1 r.2) = true → s.m.poisonWaits = false →
    judgeBlock ((c.read? o n).getD []) c.width c.height c.streamLayer (c.blocks.map Prod.snd) = .ok (col, row, l) →
    s.m.takesBlock c col row = true → c.whole = true → c.ready = [(o, c.length)] → c.blocks = [] →
    (blockGrid c.width c.height).length = 1 → (match c.origin with | .upload _ => false | _ => true) = true →
    s.m.objN (0x5140 + k) 8 < 2 ^ 64 - 1 →
    Runs (.blockDecoded e false y) s (fun t => t.m.objN (0x5140 + k) 8 = s.m.objN (0x5140 + k) 8 + 1 ∧
    (t.m.layer k).decoding ≠ some c)) ∧
  (∀ (s : State) (e k o n r y : Nat) (x : Bool) (c : Content), e < 20 → k < 64 → s.m.armedAt 5 e = false → s.m.armedAt 6 e = false →
    s.m.codec.decode.getD e .idle = .content k o → (s.m.layer k).decoding = some c →
    c.ready.find? (fun r => r.1 = o) = some (o, n) → c.poison.contains o = false →
    (c.staged o n).all (fun r => !s.m.poisonedAt r.1 r.2) = true → s.m.poisonWaits = false →
    judgeBlock ((c.read? o n).getD []) c.width c.height c.streamLayer (c.blocks.map Prod.snd) = .error r → r ≠ 2 →
    (match c.origin with | .upload _ => false | _ => true) = true → s.m.objN (0x5140 + k) 9 < 2 ^ 64 - 1 →
    Runs (.blockDecoded e x y) s (fun t => t.m.objN (0x5140 + k) 9 = s.m.objN (0x5140 + k) 9 + 1 ∧
    (t.m.layer k).pending = (s.m.layer k).pending.filter (fun z => !(z.origin = c.origin ∧ z.heat = c.heat)) ∧ t.mem = s.mem)) ∧
  (∀ (s : State) (e k o n y : Nat) (x : Bool) (c : Content) (z : Nat × Nat × List Sample), e < 20 → k < 64 →
    s.m.armedAt 5 e = false → s.m.armedAt 6 e = false → s.m.codec.decode.getD e .idle = .content k o →
    (s.m.layer k).decoding = some c → c.ready.find? (fun r => r.1 = o) = some (o, n) → c.poison.contains o = false →
    (c.staged o n).all (fun r => !s.m.poisonedAt r.1 r.2) = true → s.m.poisonWaits = false →
    (judgeBlock ((c.read? o n).getD []) c.width c.height c.streamLayer (c.blocks.map Prod.snd) = .error 2 ∨ x = true ∧
    judgeBlock ((c.read? o n).getD []) c.width c.height c.streamLayer (c.blocks.map Prod.snd) = .ok z) →
    Runs (.blockDecoded e x y) s (fun t => (t.m.codec.redo ++ t.m.codec.decode).contains (.again k o e) = true ∧
    t.m.layer k = s.m.layer k ∧ t.mem = s.mem)) ∧
  (∀ (s : State) (e f k o n col row y : Nat) (c : Content) (l : List Sample), e < 20 → k < 64 → s.m.armedAt 5 e = false →
    s.m.armedAt 6 e = false → s.m.codec.decode.getD e .idle = .again k o f → (s.m.layer k).decoding = some c →
    c.ready.find? (fun r => r.1 = o) = some (o, n) → c.poison.contains o = false →
    (c.staged o n).all (fun r => !s.m.poisonedAt r.1 r.2) = true → s.m.poisonWaits = false →
    judgeBlock ((c.read? o n).getD []) c.width c.height c.streamLayer (c.blocks.map Prod.snd) = .ok (col, row, l) →
    s.m.takesBlock c col row = true → f < 20 → f ≠ e → s.m.objN (0x7120 + f) 1 = 1 → s.m.objN (0x7120 + f) 3 < 2 ^ 16 - 1 →
    Runs (.blockDecoded e false y) s (fun t => t.m.objN (0x7120 + f) 1 = 2 ∧
    t.m.objN (0x7120 + f) 3 = s.m.objN (0x7120 + f) 3 + 1 ∧ t.m.objN (0x7120 + f) 4 = 2)) ∧
  (∀ (s : State) (e j st r y : Nat), e < 20 → j < 8 → s.m.armedAt 5 e = false → s.m.codec.decode.getD e .idle = .job j →
    s.m.armedAt 6 e = false → s.m.poisonWaits = false → s.m.codec.jobs.length = 8 →
    (s.m.decodeWork s.ctx j allTokens).stop = some (st, r) → (st, r) ≠ (7, 1) →
    Runs (.blockDecoded e false y) s (fun t => t.m.jobState j = st ∧ t.m.objN (0x7110 + j) 0x0E = r)) ∧
  (∀ (s : State) (e j y : Nat) (x : Bool), e < 20 → j < 8 → s.m.armedAt 5 e = false → s.m.codec.decode.getD e .idle = .job j →
    (s.m.decodeWork s.ctx j allTokens).stop = some (7, 7) → Runs (.blockDecoded e x y) s (fun t => t.m.jobState j = 7 ∧
    t.m.objN (0x7110 + j) 0x0E = 7 ∧ t.mem = s.mem)) ∧
  (∀ (s : State) (i : Nat) (x : Bool), (4 ≤ i ∨ s.m.codec.encode.getD i .idle = .idle) →
    Runs (.blockEncoded i x) s (fun t => t = s)) ∧
  (∀ (s : State) (i j col row w h : Nat), i < 4 → j < 8 → s.m.armedAt 7 i = false → s.m.codec.encode.getD i .idle = .job j →
    s.m.codec.jobs.length = 8 → s.m.poisonWaits = false → (s.m.job j).pos.phase = 0 →
    (s.m.job j).nextBlock + 1 = (blockGrid (s.m.job j).width (s.m.job j).height).length →
    (blockGrid (s.m.job j).width (s.m.job j).height).getD (s.m.job j).nextBlock (0, 0) = (col, row) →
    blockSize (s.m.job j).width (s.m.job j).height col row = (w, h) → s.m.encodePoison j (col, row) (w, h) = false →
    (encodeBlock (s.m.job j).layer col row w h (imageBlock s.ctx (s.m.job j) col row w h) false).length ≤ (s.m.job j).outCap - ((s.m.job j).pos.outBytes - (s.m.job j).outBase) →
    s.m.objN 0x7103 3 < 2 ^ 64 - 1 → Runs (.blockEncoded i false) s (fun t => t.m.jobState j = 4 ∧
    t.mem = memApply s.mem (([⟨jobBase + ((s.m.job j).outOff + ((s.m.job j).pos.outBytes - (s.m.job j).outBase)), encodeBlock (s.m.job j).layer col row w h (imageBlock s.ctx (s.m.job j) col row w h) false⟩] : List MemWrite).flatMap writesOf) ∧
    t.m.objN 0x7103 3 = s.m.objN 0x7103 3 + 1)) ∧
  (∀ (s : State) (j : Nat) (w : WriteReq) (p : Put) (m : Mach), Reaches s (0x7110 + j) 0x0C w p m → j < 8 →
    ofBE w.value = 0x4C430071 → p.n = 0x4C430071 → m.jobRefused p.c j = none → (m.objN (0x7110 + j) 1 ≠ 1 ∨ 0 < m.encodeUsable) →
    (m.objN (0x7110 + j) 0x0B ≠ 1 ∨ m.poisonedAt (jobBase + m.objN (0x7110 + j) 6) 64 = false) →
    Runs (.hostJobStart j w) s (fun t => t.m.jobState j = 1 ∧ t.m.codec.order.getLast? = some j ∧ t.mem = s.mem)) ∧
  (∀ (s : State) (j : Nat) (w : WriteReq) (p : Put) (m : Mach), Reaches s (0x7110 + j) 0x0C w p m → j < 8 →
    ofBE w.value = 0x4C430071 → p.n = 0x4C430071 → m.jobRefused p.c j = none → (m.objN (0x7110 + j) 1 = 1 ∧
    m.encodeUsable = 0 ∨ m.objN (0x7110 + j) 0x0B = 1 ∧ m.poisonedAt (jobBase + m.objN (0x7110 + j) 6) 64 = true) →
    Runs (.hostJobStart j w) s (fun t => t.m.jobState j = 7 ∧ t.m.objN (0x7110 + j) 0x0E = 7 ∧ t.m.jrn.newest = m.jrn.newest + 1 ∧
    t.mem = s.mem)) ∧
  (∀ (s : State) (j : Nat) (w : WriteReq) (p : Put) (m : Mach), Reaches s (0x7110 + j) 0x0C w p m → j < 8 →
    ofBE w.value = 0x4C430071 → p.n = 0x4C430071 → (m.jobRefused p.c j).isSome = true →
    Runs (.hostJobStart j w) s (fun t => SameBut t.m m ∧ t.mem = s.mem)) ∧
  (∀ (s : State) (j tokens : Nat) (w : WriteReq) (p : Put) (m : Mach), Reaches s (0x7110 + j) 0x0C w p m (hint := some tokens) →
    j < 8 → ofBE w.value = 0x4C430070 → p.n = 0x4C430070 → m.jobState j = 1 → m.codec.jobs.length = 8 →
    Runs (.hostJobAbort j w tokens) s (fun t => t.m.jobState j = 8 ∧ t.m.codec.order.contains j = false ∧
    t.mem = memApply s.mem (([⟨jobBase + (m.job j).recOff, ({} : JobPos).record (m.job j).kind⟩] : List MemWrite).flatMap writesOf))) ∧
  (∀ (s : State) (j tokens : Nat) (w : WriteReq) (p : Put) (m : Mach), Reaches s (0x7110 + j) 0x0C w p m (hint := some tokens) →
    j < 8 → ofBE w.value = 0x4C430070 → p.n = 0x4C430070 → (m.jobState j = 3 ∨ m.jobState j = 2 ∧
    m.engineOf j = none ∨ m.jobState j = 2 ∧ (m.job j).kind ≠ 0 ∧ tokens = 0) →
    Runs (.hostJobAbort j w tokens) s (fun t => t.m.jobState j = 8 ∧ t.m.codec.order.contains j = false ∧
    t.mem = memApply s.mem (([⟨jobBase + (m.job j).recOff, (m.job j).pos.record (m.job j).kind⟩] : List MemWrite).flatMap writesOf))) ∧
  (∀ (s : State) (j tokens e : Nat) (w : WriteReq) (p : Put) (m : Mach), Reaches s (0x7110 + j) 0x0C w p m (hint := some tokens) →
    j < 8 → ofBE w.value = 0x4C430070 → p.n = 0x4C430070 → m.jobState j = 2 → m.engineOf j = some e → (m.job j).kind = 0 →
    m.poisonWaits = false → (m.decodeWork p.c j tokens).stop = none →
    Runs (.hostJobAbort j w tokens) s (fun t => t.m.jobState j = 8 ∧ t.m.codec.order.contains j = false)) ∧
  (∀ (s : State) (j tokens : Nat) (w : WriteReq) (p : Put) (m : Mach), Reaches s (0x7110 + j) 0x0C w p m (hint := some tokens) →
    j < 8 → ofBE w.value = 0x4C430070 → p.n = 0x4C430070 → (m.jobState j = 0 ∨ 4 ≤ m.jobState j) →
    Runs (.hostJobAbort j w tokens) s (fun t => SameBut t.m m ∧ t.mem = s.mem)) ∧
  (∀ (s : State) (j e : Nat), j < 8 → s.m.jobState j = 1 → s.m.codec.order.find? (fun i => s.m.jobState i = 1 ∧
    (s.m.job i).kind = (s.m.job j).kind) = some j → s.m.jobHeld j = false → s.m.power ≤ 1 → s.m.engineFor j e = true →
    s.m.codec.decode.length = 20 → s.m.codec.encode.length = 4 → Runs (.hostJobRun j e) s (fun t => t.m.jobState j = 2 ∧
    (if (s.m.job j).kind = 1 then t.m.codec.encode else t.m.codec.decode).getD e .idle = .job j ∧ t.mem = s.mem)) ∧
  (∀ (s : State) (j e : Nat), (s.m.jobHeld j = true ∨ 2 ≤ s.m.power ∨ s.m.engineFor j e = false) →
    Runs (.hostJobRun j e) s (fun t => t = s))

/-- The drawing channels start, complete, abort, fail and draw the slate as R239, R240 and R243 to R250 say. -/
def Obligations.DrawingRunsItsElementsInOrder : Prop :=
  (∀ (s : State) (w : WriteReq) (p : Put) (m : Mach), Reaches s 0x5800 0x0B w p m → ofBE w.value = 0x4C430081 → p.n = 0x4C430081 →
    m.drawState 0 ≠ 1 → m.drawRefused 0 m.drawRegisters = none → 0 < m.outs.drawing.length →
    Runs (.drawStart (.host w)) s (fun t => t.m.objN 0x5800 0x0C = 256 * bit (m.drawRegisters.op != 1 && m.drawRegisters.hazard m.drawRegisters.order) + 1 ∧
    t.m.objN 0x5800 0x0D = 0 ∧ t.m.drawOp 0 = m.drawRegisters ∧ t.mem = s.mem)) ∧
  (∀ (s : State) (w : WriteReq) (p : Put) (m : Mach), Reaches s 0x5800 0x0B w p m → ofBE w.value = 0x4C430081 → p.n = 0x4C430081 →
    (m.drawState 0 = 1 ∨ (m.drawRefused 0 m.drawRegisters).isSome = true) →
    Runs (.drawStart (.host w)) s (fun t => SameBut t.m m ∧ t.mem = s.mem)) ∧
  (∀ (s : State) (o : DrawOp), s.m.power ≤ 2 → s.m.drawState 1 ≠ 1 → s.m.drawRefused 1 o = none → 1 < s.m.outs.drawing.length →
    Runs (.drawStart (.firmware o)) s (fun t => t.m.drawState 1 = 1 ∧ t.m.drawOp 1 = o ∧ t.m.drawOp 0 = s.m.drawOp 0 ∧
    t.m.od = (s.m.setN 0x5801 1 1).od ∧ t.mem = s.mem)) ∧
  (∀ (s : State) (o : DrawOp), (3 ≤ s.m.power ∨ s.m.drawState 1 = 1 ∨ (s.m.drawRefused 1 o).isSome = true) →
    Runs (.drawStart (.firmware o)) s (fun t => t = s)) ∧
  (∀ (s : State) (done : Nat) (w : WriteReq) (p : Put) (m : Mach), Reaches s 0x5800 0x0B w p m (hint := some done) →
    ofBE w.value = 0x4C430080 → p.n = 0x4C430080 → m.drawState 0 = 1 → m.poisonWaits = false →
    ((m.drawOp 0).order.take done).all (fun e => !m.elementPoisoned s.mem (m.drawOp 0) e) = true →
    Runs (.drawAbort w done) s (fun t => t.m.drawState 0 = 3 ∧ t.m.objN 0x5800 0x0D = ((m.drawOp 0).order.take done).length ∧
    t.mem = memApply s.mem (((m.drawOp 0).run s.mem ((m.drawOp 0).order.take done)).flatMap writesOf))) ∧
  (∀ (s : State) (done : Nat) (w : WriteReq) (p : Put) (m : Mach), Reaches s 0x5800 0x0B w p m (hint := some done) →
    ofBE w.value = 0x4C430080 → p.n = 0x4C430080 → m.drawState 0 ≠ 1 → Runs (.drawAbort w done) s (fun t => SameBut t.m m ∧
    t.mem = s.mem)) ∧
  (∀ (s : State) (ch : Nat) (x : Option DrawOp), ch < 2 → (ch = 0 ∨ x = none) → s.m.drawState ch = 1 → s.m.poisonWaits = false →
    ((s.m.drawOp ch).order.take ((s.m.drawOp ch).w * (s.m.drawOp ch).h)).all (fun e => !s.m.elementPoisoned s.mem (s.m.drawOp ch) e) = true →
    s.m.objN 0x5800 0x0E < 2 ^ 64 - 1 → Runs (.drawComplete ch x) s (fun t => t.m.drawState ch = 2 ∧ (ch = 0 →
    t.m.objN 0x5800 0x0D = (s.m.drawOp 0).order.length ∧ t.m.objN 0x5800 0x0E = s.m.objN 0x5800 0x0E + 1) ∧
    t.mem = memApply s.mem (((s.m.drawOp ch).run s.mem ((s.m.drawOp ch).order.take ((s.m.drawOp ch).w * (s.m.drawOp ch).h))).flatMap writesOf))) ∧
  (∀ (s : State) (o : DrawOp), s.m.drawState 1 = 1 → s.m.power ≤ 2 → 1 < s.m.outs.drawing.length → s.m.drawRefused 1 o = none →
    s.m.poisonWaits = false →
    ((s.m.drawOp 1).order.take ((s.m.drawOp 1).w * (s.m.drawOp 1).h)).all (fun e => !s.m.elementPoisoned s.mem (s.m.drawOp 1) e) = true →
    Runs (.drawComplete 1 (some o)) s (fun t => t.m.drawState 1 = 1 ∧ t.m.drawOp 1 = o ∧
    t.mem = memApply s.mem (((s.m.drawOp 1).run s.mem ((s.m.drawOp 1).order.take ((s.m.drawOp 1).w * (s.m.drawOp 1).h))).flatMap writesOf))) ∧
  (∀ (s : State) (o : DrawOp), s.m.drawState 1 = 1 → (3 ≤ s.m.power ∨ (s.m.drawRefused 1 o).isSome = true) →
    s.m.poisonWaits = false →
    ((s.m.drawOp 1).order.take ((s.m.drawOp 1).w * (s.m.drawOp 1).h)).all (fun e => !s.m.elementPoisoned s.mem (s.m.drawOp 1) e) = true →
    Runs (.drawComplete 1 (some o)) s (fun t => t.m.drawState 1 = 2 ∧
    t.mem = memApply s.mem (((s.m.drawOp 1).run s.mem ((s.m.drawOp 1).order.take ((s.m.drawOp 1).w * (s.m.drawOp 1).h))).flatMap writesOf))) ∧
  (∀ (s : State) (ch : Nat) (x : Option DrawOp), ch < 2 → s.m.drawState ch = 1 → s.m.poisonWaits = false →
    (s.m.drawOp ch).order.any (fun e => s.m.elementPoisoned s.mem (s.m.drawOp ch) e) = true →
    Runs (.drawComplete ch x) s (fun t => t.m.drawState ch = 4 ∧ (ch = 0 → t.m.objN 0x5800 0x0C / 65536 % 256 = 1 ∧
    t.m.objN 0x5800 0x0D = ((s.m.drawOp ch).order.takeWhile (fun e => !s.m.elementPoisoned s.mem (s.m.drawOp ch) e)).length) ∧
    t.m.jrn.newest = s.m.jrn.newest + 1 ∧
    t.mem = memApply s.mem (((s.m.drawOp ch).run s.mem ((s.m.drawOp ch).order.takeWhile (fun e => !s.m.elementPoisoned s.mem (s.m.drawOp ch) e))).flatMap writesOf))) ∧
  (∀ (s : State) (ch : Nat) (x : Option DrawOp), (2 ≤ ch ∨ s.m.drawState ch ≠ 1) → Runs (.drawComplete ch x) s (fun t => t = s)) ∧
  (∀ (s : State) (ch done : Nat), ch < 2 → s.m.drawState ch = 1 → (s.m.outs.drawing.getD ch {}).since + us 100 ≤ s.m.now →
    s.m.poisonWaits = false →
    ((s.m.drawOp ch).order.take done).all (fun e => !s.m.elementPoisoned s.mem (s.m.drawOp ch) e) = true →
    Runs (.drawHang ch done) s (fun t => t.m.drawState ch = 4 ∧ (ch = 0 → t.m.objN 0x5800 0x0C / 65536 % 256 = 2 ∧
    t.m.objN 0x5800 0x0D = ((s.m.drawOp 0).order.take done).length) ∧ t.m.jrn.newest = s.m.jrn.newest + 1 ∧
    t.mem = memApply s.mem (((s.m.drawOp ch).run s.mem ((s.m.drawOp ch).order.take done)).flatMap writesOf))) ∧
  (∀ (s : State) (ch done : Nat), (2 ≤ ch ∨ s.m.drawState ch ≠ 1 ∨ s.m.now < (s.m.outs.drawing.getD ch {}).since + us 100) →
    Runs (.drawHang ch done) s (fun t => t = s))

/-- Refresh, band polls, poison, fences, self-refresh, upkeep, take-overs and scrub act as R264 to R283 say. -/
def Obligations.DramIsRefreshedPatrolledAndTakenOver : Prop :=
  (∀ (s : State) (p r : Nat) (x : Bool) (n k : Nat), p < 36 → s.m.dram.chans.length = 36 → (s.m.chan p).ranks.length = 2 → r < 2 →
    s.m.chanActive p = true → (s.m.chan p).selfRefresh = 0 →
    ((s.m.chan p).ranks.getD r {}).dueAt + ns (refreshInterval ((s.m.chan p).ranks.getD r {}).band) ≤ s.m.now →
    (((s.m.chan p).ranks.getD r {}).issue n k).pulled = 0 → 7 ≤ (((s.m.chan p).ranks.getD r {}).issue n k).owed →
    s.m.objN (0x7010 + p) 8 < 2 ^ 64 - 1 →
    Runs (.refreshDue p r true x n k) s (fun t => t.m.objN (0x7010 + p) 8 = s.m.objN (0x7010 + p) 8 + 1 ∧
    t.m.objN (0x7010 + p) 9 = 8 ∧ ((t.m.chan p).ranks.getD r {}).owed = ((s.m.chan p).ranks.getD r {}).owed - n ∧
    ((t.m.chan p).ranks.getD r {}).band = ((s.m.chan p).ranks.getD r {}).nextBand)) ∧
  (∀ (s : State) (p r : Nat) (n k : Nat), p < 36 → s.m.dram.chans.length = 36 → (s.m.chan p).ranks.length = 2 → r < 2 →
    s.m.chanActive p = true → (s.m.chan p).selfRefresh = 0 →
    ((s.m.chan p).ranks.getD r {}).dueAt + ns (refreshInterval ((s.m.chan p).ranks.getD r {}).band) ≤ s.m.now →
    (((s.m.chan p).ranks.getD r {}).issue n k).pulled = 0 → (((s.m.chan p).ranks.getD r {}).issue n k).owed < 7 →
    Runs (.refreshDue p r true true n k) s (fun t => t.m.objN (0x7010 + p) 9 = max (s.m.objN (0x7010 + p) 9) (((s.m.chan p).ranks.getD r {}).owed - n + 1) ∧
    ((t.m.chan p).ranks.getD r {}).owed = ((s.m.chan p).ranks.getD r {}).owed - n + 1 ∧
    ((t.m.chan p).ranks.getD r {}).band = ((s.m.chan p).ranks.getD r {}).nextBand)) ∧
  (∀ (s : State) (p r : Nat) (x : Bool) (n k : Nat), p < 36 → s.m.dram.chans.length = 36 → (s.m.chan p).ranks.length = 2 → r < 2 →
    s.m.chanActive p = true → (s.m.chan p).selfRefresh = 0 →
    ((s.m.chan p).ranks.getD r {}).dueAt + ns (refreshInterval ((s.m.chan p).ranks.getD r {}).band) ≤ s.m.now →
    (((s.m.chan p).ranks.getD r {}).issue n k).pulled = 0 →
    Runs (.refreshDue p r false x n k) s (fun t => ((t.m.chan p).ranks.getD r {}).owed = ((s.m.chan p).ranks.getD r {}).owed - n ∧
    ((t.m.chan p).ranks.getD r {}).pulled = 0 ∧ ((t.m.chan p).ranks.getD r {}).band = ((s.m.chan p).ranks.getD r {}).nextBand ∧
    t.m.od = s.m.od)) ∧
  (∀ (s : State) (p r : Nat) (x y : Bool) (n k : Nat), p < 36 → s.m.dram.chans.length = 36 → (s.m.chan p).ranks.length = 2 → r < 2 →
    s.m.chanActive p = true → (s.m.chan p).selfRefresh = 0 →
    ((s.m.chan p).ranks.getD r {}).dueAt + ns (refreshInterval ((s.m.chan p).ranks.getD r {}).band) ≤ s.m.now →
    ((s.m.chan p).ranks.getD r {}).owed ≤ n → 0 < ((s.m.chan p).ranks.getD r {}).pulled + k →
    ((s.m.chan p).ranks.getD r {}).pulled ≤ 8 →
    Runs (.refreshDue p r x y n k) s (fun t => ((t.m.chan p).ranks.getD r {}).owed = 0 ∧
    ((t.m.chan p).ranks.getD r {}).pulled = min 8 (((s.m.chan p).ranks.getD r {}).pulled + k) - 1 ∧ t.m.od = s.m.od)) ∧
  (∀ (s : State) (p r : Nat) (x y : Bool) (n k : Nat), (2 ≤ r ∨ s.m.chanActive p = false ∨ (s.m.chan p).selfRefresh ≠ 0) →
    Runs (.refreshDue p r x y n k) s (fun t => t = s)) ∧
  (∀ (s : State) (bands : List Nat) (p : Nat), p < 36 → s.m.dram.chans.length = 36 → (s.m.chan p).ranks.length = 2 →
    bands.all (· < 5) = true → s.m.settled = true → s.m.dram.mr4At + us 250 ≤ s.m.now → s.m.power ≤ 2 → s.m.chanActive p = true →
    Runs (.mr4Poll bands) s (fun t => t.m.objN (0x7010 + p) 3 = max (bands.getD (2 * p) 2) (bands.getD (2 * p + 1) 2) ∧
    (t.m.chan p).ranks.map Rank.nextBand = [bands.getD (2 * p) 2, bands.getD (2 * p + 1) 2] ∧ t.m.dram.mr4At = s.m.now)) ∧
  (∀ (s : State) (a n : Nat), addressable a = true → s.m.power ≤ 2 → 4 ≤ s.m.boot.step → (s.m.physical a).1 < 36 →
    s.m.dram.chans.length = 36 → (s.m.chan (s.m.physical a).1).poison.length < 4096 →
    s.m.objN (0x7010 + (s.m.physical a).1) 6 < 2 ^ 32 - 1 →
    Runs (.uncorrectableRead a (.other n)) s (fun t => t.m.objN (0x7010 + (s.m.physical a).1) 6 = s.m.objN (0x7010 + (s.m.physical a).1) 6 + 1 ∧
    (t.m.chan (s.m.physical a).1).poison = addNew (s.m.chan (s.m.physical a).1).poison ((s.m.physical a).2 / 64 * 64) ∧
    t.mem = s.mem)) ∧
  (∀ (s : State) (a j : Nat), addressable a = true → s.m.power ≤ 2 → 4 ≤ s.m.boot.step → j < 8 → s.m.jobState j = 2 →
    Runs (.uncorrectableRead a (.hostJob j)) s (fun t => t.m.jobState j = 7 ∧ t.m.objN (0x7110 + j) 0x0E = 7 ∧ t.mem = s.mem)) ∧
  (∀ (s : State) (a j : Nat), addressable a = true → s.m.power ≤ 2 → 4 ≤ s.m.boot.step → j < 8 → s.m.regionState j = 2 →
    Runs (.uncorrectableRead a (.regionUpdate j)) s (fun t => t.m.regionState j = 6 ∧ t.mem = s.mem)) ∧
  (∀ (s : State) (a : Nat) (x : ReadSource), (addressable a = false ∨ 3 ≤ s.m.power ∨ s.m.boot.step < 4) →
    Runs (.uncorrectableRead a x) s (fun t => t = s)) ∧
  (∀ (s : State) (n : Nat), Runs (.fence n) s (fun t => t = { s with m := { s.m with dram := { s.m.dram with fences := s.m.dram.fences ++ [n] } } })) ∧
  (∀ (s : State) (n : Nat), Runs (.fenceComplete n) s (fun t => t = { s with m := { s.m with dram := { s.m.dram with fences := s.m.dram.fences.erase n } } })) ∧
  (∀ (s : State) (p n : Nat), p < s.m.dram.chans.length → s.m.power = 2 → s.m.chanActive p = true → (s.m.chan p).selfRefresh = 0 →
    s.m.objN 0x7000 9 ≤ n → Runs (.idleSelfRefresh p n) s (fun t => (t.m.chan p).selfRefresh = 1 ∧
    (t.m.chan p).tapHeld = (s.m.chan p).tap ∧ t.m.od = s.m.od)) ∧
  (∀ (s : State) (p n : Nat), (s.m.power ≠ 2 ∨ (s.m.chan p).selfRefresh ≠ 0 ∨ n < s.m.objN 0x7000 9) →
    Runs (.idleSelfRefresh p n) s (fun t => t = s)) ∧
  (∀ (s : State) (p : Nat) (n : Int), p < s.m.dram.chans.length → (s.m.chan p).selfRefresh = 1 →
    Runs (.selfRefreshRequest p false n) s (fun t => (t.m.chan p).selfRefresh = 0 ∧ (t.m.chan p).tap = (s.m.chan p).tap)) ∧
  (∀ (s : State) (p : Nat) (n : Int), p < s.m.dram.chans.length → (s.m.chan p).selfRefresh ≠ 0 →
    Runs (.selfRefreshRequest p true n) s (fun t => (t.m.chan p).selfRefresh = 0 ∧ (t.m.chan p).tap = (s.m.chan p).tapHeld ∧
    (t.m.chan p).tapTarget = (s.m.chan p).tapHeld + n)) ∧
  (∀ (s : State) (p : Nat) (x : Bool) (n : Int), (s.m.chan p).selfRefresh = 0 → Runs (.selfRefreshRequest p x n) s (fun t => t = s)) ∧
  (∀ (s : State), s.m.dram.zqAt + ms 32 ≤ s.m.now → s.m.power ≤ 2 →
    Runs (.zqCalibrationTimer) s (fun t => t = { s with m := { s.m with dram := { s.m.dram with zqAt := s.m.now, zqRuns := s.m.dram.zqRuns + 1 } } })) ∧
  (∀ (s : State), (s.m.now < s.m.dram.zqAt + ms 32 ∨ 3 ≤ s.m.power) → Runs (.zqCalibrationTimer) s (fun t => t = s)) ∧
  (∀ (s : State) (l : List Int) (p : Nat), p < 36 → s.m.dram.chans.length = 36 → s.m.dram.oscAt + ms 16 ≤ s.m.now → s.m.power ≤ 2 →
    s.m.chanActive p = true → Runs (.oscillatorMeasurement l) s (fun t => (t.m.chan p).tapTarget = (s.m.chan p).tap + l.getD p 0 ∧
    (t.m.chan p).tap = (s.m.chan p).tap ∧ t.m.dram.oscAt = s.m.now)) ∧
  (∀ (s : State) (l k q : Nat) (x : List (Nat × Nat)), s.m.testing = none → s.m.dram.takeOver = none →
    s.m.dram.waiting = (l, k) :: x → s.m.power ≤ 2 → 8 ≤ s.m.boot.step → s.m.boot.shut = 0 → s.m.coreUp 3 = true → q < 36 →
    (upTo 36).find? (fun p => s.m.objN (0x7010 + p) 1 = 0 && !s.m.dram.failed.contains p) = some q →
    Runs (.takeOverStart) s (fun t => t.m.objN 0x7000 5 = 1 ∧ t.m.objN (0x7010 + q) 1 = 2 ∧ t.m.dram.waiting = x ∧
    t.m.dram.takeOver.map (fun (y : TakeOver) => (y.logical, y.spare, y.cause, y.phase)) = some (l, some q, k, 1) ∧
    t.m.jrn.newest = s.m.jrn.newest + 1)) ∧
  (∀ (s : State), (s.m.dram.takeOver.isSome = true ∨ s.m.dram.waiting = [] ∨ 3 ≤ s.m.power ∨ s.m.coreUp 3 = false) →
    Runs (.takeOverStart) s (fun t => t = s)) ∧
  (∀ (s : State) (l : Nat) (w : WriteReq) (p : Put) (m : Mach), Reaches s 0x7060 1 w p m → p.n = 0x4C430900 + l →
    m.dram.takeOver = none → l ∉ m.dram.waiting.map Prod.fst → m.objN (0x7040 + l) 1 ≠ 0xFF →
    Runs (.retireRequest w) s (fun t => t.m.dram.waiting = m.dram.waiting ++ [(l, 3)] ∧ t.m.od = m.od ∧ t.mem = s.mem)) ∧
  (∀ (s : State) (w : WriteReq) (p : Put) (m : Mach), Reaches s 0x7060 1 w p m → m.dram.takeOver.isSome = true →
    Runs (.retireRequest w) s (fun t => SameBut t.m m ∧ t.mem = s.mem)) ∧
  (∀ (s : State) (l : List Nat) (q : Nat) (y : TakeOver), s.m.dram.takeOver = some y → y.phase = 1 → y.spare = some q → q < 36 →
    2 ≤ l.length → s.m.objN (0x7010 + q) 0x0A < 2 ^ 32 - 2 →
    Runs (.spareTrained l) s (fun t => t.m.dram.failed.contains q = true ∧ t.m.objN (0x7010 + q) 1 = s.m.objN (0x7010 + q) 1 ∧
    t.m.objN (0x7010 + q) 0x0A = s.m.objN (0x7010 + q) 0x0A + 2 ∧ t.m.objN 0x7000 5 = 0 ∧ t.m.dram.takeOver = none ∧
    t.m.dram.waiting = (y.logical, if y.dead then 2 else y.cause) :: s.m.dram.waiting)) ∧
  (∀ (s : State) (l : List Nat) (q : Nat) (y : TakeOver), s.m.dram.takeOver = some y → y.phase = 1 → y.spare = some q → q < 36 →
    s.m.dram.chans.length = 36 → l.length < 2 → s.m.objN (0x7010 + q) 0x0A < 2 ^ 32 - 1 →
    Runs (.spareTrained l) s (fun t => t.m.dram.takeOver = some { y with phase := if y.dead then 5 else 2 } ∧
    (t.m.chan q).trained = 5 ∧ t.m.objN (0x7010 + q) 0x0A = s.m.objN (0x7010 + q) 0x0A + l.length ∧
    t.m.objN (0x7010 + q) 1 = s.m.objN (0x7010 + q) 1 ∧ t.m.objN 0x7000 5 = if y.dead then 4 else 2)) ∧
  (∀ (s : State) (l : List Nat), s.m.dram.takeOver = none → Runs (.spareTrained l) s (fun t => t = s)) ∧
  (∀ (s : State) (l : List Nat), s.m.dram.takeOver.map TakeOver.phase = some 2 →
    Runs (.copyInComplete l) s (fun t => t.m.dram.takeOver.map TakeOver.phase = some 3 ∧ t.mem = s.mem)) ∧
  (∀ (s : State) (l : List Nat), s.m.dram.takeOver.map TakeOver.phase ≠ some 2 → Runs (.copyInComplete l) s (fun t => t = s)) ∧
  (∀ (s : State) (p n k : Nat), p < s.m.dram.chans.length → s.m.power ≤ 2 → s.m.objN 0x2200 1 = 0 → s.m.chanActive p = true →
    s.m.armedAt 8 p = false → s.m.armedAt 10 p = false → s.m.objN (0x7010 + p) 4 + n < 2 ^ 64 →
    s.m.objN (0x7010 + p) 5 + k < 2 ^ 64 →
    Runs (.patrolScrub p ⟨n, k, false⟩) s (fun t => (t.m.chan p).scrub = (if (s.m.chan p).scrub + 64 ≥ (s.m.fixedOn p).length * 0x1000000 then 0 else (s.m.chan p).scrub + 64) ∧
    (t.m.chan p).clipScrub = (if (s.m.chan p).clipScrub + 64 ≥ (s.m.clipExtentsOn p).length * 0x1000000 then 0 else (s.m.chan p).clipScrub + 64) ∧
    t.m.objN (0x7010 + p) 4 = s.m.objN (0x7010 + p) 4 + n ∧ t.m.objN (0x7010 + p) 5 = s.m.objN (0x7010 + p) 5 + k ∧
    t.mem = s.mem)) ∧
  (∀ (s : State) (p n k l : Nat), s.m.backs p = some l → s.m.chanActive p = true → s.m.objN (0x7040 + l) 1 = p → p < 0xFF →
    s.m.power ≤ 2 → s.m.dram.takeOver = none → l ∉ s.m.dram.waiting.map Prod.fst →
    Runs (.patrolScrub p ⟨n, k, true⟩) s (fun t => t.m.dram.waiting = s.m.dram.waiting ++ [(l, 2)] ∧ t.m.od = s.m.od ∧
    t.mem = s.mem)) ∧
  (∀ (s : State) (p : Nat) (x : ScrubReport), (3 ≤ s.m.power ∨ 1 ≤ s.m.objN 0x2200 1 ∧
    x.silent = false ∨ s.m.chanActive p = false) → Runs (.patrolScrub p x) s (fun t => t = s))

/-- The TX and RX of a lane move as R291 and R297 to R302 say. -/
def Obligations.LaneStatesFollowTheirEvents : Prop :=
  (∀ (s : State) (l : Nat), s.m.tx l = 2 → l < s.m.lanes.length → Runs (.laneSleepSent l) s (fun t => t.m.tx l = 1 ∧
    t.m.rx l = (if s.m.rx l = 4 then 4 else 1) ∧ (t.m.lane l).deepAt = s.m.now ∧ t.m.out.length = s.m.out.length + 16)) ∧
  (∀ (s : State) (l : Nat), s.m.rx l = 4 → Runs (.laneSleep l 0) s (fun t => t.m.rx l = 1 ∧ t.m.tx l = s.m.tx l)) ∧
  (∀ (s : State) (l n : Nat), s.m.rx l = 4 → n ≠ 0 → l < s.m.lanes.length → Runs (.laneSleep l n) s (fun t => t.m.rx l = 4 ∧
    (t.m.lane l).sleepAgo = some 0)) ∧
  (∀ (s : State) (l : Nat), s.m.tx l = 3 → l < s.m.lanes.length →
    Runs (.wakePatternDone l) s (fun t => t.m.tx l = (if (s.m.lane l).pllDone then 4 else 3) ∧ (t.m.lane l).patternDone = true)) ∧
  (∀ (s : State) (l : Nat), s.m.tx l = 3 → l < s.m.lanes.length →
    Runs (.pllLocked l) s (fun t => t.m.tx l = (if (s.m.lane l).patternDone then 4 else 3) ∧ (t.m.lane l).pllDone = true)) ∧
  (∀ (s : State) (l : Nat), s.m.rx l = 2 → l < s.m.lanes.length → Runs (.cdrLocked l) s (fun t => t.m.rx l = 3 ∧
    (t.m.lane l).good = 0 ∧ (t.m.lane l).huntAt = s.m.now)) ∧
  (∀ (s : State) (l : Nat), (s.m.lane l).pendingWake = true → s.m.tx l = 1 → (s.m.lane l).deepAt + us 2 ≤ s.m.now →
    Runs (.deepResidencyEnd l) s (fun t => t.m.tx l = 3 ∧ t.m.rx l = 2 ∧
    (t.m.lane l).pendingWake = (decide (s.m.lanes.length ≤ l) && (s.m.lane l).pendingWake))) ∧
  (∀ (s : State) (c : Nat), c < 96 → s.m.power ≤ 1 → s.m.laneMode (2 * c) = 0 → s.m.laneMode (2 * c + 1) = 0 → s.m.tx (2 * c) = 4 →
    s.m.tx (2 * c + 1) = 4 → s.m.deepHolds (2 * c) = true → s.m.deepHolds (2 * c + 1) = true →
    Runs (.deepIdleTimeout c) s (fun t => t.m.tx (2 * c) = 2 ∧ t.m.tx (2 * c + 1) = 2)) ∧
  (∀ (s : State) (l : Nat) (activity sleepLeft : Bool), l < 192 → s.m.lanes.length = 192 → s.m.laneMode l = 0 → s.m.power ≤ 1 →
    s.m.power_.stop ≠ some 3 → s.m.power_.entry = none → s.m.tx l = 1 → s.m.rx l = 1 → (s.m.lane l).deepAt + us 2 ≤ s.m.now →
    s.m.objN (0x6010 + l) 0x16 < 4294967295 → Runs (.wakeRecognised l activity sleepLeft) s (fun t => t.m.tx l = 3 ∧
    t.m.rx l = 2 ∧ t.m.objN (0x6010 + l) 0x16 = s.m.objN (0x6010 + l) 0x16 + 1)) ∧
  (∀ (s : State) (l : Nat) (activity sleepLeft : Bool), l < 192 → s.m.lanes.length = 192 → s.m.laneMode l = 0 → s.m.power ≤ 1 →
    s.m.power_.stop ≠ some 3 → s.m.power_.entry = none → s.m.tx l = 1 → s.m.now < (s.m.lane l).deepAt + us 2 → s.m.rx l = 1 →
    s.m.objN (0x6010 + l) 0x16 < 4294967295 → Runs (.wakeRecognised l activity sleepLeft) s (fun t => t.m.tx l = 1 ∧
    (t.m.lane l).pendingWake = true ∧ t.m.objN (0x6010 + l) 0x16 = s.m.objN (0x6010 + l) 0x16 + 1))

/-- 64 valid headers lock a lane, 16 invalid ones of 64 lose it, and each is counted. -/
def Obligations.LaneLockAndHeaderErrors : Prop :=
  (∀ (s : State) (l : Nat) (a : Level) (x : List Level), l < 192 → l < s.m.lanes.length → s.m.boot.shut = 0 → x.length = 64 →
    (s.m.lane l).begun = [] → s.m.rx l = 3 → (s.m.lane l).slip = false → (a = .minus1 ∨ a = .plus3) →
    (s.m.lane l).badHeaders = 0 → (s.m.lane l).good < 63 → Runs (.blockReceived l a x) s (fun t => t.m.rx l = 3 ∧
    (t.m.lane l).good = (s.m.lane l).good + 1 ∧ (t.m.lane l).begun = [])) ∧
  (∀ (s : State) (l : Nat) (a : Level) (x : List Level), l < 192 → l < s.m.lanes.length → s.m.boot.shut = 0 → x.length = 64 →
    (s.m.lane l).begun = [] → s.m.rx l = 3 → (s.m.lane l).slip = false → (a = .minus1 ∨ a = .plus3) →
    (s.m.lane l).badHeaders = 0 → (s.m.lane l).good = 63 → Runs (.blockReceived l a x) s (fun t => t.m.rx l = 4)) ∧
  (∀ (s : State) (l : Nat) (a : Level) (x : List Level), l < 192 → l < s.m.lanes.length → s.m.boot.shut = 0 → x.length = 64 →
    (s.m.lane l).begun = [] → s.m.rx l = 3 → (s.m.lane l).slip = false → (a = .minus3 ∨ a = .plus1) →
    Runs (.blockReceived l a x) s (fun t => t.m.rx l = 3 ∧ (t.m.lane l).good = 0 ∧ (t.m.lane l).slip = true)) ∧
  (∀ (s : State) (l : Nat) (a : Level) (x : List Level), l < 192 → l < s.m.lanes.length → s.m.boot.shut = 0 → x.length = 64 →
    (s.m.lane l).begun = [] → s.m.rx l = 3 → (s.m.lane l).slip = true → Runs (.blockReceived l a x) s (fun t => t.m.rx l = 3 ∧
    (t.m.lane l).begun = x ∧ (t.m.lane l).slip = false ∧ (t.m.lane l).good = (s.m.lane l).good)) ∧
  (∀ (s : State) (l : Nat) (a : Level) (x : List Level), l < 192 → l < s.m.lanes.length → s.m.boot.shut = 0 → x.length = 64 →
    (s.m.lane l).begun = [] → s.m.rx l = 4 → (s.m.lane l).slip = false → (s.m.lane l).arriving = none →
    (a = .minus3 ∨ a = .plus1) → (((s.m.lane l).window.take 63).filter (fun v => !v)).length < 15 →
    s.m.objN (0x6010 + l) 6 < 18446744073709551615 → Runs (.blockReceived l a x) s (fun t => t.m.rx l = 4 ∧
    t.m.objN (0x6010 + l) 6 = s.m.objN (0x6010 + l) 6 + 1 ∧ (t.m.lane l).delivered = none ∧ (t.m.lane l).erased = true)) ∧
  (∀ (s : State) (l : Nat) (a : Level) (x : List Level), l < 192 → l < s.m.lanes.length → s.m.boot.shut = 0 → x.length = 64 →
    (s.m.lane l).begun = [] → s.m.rx l = 4 → (s.m.lane l).slip = false → (a = .minus3 ∨ a = .plus1) →
    15 ≤ (((s.m.lane l).window.take 63).filter (fun v => !v)).length → (s.m.lane l).sleepAgo = none →
    s.m.objN (0x6010 + l) 7 < 4294967295 → Runs (.blockReceived l a x) s (fun t => t.m.rx l = 3 ∧
    t.m.objN (0x6010 + l) 7 = s.m.objN (0x6010 + l) 7 + 1 ∧ (t.m.lane l).lost = true)) ∧
  (∀ (s : State) (l : Nat), l < 192 → l < s.m.lanes.length → l / 2 < s.m.tiles.chains.length → s.m.coreUp 2 = true → s.m.rx l = 3 →
    (s.m.lane l).alarmed = false → (s.m.lane l).huntAt + us (s.m.objN 0x6000 6) ≤ s.m.now →
    Runs (.huntAlarm l) s (fun t => (t.m.lane l).alarmed = true ∧ (t.m.chain (l / 2)).window.isSome = true))

/-- Lane mode writes, the test-pattern checker and lane injection act as R305 to R307 say. -/
def Obligations.LaneModesAndTestPatterns : Prop :=
  (∀ (s : State) (l : Nat) (w : WriteReq) (p : Put) (m : Mach), Reaches s (0x6010 + l) 1 w p m → l < 192 →
    (p.n = 0 ∨ p.n = 3 ∨ m.chainMapped (l / 2) = false) → Runs (.laneModeWrite l w) s (fun t => t.m.laneMode l = p.n ∧
    t.mem = s.mem ∧ t.life = s.life)) ∧
  (∀ (s : State) (l : Nat) (w : WriteReq) (p : Put) (m : Mach), Reaches s (0x6010 + l) 1 w p m → l < 192 → (p.n = 1 ∨ p.n = 2) →
    m.chainMapped (l / 2) = true → Runs (.laneModeWrite l w) s (fun t => SameBut t.m m ∧ t.mem = s.mem ∧ t.life = s.life)) ∧
  (∀ (s : State) (l : Nat) (w : WriteReq) (p : Put) (m : Mach), Reaches s (0x6010 + l) 0x11 w p m → l < 192 →
    Runs (.prbsCounterClear l w) s (fun t => t.m.objN (0x6010 + l) 0x0F = 0 ∧ t.m.objN (0x6010 + l) 0x10 = 0)) ∧
  (∀ (s : State) (l : Nat) (x : Level) (a b : Bool), Level.bits x = [a, b] → s.m.rx l = 5 → s.m.laneMode l = 1 →
    s.m.objB (0x6010 + l) 0x0E = true → (s.m.lane l).flip = false → (s.m.lane l).checker.hist.length = 31 →
    (s.m.lane l).checker.errors.length < 62 → s.m.objN (0x6010 + l) 0x0F < 18446744073709551614 →
    s.m.objN (0x6010 + l) 0x10 < 18446744073709551614 →
    Runs (.checkerSync l [x]) s (fun t => t.m.objN (0x6010 + l) 0x0F = s.m.objN (0x6010 + l) 0x0F + 2 ∧
    t.m.objN (0x6010 + l) 0x10 = s.m.objN (0x6010 + l) 0x10 + bit (a != prbsNext 1 (s.m.lane l).checker.hist) + bit (b != prbsNext 1 (prbsNext 1 (s.m.lane l).checker.hist :: (s.m.lane l).checker.hist.take 30)) ∧
    t.m.objB (0x6010 + l) 0x0E = true ∧ t.m.out.length = s.m.out.length + 1)) ∧
  (∀ (s : State) (l : Nat) (w : WriteReq) (p : Put) (m : Mach), Reaches s (0x6010 + l) 0x14 w p m → l < 192 → l < m.lanes.length →
    ofBE w.value = 0x4C430061 → p.n = 0x4C430061 → m.injectionAllowed s.ctx = true → m.objN (0x6010 + l) 0x12 ≠ 5 →
    Runs (.laneInjectionStart l w) s (fun t => (t.m.lane l).armed = m.objN (0x6010 + l) 0x12 ∧
    t.m.objN (0x6010 + l) 0x15 = m.objN (0x6010 + l) 0x15)) ∧
  (∀ (s : State) (l : Nat) (w : WriteReq) (p : Put) (m : Mach), Reaches s (0x6010 + l) 0x14 w p m → l < 192 → l < m.lanes.length →
    ofBE w.value = 0x4C430061 → p.n = 0x4C430061 → m.injectionAllowed s.ctx = true → m.objN (0x6010 + l) 0x12 = 5 → m.tx l = 4 →
    m.objN (0x6010 + l) 0x15 < 4294967295 → Runs (.laneInjectionStart l w) s (fun t => (t.m.lane l).armed = 0 ∧
    t.m.objN (0x6010 + l) 0x15 = m.objN (0x6010 + l) 0x15 + 1)) ∧
  (∀ (s : State) (l : Nat) (w : WriteReq) (p : Put) (m : Mach), Reaches s (0x6010 + l) 0x14 w p m → l < 192 →
    ofBE w.value = 0x4C430061 → p.n = 0x4C430061 → m.injectionAllowed s.ctx = false →
    Runs (.laneInjectionStart l w) s (fun t => SameBut t.m m ∧ t.mem = s.mem)) ∧
  (∀ (s : State) (l : Nat) (w : WriteReq) (p : Put) (m : Mach), Reaches s (0x6010 + l) 0x14 w p m → l < 192 → l < m.lanes.length →
    ofBE w.value = 0x4C430060 → p.n = 0x4C430060 → (m.lane l).armed ≠ 0 →
    Runs (.laneInjectionStop l w) s (fun t => (t.m.lane l).armed = 0 ∧ (t.m.lane l).flip = false ∧ (t.m.lane l).badHeaders = 0)) ∧
  (∀ (s : State) (l : Nat), s.m.injectionAllowed s.ctx = true → l < s.m.lanes.length → (s.m.lane l).armed = 2 →
    (s.m.lane l).injectAt + bitsTime (s.m.objN (0x6010 + l) 0x13) ≤ s.m.now →
    Runs (.laneInjectionPeriod l) s (fun t => (t.m.lane l).flip = true ∧ (t.m.lane l).injectAt = s.m.now ∧ t.m.od = s.m.od))

/-- A lane event changes the lane it names, and nothing else of the module. -/
def Obligations.LaneEventsChangeTheirLaneOnly : Prop :=
  (∀ (s t : State) (l n : Nat) (c : Instr), l < 192 → c ∈ ([.cdrLocked l, .laneInjectionPeriod l, .deepResidencyEnd l,
    .laneSleepSent l, .wakePatternDone l, .pllLocked l, .laneSleep l n] : List Instr) → exec c s = .next t →
    t = { s with m := { s.m with od := t.m.od, lanes := t.m.lanes, out := t.m.out, free := t.m.free } } ∧
    ObjectsBut [(0x6010 + l, 0x6010 + l)] s.m t.m ∧ ∀ k, k ≠ l → t.m.lane k = s.m.lane k) ∧
  (∀ (s t : State) (l : Nat) (bits : List Level), l < 192 → s.m.testing = none → exec (.checkerSync l bits) s = .next t →
    t = { s with m := { s.m with od := t.m.od, lanes := t.m.lanes, out := t.m.out, free := t.m.free } } ∧
    ObjectsBut [(0x6010 + l, 0x6010 + l)] s.m t.m ∧ ∀ k, k ≠ l → t.m.lane k = s.m.lane k) ∧
  (∀ (s t : State) (l : Nat), exec (.huntAlarm l) s = .next t →
    t = { s with m := { s.m with lanes := t.m.lanes, tiles := t.m.tiles } } ∧ ∀ k, k ≠ l → t.m.lane k = s.m.lane k) ∧
  (∀ (s t : State) (k : Nat), exec (.deepIdleTimeout k) s = .next t →
    t = { s with m := { s.m with od := t.m.od, lanes := t.m.lanes } } ∧ ObjectsBut [(0x6010 + 2 * k, 0x6011 + 2 * k)] s.m t.m) ∧
  (∀ (s t : State) (l : Nat) (a : Level) (x : List Level), s.m.rx l = 3 → s.m.boot.shut = 0 →
    exec (.blockReceived l a x) s = .next t →
    t = { s with m := { s.m with od := t.m.od, koa := t.m.koa, jrn := t.m.jrn, lanes := t.m.lanes, tiles := t.m.tiles, out := t.m.out, free := t.m.free } } ∧
    ObjectsBut [(0x1202, 0x1202), (0x6010 + l, 0x6010 + l), (0x6110 + l / 2, 0x6110 + l / 2)] s.m t.m)

/-- A tile enters service through ENUM_REPLY, delay probes and CONFIG_ACK, and leaves by its lost time. -/
def Obligations.TilesAreFoundProbedAndLoaded : Prop :=
  (∀ (s : State) (r : EnumReply), s.m.boot.shut ≠ 2 → s.m.coreUp 2 = true → r.c < s.m.tiles.chains.length → r.c < 96 →
    r.hop < s.m.chainLength r.c → s.m.chainLength r.c ≤ 10 → r.fromB = false → r.last = false → s.m.tileState r.c r.hop = 0 →
    (s.m.chain r.c).fromA = [] → (s.m.chain r.c).fromB = [] → Runs (.enumReply r) s (fun t => t.m.tileState r.c r.hop = 1 ∧
    t.m.objN 0x6181 2 (tileBank r.c r.hop) = r.serial ∧ t.m.fedFromB r.c r.hop = false ∧ (t.m.chain r.c).fromA = [r.hop])) ∧
  (∀ (s : State) (r : EnumReply), s.m.boot.shut ≠ 2 → s.m.coreUp 2 = true → r.c < 96 → s.m.chainLength r.c ≤ r.hop → 10 ≤ r.hop →
    r.fromB = false → r.last = false → s.m.objN 0x1200 4 ≠ 0 →
    Runs (.enumReply r) s (fun t => (t.m.jrn.recs.head?.map Rec.code) = some 0x8017 ∧ ObjectsBut [(0x1202, 0x1202)] s.m t.m ∧
    t.m.tiles = s.m.tiles)) ∧
  (∀ (s : State) (c pos id roundTrip : Nat), s.m.boot.shut ≠ 2 → s.m.coreUp 2 = true → c < s.m.tiles.chains.length →
    pos < (s.m.chain c).tiles.length → c < 96 → pos < 10 → id < 16 → s.m.tileState c pos = 1 →
    (s.m.tile c pos).probes.length = 15 → (((s.m.tile c pos).probes.sum + roundTrip) / 16 - ns 40) / 2 ≤ ns 3000 →
    Runs (.delayReply c pos id roundTrip) s (fun t => t.m.objN 0x6181 6 (tileBank c pos) = psOf (((roundTrip + (s.m.tile c pos).probes.sum) / 16 - ns 40) / 2) ∧
    (t.m.tile c pos).delay = ((roundTrip + (s.m.tile c pos).probes.sum) / 16 - ns 40) / 2 ∧ (s.m.fedFromB c pos = false →
    (t.m.tile c pos).cA = some (t.m.tile c pos).delay) ∧ t.m.tileState c pos = 1)) ∧
  (∀ (s : State) (c pos id roundTrip : Nat), s.m.boot.shut ≠ 2 → s.m.coreUp 2 = true → c < s.m.tiles.chains.length →
    pos < (s.m.chain c).tiles.length → c < 96 → pos < 10 → id < 16 → s.m.tileState c pos = 1 →
    (s.m.tile c pos).probes.length = 15 → ns 3000 < (((s.m.tile c pos).probes.sum + roundTrip) / 16 - ns 40) / 2 →
    Runs (.delayReply c pos id roundTrip) s (fun t => t.m.tileState c pos = 7)) ∧
  (∀ (s : State) (c pos reg value : Nat), s.m.coreUp 2 = true → c < s.m.tiles.chains.length → pos < (s.m.chain c).tiles.length →
    s.m.tileState c pos = 1 → reg = 1 → value = symbolsOf (s.m.tile c pos).delay →
    s.m.objN 0x6181 6 (tileBank c pos) = psOf (s.m.tile c pos).delay → (s.m.tile c pos).gainInFlash = true →
    Runs (.configAck c pos reg value) s (fun t => t.m.tileState c pos = 2 ∧ (t.m.tile c pos).gainLoad.since = some s.m.now ∧
    t.mem = s.mem)) ∧
  (∀ (s : State) (c pos version frame : Nat) (temperature : Int) (flags : Nat), c < 96 → pos < 10 → c < s.m.tiles.chains.length →
    pos < (s.m.chain c).tiles.length → s.m.tileState c pos ≠ 0 →
    Runs (.status c pos version frame temperature flags) s (fun t => t.m.obj 0x6181 7 (tileBank c pos) = temperature ∧
    t.m.objN 0x6181 8 (tileBank c pos) = flags ∧ t.m.objN 0x6181 0x0A (tileBank c pos) = frame ∧
    t.m.objN 0x6181 0x0B (tileBank c pos) = version ∧ (t.m.tile c pos).heard = true ∧ (t.m.tile c pos).misses = 0)) ∧
  (∀ (s : State) (c pos : Nat), s.m.boot.shut ≠ 2 → s.m.coreUp 2 = true → c < s.m.tiles.chains.length → s.m.tileState c pos = 5 →
    (s.m.tile c pos).lostAt + ms (s.m.objN 0x6100 4) ≤ s.m.now →
    Runs (.lostTimeExpiry c pos) s (fun t => t.m.tileState c pos = 0 ∧ t.m.objN 0x6181 2 (tileBank c pos) = 0)) ∧
  (∀ (s : State) (c : Nat), s.m.coreUp 2 = true → c < 96 → c < s.m.tiles.chains.length → (s.m.chain c).probeAt + sec 10 ≤ s.m.now →
    Runs (.reProbeTimer c) s (fun t => (t.m.chain c).probeAt = s.m.now ∧ (t.m.chain c).ringAtProbe = (s.m.chain c).ring))

/-- Segments, COMMIT and WITHDRAW wait for their acknowledgement and are sent again as R318 and R319 say. -/
def Obligations.SegmentsAndCommitsAreAcknowledged : Prop :=
  (∀ (s : State) (l : Nat) (g : Seg), l < 192 → l < s.m.lanes.length → s.m.tx l = 4 → (s.m.lane l).naked = [] →
    (s.m.lane l).cur = none → (s.m.lane l).staged = [g] → g.kind = 0 → g.version = 1 → s.m.armedAt 11 (l / 2) = false →
    s.m.objN 0x6401 1 = 0 → Runs (.segmentSent l) s (fun t => (t.m.lane l).staged = [] ∧
    (t.m.lane l).unacked = (s.m.lane l).unacked ++ [(g, s.m.now + g.time)] ∧ (t.m.lane l).cur = some (g.pos, 1) ∧
    t.m.sentOn l (.segStart g) = true)) ∧
  (∀ (s : State) (c pos version kind tag n : Nat), c < 96 → pos < 10 → kind < 7 →
    Runs (.ack c pos version kind tag n) s (fun t => (t.m.lane (s.m.feedLane c pos)).unacked = (s.m.lane (s.m.feedLane c pos)).unacked.filter (fun g => !(g.1.of pos version kind tag && decide (g.1.seq ≤ n))))) ∧
  (∀ (s : State) (c pos version tag n : Nat) (v : Pour), c < 96 → pos < 10 → s.m.heat.pours.find? (fun x => x.c = c ∧
    x.pos = pos) = some v → (v.ver version).state = 5 → (v.ver version).rendered = true → (v.ver version).stopped = false →
    s.m.timeWord ≤ s.m.commitAt → tag = s.m.heat.number % 256 → (s.m.lane (s.m.feedLane c pos)).staged = [] →
    (s.m.lane (s.m.feedLane c pos)).naked = [] → (s.m.lane (s.m.feedLane c pos)).unacked.all (fun g => g.1.seq ≤ n) = true →
    s.m.feedLane c pos / 2 = c →
    Runs (.ack c pos version 0 tag n) s (fun t => (t.m.pour? v.panel).map (fun x => (x.ver version).state) = some 6)) ∧
  (∀ (s : State) (c pos version tag n : Nat), c < 96 → pos < 10 →
    Runs (.ack c pos version 7 tag n) s (fun t => (t.m.tile c pos).commits = (s.m.tile c pos).commits.filter (fun k => !(decide (k.version = version ∧
    k.heat % 256 = tag))))) ∧
  (∀ (s : State) (c pos version kind tag n : Nat) (g : Seg) (at_ : Nat), c < 96 → s.m.feedLane c pos < s.m.lanes.length →
    (s.m.lane (s.m.feedLane c pos)).unacked.find? (fun x => x.1.of pos version kind tag && x.1.seq = n) = some (g, at_) →
    s.m.timeToResend (s.m.feedLane c pos) g = true → s.m.objN (0x6110 + c) 7 < 18446744073709551615 →
    Runs (.nak c pos version kind tag n) s (fun t => (t.m.lane (s.m.feedLane c pos)).naked = (s.m.lane (s.m.feedLane c pos)).naked ++ [g] ∧
    t.m.objN (0x6110 + c) 7 = s.m.objN (0x6110 + c) 7 + 1)) ∧
  (∀ (s : State) (l pos version kind n : Nat) (g : Seg) (at_ : Nat), l < s.m.lanes.length → (s.m.lane l).unacked = [(g, at_)] →
    g.pos = pos → g.kind = kind → g.version = version → g.seq = n → l < 192 → at_ + us 20 ≤ s.m.now →
    s.m.timeToResend l g = true → (s.m.chain (l / 2)).brk = none → s.m.objN (0x6110 + l / 2) 7 < 18446744073709551615 →
    Runs (.segmentAckTimeout l pos version kind n) s (fun t => (t.m.lane l).naked = (s.m.lane l).naked ++ [g] ∧
    (t.m.lane l).unacked = [] ∧ t.m.objN (0x6110 + l / 2) 7 = s.m.objN (0x6110 + l / 2) 7 + 1)) ∧
  (∀ (s : State) (c pos : Nat) (k : CommitSent), (s.m.tile c pos).commits = [k] → k.sentAt + us 10 ≤ s.m.now →
    s.m.timeWord + us 20 ≤ s.m.tickAt k.heat → k.withdraw = false → s.m.tx (s.m.feedLane c pos) = 4 →
    c < s.m.tiles.chains.length → pos < (s.m.chain c).tiles.length → s.m.objN 0x6401 1 = 0 →
    Runs (.commitResend c pos) s (fun t => (t.m.tile c pos).commits = [{ k with sentAt := s.m.now }] ∧
    t.m.sentOn (s.m.feedLane c pos) (.commit pos k.version k.heat) = true)) ∧
  (∀ (s : State) (c pos : Nat) (k : CommitSent), s.m.coreUp 2 = true → (s.m.chain c).brk = none → c < s.m.tiles.chains.length →
    pos < (s.m.chain c).tiles.length → c < 96 → pos < 10 → (s.m.tile c pos).commits = [k] →
    s.m.tickAt k.heat ≤ s.m.timeWord + us 20 → s.m.objN 0x6181 9 (tileBank c pos) < 4294967295 →
    Runs (.commitDeadline c pos) s (fun t => (t.m.tile c pos).commits = [] ∧
    t.m.objN 0x6181 9 (tileBank c pos) = s.m.objN 0x6181 9 (tileBank c pos) + 1 ∧
    ((t.m.chain c).window.map (fun w => w.timeouts.contains (k.heat, pos))) = some true)) ∧
  (∀ (s : State) (c h slot : Nat), c < 96 → c < s.m.tiles.chains.length → s.m.scheduled = true → s.m.startTick = none →
    slot < s.m.slotsOf h → s.m.timeWord < s.m.slotAt h slot → s.m.slotAt h slot ≤ s.m.timeWord + ns 4000 → s.m.tx (2 * c) = 4 →
    s.m.objN 0x6401 1 = 0 → Runs (.tickSend c h slot) s (fun t => (t.m.chain c).ringSeq = ((s.m.chain c).ringSeq + 1) % 65536 ∧
    t.m.sentOn (2 * c) (.tick (slot = 0) slot (s.m.slotsOf h) h ((s.m.slotAt h slot - s.m.timeWord) / 32) (((s.m.chain c).ringSeq + 1) % 65536)) = true))

/-- Breaks, reports, un-heals and the coalescing window follow R330 to R336. -/
def Obligations.ChainsBreakHealAndReport : Prop :=
  (∀ (s : State) (c pos : Nat), s.m.boot.shut ≠ 2 → s.m.coreUp 2 = true → c < 96 → pos < 10 → c < s.m.tiles.chains.length →
    (s.m.chain c).brk = none → (s.m.chain c).aReach = none → (s.m.chain c).window = none →
    Runs (.fault c pos false 2) s (fun t => (t.m.chain c).brk = some ⟨some (pos + 1), none, s.m.now, false, none⟩ ∧
    (t.m.chain c).window = some ⟨s.m.now, 1, []⟩)) ∧
  (∀ (s : State) (c pos : Nat) (fromB : Bool) (code : Nat), s.m.boot.shut ≠ 2 → s.m.coreUp 2 = true → c < 96 → pos < 10 → 5 ≤ code →
    code ≤ 8 → s.m.jrn.rates = [] → s.m.objN 0x1200 4 ≠ 0 →
    Runs (.fault c pos fromB code) s (fun t => t.m.jrn.newest = s.m.jrn.newest + 1 ∧
    t.m.jrn.recs.head?.map (fun (r : Rec) => (r.code, r.detail)) = some (0x8019, [(1, c), (1, pos), (1, code)]) ∧
    t.m.tiles = s.m.tiles)) ∧
  (∀ (s : State) (c : Nat) (b : Break), s.m.boot.shut ≠ 2 → s.m.coreUp 2 = true → c < s.m.tiles.chains.length →
    (s.m.chain c).brk = some b → b.bFirst = none → b.asked = false → b.since + us 200 ≤ s.m.now → s.m.rx (2 * c + 1) = 4 →
    s.m.tx (2 * c + 1) = 4 → s.m.objN 0x6401 1 = 0 → s.m.chainCalibrating c = false →
    Runs (.bSideSilent c) s (fun t => (t.m.chain c).brk = some { b with asked := true } ∧
    t.m.sentOn (2 * c + 1) (.enumerate 0 1 (((s.m.chain c).enumSeq + 1) % 65536)) = true)) ∧
  (∀ (s : State) (c at_ : Nat), s.m.coreUp 2 = true → c < s.m.tiles.chains.length → (s.m.chain c).wholeSince = some at_ →
    s.m.chainState c = 3 → at_ + ms (s.m.objN 0x6100 6) ≤ s.m.now →
    Runs (.unHealDelayExpiry c) s (fun t => (t.m.chain c).unhealReady = true ∧ t.m.chainState c = 3)) ∧
  (∀ (s : State) (c : Nat), s.m.coreUp 2 = true → c < s.m.tiles.chains.length → s.m.chainState c = 3 →
    (s.m.chain c).unhealReady = true → (s.m.chain c).unhealAt = none → s.m.heat.running = true →
    s.m.commitAt + us 100 ≤ s.m.timeWord → s.m.timeWord < s.m.tickAt s.m.heat.number →
    Runs (.unheal c) s (fun t => (t.m.chain c).unhealAt = some s.m.heat.number ∧ t.m.chainState c = 3)) ∧
  (∀ (s : State) (c : Nat) (w : Window), c < 96 → c < s.m.tiles.chains.length → s.m.coreUp 2 = true →
    (s.m.chain c).window = some w → w.openedAt + ms 2 ≤ s.m.now →
    (s.m.chainState c = 1 ∨ (s.m.chain c).rootState = some (s.m.chainState c)) → w.timeouts = [] → s.m.tiles.storms = [] →
    s.m.objN (0x6110 + c) 8 + w.reports < 18446744073709551616 →
    Runs (.coalescingWindowClose c) s (fun t => (t.m.chain c).window = none ∧
    t.m.objN (0x6110 + c) 8 = s.m.objN (0x6110 + c) 8 + w.reports ∧ t.m.jrn = s.m.jrn))

/-- The tile map is applied whole or not at all, and a removal request parks a READY tile. -/
def Obligations.TileMapAndRemovalRequests : Prop :=
  (∀ (s : State) (w : WriteReq) (p : Put) (m : Mach), Reaches s 0x6100 3 w p m → (m.stagedMap.filter (· != 0xFFFF)).Nodup →
    Runs (.tileMapApply w) s (fun t => t.m.tiles.pendingMap = some m.stagedMap ∧ t.m.objN 0x6100 5 = 1)) ∧
  (∀ (s : State) (w : WriteReq) (p : Put) (m : Mach), Reaches s 0x6100 3 w p m → ¬ (m.stagedMap.filter (· != 0xFFFF)).Nodup →
    Runs (.tileMapApply w) s (fun t => SameBut t.m m)) ∧
  (∀ (s : State) (w : WriteReq) (p : Put) (m : Mach), Reaches s 0x6181 0x0C w p m → m.tileState p.s.tile.1 p.s.tile.2 = 3 →
    Runs (.removalRequest w) s (fun t => t.m.tileState p.s.tile.1 p.s.tile.2 = 6)) ∧
  (∀ (s : State) (w : WriteReq) (p : Put) (m : Mach), Reaches s 0x6181 0x0C w p m → m.tileState p.s.tile.1 p.s.tile.2 = 4 →
    p.s.tile.1 < m.tiles.chains.length → p.s.tile.2 < (m.chain p.s.tile.1).tiles.length →
    Runs (.removalRequest w) s (fun t => t.m.tileState p.s.tile.1 p.s.tile.2 = 4 ∧
    (t.m.tile p.s.tile.1 p.s.tile.2).leaving = true)) ∧
  (∀ (s : State) (w : WriteReq) (p : Put) (m : Mach), Reaches s 0x6181 0x0C w p m → m.tileState p.s.tile.1 p.s.tile.2 ≠ 3 →
    m.tileState p.s.tile.1 p.s.tile.2 ≠ 4 → Runs (.removalRequest w) s (fun t => SameBut t.m m))

/-- Flash objects are received segment by segment, and FLASH_DONE records what was written. -/
def Obligations.HistoryObjectsComeAndGo : Prop :=
  (∀ (s : State) (g : TileSeg) (cause : Nat), g.c < 96 → g.pos < 10 → (g.kind = 1 ∨ g.kind = 2) →
    (s.m.load g.c g.pos g.kind).since.isSome = true → tileSegRejected g = some cause → s.m.tx (s.m.feedLane g.c g.pos) = 4 →
    s.m.objN 0x6401 1 = 0 → Runs (.tileSegStart g) s (fun t => t.m.load g.c g.pos g.kind = s.m.load g.c g.pos g.kind ∧
    t.m.sentOn (s.m.feedLane g.c g.pos) (.nak g.pos g.kind g.seq cause) = true ∧ t.mem = s.mem)) ∧
  (∀ (s : State) (g : TileSeg), g.c < 96 → g.pos < 10 → g.c < s.m.tiles.chains.length → g.pos < (s.m.chain g.c).tiles.length →
    (g.kind = 1 ∨ g.kind = 2) → (s.m.load g.c g.pos g.kind).since.isSome = true → tileSegRejected g = none →
    (s.m.load g.c g.pos g.kind).segs.any (fun y => y.1 = g.seq) = false →
    (({ (s.m.load g.c g.pos g.kind) with segs := (s.m.load g.c g.pos g.kind).segs ++ [(g.seq, 16 * g.locator, tileSegData g)] } : FlashLoad).bytes.length < 64 ∨ (headerGood g.kind ({ (s.m.load g.c g.pos g.kind) with segs := (s.m.load g.c g.pos g.kind).segs ++ [(g.seq, 16 * g.locator, tileSegData g)] } : FlashLoad).bytes = true ∧
    ({ (s.m.load g.c g.pos g.kind) with segs := (s.m.load g.c g.pos g.kind).segs ++ [(g.seq, 16 * g.locator, tileSegData g)] } : FlashLoad).bytes.length < 64 + bodyLength ({ (s.m.load g.c g.pos g.kind) with segs := (s.m.load g.c g.pos g.kind).segs ++ [(g.seq, 16 * g.locator, tileSegData g)] } : FlashLoad).bytes)) →
    Runs (.tileSegStart g) s (fun t => (t.m.load g.c g.pos g.kind).segs = (s.m.load g.c g.pos g.kind).segs ++ [(g.seq, 16 * g.locator, tileSegData g)] ∧
    t.mem = s.mem)) ∧
  (∀ (s : State) (c pos : Nat) (k : Transfer), s.m.boot.shut ≠ 2 → s.m.coreUp 2 = true → s.m.panel.transfers = [k] → k.c = c →
    k.pos = pos → k.kind = 2 → k.staged = true → k.commitAt.isSome = true → (s.m.tile c pos).leaving = false →
    s.m.objN 0x6200 5 < 18446744073709551615 → Runs (.flashDone c pos 2 0) s (fun t => t.m.objN 0x6211 3 k.panel = k.seq ∧
    t.m.objN 0x6200 5 = s.m.objN 0x6200 5 + 1 ∧ t.m.panel.transfers = []))

/-- Tile-link events change lanes, chains, the heat's pours and reports only. -/
def Obligations.TileLinkEventsKeepTheRest : Prop :=
  (∀ (s t : State) (k h slot pos : Nat) (c : Instr), c ∈ ([.tickSend k h slot, .commitResend k pos, .unheal k,
    .reProbeTimer k] : List Instr) → exec c s = .next t →
    t = { s with m := { s.m with od := t.m.od, lanes := t.m.lanes, tiles := t.m.tiles, out := t.m.out, free := t.m.free } } ∧
    ObjectsBut [(0x6010, 0x60CF)] s.m t.m) ∧
  (∀ (s t : State) (k : Nat), exec (.unHealDelayExpiry k) s = .next t → t = { s with m := { s.m with tiles := t.m.tiles } }) ∧
  (∀ (s t : State) (k pos : Nat), (s.m.chain k).brk = none → exec (.commitDeadline k pos) s = .next t →
    t = { s with m := { s.m with od := t.m.od, tiles := t.m.tiles } } ∧ ObjectsBut [(0x6181, 0x6181)] s.m t.m) ∧
  (∀ (s t : State) (k : Nat), k < 96 → exec (.coalescingWindowClose k) s = .next t →
    t = { s with m := { s.m with od := t.m.od, koa := t.m.koa, jrn := t.m.jrn, tiles := t.m.tiles, out := t.m.out } } ∧
    ObjectsBut [(0x1202, 0x1202), (0x6110 + k, 0x6110 + k)] s.m t.m) ∧
  (∀ (s t : State) (k pos version kind tag n : Nat), exec (.ack k pos version kind tag n) s = .next t →
    t = { s with m := { s.m with od := t.m.od, lanes := t.m.lanes, tiles := t.m.tiles, pipe := t.m.pipe, panel := t.m.panel, out := t.m.out, free := t.m.free } } ∧
    ObjectsBut [(0x6010, 0x60CF)] s.m t.m) ∧
  (∀ (s t : State) (k pos version kind tag n : Nat), exec (.nak k pos version kind tag n) s = .next t →
    t = { s with m := { s.m with od := t.m.od, lanes := t.m.lanes, tiles := t.m.tiles, scene := t.m.scene, outs := t.m.outs, pipe := t.m.pipe } } ∧
    ObjectsBut [(0x6110 + k, 0x6110 + k)] s.m t.m) ∧
  (∀ (s t : State) (l pos version kind n : Nat), (s.m.chain (l / 2)).brk = none →
    exec (.segmentAckTimeout l pos version kind n) s = .next t →
    t = { s with m := { s.m with od := t.m.od, lanes := t.m.lanes, tiles := t.m.tiles, scene := t.m.scene, outs := t.m.outs, pipe := t.m.pipe } } ∧
    ObjectsBut [(0x6110 + l / 2, 0x6110 + l / 2)] s.m t.m) ∧
  (∀ (s t : State) (l : Nat), exec (.segmentSent l) s = .next t →
    t = { s with m := { s.m with od := t.m.od, lanes := t.m.lanes, scene := t.m.scene, outs := t.m.outs, pipe := t.m.pipe, test := t.m.test, out := t.m.out, free := t.m.free } } ∧
    ObjectsBut [(0x6010 + l, 0x6010 + l), (0x6100, 0x6100), (0x7F01, 0x7F01)] s.m t.m) ∧
  (∀ (s t : State) (k pos version frame : Nat) (temperature : Int) (flags : Nat), exec (.status k pos version frame temperature flags) s = .next t →
    t = { s with m := { s.m with od := t.m.od, koa := t.m.koa, jrn := t.m.jrn, tiles := t.m.tiles, panel := t.m.panel, thermal := t.m.thermal, out := t.m.out } } ∧
    ObjectsBut [(0x1202, 0x1202), (0x6181, 0x6181)] s.m t.m)

/-- Checkpoints, history transfers and reads of tile flash run, time out and retry as R351 to R355 say. -/
def Obligations.HistoryIsWrittenBackAndRead : Prop :=
  (∀ (s : State) (c i : Nat) (w : WriteReq) (p : Put) (m : Mach), Reaches s 0x6211 8 w p m → m.tileAt p.s.panel = some (c, i) →
    m.tileState c i = 4 →
    Runs (.checkpointRequest w) s (fun t => t.m.panel.checkpoints.any (fun (k : Checkpoint) => k.panel = p.s.panel && k.heat.isNone) = true)) ∧
  (∀ (s : State) (w : WriteReq) (p : Put) (m : Mach), Reaches s 0x6211 8 w p m → m.tileAt p.s.panel = none →
    Runs (.checkpointRequest w) s (fun t => SameBut t.m m)) ∧
  (∀ (s : State) (p : Nat) (k : Checkpoint), s.m.boot.shut ≠ 2 → s.m.panel.checkpoints = [k] → k.panel = p → k.snapped = true →
    k.blocks.length = 25 → Runs (.checkpointEncoded p) s (fun t => t.m.panel.checkpoints = [] ∧
    t.m.panel.transfers.any (fun (x : Transfer) => x.panel = p && x.kind = 2 && x.seq = (s.m.objN 0x6211 3 p + 1) % 2 ^ 32) = true)) ∧
  (∀ (s : State) (c pos at_ : Nat) (k : Transfer), s.m.boot.shut ≠ 2 → s.m.panel.transfers = [k] → k.c = c → k.pos = pos →
    k.kind = 2 → k.staged = true → k.commitAt = some at_ → at_ + ms 1000 ≤ s.m.now → k.failures = 0 →
    (s.m.tile c pos).leaving = false →
    Runs (.flashTimeout c pos 2) s (fun t => t.m.panel.transfers = [{ k with staged := false, commitAt := none, failures := 1, retryAt := some (s.m.now + sec 10) }])) ∧
  (∀ (s : State) (c pos at_ : Nat) (k : Transfer), s.m.boot.shut ≠ 2 → s.m.panel.transfers = [k] → k.c = c → k.pos = pos →
    k.kind = 2 → k.staged = false → k.retryAt = some at_ → at_ ≤ s.m.now → s.m.tileState c pos = 4 →
    k.seq = (s.m.objN 0x6211 3 k.panel + 1) % 2 ^ 32 →
    Runs (.historyRetry c pos 2) s (fun t => t.m.panel.transfers = [{ k with staged := true, retryAt := none }] ∧
    (t.m.lane (s.m.feedLane c pos)).staged = (s.m.lane (s.m.feedLane c pos)).staged ++ (if s.m.feedLane c pos < s.m.lanes.length then objectSegs k else []))) ∧
  (∀ (s : State) (c pos at_ : Nat), s.m.tileState c pos = 2 → (s.m.tile c pos).checkLoad.since = some at_ → at_ + ms 100 ≤ s.m.now →
    (s.m.tile c pos).gainLoad.done = true → (s.m.tile c pos).gainLoad.since = none → s.m.panelFor c pos = none →
    s.m.objN 0x1200 4 ≠ 0 → c < s.m.tiles.chains.length → pos < (s.m.chain c).tiles.length →
    Runs (.flashReadTimeout c pos 2) s (fun t => t.m.tileState c pos = 3 ∧ (t.m.tile c pos).checkLoad.done = true ∧
    t.m.jrn.recs.head?.map Rec.code = some 0x9001 ∧ t.mem = s.mem))

/-- A gain-map update is queued, supersedes what it covers, copies the bound slot with its patch, and completes. -/
def Obligations.GainMapUpdatesRun : Prop :=
  (∀ (s : State) (j : Nat) (w : WriteReq) (p : Put) (m : Mach), Reaches s (0x6220 + j) 3 w p m → j < 8 →
    live (m.gainState j) = false → m.patch j ≠ [] → m.tileUsable (m.gainPanel j) = true →
    Runs (.gainUpdateStart j w) s (fun t => t.m.gainState j = 1 ∧ t.m.objN (0x6220 + j) 5 = 0 ∧
    t.m.panel.updates.getLast? = some j)) ∧
  (∀ (s : State) (j i : Nat) (w : WriteReq) (p : Put) (m : Mach), Reaches s (0x6220 + j) 3 w p m → j < 8 →
    live (m.gainState j) = false → m.patch j ≠ [] → m.tileUsable (m.gainPanel j) = true → i < 8 → i ≠ j → i ∈ m.panel.updates →
    m.gainState i = 1 → m.gainTarget i = m.gainPanel j → within (patchRect (m.patch i)) (patchRect (m.patch j)) = true →
    Runs (.gainUpdateStart j w) s (fun t => t.m.gainState i = 5 ∧ i ∉ t.m.panel.updates)) ∧
  (∀ (s : State) (j : Nat) (w : WriteReq) (p : Put) (m : Mach), Reaches s (0x6220 + j) 3 w p m → j < 8 →
    live (m.gainState j) = true → Runs (.gainUpdateStart j w) s (fun t => SameBut t.m m)) ∧
  (∀ (s : State) (j slot : Nat) (rest : List Nat), j < 8 → s.m.gainState j = 1 → s.m.panel.updates.head? = some j →
    s.m.panel.freeSlots = slot :: rest → Runs (.gainUpdateRun j) s (fun t => t.m.gainState j = 2 ∧ t.m.panel.freeSlots = rest ∧
    t.m.panel.running = s.m.panel.running ++ [(j, slot)] ∧ t.m.objN 0x6200 3 = rest.length)) ∧
  (∀ (s : State) (j slot : Nat), j < 8 → slot < 970 → (patchRect (s.m.patch j)).1 + (patchRect (s.m.patch j)).2.2.1 ≤ 480 →
    s.m.panel.running = [(j, slot)] →
    (gainCopyRuns (slotBase (s.m.objN 0x6211 7 (s.m.gainTarget j))) (patchRect (s.m.patch j))).any (fun r => s.m.poisonedAt r.1 r.2) = false →
    s.m.poisonWaits = false → Runs (.gainUpdateComplete j) s (fun t => t.m.gainState j = 3 ∧ t.m.panel.running = [] ∧
    t.mem = memStore s.mem (slotBase slot) (patchedSlot (memLoad s.mem (slotBase (s.m.objN 0x6211 7 (s.m.gainTarget j))) 276480) (s.m.patch j)))) ∧
  (∀ (s : State) (j slot : Nat), j < 8 → s.m.panel.running = [(j, slot)] →
    (gainCopyRuns (slotBase (s.m.objN 0x6211 7 (s.m.gainTarget j))) (patchRect (s.m.patch j))).any (fun r => s.m.poisonedAt r.1 r.2) = true →
    s.m.poisonWaits = false → Runs (.gainUpdateComplete j) s (fun t => t.m.gainState j = 6 ∧ t.m.objN (0x6220 + j) 6 = 2 ∧
    t.mem = s.mem ∧ slot ∈ t.m.panel.freeSlots))

/-- Commons fault and clear, the slate ticks, and a quench starts and is released as R370 to R374 say. -/
def Obligations.CommonsSlateAndQuench : Prop :=
  (∀ (s : State) (n cause : Nat), n < 64 → 1 ≤ cause → cause ≤ 3 → s.m.commonState n ≠ 2 → s.m.testing ≠ some (calKey 4 n) →
    s.m.objN (0x6310 + n) 8 < 65535 → s.m.objN 0x1200 4 ≠ 0 → Runs (.commonFault n cause) s (fun t => t.m.commonState n = 2 ∧
    t.m.objN (0x6310 + n) 0x0A = cause ∧ t.m.objN (0x6310 + n) 8 = s.m.objN (0x6310 + n) 8 + 1 ∧
    t.m.jrn.recs.head?.map (fun (r : Rec) => (r.code, r.detail)) = some (0x9011, [(1, n), (1, cause)]))) ∧
  (∀ (s : State) (n : Nat) (w : WriteReq) (p : Put) (m : Mach), Reaches s (0x6310 + n) 9 w p m → n < 64 →
    n < m.panel.commons.length → m.commonState n = 2 → Runs (.commonFaultClear n w) s (fun t => (t.m.common n).clearing = true ∧
    t.m.commonState n = 2)) ∧
  (∀ (s : State) (n : Nat) (w : WriteReq) (p : Put) (m : Mach), Reaches s (0x6310 + n) 9 w p m → n < 64 → m.commonState n ≠ 2 →
    Runs (.commonFaultClear n w) s (fun t => SameBut t.m m)) ∧
  (∀ (s : State) (c : Nat) (w : WriteReq) (p : Put) (m : Mach), Reaches s 0x6300 3 w p m → c < 96 → m.objN 0x6300 3 ≠ p.n →
    m.tx (2 * c) = 4 → m.objN 0x6401 1 = 0 → Runs (.settleTimeWrite w) s (fun t => t.m.objN 0x6300 3 = p.n ∧
    t.m.sentOn (2 * c) (.configWrite 0xF 0x10 p.n) = true)) ∧
  (∀ (s : State), s.m.power = 2 → s.m.objN 0x6400 9 = 1 → s.m.panel.slate.tickAt + ms (s.m.objN 0x6400 6) ≤ s.m.timeWord →
    s.m.tx (2 * s.m.objN 0x6400 1) = 4 → s.m.objN 0x6401 1 = 0 →
    Runs (.slateTick) s (fun t => t.m.panel.slate.number = s.m.panel.slate.number + 1 ∧
    t.m.objN 0x5000 0x0B = s.m.panel.slate.number + 1 ∧ t.m.panel.slate.tickAt = s.m.timeWord ∧
    t.m.sentOn (2 * s.m.objN 0x6400 1) (.tick true 0 1 (s.m.panel.slate.number + 1) (4000 * 65536 / 32) 0) = true)) ∧
  (∀ (s : State) (w : WriteReq) (p : Put) (m : Mach), Reaches s 0x6401 3 w p m → ofBE w.value = 0x4C430F0F → p.n = 0x4C430F0F →
    m.objN 0x6401 1 = 0 → m.settled = true → m.objN 0x6401 4 < 4294967295 →
    Runs (.quenchCommand w) s (fun t => t.m.objN 0x6401 1 = 2 ∧ t.m.objN 0x6401 2 = 4 ∧ t.m.objN 0x6401 4 = m.objN 0x6401 4 + 1 ∧
    t.m.schedState = 0 ∧ t.mem = s.mem ∧ t.life = s.life)) ∧
  (∀ (s : State) (w : WriteReq) (p : Put) (m : Mach), Reaches s 0x6401 3 w p m → ofBE w.value = 0x4C430F0F → p.n = 0x4C430F0F →
    m.objN 0x6401 1 ≠ 0 → m.settled = true → Runs (.quenchCommand w) s (fun t => SameBut t.m m)) ∧
  (∀ (s : State) (w : WriteReq) (p : Put) (m : Mach), Reaches s 0x6401 3 w p m → ofBE w.value = 0x4C430F00 → p.n = 0x4C430F00 →
    m.objN 0x6401 1 = 2 → m.objN 0x6401 2 = 4 → m.power ≤ 1 → m.boot.shut = 0 → 8 ≤ m.boot.step → m.objN 0x1200 4 ≠ 0 →
    Runs (.quenchRelease w) s (fun t => t.m.objN 0x6401 1 = 0 ∧ t.m.boot.heatsFrom = some (m.timeWord + ms 11) ∧
    t.m.jrn.recs.head?.map Rec.code = some 0x9021)) ∧
  (∀ (s : State) (w : WriteReq) (p : Put) (m : Mach), Reaches s 0x6401 3 w p m → ofBE w.value = 0x4C430F00 → p.n = 0x4C430F00 →
    (m.objN 0x6401 1 ≠ 2 ∨ m.objN 0x6401 2 ≠ 4) → Runs (.quenchRelease w) s (fun t => SameBut t.m m))

/-- Panel events change panel drive and what they name; a gain-map update writes no byte outside its slot. -/
def Obligations.PanelEventsKeepTheRest : Prop :=
  (∀ (s t : State) (n cause : Nat), s.m.testing ≠ some (calKey 4 n) → exec (.commonFault n cause) s = .next t →
    t = { s with m := { s.m with od := t.m.od, koa := t.m.koa, jrn := t.m.jrn, panel := t.m.panel, out := t.m.out } } ∧
    ObjectsBut [(0x1202, 0x1202), (0x6310 + n, 0x6310 + n)] s.m t.m) ∧
  (∀ (s t : State) (j : Nat), j < 8 → exec (.gainUpdateRun j) s = .next t →
    t = { s with m := { s.m with od := t.m.od, panel := t.m.panel } } ∧
    ObjectsBut [(0x6200, 0x6200), (0x6220 + j, 0x6220 + j)] s.m t.m) ∧
  (∀ (s t : State), exec (.slateTick) s = .next t →
    t = { s with m := { s.m with od := t.m.od, lanes := t.m.lanes, tiles := t.m.tiles, panel := t.m.panel, out := t.m.out, free := t.m.free } } ∧
    ObjectsBut [(0x5000, 0x5000), (0x6010, 0x60CF), (0x6400, 0x6400)] s.m t.m) ∧
  (∀ (s t : State) (j slot a : Nat), s.m.panel.running.find? (fun r => r.1 = j) = some (j, slot) →
    (patchRect (s.m.patch j)).1 + (patchRect (s.m.patch j)).2.2.1 ≤ 480 → exec (.gainUpdateComplete j) s = .next t →
    (a < slotBase slot ∨ slotBase slot + 276480 ≤ a) → memRead t.mem a = memRead s.mem a)

/-- Frames, rings, meters, queues, gates and links act as R382, R384 to R401, R403 and R407 say. -/
def Obligations.PortsQueuesMetersGatesAndLinks : Prop :=
  (∀ (s : State) (f : EthFrame), (5 ≤ f.p ∨ s.m.linkUp f.p = false ∨ 3 ≤ s.m.power) → Runs (.frameReceived f) s (fun t => t = s)) ∧
  (∀ (s : State) (f : EthFrame), f.p < 5 → portFitted s.unit.orderX f.p = true → s.m.linkUp f.p = true → s.m.power ≤ 2 →
    (f.fcsOk = false ∨ largestFrame f.p < f.data.length + 4) → s.m.objN (0x4010 + f.p) 0x0B < 2 ^ 64 - 1 →
    Runs (.frameReceived f) s (fun t => t.m.objN (0x4010 + f.p) 0x0B = s.m.objN (0x4010 + f.p) 0x0B + 1 ∧ t.m.net = s.m.net ∧
    t.mem = s.mem)) ∧
  (∀ (s : State) (f : EthFrame), f.p < 5 → portFitted s.unit.orderX f.p = true → s.m.linkUp f.p = true → s.m.power ≤ 2 →
    s.m.armedAt 22 f.p = false → f.fcsOk = true → f.data.length + 4 ≤ largestFrame f.p → pauseFrame f.data = true →
    s.m.objN (0x4010 + f.p) 0x0A < 2 ^ 64 - 1 → s.m.objN (0x4010 + f.p) 0x10 < 2 ^ 64 - 1 →
    Runs (.frameReceived f) s (fun t => t.m.objN (0x4010 + f.p) 0x0A = s.m.objN (0x4010 + f.p) 0x0A + 1 ∧
    t.m.objN (0x4010 + f.p) 0x10 = s.m.objN (0x4010 + f.p) 0x10 + 1 ∧ t.m.net = s.m.net ∧ t.mem = s.mem)) ∧
  (∀ (s : State) (f : EthFrame), f.p < 5 → portFitted s.unit.orderX f.p = true → s.m.linkUp f.p = true → s.m.power ≤ 2 →
    s.m.armedAt 22 f.p = false → f.fcsOk = true → f.data.length + 4 ≤ largestFrame f.p → pauseFrame f.data = false →
    ((if s.m.objN (0x4010 + f.p) 8 = 1 then decide ((parseFrame f.data).vlan = some (s.m.objN (0x4010 + f.p) 9)) else decide ((parseFrame f.data).vlan = none ∨ (parseFrame f.data).vlan = some 0)) = false ∨ s.m.classify s.ctx f.p (parseFrame f.data) = .drop) →
    s.m.objN (0x4010 + f.p) 0x0C < 2 ^ 64 - 1 →
    Runs (.frameReceived f) s (fun t => t.m.objN (0x4010 + f.p) 0x0C = s.m.objN (0x4010 + f.p) 0x0C + 1 ∧ t.m.net = s.m.net ∧
    t.mem = s.mem)) ∧
  (∀ (s : State) (f : EthFrame) (b : Nat) (l : List Nat), f.p < 5 → portFitted s.unit.orderX f.p = true → s.m.linkUp f.p = true →
    s.m.power ≤ 2 → s.m.armedAt 22 f.p = false → f.fcsOk = true → f.data.length + 4 ≤ largestFrame f.p →
    pauseFrame f.data = false →
    ((if s.m.objN (0x4010 + f.p) 8 = 1 then decide ((parseFrame f.data).vlan = some (s.m.objN (0x4010 + f.p) 9)) else decide ((parseFrame f.data).vlan = none ∨ (parseFrame f.data).vlan = some 0)) = true) →
    s.m.classify s.ctx f.p (parseFrame f.data) = .ptp → s.m.net.ports.length = 5 → (s.m.port f.p).rxBuffers = b :: l →
    Runs (.frameReceived f) s (fun t => (t.m.port f.p).rxBuffers = l ∧
    (t.m.port f.p).rxConsumer = ((s.m.port f.p).rxConsumer + 1) % 512 ∧
    t.mem = memApply s.mem (([⟨b, (if (parseFrame f.data).vlan.isSome then f.data.take 12 ++ f.data.drop 16 else f.data)⟩, ⟨descriptorAt (s.m.port f.p).rxBase (s.m.port f.p).rxConsumer + 8, leBytes 2 (if (parseFrame f.data).vlan.isSome then f.data.take 12 ++ f.data.drop 16 else f.data).length⟩, ⟨descriptorAt (s.m.port f.p).rxBase (s.m.port f.p).rxConsumer + 12, leBytes 2 0xFFFF ++ [0, 0] ++ timeLE (s.m.stampIn s.unit.orderX f.p f.stamp)⟩, ⟨descriptorAt (s.m.port f.p).rxBase (s.m.port f.p).rxConsumer + 10, leBytes 1 (2 + bit (parseFrame f.data).vlan.isSome) ++ [0]⟩] : List MemWrite).flatMap writesOf))) ∧
  (∀ (s : State) (f : EthFrame) (k : Nat), f.p < 5 → portFitted s.unit.orderX f.p = true → s.m.linkUp f.p = true → s.m.power ≤ 2 →
    s.m.armedAt 22 f.p = false → f.fcsOk = true → f.data.length + 4 ≤ largestFrame f.p → pauseFrame f.data = false →
    ((if s.m.objN (0x4010 + f.p) 8 = 1 then decide ((parseFrame f.data).vlan = some (s.m.objN (0x4010 + f.p) 9)) else decide ((parseFrame f.data).vlan = none ∨ (parseFrame f.data).vlan = some 0)) = true) →
    s.m.classify s.ctx f.p (parseFrame f.data) = .slot k → (s.m.net.meters.getD k {}).on = true →
    ((s.m.net.meters.getD k {}).colour (f.data.length + 4)).1 = 2 → s.m.objN 0x4112 3 k < 2 ^ 64 - 1 →
    Runs (.frameReceived f) s (fun t => t.m.objN 0x4112 3 k = s.m.objN 0x4112 3 k + 1 ∧ t.m.scene = s.m.scene ∧ t.mem = s.mem)) ∧
  (∀ (s : State) (w : WriteReq) (p : Put) (m : Mach), Reaches s 0x4110 1 w p m → p.v = 1 →
    m.objB 0x4110 1 (p.s.bank 0x4110) = false → p.s.bank 0x4110 < m.net.meters.length →
    Runs (.slotEnable w) s (fun t => t.m.objB 0x4110 1 (p.s.bank 0x4110) = true ∧
    (t.m.net.meters.getD (p.s.bank 0x4110) {}).restart = true ∧ t.mem = s.mem)) ∧
  (∀ (s : State) (w : WriteReq) (p : Put) (m : Mach), Reaches s 0x4110 1 w p m → p.v = 0 →
    m.objB 0x4110 1 (p.s.bank 0x4110) = true → Runs (.slotEnable w) s (fun t => t.m.objB 0x4110 1 (p.s.bank 0x4110) = false ∧
    t.m.source? (p.s.bank 0x4110) = none ∧ t.mem = s.mem)) ∧
  (∀ (s : State) (w : WriteReq) (p : Put) (m : Mach), Reaches s 0x4110 1 w p m → p.v = bitI (m.objB 0x4110 1 (p.s.bank 0x4110)) →
    Runs (.slotEnable w) s (fun t => SameBut t.m m ∧ t.mem = s.mem)) ∧
  (∀ (s : State), (upTo 4).all (fun v => (s.m.view v).packets.isEmpty) = true → s.m.power ≤ 2 →
    s.m.net.refillAt + ns 128 ≤ s.m.now → Runs (.meterRefill) s (fun t => t.m.net.refillAt = s.m.net.refillAt + ns 128 ∧
    t.m.net.meters = s.m.net.meters.zipIdx.map (fun x => s.m.refillMeter x.2 x.1) ∧ t.m.od = s.m.od ∧ t.mem = s.mem)) ∧
  (∀ (s : State), (3 ≤ s.m.power ∨ s.m.now < s.m.net.refillAt + ns 128) → Runs (.meterRefill) s (fun t => t = s)) ∧
  (∀ (s : State) (x : TxPost), x.p < 5 → portFitted s.unit.orderX x.p = true → s.m.power ≤ 2 → s.m.net.ports.length = 5 →
    (s.m.port x.p).queues.length = 4 → (s.m.port x.p).owned < 512 → reachable x.buffer x.data.length = true →
    s.m.nextStream x.p = none → s.m.linkUp x.p = true →
    s.m.neverLets x.p (x.cls % 4) (lineTime x.p (s.m.charged x.p (x.cls % 4) x.data.length)) = false →
    ((s.m.port x.p).queues.getD (x.cls % 4) []).length < queueLimit (x.cls % 4) → (s.m.port x.p).sending.isSome = true →
    Runs (.txDescriptorPosted x) s (fun t => (t.m.port x.p).txProducer = ((s.m.port x.p).txProducer + 1) % 512 ∧
    (t.m.port x.p).queues.getD (x.cls % 4) [] = (s.m.port x.p).queues.getD (x.cls % 4) [] ++ [(⟨x.cls % 4, (s.m.port x.p).txProducer, x.stampAsked, x.oneStep, x.offset, x.data, none⟩ : TxFrame)] ∧
    (t.m.port x.p).txConsumer = (s.m.port x.p).txConsumer)) ∧
  (∀ (s : State) (x : TxPost), x.p < 5 → portFitted s.unit.orderX x.p = true → s.m.power ≤ 2 → s.m.net.ports.length = 5 →
    (s.m.port x.p).queues.length = 4 → (s.m.port x.p).owned < 512 →
    (reachable x.buffer x.data.length = false ∨ s.m.linkUp x.p = false) →
    Runs (.txDescriptorPosted x) s (fun t => (t.m.port x.p).txProducer = ((s.m.port x.p).txProducer + 1) % 512 ∧
    (t.m.port x.p).txConsumer = ((s.m.port x.p).txConsumer + 1) % 512 ∧ (t.m.port x.p).queues = (s.m.port x.p).queues)) ∧
  (∀ (s : State) (x : TxPost), x.p < 5 → portFitted s.unit.orderX x.p = true → s.m.power ≤ 2 → (s.m.port x.p).owned < 512 →
    reachable x.buffer x.data.length = true → s.m.linkUp x.p = true →
    s.m.neverLets x.p (x.cls % 4) (lineTime x.p (s.m.charged x.p (x.cls % 4) x.data.length)) = true →
    s.m.objN (shaperIx x.p (x.cls % 4)) 7 < 2 ^ 64 - 1 →
    Runs (.txDescriptorPosted x) s (fun t => t.m.objN (shaperIx x.p (x.cls % 4)) 7 = s.m.objN (shaperIx x.p (x.cls % 4)) 7 + 1 ∧
    (t.m.port x.p).queues = (s.m.port x.p).queues)) ∧
  (∀ (s : State) (x : TxPost), (5 ≤ x.p ∨ portFitted s.unit.orderX x.p = false ∨ 3 ≤ s.m.power ∨ 512 ≤ (s.m.port x.p).owned) →
    Runs (.txDescriptorPosted x) s (fun t => t = s)) ∧
  (∀ (s : State) (x : TxPost), x.p < 5 → portFitted s.unit.orderX x.p = true → s.m.power ≤ 2 → s.m.net.ports.length = 5 →
    (s.m.port x.p).queues.length = 4 → (s.m.port x.p).owned < 512 → reachable x.buffer x.data.length = true →
    s.m.linkUp x.p = true → s.m.neverLets x.p (x.cls % 4) (lineTime x.p (s.m.charged x.p (x.cls % 4) x.data.length)) = false →
    x.cls % 4 ≠ 1 → queueLimit (x.cls % 4) ≤ ((s.m.port x.p).queues.getD (x.cls % 4) []).length →
    Runs (.txDescriptorPosted x) s (fun t => (t.m.port x.p).held = (s.m.port x.p).held ++ [(⟨x.cls % 4, (s.m.port x.p).txProducer, x.stampAsked, x.oneStep, x.offset, x.data, none⟩ : TxFrame)] ∧
    (t.m.port x.p).queues = (s.m.port x.p).queues ∧ (t.m.port x.p).txConsumer = (s.m.port x.p).txConsumer)) ∧
  (∀ (s : State) (q b : Nat), q < 5 → portFitted s.unit.orderX q = true → s.m.power ≤ 2 → s.m.net.ports.length = 5 →
    (s.m.port q).rxBuffers.length < 512 →
    Runs (.rxDescriptorPosted q b) s (fun t => (t.m.port q).rxBuffers = (s.m.port q).rxBuffers ++ [b] ∧
    (t.m.port q).rxProducer = ((s.m.port q).rxProducer + 1) % 512 ∧
    t.mem = memApply s.mem (writesOf ⟨descriptorAt (s.m.port q).rxBase (s.m.port q).rxProducer, leBytes 8 b ++ [0, 0, 0x80] ++ List.replicate 21 0⟩))) ∧
  (∀ (s : State) (q b : Nat), (5 ≤ q ∨ 512 ≤ (s.m.port q).rxBuffers.length ∨ 3 ≤ s.m.power) →
    Runs (.rxDescriptorPosted q b) s (fun t => t = s)) ∧
  (∀ (s : State) (q v n : Nat) (f : TxFrame) (x : Nat), q < 5 → s.m.net.ports.length = 5 → s.m.nextStream q = none → f.view = none →
    (s.m.port q).sending = some (f, x) → (s.m.port q).queues.all (fun z => z.isEmpty) = true →
    s.m.objN (0x4010 + q) 0x0F < 2 ^ 64 - 1 → Runs (.frameTransmitted q v n) s (fun t => (t.m.port q).sending = none ∧
    t.m.objN (0x4010 + q) 0x0F = s.m.objN (0x4010 + q) 0x0F + 1 ∧ (t.m.port q).txConsumer = ((s.m.port q).txConsumer + 1) % 512)) ∧
  (∀ (s : State) (q v n : Nat), (s.m.port q).sending = none → Runs (.frameTransmitted q v n) s (fun t => t = s)) ∧
  (∀ (s : State) (q k : Nat) (f : TxFrame) (l : List TxFrame), q < s.m.net.ports.length → s.m.nextStream q = none →
    (s.m.port q).sending = none → s.m.linkUp q = true → (s.m.port q).held = [] →
    [0, 1, 2, 3].find? (fun k => s.m.classEligible q k) = some k → (s.m.port q).queues.getD k [] = f :: l →
    Runs (.gateEntryEnd q) s (fun t => (t.m.port q).sending.map Prod.fst = some f ∧ (t.m.port q).queues.getD k [] = l ∧
    t.m.od = s.m.od ∧ t.mem = s.mem)) ∧
  (∀ (s : State) (q : Nat), s.m.nextStream q = none → ((s.m.port q).sending.isSome = true ∨ s.m.linkUp q = false) →
    Runs (.gateEntryEnd q) s (fun t => t = s)) ∧
  (∀ (s : State) (q : Nat) (w : WriteReq) (p : Put) (m : Mach), Reaches s (0x4220 + q) 6 w p m → q < 5 → q < m.net.ports.length →
    1 ≤ m.objN (0x4220 + q) 3 → 8 * m.objN (0x4220 + q) 3 ≤ (m.str (0x4230 + q) 0).length →
    (gateEntries (m.objN (0x4220 + q) 3) (m.str (0x4230 + q) 0)).all (fun e => 64 ≤ e.2 && e.2 ≤ 1000000000) = true →
    (m.objN (0x4220 + q) 2 ≠ 0 ∨ 1000 ≤ ((gateEntries (m.objN (0x4220 + q) 3) (m.str (0x4230 + q) 0)).map Prod.snd).sum) →
    (m.objN (0x4220 + q) 2 ≠ 0 ∨ ((gateEntries (m.objN (0x4220 + q) 3) (m.str (0x4230 + q) 0)).map Prod.snd).sum ≤ 1000000000) →
    Runs (.gateListApply q w) s (fun t => t.m.objN (0x4220 + q) 8 = 1 ∧
    (t.m.port q).switch_.map Prod.snd = some (⟨m.objN (0x4220 + q) 2, m.objN (0x4220 + q) 4, gateEntries (m.objN (0x4220 + q) 3) (m.str (0x4230 + q) 0)⟩ : GateList) ∧
    (t.m.port q).list = (m.port q).list ∧ t.mem = s.mem)) ∧
  (∀ (s : State) (q : Nat) (w : WriteReq) (p : Put) (m : Mach), Reaches s (0x4220 + q) 6 w p m → q < 5 →
    (m.str (0x4230 + q) 0).length < 8 * m.objN (0x4220 + q) 3 → Runs (.gateListApply q w) s (fun t => SameBut t.m m ∧
    t.mem = s.mem)) ∧
  (∀ (s : State) (q x : Nat) (g : GateList), q < 5 → q < s.m.net.ports.length → (s.m.port q).switch_ = some (x, g) → g.mode = 0 →
    s.m.objN (0x4220 + q) 9 ≤ s.m.timeWord → Runs (.gateListSwitch q) s (fun t => (t.m.port q).list = g ∧
    (t.m.port q).switch_ = none ∧ t.m.objN (0x4220 + q) 8 = 0 ∧ t.m.str (0x4238 + q) 0 = gateBytes g.entries ∧
    s.m.jrn.newest + 1 ≤ t.m.jrn.newest)) ∧
  (∀ (s : State) (q : Nat), (s.m.port q).switch_ = none → Runs (.gateListSwitch q) s (fun t => t = s)) ∧
  (∀ (s : State) (q : Nat), q < 5 → portFitted s.unit.orderX q = true → s.m.objN (0x4010 + q) 2 = 0 → s.m.power ≤ 2 →
    s.m.settled = true → Runs (.linkUp q) s (fun t => t.m.objN (0x4010 + q) 2 = 1 ∧ s.m.jrn.newest + 1 ≤ t.m.jrn.newest ∧
    t.mem = s.mem)) ∧
  (∀ (s : State) (q : Nat), q < 5 → s.m.net.ports.length = 5 → s.m.linkUp q = true → s.m.settled = true →
    Runs (.linkDown q) s (fun t => t.m.objN (0x4010 + q) 2 = 0 ∧ (t.m.port q).queues = [[], [], [], []] ∧
    (t.m.port q).sending = none ∧ s.m.jrn.newest + 1 ≤ t.m.jrn.newest)) ∧
  (∀ (s : State) (q : Nat), (5 ≤ q ∨ s.m.linkUp q = false) → Runs (.linkDown q) s (fun t => t = s)) ∧
  (∀ (s : State) (q k : Nat) (x : Int), q < 4 → portFitted s.unit.orderX q = true → s.m.settled = true →
    Runs (.qsfpInserted q k x) s (fun t => t.m.obj (0x4010 + q) 0x11 = x ∧
    t.m.objN (0x4010 + q) 2 = (if k = 0 then (if s.m.linkUp q then 1 else 0) else 3) ∧ t.mem = s.mem)) ∧
  (∀ (s : State) (q : Nat), q < 4 → portFitted s.unit.orderX q = true → s.m.objN (0x4010 + q) 2 ≠ 2 → s.m.settled = true →
    Runs (.qsfpRemoved q) s (fun t => t.m.objN (0x4010 + q) 2 = 2 ∧ s.m.jrn.newest + 1 ≤ t.m.jrn.newest))

/-- Codec, drawing, memory, scene, cluster and network events change their own units only. -/
def Obligations.DataPathCommandsChangeTheirUnitsOnly : Prop :=
  (∀ (s t : State) (n p : Nat) (b : Bool) (x : Int) (l : List Int) (c : Instr), c ∈ ([.fence n, .fenceComplete n,
    .idleSelfRefresh p n, .selfRefreshRequest p b x, .zqCalibrationTimer, .oscillatorMeasurement l] : List Instr) →
    exec c s = .next t → t = { s with m := { s.m with dram := t.m.dram } }) ∧
  (∀ (s t : State) (p r n k : Nat) (a b : Bool) (y : ScrubReport) (c : Instr), p < 36 → s.m.armedAt 8 p = false →
    s.m.armedAt 10 p = false → c ∈ ([.refreshDue p r a b n k, .patrolScrub p y] : List Instr) → exec c s = .next t →
    t = { s with m := { s.m with od := t.m.od, koa := t.m.koa, jrn := t.m.jrn, dram := t.m.dram, out := t.m.out } } ∧
    ObjectsBut [(0x7010 + p, 0x7010 + p), (0x1202, 0x1202), (0x7000, 0x7000)] s.m t.m) ∧
  (∀ (s t : State) (l : List Nat), (s.m.dram.takeOver.all (fun y => y.spare.all (· < 36))) = true →
    exec (.spareTrained l) s = .next t → t = { s with m := { s.m with od := t.m.od, dram := t.m.dram } } ∧
    ObjectsBut [(0x7000, 0x7000), (0x7010, 0x7033)] s.m t.m) ∧
  (∀ (s t : State) (p : Nat) (c : Instr), c ∈ ([.gateEntryEnd p, .meterRefill] : List Instr) → exec c s = .next t →
    t = { s with m := { s.m with od := t.m.od, koa := t.m.koa, jrn := t.m.jrn, net := t.m.net, dram := t.m.dram, outs := t.m.outs, test := t.m.test, out := t.m.out } } ∧
    ObjectsBut [(0x5410, 0x5413), (0x1202, 0x1202), (0x7000, 0x7000), (0x7010, 0x7033), (0x7F01, 0x7F01)] s.m t.m) ∧
  (∀ (s t : State) (p : Nat), p < 5 → (s.m.port p).queues.all (fun z => z.isEmpty) = true →
    (upTo 4).all (fun v => (s.m.view v).packets.isEmpty) = true → exec (.gateListSwitch p) s = .next t →
    t = { s with m := { s.m with od := t.m.od, strs := t.m.strs, koa := t.m.koa, jrn := t.m.jrn, net := t.m.net, out := t.m.out } } ∧
    ObjectsBut [(0x4220 + p, 0x4220 + p), (0x1202, 0x1202)] s.m t.m ∧ t.m.net.meters = s.m.net.meters) ∧
  (∀ (s t : State) (c k : Nat), exec (.planeSetComplete c k) s = .next t →
    t = { s with m := { s.m with od := t.m.od, koa := t.m.koa, jrn := t.m.jrn, dram := t.m.dram, scene := t.m.scene, outs := t.m.outs, pipe := t.m.pipe, test := t.m.test, out := t.m.out } } ∧
    ObjectsBut [(0x1202, 0x1202), (0x7000, 0x7000), (0x7010, 0x7033), (0x7F01, 0x7F01)] s.m t.m) ∧
  (∀ (s t : State) (j : Nat), j < 8 → exec (.regionUpdateRun j) s = .next t → t = { s with m := { s.m with od := t.m.od } } ∧
    ObjectsBut [(0x5408 + j, 0x5408 + j)] s.m t.m) ∧
  (∀ (s t : State) (j e : Nat), j < 8 → exec (.hostJobRun j e) s = .next t →
    t = { s with m := { s.m with od := t.m.od, codec := t.m.codec } } ∧ ObjectsBut [(0x7110 + j, 0x7110 + j)] s.m t.m ∧
    t.m.codec.jobs = s.m.codec.jobs) ∧
  (∀ (s t : State) (e : Nat), exec (.decodeEngineFault e) s = .next t →
    t = { s with m := { s.m with od := t.m.od, koa := t.m.koa, jrn := t.m.jrn, codec := t.m.codec, out := t.m.out } } ∧
    ObjectsBut [(0x7120, 0x7133), (0x1202, 0x1202)] s.m t.m) ∧
  (∀ (s t : State) (e : Nat), exec (.encodeEngineFault e) s = .next t →
    t = { s with m := { s.m with od := t.m.od, koa := t.m.koa, jrn := t.m.jrn, dram := t.m.dram, codec := t.m.codec, test := t.m.test, out := t.m.out } } ∧
    ObjectsBut [(0x7110, 0x7117), (0x7140, 0x7143), (0x7F01, 0x7F01), (0x1202, 0x1202), (0x7000, 0x7000), (0x7010, 0x7033)] s.m t.m) ∧
  (∀ (s t : State) (k : Nat), exec (.decodeStart k) s = .next t →
    t = { s with m := { s.m with codec := t.m.codec, scene := t.m.scene } }) ∧
  (∀ (s t : State) (j : Nat), s.m.objN (0x51A0 + j) 1 < 64 → exec (.uploadRun j) s = .next t →
    t = { s with m := { s.m with od := t.m.od, codec := t.m.codec, scene := t.m.scene } } ∧
    ObjectsBut [(0x5140, 0x517F), (0x51A0, 0x51A7)] s.m t.m) ∧
  (∀ (s t : State) (n x : Nat) (c : Instr), c ∈ ([.rtcpBye n x, .sourceIdleTimeout n] : List Instr) → exec c s = .next t →
    t = { s with m := { s.m with od := t.m.od, koa := t.m.koa, jrn := t.m.jrn, codec := t.m.codec, scene := t.m.scene, out := t.m.out } } ∧
    ObjectsBut [(0x4110, 0x4110), (0x5140, 0x517F), (0x1202, 0x1202)] s.m t.m) ∧
  (∀ (s t : State) (n k : Nat) (c : Instr), n < 68 → c ∈ ([.clusterFault n k, .pourWatchdog n] : List Instr) → exec c s = .next t →
    t = { s with m := { s.m with od := t.m.od, koa := t.m.koa, jrn := t.m.jrn, scene := t.m.scene, outs := t.m.outs, pipe := t.m.pipe, out := t.m.out } } ∧
    ObjectsBut [(0x5320 + n, 0x5320 + n), (0x1202, 0x1202), (0x7000, 0x7000)] s.m t.m)

/-- The line and the riser demand and release the stages S1 to S6 as R443 says. -/
def Obligations.StageDemandsOfLineAndRiser : Prop :=
  (∀ (s : State) (v f k : Nat), s.m.forced 17 0 = none → 580 ≤ v → k < 6 → v < 65536 → f < 65536 →
    s.m.power_.line.below.length = 7 → s.m.power_.line.above.length = 7 → s.m.power_.line.on.length = 7 →
    s.m.power_.line.on.getD 6 false = false → v < (stageThresholds.getD k (0, 0, 0, 0)).1 →
    s.m.power_.line.below.getD k none ≠ none → Runs (.lineHalfCycle v f) s (fun t => t.m.power_.line.on.getD k false = true ∧
    t.m.objN 0x2000 1 = v ∧ t.m.objN 0x2000 2 = f)) ∧
  (∀ (s : State) (v f k : Nat), s.m.forced 17 0 = none → 580 ≤ v → k < 6 → s.m.power_.line.below.length = 7 →
    s.m.power_.line.above.length = 7 → s.m.power_.line.on.length = 7 → s.m.power_.line.on.getD 6 false = false →
    v < (stageThresholds.getD k (0, 0, 0, 0)).1 → s.m.power_.line.below.getD k none = none →
    s.m.power_.line.on.getD k false = false → Runs (.lineHalfCycle v f) s (fun t => t.m.power_.line.on.getD k false = false ∧
    (t.m.power_.line.below.getD k none).isSome = true)) ∧
  (∀ (s : State) (v f k at_ : Nat), s.m.forced 17 0 = none → 580 ≤ v → k < 6 → s.m.power_.line.below.length = 7 →
    s.m.power_.line.above.length = 7 → s.m.power_.line.on.length = 7 → s.m.power_.line.on.getD 6 false = false →
    (stageThresholds.getD k (0, 0, 0, 0)).2.1 ≤ v → s.m.power_.line.above.getD k none = some at_ → at_ + sec 2 ≤ s.m.now →
    Runs (.lineHalfCycle v f) s (fun t => t.m.power_.line.on.getD k false = false)) ∧
  (∀ (s : State) (v k at_ : Nat), 3100 ≤ v → k < 6 → v < 65536 → s.m.power_.riser.below.length = 7 →
    s.m.power_.riser.above.length = 7 → s.m.power_.riser.on.length = 7 → s.m.power_.riser.on.getD 6 false = false →
    v < (stageThresholds.getD k (0, 0, 0, 0)).2.2.1 → s.m.power_.riser.below.getD k none = some at_ → at_ + ms 2 ≤ s.m.now →
    Runs (.riserSample v) s (fun t => t.m.power_.riser.on.getD k false = true ∧ t.m.objN 0x2000 3 = v)) ∧
  (∀ (s : State) (v k : Nat), 3100 ≤ v → k < 6 → s.m.power_.riser.below.length = 7 → s.m.power_.riser.above.length = 7 →
    s.m.power_.riser.on.length = 7 → s.m.power_.riser.on.getD 6 false = false → v < (stageThresholds.getD k (0, 0, 0, 0)).2.2.1 →
    s.m.power_.riser.below.getD k none = none → s.m.power_.riser.on.getD k false = false →
    Runs (.riserSample v) s (fun t => t.m.power_.riser.on.getD k false = false)) ∧
  (∀ (s : State) (v k at_ : Nat), 3100 ≤ v → k < 6 → s.m.power_.riser.below.length = 7 → s.m.power_.riser.above.length = 7 →
    s.m.power_.riser.on.length = 7 → s.m.power_.riser.on.getD 6 false = false → (stageThresholds.getD k (0, 0, 0, 0)).2.2.2 ≤ v →
    s.m.power_.riser.above.getD k none = some at_ → at_ + sec 2 ≤ s.m.now →
    Runs (.riserSample v) s (fun t => t.m.power_.riser.on.getD k false = false))

/-- The stage in force deepens at once and rises one stage at a time, 2 s apart. -/
def Obligations.StageInForceFollowsTheDemands : Prop :=
  (∀ (s : State) (d : Nat), s.m.power ≤ 1 → 5 ≤ s.m.boot.step → s.m.boot.cores.contains 3 = false → s.m.demanded.1 = d →
    s.m.stage < d → d ≤ 5 → Runs (.stageEvaluation) s (fun t => t.m.stage = d ∧ t.m.power = 1)) ∧
  (∀ (s : State), s.m.power ≤ 1 → 5 ≤ s.m.boot.step → s.m.boot.cores.contains 3 = false → s.m.demanded.1 < s.m.stage →
    s.m.stage ≤ 5 → s.m.power_.changedAt + sec 2 ≤ s.m.now → Runs (.stageEvaluation) s (fun t => t.m.stage = s.m.stage - 1 ∧
    t.m.power = (if s.m.stage = 1 then 0 else 1))) ∧
  (∀ (s : State), s.m.demanded.1 ≤ s.m.stage → s.m.now < s.m.power_.changedAt + sec 2 → Runs (.stageEvaluation) s (fun t => t = s)) ∧
  (∀ (s : State) (w : WriteReq) (p : Put) (m : Mach), Reaches s 0x2000 9 w p m → m.power ≤ 1 → 5 ≤ m.boot.step →
    m.boot.cores.contains 3 = false → p.n ≤ 5 → m.stage < p.n → m.power_.line.stage ≤ p.n → m.power_.riser.stage ≤ p.n →
    m.objN 0x2000 0x0A ≤ p.n → Runs (.stageFloorWrite w) s (fun t => t.m.objN 0x2000 9 = p.n ∧ t.m.stage = p.n ∧ t.m.power = 1))

/-- RUN, SLATE, SLEEP and OFF requests lead to the power states of R451. -/
def Obligations.PowerRequestsTakeEffect : Prop :=
  (∀ (s : State) (w : WriteReq) (p : Put) (m : Mach), Reaches s 0x2100 2 w p m → ofBE w.value = 0x4C430210 → p.n = 0x4C430210 →
    m.power = 2 → m.stopping = false → m.stage ≤ 5 → Runs (.runRequest w) s (fun t => t.m.power = (if m.stage = 0 then 0 else 1) ∧
    t.m.objN 0x2100 3 = 0xFF)) ∧
  (∀ (s : State) (w : WriteReq) (p : Put) (m : Mach), Reaches s 0x2100 2 w p m → ofBE w.value = 0x4C430210 → p.n = 0x4C430210 →
    m.power = 2 → m.stopping = false → 6 ≤ m.stage → Runs (.runRequest w) s (fun t => t.m.power = 2 ∧ t.m.objN 0x2100 3 = 0)) ∧
  (∀ (s : State) (w : WriteReq) (p : Put) (m : Mach), Reaches s 0x2100 2 w p m → ofBE w.value = 0x4C430210 → p.n = 0x4C430210 →
    m.power ≤ 1 → m.stopping = false → Runs (.runRequest w) s (fun t => SameBut t.m (m.setN 0x2100 3 0xFF))) ∧
  (∀ (s : State) (w : WriteReq) (p : Put) (m : Mach), Reaches s 0x2100 2 w p m → ofBE w.value = 0x4C430212 → p.n = 0x4C430212 →
    m.power ≤ 1 → m.stopping = false → m.scheduled = false → Runs (.slateRequest w) s (fun t => t.m.power = 2)) ∧
  (∀ (s : State) (w : WriteReq) (p : Put) (m : Mach), Reaches s 0x2100 2 w p m → ofBE w.value = 0x4C430213 → p.n = 0x4C430213 →
    m.power ≤ 2 → m.stopping = false → m.scheduled = false → Runs (.sleepRequest w) s (fun t => t.m.power = m.power ∧
    t.m.power_.entry = some (m.now, 1) ∧ t.m.power_.stop = none ∧ t.m.objN 0x2100 3 = 0xFF)) ∧
  (∀ (s : State) (w : WriteReq) (p : Put) (m : Mach), Reaches s 0x2100 2 w p m → ofBE w.value = 0x4C430212 → p.n = 0x4C430212 →
    m.stopping = true → Runs (.slateRequest w) s (fun t => SameBut t.m (m.setN 0x2100 3 2))) ∧
  (∀ (s : State) (w : WriteReq) (p : Put) (m : Mach), Reaches s 0x2100 2 w p m → ofBE w.value = 0x4C430213 → p.n = 0x4C430213 →
    m.power ≤ 2 → m.stopping = false → m.scheduled = true → Runs (.sleepRequest w) s (fun t => t.m.power = m.power ∧
    t.m.power_.stop = some 3)) ∧
  (∀ (s : State) (w : WriteReq) (p : Put) (m : Mach), Reaches s 0x2100 2 w p m → ofBE w.value = 0x4C430214 → p.n = 0x4C430214 →
    m.power ≤ 2 → m.stopping = false → m.scheduled = true → m.boot.shut = 0 → m.boot.step ≠ 0 →
    Runs (.offRequest w) s (fun t => t.m.boot.shut = 1 ∧ t.m.power_.stop = some 4 ∧ t.m.power_.decided = m.jrn.newest + 1 ∧
    t.m.jrn.newest = m.jrn.newest + 1 ∧ t.m.power_.lastStop = 0))

/-- An enabled wake source brings the module out of P3, or lets it start from P4. -/
def Obligations.WakesReachTheModule : Prop :=
  (∀ (s : State) (q : Nat) (data : Bytes), q < 5 → (s.m.objN 0x2100 7).testBit q = true → portFitted s.unit.orderX q = true →
    s.m.wakeFrame s.ctx q data = true → (s.m.objN 0x2100 4 ||| 64).testBit 1 = true → s.m.power = 3 → s.m.boot.shut = 0 →
    s.m.power_.stop = none → s.m.objN 0x2100 3 = 0xFF → s.m.stage ≤ 5 → s.m.power_.wakes.length = 7 →
    Runs (.wakePacket q data) s (fun t => t.m.power = (if s.m.power_.before = 2 then 2 else if s.m.stage = 0 then 0 else 1) ∧
    t.m.objN 0x2100 5 = 1 ∧ t.m.power_.wakes.getD 1 0 = s.m.power_.wakes.getD 1 0 + 1)) ∧
  (∀ (s : State) (u : Nat), s.m.power = 4 → s.m.boot.shut = 0 → u < 2 → (s.m.objN 0x2100 4 ||| 64).testBit 3 = true →
    s.m.power_.dead = false → Runs (.wake 3 u) s (fun t => t.m.objN 0x2100 5 = 3 ∧ t.m.power_.startable = true ∧ t.m.power = 4)) ∧
  (∀ (s : State), s.m.power = 4 → s.m.boot.shut = 0 → (s.m.objN 0x2100 4 ||| 64).testBit 4 = true → s.m.power_.dead = false →
    Runs (.servicePortAttach) s (fun t => t.m.objN 0x2100 5 = 4 ∧ t.m.power_.startable = true)) ∧
  (∀ (s : State), s.m.power = 4 → s.m.boot.shut = 0 → s.m.objN 0x2100 6 ≠ 0 →
    s.m.objN 0x2100 6 * 32768 ≤ s.m.clk.ao - s.m.power_.downAo → (s.m.objN 0x2100 4 ||| 64).testBit 5 = true →
    s.m.power_.dead = false → Runs (.aoTimerExpiry) s (fun t => t.m.objN 0x2100 5 = 5 ∧ t.m.power_.startable = true)) ∧
  (∀ (s : State) (at_ : Nat), s.m.power = 4 → s.m.boot.shut = 0 → s.m.power_.dead = true → s.m.clk.lost = false →
    s.m.power_.goodAt = some at_ → at_ + sec 2 ≤ s.m.now → 3920 ≤ s.m.objN 0x2000 3 →
    Runs (.mainsRestored) s (fun t => t.m.objN 0x2100 5 = 6 ∧ t.m.power_.startable = true ∧ t.m.power_.dead = false)) ∧
  (∀ (s : State) (n x : Nat) (b : Bool), s.m.power = 4 → s.m.boot.shut = 0 → n < 2 →
    (s.m.objN (0x3120 + n) 2 = 2 ∨ s.m.objN (0x3120 + n) 2 = bit b) → (s.m.objN 0x2100 4 ||| 64).testBit 3 = true →
    s.m.power_.dead = false → Runs (.syncInputEdge n b x) s (fun t => t.m.objN 0x2100 5 = 3 ∧ t.m.power_.startable = true)) ∧
  (∀ (s : State) (u : Nat), u < 2 → (s.m.objN 0x2100 4 ||| 64).testBit 3 = true → s.m.power ≤ 2 → s.m.boot.shut = 0 →
    s.m.power_.stop = some 3 → s.m.power_.entry = none → (s.m.power = 2 ∨ s.m.stage ≤ 5) → s.m.objN 0x2100 3 = 0xFF →
    s.m.power_.wakes.length = 7 → Runs (.wake 3 u) s (fun t => t.m.power_.stop = none ∧ t.m.power = s.m.power ∧
    t.m.power_.wakes.getD 3 0 = s.m.power_.wakes.getD 3 0 + 1 ∧ s.m.jrn.newest + 1 ≤ t.m.jrn.newest)) ∧
  (∀ (s : State) (u : Nat), u < 2 → s.m.power ≤ 2 → s.m.boot.shut = 0 → s.m.power_.stop ≠ some 3 → s.m.power_.entry = none →
    Runs (.wake 3 u) s (fun t => t = { s with m := { s.m with power_ := { s.m.power_ with wakes := modAt s.m.power_.wakes 3 (· + 1) } } }))

/-- An abrupt loss, a trip, a watchdog and a phase fault act as R447, R448, R479 and R541 say. -/
def Obligations.AbruptStopsQuenchAndLeadToP4 : Prop :=
  (∀ (s : State), s.m.power ≤ 3 → 1 ≤ s.m.boot.step → s.m.objN 0x6401 1 = 0 → s.m.objN 0x2000 0x0E < 4294967295 →
    Runs (.abruptLoss 0) s (fun t => t.m.power = 4 ∧ t.m.objN 0x6401 1 = 2 ∧ t.m.objN 0x6401 2 = 1 ∧
    t.m.objN 0x2000 0x0E = s.m.objN 0x2000 0x0E + 1 ∧ t.mem = [] ∧ t.m.power_.lastStop = 2)) ∧
  (∀ (s : State) (n d : Nat), s.m.power ≤ 3 → 1 ≤ s.m.boot.step → s.m.objN 0x6401 1 = 0 → n < 28 → (s.m.power ≤ 2 ∨ 23 ≤ n) →
    s.m.objN (0x2220 + n) 5 = 0 → 2 ≤ (s.m.sensor n).tripRun → s.m.objN 0x2200 0x0A < 4294967295 →
    Runs (.hardwareTrip n d) s (fun t => t.m.power = 4 ∧ t.m.objN 0x6401 1 = 2 ∧ t.m.objN 0x6401 2 = 3 ∧
    t.m.objN 0x2200 0x0B = 3 ∧ t.m.objN 0x2200 0x0A = s.m.objN 0x2200 0x0A + 1 ∧ t.mem = [] ∧ t.m.power_.lastStop = 4 ∧
    t.m.power_.startable = s.m.power_.latchedWake.isSome)) ∧
  (∀ (s : State) (last : Nat), s.m.power ≤ 2 → 5 ≤ s.m.boot.step → s.m.objN 0x6401 1 = 0 →
    Runs (.moduleWatchdogExpiry last) s (fun t => t.m.power = 4 ∧ t.m.objN 0x6401 2 = 5 ∧ t.mem = [] ∧ t.m.power_.lastStop = 5 ∧
    t.m.power_.startable = true ∧ t.m.boot.step = 0)) ∧
  (∀ (s : State) (k cause : Nat), s.m.power ≤ 3 → 1 ≤ s.m.boot.step → k < 7 → 1 ≤ cause → cause ≤ 4 → s.m.objN (0x2021 + k) 1 = 1 →
    6 ≤ s.m.phasesIn 0 + s.m.phasesIn 1 → s.m.objN (0x2021 + k) 3 < 65535 → s.m.objN 0x1200 4 ≠ 0 →
    Runs (.phaseFault k cause) s (fun t => t.m.objN (0x2021 + k) 1 = 2 ∧ t.m.objN (0x2021 + k) 4 = cause ∧
    t.m.objN (0x2021 + k) 3 = s.m.objN (0x2021 + k) 3 + 1 ∧ t.m.power = s.m.power ∧ t.m.jrn.newest = s.m.jrn.newest + 2 ∧
    t.mem = s.mem)) ∧
  (∀ (s : State) (ix : Nat), s.m.power_.woken.all (fun w => w.1 != ix || decide (w.2 + ms 100 ≤ s.m.now)) = true →
    Runs (.wakeOnAccessIdle ix) s (fun t => t.m.power_.woken.any (fun w => w.1 = ix) = false))

/-- Readings are filtered, and bad or missing ones make a sensor FAILED. -/
def Obligations.SensorsReadFilterAndFail : Prop :=
  (∀ (s : State) (n : Nat) (raw r f : Int), n < 28 → n < s.m.thermal.sensors.length → s.m.thermalLoop = true → s.m.settled = true →
    s.m.armedAt 14 n = false → s.m.forced 25 n = none → s.m.sensorState n = 0 → (s.m.sensor n).seeded = true →
    r = raw + s.m.setting 5 n 0 → -640 ≤ r → r ≤ 2400 →
    f = s.m.filtered n + ((r - s.m.filtered n) * (if s.m.objN (0x2220 + n) 7 = 100 then 164 else if s.m.objN (0x2220 + n) 7 = 1000 then 1618 else 14497) + 32768) / 65536 →
    f < s.m.obj (0x2240 + sensorClass n) 4 → Runs (.sensorConversion n raw false) s (fun t => t.m.obj (0x2220 + n) 3 = r ∧
    t.m.obj (0x2220 + n) 4 = f)) ∧
  (∀ (s : State) (n : Nat) (raw r : Int), n < 28 → n < s.m.thermal.sensors.length → s.m.thermalLoop = true → s.m.settled = true →
    s.m.armedAt 14 n = false → s.m.forced 25 n = none → s.m.sensorState n = 0 → (s.m.sensor n).seeded = false →
    r = raw + s.m.setting 5 n 0 → -640 ≤ r → r ≤ 2400 → r < s.m.obj (0x2240 + sensorClass n) 4 →
    Runs (.sensorConversion n raw false) s (fun t => t.m.obj (0x2220 + n) 3 = r ∧ t.m.obj (0x2220 + n) 4 = r ∧
    (t.m.sensor n).seeded = true)) ∧
  (∀ (s : State) (n : Nat) (raw : Int), n < 28 → s.m.thermalLoop = true → s.m.settled = true → s.m.armedAt 14 n = false →
    s.m.forced 25 n = none → (upTo 28).all (fun k => decide (s.m.sensorState k = 0)) = true →
    (raw + s.m.setting 5 n 0 < -640 ∨ 2400 < raw + s.m.setting 5 n 0) →
    Runs (.sensorConversion n raw false) s (fun t => t.m.sensorState n = 1 ∧ t.m.objN (0x2220 + n) 6 = 1)) ∧
  (∀ (s : State) (n : Nat) (raw : Int), n < 28 → s.m.thermalLoop = true → s.m.settled = true → s.m.armedAt 14 n = false →
    s.m.forced 25 n = none → (upTo 28).all (fun k => decide (s.m.sensorState k = 0)) = true →
    Runs (.sensorConversion n raw true) s (fun t => t.m.sensorState n = 1 ∧ t.m.objN (0x2220 + n) 6 = 3)) ∧
  (∀ (s : State) (n : Nat), n < 28 → s.m.thermalLoop = true → s.m.settled = true →
    (upTo 28).all (fun k => decide (s.m.sensorState k = 0)) = true →
    (s.m.sensor n).lastAt + us (3 * s.m.objN (0x2220 + n) 7) ≤ s.m.now →
    Runs (.sensorMissing n) s (fun t => t.m.sensorState n = 1 ∧ t.m.objN (0x2220 + n) 6 = 2)) ∧
  (∀ (s : State) (n : Nat) (raw : Int), 23 ≤ n → n < 28 → 3 ≤ s.m.power → s.m.testing = none → s.m.settled = true →
    (s.m.sensor n).lastAt + ms 100 ≤ s.m.now → s.m.armedAt 14 n = false → s.m.forced 25 n = none → s.m.sensorState n = 0 →
    Runs (.sensorConversion n raw true) s (fun t => t.m.sensorState n = 1 ∧ t.m.objN (0x2220 + n) 6 = 3 ∧
    t.m.jrn.newest = s.m.jrn.newest + 1)) ∧
  (∀ (s : State) (n : Nat) (raw : Int) (e : Bool), s.m.settled = true → (28 ≤ n ∨ (3 ≤ s.m.power ∧
    (n < 23 ∨ s.m.now < (s.m.sensor n).lastAt + ms 100))) → Runs (.sensorConversion n raw e) s (fun t => t = s))

/-- A FAILED sensor is cleared or released to its twin as R469 and R470 say. -/
def Obligations.FailedSensorsClearAndRelease : Prop :=
  (∀ (s : State) (n : Nat) (w : WriteReq) (p : Put) (m : Mach), Reaches s (0x2220 + n) 8 w p m → n < 28 →
    n < m.thermal.sensors.length → m.sensorState n ≠ 0 → Runs (.sensorClear n w) s (fun t => (t.m.sensor n).clearing = true ∧
    (t.m.sensor n).good = 0 ∧ t.m.sensorState n = m.sensorState n)) ∧
  (∀ (s : State) (n : Nat) (w : WriteReq) (p : Put) (m : Mach), Reaches s (0x2220 + n) 8 w p m → n < 28 → m.sensorState n = 0 →
    Runs (.sensorClear n w) s (fun t => SameBut t.m m ∧ t.mem = s.mem)) ∧
  (∀ (s : State) (n : Nat) (w : WriteReq) (p : Put) (m : Mach), Reaches s (0x2220 + n) 9 w p m → n < 28 →
    n < m.thermal.sensors.length → m.sensorState n = 1 → m.sensorValid (sensorTwin n) = true →
    Runs (.sensorRelease n w) s (fun t => (t.m.sensor n).releasing = true ∧ t.m.sensorState n = 1)) ∧
  (∀ (s : State) (n : Nat) (w : WriteReq) (p : Put) (m : Mach), Reaches s (0x2220 + n) 9 w p m → n < 28 →
    (m.sensorState n = 2 ∨ m.sensorState n = 0 ∨ m.sensorValid (sensorTwin n) = false) →
    Runs (.sensorRelease n w) s (fun t => SameBut t.m m ∧ t.mem = s.mem))

/-- The fans run by the smallest margin, at 100 % from T1 on, and a fault raises the others. -/
def Obligations.FansFollowTheMargin : Prop :=
  (∀ (s : State) (speeds : List Nat), s.m.thermalLoop = true → s.m.thermal.fanAt + ms 100 ≤ s.m.now →
    (s.m.throttle ≠ 0 ∨ s.m.objN 0x2200 7 ≠ 0) → Runs (.fanControl speeds) s (fun t => t.m.objN 0x2200 4 = 100 ∧
    t.m.thermal.fanAt = s.m.now)) ∧
  (∀ (s : State) (speeds : List Nat) (n : Nat) (g : Int), s.m.thermalLoop = true → s.m.thermal.fanAt + ms 100 ≤ s.m.now →
    s.m.throttle = 0 → s.m.objN 0x2200 7 = 0 → n < 28 → s.m.hasValue n = true → g = s.m.threshold n 1 - s.m.thermalValue n →
    (upTo 28).all (fun k => !s.m.hasValue k || decide (g ≤ s.m.threshold k 1 - s.m.thermalValue k)) = true → g ≤ 32767 →
    Runs (.fanControl speeds) s (fun t => t.m.objN 0x2200 4 = (if 320 ≤ g then 30 else if g ≤ 0 then 100 else (100 - g * 7 / 32).toNat))) ∧
  (∀ (s : State) (fan speed : Nat), fan < 4 → s.m.coreUp 3 = true → (s.m.objN 0x2200 7).testBit fan = false → s.m.power ≤ 2 →
    5 ≤ s.m.boot.step → Runs (.fanTachFault fan speed) s (fun t => t.m.objN 0x2200 4 = 100 ∧
    t.m.objN 0x2200 7 = s.m.objN 0x2200 7 + 2 ^ fan ∧ t.m.jrn.newest = s.m.jrn.newest + 1))

/-- What sensors' writes, fans, line and riser samples and idle control domains leave alone. -/
def Obligations.ThermalAndPowerEventsKeepTheRest : Prop :=
  (∀ (s t : State) (speeds : List Nat), exec (.fanControl speeds) s = .next t →
    t = { s with m := { s.m with od := t.m.od, strs := t.m.strs, thermal := t.m.thermal } } ∧
    ObjectsBut [(0x2200, 0x2200)] s.m t.m) ∧
  (∀ (s t : State) (fan speed : Nat), exec (.fanTachFault fan speed) s = .next t →
    t = { s with m := { s.m with od := t.m.od, koa := t.m.koa, jrn := t.m.jrn, out := t.m.out } } ∧
    ObjectsBut [(0x1202, 0x1202), (0x2200, 0x2200)] s.m t.m) ∧
  (∀ (s t : State) (ix : Nat), exec (.wakeOnAccessIdle ix) s = .next t → t = { s with m := { s.m with power_ := t.m.power_ } }) ∧
  (∀ (s t : State) (v : Nat), 3100 ≤ v → s.m.power_.riser.on.getD 6 false = false → s.m.power_.riser.on.length = 7 →
    s.m.power_.riser.below.length = 7 → s.m.power_.riser.above.length = 7 → exec (.riserSample v) s = .next t →
    t = { s with m := { s.m with od := t.m.od, power_ := t.m.power_ } } ∧ ObjectsBut [(0x2000, 0x2000)] s.m t.m) ∧
  (∀ (s t : State) (core : Nat), 3 ≤ core → exec (.coreRestarted core) s = .next t →
    t = { s with m := { s.m with boot := t.m.boot } }) ∧
  (∀ (s t : State), exec (.coreRestarted 0) s = .next t →
    t = { s with m := { s.m with koa := t.m.koa, boot := t.m.boot, out := t.m.out } }) ∧
  (∀ (s t : State), exec (.valuesInForcePeriod) s = .next t → t = { s with m := { s.m with calib := t.m.calib } })

/-- Start, abort, accept and reject of a calibration act or are refused as R489, R494 and R495 say. -/
def Obligations.CalibrationCommandsAct : Prop :=
  (∀ (s : State) (w : WriteReq) (p : Put) (m : Mach), Reaches s 0x7800 5 w p m → ofBE w.value = 0x4C430780 → p.n = 0x4C430780 →
    s.life ≠ .retired → ((m.objN 0x7800 1 = 2 ∨ m.objN 0x7800 1 = 5) → (s.life = .factory ∨ s.life = .service)) →
    (m.calState = 0 ∨ 5 ≤ m.calState) → m.objN 0x7800 2 < itemCount (m.objN 0x7800 1) → (m.objN 0x7800 1 = 5 →
    m.obj 0x7800 3 ≠ 0x7FFF) → (m.objN 0x7800 1 = 3 → m.objN 0x7800 4 ≠ 0xFFFFFFFF) → m.objN 0x7800 0x0C < 4294967295 →
    Runs (.calibrationStart w) s (fun t => t.m.calState = 1 ∧ t.m.objN 0x7800 7 = 0 ∧
    t.m.objN 0x7800 0x0C = m.objN 0x7800 0x0C + 1 ∧ t.m.calib.run.item = m.objN 0x7800 1 ∧ t.m.calib.run.inst = m.objN 0x7800 2)) ∧
  (∀ (s : State) (w : WriteReq) (p : Put) (m : Mach), Reaches s 0x7800 5 w p m → ofBE w.value = 0x4C430780 → p.n = 0x4C430780 →
    (s.life = .retired ∨ ((m.objN 0x7800 1 = 2 ∨ m.objN 0x7800 1 = 5) ∧
    (s.life = .provisioned ∨ s.life = .field)) ∨ (1 ≤ m.calState ∧ m.calState ≤ 4)) →
    Runs (.calibrationStart w) s (fun t => SameBut t.m m ∧ t.mem = s.mem)) ∧
  (∀ (s : State) (w : WriteReq) (p : Put) (m : Mach), Reaches s 0x7800 5 w p m → ofBE w.value = 0x4C430781 → p.n = 0x4C430781 →
    1 ≤ m.calState → m.calState ≤ 3 → Runs (.calibrationAbort w) s (fun t => t.m.calState = 11 ∧
    t.m.jrn.newest = m.jrn.newest + 1 ∧ t.m.calib.sets = m.calib.sets)) ∧
  (∀ (s : State) (w : WriteReq) (p : Put) (m : Mach), Reaches s 0x7800 5 w p m → ofBE w.value = 0x4C430781 → p.n = 0x4C430781 →
    (m.calState = 0 ∨ 4 ≤ m.calState) → Runs (.calibrationAbort w) s (fun t => SameBut t.m m)) ∧
  (∀ (s : State) (w : WriteReq) (p : Put) (m : Mach), Reaches s 0x7800 5 w p m → ofBE w.value = 0x4C430783 → p.n = 0x4C430783 →
    m.calState = 4 → Runs (.calibrationReject w) s (fun t => t.m.calib.run.slot = none ∧ t.m.calState = 6 ∧
    t.m.calib.sets = m.calib.sets)) ∧
  (∀ (s : State) (k : Nat) (w : WriteReq) (p : Put) (m : Mach), Reaches s 0x7800 5 w p m → ofBE w.value = 0x4C430782 →
    p.n = 0x4C430782 → m.calState = 4 →
    m.targetSlot (calKey m.calib.run.item m.calib.run.inst) m.calib.run.temp (m.objN 0x7800 0x0B) = some k →
    Runs (.calibrationAccept w) s (fun t => t.m.calState = 4 ∧ t.m.calib.run.slot = some k ∧ t.m.calib.sets = m.calib.sets)) ∧
  (∀ (s : State) (w : WriteReq) (p : Put) (m : Mach), Reaches s 0x7800 5 w p m → ofBE w.value = 0x4C430783 → p.n = 0x4C430783 →
    m.calState ≠ 4 → Runs (.calibrationReject w) s (fun t => SameBut t.m m))

/-- A run goes through checks, passes and gap to PENDING, or ends as R491 to R497 say. -/
def Obligations.CalibrationPassesAndEndings : Prop :=
  (∀ (s : State), s.m.calState = 1 → s.m.calChecks s.m.calib.run.item s.m.calib.run.inst = 0 →
    Runs (.calibrationChecksDone 0) s (fun t => t.m.calState = 2 ∧ t.m.calib.run.since = s.m.now ∧
    t.m.testing = (if s.m.calib.run.v1 = [] then some (calKey s.m.calib.run.item s.m.calib.run.inst) else none))) ∧
  (∀ (s : State) (failed : Nat), s.m.calState = 1 → s.m.calChecks s.m.calib.run.item s.m.calib.run.inst = 0 →
    (checkCodes s.m.calib.run.item).contains failed = true → failed ≠ 0 →
    Runs (.calibrationChecksDone failed) s (fun t => t.m.calState = 8 ∧ t.m.objN 0x7800 7 = failed)) ∧
  (∀ (s : State) (values : List Int), s.m.calState = 2 → s.m.calib.run.v1 = [] →
    s.m.calChecks s.m.calib.run.item s.m.calib.run.inst = 0 →
    Runs (.calibrationPassEnd values false) s (fun t => t.m.calState = 2 ∧
    t.m.calib.run.v1 = s.m.passValues s.m.calib.run.item s.m.calib.run.inst values ∧ t.m.calib.run.since = s.m.now)) ∧
  (∀ (s : State) (x : Int), s.m.calState = 2 → s.m.calib.run.v1 ≠ [] → s.m.calib.run.since + calGap s.m.calib.run.item ≤ s.m.now →
    s.m.calChecks s.m.calib.run.item s.m.calib.run.inst = 0 →
    x = s.m.meanOf (tempSensors (tempPlace s.m.calib.run.item s.m.calib.run.inst)) (s.m.calTemp s.m.calib.run.item s.m.calib.run.inst) →
    (x - s.m.calib.run.t1).natAbs ≤ 32 → Runs (.calibrationGapEnd 0) s (fun t => t.m.calState = 3 ∧ t.m.calib.run.t2 = x)) ∧
  (∀ (s : State) (x : List Int) (u v : Int), s.m.calState = 3 → s.m.calib.run.item = 3 → s.m.calib.run.v1 = [u] →
    s.m.passValues 3 s.m.calib.run.inst x = [v] → s.m.calChecks s.m.calib.run.item s.m.calib.run.inst = 0 → (u - v).natAbs ≤ 8 →
    0 ≤ v → v ≤ 2047 → Runs (.calibrationPassEnd x false) s (fun t => t.m.calState = 4 ∧
    t.m.calib.run.result = [(u + v + 1) / 2] ∧ t.m.calib.run.temp = (s.m.calib.run.t1 + s.m.calib.run.t2 + 1) / 2 ∧
    t.m.objN 0x7800 0x0A = (u - v).natAbs)) ∧
  (∀ (s : State) (n cause : Nat), n < 64 → 1 ≤ cause → cause ≤ 3 → s.m.objN (0x6310 + n) 1 = 0 → s.m.testing = some (calKey 4 n) →
    s.m.calib.run.item = 4 → s.m.calib.run.inst = n → Runs (.commonFault n cause) s (fun t => t.m.objN (0x6310 + n) 1 = 2 ∧
    t.m.calState = 8 ∧ t.m.objN 0x7800 7 = 6 ∧ t.m.calib.sets = s.m.calib.sets)) ∧
  (∀ (s : State) (a : Nat), s.m.calState = 1 → s.m.calib.run.item = 2 → s.m.calChecks 2 s.m.calib.run.inst = 0 →
    (a < 0x3B0000000 ∨ 0x3B0000800 ≤ a) → Runs (.calibrationChecksDone 0) s (fun t => t.m.calState = 2 ∧
    memRead t.mem a = memRead s.mem a)) ∧
  (∀ (s : State), s.m.calState = 3 → s.m.calib.run.since + calTimeout s.m.calib.run.item ≤ s.m.now →
    Runs (.calibrationTimeout) s (fun t => t.m.calState = 10)) ∧
  (∀ (s : State), s.m.calState = 4 → s.m.calib.run.slot = none → s.m.calib.run.since + sec 600 ≤ s.m.now →
    Runs (.calibrationExpiry) s (fun t => t.m.calState = 7 ∧ t.m.calib.sets = s.m.calib.sets)) ∧
  (∀ (s : State) (k : Nat), s.m.calState = 4 → s.m.calib.run.slot = some k → k < 5 →
    (s.m.calSlots (calKey s.m.calib.run.item s.m.calib.run.inst)).length = 5 →
    Runs (.calibrationFlashWritten) s (fun t => t.m.calState = 5 ∧
    (t.m.calSlots (calKey s.m.calib.run.item s.m.calib.run.inst)).getD k none = some ⟨s.m.calib.run.temp, s.m.calib.run.result⟩ ∧
    t.m.valuesInForce (calKey s.m.calib.run.item s.m.calib.run.inst) = s.m.valuesInForce (calKey s.m.calib.run.item s.m.calib.run.inst)))

/-- Settings move one step per TAP_STEP toward their value in force, and a cleared slot is empty. -/
def Obligations.CalibrationSettingsMoveStepwise : Prop :=
  (∀ (s : State) (k : Nat) (v e : Int), s.m.power ≤ 2 → s.m.calib.steppedAt.any (fun t => s.m.now < t + us 1) = false →
    2 ≤ k / 1024 → (k / 1024 = 2 → (s.m.chan (k % 1024)).selfRefresh = 0) → (k / 1024 = 3 → s.m.edgeNear (k % 1024) = false) →
    s.m.testing ≠ some k → s.m.calib.moving = [(k, [v])] → s.m.valuesInForce k = [e] → v ≠ e →
    Runs (.tapStep [] []) s (fun t => t.m.settings k = [if v < e then v + 1 else v - 1])) ∧
  (∀ (s : State) (a : List (Nat × List Int)) (h : List Nat) (u : Nat), s.m.calib.steppedAt = some u → s.m.now < u + us 1 →
    Runs (.tapStep a h) s (fun t => t = s)) ∧
  (∀ (s : State) (a : List (Nat × List Int)) (h : List Nat) (o : Nat) (l : List Int), o < 8 → s.m.calib.moving = [(calKey 3 o, l)] →
    s.m.edgeNear o = true → l ≠ s.m.targets (calKey 3 o) → a = [] →
    Runs (.tapStep a h) s (fun t => t.m.calib.moving = [(calKey 3 o, l)])) ∧
  (∀ (s : State) (k : Nat) (l : List Int), s.m.power ≤ 2 → s.m.calib.moving = [(k, l)] → l ≠ s.m.targets k →
    Runs (.tapStep [] [k]) s (fun t => t.m.calib.moving = [(k, l)])) ∧
  (∀ (s : State) (k : Nat) (l : List Int), s.m.power ≤ 2 → s.m.calib.moving = [(k, l)] → s.m.testing = some k → l ≠ s.m.targets k →
    Runs (.tapStep [] []) s (fun t => t.m.calib.moving = [(k, l)])) ∧
  (∀ (s : State), s.m.schedState = 0 → s.m.power ≤ 2 → 6 ≤ s.m.boot.step → s.m.calib.latchedAt + ms 10 ≤ s.m.now →
    Runs (.valuesInForcePeriod) s (fun t => t.m.calib.latchedAt = s.m.now ∧
    t.m.calib.temps = (upTo 7).map (fun k => s.m.meanOf (tempSensors k) (s.m.calib.temps.getD k 0)))) ∧
  (∀ (s : State) (k : Nat) (w : WriteReq) (p : Put) (m : Mach), Reaches s 0x7808 5 w p m → p.s.calKey = k → m.calState ≠ 4 →
    (p.s.own_ 0x7808 3).toNat < 5 → (m.calSlots k).length = 5 →
    Runs (.calibrationSlotClear w) s (fun t => (t.m.calSlots k).getD (p.s.own_ 0x7808 3).toNat none = none)) ∧
  (∀ (s : State) (w : WriteReq) (p : Put) (m : Mach), Reaches s 0x7808 5 w p m → m.calState = 4 →
    calKey m.calib.run.item m.calib.run.inst = p.s.calKey → Runs (.calibrationSlotClear w) s (fun t => SameBut t.m m))

/-- Calibration events change calibration, the DRAM's taps and the record of the run only. -/
def Obligations.CalibrationEventsKeepTheRest : Prop :=
  (∀ (s t : State) (values : List Int) (lost : Bool) (c : Instr), c ∈ ([.calibrationPassEnd values lost, .calibrationTimeout, .calibrationExpiry] : List Instr) →
    exec c s = .next t →
    t = { s with m := { s.m with od := t.m.od, strs := t.m.strs, koa := t.m.koa, jrn := t.m.jrn, calib := t.m.calib, out := t.m.out, free := t.m.free } } ∧
    ObjectsBut [(0x1202, 0x1202), (0x7800, 0x7800)] s.m t.m) ∧
  (∀ (s t : State) (failed : Nat) (c : Instr), s.m.calib.run.item ≠ 2 → c ∈ ([.calibrationChecksDone failed,
    .calibrationGapEnd failed] : List Instr) → exec c s = .next t →
    t = { s with m := { s.m with od := t.m.od, strs := t.m.strs, koa := t.m.koa, jrn := t.m.jrn, calib := t.m.calib, out := t.m.out, free := t.m.free } } ∧
    ObjectsBut [(0x1202, 0x1202), (0x3110 + s.m.calib.run.inst, 0x3110 + s.m.calib.run.inst), (0x7800, 0x7800)] s.m t.m) ∧
  (∀ (s t : State), s.m.test.armed = none → exec (.calibrationFlashWritten) s = .next t →
    t = { s with m := { s.m with od := t.m.od, strs := t.m.strs, koa := t.m.koa, jrn := t.m.jrn, calib := t.m.calib, test := t.m.test, out := t.m.out, free := t.m.free } } ∧
    ObjectsBut [(0x1202, 0x1202), (0x7800, 0x7800)] s.m t.m ∧
    t.m.test = { s.m.test with erases := t.m.test.erases, flashFailed := t.m.test.flashFailed }) ∧
  (∀ (s t : State) (adapt : List (Nat × List Int)) (held : List Nat), exec (.tapStep adapt held) s = .next t →
    t = { s with m := { s.m with calib := t.m.calib, dram := t.m.dram } })

/-- A commanded test starts, is aborted and ends as R517 to R519 say. -/
def Obligations.CommandedTestsRunAndEnd : Prop :=
  (∀ (s : State) (w : WriteReq) (p : Put) (m : Mach), Reaches s 0x7C01 5 w p m → ofBE w.value = 0x4C4307C1 → p.n = 0x4C4307C1 →
    (s.life ≠ .factory ∧ s.life ≠ .service ∨ m.testRunning = true) → Runs (.testStart w) s (fun t => SameBut t.m m ∧
    t.mem = s.mem)) ∧
  (∀ (s : State) (w : WriteReq) (p : Put) (m : Mach), Reaches s 0x7C01 5 w p m → ofBE w.value = 0x4C4307C1 → p.n = 0x4C4307C1 →
    (s.life = .factory ∨ s.life = .service) → m.testRunning = false → m.power ≤ 1 → m.calm = true → m.objN 0x7C01 1 = 0 →
    m.objN 0x7C01 2 = 3 → m.objN 0x7C01 3 < 96 → m.objN 0x7C01 4 < 4 → Runs (.testStart w) s (fun t => t.m.objN 0x7C01 6 = 1 ∧
    t.m.objN 0x7C01 7 = 0 ∧ t.m.objN 0x7C01 0x0A = 128 * 2560 ∧ t.m.test.test.inst = m.objN 0x7C01 3)) ∧
  (∀ (s : State) (w : WriteReq) (p : Put) (m : Mach), Reaches s 0x7C01 5 w p m → ofBE w.value = 0x4C4307C1 → p.n = 0x4C4307C1 →
    (s.life = .factory ∨ s.life = .service) → m.testRunning = false → m.power ≤ 1 → m.calm = false →
    testInRange (m.objN 0x7C01 1) (m.objN 0x7C01 2) (m.objN 0x7C01 3) (m.objN 0x7C01 4) = true →
    needsFree (m.objN 0x7C01 1) (m.objN 0x7C01 2) = false → Runs (.testStart w) s (fun t => t.m.objN 0x7C01 6 = 2 ∧
    t.m.objN 0x7C01 7 = 3 ∧ t.m.objN 0x7C01 8 = 3)) ∧
  (∀ (s : State) (w : WriteReq) (p : Put) (m : Mach), Reaches s 0x7C01 5 w p m → ofBE w.value = 0x4C4307C0 → p.n = 0x4C4307C0 →
    m.testRunning = true → m.objN 0x7C01 0x0D = 0 → Runs (.testAbort w) s (fun t => t.m.objN 0x7C01 6 = 2 ∧
    t.m.objN 0x7C01 7 = 3 ∧ t.m.objN 0x7C01 8 = 1 ∧ t.m.jrn.newest = m.jrn.newest + 1)) ∧
  (∀ (s : State) (w : WriteReq) (p : Put) (m : Mach), Reaches s 0x7C01 5 w p m → ofBE w.value = 0x4C4307C0 → p.n = 0x4C4307C0 →
    m.testRunning = false → Runs (.testAbort w) s (fun t => SameBut t.m m ∧ t.mem = s.mem)) ∧
  (∀ (s : State) (e g : Nat), s.m.testRunning = true → s.m.objN 0x7C01 0x0A ≤ e → g = s.m.objN 0x7C01 0x0C → g < 4294967296 →
    s.m.test.test.kind ≠ 0 → s.m.objN 0x7C01 0x0D = 0 → Runs (.testEnd e g []) s (fun t => t.m.objN 0x7C01 6 = 2 ∧
    t.m.objN 0x7C01 7 = 1 ∧ t.m.objN 0x7C01 8 = 0 ∧ t.m.objN 0x7C01 9 = s.m.objN 0x7C01 0x0A)) ∧
  (∀ (s : State) (e g : Nat), s.m.testRunning = true → s.m.objN 0x7C01 0x0A ≤ e → g ≠ s.m.objN 0x7C01 0x0C → g < 4294967296 →
    s.m.test.test.kind = 3 → Runs (.testEnd e g []) s (fun t => t.m.objN 0x7C01 6 = 2 ∧ t.m.objN 0x7C01 7 = 2 ∧
    t.m.objN 0x7C01 0x0B = g)) ∧
  (∀ (s : State) (e g : Nat), s.m.testRunning = true → e < s.m.objN 0x7C01 0x0A → s.m.test.test.kind ≠ 0 →
    s.m.objN 0x7C01 0x0D = 0 → Runs (.testEnd e g []) s (fun t => t.m.objN 0x7C01 6 = 2 ∧ t.m.objN 0x7C01 7 = 3 ∧
    t.m.objN 0x7C01 9 = e)) ∧
  (∀ (s : State) (e g : Nat) (f : Nat × Nat × Nat), s.m.testRunning = true → e < s.m.objN 0x7C01 0x0A → s.m.test.test.kind = 0 →
    s.m.objN 0x7C01 0x0D < 4294967295 → s.m.test.failures.length < 256 →
    Runs (.testEnd e g [f]) s (fun t => t.m.objN 0x7C01 6 = 1 ∧ t.m.objN 0x7C01 0x0D = s.m.objN 0x7C01 0x0D + 1 ∧
    t.m.objN 0x7C01 9 = e ∧ t.m.test.failures.length = s.m.test.failures.length + 1 ∧ t.m.test.mapSeq = s.m.test.mapSeq + 1)) ∧
  (∀ (s : State) (w : WriteReq) (p : Put) (m : Mach), Reaches s 0x7C01 5 w p m → ofBE w.value = 0x4C4307C0 → p.n = 0x4C4307C0 →
    m.testRunning = true → m.objN 0x7C01 0x0D ≠ 0 → Runs (.testAbort w) s (fun t => t.m.objN 0x7C01 6 = 2 ∧
    t.m.objN 0x7C01 7 = 2 ∧ t.m.objN 0x7C01 8 = 1))

/-- Fettling tests region after region, retries a region that yields and skips one that starves. -/
def Obligations.FettlingRotatesAndYields : Prop :=
  (∀ (s : State) (q : Nat), s.m.fettles s.ctx = true → s.m.scheduled = false → s.m.test.sliceWord + us 16667 ≤ s.m.timeWord →
    s.m.objN 0x7C00 4 = q → q < 315392 → s.m.armedAt 24 (macroPlace memCounts (q / 128)).1 = false →
    s.m.objN 0x7C00 6 < 18446744073709551615 → s.m.objN 0x7C00 5 < 18446744073709551615 →
    Runs (.fettlingSlicePeriod []) s (fun t => t.m.objN 0x7C00 4 = (if q = 315391 then 0 else q + 1) ∧
    t.m.objN 0x7C00 6 = s.m.objN 0x7C00 6 + 1 ∧ t.m.objN 0x7C00 5 = s.m.objN 0x7C00 5 + (if q = 315391 then 1 else 0) ∧
    t.m.test.last = some q ∧ t.m.test.sliceWord = s.m.timeWord)) ∧
  (∀ (s : State) (found : List (Nat × Nat)), s.m.fettles s.ctx = false → Runs (.fettlingSlicePeriod found) s (fun t => t = s)) ∧
  (∀ (s : State) (region q : Nat), s.m.test.last = some q → s.m.now ≤ s.m.test.sliceAt + us 20 → s.m.objN 0x7C00 4 = q + 1 →
    q < 315391 → s.m.test.yields < 7 → s.m.objN 0x7C00 7 < 18446744073709551615 →
    Runs (.fettlingYield false region) s (fun t => t.m.objN 0x7C00 4 = q ∧ t.m.test.yields = s.m.test.yields + 1 ∧
    t.m.objN 0x7C00 7 = s.m.objN 0x7C00 7 + 1)) ∧
  (∀ (s : State) (region q : Nat), s.m.test.last = some q → s.m.now ≤ s.m.test.sliceAt + us 20 → s.m.objN 0x7C00 4 = q + 1 →
    q < 315391 → s.m.test.yields = 7 → s.m.objN 0x7C00 8 < 4294967295 →
    Runs (.fettlingYield false region) s (fun t => t.m.objN 0x7C00 4 = q + 1 ∧ t.m.objN 0x7C00 8 = s.m.objN 0x7C00 8 + 1 ∧
    t.m.test.yields = 0 ∧ t.m.jrn.newest = s.m.jrn.newest + 1)) ∧
  (∀ (s : State), s.m.scheduled = false → s.m.power ≤ 2 → 6 ≤ s.m.boot.step → s.m.test.ledgerAt + us 16667 ≤ s.m.now →
    Runs (.ledgerUpdatePeriod) s (fun t => t.m.test.ledgerAt = s.m.now ∧ t.m.test.passed = [])) ∧
  (∀ (s : State) (q : Nat), s.m.scheduled = false → s.m.power ≤ 2 → 6 ≤ s.m.boot.step → s.m.test.ledgerAt + us 16667 ≤ s.m.now →
    s.m.coreUp 3 = true → s.m.dram.failed = [q] → q < 36 → s.m.dram.takeOver = none →
    Runs (.ledgerUpdatePeriod) s (fun t => t.m.objN (0x7010 + q) 1 = 4 ∧ t.m.dram.failed = [] ∧
    t.m.test.ledger = (upTo 9).map t.m.ledgerRow))

/-- The injection window opens, closes and expires, and injections start within it, as R523 and R524 say. -/
def Obligations.InjectionNeedsItsWindow : Prop :=
  (∀ (s : State) (w : WriteReq) (p : Put) (m : Mach), Reaches s 0x7F00 1 w p m → ofBE w.value = 0x4C437F01 → p.n = 0x4C437F01 →
    Runs (.windowOpen w) s (fun t => t.m.objB 0x7F00 2 = true ∧ t.m.test.openedAt = m.now)) ∧
  (∀ (s : State) (w : WriteReq) (p : Put) (m : Mach), Reaches s 0x7F00 1 w p m → ofBE w.value = 0x4C437F00 → p.n = 0x4C437F00 →
    m.objB 0x7F00 2 = true → Runs (.windowClose w) s (fun t => t.m.objB 0x7F00 2 = false ∧ t.m.test.armed = none ∧
    t.m.objN 0x7F01 6 = 0 ∧ t.m.jrn.newest = m.jrn.newest + 1)) ∧
  (∀ (s : State), s.m.objB 0x7F00 2 = true → s.m.test.openedAt + sec 60 ≤ s.m.now →
    Runs (.windowExpiry) s (fun t => t.m.objB 0x7F00 2 = false ∧ t.m.test.armed = none ∧ t.m.jrn.newest = s.m.jrn.newest + 1)) ∧
  (∀ (s : State) (q : Nat) (w : WriteReq) (p : Put) (m : Mach), Reaches s 0x7F01 5 w p m → ofBE w.value = 0x4C437F61 →
    p.n = 0x4C437F61 → m.objN 0x7F01 1 = q → (q = 5 ∨ q = 9 ∨ q = 18 ∨ q = 24) → m.testRunning = false →
    m.injectionAllowed s.ctx = true → m.objN 0x7F01 2 < pointInstances q → m.objN 0x7F01 7 < 4294967295 →
    Runs (.injectionStart w) s (fun t => t.m.armedAt q (m.objN 0x7F01 2) = true ∧ t.m.objN 0x7F01 7 = m.objN 0x7F01 7 + 1 ∧
    t.m.objN 0x7F01 6 = (if m.objB 0x7F01 3 then 2 else 1))) ∧
  (∀ (s : State) (w : WriteReq) (p : Put) (m : Mach), Reaches s 0x7F01 5 w p m → ofBE w.value = 0x4C437F61 → p.n = 0x4C437F61 →
    m.objN 0x7F01 1 = 20 → m.injectionAllowed s.ctx = true → m.objN 0x7F01 2 < 4 → m.objB 0x7F01 3 = false →
    Runs (.injectionStart w) s (fun t => t.m.test.timed.head? = some (20, m.objN 0x7F01 2, 0, m.now + ms 50) ∧
    t.m.test.armed = none ∧ t.m.objN 0x7F01 6 = 0)) ∧
  (∀ (s : State) (q : Nat) (w : WriteReq) (p : Put) (m : Mach), Reaches s 0x7F01 5 w p m → ofBE w.value = 0x4C437F61 →
    p.n = 0x4C437F61 → m.objN 0x7F01 1 = q → q < 25 → (m.injectionAllowed s.ctx = false ∨ pointInstances q ≤ m.objN 0x7F01 2) →
    Runs (.injectionStart w) s (fun t => SameBut t.m m ∧ t.mem = s.mem)) ∧
  (∀ (s : State) (w : WriteReq) (p : Put) (m : Mach), Reaches s 0x7F01 5 w p m → ofBE w.value = 0x4C437F60 → p.n = 0x4C437F60 →
    m.test.armed.isSome = true → Runs (.injectionStop w) s (fun t => t.m.test.armed = none ∧ t.m.objN 0x7F01 6 = 0)) ∧
  (∀ (s : State) (a : Inject), s.m.test.armed = some a → a.periodic = true → a.point = 9 → a.at_ + ms a.value ≤ s.m.now →
    s.m.injectionAllowed s.ctx = true → s.m.objN 0x7F01 7 < 4294967295 →
    Runs (.injectionPeriod) s (fun t => t.m.test.armed = some { a with at_ := s.m.now, live := true, slot := s.m.slotsUsed } ∧
    t.m.objN 0x7F01 7 = s.m.objN 0x7F01 7 + 1))

/-- The start sequence goes through its steps, keeps what survives a stop and defaults the rest. -/
def Obligations.StartSequenceRunsInOrder : Prop :=
  (∀ (s : State) (x : StartInput), s.m.boot.recovery = false → s.m.boot.shut = 0 → s.m.boot.step = 0 → s.m.power_.startable = true →
    (s.m.power_.cold = false ∨ 3920 ≤ s.m.objN 0x2000 3) → (s.m.power_.lastStop ≠ 5 ∨ s.m.power_.downAt + ms 100 ≤ s.m.now) →
    Runs (.start 1 x) s (fun t => t.m.boot.step = 1 ∧ t.m.power = 0 ∧ t.life = s.life ∧ t.m.koa.sessions = [] ∧
    t.m.objN 0x5000 4 = State.reset.m.objN 0x5000 4 ∧ t.m.power_.startable = false)) ∧
  (∀ (s : State) (x : StartInput), s.m.boot.recovery = false → s.m.boot.shut = 0 → s.m.boot.step = 1 →
    Runs (.start 2 x) s (fun t => t.m.boot.step = 2)) ∧
  (∀ (s : State) (x : StartInput), s.m.boot.recovery = false → s.m.boot.shut = 0 → s.m.boot.step = 2 →
    s.m.boot.record.trial = false → s.m.boot.record.selected = 1 → s.m.boot.record.validB = true →
    Runs (.start 3 x) s (fun t => t.m.boot.step = 3 ∧ t.m.boot.record.running = 1 ∧ t.m.objN 0x1001 1 = 1 ∧
    t.m.boot.record.fallback = 0)) ∧
  (∀ (s : State) (x : StartInput), s.m.boot.recovery = false → s.m.boot.shut = 0 → s.m.boot.step = 2 →
    s.m.boot.record.validA = false → s.m.boot.record.validB = false → Runs (.start 3 x) s (fun t => t.m.boot.recovery = true)) ∧
  (∀ (s : State) (n : Nat) (x : StartInput), s.m.boot.recovery = false → s.m.boot.shut = 0 → (n = 4 ∨ n = 5 ∨ n = 6 ∨ n = 7) →
    s.m.boot.step + 1 = n → 5 ≤ s.m.phasesIn 1 → Runs (.start n x) s (fun t => t.m.boot.step = n)) ∧
  (∀ (s : State) (x : StartInput) (q : Nat), s.m.boot.recovery = false → s.m.boot.shut = 0 → s.m.boot.step = 3 → q < 36 →
    s.m.dram.chans.length = 36 → s.m.objN (0x7010 + q) 1 ≠ 4 → s.m.backs q = none →
    (x.failed.find? (fun f => f.1 = q)).map Prod.snd = some [0, 4] → s.m.objN (0x7010 + q) 0x0A < 4294967294 →
    Runs (.start 4 x) s (fun t => t.m.dram.failed.contains q = true ∧
    t.m.objN (0x7010 + q) 0x0A = s.m.objN (0x7010 + q) 0x0A + 2 ∧ (t.m.chan q).trained = 4)) ∧
  (∀ (s : State) (x : StartInput), s.m.boot.recovery = false → s.m.boot.shut = 0 → s.m.boot.step = 5 → s.m.phasesIn 1 = 5 →
    s.m.phasesIn 0 = 0 → Runs (.start 6 x) s (fun t => t.m.boot.step = 6 ∧ t.m.objN 0x2000 0x0A = 3)) ∧
  (∀ (s : State) (x : StartInput), s.m.boot.recovery = false → s.m.boot.shut = 0 → s.m.boot.step = 7 → s.m.stage ≤ 5 →
    Runs (.start 8 x) s (fun t => t.m.boot.step = 8 ∧ s.m.jrn.newest < t.m.jrn.newest ∧ t.m.boot.heatsFrom.isSome = true)) ∧
  (∀ (s : State) (x : StartInput), s.m.power_.cold = true → s.m.objN 0x2000 3 < 3920 → Runs (.start 1 x) s (fun t => t = s)) ∧
  (∀ (s : State) (n : Nat) (x : StartInput), (n ≠ s.m.boot.step + 1 ∨ s.m.boot.recovery = true) →
    Runs (.start n x) s (fun t => t = s))

/-- Core resets, bus errors, the trial period and the shutdown's limit act as R536, R539 and R541 to R543 say. -/
def Obligations.WatchdogsAndFaultHandling : Prop :=
  (∀ (s : State) (core last : Nat), s.m.power ≤ 2 → 5 ≤ s.m.boot.step → core < 4 → s.m.recentResets.length < 2 →
    Runs (.coreWatchdogExpiry core last) s (fun t => t.m.boot.cores.contains core = true ∧ t.m.jrn.newest = s.m.jrn.newest + 1 ∧
    t.m.boot.resets.head? = some s.m.now ∧ t.m.power = s.m.power)) ∧
  (∀ (s : State) (core : Nat), (core ≠ 1 ∨ s.m.settled = true) → (core ≠ 2 ∨ s.m.tiles.later = []) →
    Runs (.coreRestarted core) s (fun t => t.m.boot.cores = s.m.boot.cores.filter (· != core))) ∧
  (∀ (s : State) (core a : Nat), s.m.power ≤ 2 → 5 ≤ s.m.boot.step → core < 4 →
    Runs (.internalBusError core 2 a) s (fun t => t.m.power_.absent.contains a = true ∧ t.m.jrn.newest = s.m.jrn.newest + 1 ∧
    t.m.boot.cores = s.m.boot.cores)) ∧
  (∀ (s : State), s.m.boot.record.trial = true → 8 ≤ s.m.boot.step → s.m.boot.record.running = s.m.boot.record.selected →
    sec 600 ≤ s.m.clk.active → Runs (.trialPeriodEnd) s (fun t => t.m.boot.record.trial = false ∧
    t.m.boot.record.selected = s.m.boot.record.selected)) ∧
  (∀ (s : State) (v : Nat), s.m.koa.imageWriting = some v → s.m.boot.recovery = false →
    Runs (.imageFlashWritten) s (fun t => t.m.boot.record.selected = 1 - s.m.boot.record.running ∧ t.m.boot.record.trial = true ∧
    t.m.boot.record.count = 0 ∧ t.m.koa.imageWriting = none ∧ t.m.objN 0x1003 1 = 2)) ∧
  (∀ (s : State), s.m.boot.shut = 2 → s.m.boot.shutCause = 0 → s.m.boot.t1 + sec 3 ≤ s.m.now → s.m.objB 0x7C00 9 = true →
    s.life ≠ .retired → Runs (.checkpointLimit) s (fun t => t.m.boot.shut = 5 ∧ t.m.panel.checkpoints = [] ∧
    t.m.test.shakeoutAt = s.m.now)) ∧
  (∀ (s : State), (upTo 7).all (fun k => !s.m.armedAt 24 k) = true → s.m.boot.shut = 5 → s.m.power ≤ 3 →
    Runs (.shakeoutEnd []) s (fun t => t.m.power = 4 ∧ t.m.objN 0x7C00 0x0A = 1 ∧ t.mem = []))
end

