-- ==== Sys2Proof/Laws/State.lean ====
section
/-! SUPPORT. What each update of the block leaves alone: one lemma for each field and update. -/

namespace Sys2Proof.Machine

/-! Any objects, any byte strings -/

theorem Mach.withOd_strs (m : Mach) (l : List (Nat × Int)) : (({ m with od := l } : Mach)).strs = m.strs := rfl
theorem Mach.withOd_clk (m : Mach) (l : List (Nat × Int)) : (({ m with od := l } : Mach)).clk = m.clk := rfl
theorem Mach.withOd_koa (m : Mach) (l : List (Nat × Int)) : (({ m with od := l } : Mach)).koa = m.koa := rfl
theorem Mach.withOd_jrn (m : Mach) (l : List (Nat × Int)) : (({ m with od := l } : Mach)).jrn = m.jrn := rfl
theorem Mach.withOd_boot (m : Mach) (l : List (Nat × Int)) : (({ m with od := l } : Mach)).boot = m.boot := rfl
theorem Mach.withOd_net (m : Mach) (l : List (Nat × Int)) : (({ m with od := l } : Mach)).net = m.net := rfl
theorem Mach.withOd_ptp (m : Mach) (l : List (Nat × Int)) : (({ m with od := l } : Mach)).ptp = m.ptp := rfl
theorem Mach.withOd_dram (m : Mach) (l : List (Nat × Int)) : (({ m with od := l } : Mach)).dram = m.dram := rfl
theorem Mach.withOd_codec (m : Mach) (l : List (Nat × Int)) : (({ m with od := l } : Mach)).codec = m.codec := rfl
theorem Mach.withOd_lanes (m : Mach) (l : List (Nat × Int)) : (({ m with od := l } : Mach)).lanes = m.lanes := rfl
theorem Mach.withOd_tiles (m : Mach) (l : List (Nat × Int)) : (({ m with od := l } : Mach)).tiles = m.tiles := rfl
theorem Mach.withOd_scene (m : Mach) (l : List (Nat × Int)) : (({ m with od := l } : Mach)).scene = m.scene := rfl
theorem Mach.withOd_outs (m : Mach) (l : List (Nat × Int)) : (({ m with od := l } : Mach)).outs = m.outs := rfl
theorem Mach.withOd_pipe (m : Mach) (l : List (Nat × Int)) : (({ m with od := l } : Mach)).pipe = m.pipe := rfl
theorem Mach.withOd_panel (m : Mach) (l : List (Nat × Int)) : (({ m with od := l } : Mach)).panel = m.panel := rfl
theorem Mach.withOd_power_ (m : Mach) (l : List (Nat × Int)) : (({ m with od := l } : Mach)).power_ = m.power_ := rfl
theorem Mach.withOd_thermal (m : Mach) (l : List (Nat × Int)) : (({ m with od := l } : Mach)).thermal = m.thermal := rfl
theorem Mach.withOd_calib (m : Mach) (l : List (Nat × Int)) : (({ m with od := l } : Mach)).calib = m.calib := rfl
theorem Mach.withOd_test (m : Mach) (l : List (Nat × Int)) : (({ m with od := l } : Mach)).test = m.test := rfl
theorem Mach.withOd_out (m : Mach) (l : List (Nat × Int)) : (({ m with od := l } : Mach)).out = m.out := rfl
theorem Mach.withOd_free (m : Mach) (l : List (Nat × Int)) : (({ m with od := l } : Mach)).free = m.free := rfl
theorem Mach.withStrs_od (m : Mach) (l : List (Nat × Bytes)) : (({ m with strs := l } : Mach)).od = m.od := rfl
theorem Mach.withStrs_clk (m : Mach) (l : List (Nat × Bytes)) : (({ m with strs := l } : Mach)).clk = m.clk := rfl
theorem Mach.withStrs_koa (m : Mach) (l : List (Nat × Bytes)) : (({ m with strs := l } : Mach)).koa = m.koa := rfl
theorem Mach.withStrs_jrn (m : Mach) (l : List (Nat × Bytes)) : (({ m with strs := l } : Mach)).jrn = m.jrn := rfl
theorem Mach.withStrs_boot (m : Mach) (l : List (Nat × Bytes)) : (({ m with strs := l } : Mach)).boot = m.boot := rfl
theorem Mach.withStrs_net (m : Mach) (l : List (Nat × Bytes)) : (({ m with strs := l } : Mach)).net = m.net := rfl
theorem Mach.withStrs_ptp (m : Mach) (l : List (Nat × Bytes)) : (({ m with strs := l } : Mach)).ptp = m.ptp := rfl
theorem Mach.withStrs_dram (m : Mach) (l : List (Nat × Bytes)) : (({ m with strs := l } : Mach)).dram = m.dram := rfl
theorem Mach.withStrs_codec (m : Mach) (l : List (Nat × Bytes)) : (({ m with strs := l } : Mach)).codec = m.codec := rfl
theorem Mach.withStrs_lanes (m : Mach) (l : List (Nat × Bytes)) : (({ m with strs := l } : Mach)).lanes = m.lanes := rfl
theorem Mach.withStrs_tiles (m : Mach) (l : List (Nat × Bytes)) : (({ m with strs := l } : Mach)).tiles = m.tiles := rfl
theorem Mach.withStrs_scene (m : Mach) (l : List (Nat × Bytes)) : (({ m with strs := l } : Mach)).scene = m.scene := rfl
theorem Mach.withStrs_outs (m : Mach) (l : List (Nat × Bytes)) : (({ m with strs := l } : Mach)).outs = m.outs := rfl
theorem Mach.withStrs_pipe (m : Mach) (l : List (Nat × Bytes)) : (({ m with strs := l } : Mach)).pipe = m.pipe := rfl
theorem Mach.withStrs_panel (m : Mach) (l : List (Nat × Bytes)) : (({ m with strs := l } : Mach)).panel = m.panel := rfl
theorem Mach.withStrs_power_ (m : Mach) (l : List (Nat × Bytes)) : (({ m with strs := l } : Mach)).power_ = m.power_ := rfl
theorem Mach.withStrs_thermal (m : Mach) (l : List (Nat × Bytes)) : (({ m with strs := l } : Mach)).thermal = m.thermal := rfl
theorem Mach.withStrs_calib (m : Mach) (l : List (Nat × Bytes)) : (({ m with strs := l } : Mach)).calib = m.calib := rfl
theorem Mach.withStrs_test (m : Mach) (l : List (Nat × Bytes)) : (({ m with strs := l } : Mach)).test = m.test := rfl
theorem Mach.withStrs_out (m : Mach) (l : List (Nat × Bytes)) : (({ m with strs := l } : Mach)).out = m.out := rfl
theorem Mach.withStrs_free (m : Mach) (l : List (Nat × Bytes)) : (({ m with strs := l } : Mach)).free = m.free := rfl

/-! `Mach.set` -/

@[simp] theorem Mach.set_strs (m : Mach) (ix sub : Nat) (v : Int) (bank : Nat) : (m.set ix sub v bank).strs = m.strs := Mach.withOd_strs m _
@[simp] theorem Mach.set_clk (m : Mach) (ix sub : Nat) (v : Int) (bank : Nat) : (m.set ix sub v bank).clk = m.clk := Mach.withOd_clk m _
@[simp] theorem Mach.set_koa (m : Mach) (ix sub : Nat) (v : Int) (bank : Nat) : (m.set ix sub v bank).koa = m.koa := Mach.withOd_koa m _
@[simp] theorem Mach.set_jrn (m : Mach) (ix sub : Nat) (v : Int) (bank : Nat) : (m.set ix sub v bank).jrn = m.jrn := Mach.withOd_jrn m _
@[simp] theorem Mach.set_boot (m : Mach) (ix sub : Nat) (v : Int) (bank : Nat) : (m.set ix sub v bank).boot = m.boot := Mach.withOd_boot m _
@[simp] theorem Mach.set_net (m : Mach) (ix sub : Nat) (v : Int) (bank : Nat) : (m.set ix sub v bank).net = m.net := Mach.withOd_net m _
@[simp] theorem Mach.set_ptp (m : Mach) (ix sub : Nat) (v : Int) (bank : Nat) : (m.set ix sub v bank).ptp = m.ptp := Mach.withOd_ptp m _
@[simp] theorem Mach.set_dram (m : Mach) (ix sub : Nat) (v : Int) (bank : Nat) : (m.set ix sub v bank).dram = m.dram := Mach.withOd_dram m _
@[simp] theorem Mach.set_codec (m : Mach) (ix sub : Nat) (v : Int) (bank : Nat) : (m.set ix sub v bank).codec = m.codec := Mach.withOd_codec m _
@[simp] theorem Mach.set_lanes (m : Mach) (ix sub : Nat) (v : Int) (bank : Nat) : (m.set ix sub v bank).lanes = m.lanes := Mach.withOd_lanes m _
@[simp] theorem Mach.set_tiles (m : Mach) (ix sub : Nat) (v : Int) (bank : Nat) : (m.set ix sub v bank).tiles = m.tiles := Mach.withOd_tiles m _
@[simp] theorem Mach.set_scene (m : Mach) (ix sub : Nat) (v : Int) (bank : Nat) : (m.set ix sub v bank).scene = m.scene := Mach.withOd_scene m _
@[simp] theorem Mach.set_outs (m : Mach) (ix sub : Nat) (v : Int) (bank : Nat) : (m.set ix sub v bank).outs = m.outs := Mach.withOd_outs m _
@[simp] theorem Mach.set_pipe (m : Mach) (ix sub : Nat) (v : Int) (bank : Nat) : (m.set ix sub v bank).pipe = m.pipe := Mach.withOd_pipe m _
@[simp] theorem Mach.set_panel (m : Mach) (ix sub : Nat) (v : Int) (bank : Nat) : (m.set ix sub v bank).panel = m.panel := Mach.withOd_panel m _
@[simp] theorem Mach.set_power_ (m : Mach) (ix sub : Nat) (v : Int) (bank : Nat) : (m.set ix sub v bank).power_ = m.power_ := Mach.withOd_power_ m _
@[simp] theorem Mach.set_thermal (m : Mach) (ix sub : Nat) (v : Int) (bank : Nat) : (m.set ix sub v bank).thermal = m.thermal := Mach.withOd_thermal m _
@[simp] theorem Mach.set_calib (m : Mach) (ix sub : Nat) (v : Int) (bank : Nat) : (m.set ix sub v bank).calib = m.calib := Mach.withOd_calib m _
@[simp] theorem Mach.set_test (m : Mach) (ix sub : Nat) (v : Int) (bank : Nat) : (m.set ix sub v bank).test = m.test := Mach.withOd_test m _
@[simp] theorem Mach.set_out (m : Mach) (ix sub : Nat) (v : Int) (bank : Nat) : (m.set ix sub v bank).out = m.out := Mach.withOd_out m _
@[simp] theorem Mach.set_free (m : Mach) (ix sub : Nat) (v : Int) (bank : Nat) : (m.set ix sub v bank).free = m.free := Mach.withOd_free m _

/-! `Mach.setN` -/

@[simp] theorem Mach.setN_strs (m : Mach) (ix sub : Nat) (v : Nat) (bank : Nat) : (m.setN ix sub v bank).strs = m.strs := Mach.set_strs m ix sub _ bank
@[simp] theorem Mach.setN_clk (m : Mach) (ix sub : Nat) (v : Nat) (bank : Nat) : (m.setN ix sub v bank).clk = m.clk := Mach.set_clk m ix sub _ bank
@[simp] theorem Mach.setN_koa (m : Mach) (ix sub : Nat) (v : Nat) (bank : Nat) : (m.setN ix sub v bank).koa = m.koa := Mach.set_koa m ix sub _ bank
@[simp] theorem Mach.setN_jrn (m : Mach) (ix sub : Nat) (v : Nat) (bank : Nat) : (m.setN ix sub v bank).jrn = m.jrn := Mach.set_jrn m ix sub _ bank
@[simp] theorem Mach.setN_boot (m : Mach) (ix sub : Nat) (v : Nat) (bank : Nat) : (m.setN ix sub v bank).boot = m.boot := Mach.set_boot m ix sub _ bank
@[simp] theorem Mach.setN_net (m : Mach) (ix sub : Nat) (v : Nat) (bank : Nat) : (m.setN ix sub v bank).net = m.net := Mach.set_net m ix sub _ bank
@[simp] theorem Mach.setN_ptp (m : Mach) (ix sub : Nat) (v : Nat) (bank : Nat) : (m.setN ix sub v bank).ptp = m.ptp := Mach.set_ptp m ix sub _ bank
@[simp] theorem Mach.setN_dram (m : Mach) (ix sub : Nat) (v : Nat) (bank : Nat) : (m.setN ix sub v bank).dram = m.dram := Mach.set_dram m ix sub _ bank
@[simp] theorem Mach.setN_codec (m : Mach) (ix sub : Nat) (v : Nat) (bank : Nat) : (m.setN ix sub v bank).codec = m.codec := Mach.set_codec m ix sub _ bank
@[simp] theorem Mach.setN_lanes (m : Mach) (ix sub : Nat) (v : Nat) (bank : Nat) : (m.setN ix sub v bank).lanes = m.lanes := Mach.set_lanes m ix sub _ bank
@[simp] theorem Mach.setN_tiles (m : Mach) (ix sub : Nat) (v : Nat) (bank : Nat) : (m.setN ix sub v bank).tiles = m.tiles := Mach.set_tiles m ix sub _ bank
@[simp] theorem Mach.setN_scene (m : Mach) (ix sub : Nat) (v : Nat) (bank : Nat) : (m.setN ix sub v bank).scene = m.scene := Mach.set_scene m ix sub _ bank
@[simp] theorem Mach.setN_outs (m : Mach) (ix sub : Nat) (v : Nat) (bank : Nat) : (m.setN ix sub v bank).outs = m.outs := Mach.set_outs m ix sub _ bank
@[simp] theorem Mach.setN_pipe (m : Mach) (ix sub : Nat) (v : Nat) (bank : Nat) : (m.setN ix sub v bank).pipe = m.pipe := Mach.set_pipe m ix sub _ bank
@[simp] theorem Mach.setN_panel (m : Mach) (ix sub : Nat) (v : Nat) (bank : Nat) : (m.setN ix sub v bank).panel = m.panel := Mach.set_panel m ix sub _ bank
@[simp] theorem Mach.setN_power_ (m : Mach) (ix sub : Nat) (v : Nat) (bank : Nat) : (m.setN ix sub v bank).power_ = m.power_ := Mach.set_power_ m ix sub _ bank
@[simp] theorem Mach.setN_thermal (m : Mach) (ix sub : Nat) (v : Nat) (bank : Nat) : (m.setN ix sub v bank).thermal = m.thermal := Mach.set_thermal m ix sub _ bank
@[simp] theorem Mach.setN_calib (m : Mach) (ix sub : Nat) (v : Nat) (bank : Nat) : (m.setN ix sub v bank).calib = m.calib := Mach.set_calib m ix sub _ bank
@[simp] theorem Mach.setN_test (m : Mach) (ix sub : Nat) (v : Nat) (bank : Nat) : (m.setN ix sub v bank).test = m.test := Mach.set_test m ix sub _ bank
@[simp] theorem Mach.setN_out (m : Mach) (ix sub : Nat) (v : Nat) (bank : Nat) : (m.setN ix sub v bank).out = m.out := Mach.set_out m ix sub _ bank
@[simp] theorem Mach.setN_free (m : Mach) (ix sub : Nat) (v : Nat) (bank : Nat) : (m.setN ix sub v bank).free = m.free := Mach.set_free m ix sub _ bank

/-! `Mach.setB` -/

@[simp] theorem Mach.setB_strs (m : Mach) (ix sub : Nat) (v : Bool) (bank : Nat) : (m.setB ix sub v bank).strs = m.strs := Mach.set_strs m ix sub _ bank
@[simp] theorem Mach.setB_clk (m : Mach) (ix sub : Nat) (v : Bool) (bank : Nat) : (m.setB ix sub v bank).clk = m.clk := Mach.set_clk m ix sub _ bank
@[simp] theorem Mach.setB_koa (m : Mach) (ix sub : Nat) (v : Bool) (bank : Nat) : (m.setB ix sub v bank).koa = m.koa := Mach.set_koa m ix sub _ bank
@[simp] theorem Mach.setB_jrn (m : Mach) (ix sub : Nat) (v : Bool) (bank : Nat) : (m.setB ix sub v bank).jrn = m.jrn := Mach.set_jrn m ix sub _ bank
@[simp] theorem Mach.setB_boot (m : Mach) (ix sub : Nat) (v : Bool) (bank : Nat) : (m.setB ix sub v bank).boot = m.boot := Mach.set_boot m ix sub _ bank
@[simp] theorem Mach.setB_net (m : Mach) (ix sub : Nat) (v : Bool) (bank : Nat) : (m.setB ix sub v bank).net = m.net := Mach.set_net m ix sub _ bank
@[simp] theorem Mach.setB_ptp (m : Mach) (ix sub : Nat) (v : Bool) (bank : Nat) : (m.setB ix sub v bank).ptp = m.ptp := Mach.set_ptp m ix sub _ bank
@[simp] theorem Mach.setB_dram (m : Mach) (ix sub : Nat) (v : Bool) (bank : Nat) : (m.setB ix sub v bank).dram = m.dram := Mach.set_dram m ix sub _ bank
@[simp] theorem Mach.setB_codec (m : Mach) (ix sub : Nat) (v : Bool) (bank : Nat) : (m.setB ix sub v bank).codec = m.codec := Mach.set_codec m ix sub _ bank
@[simp] theorem Mach.setB_lanes (m : Mach) (ix sub : Nat) (v : Bool) (bank : Nat) : (m.setB ix sub v bank).lanes = m.lanes := Mach.set_lanes m ix sub _ bank
@[simp] theorem Mach.setB_tiles (m : Mach) (ix sub : Nat) (v : Bool) (bank : Nat) : (m.setB ix sub v bank).tiles = m.tiles := Mach.set_tiles m ix sub _ bank
@[simp] theorem Mach.setB_scene (m : Mach) (ix sub : Nat) (v : Bool) (bank : Nat) : (m.setB ix sub v bank).scene = m.scene := Mach.set_scene m ix sub _ bank
@[simp] theorem Mach.setB_outs (m : Mach) (ix sub : Nat) (v : Bool) (bank : Nat) : (m.setB ix sub v bank).outs = m.outs := Mach.set_outs m ix sub _ bank
@[simp] theorem Mach.setB_pipe (m : Mach) (ix sub : Nat) (v : Bool) (bank : Nat) : (m.setB ix sub v bank).pipe = m.pipe := Mach.set_pipe m ix sub _ bank
@[simp] theorem Mach.setB_panel (m : Mach) (ix sub : Nat) (v : Bool) (bank : Nat) : (m.setB ix sub v bank).panel = m.panel := Mach.set_panel m ix sub _ bank
@[simp] theorem Mach.setB_power_ (m : Mach) (ix sub : Nat) (v : Bool) (bank : Nat) : (m.setB ix sub v bank).power_ = m.power_ := Mach.set_power_ m ix sub _ bank
@[simp] theorem Mach.setB_thermal (m : Mach) (ix sub : Nat) (v : Bool) (bank : Nat) : (m.setB ix sub v bank).thermal = m.thermal := Mach.set_thermal m ix sub _ bank
@[simp] theorem Mach.setB_calib (m : Mach) (ix sub : Nat) (v : Bool) (bank : Nat) : (m.setB ix sub v bank).calib = m.calib := Mach.set_calib m ix sub _ bank
@[simp] theorem Mach.setB_test (m : Mach) (ix sub : Nat) (v : Bool) (bank : Nat) : (m.setB ix sub v bank).test = m.test := Mach.set_test m ix sub _ bank
@[simp] theorem Mach.setB_out (m : Mach) (ix sub : Nat) (v : Bool) (bank : Nat) : (m.setB ix sub v bank).out = m.out := Mach.set_out m ix sub _ bank
@[simp] theorem Mach.setB_free (m : Mach) (ix sub : Nat) (v : Bool) (bank : Nat) : (m.setB ix sub v bank).free = m.free := Mach.set_free m ix sub _ bank

/-! `Mach.setStr` -/

@[simp] theorem Mach.setStr_od (m : Mach) (ix sub : Nat) (v : Bytes) (bank : Nat) : (m.setStr ix sub v bank).od = m.od := Mach.withStrs_od m _
@[simp] theorem Mach.setStr_clk (m : Mach) (ix sub : Nat) (v : Bytes) (bank : Nat) : (m.setStr ix sub v bank).clk = m.clk := Mach.withStrs_clk m _
@[simp] theorem Mach.setStr_koa (m : Mach) (ix sub : Nat) (v : Bytes) (bank : Nat) : (m.setStr ix sub v bank).koa = m.koa := Mach.withStrs_koa m _
@[simp] theorem Mach.setStr_jrn (m : Mach) (ix sub : Nat) (v : Bytes) (bank : Nat) : (m.setStr ix sub v bank).jrn = m.jrn := Mach.withStrs_jrn m _
@[simp] theorem Mach.setStr_boot (m : Mach) (ix sub : Nat) (v : Bytes) (bank : Nat) : (m.setStr ix sub v bank).boot = m.boot := Mach.withStrs_boot m _
@[simp] theorem Mach.setStr_net (m : Mach) (ix sub : Nat) (v : Bytes) (bank : Nat) : (m.setStr ix sub v bank).net = m.net := Mach.withStrs_net m _
@[simp] theorem Mach.setStr_ptp (m : Mach) (ix sub : Nat) (v : Bytes) (bank : Nat) : (m.setStr ix sub v bank).ptp = m.ptp := Mach.withStrs_ptp m _
@[simp] theorem Mach.setStr_dram (m : Mach) (ix sub : Nat) (v : Bytes) (bank : Nat) : (m.setStr ix sub v bank).dram = m.dram := Mach.withStrs_dram m _
@[simp] theorem Mach.setStr_codec (m : Mach) (ix sub : Nat) (v : Bytes) (bank : Nat) : (m.setStr ix sub v bank).codec = m.codec := Mach.withStrs_codec m _
@[simp] theorem Mach.setStr_lanes (m : Mach) (ix sub : Nat) (v : Bytes) (bank : Nat) : (m.setStr ix sub v bank).lanes = m.lanes := Mach.withStrs_lanes m _
@[simp] theorem Mach.setStr_tiles (m : Mach) (ix sub : Nat) (v : Bytes) (bank : Nat) : (m.setStr ix sub v bank).tiles = m.tiles := Mach.withStrs_tiles m _
@[simp] theorem Mach.setStr_scene (m : Mach) (ix sub : Nat) (v : Bytes) (bank : Nat) : (m.setStr ix sub v bank).scene = m.scene := Mach.withStrs_scene m _
@[simp] theorem Mach.setStr_outs (m : Mach) (ix sub : Nat) (v : Bytes) (bank : Nat) : (m.setStr ix sub v bank).outs = m.outs := Mach.withStrs_outs m _
@[simp] theorem Mach.setStr_pipe (m : Mach) (ix sub : Nat) (v : Bytes) (bank : Nat) : (m.setStr ix sub v bank).pipe = m.pipe := Mach.withStrs_pipe m _
@[simp] theorem Mach.setStr_panel (m : Mach) (ix sub : Nat) (v : Bytes) (bank : Nat) : (m.setStr ix sub v bank).panel = m.panel := Mach.withStrs_panel m _
@[simp] theorem Mach.setStr_power_ (m : Mach) (ix sub : Nat) (v : Bytes) (bank : Nat) : (m.setStr ix sub v bank).power_ = m.power_ := Mach.withStrs_power_ m _
@[simp] theorem Mach.setStr_thermal (m : Mach) (ix sub : Nat) (v : Bytes) (bank : Nat) : (m.setStr ix sub v bank).thermal = m.thermal := Mach.withStrs_thermal m _
@[simp] theorem Mach.setStr_calib (m : Mach) (ix sub : Nat) (v : Bytes) (bank : Nat) : (m.setStr ix sub v bank).calib = m.calib := Mach.withStrs_calib m _
@[simp] theorem Mach.setStr_test (m : Mach) (ix sub : Nat) (v : Bytes) (bank : Nat) : (m.setStr ix sub v bank).test = m.test := Mach.withStrs_test m _
@[simp] theorem Mach.setStr_out (m : Mach) (ix sub : Nat) (v : Bytes) (bank : Nat) : (m.setStr ix sub v bank).out = m.out := Mach.withStrs_out m _
@[simp] theorem Mach.setStr_free (m : Mach) (ix sub : Nat) (v : Bytes) (bank : Nat) : (m.setStr ix sub v bank).free = m.free := Mach.withStrs_free m _

/-! `Mach.emit` -/

@[simp] theorem Mach.emit_od (m : Mach) (o : Out) : (m.emit o).od = m.od := rfl
@[simp] theorem Mach.emit_strs (m : Mach) (o : Out) : (m.emit o).strs = m.strs := rfl
@[simp] theorem Mach.emit_clk (m : Mach) (o : Out) : (m.emit o).clk = m.clk := rfl
@[simp] theorem Mach.emit_koa (m : Mach) (o : Out) : (m.emit o).koa = m.koa := rfl
@[simp] theorem Mach.emit_jrn (m : Mach) (o : Out) : (m.emit o).jrn = m.jrn := rfl
@[simp] theorem Mach.emit_boot (m : Mach) (o : Out) : (m.emit o).boot = m.boot := rfl
@[simp] theorem Mach.emit_net (m : Mach) (o : Out) : (m.emit o).net = m.net := rfl
@[simp] theorem Mach.emit_ptp (m : Mach) (o : Out) : (m.emit o).ptp = m.ptp := rfl
@[simp] theorem Mach.emit_dram (m : Mach) (o : Out) : (m.emit o).dram = m.dram := rfl
@[simp] theorem Mach.emit_codec (m : Mach) (o : Out) : (m.emit o).codec = m.codec := rfl
@[simp] theorem Mach.emit_lanes (m : Mach) (o : Out) : (m.emit o).lanes = m.lanes := rfl
@[simp] theorem Mach.emit_tiles (m : Mach) (o : Out) : (m.emit o).tiles = m.tiles := rfl
@[simp] theorem Mach.emit_scene (m : Mach) (o : Out) : (m.emit o).scene = m.scene := rfl
@[simp] theorem Mach.emit_outs (m : Mach) (o : Out) : (m.emit o).outs = m.outs := rfl
@[simp] theorem Mach.emit_pipe (m : Mach) (o : Out) : (m.emit o).pipe = m.pipe := rfl
@[simp] theorem Mach.emit_panel (m : Mach) (o : Out) : (m.emit o).panel = m.panel := rfl
@[simp] theorem Mach.emit_power_ (m : Mach) (o : Out) : (m.emit o).power_ = m.power_ := rfl
@[simp] theorem Mach.emit_thermal (m : Mach) (o : Out) : (m.emit o).thermal = m.thermal := rfl
@[simp] theorem Mach.emit_calib (m : Mach) (o : Out) : (m.emit o).calib = m.calib := rfl
@[simp] theorem Mach.emit_test (m : Mach) (o : Out) : (m.emit o).test = m.test := rfl
@[simp] theorem Mach.emit_free (m : Mach) (o : Out) : (m.emit o).free = m.free := rfl

/-! `Mach.draw` -/

@[simp] theorem Mach.draw_od (m : Mach) : (m.draw).od = m.od := rfl
@[simp] theorem Mach.draw_strs (m : Mach) : (m.draw).strs = m.strs := rfl
@[simp] theorem Mach.draw_clk (m : Mach) : (m.draw).clk = m.clk := rfl
@[simp] theorem Mach.draw_koa (m : Mach) : (m.draw).koa = m.koa := rfl
@[simp] theorem Mach.draw_jrn (m : Mach) : (m.draw).jrn = m.jrn := rfl
@[simp] theorem Mach.draw_boot (m : Mach) : (m.draw).boot = m.boot := rfl
@[simp] theorem Mach.draw_net (m : Mach) : (m.draw).net = m.net := rfl
@[simp] theorem Mach.draw_ptp (m : Mach) : (m.draw).ptp = m.ptp := rfl
@[simp] theorem Mach.draw_dram (m : Mach) : (m.draw).dram = m.dram := rfl
@[simp] theorem Mach.draw_codec (m : Mach) : (m.draw).codec = m.codec := rfl
@[simp] theorem Mach.draw_lanes (m : Mach) : (m.draw).lanes = m.lanes := rfl
@[simp] theorem Mach.draw_tiles (m : Mach) : (m.draw).tiles = m.tiles := rfl
@[simp] theorem Mach.draw_scene (m : Mach) : (m.draw).scene = m.scene := rfl
@[simp] theorem Mach.draw_outs (m : Mach) : (m.draw).outs = m.outs := rfl
@[simp] theorem Mach.draw_pipe (m : Mach) : (m.draw).pipe = m.pipe := rfl
@[simp] theorem Mach.draw_panel (m : Mach) : (m.draw).panel = m.panel := rfl
@[simp] theorem Mach.draw_power_ (m : Mach) : (m.draw).power_ = m.power_ := rfl
@[simp] theorem Mach.draw_thermal (m : Mach) : (m.draw).thermal = m.thermal := rfl
@[simp] theorem Mach.draw_calib (m : Mach) : (m.draw).calib = m.calib := rfl
@[simp] theorem Mach.draw_test (m : Mach) : (m.draw).test = m.test := rfl
@[simp] theorem Mach.draw_out (m : Mach) : (m.draw).out = m.out := rfl

/-! `Mach.onClk` -/

@[simp] theorem Mach.onClk_od (m : Mach) (f : Clk → Clk) : (m.onClk f).od = m.od := rfl
@[simp] theorem Mach.onClk_strs (m : Mach) (f : Clk → Clk) : (m.onClk f).strs = m.strs := rfl
@[simp] theorem Mach.onClk_koa (m : Mach) (f : Clk → Clk) : (m.onClk f).koa = m.koa := rfl
@[simp] theorem Mach.onClk_jrn (m : Mach) (f : Clk → Clk) : (m.onClk f).jrn = m.jrn := rfl
@[simp] theorem Mach.onClk_boot (m : Mach) (f : Clk → Clk) : (m.onClk f).boot = m.boot := rfl
@[simp] theorem Mach.onClk_net (m : Mach) (f : Clk → Clk) : (m.onClk f).net = m.net := rfl
@[simp] theorem Mach.onClk_ptp (m : Mach) (f : Clk → Clk) : (m.onClk f).ptp = m.ptp := rfl
@[simp] theorem Mach.onClk_dram (m : Mach) (f : Clk → Clk) : (m.onClk f).dram = m.dram := rfl
@[simp] theorem Mach.onClk_codec (m : Mach) (f : Clk → Clk) : (m.onClk f).codec = m.codec := rfl
@[simp] theorem Mach.onClk_lanes (m : Mach) (f : Clk → Clk) : (m.onClk f).lanes = m.lanes := rfl
@[simp] theorem Mach.onClk_tiles (m : Mach) (f : Clk → Clk) : (m.onClk f).tiles = m.tiles := rfl
@[simp] theorem Mach.onClk_scene (m : Mach) (f : Clk → Clk) : (m.onClk f).scene = m.scene := rfl
@[simp] theorem Mach.onClk_outs (m : Mach) (f : Clk → Clk) : (m.onClk f).outs = m.outs := rfl
@[simp] theorem Mach.onClk_pipe (m : Mach) (f : Clk → Clk) : (m.onClk f).pipe = m.pipe := rfl
@[simp] theorem Mach.onClk_panel (m : Mach) (f : Clk → Clk) : (m.onClk f).panel = m.panel := rfl
@[simp] theorem Mach.onClk_power_ (m : Mach) (f : Clk → Clk) : (m.onClk f).power_ = m.power_ := rfl
@[simp] theorem Mach.onClk_thermal (m : Mach) (f : Clk → Clk) : (m.onClk f).thermal = m.thermal := rfl
@[simp] theorem Mach.onClk_calib (m : Mach) (f : Clk → Clk) : (m.onClk f).calib = m.calib := rfl
@[simp] theorem Mach.onClk_test (m : Mach) (f : Clk → Clk) : (m.onClk f).test = m.test := rfl
@[simp] theorem Mach.onClk_out (m : Mach) (f : Clk → Clk) : (m.onClk f).out = m.out := rfl
@[simp] theorem Mach.onClk_free (m : Mach) (f : Clk → Clk) : (m.onClk f).free = m.free := rfl

/-! `Mach.onLane` -/

@[simp] theorem Mach.onLane_od (m : Mach) (l : Nat) (f : Lane → Lane) : (m.onLane l f).od = m.od := rfl
@[simp] theorem Mach.onLane_strs (m : Mach) (l : Nat) (f : Lane → Lane) : (m.onLane l f).strs = m.strs := rfl
@[simp] theorem Mach.onLane_clk (m : Mach) (l : Nat) (f : Lane → Lane) : (m.onLane l f).clk = m.clk := rfl
@[simp] theorem Mach.onLane_koa (m : Mach) (l : Nat) (f : Lane → Lane) : (m.onLane l f).koa = m.koa := rfl
@[simp] theorem Mach.onLane_jrn (m : Mach) (l : Nat) (f : Lane → Lane) : (m.onLane l f).jrn = m.jrn := rfl
@[simp] theorem Mach.onLane_boot (m : Mach) (l : Nat) (f : Lane → Lane) : (m.onLane l f).boot = m.boot := rfl
@[simp] theorem Mach.onLane_net (m : Mach) (l : Nat) (f : Lane → Lane) : (m.onLane l f).net = m.net := rfl
@[simp] theorem Mach.onLane_ptp (m : Mach) (l : Nat) (f : Lane → Lane) : (m.onLane l f).ptp = m.ptp := rfl
@[simp] theorem Mach.onLane_dram (m : Mach) (l : Nat) (f : Lane → Lane) : (m.onLane l f).dram = m.dram := rfl
@[simp] theorem Mach.onLane_codec (m : Mach) (l : Nat) (f : Lane → Lane) : (m.onLane l f).codec = m.codec := rfl
@[simp] theorem Mach.onLane_tiles (m : Mach) (l : Nat) (f : Lane → Lane) : (m.onLane l f).tiles = m.tiles := rfl
@[simp] theorem Mach.onLane_scene (m : Mach) (l : Nat) (f : Lane → Lane) : (m.onLane l f).scene = m.scene := rfl
@[simp] theorem Mach.onLane_outs (m : Mach) (l : Nat) (f : Lane → Lane) : (m.onLane l f).outs = m.outs := rfl
@[simp] theorem Mach.onLane_pipe (m : Mach) (l : Nat) (f : Lane → Lane) : (m.onLane l f).pipe = m.pipe := rfl
@[simp] theorem Mach.onLane_panel (m : Mach) (l : Nat) (f : Lane → Lane) : (m.onLane l f).panel = m.panel := rfl
@[simp] theorem Mach.onLane_power_ (m : Mach) (l : Nat) (f : Lane → Lane) : (m.onLane l f).power_ = m.power_ := rfl
@[simp] theorem Mach.onLane_thermal (m : Mach) (l : Nat) (f : Lane → Lane) : (m.onLane l f).thermal = m.thermal := rfl
@[simp] theorem Mach.onLane_calib (m : Mach) (l : Nat) (f : Lane → Lane) : (m.onLane l f).calib = m.calib := rfl
@[simp] theorem Mach.onLane_test (m : Mach) (l : Nat) (f : Lane → Lane) : (m.onLane l f).test = m.test := rfl
@[simp] theorem Mach.onLane_out (m : Mach) (l : Nat) (f : Lane → Lane) : (m.onLane l f).out = m.out := rfl
@[simp] theorem Mach.onLane_free (m : Mach) (l : Nat) (f : Lane → Lane) : (m.onLane l f).free = m.free := rfl

/-! `Mach.setTx` -/

@[simp] theorem Mach.setTx_strs (m : Mach) (l st : Nat) : (m.setTx l st).strs = m.strs := Mach.setN_strs m _ _ _ _
@[simp] theorem Mach.setTx_clk (m : Mach) (l st : Nat) : (m.setTx l st).clk = m.clk := Mach.setN_clk m _ _ _ _
@[simp] theorem Mach.setTx_koa (m : Mach) (l st : Nat) : (m.setTx l st).koa = m.koa := Mach.setN_koa m _ _ _ _
@[simp] theorem Mach.setTx_jrn (m : Mach) (l st : Nat) : (m.setTx l st).jrn = m.jrn := Mach.setN_jrn m _ _ _ _
@[simp] theorem Mach.setTx_boot (m : Mach) (l st : Nat) : (m.setTx l st).boot = m.boot := Mach.setN_boot m _ _ _ _
@[simp] theorem Mach.setTx_net (m : Mach) (l st : Nat) : (m.setTx l st).net = m.net := Mach.setN_net m _ _ _ _
@[simp] theorem Mach.setTx_ptp (m : Mach) (l st : Nat) : (m.setTx l st).ptp = m.ptp := Mach.setN_ptp m _ _ _ _
@[simp] theorem Mach.setTx_dram (m : Mach) (l st : Nat) : (m.setTx l st).dram = m.dram := Mach.setN_dram m _ _ _ _
@[simp] theorem Mach.setTx_codec (m : Mach) (l st : Nat) : (m.setTx l st).codec = m.codec := Mach.setN_codec m _ _ _ _
@[simp] theorem Mach.setTx_lanes (m : Mach) (l st : Nat) : (m.setTx l st).lanes = m.lanes := Mach.setN_lanes m _ _ _ _
@[simp] theorem Mach.setTx_tiles (m : Mach) (l st : Nat) : (m.setTx l st).tiles = m.tiles := Mach.setN_tiles m _ _ _ _
@[simp] theorem Mach.setTx_scene (m : Mach) (l st : Nat) : (m.setTx l st).scene = m.scene := Mach.setN_scene m _ _ _ _
@[simp] theorem Mach.setTx_outs (m : Mach) (l st : Nat) : (m.setTx l st).outs = m.outs := Mach.setN_outs m _ _ _ _
@[simp] theorem Mach.setTx_pipe (m : Mach) (l st : Nat) : (m.setTx l st).pipe = m.pipe := Mach.setN_pipe m _ _ _ _
@[simp] theorem Mach.setTx_panel (m : Mach) (l st : Nat) : (m.setTx l st).panel = m.panel := Mach.setN_panel m _ _ _ _
@[simp] theorem Mach.setTx_power_ (m : Mach) (l st : Nat) : (m.setTx l st).power_ = m.power_ := Mach.setN_power_ m _ _ _ _
@[simp] theorem Mach.setTx_thermal (m : Mach) (l st : Nat) : (m.setTx l st).thermal = m.thermal := Mach.setN_thermal m _ _ _ _
@[simp] theorem Mach.setTx_calib (m : Mach) (l st : Nat) : (m.setTx l st).calib = m.calib := Mach.setN_calib m _ _ _ _
@[simp] theorem Mach.setTx_test (m : Mach) (l st : Nat) : (m.setTx l st).test = m.test := Mach.setN_test m _ _ _ _
@[simp] theorem Mach.setTx_out (m : Mach) (l st : Nat) : (m.setTx l st).out = m.out := Mach.setN_out m _ _ _ _
@[simp] theorem Mach.setTx_free (m : Mach) (l st : Nat) : (m.setTx l st).free = m.free := Mach.setN_free m _ _ _ _

/-! `Mach.setRx` -/

@[simp] theorem Mach.setRx_strs (m : Mach) (l st : Nat) : (m.setRx l st).strs = m.strs := Mach.setN_strs m _ _ _ _
@[simp] theorem Mach.setRx_clk (m : Mach) (l st : Nat) : (m.setRx l st).clk = m.clk := Mach.setN_clk m _ _ _ _
@[simp] theorem Mach.setRx_koa (m : Mach) (l st : Nat) : (m.setRx l st).koa = m.koa := Mach.setN_koa m _ _ _ _
@[simp] theorem Mach.setRx_jrn (m : Mach) (l st : Nat) : (m.setRx l st).jrn = m.jrn := Mach.setN_jrn m _ _ _ _
@[simp] theorem Mach.setRx_boot (m : Mach) (l st : Nat) : (m.setRx l st).boot = m.boot := Mach.setN_boot m _ _ _ _
@[simp] theorem Mach.setRx_net (m : Mach) (l st : Nat) : (m.setRx l st).net = m.net := Mach.setN_net m _ _ _ _
@[simp] theorem Mach.setRx_ptp (m : Mach) (l st : Nat) : (m.setRx l st).ptp = m.ptp := Mach.setN_ptp m _ _ _ _
@[simp] theorem Mach.setRx_dram (m : Mach) (l st : Nat) : (m.setRx l st).dram = m.dram := Mach.setN_dram m _ _ _ _
@[simp] theorem Mach.setRx_codec (m : Mach) (l st : Nat) : (m.setRx l st).codec = m.codec := Mach.setN_codec m _ _ _ _
@[simp] theorem Mach.setRx_lanes (m : Mach) (l st : Nat) : (m.setRx l st).lanes = m.lanes := Mach.setN_lanes m _ _ _ _
@[simp] theorem Mach.setRx_tiles (m : Mach) (l st : Nat) : (m.setRx l st).tiles = m.tiles := Mach.setN_tiles m _ _ _ _
@[simp] theorem Mach.setRx_scene (m : Mach) (l st : Nat) : (m.setRx l st).scene = m.scene := Mach.setN_scene m _ _ _ _
@[simp] theorem Mach.setRx_outs (m : Mach) (l st : Nat) : (m.setRx l st).outs = m.outs := Mach.setN_outs m _ _ _ _
@[simp] theorem Mach.setRx_pipe (m : Mach) (l st : Nat) : (m.setRx l st).pipe = m.pipe := Mach.setN_pipe m _ _ _ _
@[simp] theorem Mach.setRx_panel (m : Mach) (l st : Nat) : (m.setRx l st).panel = m.panel := Mach.setN_panel m _ _ _ _
@[simp] theorem Mach.setRx_power_ (m : Mach) (l st : Nat) : (m.setRx l st).power_ = m.power_ := Mach.setN_power_ m _ _ _ _
@[simp] theorem Mach.setRx_thermal (m : Mach) (l st : Nat) : (m.setRx l st).thermal = m.thermal := Mach.setN_thermal m _ _ _ _
@[simp] theorem Mach.setRx_calib (m : Mach) (l st : Nat) : (m.setRx l st).calib = m.calib := Mach.setN_calib m _ _ _ _
@[simp] theorem Mach.setRx_test (m : Mach) (l st : Nat) : (m.setRx l st).test = m.test := Mach.setN_test m _ _ _ _
@[simp] theorem Mach.setRx_out (m : Mach) (l st : Nat) : (m.setRx l st).out = m.out := Mach.setN_out m _ _ _ _
@[simp] theorem Mach.setRx_free (m : Mach) (l st : Nat) : (m.setRx l st).free = m.free := Mach.setN_free m _ _ _ _

/-! `Mach.onChain` -/

@[simp] theorem Mach.onChain_od (m : Mach) (c : Nat) (f : Chain → Chain) : (m.onChain c f).od = m.od := rfl
@[simp] theorem Mach.onChain_strs (m : Mach) (c : Nat) (f : Chain → Chain) : (m.onChain c f).strs = m.strs := rfl
@[simp] theorem Mach.onChain_clk (m : Mach) (c : Nat) (f : Chain → Chain) : (m.onChain c f).clk = m.clk := rfl
@[simp] theorem Mach.onChain_koa (m : Mach) (c : Nat) (f : Chain → Chain) : (m.onChain c f).koa = m.koa := rfl
@[simp] theorem Mach.onChain_jrn (m : Mach) (c : Nat) (f : Chain → Chain) : (m.onChain c f).jrn = m.jrn := rfl
@[simp] theorem Mach.onChain_boot (m : Mach) (c : Nat) (f : Chain → Chain) : (m.onChain c f).boot = m.boot := rfl
@[simp] theorem Mach.onChain_net (m : Mach) (c : Nat) (f : Chain → Chain) : (m.onChain c f).net = m.net := rfl
@[simp] theorem Mach.onChain_ptp (m : Mach) (c : Nat) (f : Chain → Chain) : (m.onChain c f).ptp = m.ptp := rfl
@[simp] theorem Mach.onChain_dram (m : Mach) (c : Nat) (f : Chain → Chain) : (m.onChain c f).dram = m.dram := rfl
@[simp] theorem Mach.onChain_codec (m : Mach) (c : Nat) (f : Chain → Chain) : (m.onChain c f).codec = m.codec := rfl
@[simp] theorem Mach.onChain_lanes (m : Mach) (c : Nat) (f : Chain → Chain) : (m.onChain c f).lanes = m.lanes := rfl
@[simp] theorem Mach.onChain_scene (m : Mach) (c : Nat) (f : Chain → Chain) : (m.onChain c f).scene = m.scene := rfl
@[simp] theorem Mach.onChain_outs (m : Mach) (c : Nat) (f : Chain → Chain) : (m.onChain c f).outs = m.outs := rfl
@[simp] theorem Mach.onChain_pipe (m : Mach) (c : Nat) (f : Chain → Chain) : (m.onChain c f).pipe = m.pipe := rfl
@[simp] theorem Mach.onChain_panel (m : Mach) (c : Nat) (f : Chain → Chain) : (m.onChain c f).panel = m.panel := rfl
@[simp] theorem Mach.onChain_power_ (m : Mach) (c : Nat) (f : Chain → Chain) : (m.onChain c f).power_ = m.power_ := rfl
@[simp] theorem Mach.onChain_thermal (m : Mach) (c : Nat) (f : Chain → Chain) : (m.onChain c f).thermal = m.thermal := rfl
@[simp] theorem Mach.onChain_calib (m : Mach) (c : Nat) (f : Chain → Chain) : (m.onChain c f).calib = m.calib := rfl
@[simp] theorem Mach.onChain_test (m : Mach) (c : Nat) (f : Chain → Chain) : (m.onChain c f).test = m.test := rfl
@[simp] theorem Mach.onChain_out (m : Mach) (c : Nat) (f : Chain → Chain) : (m.onChain c f).out = m.out := rfl
@[simp] theorem Mach.onChain_free (m : Mach) (c : Nat) (f : Chain → Chain) : (m.onChain c f).free = m.free := rfl

/-! `Mach.onTile` -/

@[simp] theorem Mach.onTile_od (m : Mach) (c pos : Nat) (f : Tile → Tile) : (m.onTile c pos f).od = m.od := rfl
@[simp] theorem Mach.onTile_strs (m : Mach) (c pos : Nat) (f : Tile → Tile) : (m.onTile c pos f).strs = m.strs := rfl
@[simp] theorem Mach.onTile_clk (m : Mach) (c pos : Nat) (f : Tile → Tile) : (m.onTile c pos f).clk = m.clk := rfl
@[simp] theorem Mach.onTile_koa (m : Mach) (c pos : Nat) (f : Tile → Tile) : (m.onTile c pos f).koa = m.koa := rfl
@[simp] theorem Mach.onTile_jrn (m : Mach) (c pos : Nat) (f : Tile → Tile) : (m.onTile c pos f).jrn = m.jrn := rfl
@[simp] theorem Mach.onTile_boot (m : Mach) (c pos : Nat) (f : Tile → Tile) : (m.onTile c pos f).boot = m.boot := rfl
@[simp] theorem Mach.onTile_net (m : Mach) (c pos : Nat) (f : Tile → Tile) : (m.onTile c pos f).net = m.net := rfl
@[simp] theorem Mach.onTile_ptp (m : Mach) (c pos : Nat) (f : Tile → Tile) : (m.onTile c pos f).ptp = m.ptp := rfl
@[simp] theorem Mach.onTile_dram (m : Mach) (c pos : Nat) (f : Tile → Tile) : (m.onTile c pos f).dram = m.dram := rfl
@[simp] theorem Mach.onTile_codec (m : Mach) (c pos : Nat) (f : Tile → Tile) : (m.onTile c pos f).codec = m.codec := rfl
@[simp] theorem Mach.onTile_lanes (m : Mach) (c pos : Nat) (f : Tile → Tile) : (m.onTile c pos f).lanes = m.lanes := rfl
@[simp] theorem Mach.onTile_scene (m : Mach) (c pos : Nat) (f : Tile → Tile) : (m.onTile c pos f).scene = m.scene := rfl
@[simp] theorem Mach.onTile_outs (m : Mach) (c pos : Nat) (f : Tile → Tile) : (m.onTile c pos f).outs = m.outs := rfl
@[simp] theorem Mach.onTile_pipe (m : Mach) (c pos : Nat) (f : Tile → Tile) : (m.onTile c pos f).pipe = m.pipe := rfl
@[simp] theorem Mach.onTile_panel (m : Mach) (c pos : Nat) (f : Tile → Tile) : (m.onTile c pos f).panel = m.panel := rfl
@[simp] theorem Mach.onTile_power_ (m : Mach) (c pos : Nat) (f : Tile → Tile) : (m.onTile c pos f).power_ = m.power_ := rfl
@[simp] theorem Mach.onTile_thermal (m : Mach) (c pos : Nat) (f : Tile → Tile) : (m.onTile c pos f).thermal = m.thermal := rfl
@[simp] theorem Mach.onTile_calib (m : Mach) (c pos : Nat) (f : Tile → Tile) : (m.onTile c pos f).calib = m.calib := rfl
@[simp] theorem Mach.onTile_test (m : Mach) (c pos : Nat) (f : Tile → Tile) : (m.onTile c pos f).test = m.test := rfl
@[simp] theorem Mach.onTile_out (m : Mach) (c pos : Nat) (f : Tile → Tile) : (m.onTile c pos f).out = m.out := rfl
@[simp] theorem Mach.onTile_free (m : Mach) (c pos : Nat) (f : Tile → Tile) : (m.onTile c pos f).free = m.free := rfl

/-! `Mach.onPipe` -/

@[simp] theorem Mach.onPipe_od (m : Mach) (f : Pipeline → Pipeline) : (m.onPipe f).od = m.od := rfl
@[simp] theorem Mach.onPipe_strs (m : Mach) (f : Pipeline → Pipeline) : (m.onPipe f).strs = m.strs := rfl
@[simp] theorem Mach.onPipe_clk (m : Mach) (f : Pipeline → Pipeline) : (m.onPipe f).clk = m.clk := rfl
@[simp] theorem Mach.onPipe_koa (m : Mach) (f : Pipeline → Pipeline) : (m.onPipe f).koa = m.koa := rfl
@[simp] theorem Mach.onPipe_jrn (m : Mach) (f : Pipeline → Pipeline) : (m.onPipe f).jrn = m.jrn := rfl
@[simp] theorem Mach.onPipe_boot (m : Mach) (f : Pipeline → Pipeline) : (m.onPipe f).boot = m.boot := rfl
@[simp] theorem Mach.onPipe_net (m : Mach) (f : Pipeline → Pipeline) : (m.onPipe f).net = m.net := rfl
@[simp] theorem Mach.onPipe_ptp (m : Mach) (f : Pipeline → Pipeline) : (m.onPipe f).ptp = m.ptp := rfl
@[simp] theorem Mach.onPipe_dram (m : Mach) (f : Pipeline → Pipeline) : (m.onPipe f).dram = m.dram := rfl
@[simp] theorem Mach.onPipe_codec (m : Mach) (f : Pipeline → Pipeline) : (m.onPipe f).codec = m.codec := rfl
@[simp] theorem Mach.onPipe_lanes (m : Mach) (f : Pipeline → Pipeline) : (m.onPipe f).lanes = m.lanes := rfl
@[simp] theorem Mach.onPipe_tiles (m : Mach) (f : Pipeline → Pipeline) : (m.onPipe f).tiles = m.tiles := rfl
@[simp] theorem Mach.onPipe_scene (m : Mach) (f : Pipeline → Pipeline) : (m.onPipe f).scene = m.scene := rfl
@[simp] theorem Mach.onPipe_outs (m : Mach) (f : Pipeline → Pipeline) : (m.onPipe f).outs = m.outs := rfl
@[simp] theorem Mach.onPipe_panel (m : Mach) (f : Pipeline → Pipeline) : (m.onPipe f).panel = m.panel := rfl
@[simp] theorem Mach.onPipe_power_ (m : Mach) (f : Pipeline → Pipeline) : (m.onPipe f).power_ = m.power_ := rfl
@[simp] theorem Mach.onPipe_thermal (m : Mach) (f : Pipeline → Pipeline) : (m.onPipe f).thermal = m.thermal := rfl
@[simp] theorem Mach.onPipe_calib (m : Mach) (f : Pipeline → Pipeline) : (m.onPipe f).calib = m.calib := rfl
@[simp] theorem Mach.onPipe_test (m : Mach) (f : Pipeline → Pipeline) : (m.onPipe f).test = m.test := rfl
@[simp] theorem Mach.onPipe_out (m : Mach) (f : Pipeline → Pipeline) : (m.onPipe f).out = m.out := rfl
@[simp] theorem Mach.onPipe_free (m : Mach) (f : Pipeline → Pipeline) : (m.onPipe f).free = m.free := rfl

/-! `Mach.onHeat` -/

@[simp] theorem Mach.onHeat_od (m : Mach) (f : Heat → Heat) : (m.onHeat f).od = m.od := rfl
@[simp] theorem Mach.onHeat_strs (m : Mach) (f : Heat → Heat) : (m.onHeat f).strs = m.strs := rfl
@[simp] theorem Mach.onHeat_clk (m : Mach) (f : Heat → Heat) : (m.onHeat f).clk = m.clk := rfl
@[simp] theorem Mach.onHeat_koa (m : Mach) (f : Heat → Heat) : (m.onHeat f).koa = m.koa := rfl
@[simp] theorem Mach.onHeat_jrn (m : Mach) (f : Heat → Heat) : (m.onHeat f).jrn = m.jrn := rfl
@[simp] theorem Mach.onHeat_boot (m : Mach) (f : Heat → Heat) : (m.onHeat f).boot = m.boot := rfl
@[simp] theorem Mach.onHeat_net (m : Mach) (f : Heat → Heat) : (m.onHeat f).net = m.net := rfl
@[simp] theorem Mach.onHeat_ptp (m : Mach) (f : Heat → Heat) : (m.onHeat f).ptp = m.ptp := rfl
@[simp] theorem Mach.onHeat_dram (m : Mach) (f : Heat → Heat) : (m.onHeat f).dram = m.dram := rfl
@[simp] theorem Mach.onHeat_codec (m : Mach) (f : Heat → Heat) : (m.onHeat f).codec = m.codec := rfl
@[simp] theorem Mach.onHeat_lanes (m : Mach) (f : Heat → Heat) : (m.onHeat f).lanes = m.lanes := rfl
@[simp] theorem Mach.onHeat_tiles (m : Mach) (f : Heat → Heat) : (m.onHeat f).tiles = m.tiles := rfl
@[simp] theorem Mach.onHeat_scene (m : Mach) (f : Heat → Heat) : (m.onHeat f).scene = m.scene := rfl
@[simp] theorem Mach.onHeat_outs (m : Mach) (f : Heat → Heat) : (m.onHeat f).outs = m.outs := rfl
@[simp] theorem Mach.onHeat_panel (m : Mach) (f : Heat → Heat) : (m.onHeat f).panel = m.panel := rfl
@[simp] theorem Mach.onHeat_power_ (m : Mach) (f : Heat → Heat) : (m.onHeat f).power_ = m.power_ := rfl
@[simp] theorem Mach.onHeat_thermal (m : Mach) (f : Heat → Heat) : (m.onHeat f).thermal = m.thermal := rfl
@[simp] theorem Mach.onHeat_calib (m : Mach) (f : Heat → Heat) : (m.onHeat f).calib = m.calib := rfl
@[simp] theorem Mach.onHeat_test (m : Mach) (f : Heat → Heat) : (m.onHeat f).test = m.test := rfl
@[simp] theorem Mach.onHeat_out (m : Mach) (f : Heat → Heat) : (m.onHeat f).out = m.out := rfl
@[simp] theorem Mach.onHeat_free (m : Mach) (f : Heat → Heat) : (m.onHeat f).free = m.free := rfl

/-! `Mach.onPours` -/

@[simp] theorem Mach.onPours_od (m : Mach) (f : Pour → Pour) : (m.onPours f).od = m.od := rfl
@[simp] theorem Mach.onPours_strs (m : Mach) (f : Pour → Pour) : (m.onPours f).strs = m.strs := rfl
@[simp] theorem Mach.onPours_clk (m : Mach) (f : Pour → Pour) : (m.onPours f).clk = m.clk := rfl
@[simp] theorem Mach.onPours_koa (m : Mach) (f : Pour → Pour) : (m.onPours f).koa = m.koa := rfl
@[simp] theorem Mach.onPours_jrn (m : Mach) (f : Pour → Pour) : (m.onPours f).jrn = m.jrn := rfl
@[simp] theorem Mach.onPours_boot (m : Mach) (f : Pour → Pour) : (m.onPours f).boot = m.boot := rfl
@[simp] theorem Mach.onPours_net (m : Mach) (f : Pour → Pour) : (m.onPours f).net = m.net := rfl
@[simp] theorem Mach.onPours_ptp (m : Mach) (f : Pour → Pour) : (m.onPours f).ptp = m.ptp := rfl
@[simp] theorem Mach.onPours_dram (m : Mach) (f : Pour → Pour) : (m.onPours f).dram = m.dram := rfl
@[simp] theorem Mach.onPours_codec (m : Mach) (f : Pour → Pour) : (m.onPours f).codec = m.codec := rfl
@[simp] theorem Mach.onPours_lanes (m : Mach) (f : Pour → Pour) : (m.onPours f).lanes = m.lanes := rfl
@[simp] theorem Mach.onPours_tiles (m : Mach) (f : Pour → Pour) : (m.onPours f).tiles = m.tiles := rfl
@[simp] theorem Mach.onPours_scene (m : Mach) (f : Pour → Pour) : (m.onPours f).scene = m.scene := rfl
@[simp] theorem Mach.onPours_outs (m : Mach) (f : Pour → Pour) : (m.onPours f).outs = m.outs := rfl
@[simp] theorem Mach.onPours_panel (m : Mach) (f : Pour → Pour) : (m.onPours f).panel = m.panel := rfl
@[simp] theorem Mach.onPours_power_ (m : Mach) (f : Pour → Pour) : (m.onPours f).power_ = m.power_ := rfl
@[simp] theorem Mach.onPours_thermal (m : Mach) (f : Pour → Pour) : (m.onPours f).thermal = m.thermal := rfl
@[simp] theorem Mach.onPours_calib (m : Mach) (f : Pour → Pour) : (m.onPours f).calib = m.calib := rfl
@[simp] theorem Mach.onPours_test (m : Mach) (f : Pour → Pour) : (m.onPours f).test = m.test := rfl
@[simp] theorem Mach.onPours_out (m : Mach) (f : Pour → Pour) : (m.onPours f).out = m.out := rfl
@[simp] theorem Mach.onPours_free (m : Mach) (f : Pour → Pour) : (m.onPours f).free = m.free := rfl

/-! `Mach.onPour` -/

@[simp] theorem Mach.onPour_od (m : Mach) (p : Nat) (f : Pour → Pour) : (m.onPour p f).od = m.od := rfl
@[simp] theorem Mach.onPour_strs (m : Mach) (p : Nat) (f : Pour → Pour) : (m.onPour p f).strs = m.strs := rfl
@[simp] theorem Mach.onPour_clk (m : Mach) (p : Nat) (f : Pour → Pour) : (m.onPour p f).clk = m.clk := rfl
@[simp] theorem Mach.onPour_koa (m : Mach) (p : Nat) (f : Pour → Pour) : (m.onPour p f).koa = m.koa := rfl
@[simp] theorem Mach.onPour_jrn (m : Mach) (p : Nat) (f : Pour → Pour) : (m.onPour p f).jrn = m.jrn := rfl
@[simp] theorem Mach.onPour_boot (m : Mach) (p : Nat) (f : Pour → Pour) : (m.onPour p f).boot = m.boot := rfl
@[simp] theorem Mach.onPour_net (m : Mach) (p : Nat) (f : Pour → Pour) : (m.onPour p f).net = m.net := rfl
@[simp] theorem Mach.onPour_ptp (m : Mach) (p : Nat) (f : Pour → Pour) : (m.onPour p f).ptp = m.ptp := rfl
@[simp] theorem Mach.onPour_dram (m : Mach) (p : Nat) (f : Pour → Pour) : (m.onPour p f).dram = m.dram := rfl
@[simp] theorem Mach.onPour_codec (m : Mach) (p : Nat) (f : Pour → Pour) : (m.onPour p f).codec = m.codec := rfl
@[simp] theorem Mach.onPour_lanes (m : Mach) (p : Nat) (f : Pour → Pour) : (m.onPour p f).lanes = m.lanes := rfl
@[simp] theorem Mach.onPour_tiles (m : Mach) (p : Nat) (f : Pour → Pour) : (m.onPour p f).tiles = m.tiles := rfl
@[simp] theorem Mach.onPour_scene (m : Mach) (p : Nat) (f : Pour → Pour) : (m.onPour p f).scene = m.scene := rfl
@[simp] theorem Mach.onPour_outs (m : Mach) (p : Nat) (f : Pour → Pour) : (m.onPour p f).outs = m.outs := rfl
@[simp] theorem Mach.onPour_panel (m : Mach) (p : Nat) (f : Pour → Pour) : (m.onPour p f).panel = m.panel := rfl
@[simp] theorem Mach.onPour_power_ (m : Mach) (p : Nat) (f : Pour → Pour) : (m.onPour p f).power_ = m.power_ := rfl
@[simp] theorem Mach.onPour_thermal (m : Mach) (p : Nat) (f : Pour → Pour) : (m.onPour p f).thermal = m.thermal := rfl
@[simp] theorem Mach.onPour_calib (m : Mach) (p : Nat) (f : Pour → Pour) : (m.onPour p f).calib = m.calib := rfl
@[simp] theorem Mach.onPour_test (m : Mach) (p : Nat) (f : Pour → Pour) : (m.onPour p f).test = m.test := rfl
@[simp] theorem Mach.onPour_out (m : Mach) (p : Nat) (f : Pour → Pour) : (m.onPour p f).out = m.out := rfl
@[simp] theorem Mach.onPour_free (m : Mach) (p : Nat) (f : Pour → Pour) : (m.onPour p f).free = m.free := rfl

/-! `Mach.onCluster` -/

@[simp] theorem Mach.onCluster_od (m : Mach) (c : Nat) (f : Cluster → Cluster) : (m.onCluster c f).od = m.od := rfl
@[simp] theorem Mach.onCluster_strs (m : Mach) (c : Nat) (f : Cluster → Cluster) : (m.onCluster c f).strs = m.strs := rfl
@[simp] theorem Mach.onCluster_clk (m : Mach) (c : Nat) (f : Cluster → Cluster) : (m.onCluster c f).clk = m.clk := rfl
@[simp] theorem Mach.onCluster_koa (m : Mach) (c : Nat) (f : Cluster → Cluster) : (m.onCluster c f).koa = m.koa := rfl
@[simp] theorem Mach.onCluster_jrn (m : Mach) (c : Nat) (f : Cluster → Cluster) : (m.onCluster c f).jrn = m.jrn := rfl
@[simp] theorem Mach.onCluster_boot (m : Mach) (c : Nat) (f : Cluster → Cluster) : (m.onCluster c f).boot = m.boot := rfl
@[simp] theorem Mach.onCluster_net (m : Mach) (c : Nat) (f : Cluster → Cluster) : (m.onCluster c f).net = m.net := rfl
@[simp] theorem Mach.onCluster_ptp (m : Mach) (c : Nat) (f : Cluster → Cluster) : (m.onCluster c f).ptp = m.ptp := rfl
@[simp] theorem Mach.onCluster_dram (m : Mach) (c : Nat) (f : Cluster → Cluster) : (m.onCluster c f).dram = m.dram := rfl
@[simp] theorem Mach.onCluster_codec (m : Mach) (c : Nat) (f : Cluster → Cluster) : (m.onCluster c f).codec = m.codec := rfl
@[simp] theorem Mach.onCluster_lanes (m : Mach) (c : Nat) (f : Cluster → Cluster) : (m.onCluster c f).lanes = m.lanes := rfl
@[simp] theorem Mach.onCluster_tiles (m : Mach) (c : Nat) (f : Cluster → Cluster) : (m.onCluster c f).tiles = m.tiles := rfl
@[simp] theorem Mach.onCluster_scene (m : Mach) (c : Nat) (f : Cluster → Cluster) : (m.onCluster c f).scene = m.scene := rfl
@[simp] theorem Mach.onCluster_outs (m : Mach) (c : Nat) (f : Cluster → Cluster) : (m.onCluster c f).outs = m.outs := rfl
@[simp] theorem Mach.onCluster_panel (m : Mach) (c : Nat) (f : Cluster → Cluster) : (m.onCluster c f).panel = m.panel := rfl
@[simp] theorem Mach.onCluster_power_ (m : Mach) (c : Nat) (f : Cluster → Cluster) : (m.onCluster c f).power_ = m.power_ := rfl
@[simp] theorem Mach.onCluster_thermal (m : Mach) (c : Nat) (f : Cluster → Cluster) : (m.onCluster c f).thermal = m.thermal := rfl
@[simp] theorem Mach.onCluster_calib (m : Mach) (c : Nat) (f : Cluster → Cluster) : (m.onCluster c f).calib = m.calib := rfl
@[simp] theorem Mach.onCluster_test (m : Mach) (c : Nat) (f : Cluster → Cluster) : (m.onCluster c f).test = m.test := rfl
@[simp] theorem Mach.onCluster_out (m : Mach) (c : Nat) (f : Cluster → Cluster) : (m.onCluster c f).out = m.out := rfl
@[simp] theorem Mach.onCluster_free (m : Mach) (c : Nat) (f : Cluster → Cluster) : (m.onCluster c f).free = m.free := rfl

/-! `Mach.onDram` -/

@[simp] theorem Mach.onDram_od (m : Mach) (f : Dram → Dram) : (m.onDram f).od = m.od := rfl
@[simp] theorem Mach.onDram_strs (m : Mach) (f : Dram → Dram) : (m.onDram f).strs = m.strs := rfl
@[simp] theorem Mach.onDram_clk (m : Mach) (f : Dram → Dram) : (m.onDram f).clk = m.clk := rfl
@[simp] theorem Mach.onDram_koa (m : Mach) (f : Dram → Dram) : (m.onDram f).koa = m.koa := rfl
@[simp] theorem Mach.onDram_jrn (m : Mach) (f : Dram → Dram) : (m.onDram f).jrn = m.jrn := rfl
@[simp] theorem Mach.onDram_boot (m : Mach) (f : Dram → Dram) : (m.onDram f).boot = m.boot := rfl
@[simp] theorem Mach.onDram_net (m : Mach) (f : Dram → Dram) : (m.onDram f).net = m.net := rfl
@[simp] theorem Mach.onDram_ptp (m : Mach) (f : Dram → Dram) : (m.onDram f).ptp = m.ptp := rfl
@[simp] theorem Mach.onDram_codec (m : Mach) (f : Dram → Dram) : (m.onDram f).codec = m.codec := rfl
@[simp] theorem Mach.onDram_lanes (m : Mach) (f : Dram → Dram) : (m.onDram f).lanes = m.lanes := rfl
@[simp] theorem Mach.onDram_tiles (m : Mach) (f : Dram → Dram) : (m.onDram f).tiles = m.tiles := rfl
@[simp] theorem Mach.onDram_scene (m : Mach) (f : Dram → Dram) : (m.onDram f).scene = m.scene := rfl
@[simp] theorem Mach.onDram_outs (m : Mach) (f : Dram → Dram) : (m.onDram f).outs = m.outs := rfl
@[simp] theorem Mach.onDram_pipe (m : Mach) (f : Dram → Dram) : (m.onDram f).pipe = m.pipe := rfl
@[simp] theorem Mach.onDram_panel (m : Mach) (f : Dram → Dram) : (m.onDram f).panel = m.panel := rfl
@[simp] theorem Mach.onDram_power_ (m : Mach) (f : Dram → Dram) : (m.onDram f).power_ = m.power_ := rfl
@[simp] theorem Mach.onDram_thermal (m : Mach) (f : Dram → Dram) : (m.onDram f).thermal = m.thermal := rfl
@[simp] theorem Mach.onDram_calib (m : Mach) (f : Dram → Dram) : (m.onDram f).calib = m.calib := rfl
@[simp] theorem Mach.onDram_test (m : Mach) (f : Dram → Dram) : (m.onDram f).test = m.test := rfl
@[simp] theorem Mach.onDram_out (m : Mach) (f : Dram → Dram) : (m.onDram f).out = m.out := rfl
@[simp] theorem Mach.onDram_free (m : Mach) (f : Dram → Dram) : (m.onDram f).free = m.free := rfl

/-! `Mach.onChan` -/

@[simp] theorem Mach.onChan_od (m : Mach) (p : Nat) (f : Channel → Channel) : (m.onChan p f).od = m.od := rfl
@[simp] theorem Mach.onChan_strs (m : Mach) (p : Nat) (f : Channel → Channel) : (m.onChan p f).strs = m.strs := rfl
@[simp] theorem Mach.onChan_clk (m : Mach) (p : Nat) (f : Channel → Channel) : (m.onChan p f).clk = m.clk := rfl
@[simp] theorem Mach.onChan_koa (m : Mach) (p : Nat) (f : Channel → Channel) : (m.onChan p f).koa = m.koa := rfl
@[simp] theorem Mach.onChan_jrn (m : Mach) (p : Nat) (f : Channel → Channel) : (m.onChan p f).jrn = m.jrn := rfl
@[simp] theorem Mach.onChan_boot (m : Mach) (p : Nat) (f : Channel → Channel) : (m.onChan p f).boot = m.boot := rfl
@[simp] theorem Mach.onChan_net (m : Mach) (p : Nat) (f : Channel → Channel) : (m.onChan p f).net = m.net := rfl
@[simp] theorem Mach.onChan_ptp (m : Mach) (p : Nat) (f : Channel → Channel) : (m.onChan p f).ptp = m.ptp := rfl
@[simp] theorem Mach.onChan_codec (m : Mach) (p : Nat) (f : Channel → Channel) : (m.onChan p f).codec = m.codec := rfl
@[simp] theorem Mach.onChan_lanes (m : Mach) (p : Nat) (f : Channel → Channel) : (m.onChan p f).lanes = m.lanes := rfl
@[simp] theorem Mach.onChan_tiles (m : Mach) (p : Nat) (f : Channel → Channel) : (m.onChan p f).tiles = m.tiles := rfl
@[simp] theorem Mach.onChan_scene (m : Mach) (p : Nat) (f : Channel → Channel) : (m.onChan p f).scene = m.scene := rfl
@[simp] theorem Mach.onChan_outs (m : Mach) (p : Nat) (f : Channel → Channel) : (m.onChan p f).outs = m.outs := rfl
@[simp] theorem Mach.onChan_pipe (m : Mach) (p : Nat) (f : Channel → Channel) : (m.onChan p f).pipe = m.pipe := rfl
@[simp] theorem Mach.onChan_panel (m : Mach) (p : Nat) (f : Channel → Channel) : (m.onChan p f).panel = m.panel := rfl
@[simp] theorem Mach.onChan_power_ (m : Mach) (p : Nat) (f : Channel → Channel) : (m.onChan p f).power_ = m.power_ := rfl
@[simp] theorem Mach.onChan_thermal (m : Mach) (p : Nat) (f : Channel → Channel) : (m.onChan p f).thermal = m.thermal := rfl
@[simp] theorem Mach.onChan_calib (m : Mach) (p : Nat) (f : Channel → Channel) : (m.onChan p f).calib = m.calib := rfl
@[simp] theorem Mach.onChan_test (m : Mach) (p : Nat) (f : Channel → Channel) : (m.onChan p f).test = m.test := rfl
@[simp] theorem Mach.onChan_out (m : Mach) (p : Nat) (f : Channel → Channel) : (m.onChan p f).out = m.out := rfl
@[simp] theorem Mach.onChan_free (m : Mach) (p : Nat) (f : Channel → Channel) : (m.onChan p f).free = m.free := rfl

/-! `Mach.onCalib` -/

@[simp] theorem Mach.onCalib_od (m : Mach) (f : Calib → Calib) : (m.onCalib f).od = m.od := rfl
@[simp] theorem Mach.onCalib_strs (m : Mach) (f : Calib → Calib) : (m.onCalib f).strs = m.strs := rfl
@[simp] theorem Mach.onCalib_clk (m : Mach) (f : Calib → Calib) : (m.onCalib f).clk = m.clk := rfl
@[simp] theorem Mach.onCalib_koa (m : Mach) (f : Calib → Calib) : (m.onCalib f).koa = m.koa := rfl
@[simp] theorem Mach.onCalib_jrn (m : Mach) (f : Calib → Calib) : (m.onCalib f).jrn = m.jrn := rfl
@[simp] theorem Mach.onCalib_boot (m : Mach) (f : Calib → Calib) : (m.onCalib f).boot = m.boot := rfl
@[simp] theorem Mach.onCalib_net (m : Mach) (f : Calib → Calib) : (m.onCalib f).net = m.net := rfl
@[simp] theorem Mach.onCalib_ptp (m : Mach) (f : Calib → Calib) : (m.onCalib f).ptp = m.ptp := rfl
@[simp] theorem Mach.onCalib_dram (m : Mach) (f : Calib → Calib) : (m.onCalib f).dram = m.dram := rfl
@[simp] theorem Mach.onCalib_codec (m : Mach) (f : Calib → Calib) : (m.onCalib f).codec = m.codec := rfl
@[simp] theorem Mach.onCalib_lanes (m : Mach) (f : Calib → Calib) : (m.onCalib f).lanes = m.lanes := rfl
@[simp] theorem Mach.onCalib_tiles (m : Mach) (f : Calib → Calib) : (m.onCalib f).tiles = m.tiles := rfl
@[simp] theorem Mach.onCalib_scene (m : Mach) (f : Calib → Calib) : (m.onCalib f).scene = m.scene := rfl
@[simp] theorem Mach.onCalib_outs (m : Mach) (f : Calib → Calib) : (m.onCalib f).outs = m.outs := rfl
@[simp] theorem Mach.onCalib_pipe (m : Mach) (f : Calib → Calib) : (m.onCalib f).pipe = m.pipe := rfl
@[simp] theorem Mach.onCalib_panel (m : Mach) (f : Calib → Calib) : (m.onCalib f).panel = m.panel := rfl
@[simp] theorem Mach.onCalib_power_ (m : Mach) (f : Calib → Calib) : (m.onCalib f).power_ = m.power_ := rfl
@[simp] theorem Mach.onCalib_thermal (m : Mach) (f : Calib → Calib) : (m.onCalib f).thermal = m.thermal := rfl
@[simp] theorem Mach.onCalib_test (m : Mach) (f : Calib → Calib) : (m.onCalib f).test = m.test := rfl
@[simp] theorem Mach.onCalib_out (m : Mach) (f : Calib → Calib) : (m.onCalib f).out = m.out := rfl
@[simp] theorem Mach.onCalib_free (m : Mach) (f : Calib → Calib) : (m.onCalib f).free = m.free := rfl

/-! `Mach.onPanel` -/

@[simp] theorem Mach.onPanel_od (m : Mach) (f : Panel → Panel) : (m.onPanel f).od = m.od := rfl
@[simp] theorem Mach.onPanel_strs (m : Mach) (f : Panel → Panel) : (m.onPanel f).strs = m.strs := rfl
@[simp] theorem Mach.onPanel_clk (m : Mach) (f : Panel → Panel) : (m.onPanel f).clk = m.clk := rfl
@[simp] theorem Mach.onPanel_koa (m : Mach) (f : Panel → Panel) : (m.onPanel f).koa = m.koa := rfl
@[simp] theorem Mach.onPanel_jrn (m : Mach) (f : Panel → Panel) : (m.onPanel f).jrn = m.jrn := rfl
@[simp] theorem Mach.onPanel_boot (m : Mach) (f : Panel → Panel) : (m.onPanel f).boot = m.boot := rfl
@[simp] theorem Mach.onPanel_net (m : Mach) (f : Panel → Panel) : (m.onPanel f).net = m.net := rfl
@[simp] theorem Mach.onPanel_ptp (m : Mach) (f : Panel → Panel) : (m.onPanel f).ptp = m.ptp := rfl
@[simp] theorem Mach.onPanel_dram (m : Mach) (f : Panel → Panel) : (m.onPanel f).dram = m.dram := rfl
@[simp] theorem Mach.onPanel_codec (m : Mach) (f : Panel → Panel) : (m.onPanel f).codec = m.codec := rfl
@[simp] theorem Mach.onPanel_lanes (m : Mach) (f : Panel → Panel) : (m.onPanel f).lanes = m.lanes := rfl
@[simp] theorem Mach.onPanel_tiles (m : Mach) (f : Panel → Panel) : (m.onPanel f).tiles = m.tiles := rfl
@[simp] theorem Mach.onPanel_scene (m : Mach) (f : Panel → Panel) : (m.onPanel f).scene = m.scene := rfl
@[simp] theorem Mach.onPanel_outs (m : Mach) (f : Panel → Panel) : (m.onPanel f).outs = m.outs := rfl
@[simp] theorem Mach.onPanel_pipe (m : Mach) (f : Panel → Panel) : (m.onPanel f).pipe = m.pipe := rfl
@[simp] theorem Mach.onPanel_power_ (m : Mach) (f : Panel → Panel) : (m.onPanel f).power_ = m.power_ := rfl
@[simp] theorem Mach.onPanel_thermal (m : Mach) (f : Panel → Panel) : (m.onPanel f).thermal = m.thermal := rfl
@[simp] theorem Mach.onPanel_calib (m : Mach) (f : Panel → Panel) : (m.onPanel f).calib = m.calib := rfl
@[simp] theorem Mach.onPanel_test (m : Mach) (f : Panel → Panel) : (m.onPanel f).test = m.test := rfl
@[simp] theorem Mach.onPanel_out (m : Mach) (f : Panel → Panel) : (m.onPanel f).out = m.out := rfl
@[simp] theorem Mach.onPanel_free (m : Mach) (f : Panel → Panel) : (m.onPanel f).free = m.free := rfl

/-! `Mach.onCommon` -/

@[simp] theorem Mach.onCommon_od (m : Mach) (n : Nat) (f : Common → Common) : (m.onCommon n f).od = m.od := rfl
@[simp] theorem Mach.onCommon_strs (m : Mach) (n : Nat) (f : Common → Common) : (m.onCommon n f).strs = m.strs := rfl
@[simp] theorem Mach.onCommon_clk (m : Mach) (n : Nat) (f : Common → Common) : (m.onCommon n f).clk = m.clk := rfl
@[simp] theorem Mach.onCommon_koa (m : Mach) (n : Nat) (f : Common → Common) : (m.onCommon n f).koa = m.koa := rfl
@[simp] theorem Mach.onCommon_jrn (m : Mach) (n : Nat) (f : Common → Common) : (m.onCommon n f).jrn = m.jrn := rfl
@[simp] theorem Mach.onCommon_boot (m : Mach) (n : Nat) (f : Common → Common) : (m.onCommon n f).boot = m.boot := rfl
@[simp] theorem Mach.onCommon_net (m : Mach) (n : Nat) (f : Common → Common) : (m.onCommon n f).net = m.net := rfl
@[simp] theorem Mach.onCommon_ptp (m : Mach) (n : Nat) (f : Common → Common) : (m.onCommon n f).ptp = m.ptp := rfl
@[simp] theorem Mach.onCommon_dram (m : Mach) (n : Nat) (f : Common → Common) : (m.onCommon n f).dram = m.dram := rfl
@[simp] theorem Mach.onCommon_codec (m : Mach) (n : Nat) (f : Common → Common) : (m.onCommon n f).codec = m.codec := rfl
@[simp] theorem Mach.onCommon_lanes (m : Mach) (n : Nat) (f : Common → Common) : (m.onCommon n f).lanes = m.lanes := rfl
@[simp] theorem Mach.onCommon_tiles (m : Mach) (n : Nat) (f : Common → Common) : (m.onCommon n f).tiles = m.tiles := rfl
@[simp] theorem Mach.onCommon_scene (m : Mach) (n : Nat) (f : Common → Common) : (m.onCommon n f).scene = m.scene := rfl
@[simp] theorem Mach.onCommon_outs (m : Mach) (n : Nat) (f : Common → Common) : (m.onCommon n f).outs = m.outs := rfl
@[simp] theorem Mach.onCommon_pipe (m : Mach) (n : Nat) (f : Common → Common) : (m.onCommon n f).pipe = m.pipe := rfl
@[simp] theorem Mach.onCommon_power_ (m : Mach) (n : Nat) (f : Common → Common) : (m.onCommon n f).power_ = m.power_ := rfl
@[simp] theorem Mach.onCommon_thermal (m : Mach) (n : Nat) (f : Common → Common) : (m.onCommon n f).thermal = m.thermal := rfl
@[simp] theorem Mach.onCommon_calib (m : Mach) (n : Nat) (f : Common → Common) : (m.onCommon n f).calib = m.calib := rfl
@[simp] theorem Mach.onCommon_test (m : Mach) (n : Nat) (f : Common → Common) : (m.onCommon n f).test = m.test := rfl
@[simp] theorem Mach.onCommon_out (m : Mach) (n : Nat) (f : Common → Common) : (m.onCommon n f).out = m.out := rfl
@[simp] theorem Mach.onCommon_free (m : Mach) (n : Nat) (f : Common → Common) : (m.onCommon n f).free = m.free := rfl

/-! `Mach.onLoad` -/

@[simp] theorem Mach.onLoad_od (m : Mach) (c pos kind : Nat) (f : FlashLoad → FlashLoad) : (m.onLoad c pos kind f).od = m.od := rfl
@[simp] theorem Mach.onLoad_strs (m : Mach) (c pos kind : Nat) (f : FlashLoad → FlashLoad) : (m.onLoad c pos kind f).strs = m.strs := rfl
@[simp] theorem Mach.onLoad_clk (m : Mach) (c pos kind : Nat) (f : FlashLoad → FlashLoad) : (m.onLoad c pos kind f).clk = m.clk := rfl
@[simp] theorem Mach.onLoad_koa (m : Mach) (c pos kind : Nat) (f : FlashLoad → FlashLoad) : (m.onLoad c pos kind f).koa = m.koa := rfl
@[simp] theorem Mach.onLoad_jrn (m : Mach) (c pos kind : Nat) (f : FlashLoad → FlashLoad) : (m.onLoad c pos kind f).jrn = m.jrn := rfl
@[simp] theorem Mach.onLoad_boot (m : Mach) (c pos kind : Nat) (f : FlashLoad → FlashLoad) : (m.onLoad c pos kind f).boot = m.boot := rfl
@[simp] theorem Mach.onLoad_net (m : Mach) (c pos kind : Nat) (f : FlashLoad → FlashLoad) : (m.onLoad c pos kind f).net = m.net := rfl
@[simp] theorem Mach.onLoad_ptp (m : Mach) (c pos kind : Nat) (f : FlashLoad → FlashLoad) : (m.onLoad c pos kind f).ptp = m.ptp := rfl
@[simp] theorem Mach.onLoad_dram (m : Mach) (c pos kind : Nat) (f : FlashLoad → FlashLoad) : (m.onLoad c pos kind f).dram = m.dram := rfl
@[simp] theorem Mach.onLoad_codec (m : Mach) (c pos kind : Nat) (f : FlashLoad → FlashLoad) : (m.onLoad c pos kind f).codec = m.codec := rfl
@[simp] theorem Mach.onLoad_lanes (m : Mach) (c pos kind : Nat) (f : FlashLoad → FlashLoad) : (m.onLoad c pos kind f).lanes = m.lanes := rfl
@[simp] theorem Mach.onLoad_scene (m : Mach) (c pos kind : Nat) (f : FlashLoad → FlashLoad) : (m.onLoad c pos kind f).scene = m.scene := rfl
@[simp] theorem Mach.onLoad_outs (m : Mach) (c pos kind : Nat) (f : FlashLoad → FlashLoad) : (m.onLoad c pos kind f).outs = m.outs := rfl
@[simp] theorem Mach.onLoad_pipe (m : Mach) (c pos kind : Nat) (f : FlashLoad → FlashLoad) : (m.onLoad c pos kind f).pipe = m.pipe := rfl
@[simp] theorem Mach.onLoad_power_ (m : Mach) (c pos kind : Nat) (f : FlashLoad → FlashLoad) : (m.onLoad c pos kind f).power_ = m.power_ := rfl
@[simp] theorem Mach.onLoad_thermal (m : Mach) (c pos kind : Nat) (f : FlashLoad → FlashLoad) : (m.onLoad c pos kind f).thermal = m.thermal := rfl
@[simp] theorem Mach.onLoad_calib (m : Mach) (c pos kind : Nat) (f : FlashLoad → FlashLoad) : (m.onLoad c pos kind f).calib = m.calib := rfl
@[simp] theorem Mach.onLoad_test (m : Mach) (c pos kind : Nat) (f : FlashLoad → FlashLoad) : (m.onLoad c pos kind f).test = m.test := rfl
@[simp] theorem Mach.onLoad_out (m : Mach) (c pos kind : Nat) (f : FlashLoad → FlashLoad) : (m.onLoad c pos kind f).out = m.out := rfl
@[simp] theorem Mach.onLoad_free (m : Mach) (c pos kind : Nat) (f : FlashLoad → FlashLoad) : (m.onLoad c pos kind f).free = m.free := rfl

/-! `Mach.onPower` -/

@[simp] theorem Mach.onPower_od (m : Mach) (f : Power → Power) : (m.onPower f).od = m.od := rfl
@[simp] theorem Mach.onPower_strs (m : Mach) (f : Power → Power) : (m.onPower f).strs = m.strs := rfl
@[simp] theorem Mach.onPower_clk (m : Mach) (f : Power → Power) : (m.onPower f).clk = m.clk := rfl
@[simp] theorem Mach.onPower_koa (m : Mach) (f : Power → Power) : (m.onPower f).koa = m.koa := rfl
@[simp] theorem Mach.onPower_jrn (m : Mach) (f : Power → Power) : (m.onPower f).jrn = m.jrn := rfl
@[simp] theorem Mach.onPower_boot (m : Mach) (f : Power → Power) : (m.onPower f).boot = m.boot := rfl
@[simp] theorem Mach.onPower_net (m : Mach) (f : Power → Power) : (m.onPower f).net = m.net := rfl
@[simp] theorem Mach.onPower_ptp (m : Mach) (f : Power → Power) : (m.onPower f).ptp = m.ptp := rfl
@[simp] theorem Mach.onPower_dram (m : Mach) (f : Power → Power) : (m.onPower f).dram = m.dram := rfl
@[simp] theorem Mach.onPower_codec (m : Mach) (f : Power → Power) : (m.onPower f).codec = m.codec := rfl
@[simp] theorem Mach.onPower_lanes (m : Mach) (f : Power → Power) : (m.onPower f).lanes = m.lanes := rfl
@[simp] theorem Mach.onPower_tiles (m : Mach) (f : Power → Power) : (m.onPower f).tiles = m.tiles := rfl
@[simp] theorem Mach.onPower_scene (m : Mach) (f : Power → Power) : (m.onPower f).scene = m.scene := rfl
@[simp] theorem Mach.onPower_outs (m : Mach) (f : Power → Power) : (m.onPower f).outs = m.outs := rfl
@[simp] theorem Mach.onPower_pipe (m : Mach) (f : Power → Power) : (m.onPower f).pipe = m.pipe := rfl
@[simp] theorem Mach.onPower_panel (m : Mach) (f : Power → Power) : (m.onPower f).panel = m.panel := rfl
@[simp] theorem Mach.onPower_thermal (m : Mach) (f : Power → Power) : (m.onPower f).thermal = m.thermal := rfl
@[simp] theorem Mach.onPower_calib (m : Mach) (f : Power → Power) : (m.onPower f).calib = m.calib := rfl
@[simp] theorem Mach.onPower_test (m : Mach) (f : Power → Power) : (m.onPower f).test = m.test := rfl
@[simp] theorem Mach.onPower_out (m : Mach) (f : Power → Power) : (m.onPower f).out = m.out := rfl
@[simp] theorem Mach.onPower_free (m : Mach) (f : Power → Power) : (m.onPower f).free = m.free := rfl

/-! `Mach.onPtp` -/

@[simp] theorem Mach.onPtp_od (m : Mach) (f : Ptp → Ptp) : (m.onPtp f).od = m.od := rfl
@[simp] theorem Mach.onPtp_strs (m : Mach) (f : Ptp → Ptp) : (m.onPtp f).strs = m.strs := rfl
@[simp] theorem Mach.onPtp_clk (m : Mach) (f : Ptp → Ptp) : (m.onPtp f).clk = m.clk := rfl
@[simp] theorem Mach.onPtp_koa (m : Mach) (f : Ptp → Ptp) : (m.onPtp f).koa = m.koa := rfl
@[simp] theorem Mach.onPtp_jrn (m : Mach) (f : Ptp → Ptp) : (m.onPtp f).jrn = m.jrn := rfl
@[simp] theorem Mach.onPtp_boot (m : Mach) (f : Ptp → Ptp) : (m.onPtp f).boot = m.boot := rfl
@[simp] theorem Mach.onPtp_net (m : Mach) (f : Ptp → Ptp) : (m.onPtp f).net = m.net := rfl
@[simp] theorem Mach.onPtp_dram (m : Mach) (f : Ptp → Ptp) : (m.onPtp f).dram = m.dram := rfl
@[simp] theorem Mach.onPtp_codec (m : Mach) (f : Ptp → Ptp) : (m.onPtp f).codec = m.codec := rfl
@[simp] theorem Mach.onPtp_lanes (m : Mach) (f : Ptp → Ptp) : (m.onPtp f).lanes = m.lanes := rfl
@[simp] theorem Mach.onPtp_tiles (m : Mach) (f : Ptp → Ptp) : (m.onPtp f).tiles = m.tiles := rfl
@[simp] theorem Mach.onPtp_scene (m : Mach) (f : Ptp → Ptp) : (m.onPtp f).scene = m.scene := rfl
@[simp] theorem Mach.onPtp_outs (m : Mach) (f : Ptp → Ptp) : (m.onPtp f).outs = m.outs := rfl
@[simp] theorem Mach.onPtp_pipe (m : Mach) (f : Ptp → Ptp) : (m.onPtp f).pipe = m.pipe := rfl
@[simp] theorem Mach.onPtp_panel (m : Mach) (f : Ptp → Ptp) : (m.onPtp f).panel = m.panel := rfl
@[simp] theorem Mach.onPtp_power_ (m : Mach) (f : Ptp → Ptp) : (m.onPtp f).power_ = m.power_ := rfl
@[simp] theorem Mach.onPtp_thermal (m : Mach) (f : Ptp → Ptp) : (m.onPtp f).thermal = m.thermal := rfl
@[simp] theorem Mach.onPtp_calib (m : Mach) (f : Ptp → Ptp) : (m.onPtp f).calib = m.calib := rfl
@[simp] theorem Mach.onPtp_test (m : Mach) (f : Ptp → Ptp) : (m.onPtp f).test = m.test := rfl
@[simp] theorem Mach.onPtp_out (m : Mach) (f : Ptp → Ptp) : (m.onPtp f).out = m.out := rfl
@[simp] theorem Mach.onPtp_free (m : Mach) (f : Ptp → Ptp) : (m.onPtp f).free = m.free := rfl

/-! `Mach.onDom` -/

@[simp] theorem Mach.onDom_od (m : Mach) (d : Nat) (f : Domain → Domain) : (m.onDom d f).od = m.od := rfl
@[simp] theorem Mach.onDom_strs (m : Mach) (d : Nat) (f : Domain → Domain) : (m.onDom d f).strs = m.strs := rfl
@[simp] theorem Mach.onDom_clk (m : Mach) (d : Nat) (f : Domain → Domain) : (m.onDom d f).clk = m.clk := rfl
@[simp] theorem Mach.onDom_koa (m : Mach) (d : Nat) (f : Domain → Domain) : (m.onDom d f).koa = m.koa := rfl
@[simp] theorem Mach.onDom_jrn (m : Mach) (d : Nat) (f : Domain → Domain) : (m.onDom d f).jrn = m.jrn := rfl
@[simp] theorem Mach.onDom_boot (m : Mach) (d : Nat) (f : Domain → Domain) : (m.onDom d f).boot = m.boot := rfl
@[simp] theorem Mach.onDom_net (m : Mach) (d : Nat) (f : Domain → Domain) : (m.onDom d f).net = m.net := rfl
@[simp] theorem Mach.onDom_dram (m : Mach) (d : Nat) (f : Domain → Domain) : (m.onDom d f).dram = m.dram := rfl
@[simp] theorem Mach.onDom_codec (m : Mach) (d : Nat) (f : Domain → Domain) : (m.onDom d f).codec = m.codec := rfl
@[simp] theorem Mach.onDom_lanes (m : Mach) (d : Nat) (f : Domain → Domain) : (m.onDom d f).lanes = m.lanes := rfl
@[simp] theorem Mach.onDom_tiles (m : Mach) (d : Nat) (f : Domain → Domain) : (m.onDom d f).tiles = m.tiles := rfl
@[simp] theorem Mach.onDom_scene (m : Mach) (d : Nat) (f : Domain → Domain) : (m.onDom d f).scene = m.scene := rfl
@[simp] theorem Mach.onDom_outs (m : Mach) (d : Nat) (f : Domain → Domain) : (m.onDom d f).outs = m.outs := rfl
@[simp] theorem Mach.onDom_pipe (m : Mach) (d : Nat) (f : Domain → Domain) : (m.onDom d f).pipe = m.pipe := rfl
@[simp] theorem Mach.onDom_panel (m : Mach) (d : Nat) (f : Domain → Domain) : (m.onDom d f).panel = m.panel := rfl
@[simp] theorem Mach.onDom_power_ (m : Mach) (d : Nat) (f : Domain → Domain) : (m.onDom d f).power_ = m.power_ := rfl
@[simp] theorem Mach.onDom_thermal (m : Mach) (d : Nat) (f : Domain → Domain) : (m.onDom d f).thermal = m.thermal := rfl
@[simp] theorem Mach.onDom_calib (m : Mach) (d : Nat) (f : Domain → Domain) : (m.onDom d f).calib = m.calib := rfl
@[simp] theorem Mach.onDom_test (m : Mach) (d : Nat) (f : Domain → Domain) : (m.onDom d f).test = m.test := rfl
@[simp] theorem Mach.onDom_out (m : Mach) (d : Nat) (f : Domain → Domain) : (m.onDom d f).out = m.out := rfl
@[simp] theorem Mach.onDom_free (m : Mach) (d : Nat) (f : Domain → Domain) : (m.onDom d f).free = m.free := rfl

/-! `Mach.onSyncOut` -/

@[simp] theorem Mach.onSyncOut_od (m : Mach) (o : Nat) (f : SyncOut → SyncOut) : (m.onSyncOut o f).od = m.od := rfl
@[simp] theorem Mach.onSyncOut_strs (m : Mach) (o : Nat) (f : SyncOut → SyncOut) : (m.onSyncOut o f).strs = m.strs := rfl
@[simp] theorem Mach.onSyncOut_clk (m : Mach) (o : Nat) (f : SyncOut → SyncOut) : (m.onSyncOut o f).clk = m.clk := rfl
@[simp] theorem Mach.onSyncOut_koa (m : Mach) (o : Nat) (f : SyncOut → SyncOut) : (m.onSyncOut o f).koa = m.koa := rfl
@[simp] theorem Mach.onSyncOut_jrn (m : Mach) (o : Nat) (f : SyncOut → SyncOut) : (m.onSyncOut o f).jrn = m.jrn := rfl
@[simp] theorem Mach.onSyncOut_boot (m : Mach) (o : Nat) (f : SyncOut → SyncOut) : (m.onSyncOut o f).boot = m.boot := rfl
@[simp] theorem Mach.onSyncOut_net (m : Mach) (o : Nat) (f : SyncOut → SyncOut) : (m.onSyncOut o f).net = m.net := rfl
@[simp] theorem Mach.onSyncOut_dram (m : Mach) (o : Nat) (f : SyncOut → SyncOut) : (m.onSyncOut o f).dram = m.dram := rfl
@[simp] theorem Mach.onSyncOut_codec (m : Mach) (o : Nat) (f : SyncOut → SyncOut) : (m.onSyncOut o f).codec = m.codec := rfl
@[simp] theorem Mach.onSyncOut_lanes (m : Mach) (o : Nat) (f : SyncOut → SyncOut) : (m.onSyncOut o f).lanes = m.lanes := rfl
@[simp] theorem Mach.onSyncOut_tiles (m : Mach) (o : Nat) (f : SyncOut → SyncOut) : (m.onSyncOut o f).tiles = m.tiles := rfl
@[simp] theorem Mach.onSyncOut_scene (m : Mach) (o : Nat) (f : SyncOut → SyncOut) : (m.onSyncOut o f).scene = m.scene := rfl
@[simp] theorem Mach.onSyncOut_outs (m : Mach) (o : Nat) (f : SyncOut → SyncOut) : (m.onSyncOut o f).outs = m.outs := rfl
@[simp] theorem Mach.onSyncOut_pipe (m : Mach) (o : Nat) (f : SyncOut → SyncOut) : (m.onSyncOut o f).pipe = m.pipe := rfl
@[simp] theorem Mach.onSyncOut_panel (m : Mach) (o : Nat) (f : SyncOut → SyncOut) : (m.onSyncOut o f).panel = m.panel := rfl
@[simp] theorem Mach.onSyncOut_power_ (m : Mach) (o : Nat) (f : SyncOut → SyncOut) : (m.onSyncOut o f).power_ = m.power_ := rfl
@[simp] theorem Mach.onSyncOut_thermal (m : Mach) (o : Nat) (f : SyncOut → SyncOut) : (m.onSyncOut o f).thermal = m.thermal := rfl
@[simp] theorem Mach.onSyncOut_calib (m : Mach) (o : Nat) (f : SyncOut → SyncOut) : (m.onSyncOut o f).calib = m.calib := rfl
@[simp] theorem Mach.onSyncOut_test (m : Mach) (o : Nat) (f : SyncOut → SyncOut) : (m.onSyncOut o f).test = m.test := rfl
@[simp] theorem Mach.onSyncOut_out (m : Mach) (o : Nat) (f : SyncOut → SyncOut) : (m.onSyncOut o f).out = m.out := rfl
@[simp] theorem Mach.onSyncOut_free (m : Mach) (o : Nat) (f : SyncOut → SyncOut) : (m.onSyncOut o f).free = m.free := rfl

/-! `Mach.onTest` -/

@[simp] theorem Mach.onTest_od (m : Mach) (f : SelfTest → SelfTest) : (m.onTest f).od = m.od := rfl
@[simp] theorem Mach.onTest_strs (m : Mach) (f : SelfTest → SelfTest) : (m.onTest f).strs = m.strs := rfl
@[simp] theorem Mach.onTest_clk (m : Mach) (f : SelfTest → SelfTest) : (m.onTest f).clk = m.clk := rfl
@[simp] theorem Mach.onTest_koa (m : Mach) (f : SelfTest → SelfTest) : (m.onTest f).koa = m.koa := rfl
@[simp] theorem Mach.onTest_jrn (m : Mach) (f : SelfTest → SelfTest) : (m.onTest f).jrn = m.jrn := rfl
@[simp] theorem Mach.onTest_boot (m : Mach) (f : SelfTest → SelfTest) : (m.onTest f).boot = m.boot := rfl
@[simp] theorem Mach.onTest_net (m : Mach) (f : SelfTest → SelfTest) : (m.onTest f).net = m.net := rfl
@[simp] theorem Mach.onTest_ptp (m : Mach) (f : SelfTest → SelfTest) : (m.onTest f).ptp = m.ptp := rfl
@[simp] theorem Mach.onTest_dram (m : Mach) (f : SelfTest → SelfTest) : (m.onTest f).dram = m.dram := rfl
@[simp] theorem Mach.onTest_codec (m : Mach) (f : SelfTest → SelfTest) : (m.onTest f).codec = m.codec := rfl
@[simp] theorem Mach.onTest_lanes (m : Mach) (f : SelfTest → SelfTest) : (m.onTest f).lanes = m.lanes := rfl
@[simp] theorem Mach.onTest_tiles (m : Mach) (f : SelfTest → SelfTest) : (m.onTest f).tiles = m.tiles := rfl
@[simp] theorem Mach.onTest_scene (m : Mach) (f : SelfTest → SelfTest) : (m.onTest f).scene = m.scene := rfl
@[simp] theorem Mach.onTest_outs (m : Mach) (f : SelfTest → SelfTest) : (m.onTest f).outs = m.outs := rfl
@[simp] theorem Mach.onTest_pipe (m : Mach) (f : SelfTest → SelfTest) : (m.onTest f).pipe = m.pipe := rfl
@[simp] theorem Mach.onTest_panel (m : Mach) (f : SelfTest → SelfTest) : (m.onTest f).panel = m.panel := rfl
@[simp] theorem Mach.onTest_power_ (m : Mach) (f : SelfTest → SelfTest) : (m.onTest f).power_ = m.power_ := rfl
@[simp] theorem Mach.onTest_thermal (m : Mach) (f : SelfTest → SelfTest) : (m.onTest f).thermal = m.thermal := rfl
@[simp] theorem Mach.onTest_calib (m : Mach) (f : SelfTest → SelfTest) : (m.onTest f).calib = m.calib := rfl
@[simp] theorem Mach.onTest_out (m : Mach) (f : SelfTest → SelfTest) : (m.onTest f).out = m.out := rfl
@[simp] theorem Mach.onTest_free (m : Mach) (f : SelfTest → SelfTest) : (m.onTest f).free = m.free := rfl

/-! `Mach.onThermal` -/

@[simp] theorem Mach.onThermal_od (m : Mach) (f : Thermal → Thermal) : (m.onThermal f).od = m.od := rfl
@[simp] theorem Mach.onThermal_strs (m : Mach) (f : Thermal → Thermal) : (m.onThermal f).strs = m.strs := rfl
@[simp] theorem Mach.onThermal_clk (m : Mach) (f : Thermal → Thermal) : (m.onThermal f).clk = m.clk := rfl
@[simp] theorem Mach.onThermal_koa (m : Mach) (f : Thermal → Thermal) : (m.onThermal f).koa = m.koa := rfl
@[simp] theorem Mach.onThermal_jrn (m : Mach) (f : Thermal → Thermal) : (m.onThermal f).jrn = m.jrn := rfl
@[simp] theorem Mach.onThermal_boot (m : Mach) (f : Thermal → Thermal) : (m.onThermal f).boot = m.boot := rfl
@[simp] theorem Mach.onThermal_net (m : Mach) (f : Thermal → Thermal) : (m.onThermal f).net = m.net := rfl
@[simp] theorem Mach.onThermal_ptp (m : Mach) (f : Thermal → Thermal) : (m.onThermal f).ptp = m.ptp := rfl
@[simp] theorem Mach.onThermal_dram (m : Mach) (f : Thermal → Thermal) : (m.onThermal f).dram = m.dram := rfl
@[simp] theorem Mach.onThermal_codec (m : Mach) (f : Thermal → Thermal) : (m.onThermal f).codec = m.codec := rfl
@[simp] theorem Mach.onThermal_lanes (m : Mach) (f : Thermal → Thermal) : (m.onThermal f).lanes = m.lanes := rfl
@[simp] theorem Mach.onThermal_tiles (m : Mach) (f : Thermal → Thermal) : (m.onThermal f).tiles = m.tiles := rfl
@[simp] theorem Mach.onThermal_scene (m : Mach) (f : Thermal → Thermal) : (m.onThermal f).scene = m.scene := rfl
@[simp] theorem Mach.onThermal_outs (m : Mach) (f : Thermal → Thermal) : (m.onThermal f).outs = m.outs := rfl
@[simp] theorem Mach.onThermal_pipe (m : Mach) (f : Thermal → Thermal) : (m.onThermal f).pipe = m.pipe := rfl
@[simp] theorem Mach.onThermal_panel (m : Mach) (f : Thermal → Thermal) : (m.onThermal f).panel = m.panel := rfl
@[simp] theorem Mach.onThermal_power_ (m : Mach) (f : Thermal → Thermal) : (m.onThermal f).power_ = m.power_ := rfl
@[simp] theorem Mach.onThermal_calib (m : Mach) (f : Thermal → Thermal) : (m.onThermal f).calib = m.calib := rfl
@[simp] theorem Mach.onThermal_test (m : Mach) (f : Thermal → Thermal) : (m.onThermal f).test = m.test := rfl
@[simp] theorem Mach.onThermal_out (m : Mach) (f : Thermal → Thermal) : (m.onThermal f).out = m.out := rfl
@[simp] theorem Mach.onThermal_free (m : Mach) (f : Thermal → Thermal) : (m.onThermal f).free = m.free := rfl

/-! `Mach.onSensor` -/

@[simp] theorem Mach.onSensor_od (m : Mach) (s : Nat) (f : Sensor → Sensor) : (m.onSensor s f).od = m.od := rfl
@[simp] theorem Mach.onSensor_strs (m : Mach) (s : Nat) (f : Sensor → Sensor) : (m.onSensor s f).strs = m.strs := rfl
@[simp] theorem Mach.onSensor_clk (m : Mach) (s : Nat) (f : Sensor → Sensor) : (m.onSensor s f).clk = m.clk := rfl
@[simp] theorem Mach.onSensor_koa (m : Mach) (s : Nat) (f : Sensor → Sensor) : (m.onSensor s f).koa = m.koa := rfl
@[simp] theorem Mach.onSensor_jrn (m : Mach) (s : Nat) (f : Sensor → Sensor) : (m.onSensor s f).jrn = m.jrn := rfl
@[simp] theorem Mach.onSensor_boot (m : Mach) (s : Nat) (f : Sensor → Sensor) : (m.onSensor s f).boot = m.boot := rfl
@[simp] theorem Mach.onSensor_net (m : Mach) (s : Nat) (f : Sensor → Sensor) : (m.onSensor s f).net = m.net := rfl
@[simp] theorem Mach.onSensor_ptp (m : Mach) (s : Nat) (f : Sensor → Sensor) : (m.onSensor s f).ptp = m.ptp := rfl
@[simp] theorem Mach.onSensor_dram (m : Mach) (s : Nat) (f : Sensor → Sensor) : (m.onSensor s f).dram = m.dram := rfl
@[simp] theorem Mach.onSensor_codec (m : Mach) (s : Nat) (f : Sensor → Sensor) : (m.onSensor s f).codec = m.codec := rfl
@[simp] theorem Mach.onSensor_lanes (m : Mach) (s : Nat) (f : Sensor → Sensor) : (m.onSensor s f).lanes = m.lanes := rfl
@[simp] theorem Mach.onSensor_tiles (m : Mach) (s : Nat) (f : Sensor → Sensor) : (m.onSensor s f).tiles = m.tiles := rfl
@[simp] theorem Mach.onSensor_scene (m : Mach) (s : Nat) (f : Sensor → Sensor) : (m.onSensor s f).scene = m.scene := rfl
@[simp] theorem Mach.onSensor_outs (m : Mach) (s : Nat) (f : Sensor → Sensor) : (m.onSensor s f).outs = m.outs := rfl
@[simp] theorem Mach.onSensor_pipe (m : Mach) (s : Nat) (f : Sensor → Sensor) : (m.onSensor s f).pipe = m.pipe := rfl
@[simp] theorem Mach.onSensor_panel (m : Mach) (s : Nat) (f : Sensor → Sensor) : (m.onSensor s f).panel = m.panel := rfl
@[simp] theorem Mach.onSensor_power_ (m : Mach) (s : Nat) (f : Sensor → Sensor) : (m.onSensor s f).power_ = m.power_ := rfl
@[simp] theorem Mach.onSensor_calib (m : Mach) (s : Nat) (f : Sensor → Sensor) : (m.onSensor s f).calib = m.calib := rfl
@[simp] theorem Mach.onSensor_test (m : Mach) (s : Nat) (f : Sensor → Sensor) : (m.onSensor s f).test = m.test := rfl
@[simp] theorem Mach.onSensor_out (m : Mach) (s : Nat) (f : Sensor → Sensor) : (m.onSensor s f).out = m.out := rfl
@[simp] theorem Mach.onSensor_free (m : Mach) (s : Nat) (f : Sensor → Sensor) : (m.onSensor s f).free = m.free := rfl

/-! `Mach.onJob` -/

@[simp] theorem Mach.onJob_od (m : Mach) (j : Nat) (f : Job → Job) : (m.onJob j f).od = m.od := rfl
@[simp] theorem Mach.onJob_strs (m : Mach) (j : Nat) (f : Job → Job) : (m.onJob j f).strs = m.strs := rfl
@[simp] theorem Mach.onJob_clk (m : Mach) (j : Nat) (f : Job → Job) : (m.onJob j f).clk = m.clk := rfl
@[simp] theorem Mach.onJob_koa (m : Mach) (j : Nat) (f : Job → Job) : (m.onJob j f).koa = m.koa := rfl
@[simp] theorem Mach.onJob_jrn (m : Mach) (j : Nat) (f : Job → Job) : (m.onJob j f).jrn = m.jrn := rfl
@[simp] theorem Mach.onJob_boot (m : Mach) (j : Nat) (f : Job → Job) : (m.onJob j f).boot = m.boot := rfl
@[simp] theorem Mach.onJob_net (m : Mach) (j : Nat) (f : Job → Job) : (m.onJob j f).net = m.net := rfl
@[simp] theorem Mach.onJob_ptp (m : Mach) (j : Nat) (f : Job → Job) : (m.onJob j f).ptp = m.ptp := rfl
@[simp] theorem Mach.onJob_dram (m : Mach) (j : Nat) (f : Job → Job) : (m.onJob j f).dram = m.dram := rfl
@[simp] theorem Mach.onJob_lanes (m : Mach) (j : Nat) (f : Job → Job) : (m.onJob j f).lanes = m.lanes := rfl
@[simp] theorem Mach.onJob_tiles (m : Mach) (j : Nat) (f : Job → Job) : (m.onJob j f).tiles = m.tiles := rfl
@[simp] theorem Mach.onJob_scene (m : Mach) (j : Nat) (f : Job → Job) : (m.onJob j f).scene = m.scene := rfl
@[simp] theorem Mach.onJob_outs (m : Mach) (j : Nat) (f : Job → Job) : (m.onJob j f).outs = m.outs := rfl
@[simp] theorem Mach.onJob_pipe (m : Mach) (j : Nat) (f : Job → Job) : (m.onJob j f).pipe = m.pipe := rfl
@[simp] theorem Mach.onJob_panel (m : Mach) (j : Nat) (f : Job → Job) : (m.onJob j f).panel = m.panel := rfl
@[simp] theorem Mach.onJob_power_ (m : Mach) (j : Nat) (f : Job → Job) : (m.onJob j f).power_ = m.power_ := rfl
@[simp] theorem Mach.onJob_thermal (m : Mach) (j : Nat) (f : Job → Job) : (m.onJob j f).thermal = m.thermal := rfl
@[simp] theorem Mach.onJob_calib (m : Mach) (j : Nat) (f : Job → Job) : (m.onJob j f).calib = m.calib := rfl
@[simp] theorem Mach.onJob_test (m : Mach) (j : Nat) (f : Job → Job) : (m.onJob j f).test = m.test := rfl
@[simp] theorem Mach.onJob_out (m : Mach) (j : Nat) (f : Job → Job) : (m.onJob j f).out = m.out := rfl
@[simp] theorem Mach.onJob_free (m : Mach) (j : Nat) (f : Job → Job) : (m.onJob j f).free = m.free := rfl

/-! `Mach.onPort` -/

@[simp] theorem Mach.onPort_od (m : Mach) (p : Nat) (f : Port → Port) : (m.onPort p f).od = m.od := rfl
@[simp] theorem Mach.onPort_strs (m : Mach) (p : Nat) (f : Port → Port) : (m.onPort p f).strs = m.strs := rfl
@[simp] theorem Mach.onPort_clk (m : Mach) (p : Nat) (f : Port → Port) : (m.onPort p f).clk = m.clk := rfl
@[simp] theorem Mach.onPort_koa (m : Mach) (p : Nat) (f : Port → Port) : (m.onPort p f).koa = m.koa := rfl
@[simp] theorem Mach.onPort_jrn (m : Mach) (p : Nat) (f : Port → Port) : (m.onPort p f).jrn = m.jrn := rfl
@[simp] theorem Mach.onPort_boot (m : Mach) (p : Nat) (f : Port → Port) : (m.onPort p f).boot = m.boot := rfl
@[simp] theorem Mach.onPort_ptp (m : Mach) (p : Nat) (f : Port → Port) : (m.onPort p f).ptp = m.ptp := rfl
@[simp] theorem Mach.onPort_dram (m : Mach) (p : Nat) (f : Port → Port) : (m.onPort p f).dram = m.dram := rfl
@[simp] theorem Mach.onPort_codec (m : Mach) (p : Nat) (f : Port → Port) : (m.onPort p f).codec = m.codec := rfl
@[simp] theorem Mach.onPort_lanes (m : Mach) (p : Nat) (f : Port → Port) : (m.onPort p f).lanes = m.lanes := rfl
@[simp] theorem Mach.onPort_tiles (m : Mach) (p : Nat) (f : Port → Port) : (m.onPort p f).tiles = m.tiles := rfl
@[simp] theorem Mach.onPort_scene (m : Mach) (p : Nat) (f : Port → Port) : (m.onPort p f).scene = m.scene := rfl
@[simp] theorem Mach.onPort_outs (m : Mach) (p : Nat) (f : Port → Port) : (m.onPort p f).outs = m.outs := rfl
@[simp] theorem Mach.onPort_pipe (m : Mach) (p : Nat) (f : Port → Port) : (m.onPort p f).pipe = m.pipe := rfl
@[simp] theorem Mach.onPort_panel (m : Mach) (p : Nat) (f : Port → Port) : (m.onPort p f).panel = m.panel := rfl
@[simp] theorem Mach.onPort_power_ (m : Mach) (p : Nat) (f : Port → Port) : (m.onPort p f).power_ = m.power_ := rfl
@[simp] theorem Mach.onPort_thermal (m : Mach) (p : Nat) (f : Port → Port) : (m.onPort p f).thermal = m.thermal := rfl
@[simp] theorem Mach.onPort_calib (m : Mach) (p : Nat) (f : Port → Port) : (m.onPort p f).calib = m.calib := rfl
@[simp] theorem Mach.onPort_test (m : Mach) (p : Nat) (f : Port → Port) : (m.onPort p f).test = m.test := rfl
@[simp] theorem Mach.onPort_out (m : Mach) (p : Nat) (f : Port → Port) : (m.onPort p f).out = m.out := rfl
@[simp] theorem Mach.onPort_free (m : Mach) (p : Nat) (f : Port → Port) : (m.onPort p f).free = m.free := rfl

/-! `Mach.onMeter` -/

@[simp] theorem Mach.onMeter_od (m : Mach) (slot : Nat) (f : Meter → Meter) : (m.onMeter slot f).od = m.od := rfl
@[simp] theorem Mach.onMeter_strs (m : Mach) (slot : Nat) (f : Meter → Meter) : (m.onMeter slot f).strs = m.strs := rfl
@[simp] theorem Mach.onMeter_clk (m : Mach) (slot : Nat) (f : Meter → Meter) : (m.onMeter slot f).clk = m.clk := rfl
@[simp] theorem Mach.onMeter_koa (m : Mach) (slot : Nat) (f : Meter → Meter) : (m.onMeter slot f).koa = m.koa := rfl
@[simp] theorem Mach.onMeter_jrn (m : Mach) (slot : Nat) (f : Meter → Meter) : (m.onMeter slot f).jrn = m.jrn := rfl
@[simp] theorem Mach.onMeter_boot (m : Mach) (slot : Nat) (f : Meter → Meter) : (m.onMeter slot f).boot = m.boot := rfl
@[simp] theorem Mach.onMeter_ptp (m : Mach) (slot : Nat) (f : Meter → Meter) : (m.onMeter slot f).ptp = m.ptp := rfl
@[simp] theorem Mach.onMeter_dram (m : Mach) (slot : Nat) (f : Meter → Meter) : (m.onMeter slot f).dram = m.dram := rfl
@[simp] theorem Mach.onMeter_codec (m : Mach) (slot : Nat) (f : Meter → Meter) : (m.onMeter slot f).codec = m.codec := rfl
@[simp] theorem Mach.onMeter_lanes (m : Mach) (slot : Nat) (f : Meter → Meter) : (m.onMeter slot f).lanes = m.lanes := rfl
@[simp] theorem Mach.onMeter_tiles (m : Mach) (slot : Nat) (f : Meter → Meter) : (m.onMeter slot f).tiles = m.tiles := rfl
@[simp] theorem Mach.onMeter_scene (m : Mach) (slot : Nat) (f : Meter → Meter) : (m.onMeter slot f).scene = m.scene := rfl
@[simp] theorem Mach.onMeter_outs (m : Mach) (slot : Nat) (f : Meter → Meter) : (m.onMeter slot f).outs = m.outs := rfl
@[simp] theorem Mach.onMeter_pipe (m : Mach) (slot : Nat) (f : Meter → Meter) : (m.onMeter slot f).pipe = m.pipe := rfl
@[simp] theorem Mach.onMeter_panel (m : Mach) (slot : Nat) (f : Meter → Meter) : (m.onMeter slot f).panel = m.panel := rfl
@[simp] theorem Mach.onMeter_power_ (m : Mach) (slot : Nat) (f : Meter → Meter) : (m.onMeter slot f).power_ = m.power_ := rfl
@[simp] theorem Mach.onMeter_thermal (m : Mach) (slot : Nat) (f : Meter → Meter) : (m.onMeter slot f).thermal = m.thermal := rfl
@[simp] theorem Mach.onMeter_calib (m : Mach) (slot : Nat) (f : Meter → Meter) : (m.onMeter slot f).calib = m.calib := rfl
@[simp] theorem Mach.onMeter_test (m : Mach) (slot : Nat) (f : Meter → Meter) : (m.onMeter slot f).test = m.test := rfl
@[simp] theorem Mach.onMeter_out (m : Mach) (slot : Nat) (f : Meter → Meter) : (m.onMeter slot f).out = m.out := rfl
@[simp] theorem Mach.onMeter_free (m : Mach) (slot : Nat) (f : Meter → Meter) : (m.onMeter slot f).free = m.free := rfl

/-! `Mach.onLayer` -/

@[simp] theorem Mach.onLayer_od (m : Mach) (k : Nat) (f : VLayer → VLayer) : (m.onLayer k f).od = m.od := rfl
@[simp] theorem Mach.onLayer_strs (m : Mach) (k : Nat) (f : VLayer → VLayer) : (m.onLayer k f).strs = m.strs := rfl
@[simp] theorem Mach.onLayer_clk (m : Mach) (k : Nat) (f : VLayer → VLayer) : (m.onLayer k f).clk = m.clk := rfl
@[simp] theorem Mach.onLayer_koa (m : Mach) (k : Nat) (f : VLayer → VLayer) : (m.onLayer k f).koa = m.koa := rfl
@[simp] theorem Mach.onLayer_jrn (m : Mach) (k : Nat) (f : VLayer → VLayer) : (m.onLayer k f).jrn = m.jrn := rfl
@[simp] theorem Mach.onLayer_boot (m : Mach) (k : Nat) (f : VLayer → VLayer) : (m.onLayer k f).boot = m.boot := rfl
@[simp] theorem Mach.onLayer_net (m : Mach) (k : Nat) (f : VLayer → VLayer) : (m.onLayer k f).net = m.net := rfl
@[simp] theorem Mach.onLayer_ptp (m : Mach) (k : Nat) (f : VLayer → VLayer) : (m.onLayer k f).ptp = m.ptp := rfl
@[simp] theorem Mach.onLayer_dram (m : Mach) (k : Nat) (f : VLayer → VLayer) : (m.onLayer k f).dram = m.dram := rfl
@[simp] theorem Mach.onLayer_codec (m : Mach) (k : Nat) (f : VLayer → VLayer) : (m.onLayer k f).codec = m.codec := rfl
@[simp] theorem Mach.onLayer_lanes (m : Mach) (k : Nat) (f : VLayer → VLayer) : (m.onLayer k f).lanes = m.lanes := rfl
@[simp] theorem Mach.onLayer_tiles (m : Mach) (k : Nat) (f : VLayer → VLayer) : (m.onLayer k f).tiles = m.tiles := rfl
@[simp] theorem Mach.onLayer_outs (m : Mach) (k : Nat) (f : VLayer → VLayer) : (m.onLayer k f).outs = m.outs := rfl
@[simp] theorem Mach.onLayer_pipe (m : Mach) (k : Nat) (f : VLayer → VLayer) : (m.onLayer k f).pipe = m.pipe := rfl
@[simp] theorem Mach.onLayer_panel (m : Mach) (k : Nat) (f : VLayer → VLayer) : (m.onLayer k f).panel = m.panel := rfl
@[simp] theorem Mach.onLayer_power_ (m : Mach) (k : Nat) (f : VLayer → VLayer) : (m.onLayer k f).power_ = m.power_ := rfl
@[simp] theorem Mach.onLayer_thermal (m : Mach) (k : Nat) (f : VLayer → VLayer) : (m.onLayer k f).thermal = m.thermal := rfl
@[simp] theorem Mach.onLayer_calib (m : Mach) (k : Nat) (f : VLayer → VLayer) : (m.onLayer k f).calib = m.calib := rfl
@[simp] theorem Mach.onLayer_test (m : Mach) (k : Nat) (f : VLayer → VLayer) : (m.onLayer k f).test = m.test := rfl
@[simp] theorem Mach.onLayer_out (m : Mach) (k : Nat) (f : VLayer → VLayer) : (m.onLayer k f).out = m.out := rfl
@[simp] theorem Mach.onLayer_free (m : Mach) (k : Nat) (f : VLayer → VLayer) : (m.onLayer k f).free = m.free := rfl

/-! `Mach.onContent` -/

@[simp] theorem Mach.onContent_od (m : Mach) (k : Nat) (o : Origin) (h : Nat) (f : Content → Content) : (m.onContent k o h f).od = m.od := rfl
@[simp] theorem Mach.onContent_strs (m : Mach) (k : Nat) (o : Origin) (h : Nat) (f : Content → Content) : (m.onContent k o h f).strs = m.strs := rfl
@[simp] theorem Mach.onContent_clk (m : Mach) (k : Nat) (o : Origin) (h : Nat) (f : Content → Content) : (m.onContent k o h f).clk = m.clk := rfl
@[simp] theorem Mach.onContent_koa (m : Mach) (k : Nat) (o : Origin) (h : Nat) (f : Content → Content) : (m.onContent k o h f).koa = m.koa := rfl
@[simp] theorem Mach.onContent_jrn (m : Mach) (k : Nat) (o : Origin) (h : Nat) (f : Content → Content) : (m.onContent k o h f).jrn = m.jrn := rfl
@[simp] theorem Mach.onContent_boot (m : Mach) (k : Nat) (o : Origin) (h : Nat) (f : Content → Content) : (m.onContent k o h f).boot = m.boot := rfl
@[simp] theorem Mach.onContent_net (m : Mach) (k : Nat) (o : Origin) (h : Nat) (f : Content → Content) : (m.onContent k o h f).net = m.net := rfl
@[simp] theorem Mach.onContent_ptp (m : Mach) (k : Nat) (o : Origin) (h : Nat) (f : Content → Content) : (m.onContent k o h f).ptp = m.ptp := rfl
@[simp] theorem Mach.onContent_dram (m : Mach) (k : Nat) (o : Origin) (h : Nat) (f : Content → Content) : (m.onContent k o h f).dram = m.dram := rfl
@[simp] theorem Mach.onContent_codec (m : Mach) (k : Nat) (o : Origin) (h : Nat) (f : Content → Content) : (m.onContent k o h f).codec = m.codec := rfl
@[simp] theorem Mach.onContent_lanes (m : Mach) (k : Nat) (o : Origin) (h : Nat) (f : Content → Content) : (m.onContent k o h f).lanes = m.lanes := rfl
@[simp] theorem Mach.onContent_tiles (m : Mach) (k : Nat) (o : Origin) (h : Nat) (f : Content → Content) : (m.onContent k o h f).tiles = m.tiles := rfl
@[simp] theorem Mach.onContent_outs (m : Mach) (k : Nat) (o : Origin) (h : Nat) (f : Content → Content) : (m.onContent k o h f).outs = m.outs := rfl
@[simp] theorem Mach.onContent_pipe (m : Mach) (k : Nat) (o : Origin) (h : Nat) (f : Content → Content) : (m.onContent k o h f).pipe = m.pipe := rfl
@[simp] theorem Mach.onContent_panel (m : Mach) (k : Nat) (o : Origin) (h : Nat) (f : Content → Content) : (m.onContent k o h f).panel = m.panel := rfl
@[simp] theorem Mach.onContent_power_ (m : Mach) (k : Nat) (o : Origin) (h : Nat) (f : Content → Content) : (m.onContent k o h f).power_ = m.power_ := rfl
@[simp] theorem Mach.onContent_thermal (m : Mach) (k : Nat) (o : Origin) (h : Nat) (f : Content → Content) : (m.onContent k o h f).thermal = m.thermal := rfl
@[simp] theorem Mach.onContent_calib (m : Mach) (k : Nat) (o : Origin) (h : Nat) (f : Content → Content) : (m.onContent k o h f).calib = m.calib := rfl
@[simp] theorem Mach.onContent_test (m : Mach) (k : Nat) (o : Origin) (h : Nat) (f : Content → Content) : (m.onContent k o h f).test = m.test := rfl
@[simp] theorem Mach.onContent_out (m : Mach) (k : Nat) (o : Origin) (h : Nat) (f : Content → Content) : (m.onContent k o h f).out = m.out := rfl
@[simp] theorem Mach.onContent_free (m : Mach) (k : Nat) (o : Origin) (h : Nat) (f : Content → Content) : (m.onContent k o h f).free = m.free := rfl

/-! `Mach.onGraphic` -/

@[simp] theorem Mach.onGraphic_od (m : Mach) (g : Nat) (f : Graphic → Graphic) : (m.onGraphic g f).od = m.od := rfl
@[simp] theorem Mach.onGraphic_strs (m : Mach) (g : Nat) (f : Graphic → Graphic) : (m.onGraphic g f).strs = m.strs := rfl
@[simp] theorem Mach.onGraphic_clk (m : Mach) (g : Nat) (f : Graphic → Graphic) : (m.onGraphic g f).clk = m.clk := rfl
@[simp] theorem Mach.onGraphic_koa (m : Mach) (g : Nat) (f : Graphic → Graphic) : (m.onGraphic g f).koa = m.koa := rfl
@[simp] theorem Mach.onGraphic_jrn (m : Mach) (g : Nat) (f : Graphic → Graphic) : (m.onGraphic g f).jrn = m.jrn := rfl
@[simp] theorem Mach.onGraphic_boot (m : Mach) (g : Nat) (f : Graphic → Graphic) : (m.onGraphic g f).boot = m.boot := rfl
@[simp] theorem Mach.onGraphic_net (m : Mach) (g : Nat) (f : Graphic → Graphic) : (m.onGraphic g f).net = m.net := rfl
@[simp] theorem Mach.onGraphic_ptp (m : Mach) (g : Nat) (f : Graphic → Graphic) : (m.onGraphic g f).ptp = m.ptp := rfl
@[simp] theorem Mach.onGraphic_dram (m : Mach) (g : Nat) (f : Graphic → Graphic) : (m.onGraphic g f).dram = m.dram := rfl
@[simp] theorem Mach.onGraphic_codec (m : Mach) (g : Nat) (f : Graphic → Graphic) : (m.onGraphic g f).codec = m.codec := rfl
@[simp] theorem Mach.onGraphic_lanes (m : Mach) (g : Nat) (f : Graphic → Graphic) : (m.onGraphic g f).lanes = m.lanes := rfl
@[simp] theorem Mach.onGraphic_tiles (m : Mach) (g : Nat) (f : Graphic → Graphic) : (m.onGraphic g f).tiles = m.tiles := rfl
@[simp] theorem Mach.onGraphic_scene (m : Mach) (g : Nat) (f : Graphic → Graphic) : (m.onGraphic g f).scene = m.scene := rfl
@[simp] theorem Mach.onGraphic_pipe (m : Mach) (g : Nat) (f : Graphic → Graphic) : (m.onGraphic g f).pipe = m.pipe := rfl
@[simp] theorem Mach.onGraphic_panel (m : Mach) (g : Nat) (f : Graphic → Graphic) : (m.onGraphic g f).panel = m.panel := rfl
@[simp] theorem Mach.onGraphic_power_ (m : Mach) (g : Nat) (f : Graphic → Graphic) : (m.onGraphic g f).power_ = m.power_ := rfl
@[simp] theorem Mach.onGraphic_thermal (m : Mach) (g : Nat) (f : Graphic → Graphic) : (m.onGraphic g f).thermal = m.thermal := rfl
@[simp] theorem Mach.onGraphic_calib (m : Mach) (g : Nat) (f : Graphic → Graphic) : (m.onGraphic g f).calib = m.calib := rfl
@[simp] theorem Mach.onGraphic_test (m : Mach) (g : Nat) (f : Graphic → Graphic) : (m.onGraphic g f).test = m.test := rfl
@[simp] theorem Mach.onGraphic_out (m : Mach) (g : Nat) (f : Graphic → Graphic) : (m.onGraphic g f).out = m.out := rfl
@[simp] theorem Mach.onGraphic_free (m : Mach) (g : Nat) (f : Graphic → Graphic) : (m.onGraphic g f).free = m.free := rfl

/-! `Mach.onView` -/

@[simp] theorem Mach.onView_od (m : Mach) (v : Nat) (f : View → View) : (m.onView v f).od = m.od := rfl
@[simp] theorem Mach.onView_strs (m : Mach) (v : Nat) (f : View → View) : (m.onView v f).strs = m.strs := rfl
@[simp] theorem Mach.onView_clk (m : Mach) (v : Nat) (f : View → View) : (m.onView v f).clk = m.clk := rfl
@[simp] theorem Mach.onView_koa (m : Mach) (v : Nat) (f : View → View) : (m.onView v f).koa = m.koa := rfl
@[simp] theorem Mach.onView_jrn (m : Mach) (v : Nat) (f : View → View) : (m.onView v f).jrn = m.jrn := rfl
@[simp] theorem Mach.onView_boot (m : Mach) (v : Nat) (f : View → View) : (m.onView v f).boot = m.boot := rfl
@[simp] theorem Mach.onView_net (m : Mach) (v : Nat) (f : View → View) : (m.onView v f).net = m.net := rfl
@[simp] theorem Mach.onView_ptp (m : Mach) (v : Nat) (f : View → View) : (m.onView v f).ptp = m.ptp := rfl
@[simp] theorem Mach.onView_dram (m : Mach) (v : Nat) (f : View → View) : (m.onView v f).dram = m.dram := rfl
@[simp] theorem Mach.onView_codec (m : Mach) (v : Nat) (f : View → View) : (m.onView v f).codec = m.codec := rfl
@[simp] theorem Mach.onView_lanes (m : Mach) (v : Nat) (f : View → View) : (m.onView v f).lanes = m.lanes := rfl
@[simp] theorem Mach.onView_tiles (m : Mach) (v : Nat) (f : View → View) : (m.onView v f).tiles = m.tiles := rfl
@[simp] theorem Mach.onView_scene (m : Mach) (v : Nat) (f : View → View) : (m.onView v f).scene = m.scene := rfl
@[simp] theorem Mach.onView_pipe (m : Mach) (v : Nat) (f : View → View) : (m.onView v f).pipe = m.pipe := rfl
@[simp] theorem Mach.onView_panel (m : Mach) (v : Nat) (f : View → View) : (m.onView v f).panel = m.panel := rfl
@[simp] theorem Mach.onView_power_ (m : Mach) (v : Nat) (f : View → View) : (m.onView v f).power_ = m.power_ := rfl
@[simp] theorem Mach.onView_thermal (m : Mach) (v : Nat) (f : View → View) : (m.onView v f).thermal = m.thermal := rfl
@[simp] theorem Mach.onView_calib (m : Mach) (v : Nat) (f : View → View) : (m.onView v f).calib = m.calib := rfl
@[simp] theorem Mach.onView_test (m : Mach) (v : Nat) (f : View → View) : (m.onView v f).test = m.test := rfl
@[simp] theorem Mach.onView_out (m : Mach) (v : Nat) (f : View → View) : (m.onView v f).out = m.out := rfl
@[simp] theorem Mach.onView_free (m : Mach) (v : Nat) (f : View → View) : (m.onView v f).free = m.free := rfl

/-! `Mach.onSession` -/


end Sys2Proof.Machine
end

