-- ==== Sys2Proof/Laws/Store.lean ====
section
/-! SUPPORT. The stores: what an object, a byte string and a byte of memory read after a write, and the canonical forms. -/

namespace Sys2Proof.Machine

/-! ### Objects -/

theorem storeGet_drop_same (l : List (Nat × Int)) (k : Nat) : storeGet (storeDrop l k) k = dflt k := by
  induction l with
  | nil => rfl
  | cons c l ih =>
    by_cases h : c.1 = k
    · simpa [storeDrop, h] using ih
    · simp only [storeDrop, List.filter_cons, bne_iff_ne, ne_eq, h, not_false_eq_true, ↓reduceIte, storeGet]
      simpa [storeDrop] using ih

theorem storeGet_drop_ne (l : List (Nat × Int)) {k j : Nat} (h : j ≠ k) : storeGet (storeDrop l k) j = storeGet l j := by
  induction l with
  | nil => rfl
  | cons c l ih =>
    by_cases hc : c.1 = k
    · have : c.1 ≠ j := fun e => h (e ▸ hc)
      simp only [storeDrop, List.filter_cons, hc, bne_self_eq_false, Bool.false_eq_true, ↓reduceIte, storeGet]
      rw [if_neg (hc ▸ this)]
      simpa [storeDrop] using ih
    · simp only [storeDrop, List.filter_cons, bne_iff_ne, ne_eq, hc, not_false_eq_true, ↓reduceIte, storeGet]
      split
      · rfl
      · simpa [storeDrop] using ih

theorem storeGet_ins_same (l : List (Nat × Int)) (k : Nat) (v : Int) (h : ∀ c ∈ l, c.1 ≠ k) : storeGet (storeIns l k v) k = v := by
  induction l with
  | nil => simp [storeIns, storeGet]
  | cons c l ih =>
    simp only [storeIns]
    split
    · simp [storeGet]
    · simp only [storeGet, h c (by simp), ↓reduceIte]
      exact ih (fun d hd => h d (by simp [hd]))

theorem storeGet_ins_ne (l : List (Nat × Int)) {k j : Nat} (v : Int) (h : j ≠ k) : storeGet (storeIns l k v) j = storeGet l j := by
  induction l with
  | nil => simp [storeIns, storeGet, h.symm]
  | cons c l ih =>
    simp only [storeIns]
    split
    · simp [storeGet, h.symm]
    · simp only [storeGet, ih]

/-- An object reads what was written to it. -/
theorem storeGet_set_same (l : List (Nat × Int)) (k : Nat) (v : Int) : storeGet (storeSet l k v) k = v := by
  unfold storeSet
  split
  · rename_i h; rw [storeGet_drop_same, h]
  · exact storeGet_ins_same _ _ _ (by intro c hc; simp [storeDrop] at hc; exact hc.2)

/-- A write leaves every other object alone. -/
theorem storeGet_set_ne (l : List (Nat × Int)) {k j : Nat} (v : Int) (h : j ≠ k) : storeGet (storeSet l k v) j = storeGet l j := by
  unfold storeSet
  split
  · exact storeGet_drop_ne _ h
  · rw [storeGet_ins_ne _ _ h, storeGet_drop_ne _ h]

/-! ### Byte strings -/

theorem strGet_ins_same (l : List (Nat × Bytes)) (k : Nat) (v : Bytes) (h : ∀ c ∈ l, c.1 ≠ k) : strGet (strIns l k v) k = v := by
  induction l with
  | nil => simp [strIns, strGet]
  | cons c l ih =>
    simp only [strIns]
    split
    · simp [strGet]
    · simp only [strGet, h c (by simp), ↓reduceIte]
      exact ih (fun d hd => h d (by simp [hd]))

theorem strGet_ins_ne (l : List (Nat × Bytes)) {k j : Nat} (v : Bytes) (h : j ≠ k) : strGet (strIns l k v) j = strGet l j := by
  induction l with
  | nil => simp [strIns, strGet, h.symm]
  | cons c l ih =>
    simp only [strIns]
    split
    · simp [strGet, h.symm]
    · simp only [strGet, ih]

theorem strGet_filter_same (l : List (Nat × Bytes)) (k : Nat) : strGet (l.filter (fun c => c.1 != k)) k = strDefault k := by
  induction l with
  | nil => rfl
  | cons c l ih =>
    by_cases h : c.1 = k <;> simp [h, strGet, ih]

theorem strGet_filter_ne (l : List (Nat × Bytes)) {k j : Nat} (h : j ≠ k) : strGet (l.filter (fun c => c.1 != k)) j = strGet l j := by
  induction l with
  | nil => rfl
  | cons c l ih =>
    by_cases hc : c.1 = k
    · have : k ≠ j := fun e => h e.symm
      simp [hc, strGet, ih, this]
    · simp [hc, strGet, ih]

/-- A byte string reads what was written to it. -/
theorem strGet_set_same (l : List (Nat × Bytes)) (k : Nat) (v : Bytes) : strGet (strSet l k v) k = v := by
  unfold strSet
  split
  · rename_i h; rw [strGet_filter_same, h]
  · exact strGet_ins_same _ _ _ (by intro c hc; simp at hc; exact hc.2)

/-- A write leaves every other byte string alone. -/
theorem strGet_set_ne (l : List (Nat × Bytes)) {k j : Nat} (v : Bytes) (h : j ≠ k) : strGet (strSet l k v) j = strGet l j := by
  unfold strSet
  split
  · exact strGet_filter_ne _ h
  · rw [strGet_ins_ne _ _ h, strGet_filter_ne _ h]

/-! ### Module memory -/

theorem memRead_ins_same (l : Mem) (x : Nat) (b : Byte) (h : ∀ c ∈ l, c.1 ≠ x) : memRead (memIns l x b) x = b := by
  induction l with
  | nil => simp [memIns, memRead]
  | cons c l ih =>
    simp only [memIns]
    split
    · simp [memRead]
    · simp only [memRead, h c (by simp), ↓reduceIte]
      exact ih (fun d hd => h d (by simp [hd]))

theorem memRead_ins_ne (l : Mem) {x y : Nat} (b : Byte) (h : y ≠ x) : memRead (memIns l x b) y = memRead l y := by
  induction l with
  | nil => simp [memIns, memRead, h.symm]
  | cons c l ih =>
    simp only [memIns]
    split
    · simp [memRead, h.symm]
    · simp only [memRead, ih]

theorem memRead_filter_same (l : Mem) (x : Nat) : memRead (l.filter (fun c => c.1 != x)) x = memDefault := by
  induction l with
  | nil => rfl
  | cons c l ih => by_cases h : c.1 = x <;> simp [h, memRead, ih]

theorem memRead_filter_ne (l : Mem) {x y : Nat} (h : y ≠ x) : memRead (l.filter (fun c => c.1 != x)) y = memRead l y := by
  induction l with
  | nil => rfl
  | cons c l ih =>
    by_cases hc : c.1 = x
    · have : x ≠ y := fun e => h e.symm
      simp [hc, memRead, ih, this]
    · simp [hc, memRead, ih]

/-- A byte reads what was written to it. -/
theorem memRead_write_same (l : Mem) (x : Nat) (b : Byte) : memRead (memWrite l x b) x = b := by
  unfold memWrite
  split
  · rename_i h; rw [memRead_filter_same, h]
  · exact memRead_ins_same _ _ _ (by intro c hc; simp at hc; exact hc.2)

/-- A write leaves every other byte alone. -/
theorem memRead_write_ne (l : Mem) {x y : Nat} (b : Byte) (h : y ≠ x) : memRead (memWrite l x b) y = memRead l y := by
  unfold memWrite
  split
  · exact memRead_filter_ne _ h
  · rw [memRead_ins_ne _ _ h, memRead_filter_ne _ h]

/-- A run of bytes leaves every byte outside it alone. -/
theorem memRead_store_outside (bs : Bytes) : ∀ (l : Mem) (a x : Nat), (x < a ∨ a + bs.length ≤ x) → memRead (memStore l a bs) x = memRead l x := by
  induction bs with
  | nil => intro l a x _; rfl
  | cons b bs ih =>
    intro l a x h
    simp only [memStore, List.length_cons] at *
    rw [ih _ _ _ (by omega), memRead_write_ne _ _ (by omega)]

/-- A run of bytes reads as it was written. -/
theorem memRead_store_inside (bs : Bytes) : ∀ (l : Mem) (a i : Nat) (h : i < bs.length), memRead (memStore l a bs) (a + i) = bs[i] := by
  induction bs with
  | nil => intro l a i h; simp at h
  | cons b bs ih =>
    intro l a i h
    cases i with
    | zero =>
      simp only [memStore, Nat.add_zero, List.getElem_cons_zero]
      rw [memRead_store_outside _ _ _ _ (by omega), memRead_write_same]
    | succ i =>
      simp only [memStore, List.getElem_cons_succ]
      rw [show a + (i + 1) = (a + 1) + i by omega]
      exact ih _ _ _ (by simpa using h)

/-! ### The canonical form of the memory -/

/-- The canonical form as a statement about lists: no default byte, rising addresses. -/
def MemSorted (l : Mem) : Prop := (∀ c ∈ l, c.2 ≠ memDefault) ∧ l.Pairwise (fun c d => c.1 < d.1)

theorem rising_iff (l : Mem) : ((l.zip (l.drop 1)).all (fun p => p.1.1 < p.2.1)) = true ↔ l.Pairwise (fun c d => c.1 < d.1) := by
  induction l with
  | nil => simp
  | cons c l ih =>
    cases l with
    | nil => simp
    | cons d l =>
      rw [List.pairwise_cons, ← ih]
      simp only [List.drop_succ_cons, List.drop_zero, List.zip_cons_cons, List.all_cons, Bool.and_eq_true, decide_eq_true_eq]
      constructor
      · rintro ⟨h, t⟩
        refine ⟨?_, t⟩
        have p := ih.mp t
        intro e he
        rcases List.mem_cons.mp he with rfl | he
        · exact h
        · exact Nat.lt_trans h ((List.pairwise_cons.mp p).1 e he)
      · rintro ⟨h, t⟩
        exact ⟨h d (by simp), t⟩

theorem memWf_iff (l : Mem) : memWf l = true ↔ MemSorted l := by
  simp only [memWf, Bool.and_eq_true, MemSorted, rising_iff]
  simp

theorem mem_memIns {l : Mem} {x : Nat} {b : Byte} {c : Host.Cell} (h : c ∈ memIns l x b) : c = (x, b) ∨ c ∈ l := by
  induction l with
  | nil => simpa [memIns] using h
  | cons d l ih =>
    simp only [memIns] at h
    split at h
    · simpa using h
    · rcases List.mem_cons.mp h with rfl | h
      · simp
      · rcases ih h with h | h <;> simp [h]

theorem memIns_sorted {l : Mem} (x : Nat) (b : Byte) (hb : b ≠ memDefault) (hx : ∀ c ∈ l, c.1 ≠ x) (h : MemSorted l) :
    MemSorted (memIns l x b) := by
  induction l with
  | nil => simpa [memIns, MemSorted] using hb
  | cons c l ih =>
    obtain ⟨h1, h2⟩ := h
    obtain ⟨h3, h4⟩ := List.pairwise_cons.mp h2
    simp only [memIns]
    split
    · rename_i hlt
      refine ⟨?_, List.pairwise_cons.mpr ⟨?_, h2⟩⟩
      · intro d hd; rcases List.mem_cons.mp hd with rfl | hd
        · exact hb
        · exact h1 d hd
      · intro d hd; rcases List.mem_cons.mp hd with rfl | hd
        · exact hlt
        · exact Nat.lt_trans hlt (h3 d hd)
    · rename_i hlt
      have hne := hx c (by simp)
      obtain ⟨i1, i2⟩ := ih (fun d hd => hx d (by simp [hd])) ⟨fun d hd => h1 d (by simp [hd]), h4⟩
      refine ⟨?_, List.pairwise_cons.mpr ⟨?_, i2⟩⟩
      · intro d hd; rcases List.mem_cons.mp hd with rfl | hd
        · exact h1 _ (by simp)
        · exact i1 d hd
      · intro d hd
        rcases mem_memIns hd with rfl | hd
        · simp only; omega
        · exact h3 d hd

/-- Writing a byte keeps the canonical form. -/
theorem memWrite_wf {l : Mem} (x : Nat) (b : Byte) (h : memWf l = true) : memWf (memWrite l x b) = true := by
  rw [memWf_iff] at *
  have hf : MemSorted (l.filter (fun c => c.1 != x)) :=
    ⟨fun c hc => h.1 c (List.mem_filter.mp hc).1, h.2.filter _⟩
  unfold memWrite
  split
  · exact hf
  · rename_i hb
    exact memIns_sorted _ _ hb (by intro c hc; simpa using (List.mem_filter.mp hc).2) hf

/-- Writing a run of bytes keeps the canonical form. -/
theorem memStore_wf (bs : Bytes) : ∀ {l : Mem} (a : Nat), memWf l = true → memWf (memStore l a bs) = true := by
  induction bs with
  | nil => intro l a h; exact h
  | cons b bs ih => intro l a h; exact ih _ (memWrite_wf _ _ h)

/-- Carrying out writes keeps the canonical form. -/
theorem memApply_wf (ws : List MemWrite) : ∀ {l : Mem}, memWf l = true → memWf (memApply l ws) = true := by
  induction ws with
  | nil => intro l h; exact h
  | cons w ws ih => intro l h; exact ih (memStore_wf _ _ h)

/-- Writes leave every byte alone that none of them covers. -/
theorem memRead_apply_outside (ws : List MemWrite) (x : Nat) :
    ∀ (l : Mem), (∀ w ∈ ws, x < w.addr ∨ w.addr + w.data.length ≤ x) → memRead (memApply l ws) x = memRead l x := by
  induction ws with
  | nil => intro l _; rfl
  | cons w ws ih =>
    intro l h
    show memRead (memApply (memStore l w.addr w.data) ws) x = memRead l x
    rw [ih _ (fun v hv => h v (by simp [hv])), memRead_store_outside _ _ _ _ (h w (by simp))]

end Sys2Proof.Machine
end

