-- ==== Sys2Proof/Laws/Ops.lean ====
section
/-! SUPPORT. What the shared operations do: objects written and read, events raised, commands run. -/

namespace Sys2Proof.Machine

/-! ### Keys -/

/-- Keys of different objects differ. -/
theorem okey_ne {ix sub bank jx tub cank : Nat} (h1 : sub < 256) (h2 : tub < 256) (h3 : ix < 65536) (h4 : jx < 65536)
    (h : ix ≠ jx ∨ sub ≠ tub ∨ bank ≠ cank) : okey ix sub bank ≠ okey jx tub cank := by
  unfold okey; omega

/-! ### Objects -/

@[simp] theorem Mach.set_obj_same (m : Mach) (ix sub : Nat) (v : Int) (bank : Nat) :
    (m.set ix sub v bank).obj ix sub bank = v := storeGet_set_same m.od (okey ix sub bank) v

theorem Mach.set_obj_ne (m : Mach) (ix sub : Nat) (v : Int) (bank : Nat) {jx tub cank : Nat}
    (h : okey jx tub cank ≠ okey ix sub bank) : (m.set ix sub v bank).obj jx tub cank = m.obj jx tub cank :=
  storeGet_set_ne m.od v h

@[simp] theorem Mach.setN_obj_same (m : Mach) (ix sub v bank : Nat) : (m.setN ix sub v bank).obj ix sub bank = v :=
  Mach.set_obj_same m ix sub v bank

@[simp] theorem Mach.setN_objN_same (m : Mach) (ix sub v bank : Nat) : (m.setN ix sub v bank).objN ix sub bank = v := by
  rw [Mach.objN, Mach.setN_obj_same]; rfl

@[simp] theorem Mach.set_objN_same (m : Mach) (ix sub : Nat) (v : Int) (bank : Nat) :
    (m.set ix sub v bank).objN ix sub bank = v.toNat := by rw [Mach.objN, Mach.set_obj_same]

@[simp] theorem Mach.setB_objB_same (m : Mach) (ix sub : Nat) (v : Bool) (bank : Nat) :
    (m.setB ix sub v bank).objB ix sub bank = v := by
  rw [Mach.objB, Mach.setB, Mach.set_obj_same]; cases v <;> rfl

theorem Mach.setN_obj_ne (m : Mach) (ix sub v bank : Nat) {jx tub cank : Nat}
    (h : okey jx tub cank ≠ okey ix sub bank) : (m.setN ix sub v bank).obj jx tub cank = m.obj jx tub cank :=
  Mach.set_obj_ne m ix sub v bank h

theorem Mach.setB_obj_ne (m : Mach) (ix sub : Nat) (v : Bool) (bank : Nat) {jx tub cank : Nat}
    (h : okey jx tub cank ≠ okey ix sub bank) : (m.setB ix sub v bank).obj jx tub cank = m.obj jx tub cank :=
  Mach.set_obj_ne m ix sub _ bank h

theorem Mach.set_objN_ne (m : Mach) (ix sub : Nat) (v : Int) (bank : Nat) {jx tub cank : Nat}
    (h : okey jx tub cank ≠ okey ix sub bank) : (m.set ix sub v bank).objN jx tub cank = m.objN jx tub cank := by
  rw [Mach.objN, Mach.objN, Mach.set_obj_ne m ix sub v bank h]

theorem Mach.setN_objN_ne (m : Mach) (ix sub v bank : Nat) {jx tub cank : Nat}
    (h : okey jx tub cank ≠ okey ix sub bank) : (m.setN ix sub v bank).objN jx tub cank = m.objN jx tub cank :=
  Mach.set_objN_ne m ix sub v bank h

/-- Objects depend on nothing but the object store. -/
theorem Mach.obj_congr {m n : Mach} (h : m.od = n.od) (ix sub bank : Nat) : m.obj ix sub bank = n.obj ix sub bank := by
  rw [Mach.obj, Mach.obj, h]

theorem Mach.objN_congr {m n : Mach} (h : m.od = n.od) (ix sub bank : Nat) : m.objN ix sub bank = n.objN ix sub bank := by
  rw [Mach.objN, Mach.objN, Mach.obj_congr h]

/-- A counter's new value, short of its width. -/
theorem Mach.bump_objN_same (m : Mach) (ix sub n bank : Nat) (h : m.objN ix sub bank + n ≤ objMax ix sub) :
    (m.bump ix sub n bank).objN ix sub bank = m.objN ix sub bank + n := by
  unfold Mach.bump counted; rw [if_pos h, Mach.setN_objN_same]

theorem Mach.bump_obj_ne (m : Mach) (ix sub n bank : Nat) {jx tub cank : Nat}
    (h : okey jx tub cank ≠ okey ix sub bank) : (m.bump ix sub n bank).obj jx tub cank = m.obj jx tub cank := by
  unfold Mach.bump; exact Mach.setN_obj_ne _ _ _ _ _ h

theorem Mach.bump_objN_ne (m : Mach) (ix sub n bank : Nat) {jx tub cank : Nat}
    (h : okey jx tub cank ≠ okey ix sub bank) : (m.bump ix sub n bank).objN jx tub cank = m.objN jx tub cank := by
  rw [Mach.objN, Mach.objN, Mach.bump_obj_ne m ix sub n bank h]

/-- A counter touches nothing but the object store. -/
theorem Mach.bump_eq (m : Mach) (ix sub n bank : Nat) : ∃ v, m.bump ix sub n bank = m.setN ix sub v bank := by
  exact ⟨_, rfl⟩

/-- A byte string reads what was written. -/
@[simp] theorem Mach.setStr_str_same (m : Mach) (ix sub : Nat) (v : Bytes) (bank : Nat) :
    (m.setStr ix sub v bank).str ix sub bank = v := strGet_set_same m.strs (okey ix sub bank) v

theorem Mach.setStr_str_ne (m : Mach) (ix sub : Nat) (v : Bytes) (bank : Nat) {jx tub cank : Nat}
    (h : okey jx tub cank ≠ okey ix sub bank) : (m.setStr ix sub v bank).str jx tub cank = m.str jx tub cank :=
  strGet_set_ne m.strs v h

/-! ### Events -/

/-- A record: the journal takes it first, and the class is counted. -/
theorem Mach.record_jrn (m : Mach) (code flags suppressed inst : Nat) (d : List (Nat × Nat)) :
    (m.record code flags suppressed inst d).jrn.recs.head? =
      (if m.journalCapacity = 0 then none else some ⟨m.jrn.newest + 1, code, flags, m.eventTime, suppressed, inst, d⟩) := by
  unfold Mach.record
  obtain ⟨v, hv⟩ := Mach.bump_eq { m with jrn := { m.jrn with
    newest := m.jrn.newest + 1
    recs := ((⟨m.jrn.newest + 1, code, flags, m.eventTime, suppressed, inst, d⟩ : Rec) :: m.jrn.recs).take m.journalCapacity } } 0x1202 (code / 4096) 1 0
  simp only [hv, Mach.setN_jrn]
  cases h : m.journalCapacity <;> simp

/-- A record changes no object but the count of its class. -/
theorem Mach.record_obj (m : Mach) (code flags suppressed inst : Nat) (d : List (Nat × Nat)) {ix sub bank : Nat}
    (h : okey ix sub bank ≠ okey 0x1202 (code / 4096) 0) : (m.record code flags suppressed inst d).obj ix sub bank = m.obj ix sub bank := by
  unfold Mach.record
  exact (Mach.obj_congr rfl ix sub bank).trans ((Mach.bump_obj_ne _ _ _ _ _ h).trans (Mach.obj_congr rfl ix sub bank))

/-- An event changes no object but the count of its class. -/
theorem Mach.raise_obj (m : Mach) (code inst : Nat) (d : List (Nat × Nat)) {ix sub bank : Nat}
    (h : okey ix sub bank ≠ okey 0x1202 (code / 4096) 0) : (m.raise code inst d).obj ix sub bank = m.obj ix sub bank :=
  Mach.record_obj m _ _ _ _ d h

theorem Mach.raise_objN (m : Mach) (code inst : Nat) (d : List (Nat × Nat)) {ix sub bank : Nat}
    (h : okey ix sub bank ≠ okey 0x1202 (code / 4096) 0) : (m.raise code inst d).objN ix sub bank = m.objN ix sub bank := by
  rw [Mach.objN, Mach.objN, Mach.raise_obj m code inst d h]

/-- An event is the newest record of the journal. -/
theorem Mach.raise_jrn (m : Mach) (code inst : Nat) (d : List (Nat × Nat)) (h : m.journalCapacity ≠ 0) :
    (m.raise code inst d).jrn.recs.head? = some ⟨m.jrn.newest + 1, code, m.timeFlags, m.eventTime, 0, inst, d⟩ := by
  rw [Mach.raise, Mach.record_jrn, if_neg h]

/-! ### Commands -/

/-- A command on the block alone leaves the queue, the unit, the life-cycle state and the memory alone. -/
theorem lift_next (f : Ctx → Mach → Mach) (s : State) : lift f s = .next { s with m := f s.ctx s.m } := rfl

/-- A command with its writes: the queue and the unit stay. -/
theorem liftE_next (f : Ctx → Mach → Eff) (s : State) :
    liftE f s = .next { s with
      m := (f s.ctx s.m).m, mem := memApply (if (f s.ctx s.m).wipe then [] else s.mem) (f s.ctx s.m).writes,
      life := s.life.after (f s.ctx s.m).life } := rfl

/-- RETIRED is left by no request. -/
theorem Life.after_retired (t : Option Life) : Life.retired.after t = .retired := by
  cases t with
  | none => rfl
  | some t => cases t <;> rfl

/-- What a request leaves is the state before it, or one that R65 lets follow. -/
theorem Life.after_cases (l : Life) (t : Option Life) : l.after t = l ∨ (t = some (l.after t) ∧ l.permits (l.after t) = true) := by
  cases t with
  | none => exact .inl rfl
  | some t =>
    cases h : l.permits t
    · exact .inl (by simp [Life.after, h])
    · exact .inr ⟨by simp [Life.after, h], by simp [Life.after, h]⟩

end Sys2Proof.Machine
end

