-- ==== Sys2Proof/Laws/Frames.lean ====
section
/-! SUPPORT. What counters, groups of objects and events leave alone. -/

namespace Sys2Proof.Machine

@[simp] theorem Mach.bump_strs (m : Mach) (ix sub n bank : Nat) : (m.bump ix sub n bank).strs = m.strs := by
  obtain ⟨v, h⟩ := Mach.bump_eq m ix sub n bank; rw [h, Mach.setN_strs]
@[simp] theorem Mach.bump_clk (m : Mach) (ix sub n bank : Nat) : (m.bump ix sub n bank).clk = m.clk := by
  obtain ⟨v, h⟩ := Mach.bump_eq m ix sub n bank; rw [h, Mach.setN_clk]
@[simp] theorem Mach.bump_koa (m : Mach) (ix sub n bank : Nat) : (m.bump ix sub n bank).koa = m.koa := by
  obtain ⟨v, h⟩ := Mach.bump_eq m ix sub n bank; rw [h, Mach.setN_koa]
@[simp] theorem Mach.bump_jrn (m : Mach) (ix sub n bank : Nat) : (m.bump ix sub n bank).jrn = m.jrn := by
  obtain ⟨v, h⟩ := Mach.bump_eq m ix sub n bank; rw [h, Mach.setN_jrn]
@[simp] theorem Mach.bump_boot (m : Mach) (ix sub n bank : Nat) : (m.bump ix sub n bank).boot = m.boot := by
  obtain ⟨v, h⟩ := Mach.bump_eq m ix sub n bank; rw [h, Mach.setN_boot]
@[simp] theorem Mach.bump_net (m : Mach) (ix sub n bank : Nat) : (m.bump ix sub n bank).net = m.net := by
  obtain ⟨v, h⟩ := Mach.bump_eq m ix sub n bank; rw [h, Mach.setN_net]
@[simp] theorem Mach.bump_ptp (m : Mach) (ix sub n bank : Nat) : (m.bump ix sub n bank).ptp = m.ptp := by
  obtain ⟨v, h⟩ := Mach.bump_eq m ix sub n bank; rw [h, Mach.setN_ptp]
@[simp] theorem Mach.bump_dram (m : Mach) (ix sub n bank : Nat) : (m.bump ix sub n bank).dram = m.dram := by
  obtain ⟨v, h⟩ := Mach.bump_eq m ix sub n bank; rw [h, Mach.setN_dram]
@[simp] theorem Mach.bump_codec (m : Mach) (ix sub n bank : Nat) : (m.bump ix sub n bank).codec = m.codec := by
  obtain ⟨v, h⟩ := Mach.bump_eq m ix sub n bank; rw [h, Mach.setN_codec]
@[simp] theorem Mach.bump_lanes (m : Mach) (ix sub n bank : Nat) : (m.bump ix sub n bank).lanes = m.lanes := by
  obtain ⟨v, h⟩ := Mach.bump_eq m ix sub n bank; rw [h, Mach.setN_lanes]
@[simp] theorem Mach.bump_tiles (m : Mach) (ix sub n bank : Nat) : (m.bump ix sub n bank).tiles = m.tiles := by
  obtain ⟨v, h⟩ := Mach.bump_eq m ix sub n bank; rw [h, Mach.setN_tiles]
@[simp] theorem Mach.bump_scene (m : Mach) (ix sub n bank : Nat) : (m.bump ix sub n bank).scene = m.scene := by
  obtain ⟨v, h⟩ := Mach.bump_eq m ix sub n bank; rw [h, Mach.setN_scene]
@[simp] theorem Mach.bump_outs (m : Mach) (ix sub n bank : Nat) : (m.bump ix sub n bank).outs = m.outs := by
  obtain ⟨v, h⟩ := Mach.bump_eq m ix sub n bank; rw [h, Mach.setN_outs]
@[simp] theorem Mach.bump_pipe (m : Mach) (ix sub n bank : Nat) : (m.bump ix sub n bank).pipe = m.pipe := by
  obtain ⟨v, h⟩ := Mach.bump_eq m ix sub n bank; rw [h, Mach.setN_pipe]
@[simp] theorem Mach.bump_panel (m : Mach) (ix sub n bank : Nat) : (m.bump ix sub n bank).panel = m.panel := by
  obtain ⟨v, h⟩ := Mach.bump_eq m ix sub n bank; rw [h, Mach.setN_panel]
@[simp] theorem Mach.bump_power_ (m : Mach) (ix sub n bank : Nat) : (m.bump ix sub n bank).power_ = m.power_ := by
  obtain ⟨v, h⟩ := Mach.bump_eq m ix sub n bank; rw [h, Mach.setN_power_]
@[simp] theorem Mach.bump_thermal (m : Mach) (ix sub n bank : Nat) : (m.bump ix sub n bank).thermal = m.thermal := by
  obtain ⟨v, h⟩ := Mach.bump_eq m ix sub n bank; rw [h, Mach.setN_thermal]
@[simp] theorem Mach.bump_calib (m : Mach) (ix sub n bank : Nat) : (m.bump ix sub n bank).calib = m.calib := by
  obtain ⟨v, h⟩ := Mach.bump_eq m ix sub n bank; rw [h, Mach.setN_calib]
@[simp] theorem Mach.bump_test (m : Mach) (ix sub n bank : Nat) : (m.bump ix sub n bank).test = m.test := by
  obtain ⟨v, h⟩ := Mach.bump_eq m ix sub n bank; rw [h, Mach.setN_test]
@[simp] theorem Mach.bump_out (m : Mach) (ix sub n bank : Nat) : (m.bump ix sub n bank).out = m.out := by
  obtain ⟨v, h⟩ := Mach.bump_eq m ix sub n bank; rw [h, Mach.setN_out]
@[simp] theorem Mach.bump_free (m : Mach) (ix sub n bank : Nat) : (m.bump ix sub n bank).free = m.free := by
  obtain ⟨v, h⟩ := Mach.bump_eq m ix sub n bank; rw [h, Mach.setN_free]

@[simp] theorem Mach.sets_strs (m : Mach) (ix : Nat) (l : List (Nat × Int)) (bank : Nat) : (m.sets ix l bank).strs = m.strs := by
  induction l generalizing m with
  | nil => rfl
  | cons p l ih => exact (ih _).trans (Mach.set_strs m ix p.1 p.2 bank)
@[simp] theorem Mach.sets_clk (m : Mach) (ix : Nat) (l : List (Nat × Int)) (bank : Nat) : (m.sets ix l bank).clk = m.clk := by
  induction l generalizing m with
  | nil => rfl
  | cons p l ih => exact (ih _).trans (Mach.set_clk m ix p.1 p.2 bank)
@[simp] theorem Mach.sets_koa (m : Mach) (ix : Nat) (l : List (Nat × Int)) (bank : Nat) : (m.sets ix l bank).koa = m.koa := by
  induction l generalizing m with
  | nil => rfl
  | cons p l ih => exact (ih _).trans (Mach.set_koa m ix p.1 p.2 bank)
@[simp] theorem Mach.sets_jrn (m : Mach) (ix : Nat) (l : List (Nat × Int)) (bank : Nat) : (m.sets ix l bank).jrn = m.jrn := by
  induction l generalizing m with
  | nil => rfl
  | cons p l ih => exact (ih _).trans (Mach.set_jrn m ix p.1 p.2 bank)
@[simp] theorem Mach.sets_boot (m : Mach) (ix : Nat) (l : List (Nat × Int)) (bank : Nat) : (m.sets ix l bank).boot = m.boot := by
  induction l generalizing m with
  | nil => rfl
  | cons p l ih => exact (ih _).trans (Mach.set_boot m ix p.1 p.2 bank)
@[simp] theorem Mach.sets_net (m : Mach) (ix : Nat) (l : List (Nat × Int)) (bank : Nat) : (m.sets ix l bank).net = m.net := by
  induction l generalizing m with
  | nil => rfl
  | cons p l ih => exact (ih _).trans (Mach.set_net m ix p.1 p.2 bank)
@[simp] theorem Mach.sets_ptp (m : Mach) (ix : Nat) (l : List (Nat × Int)) (bank : Nat) : (m.sets ix l bank).ptp = m.ptp := by
  induction l generalizing m with
  | nil => rfl
  | cons p l ih => exact (ih _).trans (Mach.set_ptp m ix p.1 p.2 bank)
@[simp] theorem Mach.sets_dram (m : Mach) (ix : Nat) (l : List (Nat × Int)) (bank : Nat) : (m.sets ix l bank).dram = m.dram := by
  induction l generalizing m with
  | nil => rfl
  | cons p l ih => exact (ih _).trans (Mach.set_dram m ix p.1 p.2 bank)
@[simp] theorem Mach.sets_codec (m : Mach) (ix : Nat) (l : List (Nat × Int)) (bank : Nat) : (m.sets ix l bank).codec = m.codec := by
  induction l generalizing m with
  | nil => rfl
  | cons p l ih => exact (ih _).trans (Mach.set_codec m ix p.1 p.2 bank)
@[simp] theorem Mach.sets_lanes (m : Mach) (ix : Nat) (l : List (Nat × Int)) (bank : Nat) : (m.sets ix l bank).lanes = m.lanes := by
  induction l generalizing m with
  | nil => rfl
  | cons p l ih => exact (ih _).trans (Mach.set_lanes m ix p.1 p.2 bank)
@[simp] theorem Mach.sets_tiles (m : Mach) (ix : Nat) (l : List (Nat × Int)) (bank : Nat) : (m.sets ix l bank).tiles = m.tiles := by
  induction l generalizing m with
  | nil => rfl
  | cons p l ih => exact (ih _).trans (Mach.set_tiles m ix p.1 p.2 bank)
@[simp] theorem Mach.sets_scene (m : Mach) (ix : Nat) (l : List (Nat × Int)) (bank : Nat) : (m.sets ix l bank).scene = m.scene := by
  induction l generalizing m with
  | nil => rfl
  | cons p l ih => exact (ih _).trans (Mach.set_scene m ix p.1 p.2 bank)
@[simp] theorem Mach.sets_outs (m : Mach) (ix : Nat) (l : List (Nat × Int)) (bank : Nat) : (m.sets ix l bank).outs = m.outs := by
  induction l generalizing m with
  | nil => rfl
  | cons p l ih => exact (ih _).trans (Mach.set_outs m ix p.1 p.2 bank)
@[simp] theorem Mach.sets_pipe (m : Mach) (ix : Nat) (l : List (Nat × Int)) (bank : Nat) : (m.sets ix l bank).pipe = m.pipe := by
  induction l generalizing m with
  | nil => rfl
  | cons p l ih => exact (ih _).trans (Mach.set_pipe m ix p.1 p.2 bank)
@[simp] theorem Mach.sets_panel (m : Mach) (ix : Nat) (l : List (Nat × Int)) (bank : Nat) : (m.sets ix l bank).panel = m.panel := by
  induction l generalizing m with
  | nil => rfl
  | cons p l ih => exact (ih _).trans (Mach.set_panel m ix p.1 p.2 bank)
@[simp] theorem Mach.sets_power_ (m : Mach) (ix : Nat) (l : List (Nat × Int)) (bank : Nat) : (m.sets ix l bank).power_ = m.power_ := by
  induction l generalizing m with
  | nil => rfl
  | cons p l ih => exact (ih _).trans (Mach.set_power_ m ix p.1 p.2 bank)
@[simp] theorem Mach.sets_thermal (m : Mach) (ix : Nat) (l : List (Nat × Int)) (bank : Nat) : (m.sets ix l bank).thermal = m.thermal := by
  induction l generalizing m with
  | nil => rfl
  | cons p l ih => exact (ih _).trans (Mach.set_thermal m ix p.1 p.2 bank)
@[simp] theorem Mach.sets_calib (m : Mach) (ix : Nat) (l : List (Nat × Int)) (bank : Nat) : (m.sets ix l bank).calib = m.calib := by
  induction l generalizing m with
  | nil => rfl
  | cons p l ih => exact (ih _).trans (Mach.set_calib m ix p.1 p.2 bank)
@[simp] theorem Mach.sets_test (m : Mach) (ix : Nat) (l : List (Nat × Int)) (bank : Nat) : (m.sets ix l bank).test = m.test := by
  induction l generalizing m with
  | nil => rfl
  | cons p l ih => exact (ih _).trans (Mach.set_test m ix p.1 p.2 bank)
@[simp] theorem Mach.sets_out (m : Mach) (ix : Nat) (l : List (Nat × Int)) (bank : Nat) : (m.sets ix l bank).out = m.out := by
  induction l generalizing m with
  | nil => rfl
  | cons p l ih => exact (ih _).trans (Mach.set_out m ix p.1 p.2 bank)
@[simp] theorem Mach.sets_free (m : Mach) (ix : Nat) (l : List (Nat × Int)) (bank : Nat) : (m.sets ix l bank).free = m.free := by
  induction l generalizing m with
  | nil => rfl
  | cons p l ih => exact (ih _).trans (Mach.set_free m ix p.1 p.2 bank)

@[simp] theorem Mach.record_strs (m : Mach) (code flags supp inst : Nat) (d : List (Nat × Nat)) :
    (m.record code flags supp inst d).strs = m.strs := by unfold Mach.record; simp only [Mach.bump_strs]
@[simp] theorem Mach.record_clk (m : Mach) (code flags supp inst : Nat) (d : List (Nat × Nat)) :
    (m.record code flags supp inst d).clk = m.clk := by unfold Mach.record; simp only [Mach.bump_clk]
@[simp] theorem Mach.record_boot (m : Mach) (code flags supp inst : Nat) (d : List (Nat × Nat)) :
    (m.record code flags supp inst d).boot = m.boot := by unfold Mach.record; simp only [Mach.bump_boot]
@[simp] theorem Mach.record_net (m : Mach) (code flags supp inst : Nat) (d : List (Nat × Nat)) :
    (m.record code flags supp inst d).net = m.net := by unfold Mach.record; simp only [Mach.bump_net]
@[simp] theorem Mach.record_ptp (m : Mach) (code flags supp inst : Nat) (d : List (Nat × Nat)) :
    (m.record code flags supp inst d).ptp = m.ptp := by unfold Mach.record; simp only [Mach.bump_ptp]
@[simp] theorem Mach.record_dram (m : Mach) (code flags supp inst : Nat) (d : List (Nat × Nat)) :
    (m.record code flags supp inst d).dram = m.dram := by unfold Mach.record; simp only [Mach.bump_dram]
@[simp] theorem Mach.record_codec (m : Mach) (code flags supp inst : Nat) (d : List (Nat × Nat)) :
    (m.record code flags supp inst d).codec = m.codec := by unfold Mach.record; simp only [Mach.bump_codec]
@[simp] theorem Mach.record_lanes (m : Mach) (code flags supp inst : Nat) (d : List (Nat × Nat)) :
    (m.record code flags supp inst d).lanes = m.lanes := by unfold Mach.record; simp only [Mach.bump_lanes]
@[simp] theorem Mach.record_tiles (m : Mach) (code flags supp inst : Nat) (d : List (Nat × Nat)) :
    (m.record code flags supp inst d).tiles = m.tiles := by unfold Mach.record; simp only [Mach.bump_tiles]
@[simp] theorem Mach.record_scene (m : Mach) (code flags supp inst : Nat) (d : List (Nat × Nat)) :
    (m.record code flags supp inst d).scene = m.scene := by unfold Mach.record; simp only [Mach.bump_scene]
@[simp] theorem Mach.record_outs (m : Mach) (code flags supp inst : Nat) (d : List (Nat × Nat)) :
    (m.record code flags supp inst d).outs = m.outs := by unfold Mach.record; simp only [Mach.bump_outs]
@[simp] theorem Mach.record_pipe (m : Mach) (code flags supp inst : Nat) (d : List (Nat × Nat)) :
    (m.record code flags supp inst d).pipe = m.pipe := by unfold Mach.record; simp only [Mach.bump_pipe]
@[simp] theorem Mach.record_panel (m : Mach) (code flags supp inst : Nat) (d : List (Nat × Nat)) :
    (m.record code flags supp inst d).panel = m.panel := by unfold Mach.record; simp only [Mach.bump_panel]
@[simp] theorem Mach.record_power_ (m : Mach) (code flags supp inst : Nat) (d : List (Nat × Nat)) :
    (m.record code flags supp inst d).power_ = m.power_ := by unfold Mach.record; simp only [Mach.bump_power_]
@[simp] theorem Mach.record_thermal (m : Mach) (code flags supp inst : Nat) (d : List (Nat × Nat)) :
    (m.record code flags supp inst d).thermal = m.thermal := by unfold Mach.record; simp only [Mach.bump_thermal]
@[simp] theorem Mach.record_calib (m : Mach) (code flags supp inst : Nat) (d : List (Nat × Nat)) :
    (m.record code flags supp inst d).calib = m.calib := by unfold Mach.record; simp only [Mach.bump_calib]
@[simp] theorem Mach.record_test (m : Mach) (code flags supp inst : Nat) (d : List (Nat × Nat)) :
    (m.record code flags supp inst d).test = m.test := by unfold Mach.record; simp only [Mach.bump_test]
@[simp] theorem Mach.record_free (m : Mach) (code flags supp inst : Nat) (d : List (Nat × Nat)) :
    (m.record code flags supp inst d).free = m.free := by unfold Mach.record; simp only [Mach.bump_free]

@[simp] theorem Mach.raise_strs (m : Mach) (code inst : Nat) (d : List (Nat × Nat)) : (m.raise code inst d).strs = m.strs :=
  Mach.record_strs m _ _ _ _ d
@[simp] theorem Mach.raise_clk (m : Mach) (code inst : Nat) (d : List (Nat × Nat)) : (m.raise code inst d).clk = m.clk :=
  Mach.record_clk m _ _ _ _ d
@[simp] theorem Mach.raise_boot (m : Mach) (code inst : Nat) (d : List (Nat × Nat)) : (m.raise code inst d).boot = m.boot :=
  Mach.record_boot m _ _ _ _ d
@[simp] theorem Mach.raise_net (m : Mach) (code inst : Nat) (d : List (Nat × Nat)) : (m.raise code inst d).net = m.net :=
  Mach.record_net m _ _ _ _ d
@[simp] theorem Mach.raise_ptp (m : Mach) (code inst : Nat) (d : List (Nat × Nat)) : (m.raise code inst d).ptp = m.ptp :=
  Mach.record_ptp m _ _ _ _ d
@[simp] theorem Mach.raise_dram (m : Mach) (code inst : Nat) (d : List (Nat × Nat)) : (m.raise code inst d).dram = m.dram :=
  Mach.record_dram m _ _ _ _ d
@[simp] theorem Mach.raise_codec (m : Mach) (code inst : Nat) (d : List (Nat × Nat)) : (m.raise code inst d).codec = m.codec :=
  Mach.record_codec m _ _ _ _ d
@[simp] theorem Mach.raise_lanes (m : Mach) (code inst : Nat) (d : List (Nat × Nat)) : (m.raise code inst d).lanes = m.lanes :=
  Mach.record_lanes m _ _ _ _ d
@[simp] theorem Mach.raise_tiles (m : Mach) (code inst : Nat) (d : List (Nat × Nat)) : (m.raise code inst d).tiles = m.tiles :=
  Mach.record_tiles m _ _ _ _ d
@[simp] theorem Mach.raise_scene (m : Mach) (code inst : Nat) (d : List (Nat × Nat)) : (m.raise code inst d).scene = m.scene :=
  Mach.record_scene m _ _ _ _ d
@[simp] theorem Mach.raise_outs (m : Mach) (code inst : Nat) (d : List (Nat × Nat)) : (m.raise code inst d).outs = m.outs :=
  Mach.record_outs m _ _ _ _ d
@[simp] theorem Mach.raise_pipe (m : Mach) (code inst : Nat) (d : List (Nat × Nat)) : (m.raise code inst d).pipe = m.pipe :=
  Mach.record_pipe m _ _ _ _ d
@[simp] theorem Mach.raise_panel (m : Mach) (code inst : Nat) (d : List (Nat × Nat)) : (m.raise code inst d).panel = m.panel :=
  Mach.record_panel m _ _ _ _ d
@[simp] theorem Mach.raise_power_ (m : Mach) (code inst : Nat) (d : List (Nat × Nat)) : (m.raise code inst d).power_ = m.power_ :=
  Mach.record_power_ m _ _ _ _ d
@[simp] theorem Mach.raise_thermal (m : Mach) (code inst : Nat) (d : List (Nat × Nat)) : (m.raise code inst d).thermal = m.thermal :=
  Mach.record_thermal m _ _ _ _ d
@[simp] theorem Mach.raise_calib (m : Mach) (code inst : Nat) (d : List (Nat × Nat)) : (m.raise code inst d).calib = m.calib :=
  Mach.record_calib m _ _ _ _ d
@[simp] theorem Mach.raise_test (m : Mach) (code inst : Nat) (d : List (Nat × Nat)) : (m.raise code inst d).test = m.test :=
  Mach.record_test m _ _ _ _ d
@[simp] theorem Mach.raise_free (m : Mach) (code inst : Nat) (d : List (Nat × Nat)) : (m.raise code inst d).free = m.free :=
  Mach.record_free m _ _ _ _ d

@[simp] theorem Mach.raiseAO_strs (m : Mach) (code inst : Nat) (d : List (Nat × Nat)) : (m.raiseAO code inst d).strs = m.strs :=
  Mach.record_strs m _ _ _ _ d
@[simp] theorem Mach.raiseAO_clk (m : Mach) (code inst : Nat) (d : List (Nat × Nat)) : (m.raiseAO code inst d).clk = m.clk :=
  Mach.record_clk m _ _ _ _ d
@[simp] theorem Mach.raiseAO_boot (m : Mach) (code inst : Nat) (d : List (Nat × Nat)) : (m.raiseAO code inst d).boot = m.boot :=
  Mach.record_boot m _ _ _ _ d
@[simp] theorem Mach.raiseAO_net (m : Mach) (code inst : Nat) (d : List (Nat × Nat)) : (m.raiseAO code inst d).net = m.net :=
  Mach.record_net m _ _ _ _ d
@[simp] theorem Mach.raiseAO_ptp (m : Mach) (code inst : Nat) (d : List (Nat × Nat)) : (m.raiseAO code inst d).ptp = m.ptp :=
  Mach.record_ptp m _ _ _ _ d
@[simp] theorem Mach.raiseAO_dram (m : Mach) (code inst : Nat) (d : List (Nat × Nat)) : (m.raiseAO code inst d).dram = m.dram :=
  Mach.record_dram m _ _ _ _ d
@[simp] theorem Mach.raiseAO_codec (m : Mach) (code inst : Nat) (d : List (Nat × Nat)) : (m.raiseAO code inst d).codec = m.codec :=
  Mach.record_codec m _ _ _ _ d
@[simp] theorem Mach.raiseAO_lanes (m : Mach) (code inst : Nat) (d : List (Nat × Nat)) : (m.raiseAO code inst d).lanes = m.lanes :=
  Mach.record_lanes m _ _ _ _ d
@[simp] theorem Mach.raiseAO_tiles (m : Mach) (code inst : Nat) (d : List (Nat × Nat)) : (m.raiseAO code inst d).tiles = m.tiles :=
  Mach.record_tiles m _ _ _ _ d
@[simp] theorem Mach.raiseAO_scene (m : Mach) (code inst : Nat) (d : List (Nat × Nat)) : (m.raiseAO code inst d).scene = m.scene :=
  Mach.record_scene m _ _ _ _ d
@[simp] theorem Mach.raiseAO_outs (m : Mach) (code inst : Nat) (d : List (Nat × Nat)) : (m.raiseAO code inst d).outs = m.outs :=
  Mach.record_outs m _ _ _ _ d
@[simp] theorem Mach.raiseAO_pipe (m : Mach) (code inst : Nat) (d : List (Nat × Nat)) : (m.raiseAO code inst d).pipe = m.pipe :=
  Mach.record_pipe m _ _ _ _ d
@[simp] theorem Mach.raiseAO_panel (m : Mach) (code inst : Nat) (d : List (Nat × Nat)) : (m.raiseAO code inst d).panel = m.panel :=
  Mach.record_panel m _ _ _ _ d
@[simp] theorem Mach.raiseAO_power_ (m : Mach) (code inst : Nat) (d : List (Nat × Nat)) : (m.raiseAO code inst d).power_ = m.power_ :=
  Mach.record_power_ m _ _ _ _ d
@[simp] theorem Mach.raiseAO_thermal (m : Mach) (code inst : Nat) (d : List (Nat × Nat)) : (m.raiseAO code inst d).thermal = m.thermal :=
  Mach.record_thermal m _ _ _ _ d
@[simp] theorem Mach.raiseAO_calib (m : Mach) (code inst : Nat) (d : List (Nat × Nat)) : (m.raiseAO code inst d).calib = m.calib :=
  Mach.record_calib m _ _ _ _ d
@[simp] theorem Mach.raiseAO_test (m : Mach) (code inst : Nat) (d : List (Nat × Nat)) : (m.raiseAO code inst d).test = m.test :=
  Mach.record_test m _ _ _ _ d
@[simp] theorem Mach.raiseAO_free (m : Mach) (code inst : Nat) (d : List (Nat × Nat)) : (m.raiseAO code inst d).free = m.free :=
  Mach.record_free m _ _ _ _ d

end Sys2Proof.Machine
end

