-- ==== Sys2Proof/Laws/Write.lean ====
section
/-! SUPPORT. What a WRITE that reaches its object leaves: the effect of the object's rule, then the response. -/

namespace Sys2Proof.Machine

/-! ### Byte order (R10) -/

@[simp] theorem beBytes_length (n v : Nat) : (beBytes n v).length = n := by
  induction n with
  | zero => rfl
  | succ n ih => simp [beBytes, ih]

theorem ofBE_foldl (l : Bytes) (a : Nat) : l.foldl (fun a x => a * 256 + x.toNat) a = a * 256 ^ l.length + ofBE l := by
  unfold ofBE
  induction l generalizing a with
  | nil => simp
  | cons x l ih =>
    simp only [List.foldl_cons, List.length_cons]
    rw [ih, ih (0 * 256 + x.toNat)]
    ring

/-- A number read back from its bytes. -/
theorem ofBE_beBytes (n v : Nat) : ofBE (beBytes n v) = v % 256 ^ n := by
  induction n with
  | zero => simp [beBytes, ofBE, Nat.mod_one]
  | succ n ih =>
    have h : ofBE (beBytes (n + 1) v) = (v / 256 ^ n % 256) * 256 ^ n + ofBE (beBytes n v) := by
      rw [beBytes]
      show List.foldl _ _ _ = _
      rw [List.foldl_cons, ofBE_foldl, beBytes_length]
      simp
    rw [h, ih, pow_succ, Nat.mod_mul]
    ring

/-- The object, the type and the value of a written message. -/
theorem writeMsg_ix (w : WriteReq) {ix sub : Nat} (h : ix < 65536) : ofBE ((writeMsg w ix sub).payload.take 2) = ix := by
  simp only [writeMsg, List.append_assoc]
  rw [List.take_append_of_le_length (by simp), List.take_of_length_le (by simp), ofBE_beBytes]
  exact Nat.mod_eq_of_lt (by omega)

theorem writeMsg_sub (w : WriteReq) {ix sub : Nat} (h : sub < 256) : ofBE (slice 2 1 (writeMsg w ix sub).payload) = sub := by
  simp only [writeMsg, List.append_assoc, slice]
  rw [List.drop_append_of_le_length (by simp), List.drop_of_length_le (by simp), List.nil_append,
    List.take_append_of_le_length (by simp), List.take_of_length_le (by simp), ofBE_beBytes]
  exact Nat.mod_eq_of_lt (by omega)

theorem writeMsg_ty (w : WriteReq) {ix sub : Nat} (h : w.ty < 256) : ofBE (slice 3 1 (writeMsg w ix sub).payload) = w.ty := by
  have e : (writeMsg w ix sub).payload =
      (beBytes 2 ix ++ beBytes 1 sub) ++ (beBytes 1 w.ty ++ (beBytes 2 w.value.length ++ w.value)) := by simp [writeMsg]
  rw [e, slice, List.drop_append_of_le_length (by simp), List.drop_of_length_le (by simp), List.nil_append,
    List.take_append_of_le_length (by simp), List.take_of_length_le (by simp), ofBE_beBytes]
  exact Nat.mod_eq_of_lt (by omega)

theorem writeMsg_value (w : WriteReq) (ix sub : Nat) : (writeMsg w ix sub).payload.drop 6 = w.value := by
  have e : (writeMsg w ix sub).payload =
      (beBytes 2 ix ++ beBytes 1 sub ++ beBytes 1 w.ty ++ beBytes 2 w.value.length) ++ w.value := by simp [writeMsg]
  rw [e, List.drop_append_of_le_length (by simp), List.drop_of_length_le (by simp), List.nil_append]

@[simp] theorem writeMsg_hdr (w : WriteReq) (ix sub : Nat) : (writeMsg w ix sub).hdr = w.hdr := rfl

/-! ### The response -/

theorem SameBut.refl (a : Mach) : SameBut a a := rfl

theorem SameBut.trans {a b c : Mach} (h : SameBut a b) (k : SameBut b c) : SameBut a c := by
  unfold SameBut at *; rw [h, k]

theorem SameBut.onSession (m : Mach) (id : Nat) (f : Session → Session) : SameBut (m.onSession id f) m := by
  unfold SameBut Mach.onSession; split <;> rfl

theorem SameBut.say (m : Mach) (peer : Peer) (id ty flags tag : Nat) (b : Bytes) : SameBut (m.sayTo peer id ty flags tag b) m := by
  unfold Mach.sayTo
  split
  · exact .refl m
  · exact SameBut.trans (b := m.onSession id _) rfl (.onSession ..)

theorem SameBut.answer (m : Mach) (id ty : Nat) (g : KoaMsg) (rt : Nat) (b : Bytes) : SameBut (m.answer id ty g rt b) m := by
  unfold Mach.answer
  refine SameBut.trans (.say ..) ?_
  split
  · exact .refl m
  · exact .onSession ..

/-- What an accepted message has changed of the block is its session. -/
theorem vet_take {m m0 : Mach} {c : Ctx} {ty : Nat} {g : KoaMsg} {ss : Session} (h : m.vet c ty g = .take m0 ss) : SameBut m0 m := by
  unfold Mach.vet at h
  repeat' split at h
  all_goals first
    | (cases h; done)
    | (injection h with h1 h2; subst h1; exact .onSession ..)

/-- An accepted message leaves the outstanding requests as they are. -/
theorem vet_waiting {m m0 : Mach} {c : Ctx} {ty : Nat} {g : KoaMsg} {ss : Session} (h : m.vet c ty g = .take m0 ss) :
    m0.koa.waiting = m.koa.waiting := by
  have on (id : Nat) (f : Session → Session) : (m.onSession id f).koa.waiting = m.koa.waiting := by unfold Mach.onSession; split <;> rfl
  unfold Mach.vet at h
  repeat' split at h
  all_goals first
    | (cases h; done)
    | (injection h with h1 h2; subst h1; exact on ..)

/-! ### The write -/

/-- A WRITE that reaches its object, and whose rule takes it: the next state is the rule's, with the response sent. -/
theorem Reaches.liftE_next {s : State} {ix sub : Nat} {w : WriteReq} {p : Put} {m : Mach} {e : Eff} {hint : Option Nat}
    (h : Reaches s ix sub w p m hint) (hr : Put.run p m = .ok e) (hk : ix ≠ 0x1110 ∧ ix ≠ 0x1111) :
    ∃ t, liftE (koaWrite (writeMsg w ix sub) hint) s = .next t ∧ SameBut t.m e.m ∧
      t.mem = memApply (if e.wipe then [] else s.mem) e.writes ∧ t.life = s.life.after e.life ∧ t.unit = s.unit ∧
      t.pending = s.pending := by
  obtain ⟨m0, hv, hm⟩ := h.taken
  obtain ⟨r, hrow, hval, hv'⟩ := h.value
  obtain ⟨hc, hix, hsub, hb, hh⟩ := h.put
  obtain ⟨s1, s2, s3⟩ := h.small
  have hp : ({ c := s.ctx, s := p.s, ix := ix, sub := sub, v := r.value w.value, b := w.value, hint := hint } : Put) = p := by
    cases p; simp_all
  have hrec : m0.boot.recovery = false := by rw [vet_take hv]; exact h.normal
  have hwait : m0.koa.waiting = [] := by rw [vet_waiting hv]; exact h.turn.2
  have hw : koaWrite (writeMsg w ix sub) hint s.ctx s.m =
      (e.on (fun m => m.answer p.s.id 0x12 (writeMsg w ix sub) 0x13 (beBytes 2 ix ++ beBytes 1 sub ++ [0]))).then_ Eff.of := by
    unfold koaWrite Mach.serve
    rw [hv]
    simp only
    unfold Mach.request16
    rw [h.unkept]
    simp only [writeMsg_hdr, h.length, hrec, hwait, h.turn.1, Bool.false_eq_true, false_and, ↓reduceIte, List.filter_nil, List.length_nil,
      (by decide : ¬ (16 : Nat) ≤ 0), Bool.not_false, and_self]
    unfold Mach.execute Mach.perform
    simp only [writeMsg_ix w s1, writeMsg_sub w s2, writeMsg_ty w s3, writeMsg_value]
    unfold Mach.doWrite
    simp only [← hm, h.allowed, hrow, hval, hp, hr, hk.1, hk.2, or_self, ↓reduceIte]
  refine ⟨_, rfl, ?_⟩
  simp only [hw]
  refine ⟨SameBut.answer .., ?_, ?_, trivial, trivial⟩ <;> simp [Eff.then_, Eff.on, Eff.of]

/-- A WRITE that reaches its object, and whose rule refuses it: nothing changes but the sessions and what is sent (and the record of a domain
woken by the access). -/
theorem Reaches.liftE_refused {s : State} {ix sub : Nat} {w : WriteReq} {p : Put} {m : Mach} {a : Nat} {hint : Option Nat}
    (h : Reaches s ix sub w p m hint) (hr : Put.run p m = .error a) :
    ∃ t m0, liftE (koaWrite (writeMsg w ix sub) hint) s = .next t ∧ SameBut m0 s.m ∧ SameBut t.m m0 ∧
      t.mem = s.mem ∧ t.life = s.life ∧ t.unit = s.unit ∧ t.pending = s.pending ∧
      t.m = m0.answer p.s.id 0x12 (writeMsg w ix sub) 0x7F (abortPayload ix sub a) := by
  obtain ⟨m0, hv, hm⟩ := h.taken
  obtain ⟨r, hrow, hval, hv'⟩ := h.value
  obtain ⟨hc, hix, hsub, hb, hh⟩ := h.put
  obtain ⟨s1, s2, s3⟩ := h.small
  have hp : ({ c := s.ctx, s := p.s, ix := ix, sub := sub, v := r.value w.value, b := w.value, hint := hint } : Put) = p := by
    cases p; simp_all
  have hrec : m0.boot.recovery = false := by rw [vet_take hv]; exact h.normal
  have hwait : m0.koa.waiting = [] := by rw [vet_waiting hv]; exact h.turn.2
  have hl : 3 ≤ (writeMsg w ix sub).payload.length := by simp [writeMsg]; omega
  have ho : payloadObject 0x12 (writeMsg w ix sub).payload = (ix, sub) := by
    unfold payloadObject
    rw [if_pos ⟨by simp, hl⟩, writeMsg_ix w s1, writeMsg_sub w s2]
  have hw : koaWrite (writeMsg w ix sub) hint s.ctx s.m =
      .of (m0.answer p.s.id 0x12 (writeMsg w ix sub) 0x7F (abortPayload ix sub a)) := by
    unfold koaWrite Mach.serve
    rw [hv]
    simp only
    unfold Mach.request16
    rw [h.unkept]
    simp only [writeMsg_hdr, h.length, hrec, hwait, h.turn.1, Bool.false_eq_true, false_and, ↓reduceIte, List.filter_nil, List.length_nil,
      (by decide : ¬ (16 : Nat) ≤ 0), Bool.not_false, and_self]
    unfold Mach.execute Mach.perform Mach.refuse
    simp only [writeMsg_ix w s1, writeMsg_sub w s2, writeMsg_ty w s3, writeMsg_value, ho]
    unfold Mach.doWrite
    simp only [← hm, h.allowed, hrow, hval, hp, hr]
  refine ⟨_, m0, rfl, vet_take hv, ?_⟩
  simp only [hw]
  refine ⟨SameBut.answer .., ?_, ?_, trivial, trivial, rfl⟩ <;> simp [Eff.of, memApply, Life.after]

/-! ### Writes that get through, for given states -/

/-- What `Reaches` asks, evaluated: the write and the block its rule acts on. -/
def reachOf (s : State) (ix sub : Nat) (w : WriteReq) (hint : Option Nat) : Option (Put × Mach) :=
  match s.m.vet s.ctx 0x12 (writeMsg w ix sub), objRow ix sub with
  | .take m0 z, some r =>
    let m := m0.wakeFor ix
    if s.m.boot.recovery = false ∧
        z.keeps 0x12 (writeMsg w ix sub) = none ∧
        lengthAbort 0x12 (writeMsg w ix sub).payload = none ∧ (w.hdr.busy = false ∧ s.m.koa.waiting = []) ∧ m.writeAbort s.ctx z.role ix sub false w.value = none ∧
        r.valueAbort w.ty w.value = none ∧ ix < 65536 ∧ sub < 256 ∧ w.ty < 256
    then some ({ c := s.ctx, s := z, ix := ix, sub := sub, v := r.value w.value, b := w.value, hint := hint }, m) else none
  | _, _ => none

theorem reachOf_reaches {s : State} {ix sub : Nat} {w : WriteReq} {hint : Option Nat} {p : Put} {m : Mach}
    (h : reachOf s ix sub w hint = some (p, m)) : Reaches s ix sub w p m hint := by
  unfold reachOf at h
  split at h
  · next m0 z r hv hr =>
    simp only at h
    split at h
    · next hc =>
      obtain ⟨h1, h2, h3, h4, h5, h6, h7, h8, h9⟩ := hc
      injection h with h
      injection h with hp hm
      subst hp; subst hm
      exact ⟨⟨m0, hv, rfl⟩, h1, h2, h3, h4, h5, ⟨r, hr, h6, rfl⟩, ⟨rfl, rfl, rfl, rfl, rfl⟩, ⟨h7, h8, h9⟩⟩
    · cases h
  · cases h

/-- A write that gets through at a given state, with a property of the write and the block that is checked by evaluation. -/
theorem reaches_of {s : State} {ix sub : Nat} {w : WriteReq} {hint : Option Nat} {P : Put → Mach → Prop} [∀ p m, Decidable (P p m)]
    (h : (match reachOf s ix sub w hint with | some (p, m) => decide (P p m) | none => false) = true) :
    ∃ p m, Reaches s ix sub w p m hint ∧ P p m := by
  split at h
  · next p m hr => exact ⟨p, m, reachOf_reaches hr, of_decide_eq_true h⟩
  · cases h

end Sys2Proof.Machine
end

