-- ==== Sys2Proof/WellFormed.lean ====
section
/-! DEFINITION. Which commands name things the block has: message fields of their widths, and instances the manual counts. -/

namespace Sys2Proof

/-- A message header with every field within its width (R37). -/
def KoaHdr.wf (h : KoaHdr) : Bool :=
  h.peer.port < 6 && h.peer.udp < 2 ^ 16 && h.proto < 2 ^ 8 && h.version < 2 ^ 8 && h.flags < 2 ^ 8 && h.session < 2 ^ 32 &&
    h.counter < 2 ^ 64 && h.tag < 2 ^ 16 && h.plen < 2 ^ 16 && h.reserved < 2 ^ 32 && (h.peer.own = [] || h.peer.own.length = 16)

/-- A message: its header, and a payload that a datagram holds. -/
def KoaMsg.wf (m : KoaMsg) : Bool := m.hdr.wf && m.payload.length < 2 ^ 16

/-- A write of an object: its header and a type code of one byte. -/
def WriteReq.wf (w : WriteReq) : Bool := w.hdr.wf && w.ty < 2 ^ 8 && w.value.length < 2 ^ 16

/-- Lanes 0 to 191 (R309). -/
def laneOk (l : Nat) : Bool := l < 192

/-- Chains 0 to 95 (R339). -/
def chainOk (c : Nat) : Bool := c < 96

/-- A place on a chain: positions 0 to 9 (R339). -/
def tileOk (c pos : Nat) : Bool := c < 96 && pos < 10

/-- Panel positions 0 to 959 (R377). -/
def panelOk (p : Nat) : Bool := p < 960

/-- Jobs and other things of which the block has eight. -/
def jobOk (j : Nat) : Bool := j < 8

/-- Network ports 0 to 4 (R404). -/
def portOk (p : Nat) : Bool := p < 5

/-- PTP domain instances A and B (R433). -/
def domainOk (d : Nat) : Bool := d < 2

/-- Clusters 0 to 67 (R172). -/
def clusterOk (c : Nat) : Bool := c < 68

/-- Physical DRAM channels 0 to 35 (R283). -/
def channelOk (p : Nat) : Bool := p < 36

/-- Thermal sensors 0 to 27 (R485). -/
def sensorOk (n : Nat) : Bool := n < 28

/-- Commons 0 to 63 (R378). -/
def commonOk (n : Nat) : Bool := n < 64

/-- Cores 0 to 3 (R26). -/
def coreOk (n : Nat) : Bool := n < 4

/-- Every command whose operands name something the block has. -/
def Instr.wf : Instr → Bool
  | .hello m | .proof m | .close m | .read m | .write m | .segOpen m | .segData m _ | .segAck m | .segCancel m | .eventAck m => m.wf
  | .sessionIdleTimeout n | .handshakeTimeout n | .segmentRetransmissionTimeout n | .segmentedTransferStall n
  | .eventRetransmissionTimeout n _ | .eventSendRelease n => n < 2 ^ 32
  | .transitionRequest w | .journalClear w | .scheduleApply w | .slotsRequestedWrite w | .slotEnable w | .descriptorApply w | .recordStart w
  | .recordStop w | .clipDelete w | .captureStart w | .captureStop w | .drawStart (.host w) | .drawAbort w _ | .retireRequest w | .tileMapApply w
  | .removalRequest w | .checkpointRequest w | .settleTimeWrite w | .quenchCommand w | .quenchRelease w | .timeSet w | .selectionModeWrite w
  | .syncOutputApply w | .stageFloorWrite w | .runRequest w | .slateRequest w | .sleepRequest w | .offRequest w | .calibrationStart w
  | .calibrationAbort w | .calibrationAccept w | .calibrationReject w | .calibrationSlotClear w | .testStart w | .testAbort w | .windowOpen w
  | .windowClose w | .injectionStart w | .injectionStop w => w.wf
  | .keyWrite slot w | .keyRoleWrite slot w => 1 ≤ slot && slot ≤ 8 && w.wf
  | .cyclicMapEnable j w | .uploadStart j w | .regionUpdateStart j w | .hostJobStart j w | .hostJobAbort j w _ | .gainUpdateStart j w =>
    jobOk j && w.wf
  | .uploadRun j | .uploadFinish j | .regionUpdateRun j | .regionUpdateComplete j | .gainUpdateRun j | .gainUpdateComplete j => jobOk j
  | .hostJobRun j e => jobOk j && e < 20
  | .laneModeWrite l w | .prbsCounterClear l w | .laneInjectionStart l w | .laneInjectionStop l w => laneOk l && w.wf
  | .segmentSent l | .huntAlarm l | .laneSleepSent l | .wakeRecognised l _ _ | .wakePatternDone l | .pllLocked l | .cdrLocked l
  | .deepResidencyEnd l | .laneInjectionPeriod l | .checkerSync l _ => laneOk l
  | .blockReceived l _ line => laneOk l && line.length = 64
  | .laneSleep l n => laneOk l && n < 16
  | .segmentAckTimeout l pos _ _ _ => laneOk l && pos < 10
  | .deepIdleTimeout c | .bSideSilent c | .unHealDelayExpiry c | .unheal c | .coalescingWindowClose c | .reProbeTimer c | .tickSend c _ _ =>
    chainOk c
  | .ack c pos _ _ _ _ | .nak c pos _ _ _ _ | .status c pos _ _ _ _ | .delayReply c pos _ _ | .fault c pos _ _ | .configAck c pos _ _
  | .flashDone c pos _ _ | .commitResend c pos | .commitDeadline c pos | .lostTimeExpiry c pos | .flashTimeout c pos _
  | .historyRetry c pos _ | .flashReadTimeout c pos _ => tileOk c pos
  | .enumReply r => chainOk r.c
  | .tileSegStart x => tileOk x.c x.pos
  | .checkpointEncoded p => panelOk p
  | .clusterFault c _ | .pourWatchdog c | .planeSetComplete c _ | .hogelRowRendered c _ => clusterOk c
  | .rtcpBye slot _ | .sourceIdleTimeout slot => slot < 256
  | .decodeStart k => k < 64
  | .workSurfacePatchDeferred g | .encodeEngineFault g | .blockEncoded g _ => g < 4
  | .decodeEngineFault e | .blockDecoded e _ _ => e < 20
  | .signatureRegionEnable r w | .signatureLearn r w => r < 16 && w.wf
  | .drawComplete ch _ | .drawHang ch _ => ch < 2
  | .refreshDue p r _ _ _ _ => channelOk p && r < 2
  | .idleSelfRefresh p _ | .selfRefreshRequest p _ _ | .patrolScrub p _ => channelOk p
  | .fence n | .fenceComplete n => n < 16
  | .commonFault n _ => commonOk n
  | .commonFaultClear n w => commonOk n && w.wf
  | .frameReceived f => portOk f.p
  | .txDescriptorPosted t => portOk t.p && t.cls < 4
  | .frameTransmitted p _ _ | .gateEntryEnd p | .gateListSwitch p | .linkUp p | .linkDown p | .rxDescriptorPosted p _ | .wakePacket p _ =>
    portOk p
  | .gateListApply p w => portOk p && w.wf
  | .qsfpInserted p _ _ | .qsfpRemoved p => p < 4
  | .sync x => domainOk x.d
  | .announce x => domainOk x.d
  | .followUp d _ _ _ | .delayResp d _ _ _ | .pdelayReq d _ _ _ | .pdelayResp d _ _ _ _ _ | .announceReceiptTimeout d | .syncLoss d
  | .followUpWindowExpiry d | .delayReq d _ => domainOk d
  | .syncOutputEdge o _ _ => o < 8
  | .syncInputEdge i _ _ => i < 2
  | .phaseFault k _ => k < 7
  | .wake source _ => source ≤ 6
  | .wakeOnAccessIdle ix => ix < 2 ^ 16
  | .internalBusError n kind _ => coreOk n && kind < 3
  | .coreWatchdogExpiry n _ | .coreRestarted n => coreOk n
  | .sensorConversion n _ _ | .sensorMissing n | .hardwareTrip n _ => sensorOk n
  | .sensorClear n w | .sensorRelease n w => sensorOk n && w.wf
  | .fanTachFault fan _ => fan < 4
  | .start n _ => 1 ≤ n && n ≤ 8
  | .drawStart (.firmware _) | .tagFailureIntervalEnd | .imageFlashWritten | .frameTick _ _ | .slotTick _ _ | .lateCutOff | .commitPoint | .mr4Poll _
  | .uncorrectableRead _ _ | .zqCalibrationTimer | .oscillatorMeasurement _ | .takeOverStart | .spareTrained _ | .copyInComplete _ | .slateTick
  | .meterRefill | .revertDelayExpiry | .lineHalfCycle _ _ | .riserSample _ | .stageEvaluation | .abruptLoss _ | .servicePortAttach
  | .aoTimerExpiry | .mainsRestored | .fanControl _ | .calibrationChecksDone _ | .calibrationPassEnd _ _ | .calibrationGapEnd _
  | .calibrationTimeout | .calibrationExpiry | .calibrationFlashWritten | .tapStep _ _ | .fettlingYield _ _ | .testEnd _ _ _ | .shakeoutEnd _
  | .windowExpiry | .injectionPeriod | .checkpointLimit | .moduleWatchdogExpiry _ | .trialPeriodEnd | .ledgerUpdatePeriod
  | .fettlingSlicePeriod _ | .valuesInForcePeriod | .outputSettingsInEffect | .aoIslandPowerLoss => true

end Sys2Proof
end

