-- ==== Sys2Proof/Tests/Slice0.lean ====
section
/-! SUPPORT. The model's own tests: states that meet the hypotheses of the statements, ill-formed terms that the checks refuse, and single
steps. -/

set_option Elab.async false

namespace Sys2Proof.Machine

/-- A block that has started, in power state P0 or the one given, changed by `f`. -/
def started (f : Mach → Mach) (power : Nat := 0) (life : Life := .factory) : State :=
  { State.reset with life := life, m := f (({ State.reset.m with boot := { State.reset.m.boot with step := 10 } } : Mach).setN 0x2100 1 power) }

/-- A WRITE through the service port in FACTORY, which needs no session (R45). -/
def svc (ty : Nat) (v : Bytes) : WriteReq := ⟨⟨⟨5, false, 0, 0, []⟩, 0x4B, 1, 0, 0, 0, 7, 6 + v.length, 0, [], false⟩, ty, v⟩

/-- A WRITE of a U32 through the service port. -/
def svc32 (v : Nat) : WriteReq := svc 4 (beBytes 4 v)


/-- A WRITE of an object in session 1, whose key is empty, with its tag (R37). -/
def signed (ix sub ty : Nat) (v : Bytes) : WriteReq :=
  let w : WriteReq := { svc ty v with hdr := { (svc ty v).hdr with peer := ⟨0, true, 1, 9, linkLocal 0⟩, session := 1, counter := 5 } }
  { w with hdr := { w.hdr with mac := hmac [] (hdrBytes w.hdr 0x12 ++ (writeMsg w ix sub).payload) } }

/-- A message of a type with its tag: the peer at UDP port 9 of port 0, replay counter 5, request tag 7. -/
def msg (ty : Nat) (payload : Bytes) (flags : Nat := 0) (session : Nat := 1) (key : Bytes := []) : KoaMsg :=
  let h : KoaHdr := ⟨⟨0, true, 1, 9, linkLocal 0⟩, 0x4B, 1, flags, session, 5, 7, payload.length, 0, [], false⟩
  ⟨{ h with mac := hmac key (hdrBytes h ty ++ payload) }, payload⟩

/-- What a message leaves noted in session 1 of a block. -/
def noted (s : State) (g : KoaMsg) : Mach := s.m.onSession 1 (fun x => x.accept g s.m.now)

/-- Session 1 of a block after a message. -/
def heard (s : State) (g : KoaMsg) : Session := (noted s g).session 1

/-- A block with session 1 open, as Administrator. -/
def withSession (f : Mach → Mach) (power : Nat := 0) (life : Life := .field) : State :=
  started (fun m => f { m with koa := { m.koa with sessions := [{ id := 1, role := 3, idle := 30000 }] } }) power life

/-- The same block with session 1 changed. -/
def inSession (f : Session → Session) : State := withSession (fun m => m.onSession 1 f)

/-- A block at 10 s whose session 1 is changed. -/
def later (f : Session → Session) : State :=
  { inSession f with m := (fun m : Mach => { m with clk := { m.clk with mono := sec 60 } }) (inSession f).m }

/-- A transfer of session 1. -/
def transfer (ix : Nat) (writing : Bool) (total crc : Nat) (data : Bytes) (next sent : Nat) : Xfer :=
  ⟨ix, 0, writing, total, crc, data, next, sent, 0, 0, 3⟩

/-- A block with `n` requests of session 1 outstanding. -/
def waitingOf (n : Nat) : State :=
  withSession (fun m => { m with koa := { m.koa with waiting := List.replicate n ⟨1, 0x10, msg 0x10 [0x50, 0, 4, 0], none⟩ } })

/-! ### Witnesses of hypotheses -/

theorem meets_StepRunsTheFrontCommand : ∃ s : State, s.pending = [] ∧ s.m.koa.waiting = [] ∧ s.m.power_.entry = none ∧ s.m.idle.unserved = none :=
  ⟨State.reset, by decide +kernel⟩

theorem meets_StepRunsTheFrontCommand_core : ∃ (s : State) (core : Nat), s.pending = [] ∧ s.m.koa.waiting = [] ∧ s.m.power_.entry = none ∧ s.m.idle.unserved = some core ∧ core < 4 ∧ s.m.idle.power ≤ 2 ∧
    5 ≤ s.m.idle.boot.step ∧ s.m.idle.recentResets.length < 2 :=
  ⟨started (fun m => ({ m with clk := { m.clk with mono := ms 50 } } : Mach).onTest (fun x => { x with timed := [(20, 3, 0, ms 50)] })), 3, by decide +kernel⟩

theorem meets_StepRunsTheFrontCommand_last : ∃ (s : State) (x : Nat), s.pending = [] ∧ s.m.koa.waiting = [] ∧ s.m.idle.power_.entry = some (x, 3) ∧ x + ms 3 ≤ s.m.idle.now :=
  ⟨started (fun m => ({ m with clk := { m.clk with mono := ms 3 } } : Mach).onPower (fun x => { x with entry := some (0, 3) })), 0, by decide +kernel⟩

theorem meets_MemoryStaysCanonical : ∃ s t : State, s.Inv ∧ step s = .next t := ⟨State.reset, _, rfl, rfl⟩

theorem meets_ClassSchemeCodesItsValues_3 : ∃ (v : Nat) (l r : List Bool), readExtra 12 l = .ok (v, r) := ⟨4095, List.replicate 11 true, [], by rfl⟩

theorem meets_StoredBlocksHoldTheirSamples : ∃ l : List Sample, l.length = 1 * 1 ∧ l.all Sample.wf = true := ⟨[⟨4095, 0, 1, 2⟩], by decide⟩

theorem meets_MessagesAreChecked_unknown : ∃ (s : State) (g : KoaMsg), s.m.hears s.ctx g.hdr.peer = true ∧
    wellFramed g (s.m.sessionless s.ctx g.hdr) = true ∧ s.m.sessionless s.ctx g.hdr = false ∧ s.m.objN 0x1100 4 < 4294967295 ∧
    s.m.objN 0x1100 5 < 4294967295 ∧ s.m.koa.sessions.find? (fun x => x.id = g.hdr.session) = none :=
  ⟨started id, msg 5 [], by decide +kernel⟩

theorem meets_MessagesAreChecked_drop : ∃ (s s' : State) (g : KoaMsg), s.m.hears s.ctx g.hdr.peer = false ∧
    wellFramed g (s'.m.sessionless s'.ctx g.hdr) = true :=
  ⟨started id 4, started id, msg 5 [], by decide +kernel⟩

theorem meets_MessagesAreChecked_untagged : ∃ (s : State) (g : KoaMsg) (x : Session), s.m.hears s.ctx g.hdr.peer = true ∧
    wellFramed g (s.m.sessionless s.ctx g.hdr) = true ∧ s.m.sessionless s.ctx g.hdr = false ∧ s.m.objN 0x1100 4 < 4294967295 ∧
    s.m.objN 0x1100 5 < 4294967295 ∧ s.m.koa.sessions.find? (fun x => x.id = g.hdr.session) = some x ∧ tagged g 5 x.key = false :=
  ⟨withSession id, msg 5 [] 0 1 [1], (withSession id).m.session 1, by decide +kernel⟩

theorem meets_MessagesAreChecked_replay : ∃ (s : State) (g : KoaMsg) (x : Session), s.m.hears s.ctx g.hdr.peer = true ∧
    wellFramed g (s.m.sessionless s.ctx g.hdr) = true ∧ s.m.sessionless s.ctx g.hdr = false ∧ s.m.objN 0x1100 4 < 4294967295 ∧
    s.m.objN 0x1100 5 < 4294967295 ∧ s.m.koa.sessions.find? (fun x => x.id = g.hdr.session) = some x ∧ tagged g 5 x.key = true ∧
    g.hdr.counter ≤ x.rxHigh ∧ (g.hdr.counter + 64 < x.rxHigh ∨ g.hdr.counter ∈ x.rxSeen) :=
  ⟨inSession (fun z => { z with rxHigh := 70 }), msg 5 [], (inSession (fun z => { z with rxHigh := 70 })).m.session 1, by decide +kernel⟩

theorem meets_MessagesAreChecked_taken : ∃ (s : State) (g : KoaMsg) (x : Session), s.m.hears s.ctx g.hdr.peer = true ∧
    wellFramed g (s.m.sessionless s.ctx g.hdr) = true ∧ s.m.sessionless s.ctx g.hdr = false ∧ s.m.objN 0x1100 4 < 4294967295 ∧
    s.m.objN 0x1100 5 < 4294967295 ∧ s.m.koa.sessions.find? (fun x => x.id = g.hdr.session) = some x ∧ tagged g 5 x.key = true ∧
    (x.rxHigh < g.hdr.counter ∨ x.rxHigh ≤ g.hdr.counter + 64 ∧ g.hdr.counter ∉ x.rxSeen) :=
  ⟨inSession (fun z => { z with rxHigh := 69 }), msg 5 [], (inSession (fun z => { z with rxHigh := 69 })).m.session 1, by decide +kernel⟩

theorem meets_SessionsOpenAndClose_1 : ∃ s : State, ∃ g : KoaMsg, (s.m.hears s.ctx g.hdr.peer = true) ∧ (s.m.offersSessions s.ctx = true) ∧ (wellFramed g false = true) ∧ (g.payload.length = 20) ∧ (s.m.slotKey (ofBE (g.payload.take 1)) ≠ []) ∧ (tagged g 1 (s.m.slotKey (ofBE (g.payload.take 1))) = true) ∧ (s.m.boot.shut = 0) ∧ (s.m.koa.sessions.length < 8) :=
  ⟨started (fun m => m.setStr 0x1110 1 [9, 9]), msg 1 (1 :: List.replicate 19 0) 0 0 [9, 9], by decide +kernel⟩

theorem meets_SessionsOpenAndClose_2 : ∃ s : State, ∃ g : KoaMsg, (s.m.hears s.ctx g.hdr.peer = true) ∧ (s.m.offersSessions s.ctx = true) ∧ (wellFramed g false = true) ∧ (g.payload.length = 20) ∧ (s.m.slotKey (ofBE (g.payload.take 1)) ≠ []) ∧ (tagged g 1 (s.m.slotKey (ofBE (g.payload.take 1))) = true) ∧ (s.m.boot.shut = 0) ∧ (8 ≤ s.m.koa.sessions.length) :=
  ⟨started (fun m => { m.setStr 0x1110 1 [9, 9] with koa := { m.koa with sessions := (upTo 8).map (fun k => { id := k + 1 }) } }), msg 1 (1 :: List.replicate 19 0) 0 0 [9, 9], by decide +kernel⟩

theorem meets_SessionsOpenAndClose_3 : ∃ s : State, ∃ g : KoaMsg, ∃ h : Handshake, (s.m.hears s.ctx g.hdr.peer = true) ∧ (s.m.offersSessions s.ctx = true) ∧ (wellFramed g false = true) ∧ (s.m.koa.shakes.find? (fun x => x.id = g.hdr.session) = some h) ∧ (tagged g 3 h.key = true) ∧ (g.hdr.counter ≠ 0) ∧ (g.payload = []) ∧ (s.m.koa.sessions.length < 8) ∧ (h.id ≠ 0) :=
  ⟨started (fun m => { m with koa := { m.koa with shakes := [⟨1, 2, [], ⟨0, true, 1, 9, linkLocal 0⟩, 5000, 0⟩] } }), msg 3 [], ⟨1, 2, [], ⟨0, true, 1, 9, linkLocal 0⟩, 5000, 0⟩, by decide +kernel⟩

theorem meets_SessionsOpenAndClose_4 : ∃ s : State, ∃ g : KoaMsg, ∃ m : Mach, ∃ z : Session, (Accepts s 5 g m z) ∧ (g.payload = []) ∧ (z.id ≠ 0) :=
  ⟨withSession (fun m => (m.setN 0x1133 1 1).setN 0x1133 2 1), msg 5 [], noted (withSession (fun m => (m.setN 0x1133 1 1).setN 0x1133 2 1)) (msg 5 []), heard (withSession (fun m => (m.setN 0x1133 1 1).setN 0x1133 2 1)) (msg 5 []), by decide +kernel⟩

theorem meets_SessionsOpenAndClose_5 : ∃ s : State, ∃ k : Nat, ∃ z : Session, (k ≠ 0) ∧ (s.m.coreUp 0 = true) ∧ (s.m.koa.sessions.find? (fun x => x.id = k) = some z) ∧ (z.lastAt + ms z.idle ≤ s.m.now) :=
  ⟨later (fun z => z), 1, (later (fun z => z)).m.session 1, by decide +kernel⟩

theorem meets_SessionsOpenAndClose_6 : ∃ s : State, ∃ k : Nat, ∃ z : Session, (s.m.koa.sessions.find? (fun x => x.id = k) = some z) ∧ (s.m.now < z.lastAt + ms z.idle) :=
  ⟨inSession (fun z => z), 1, (inSession (fun z => z)).m.session 1, by decide +kernel⟩

theorem meets_SessionsOpenAndClose_7 : ∃ s : State, (s.m.coreUp 0 = true) :=
  ⟨started (fun m => { m with koa := { m.koa with shakes := [⟨1, 2, [], ⟨0, true, 1, 9, linkLocal 0⟩, 5000, 0⟩] } }), by decide +kernel⟩

theorem meets_FreshSessionIds : ∃ m : Mach, m.koa.sessions.length ≤ 8 ∧ m.koa.shakes.length ≤ 8 :=
  ⟨(withSession id).m, by decide +kernel⟩

theorem meets_RequestsAreAnswered_1 : ∃ s : State, ∃ g : KoaMsg, ∃ m : Mach, ∃ z : Session, ∃ ix : Nat, ∃ sub : Nat, ∃ n : Nat, ∃ r : Row, (Accepts s 0x10 g m z) ∧ (z.kept.find? (fun k => k.tag = g.hdr.tag && k.ty = 0x10 && k.payload = g.payload) = none) ∧ (s.m.boot.recovery = false) ∧ (g.payload = beBytes 2 ix ++ beBytes 1 sub ++ [0]) ∧ (ix < 65536) ∧ (sub < 256) ∧ (g.hdr.busy = false) ∧ (s.m.koa.waiting = []) ∧ ((m.wakeFor ix).readAbort s.ctx ix sub false = none) ∧ (objRow ix sub = some r) ∧ (r.ty.size = some n) ∧ ((m.wakeFor ix).unstated ix sub = false) :=
  ⟨inSession (fun z => z), msg 0x10 [0x50, 0, 4, 0], noted (inSession (fun z => z)) (msg 0x10 [0x50, 0, 4, 0]), heard (inSession (fun z => z)) (msg 0x10 [0x50, 0, 4, 0]), 0x5000, 4, 1, (objRow 0x5000 4).get (by decide +kernel), by decide +kernel⟩

theorem meets_RequestsAreAnswered_2 : ∃ s : State, ∃ g : KoaMsg, ∃ m : Mach, ∃ z : Session, ∃ ix : Nat, ∃ sub : Nat, ∃ a : Nat, (Accepts s 0x10 g m z) ∧ (z.kept.find? (fun k => k.tag = g.hdr.tag && k.ty = 0x10 && k.payload = g.payload) = none) ∧ (s.m.boot.recovery = false) ∧ (g.payload = beBytes 2 ix ++ beBytes 1 sub ++ [0]) ∧ (ix < 65536) ∧ (sub < 256) ∧ (g.hdr.busy = false) ∧ (s.m.koa.waiting = []) ∧ ((m.wakeFor ix).readAbort s.ctx ix sub false = some a) :=
  ⟨inSession (fun z => z), msg 0x10 [0x50, 0, 0x44, 0], noted (inSession (fun z => z)) (msg 0x10 [0x50, 0, 0x44, 0]), heard (inSession (fun z => z)) (msg 0x10 [0x50, 0, 0x44, 0]), 0x5000, 0x44, 0x06090011, by decide +kernel⟩

theorem meets_RequestsAreAnswered_3 : ∃ s : State, ∃ g : KoaMsg, ∃ m : Mach, ∃ z : Session, (Accepts s 0x10 g m z) ∧ (z.kept.find? (fun k => k.tag = g.hdr.tag && k.ty = 0x10 && k.payload = g.payload) = none) ∧ (s.m.boot.recovery = false) ∧ (g.payload.length = 4) ∧ (16 ≤ (s.m.koa.waiting.filter (fun w => w.session = z.id)).length) :=
  ⟨waitingOf 16, msg 0x10 [0x50, 0, 4, 0], noted (waitingOf 16) (msg 0x10 [0x50, 0, 4, 0]), heard (waitingOf 16) (msg 0x10 [0x50, 0, 4, 0]), by decide +kernel⟩

theorem meets_RequestsAreAnswered_4 : ∃ s : State, ∃ g : KoaMsg, ∃ m : Mach, ∃ z : Session, (Accepts s 0x10 g m z) ∧ (z.kept.find? (fun k => k.tag = g.hdr.tag && k.ty = 0x10 && k.payload = g.payload) = none) ∧ (s.m.boot.recovery = false) ∧ (g.payload.length = 4) ∧ ((s.m.koa.waiting.filter (fun w => w.session = z.id)).length < 16) ∧ (g.hdr.busy = true) :=
  ⟨waitingOf 15, (fun g : KoaMsg => { g with hdr := { g.hdr with busy := true } }) (msg 0x10 [0x50, 0, 4, 0]), noted (waitingOf 15) ((fun g : KoaMsg => { g with hdr := { g.hdr with busy := true } }) (msg 0x10 [0x50, 0, 4, 0])), heard (waitingOf 15) ((fun g : KoaMsg => { g with hdr := { g.hdr with busy := true } }) (msg 0x10 [0x50, 0, 4, 0])), by decide +kernel⟩

theorem meets_RequestsAreAnswered_5 : ∃ s : State, ∃ g : KoaMsg, ∃ m : Mach, ∃ z : Session, ∃ k : Kept, (Accepts s 0x10 g m z) ∧ (z.kept.find? (fun k => k.tag = g.hdr.tag && k.ty = 0x10 && k.payload = g.payload) = some k) :=
  ⟨inSession (fun z => { z with kept := [⟨7, 0x10, [0x50, 0, 4, 0], 0x11, [1]⟩] }), msg 0x10 [0x50, 0, 4, 0], noted (inSession (fun z => { z with kept := [⟨7, 0x10, [0x50, 0, 4, 0], 0x11, [1]⟩] })) (msg 0x10 [0x50, 0, 4, 0]), heard (inSession (fun z => { z with kept := [⟨7, 0x10, [0x50, 0, 4, 0], 0x11, [1]⟩] })) (msg 0x10 [0x50, 0, 4, 0]), ⟨7, 0x10, [0x50, 0, 4, 0], 0x11, [1]⟩, by decide +kernel⟩

theorem meets_RequestsAreAnswered_6 : ∃ s : State, ∃ w p m, Reaches s 0x2200 5 w p m ∧ True :=
  ⟨started id, svc 3 [1, 0], reaches_of (by decide +kernel)⟩

theorem meets_RequestsAreAnswered_7 : ∃ s : State, ∃ g : KoaMsg, ∃ m : Mach, ∃ z : Session, ∃ k : Kept, (Accepts s 0x12 g m z) ∧ (z.kept.find? (fun k => k.tag = g.hdr.tag && k.ty = 0x12 && k.payload = g.payload) = some k) :=
  ⟨inSession (fun z => { z with kept := [⟨7, 0x12, [0x22, 0, 5, 3, 0, 2, 1, 0], 0x13, [1]⟩] }), msg 0x12 [0x22, 0, 5, 3, 0, 2, 1, 0], noted (inSession (fun z => { z with kept := [⟨7, 0x12, [0x22, 0, 5, 3, 0, 2, 1, 0], 0x13, [1]⟩] })) (msg 0x12 [0x22, 0, 5, 3, 0, 2, 1, 0]), heard (inSession (fun z => { z with kept := [⟨7, 0x12, [0x22, 0, 5, 3, 0, 2, 1, 0], 0x13, [1]⟩] })) (msg 0x12 [0x22, 0, 5, 3, 0, 2, 1, 0]), ⟨7, 0x12, [0x22, 0, 5, 3, 0, 2, 1, 0], 0x13, [1]⟩, by decide +kernel⟩

theorem meets_RequestsAreAnswered_8 : ∃ s : State, ∃ g : KoaMsg, ∃ m : Mach, ∃ z : Session, ∃ ix : Nat, ∃ sub : Nat, ∃ ty : Nat, ∃ a : Nat, ∃ b : Bytes, (Accepts s 0x12 g m z) ∧ (z.kept.find? (fun k => k.tag = g.hdr.tag && k.ty = 0x12 && k.payload = g.payload) = none) ∧ (s.m.boot.recovery = false) ∧ (g.payload = beBytes 2 ix ++ beBytes 1 sub ++ beBytes 1 ty ++ beBytes 2 b.length ++ b) ∧ (ix < 65536) ∧ (sub < 256) ∧ (ty < 256) ∧ (b.length < 65536) ∧ (g.hdr.busy = false) ∧ (s.m.koa.waiting = []) ∧ ((m.wakeFor ix).writeAbort s.ctx z.role ix sub false b = some a) :=
  ⟨inSession (fun z => z), msg 0x12 [0x21, 0, 1, 2, 0, 1, 0], noted (inSession (fun z => z)) (msg 0x12 [0x21, 0, 1, 2, 0, 1, 0]), heard (inSession (fun z => z)) (msg 0x12 [0x21, 0, 1, 2, 0, 1, 0]), 0x2100, 1, 2, 0x06010002, [0], by decide +kernel⟩

theorem meets_SegmentedTransfers_1 : ∃ s : State, ∃ g : KoaMsg, ∃ m : Mach, ∃ z : Session, ∃ ix : Nat, ∃ sub : Nat, ∃ total : Nat, ∃ crc : Nat, (Accepts s 0x20 g m z) ∧ (z.kept.find? (fun k => k.tag = g.hdr.tag && k.ty = 0x20 && k.payload = g.payload) = none) ∧ (s.m.boot.recovery = false) ∧ (g.payload = beBytes 2 ix ++ beBytes 1 sub ++ [1] ++ beBytes 4 total ++ beBytes 4 crc) ∧ (ix < 65536) ∧ (sub < 256) ∧ (0 < total) ∧ (total < 2 ^ 32) ∧ (crc < 2 ^ 32) ∧ (g.hdr.busy = false) ∧ (s.m.koa.waiting = []) ∧ (m.openAbort s.ctx z ix sub 1 = none) :=
  ⟨inSession (fun z => z), msg 0x20 [0x62, 0x30, 0, 1, 0, 0, 0, 8, 0, 0, 0, 5], noted (inSession (fun z => z)) (msg 0x20 [0x62, 0x30, 0, 1, 0, 0, 0, 8, 0, 0, 0, 5]), heard (inSession (fun z => z)) (msg 0x20 [0x62, 0x30, 0, 1, 0, 0, 0, 8, 0, 0, 0, 5]), 0x6230, 0, 8, 5, by decide +kernel⟩

theorem meets_SegmentedTransfers_2 : ∃ s : State, ∃ g : KoaMsg, ∃ m : Mach, ∃ z : Session, ∃ x : Xfer, ∃ b : Bytes, (Accepts s 0x22 g m z) ∧ (z.xfer = some x) ∧ (x.write = true) ∧ (g.payload = beBytes 4 x.next ++ b) ∧ (b.length = 1024) ∧ (g.hdr.flags % 2 = 0) ∧ (x.data.length + 1024 ≤ x.total) ∧ (x.next < 2 ^ 32 - 1) :=
  ⟨inSession (fun z => { z with xfer := some (transfer 0x6230 true 2000 0 [] 0 0) }), msg 0x22 (List.replicate 1028 0), noted (inSession (fun z => { z with xfer := some (transfer 0x6230 true 2000 0 [] 0 0) })) (msg 0x22 (List.replicate 1028 0)), heard (inSession (fun z => { z with xfer := some (transfer 0x6230 true 2000 0 [] 0 0) })) (msg 0x22 (List.replicate 1028 0)), transfer 0x6230 true 2000 0 [] 0 0, List.replicate 1024 0, by decide +kernel⟩

theorem meets_SegmentedTransfers_3 : ∃ s : State, ∃ g : KoaMsg, ∃ m : Mach, ∃ z : Session, ∃ x : Xfer, ∃ n : Nat, ∃ b : Bytes, (Accepts s 0x22 g m z) ∧ (z.xfer = some x) ∧ (x.write = true) ∧ (g.payload = beBytes 4 n ++ b) ∧ (n < 2 ^ 32) ∧ (n ≠ x.next) ∧ (n ≤ x.next + 8) :=
  ⟨inSession (fun z => { z with xfer := some (transfer 0x6230 true 2000 0 [] 0 0) }), msg 0x22 [0, 0, 0, 8, 1], noted (inSession (fun z => { z with xfer := some (transfer 0x6230 true 2000 0 [] 0 0) })) (msg 0x22 [0, 0, 0, 8, 1]), heard (inSession (fun z => { z with xfer := some (transfer 0x6230 true 2000 0 [] 0 0) })) (msg 0x22 [0, 0, 0, 8, 1]), transfer 0x6230 true 2000 0 [] 0 0, 8, [1], by decide +kernel⟩

theorem meets_SegmentedTransfers_4 : ∃ s : State, ∃ g : KoaMsg, ∃ m : Mach, ∃ z : Session, ∃ x : Xfer, ∃ n : Nat, ∃ b : Bytes, (Accepts s 0x22 g m z) ∧ (z.xfer = some x) ∧ (x.write = true) ∧ (g.payload = beBytes 4 n ++ b) ∧ (n < 2 ^ 32) ∧ (x.next + 8 < n) :=
  ⟨inSession (fun z => { z with xfer := some (transfer 0x6230 true 2000 0 [] 0 0) }), msg 0x22 [0, 0, 0, 9, 1], noted (inSession (fun z => { z with xfer := some (transfer 0x6230 true 2000 0 [] 0 0) })) (msg 0x22 [0, 0, 0, 9, 1]), heard (inSession (fun z => { z with xfer := some (transfer 0x6230 true 2000 0 [] 0 0) })) (msg 0x22 [0, 0, 0, 9, 1]), transfer 0x6230 true 2000 0 [] 0 0, 9, [1], by decide +kernel⟩

theorem meets_SegmentedTransfers_5 : ∃ s : State, ∃ g : KoaMsg, ∃ m : Mach, ∃ z : Session, ∃ x : Xfer, ∃ b : Bytes, ∃ r : Row, (Accepts s 0x22 g m z) ∧ (z.xfer = some x) ∧ (x.write = true) ∧ (x.data = []) ∧ (x.next = 0) ∧ (x.total = b.length) ∧ (x.crc = crc32c b) ∧ (g.payload = beBytes 4 0 ++ b) ∧ (b.length ≤ 1024) ∧ (b ≠ []) ∧ (g.hdr.flags % 2 = 1) ∧ (0x6230 ≤ x.ix ∧ x.ix ≤ 0x6237 ∧ m.domainBusy x.ix = false ∧ gainPatchAllowed b = true) ∧ (m.writeAbort s.ctx z.role x.ix x.sub true = none) ∧ (objRow x.ix x.sub = some r) ∧ (r.lengthAbort b.length = none) :=
  ⟨inSession (fun z => { z with xfer := some (transfer 0x6230 true 10 (crc32c ([0, 0, 0, 0, 0, 1, 0, 1] ++ [16, 0])) [] 0 0) }), msg 0x22 ([0, 0, 0, 0] ++ [0, 0, 0, 0, 0, 1, 0, 1] ++ [16, 0]) 1, noted (inSession (fun z => { z with xfer := some (transfer 0x6230 true 10 (crc32c ([0, 0, 0, 0, 0, 1, 0, 1] ++ [16, 0])) [] 0 0) })) (msg 0x22 ([0, 0, 0, 0] ++ [0, 0, 0, 0, 0, 1, 0, 1] ++ [16, 0]) 1), heard (inSession (fun z => { z with xfer := some (transfer 0x6230 true 10 (crc32c ([0, 0, 0, 0, 0, 1, 0, 1] ++ [16, 0])) [] 0 0) })) (msg 0x22 ([0, 0, 0, 0] ++ [0, 0, 0, 0, 0, 1, 0, 1] ++ [16, 0]) 1), transfer 0x6230 true 10 (crc32c ([0, 0, 0, 0, 0, 1, 0, 1] ++ [16, 0])) [] 0 0, [0, 0, 0, 0, 0, 1, 0, 1, 16, 0], (objRow 0x6230 0).get (by decide +kernel), by decide +kernel⟩

theorem meets_SegmentedTransfers_6 : ∃ s : State, ∃ g : KoaMsg, ∃ m : Mach, ∃ z : Session, ∃ x : Xfer, ∃ b : Bytes, ∃ r : Row, (Accepts s 0x22 g m z) ∧ (z.xfer = some x) ∧ (x.write = true) ∧ (x.data = []) ∧ (x.next = 0) ∧ (x.total = b.length) ∧ (x.crc ≠ crc32c b) ∧ (g.payload = beBytes 4 0 ++ b) ∧ (b.length ≤ 1024) ∧ (b ≠ []) ∧ (g.hdr.flags % 2 = 1) ∧ (m.writeAbort s.ctx z.role x.ix x.sub true = none) ∧ (objRow x.ix x.sub = some r) ∧ (r.lengthAbort b.length = none) :=
  ⟨inSession (fun z => { z with xfer := some (transfer 0x6230 true 10 77 [] 0 0) }), msg 0x22 ([0, 0, 0, 0] ++ [0, 0, 0, 0, 0, 1, 0, 1] ++ [16, 0]) 1, noted (inSession (fun z => { z with xfer := some (transfer 0x6230 true 10 77 [] 0 0) })) (msg 0x22 ([0, 0, 0, 0] ++ [0, 0, 0, 0, 0, 1, 0, 1] ++ [16, 0]) 1), heard (inSession (fun z => { z with xfer := some (transfer 0x6230 true 10 77 [] 0 0) })) (msg 0x22 ([0, 0, 0, 0] ++ [0, 0, 0, 0, 0, 1, 0, 1] ++ [16, 0]) 1), transfer 0x6230 true 10 77 [] 0 0, [0, 0, 0, 0, 0, 1, 0, 1, 16, 0], (objRow 0x6230 0).get (by decide +kernel), by decide +kernel⟩

theorem meets_SegmentedTransfers_7 : ∃ s : State, ∃ g : KoaMsg, ∃ m : Mach, ∃ z : Session, ∃ x : Xfer, (Accepts s 0x23 g m z) ∧ (z.xfer = some x) ∧ (x.write = false) ∧ (g.payload = beBytes 4 (segCount x.total)) ∧ (segCount x.total < 2 ^ 32) ∧ (x.next < segCount x.total) ∧ (x.sent = segCount x.total) :=
  ⟨inSession (fun z => { z with xfer := some (transfer 0x6230 false 3000 0 [] 0 3) }), msg 0x23 [0, 0, 0, 3], noted (inSession (fun z => { z with xfer := some (transfer 0x6230 false 3000 0 [] 0 3) })) (msg 0x23 [0, 0, 0, 3]), heard (inSession (fun z => { z with xfer := some (transfer 0x6230 false 3000 0 [] 0 3) })) (msg 0x23 [0, 0, 0, 3]), transfer 0x6230 false 3000 0 [] 0 3, by decide +kernel⟩

theorem meets_SegmentedTransfers_8 : ∃ s : State, ∃ g : KoaMsg, ∃ m : Mach, ∃ z : Session, ∃ x : Xfer, ∃ n : Nat, (Accepts s 0x23 g m z) ∧ (z.xfer = some x) ∧ (x.write = false) ∧ (g.payload = beBytes 4 n) ∧ (n < 2 ^ 32) ∧ (n < segCount x.total) ∧ (x.next < n) ∧ (n ≤ x.sent) ∧ (x.sent ≤ segCount x.total) :=
  ⟨inSession (fun z => { z with xfer := some (transfer 0x6230 false 20000 0 [] 0 8) }), msg 0x23 [0, 0, 0, 3], noted (inSession (fun z => { z with xfer := some (transfer 0x6230 false 20000 0 [] 0 8) })) (msg 0x23 [0, 0, 0, 3]), heard (inSession (fun z => { z with xfer := some (transfer 0x6230 false 20000 0 [] 0 8) })) (msg 0x23 [0, 0, 0, 3]), transfer 0x6230 false 20000 0 [] 0 8, 3, by decide +kernel⟩

theorem meets_SegmentedTransfers_9 : ∃ s : State, ∃ g : KoaMsg, ∃ m : Mach, ∃ z : Session, (Accepts s 0x2F g m z) ∧ (g.payload.length = 4) :=
  ⟨inSession (fun z => { z with xfer := some (transfer 0x6230 false 3000 0 [] 0 3) }), msg 0x2F [0, 0, 0, 0], noted (inSession (fun z => { z with xfer := some (transfer 0x6230 false 3000 0 [] 0 3) })) (msg 0x2F [0, 0, 0, 0]), heard (inSession (fun z => { z with xfer := some (transfer 0x6230 false 3000 0 [] 0 3) })) (msg 0x2F [0, 0, 0, 0]), by decide +kernel⟩

theorem meets_SegmentedTransfers_10 : ∃ s : State, ∃ k : Nat, ∃ x : Xfer, ((s.m.session k).xfer = some x) ∧ (x.write = false) ∧ (x.next < x.sent) ∧ (s.m.coreUp 0 = true) ∧ (x.lastSend + ms 50 ≤ s.m.now) :=
  ⟨later (fun z => { z with xfer := some (transfer 0x6230 false 3000 0 [] 0 3) }), 1, transfer 0x6230 false 3000 0 [] 0 3, by decide +kernel⟩

theorem meets_SegmentedTransfers_11 : ∃ s : State, ∃ k : Nat, ∃ x : Xfer, ((s.m.session k).xfer = some x) ∧ (x.progress + ms 2000 ≤ s.m.now) ∧ (s.m.coreUp 0 = true) :=
  ⟨later (fun z => { z with xfer := some (transfer 0x6230 false 3000 0 [] 0 3) }), 1, transfer 0x6230 false 3000 0 [] 0 3, by decide +kernel⟩

theorem meets_EventsAreDelivered_1 : ∃ s : State, ∃ g : KoaMsg, ∃ m : Mach, ∃ z : Session, (Accepts s 0x41 g m z) ∧ (g.payload.length = 8) :=
  ⟨inSession (fun z => { z with queue := [⟨⟨9, 0x3001, 0, 0, 0, 0, []⟩, some 0, 0⟩] }), msg 0x41 [0, 0, 0, 0, 0, 0, 0, 9], noted (inSession (fun z => { z with queue := [⟨⟨9, 0x3001, 0, 0, 0, 0, []⟩, some 0, 0⟩] })) (msg 0x41 [0, 0, 0, 0, 0, 0, 0, 9]), heard (inSession (fun z => { z with queue := [⟨⟨9, 0x3001, 0, 0, 0, 0, []⟩, some 0, 0⟩] })) (msg 0x41 [0, 0, 0, 0, 0, 0, 0, 9]), by decide +kernel⟩

theorem meets_EventsAreDelivered_2 : ∃ s : State, ∃ k : Nat, ∃ n : Nat, ∃ b : Nat, ∃ z : Session, ∃ q : QEvent, (k ≠ 0) ∧ (s.m.koa.sessions.find? (fun x => x.id = k) = some z) ∧ (z.queue.find? (fun x => x.record.seq = n) = some q) ∧ (q.sent = some b) ∧ (b + ms 100 ≤ s.m.now) ∧ (s.m.coreUp 0 = true) ∧ (q.resends < 5) ∧ (z.sentLately s.m.now < 200) :=
  ⟨later (fun z => { z with queue := [⟨⟨9, 0x3001, 0, 0, 0, 0, []⟩, some 0, 4⟩] }), 1, 9, 0, (later (fun z => { z with queue := [⟨⟨9, 0x3001, 0, 0, 0, 0, []⟩, some 0, 4⟩] })).m.session 1, ⟨⟨9, 0x3001, 0, 0, 0, 0, []⟩, some 0, 4⟩, by decide +kernel⟩

theorem meets_EventsAreDelivered_3 : ∃ s : State, ∃ k : Nat, ∃ n : Nat, ∃ b : Nat, ∃ z : Session, ∃ q : QEvent, (k ≠ 0) ∧ (s.m.koa.sessions.find? (fun x => x.id = k) = some z) ∧ (z.queue.find? (fun x => x.record.seq = n) = some q) ∧ (q.sent = some b) ∧ (b + ms 100 ≤ s.m.now) ∧ (s.m.coreUp 0 = true) ∧ (5 ≤ q.resends) :=
  ⟨later (fun z => { z with queue := [⟨⟨9, 0x3001, 0, 0, 0, 0, []⟩, some 0, 5⟩] }), 1, 9, 0, (later (fun z => { z with queue := [⟨⟨9, 0x3001, 0, 0, 0, 0, []⟩, some 0, 5⟩] })).m.session 1, ⟨⟨9, 0x3001, 0, 0, 0, 0, []⟩, some 0, 5⟩, by decide +kernel⟩

theorem meets_EventsAreDelivered_4 : ∃ s : State, ∃ k : Nat, ∃ z : Session, ∃ q : QEvent, (k ≠ 0) ∧ (s.m.koa.sessions.find? (fun x => x.id = k) = some z) ∧ (z.queue = [q]) ∧ (q.sent = none) ∧ (s.m.coreUp 0 = true) ∧ (z.sentLately s.m.now < 200) :=
  ⟨later (fun z => { z with queue := [⟨⟨9, 0x3001, 0, 0, 0, 0, []⟩, none, 0⟩] }), 1, (later (fun z => { z with queue := [⟨⟨9, 0x3001, 0, 0, 0, 0, []⟩, none, 0⟩] })).m.session 1, ⟨⟨9, 0x3001, 0, 0, 0, 0, []⟩, none, 0⟩, by decide +kernel⟩

theorem meets_EventsAreDelivered_5 : ∃ s : State, (s.m.koa.tagSecond < s.m.timeWord / sec 1) :=
  ⟨started (fun m => { m with clk := { m.clk with reg := sec 3 * 65536 }, koa := { m.koa with tagFails := 17 } }), by decide +kernel⟩

theorem meets_LifeCycleKeysAndMaps_1 : ∃ s : State, ∃ w p m, Reaches s 0x1010 2 w p m ∧ (s.life.permits p.target = true) ∧ (s.life ≠ Life.factory) ∧ (p.target ≠ Life.field ∨ m.testRunning = false) :=
  ⟨withSession id, signed 0x1010 2 4 (beBytes 4 0x4C430003), reaches_of (by decide +kernel)⟩

theorem meets_LifeCycleKeysAndMaps_2 : ∃ s : State, ∃ w p m, Reaches s 0x1010 2 w p m ∧ (s.life = Life.factory) ∧ (p.target = Life.provisioned) ∧ (m.objN 0x1111 8 = 3) ∧ (m.slotKey 8 ≠ []) :=
  ⟨started (fun m => (m.setStr 0x1110 8 [1]).setN 0x1111 8 3), svc32 0x4C430001, reaches_of (by decide +kernel)⟩

theorem meets_LifeCycleKeysAndMaps_3 : ∃ s : State, ∃ w p m, Reaches s 0x1010 2 w p m ∧ (s.life.permits p.target = false) :=
  ⟨started id, svc32 0x4C430002, reaches_of (by decide +kernel)⟩

theorem meets_LifeCycleKeysAndMaps_4 : ∃ s : State, ∃ k : Nat, ∃ w p m, Reaches s 0x1110 k w p m ∧ (1 ≤ k) ∧ (k ≤ 8) :=
  ⟨withSession (fun m => m.onSession 1 (fun z => { z with slot := 3 })) 0 .service, 3, signed 0x1110 3 12 (List.replicate 32 1), reaches_of (by decide +kernel)⟩

theorem meets_LifeCycleKeysAndMaps_5 : ∃ s : State, ∃ k : Nat, ∃ w p m, Reaches s 0x1111 k w p m ∧ (1 ≤ k) ∧ (k ≤ 8) :=
  ⟨started id, 8, svc 2 [3], reaches_of (by decide +kernel)⟩

theorem meets_LifeCycleKeysAndMaps_6 : ∃ s : State, ∃ w p m, Reaches s 0x1200 5 w p m ∧ True :=
  ⟨started (fun m => m.raise 0x1001 0 []), svc32 0x4C4300CC, reaches_of (by decide +kernel)⟩

theorem meets_LifeCycleKeysAndMaps_7 : ∃ s : State, ∃ k : Nat, ∃ w p m, Reaches s (0x1130 + k) 1 w p m ∧ (k < 8) ∧ (p.v = 0) :=
  ⟨started id, 7, svc 1 [0], reaches_of (by decide +kernel)⟩

theorem meets_LifeCycleKeysAndMaps_8 : ∃ s : State, ∃ k : Nat, ∃ w p m, Reaches s (0x1130 + k) 1 w p m ∧ (k < 8) ∧ (p.v = 1) ∧ ((m.mapEntries k).all (fun e => (mapEntrySize s.unit.orderX e).isSome) = true) ∧ (m.mapSize s.unit.orderX k ≤ 1368) :=
  ⟨withSession (fun m => (m.setN 0x1137 4 1).setN 0x1137 5 0x21000100), 7, signed 0x1137 1 1 [1], reaches_of (by decide +kernel)⟩

theorem meets_LifeCycleKeysAndMaps_9 : ∃ s : State, ∃ k : Nat, ∃ w p m, Reaches s (0x1130 + k) 1 w p m ∧ (k < 8) ∧ (p.v = 1) ∧ ((m.mapEntries k).any (fun e => (mapEntrySize s.unit.orderX e).isNone) = true) :=
  ⟨withSession (fun m => (m.setN 0x1137 4 1).setN 0x1137 5 0x00010100), 7, signed 0x1137 1 1 [1], reaches_of (by decide +kernel)⟩

theorem meets_HeatsFollowTheSchedule_1 : ∃ s : State, ∃ f : Nat, ∃ u : Nat, (s.m.nextTick = some (f, u)) ∧ (u ≤ s.m.timeWord) ∧ (s.m.startTick = none) ∧ (s.m.power_.stop = none) ∧ (s.m.pipe.restart = none) :=
  ⟨started (fun m : Mach => { (m.setN 0x5000 0x0A 2).setN 0x5000 4 4 with clk := { m.clk with reg := sec 1 * 65536 }, pipe := { m.pipe with heat := { m.pipe.heat with running := true, number := 1, guard_ := 300, margin := 300, late := 0 } } }), 1, frameTick 0 1 60 1, by decide +kernel⟩

theorem meets_HeatsFollowTheSchedule_2 : ∃ s : State, ∃ f : Nat, ∃ u : Nat, (s.m.startTick = some (f, u)) ∧ (u ≤ s.m.timeWord) ∧ (s.m.stopping = false) ∧ (s.m.thermalHold = false) :=
  ⟨started (fun m => { m with clk := { m.clk with reg := sec 1 * 65536 }, boot := { m.boot with step := 10, heatsFrom := some 5, starting := true } }), 1, frameTick 0 1 60 1, by decide +kernel⟩

theorem meets_HeatsFollowTheSchedule_3 : ∃ s : State, ∃ f : Nat, ∃ u : Nat, (s.m.nextTick = some (f, u)) ∧ (s.m.timeWord < u) :=
  ⟨started (fun m => m.setN 0x5000 0x0A 2), 1, frameTick 0 1 60 1, by decide +kernel⟩

theorem meets_HeatsFollowTheSchedule_4 : ∃ s : State, ∃ k : Nat, (s.m.scheduled = true) ∧ (s.m.startTick = none) ∧ (k < s.m.objN 0x5000 9) ∧ (s.m.slotAt s.m.frameNo k ≤ s.m.timeWord) :=
  ⟨started (fun m : Mach => { (m.setN 0x5000 0x0A 2).setN 0x5000 4 4 with clk := { m.clk with reg := sec 1 * 65536 }, pipe := { m.pipe with heat := { m.pipe.heat with running := true, number := 1, guard_ := 300, margin := 300, late := 0 } } }), 3, by decide +kernel⟩

theorem meets_HeatsFollowTheSchedule_5 : ∃ s : State, (s.m.heat.running = true) ∧ (s.m.heat.resolved = false) ∧ (s.m.heat.cutOff = false) ∧ (s.m.cutOffAt ≤ s.m.timeWord) ∧ (s.m.heat.late = 0 ∨ s.m.lateComplete = [] ∨ s.m.heat.decision.isSome = true) :=
  ⟨started (fun m : Mach => { (m.setN 0x5000 0x0A 2).setN 0x5000 4 4 with clk := { m.clk with reg := sec 1 * 65536 }, pipe := { m.pipe with heat := { m.pipe.heat with running := true, number := 1, guard_ := 300, margin := 300, late := 0 } } }), by decide +kernel⟩

theorem meets_HeatsFollowTheSchedule_6 : ∃ s : State, (s.m.heat.running = true) ∧ (s.m.heat.resolved = false) ∧ (s.m.heat.cutOff = false) ∧ (s.m.cutOffAt ≤ s.m.timeWord) ∧ (s.m.heat.late ≠ 0) ∧ (s.m.lateComplete ≠ []) ∧ (s.m.heat.decision = none) :=
  ⟨started (fun m => ((((fun m : Mach => { (m.setN 0x5000 0x0A 2).setN 0x5000 4 4 with clk := { m.clk with reg := sec 1 * 65536 }, pipe := { m.pipe with heat := { m.pipe.heat with running := true, number := 1, guard_ := 300, margin := 300, late := 0 } } }) m).onHeat (fun h => { h with late := 1 })).onLayer 0 (fun x => { x with bufs := [some ⟨1, 1, 1920, 1080, 10, false⟩, none] }))), by decide +kernel⟩

theorem meets_HeatsFollowTheSchedule_7 : ∃ s : State, (s.m.heat.running = true) ∧ (s.m.heat.resolved = false) ∧ (s.m.commitAt ≤ s.m.timeWord) :=
  ⟨started (fun m : Mach => { (m.setN 0x5000 0x0A 2).setN 0x5000 4 4 with clk := { m.clk with reg := sec 1 * 65536 }, pipe := { m.pipe with heat := { m.pipe.heat with running := true, number := 1, guard_ := 300, margin := 300, late := 0 } } }), by decide +kernel⟩

theorem meets_HeatsFollowTheSchedule_8 : ∃ s : State, (s.m.timeWord < s.m.commitAt ∨ s.m.heat.running = false ∨ s.m.heat.resolved = true) :=
  ⟨started (fun m => ((fun m : Mach => { (m.setN 0x5000 0x0A 2).setN 0x5000 4 4 with clk := { m.clk with reg := sec 1 * 65536 }, pipe := { m.pipe with heat := { m.pipe.heat with running := true, number := 1, guard_ := 300, margin := 300, late := 0 } } }) m).onHeat (fun h => { h with resolved := true })), by decide +kernel⟩

theorem meets_HeatsFollowTheSchedule_9 : ∃ s : State, ∃ w p m, Reaches s 0x5000 5 w p m ∧ (scheduleAllowed (m.objN 0x5000 2) (m.objN 0x5000 3) (m.objN 0x5000 4) (m.objN 0x5001 1) (m.objN 0x5001 2) = true) ∧ (m.scheduled = false) :=
  ⟨started (fun m => m.setN 0x5000 3 50), svc32 0x4C4300A1, reaches_of (by decide +kernel)⟩

theorem meets_HeatsFollowTheSchedule_10 : ∃ s : State, ∃ w p m, Reaches s 0x5000 5 w p m ∧ (scheduleAllowed (m.objN 0x5000 2) (m.objN 0x5000 3) (m.objN 0x5000 4) (m.objN 0x5001 1) (m.objN 0x5001 2) = true) ∧ (m.scheduled = true) ∧ (m.pipe.restart = none) :=
  ⟨started (fun m : Mach => { (m.setN 0x5000 0x0A 2).setN 0x5000 4 4 with clk := { m.clk with reg := sec 1 * 65536 }, pipe := { m.pipe with heat := { m.pipe.heat with running := true, number := 1, guard_ := 300, margin := 300, late := 0 } } }), svc32 0x4C4300A1, reaches_of (by decide +kernel)⟩

theorem meets_HeatsFollowTheSchedule_11 : ∃ s : State, ∃ w p m, Reaches s 0x5000 5 w p m ∧ (scheduleAllowed (m.objN 0x5000 2) (m.objN 0x5000 3) (m.objN 0x5000 4) (m.objN 0x5001 1) (m.objN 0x5001 2) = false) :=
  ⟨started (fun m => m.setN 0x5000 3 200), svc32 0x4C4300A1, reaches_of (by decide +kernel)⟩

theorem meets_HeatsFollowTheSchedule_12 : ∃ s : State, ∃ w p m, Reaches s 0x5000 4 w p m ∧ (p.n * m.objN 0x5000 8 ≤ 960 * m.objN 0x5000 7) :=
  ⟨started id, svc 2 [16], reaches_of (by decide +kernel)⟩

theorem meets_HeatsFollowTheSchedule_13 : ∃ s : State, ∃ w p m, Reaches s 0x5000 4 w p m ∧ (960 * m.objN 0x5000 7 < p.n * m.objN 0x5000 8) :=
  ⟨started (fun m => m.setN 0x5000 8 120), svc 2 [16], reaches_of (by decide +kernel)⟩

theorem meets_SlotTicksSplitFrames : ∃ d slots : Nat, 0 < d ∧ 0 < slots := ⟨60, 16, by decide⟩

theorem meets_PtpDomainsFollowTheirMessages_1 : ∃ s : State, ∃ x : PtpSync, (s.m.boot.cores.contains 1 = false) ∧ (s.m.settled = true) ∧ (x.d < 2) ∧ (x.d < s.m.ptp.doms.length) ∧ (s.m.domState x.d = 2 ∨ s.m.domState x.d = 3) ∧ (x.selected = true) ∧ (intervalTaken (s.m.objN (0x3010 + x.d) 2) x.interval = true) ∧ ((s.m.dom x.d).pending = []) ∧ (s.m.hearsPtp x.d x.number x.udp = true) ∧ (x.twoStep = true) :=
  ⟨started (fun m => m.setN 0x3010 6 2), ⟨0, 7, true, sec 9, 5, sec 8, -3, true, 127, true⟩, by decide +kernel⟩

theorem meets_PtpDomainsFollowTheirMessages_2 : ∃ s : State, ∃ x : PtpSync, (s.m.boot.cores.contains 1 = false) ∧ (s.m.settled = true) ∧ (x.d < 2) ∧ (x.d < s.m.ptp.doms.length) ∧ (s.m.domState x.d = 3) ∧ (x.selected = true) ∧ (intervalTaken (s.m.objN (0x3010 + x.d) 2) x.interval = true) ∧ ((s.m.dom x.d).pending = []) ∧ (s.m.hearsPtp x.d x.number x.udp = true) ∧ (x.twoStep = false) ∧ (s.m.objN (0x3010 + x.d) 0x0C < 2 ^ 64 - 1) :=
  ⟨started (fun m => m.setN 0x3010 6 3), ⟨0, 7, false, sec 9, 5, sec 8, -3, true, 127, true⟩, by decide +kernel⟩

theorem meets_PtpDomainsFollowTheirMessages_3 : ∃ s : State, ∃ x : PtpSync, (s.m.boot.cores.contains 1 = false) ∧ (s.m.settled = true) ∧ (x.d < 2) ∧ (x.d < s.m.ptp.doms.length) ∧ (s.m.domState x.d = 2) ∧ (x.selected = true) ∧ (intervalTaken (s.m.objN (0x3010 + x.d) 2) x.interval = true) ∧ ((s.m.dom x.d).pending = []) ∧ (s.m.hearsPtp x.d x.number x.udp = true) ∧ (x.twoStep = false) ∧ (steady (((s.m.offset x.d (extendTime s.m.timeWord x.origin) x.correction (s.m.domainRx s.ctx x.d x.rx)) :: (s.m.dom x.d).offsets).take 16) = true) ∧ (s.m.pathKnown x.d = true) :=
  ⟨started (fun m => (m.setN 0x3010 6 2).onDom 0 (fun x => { x with offsets := List.replicate 15 (sec 1 + 5 : Nat), pathAt := some 0 })), ⟨0, 7, false, sec 9, 5, sec 8, -3, true, 127, true⟩, by decide +kernel⟩

theorem meets_PtpDomainsFollowTheirMessages_4 : ∃ s : State, (s.m.boot.cores.contains 1 = true) :=
  ⟨started (fun m => { m.setN 0x3010 6 2 with boot := { m.boot with cores := [1] } }), by decide +kernel⟩

theorem meets_PtpDomainsFollowTheirMessages_5 : ∃ s : State, ∃ d : Nat, ∃ n : Nat, ∃ q : PendingSync, (s.m.boot.cores.contains 1 = false) ∧ (s.m.settled = true) ∧ (d < 2) ∧ ((s.m.dom d).pending.find? (fun p => p.seq = n) = some q) ∧ (s.m.now ≤ q.at_ + logInterval (s.m.obj (0x3010 + d) 0x0B)) ∧ (s.m.armedAt 21 d = false) :=
  ⟨started (fun m => (m.setN 0x3010 6 2).onDom 0 (fun x => { x with pending := [⟨5, 0, 1, 0⟩, ⟨9, 4, 77, 0⟩] })), 0, 9, ⟨9, 4, 77, 0⟩, by decide +kernel⟩

theorem meets_PtpDomainsFollowTheirMessages_6 : ∃ s : State, ∃ d : Nat, ∃ n : Nat, ∃ q : PendingSync, (s.m.boot.cores.contains 1 = false) ∧ (s.m.settled = true) ∧ ((s.m.dom d).pending.find? (fun p => p.seq = n) = some q) ∧ (s.m.now ≤ q.at_ + logInterval (s.m.obj (0x3010 + d) 0x0B)) ∧ (s.m.armedAt 21 d = true) :=
  ⟨started (fun m => ({ m.setN 0x3010 6 2 with test := { m.test with armed := some { point := 21, inst := 0, periodic := false, value := 0, at_ := 0, live := true } } } : Mach).onDom 0 (fun x => { x with pending := [⟨5, 0, 1, 0⟩, ⟨9, 4, 77, 0⟩] })), 0, 9, ⟨9, 4, 77, 0⟩, by decide +kernel⟩

theorem meets_PtpDomainsFollowTheirMessages_7 : ∃ s : State, ∃ d : Nat, ∃ q : PendingSync, ∃ r : PendingSync, (s.m.boot.cores.contains 1 = false) ∧ (s.m.settled = true) ∧ (d < 2) ∧ ((s.m.dom d).pending = [q, r]) ∧ (q.at_ + logInterval (s.m.obj (0x3010 + d) 0x0B) ≤ s.m.now) ∧ (s.m.now < r.at_ + logInterval (s.m.obj (0x3010 + d) 0x0B)) ∧ (s.m.objN (0x3010 + d) 0x0D < 2 ^ 64 - 1) :=
  ⟨started (fun m => (fun m : Mach => m.onDom 1 (fun x => { x with pending := [⟨9, 4, 77, 0⟩, ⟨10, 0, 1, sec 100⟩] })) { m with clk := { m.clk with mono := sec 100, reg := sec 8 * 65536 } }), 1, ⟨9, 4, 77, 0⟩, ⟨10, 0, 1, sec 100⟩, by decide +kernel⟩

theorem meets_PtpDomainsFollowTheirMessages_8 : ∃ s : State, ∃ a : PtpAnnounce, ∃ g : Nat, (s.m.boot.cores.contains 1 = false) ∧ (s.m.settled = true) ∧ (a.d < 2) ∧ (a.d < s.m.ptp.doms.length) ∧ (s.m.domState a.d = 1) ∧ (a.best = some g) ∧ (s.m.hearsPtp a.d a.number a.udp = true) :=
  ⟨started (fun m => m.setN 0x3011 6 1), ⟨1, some 5, 1, 37, 127, true⟩, 5, by decide +kernel⟩

theorem meets_PtpDomainsFollowTheirMessages_9 : ∃ s : State, ∃ a : PtpAnnounce, (s.m.boot.cores.contains 1 = false) ∧ (s.m.settled = true) ∧ (a.d < 2) ∧ (s.m.domState a.d = 2 ∨ s.m.domState a.d = 3) ∧ (a.best = none) ∧ (s.m.hearsPtp a.d a.number a.udp = true) :=
  ⟨started (fun m => m.setN 0x3011 6 3), ⟨1, none, 1, 37, 127, true⟩, by decide +kernel⟩

theorem meets_PtpDomainsFollowTheirMessages_10 : ∃ s : State, ∃ d : Nat, (s.m.boot.cores.contains 1 = false) ∧ (s.m.settled = true) ∧ (d < 2) ∧ (s.m.domState d = 2 ∨ s.m.domState d = 3) ∧ ((s.m.dom d).lastAnnounceAt + 3 * logInterval (s.m.dom d).announceInterval ≤ s.m.now) ∧ (s.m.objN (0x3010 + d) 0x0E < 2 ^ 32 - 1) :=
  ⟨started (fun m => (fun m : Mach => m.setN 0x3011 6 2) { m with clk := { m.clk with mono := sec 100, reg := sec 8 * 65536 } }), 1, by decide +kernel⟩

theorem meets_PtpDomainsFollowTheirMessages_11 : ∃ s : State, ∃ d : Nat, (s.m.boot.cores.contains 1 = false) ∧ (s.m.settled = true) ∧ (s.m.now < (s.m.dom d).lastAnnounceAt + 3 * logInterval (s.m.dom d).announceInterval) :=
  ⟨started (fun m => m.setN 0x3011 6 2), 1, by decide +kernel⟩

theorem meets_PtpDomainsFollowTheirMessages_12 : ∃ s : State, ∃ d : Nat, (s.m.boot.cores.contains 1 = false) ∧ (s.m.settled = true) ∧ (d < 2) ∧ (s.m.domState d = 2 ∨ s.m.domState d = 3) ∧ ((s.m.dom d).lastSyncAt + 4 * logInterval (s.m.obj (0x3010 + d) 0x0B) ≤ s.m.now) :=
  ⟨started (fun m => (fun m : Mach => m.setN 0x3011 6 3) { m with clk := { m.clk with mono := sec 100, reg := sec 8 * 65536 } }), 1, by decide +kernel⟩

theorem meets_PtpDomainsFollowTheirMessages_13 : ∃ s : State, ∃ d : Nat, (s.m.boot.cores.contains 1 = false) ∧ (s.m.settled = true) ∧ (d < 2) ∧ (d < s.m.ptp.doms.length) ∧ (s.m.domState d = 2 ∨ s.m.domState d = 3) :=
  ⟨started (fun m => (m.setN 0x3010 6 2).onDom 0 (fun x => { x with seq := 65535 })), 0, by decide +kernel⟩

theorem meets_PtpDomainsFollowTheirMessages_14 : ∃ s : State, ∃ d : Nat, ∃ n : Nat, ∃ tx : Nat, (s.m.boot.cores.contains 1 = false) ∧ (s.m.settled = true) ∧ (d < 2) ∧ ((s.m.dom d).request = some (n, tx)) ∧ (s.m.objN (0x3010 + d) 2 = 0) ∧ ((s.m.dom d).offsets ≠ []) :=
  ⟨started (fun m => (m.setN 0x3010 6 2).onDom 0 (fun x => { x with request := some (8, 50), offsets := [3], lastRx := 40, lastOrigin := 30 })), 0, 8, 50, by decide +kernel⟩

theorem meets_PtpDomainsFollowTheirMessages_15 : ∃ s : State, ∃ d : Nat, ∃ n : Nat, ∃ tx : Nat, (s.m.boot.cores.contains 1 = false) ∧ (s.m.settled = true) ∧ (d < 2) ∧ (d < s.m.ptp.doms.length) ∧ ((s.m.dom d).request = some (n, tx)) ∧ (s.m.objN (0x3010 + d) 2 = 0) ∧ (s.m.domState d = 2) ∧ (steady (s.m.dom d).offsets = true) :=
  ⟨started (fun m => (m.setN 0x3010 6 2).onDom 0 (fun x => { x with request := some (8, 50), offsets := List.replicate 16 3, lastRx := 40, lastOrigin := 30 })), 0, 8, 50, by decide +kernel⟩

theorem meets_PtpDomainsFollowTheirMessages_16 : ∃ s : State, ∃ d : Nat, (s.m.boot.cores.contains 1 = false) ∧ (s.m.settled = true) ∧ (d < 2) ∧ (s.m.domState d ≠ 0) ∧ (s.m.domState d ≠ 4) ∧ (s.m.objN (0x3010 + d) 2 = 1) :=
  ⟨started (fun m => (m.setN 0x3010 2 1).setN 0x3010 6 1), 0, by decide +kernel⟩

theorem meets_PtpDomainsFollowTheirMessages_17 : ∃ s : State, ∃ d : Nat, ∃ n : Nat, ∃ tx : Nat, (s.m.boot.cores.contains 1 = false) ∧ (s.m.settled = true) ∧ (d < 2) ∧ ((s.m.dom d).request = some (n, tx)) ∧ (s.m.objN (0x3010 + d) 2 = 1) :=
  ⟨started (fun m => (m.setN 0x3010 2 1).onDom 0 (fun x => { x with request := some (8, 50) })), 0, 8, 50, by decide +kernel⟩

theorem meets_TimeIsSteppedAndSelected_1 : ∃ s : State, ∃ w p m, Reaches s 0x3000 0x0D w p m ∧ (m.objN 0x3000 3 = 4) ∧ (m.mayStep = true) ∧ (m.settled = true) ∧ (m.objN 0x3000 0x0A < 2 ^ 32 - 1) :=
  ⟨started (fun m => (m.setN 0x3000 3 4)), svc 10 (beBytes 8 100 ++ [0, 0, 0, 1, 0, 0]), reaches_of (by decide +kernel)⟩

theorem meets_TimeIsSteppedAndSelected_2 : ∃ s : State, ∃ w p m, Reaches s 0x3000 0x0D w p m ∧ (m.objN 0x3000 3 ≠ 4 ∨ m.mayStep = false) :=
  ⟨started id, svc 10 (beBytes 8 100 ++ [0, 0, 0, 1, 0, 0]), reaches_of (by decide +kernel)⟩

theorem meets_TimeIsSteppedAndSelected_3 : ∃ s : State, ∃ w p m, Reaches s 0x3000 3 w p m ∧ (m.settled = true) :=
  ⟨started (fun m => m.setN 0x3011 6 3), svc 2 [1], reaches_of (by decide +kernel)⟩

theorem meets_TimeIsSteppedAndSelected_4 : ∃ s : State, (s.m.boot.cores.contains 1 = false) ∧ (s.m.settled = true) ∧ (s.m.objN 0x3000 3 = 2) ∧ (s.m.objN 0x3000 2 = 1) ∧ (s.m.qualified 0 = true) ∧ ((s.m.dom 0).qualifiedAt + sec (s.m.objN 0x3000 4) ≤ s.m.now) :=
  ⟨started (fun m => (fun m : Mach => ((m.setN 0x3000 2 1).setN 0x3010 6 3).onPtp (fun p => { p with bTook := true })) { m with clk := { m.clk with mono := sec 100, reg := sec 8 * 65536 } }), by decide +kernel⟩

theorem meets_TimeIsSteppedAndSelected_5 : ∃ s : State, (s.m.boot.cores.contains 1 = false) ∧ (s.m.settled = true) ∧ (s.m.objN 0x3000 3 = 2) ∧ (s.m.objN 0x3000 2 = 1) ∧ (s.m.qualified 1 = true) ∧ (s.m.ptp.bTook = true) ∧ (s.m.now < (s.m.dom 0).qualifiedAt + sec (s.m.objN 0x3000 4)) :=
  ⟨started (fun m => (((m.setN 0x3000 2 1).setN 0x3010 6 3).setN 0x3011 6 3).onPtp (fun p => { p with bTook := true })), by decide +kernel⟩

theorem meets_TimeIsSteppedAndSelected_6 : ∃ s : State, (s.m.power = 4) :=
  ⟨started (fun m => m.setN 0x3000 1 3) 4, by decide +kernel⟩

theorem meets_TimeIsSteppedAndSelected_7 : ∃ s : State, (s.m.power ≠ 4) :=
  ⟨started id, by decide +kernel⟩

theorem meets_SyncOutputsAndInputs_1 : ∃ s : State, ∃ w p m, Reaches s 0x3100 3 w p m ∧ ((upTo 8).all (fun o => m.outAllowed (m.stagedOut o)) = true) :=
  ⟨started id, svc32 0x4C4300A9, reaches_of (by decide +kernel)⟩

theorem meets_SyncOutputsAndInputs_2 : ∃ s : State, ∃ o : Nat, ∃ w p m, Reaches s 0x3100 3 w p m ∧ (o < 8) ∧ (m.outAllowed (m.stagedOut o) = false) :=
  ⟨started (fun m => (m.setN 0x3113 1 4).setN 0x3113 4 1000000000), 3, svc32 0x4C4300A9, reaches_of (by decide +kernel)⟩

theorem meets_SyncOutputsAndInputs_3 : ∃ s : State, ∃ a : Nat, ∃ l : List SyncSet, (s.m.testing = none) ∧ (s.m.coreUp 1 = true) ∧ (s.m.scheduled = false) ∧ (s.m.ptp.staged = some (a, l)) ∧ (a + ms 1 ≤ s.m.now) ∧ (s.m.ptp.outs.length = 8) ∧ (l.length = 8) :=
  ⟨started (fun m => ({ m with clk := { m.clk with mono := ms 1 } } : Mach).onPtp (fun p => { p with staged := some (0, List.replicate 8 { mode := 5 }) })), 0, List.replicate 8 { mode := 5 }, by decide +kernel⟩

theorem meets_SyncOutputsAndInputs_4 : ∃ s : State, ∃ a : Nat, ∃ l : List SyncSet, (s.m.ptp.staged = some (a, l)) ∧ (s.m.now < a + ms 1) :=
  ⟨started (fun m => m.onPtp (fun p => { p with staged := some (0, List.replicate 8 { mode := 5 }) })), 0, List.replicate 8 { mode := 5 }, by decide +kernel⟩

theorem meets_SyncOutputsAndInputs_5 : ∃ s : State, ∃ o : Nat, ∃ k : Nat, ∃ j : Nat, ∃ u : Int, (o < s.m.ptp.outs.length) ∧ (s.m.pulses (s.m.syncOut o).set_ = true) ∧ (s.m.leading (s.m.syncOut o).set_ k j = some u) ∧ (u ≤ s.m.timeWord) ∧ ((s.m.syncOut o).active = false) ∧ ((s.m.syncOut o).lastEdge = none) ∧ ((s.m.syncOut o).holdOff = none) ∧ (s.m.objN (0x3110 + o) 0x0C < 2 ^ 64 - 1) :=
  ⟨started (fun m => ({ m with clk := { m.clk with reg := sec 1 * 65536 } }).onSyncOut 3 (fun x => { x with set_ := { mode := 4, num := 1, den := 10 } })), 3, 2, 0, (sec 1 / 5 : Nat), by decide +kernel⟩

theorem meets_SyncOutputsAndInputs_6 : ∃ s : State, ∃ o : Nat, ∃ k : Nat, ∃ y : Ticked, (o < s.m.ptp.outs.length) ∧ (s.m.power ≤ 2) ∧ (s.m.objN 0x6401 1 ≠ 2) ∧ ((s.m.syncOut o).set_.lockGate = false) ∧ ((s.m.syncOut o).set_.mode = 1) ∧ (s.m.ptp.ticks.find? (fun y => y.h = k) = some y) ∧ (k % (s.m.syncOut o).set_.divider = 0) ∧ ((y.start : Int) + ofPs (s.m.syncOut o).set_.offset ≤ s.m.timeWord) ∧ ((s.m.syncOut o).active = false) ∧ ((s.m.syncOut o).lastEdge = none) ∧ ((s.m.syncOut o).holdOff = none) :=
  ⟨started (fun m => (((fun m : Mach => { (m.setN 0x5000 0x0A 2).setN 0x5000 4 4 with clk := { m.clk with reg := sec 1 * 65536 }, pipe := { m.pipe with heat := { m.pipe.heat with running := true, number := 1, guard_ := 300, margin := 300, late := 0 } } }) m).onPtp (fun p => { p with ticks := [⟨2, 0, 1, 60, 16⟩] })).onSyncOut 3 (fun x => { x with set_ := { mode := 1, divider := 2 } })), 3, 2, ⟨2, 0, 1, 60, 16⟩, by decide +kernel⟩

theorem meets_SyncOutputsAndInputs_7 : ∃ s : State, ∃ o : Nat, ∃ k : Nat, ∃ j : Nat, (o < s.m.ptp.outs.length) ∧ ((s.m.syncOut o).active = true) ∧ ((s.m.syncOut o).endsAt ≤ s.m.timeWord) ∧ (s.m.leading (s.m.syncOut o).set_ k j = none ∨ s.m.pulses (s.m.syncOut o).set_ = false) :=
  ⟨started (fun m => (m).onSyncOut 3 (fun x => { x with active := true })), 3, 2, 0, by decide +kernel⟩

theorem meets_SyncOutputsAndInputs_8 : ∃ s : State, ∃ n : Nat, ∃ x : Nat, ∃ b : Bool, (n < 2) ∧ (n < s.m.ptp.ins.length) ∧ (s.m.objB (0x3120 + n) 1 = true) ∧ (s.m.power ≤ 2) ∧ (s.m.objN (0x3120 + n) 2 = 2 ∨ s.m.objN (0x3120 + n) 2 = bit b) ∧ ((s.m.ptp.ins.getD n {}).last = none ∨ ∃ y, (s.m.ptp.ins.getD n {}).last = some y ∧ y + ns 100 ≤ x) ∧ (s.m.objN (0x3120 + n) 4 < 2 ^ 64 - 1) :=
  ⟨started (fun m => m.setB 0x3121 1 true), 1, 99, false, by decide +kernel⟩

theorem meets_SyncOutputsAndInputs_9 : ∃ s : State, ∃ n : Nat, ∃ x : Nat, ∃ y : Nat, ∃ b : Bool, (n < 2) ∧ (s.m.objB (0x3120 + n) 1 = true) ∧ (s.m.power ≤ 2) ∧ (s.m.objN (0x3120 + n) 2 = 2 ∨ s.m.objN (0x3120 + n) 2 = bit b) ∧ ((s.m.ptp.ins.getD n {}).last = some y) ∧ (y ≤ x) ∧ (x < y + ns 100) ∧ (s.m.objN (0x3120 + n) 5 < 2 ^ 32 - 1) :=
  ⟨started (fun m => (m.setB 0x3121 1 true).onPtp (fun p => { p with ins := [{}, { last := some 40 }] })), 1, 99, 40, false, by decide +kernel⟩

theorem meets_SyncOutputsAndInputs_10 : ∃ s : State, ∃ n : Nat, ∃ b : Bool, (2 ≤ n ∨ (s.m.objN (0x3120 + n) 2 ≠ 2 ∧ s.m.objN (0x3120 + n) 2 ≠ bit b)) :=
  ⟨started id, 1, true, by decide +kernel⟩

theorem meets_SyncOutputsAndInputs_11 : ∃ s : State, ∃ n : Nat, ∃ b : Bool, (n < 2) ∧ (s.m.objB (0x3120 + n) 1 = false) ∧ (s.m.objN (0x3120 + n) 2 = 2 ∨ s.m.objN (0x3120 + n) 2 = bit b) ∧ (s.m.power ≤ 2) ∧ (s.m.boot.shut = 0) ∧ (s.m.power_.stop ≠ some 3) ∧ (s.m.power_.entry = none) :=
  ⟨started id, 1, false, by decide +kernel⟩

theorem meets_SceneContentsUploadsAndClips_1 : ∃ s : State, ∃ k : Nat, ∃ x : Nat, ∃ b : Nat, ∃ a : Option Nat, (k < 256) ∧ (s.m.source? k = some (x, a, b)) ∧ (s.m.objB 0x4110 1 k = true) ∧ (s.m.scene.layers.length ≤ 64) :=
  ⟨started (fun m => { (m.setB 0x4110 1 true 3).setN 0x4110 6 1 3 with scene := { m.scene with sources := [(3, 77, some 5, 0)], layers := [{ pending := [{ origin := .stream 3 0, heat := 2, span := 1, width := 64, height := 64, length := 40 }] }] } }), 3, 77, 0, some 5, by decide +kernel⟩

theorem meets_SceneContentsUploadsAndClips_2 : ∃ s : State, ∃ k : Nat, ∃ x : Nat, ∃ y : Nat, ∃ b : Nat, ∃ a : Option Nat, (s.m.source? k = some (y, a, b)) ∧ (x ≠ y) :=
  ⟨started (fun m => { m with scene := { m.scene with sources := [(3, 77, some 5, 0)] } }), 3, 78, 77, 0, some 5, by decide +kernel⟩

theorem meets_SceneContentsUploadsAndClips_3 : ∃ s : State, ∃ k : Nat, ∃ x : Nat, ∃ b : Nat, ∃ a : Option Nat, (k < 256) ∧ (s.m.source? k = some (x, a, b)) ∧ (b + ms (s.m.objN 0x5180 6) ≤ s.m.now) :=
  ⟨started (fun m => { ({ m.setN 0x4110 6 1 3 with clk := { m.clk with mono := sec 100 } } : Mach) with scene := { m.scene with sources := [(3, 77, some 5, 0)], staged := none } }), 3, 77, 0, some 5, by decide +kernel⟩

theorem meets_SceneContentsUploadsAndClips_4 : ∃ s : State, ∃ k : Nat, ∃ x : Nat, ∃ b : Nat, ∃ a : Option Nat, (s.m.source? k = some (x, a, b)) ∧ (s.m.now < b + ms (s.m.objN 0x5180 6)) :=
  ⟨started (fun m => { m with scene := { m.scene with sources := [(3, 77, some 5, 0)] } }), 3, 77, 0, some 5, by decide +kernel⟩

theorem meets_SceneContentsUploadsAndClips_5 : ∃ s : State, ∃ k : Nat, ∃ c : Content, ∃ l : List Content, (k < 64) ∧ (k < s.m.scene.layers.length) ∧ ((s.m.layer k).inOrder = c :: l) ∧ ((s.m.layer k).writable = true) ∧ (c.heat ≤ s.m.frameNo + 2) ∧ ((s.m.layer k).target < (s.m.layer k).bufs.length) :=
  ⟨started (fun m => { m with scene := { m.scene with layers := [{ pending := [{ origin := .stream 3 0, heat := 2, span := 1, width := 64, height := 64, length := 40 }] }] } }), 0, { origin := .stream 3 0, heat := 2, span := 1, width := 64, height := 64, length := 40 }, [], by decide +kernel⟩

theorem meets_SceneContentsUploadsAndClips_6 : ∃ s : State, ∃ w p m, Reaches s 0x5180 1 w p m ∧ (m.objN 0x5180 2 = 0 ∨ m.frameNo + 2 ≤ m.objN 0x5180 2) ∧ (m.descriptorsAllowed ((upTo 64).map m.stagedV) ((upTo 4).map m.stagedG) = true) :=
  ⟨started id, svc32 0x4C4300A3, reaches_of (by decide +kernel)⟩

theorem meets_SceneContentsUploadsAndClips_7 : ∃ s : State, ∃ w p m, Reaches s 0x5180 1 w p m ∧ (m.objN 0x5180 2 ≠ 0) ∧ (m.objN 0x5180 2 < m.frameNo + 2) :=
  ⟨started (fun m => m.setN 0x5180 2 1), svc32 0x4C4300A3, reaches_of (by decide +kernel)⟩

theorem meets_SceneContentsUploadsAndClips_8 : ∃ s : State, ∃ j : Nat, ∃ w p m, Reaches s (0x51A0 + j) 7 w p m ∧ (j < 8) ∧ (live (m.uploadState j) = false) ∧ ((m.vdesc (m.objN (0x51A0 + j) 1)).enable = true) ∧ ((m.vdesc (m.objN (0x51A0 + j) 1)).mode = 1) ∧ (m.objN (0x51A0 + j) 2 + m.objN (0x51A0 + j) 4 ≤ ((m.vdesc (m.objN (0x51A0 + j) 1)).width + 63) / 64) ∧ (m.objN (0x51A0 + j) 3 + m.objN (0x51A0 + j) 5 ≤ ((m.vdesc (m.objN (0x51A0 + j) 1)).height + 63) / 64) ∧ (m.scene.uploads.all (fun a => a.job = j || a.buf != m.objN (0x51A0 + j) 6) = true) :=
  ⟨started (fun m => { (m.setN 0x51A7 4 1).setN 0x51A7 5 1 with scene := { m.scene with vdesc := [{ enable := true, mode := 1, width := 1, height := 1 }] } }), 7, svc32 0x4C4300A4, reaches_of (by decide +kernel)⟩

theorem meets_SceneContentsUploadsAndClips_9 : ∃ s : State, ∃ j : Nat, ∃ w p m, Reaches s (0x51A0 + j) 7 w p m ∧ (j < 8) ∧ (live (m.uploadState j) = true ∨ (m.vdesc (m.objN (0x51A0 + j) 1)).mode ≠ 1) :=
  ⟨started id, 7, svc32 0x4C4300A4, reaches_of (by decide +kernel)⟩

theorem meets_SceneContentsUploadsAndClips_10 : ∃ s : State, ∃ j : Nat, ∃ u : Upload, (j < 8) ∧ (s.m.upload? j = some u) ∧ (u.layer < 64) ∧ (u.layer < s.m.scene.layers.length) ∧ (s.m.uploadState j = 1) ∧ (s.m.scene.uploads.find? (fun a => a.layer = u.layer) = some u) ∧ ((s.m.vdesc u.layer).enable = true) ∧ ((s.m.vdesc u.layer).mode = 1) ∧ ((s.m.layer u.layer).writable = true) ∧ ((s.m.layer u.layer).pending = []) :=
  ⟨started (fun m => { m.setN 0x51A7 8 1 with scene := { m.scene with vdesc := [{ enable := true, mode := 1, width := 1, height := 1 }], uploads := [⟨7, 0, 0, 0, 1, 1, 3⟩] } }), 7, ⟨7, 0, 0, 0, 1, 1, 3⟩, by decide +kernel⟩

theorem meets_SceneContentsUploadsAndClips_11 : ∃ s : State, ∃ j : Nat, ∃ u : Upload, (j < 8) ∧ (s.m.upload? j = some u) ∧ (s.m.uploadState j ≠ 1 ∨ (s.m.layer u.layer).writable = false ∨ (s.m.vdesc u.layer).mode ≠ 1) :=
  ⟨started (fun m => { m.setN 0x51A7 8 1 with scene := { m.scene with uploads := [⟨7, 0, 0, 0, 1, 1, 3⟩] } }), 7, ⟨7, 0, 0, 0, 1, 1, 3⟩, by decide +kernel⟩

theorem meets_SceneContentsUploadsAndClips_12 : ∃ s : State, ∃ j : Nat, ∃ u : Upload, ∃ b : Content, (j < 8) ∧ (s.m.upload? j = some u) ∧ (u.layer < 64) ∧ ((s.m.layer u.layer).pending.find? (fun x => x.origin = .upload j) = some b) ∧ (b.ready.all (fun r => b.blocks.any (fun x => x.1 = r.1)) = true) ∧ ((b.ready.map Prod.snd).sum = b.length) ∧ (b.blocks.length = u.cols * u.rows) ∧ (s.m.anyPoison = false) ∧ (s.m.poisonWaits = false) :=
  ⟨started (fun m => { m.setN 0x51A7 8 2 with scene := { m.scene with vdesc := [{ enable := true, mode := 1, width := 1, height := 1 }], uploads := [⟨7, 0, 0, 0, 1, 1, 3⟩], layers := [{ pending := [{ origin := .upload 7, heat := 2, span := 0, width := 1, height := 1, length := (encodeBlock 0 0 0 1 1 [⟨1, 2, 3, 4⟩] false).length, runs := [(0, encodeBlock 0 0 0 1 1 [⟨1, 2, 3, 4⟩] false)], blocks := [(0, 0, 0)], buf := some 0 }] }] } }), 7, ⟨7, 0, 0, 0, 1, 1, 3⟩, { origin := .upload 7, heat := 2, span := 0, width := 1, height := 1, length := (encodeBlock 0 0 0 1 1 [⟨1, 2, 3, 4⟩] false).length, runs := [(0, encodeBlock 0 0 0 1 1 [⟨1, 2, 3, 4⟩] false)], blocks := [(0, 0, 0)], buf := some 0 }, by decide +kernel⟩

theorem meets_SceneContentsUploadsAndClips_13 : ∃ s : State, ∃ j : Nat, ∃ u : Upload, ∃ b : Content, (j < 8) ∧ (s.m.upload? j = some u) ∧ (u.layer < 64) ∧ ((s.m.layer u.layer).pending.find? (fun x => x.origin = .upload j) = some b) ∧ (b.ready.all (fun r => b.blocks.any (fun x => x.1 = r.1)) = true) ∧ ((b.ready.map Prod.snd).sum ≠ b.length) :=
  ⟨started (fun m => { m.setN 0x51A7 8 2 with scene := { m.scene with vdesc := [{ enable := true, mode := 1, width := 1, height := 1 }], uploads := [⟨7, 0, 0, 0, 1, 1, 3⟩], layers := [{ pending := [{ origin := .upload 7, heat := 2, span := 0, width := 1, height := 1, length := 5, runs := [(0, [1])], blocks := [], buf := some 0 }] }] } }), 7, ⟨7, 0, 0, 0, 1, 1, 3⟩, { origin := .upload 7, heat := 2, span := 0, width := 1, height := 1, length := 5, runs := [(0, [1])], blocks := [], buf := some 0 }, by decide +kernel⟩

theorem meets_SceneContentsUploadsAndClips_14 : ∃ s : State, ∃ j : Nat, ∃ u : Upload, ∃ b : Content, (j < 8) ∧ (s.m.upload? j = some u) ∧ (u.layer < 64) ∧ ((s.m.layer u.layer).pending.find? (fun x => x.origin = .upload j) = some b) ∧ (b.ready.all (fun r => b.blocks.any (fun x => x.1 = r.1)) = true) ∧ ((b.ready.map Prod.snd).sum = b.length) ∧ (b.blocks.length ≠ u.cols * u.rows) :=
  ⟨started (fun m => { m.setN 0x51A7 8 2 with scene := { m.scene with vdesc := [{ enable := true, mode := 1, width := 1, height := 1 }], uploads := [⟨7, 0, 0, 0, 1, 1, 3⟩], layers := [{ pending := [{ origin := .upload 7, heat := 2, span := 0, width := 1, height := 1, length := 0, runs := [], blocks := [], buf := some 0 }] }] } }), 7, ⟨7, 0, 0, 0, 1, 1, 3⟩, { origin := .upload 7, heat := 2, span := 0, width := 1, height := 1, length := 0, runs := [], blocks := [], buf := some 0 }, by decide +kernel⟩

theorem meets_SceneContentsUploadsAndClips_15 : ∃ s : State, ∃ w p m, Reaches s 0x51B1 5 w p m ∧ (ofBE w.value = 0x4C4300B1) ∧ (p.n = 0x4C4300B1) ∧ (m.objN 0x51B1 6 ≠ 1) ∧ (m.objN 0x51B1 6 ≠ 2) :=
  ⟨started id, svc32 0x4C4300B1, reaches_of (by decide +kernel)⟩

theorem meets_SceneContentsUploadsAndClips_16 : ∃ s : State, ∃ w p m, Reaches s 0x51B1 5 w p m ∧ (ofBE w.value = 0x4C4300B1) ∧ (p.n = 0x4C4300B1) ∧ (m.objN 0x51B1 6 = 1 ∨ m.objN 0x51B1 6 = 2) :=
  ⟨started (fun m => m.setN 0x51B1 6 2), svc32 0x4C4300B1, reaches_of (by decide +kernel)⟩

theorem meets_SceneContentsUploadsAndClips_17 : ∃ s : State, ∃ w p m, Reaches s 0x51B1 5 w p m ∧ (ofBE w.value = 0x4C4300B0) ∧ (p.n = 0x4C4300B0) ∧ (m.scene.recording.isSome = true) :=
  ⟨started (fun m => { m with scene := { m.scene with recording := some { clip := 1, layer := 2, start := 3, limit := 4 } } }), svc32 0x4C4300B0, reaches_of (by decide +kernel)⟩

theorem meets_SceneContentsUploadsAndClips_18 : ∃ s : State, ∃ w p m, Reaches s 0x51B1 5 w p m ∧ (ofBE w.value = 0x4C4300B0) ∧ (p.n = 0x4C4300B0) ∧ (m.scene.recording = none) :=
  ⟨started id, svc32 0x4C4300B0, reaches_of (by decide +kernel)⟩

theorem meets_SceneContentsUploadsAndClips_19 : ∃ s : State, ∃ w p m, Reaches s 0x51B2 2 w p m ∧ (m.clipInUse (m.objN 0x51B2 1) = false) :=
  ⟨started (fun m => { m.setN 0x51B2 1 4 with scene := { m.scene with clips := [⟨4, [], [], 0⟩] } }), svc32 0x4C4300DD, reaches_of (by decide +kernel)⟩

theorem meets_SceneContentsUploadsAndClips_20 : ∃ s : State, ∃ w p m, Reaches s 0x51B2 2 w p m ∧ (m.clipInUse (m.objN 0x51B2 1) = true) :=
  ⟨started (fun m => { m.setN 0x51B2 1 4 with scene := { m.scene with recording := some { clip := 4, layer := 2, start := 3, limit := 4 }, clips := [⟨4, [], [], 0⟩] } }), svc32 0x4C4300DD, reaches_of (by decide +kernel)⟩

theorem meets_ClustersRenderPours_1 : ∃ s : State, ∃ c : Nat, ∃ k : Nat, ∃ w : Work, ∃ p : Pour, (k ≠ 2) ∧ ((s.m.cluster c).ctx.getD k none = some w) ∧ (s.m.pour? w.panel = some p) ∧ (s.m.clusterUp c = true) ∧ (w.rows ≤ w.start) ∧ (s.m.anyPoison = false) ∧ (s.m.poisonWaits = false) :=
  ⟨started (fun m => { m.setN 0x5320 1 1 with pipe := { m.pipe with clusters := [{ ctx := [some ⟨5, 1, 0, 0, 0, none⟩, none], cur := none }], heat := { m.pipe.heat with running := true, pours := [{ c := 0, pos := 0, panel := 5, v1 := { state := 2, row := 0 } }] } } }), 0, 0, ⟨5, 1, 0, 0, 0, none⟩, { c := 0, pos := 0, panel := 5, v1 := { state := 2, row := 0 } }, by decide +kernel⟩

theorem meets_ClustersRenderPours_2 : ∃ s : State, ∃ c : Nat, ∃ k : Nat, ∃ w : Work, ∃ p : Pour, (k ≠ 2) ∧ ((s.m.cluster c).ctx.getD k none = some w) ∧ (s.m.pour? w.panel = some p) ∧ (s.m.clusterUp c = true) ∧ (w.start < w.rows) ∧ (w.rows < 36) ∧ (w.rows ≤ (p.ver w.version).row ∨ (s.m.cluster c).cur = some k ∧ w.rows ≤ (p.ver w.version).row + 1) ∧ (s.m.anyPoison = false) ∧ (s.m.poisonWaits = false) :=
  ⟨started (fun m => { m.setN 0x5320 1 1 with pipe := { m.pipe with clusters := [{ ctx := [some ⟨5, 1, 0, 2, 0, none⟩, none], cur := some 0 }], heat := { m.pipe.heat with running := true, pours := [{ c := 0, pos := 0, panel := 5, v1 := { state := 4, row := 1 } }] } } }), 0, 0, ⟨5, 1, 0, 2, 0, none⟩, { c := 0, pos := 0, panel := 5, v1 := { state := 4, row := 1 } }, by decide +kernel⟩

theorem meets_ClustersRenderPours_3 : ∃ s : State, ∃ c : Nat, ∃ e : Nat × Nat, ∃ p : Pour, (c < s.m.pipe.clusters.length) ∧ (s.m.heat.list.find? (fun e => !s.m.pipe.clusters.any (fun x => x.ahead = some e)) = some e) ∧ (s.m.pour? e.1 = some p) ∧ (s.m.clusterUp c = true) ∧ ((s.m.cluster c).ahead = none) ∧ (((s.m.ladleRuns p e.2 (p.ver e.2).row (p.ver e.2).row (min 36 ((p.ver e.2).row + 2))).map Prod.snd).sum ≤ s.m.poolSize) :=
  ⟨started (fun m => { m.setN 0x5320 1 1 with pipe := { m.pipe with clusters := [{}], heat := { m.pipe.heat with running := true, list := [(5, 1)], pours := [{ c := 0, pos := 0, panel := 5, v1 := { state := 1, row := 0 } }] } } }), 0, (5, 1), { c := 0, pos := 0, panel := 5, v1 := { state := 1, row := 0 } }, by decide +kernel⟩

theorem meets_ClustersRenderPours_4 : ∃ s : State, ∃ cl : Nat, ∃ k : Nat, ∃ w : Work, ∃ p : Pour, (cl < 68) ∧ (s.m.forced 4 cl = none) ∧ (s.m.armedAt 1 cl = false) ∧ (s.m.armedAt 2 cl = false) ∧ (s.m.armedAt 3 cl = false) ∧ ((s.m.cluster cl).cur = some k) ∧ ((s.m.cluster cl).ctx.getD k none = some w) ∧ (s.m.pour? w.panel = some p) ∧ (s.m.clusterUp cl = true) ∧ (3 ≤ (p.ver w.version).state) ∧ ((p.ver w.version).state ≤ 5) ∧ ((p.ver w.version).rendered = false) ∧ ((p.ver w.version).row + 1 < 36) :=
  ⟨started (fun m => { m.setN 0x5320 1 1 with pipe := { m.pipe with clusters := [{ ctx := [some ⟨5, 1, 0, 36, 0, none⟩, none], cur := some 0 }], heat := { m.pipe.heat with running := true, pours := [{ c := 0, pos := 0, panel := 5, v1 := { state := 4, row := 2 } }] } } }), 0, 0, ⟨5, 1, 0, 36, 0, none⟩, { c := 0, pos := 0, panel := 5, v1 := { state := 4, row := 2 } }, by decide +kernel⟩

theorem meets_ClustersRenderPours_5 : ∃ s : State, ∃ cl : Nat, ∃ k : Nat, ∃ w : Work, ∃ p : Pour, (cl < 68) ∧ (s.m.forced 4 cl = none) ∧ (s.m.armedAt 1 cl = false) ∧ (s.m.armedAt 2 cl = false) ∧ (s.m.armedAt 3 cl = false) ∧ ((s.m.cluster cl).cur = some k) ∧ ((s.m.cluster cl).ctx.getD k none = some w) ∧ (s.m.pour? w.panel = some p) ∧ (s.m.clusterUp cl = true) ∧ (3 ≤ (p.ver w.version).state) ∧ ((p.ver w.version).state ≤ 5) ∧ ((p.ver w.version).rendered = false) ∧ ((p.ver w.version).row + 1 = 36) ∧ (p.bands ≤ (p.ver w.version).band + 1) :=
  ⟨started (fun m => { m.setN 0x5320 1 1 with pipe := { m.pipe with clusters := [{ ctx := [some ⟨5, 1, 0, 36, 0, none⟩, none], cur := some 0 }], heat := { m.pipe.heat with running := true, pours := [{ c := 0, pos := 0, panel := 5, v1 := { state := 4, row := 35 } }] } } }), 0, 0, ⟨5, 1, 0, 36, 0, none⟩, { c := 0, pos := 0, panel := 5, v1 := { state := 4, row := 35 } }, by decide +kernel⟩

theorem meets_ClustersRenderPours_6 : ∃ s : State, ∃ cl : Nat, (68 ≤ cl ∨ (s.m.forced 4 cl).isSome = true) :=
  ⟨started id, 68, by decide +kernel⟩

theorem meets_ClustersRenderPours_7 : ∃ s : State, ∃ cl : Nat, (cl < 68) ∧ (cl < s.m.pipe.clusters.length) ∧ (s.m.objN (0x5320 + cl) 1 = 1) ∧ (s.m.objN (0x5320 + cl) 5 < 2 ^ 16 - 1) :=
  ⟨started (fun m => { m.setN 0x5320 1 1 with pipe := { m.pipe with clusters := [{ ctx := [some ⟨5, 1, 0, 36, 0, none⟩, none], cur := some 0 }], heat := { m.pipe.heat with running := true, pours := [{ c := 0, pos := 0, panel := 5, v1 := { state := 4, row := 2 } }] } } }), 0, by decide +kernel⟩

theorem meets_ClustersRenderPours_8 : ∃ s : State, ∃ cl : Nat, (s.m.objN (0x5320 + cl) 1 ≠ 1) :=
  ⟨started (fun m => m.setN 0x5320 1 3), 0, by decide +kernel⟩

theorem meets_ClustersRenderPours_9 : ∃ s : State, ∃ cl : Nat, (cl < 68) ∧ (cl < s.m.pipe.clusters.length) ∧ ((s.m.cluster cl).ctx.any (fun x : Option Work => match x.bind Work.eligibleAt with | some a => decide (a + us 400 ≤ s.m.now) | none => false) = true) ∧ (s.m.objN (0x5320 + cl) 1 = 1) :=
  ⟨started (fun m => { ({ m.setN 0x5320 1 1 with clk := { m.clk with mono := us 400 } } : Mach) with pipe := { m.pipe with clusters := [{ ctx := [some ⟨5, 1, 0, 36, 0, some 0⟩, none], cur := some 0 }], heat := { m.pipe.heat with running := true, pours := [{ c := 0, pos := 0, panel := 5, v1 := { state := 4, row := 2 } }] } } }), 0, by decide +kernel⟩

theorem meets_ClustersRenderPours_10 : ∃ s : State, ∃ cl : Nat, ((s.m.cluster cl).ctx.any (fun x : Option Work => match x.bind Work.eligibleAt with | some a => decide (a + us 400 ≤ s.m.now) | none => false) = false) :=
  ⟨started (fun m => { m.setN 0x5320 1 1 with pipe := { m.pipe with clusters := [{ ctx := [some ⟨5, 1, 0, 36, 0, none⟩, none], cur := some 0 }], heat := { m.pipe.heat with running := true, pours := [{ c := 0, pos := 0, panel := 5, v1 := { state := 4, row := 2 } }] } } }), 0, by decide +kernel⟩

theorem meets_RegionUpdatesCapturesAndSignatures_1 : ∃ s : State, ∃ j : Nat, ∃ w p m, Reaches s (0x5408 + j) 6 w p m ∧ (j < 8) ∧ (m.objN (0x5408 + j) 1 < m.outs.graphics.length) ∧ (live (m.regionState j) = false) ∧ (m.objN (0x5408 + j) 2 + m.objN (0x5408 + j) 4 ≤ 1920) ∧ (m.objN (0x5408 + j) 3 + m.objN (0x5408 + j) 5 ≤ 1080) :=
  ⟨started id, 7, svc32 0x4C4300A5, reaches_of (by decide +kernel)⟩

theorem meets_RegionUpdatesCapturesAndSignatures_2 : ∃ s : State, ∃ j : Nat, ∃ w p m, Reaches s (0x5408 + j) 6 w p m ∧ (j < 8) ∧ (live (m.regionState j) = true ∨ 1920 < m.objN (0x5408 + j) 2 + m.objN (0x5408 + j) 4) :=
  ⟨started (fun m => m.setN 0x540F 7 2), 7, svc32 0x4C4300A5, reaches_of (by decide +kernel)⟩

theorem meets_RegionUpdatesCapturesAndSignatures_3 : ∃ s : State, ∃ j : Nat, (s.m.regionState j = 1) ∧ ((s.m.graphic (s.m.regionJob j).layer).order.head? = some j) ∧ ((s.m.graphic (s.m.regionJob j).layer).busy.all (fun b => b.1 != (s.m.graphic (s.m.regionJob j).layer).target) = true) :=
  ⟨started (fun m => { m.setN 0x540F 7 1 with outs := { m.outs with graphics := [{ order := [7] }] } }), 7, by decide +kernel⟩

theorem meets_RegionUpdatesCapturesAndSignatures_4 : ∃ s : State, ∃ j : Nat, (j < 8) ∧ (s.m.regionState j = 2) ∧ ((s.m.regionJob j).layer < s.m.outs.graphics.length) ∧ (((regionReads (graphicBase (s.m.regionJob j).layer (s.m.graphic (s.m.regionJob j).layer).newest) (graphicBase (s.m.regionJob j).layer 0) (s.m.regionJob j).rect).filter (fun a => a.2 != 0)).any (fun a => s.m.poisonedAt a.1 a.2) = false) ∧ (s.m.poisonWaits = false) :=
  ⟨started (fun m => { m.setN 0x540F 7 2 with outs := { m.outs with graphics := [{ order := [7] }] } }), 7, by decide +kernel⟩

theorem meets_RegionUpdatesCapturesAndSignatures_5 : ∃ s : State, ∃ j : Nat, (j < 8) ∧ (s.m.regionState j = 2) ∧ (((regionReads (graphicBase (s.m.regionJob j).layer (s.m.graphic (s.m.regionJob j).layer).newest) (graphicBase (s.m.regionJob j).layer 0) (s.m.regionJob j).rect).filter (fun a => a.2 != 0)).any (fun a => s.m.poisonedAt a.1 a.2) = true) ∧ (s.m.poisonWaits = false) :=
  ⟨started (fun m => { (m.setN 0x540F 7 2).setN 0x540F 5 1 with outs := { m.outs with graphics := [{ order := [7] }] }, dram := { m.dram with fresh := (upTo 32).map (fun l => (⟨l, [], none⟩ : Fresh)) } }), 7, by decide +kernel⟩

theorem meets_RegionUpdatesCapturesAndSignatures_6 : ∃ s : State, ∃ g : Nat, ∃ x : HeldPatch, (s.m.coreUp 0 = true) ∧ (s.m.outs.held.find? (fun y => y.layer = g && !s.m.patchHeld g y.data) = some x) ∧ ((s.m.session? x.session).isSome = true) :=
  ⟨withSession (fun m => { m with outs := { m.outs with held := [⟨0, [0, 0, 0, 0, 0, 1, 0, 1, 1, 2, 3, 4, 5, 6], 1, ⟨0, true, 1, 9, linkLocal 0⟩, 3, [0, 0, 0, 1]⟩] } }), 0, ⟨0, [0, 0, 0, 0, 0, 1, 0, 1, 1, 2, 3, 4, 5, 6], 1, ⟨0, true, 1, 9, linkLocal 0⟩, 3, [0, 0, 0, 1]⟩, by decide +kernel⟩

theorem meets_RegionUpdatesCapturesAndSignatures_7 : ∃ s : State, ∃ w p m, Reaches s 0x5418 7 w p m ∧ (ofBE w.value = 0x4C4300C1) ∧ (p.n = 0x4C4300C1) ∧ (m.objN 0x5418 8 ≠ 1) ∧ (m.objN 0x5418 8 ≠ 2) ∧ (m.objN 0x5418 1 + m.objN 0x5418 3 ≤ 32) ∧ (m.objN 0x5418 2 + m.objN 0x5418 4 ≤ 30) ∧ (m.objN 0x5418 3 * m.objN 0x5418 4 ≤ 32) ∧ (m.objN 0x5418 3 * m.objN 0x5418 4 * m.objN 0x5418 5 * 13271072 ≤ 3489660928) ∧ (m.outs.stage = 0) ∧ (m.objN 0x5418 6 = 0 ∨ m.frameNo + 2 ≤ m.objN 0x5418 6) :=
  ⟨started id, svc32 0x4C4300C1, reaches_of (by decide +kernel)⟩

theorem meets_RegionUpdatesCapturesAndSignatures_8 : ∃ s : State, ∃ w p m, Reaches s 0x5418 7 w p m ∧ (ofBE w.value = 0x4C4300C1) ∧ (p.n = 0x4C4300C1) ∧ (1 ≤ m.outs.stage ∨ m.objN 0x5418 8 = 1 ∨ m.objN 0x5418 8 = 2) :=
  ⟨started (fun m => { m with outs := { m.outs with stage := 1 } }), svc32 0x4C4300C1, reaches_of (by decide +kernel)⟩

theorem meets_RegionUpdatesCapturesAndSignatures_9 : ∃ s : State, ∃ w p m, Reaches s 0x5418 7 w p m ∧ (ofBE w.value = 0x4C4300C0) ∧ (p.n = 0x4C4300C0) ∧ (m.objN 0x5418 8 = 1 ∨ m.objN 0x5418 8 = 2) :=
  ⟨started (fun m => m.setN 0x5418 8 2), svc32 0x4C4300C0, reaches_of (by decide +kernel)⟩

theorem meets_RegionUpdatesCapturesAndSignatures_10 : ∃ s : State, ∃ w p m, Reaches s 0x5418 7 w p m ∧ (ofBE w.value = 0x4C4300C0) ∧ (p.n = 0x4C4300C0) ∧ (m.objN 0x5418 8 ≠ 1) ∧ (m.objN 0x5418 8 ≠ 2) :=
  ⟨started id, svc32 0x4C4300C0, reaches_of (by decide +kernel)⟩

theorem meets_RegionUpdatesCapturesAndSignatures_11 : ∃ s : State, ∃ r : Nat, ∃ w p m, Reaches s (0x5420 + r) 1 w p m ∧ (r < 16) ∧ (p.v = 1) ∧ (m.objN (0x5420 + r) 2 + m.objN (0x5420 + r) 4 ≤ 1920) ∧ (m.objN (0x5420 + r) 3 + m.objN (0x5420 + r) 5 ≤ 1080) ∧ ((m.viewMask r).all (· = 0) = false) :=
  ⟨started id, 15, svc 1 [1], reaches_of (by decide +kernel)⟩

theorem meets_RegionUpdatesCapturesAndSignatures_12 : ∃ s : State, ∃ r : Nat, ∃ w p m, Reaches s (0x5420 + r) 1 w p m ∧ (r < 16) ∧ (p.v = 1) ∧ (1920 < m.objN (0x5420 + r) 2 + m.objN (0x5420 + r) 4 ∨ (m.viewMask r).all (· = 0) = true) :=
  ⟨started (fun m => m.setStr 0x542F 6 (List.replicate 128 0)), 15, svc 1 [1], reaches_of (by decide +kernel)⟩

theorem meets_RegionUpdatesCapturesAndSignatures_13 : ∃ s : State, ∃ r : Nat, ∃ w p m, Reaches s (0x5420 + r) 1 w p m ∧ (r < 16) ∧ (p.v = 0) :=
  ⟨started (fun m => m.setN 0x542F 1 1), 15, svc 1 [0], reaches_of (by decide +kernel)⟩

theorem meets_RegionUpdatesCapturesAndSignatures_14 : ∃ s : State, ∃ r : Nat, ∃ w p m, Reaches s (0x5420 + r) 9 w p m ∧ (r < 16) :=
  ⟨started id, 15, svc32 0x4C4300E1, reaches_of (by decide +kernel)⟩

theorem meets_CodecEnginesAndHostJobs_1 : ∃ s : State, ∃ e : Nat, (e < 20) ∧ (s.m.codec.decode.length = 20) ∧ (s.m.objN (0x7120 + e) 1 = 1) ∧ (s.m.objN (0x7120 + e) 3 < 2 ^ 16 - 1) :=
  ⟨started (fun m => { m.setN 0x7133 1 1 with codec := { m.codec with decode := setAt m.codec.decode 19 (.job 3) } }), 19, by decide +kernel⟩

theorem meets_CodecEnginesAndHostJobs_2 : ∃ s : State, ∃ e : Nat, (20 ≤ e ∨ s.m.objN (0x7120 + e) 1 ≠ 1) :=
  ⟨started id, 20, by decide +kernel⟩

theorem meets_CodecEnginesAndHostJobs_3 : ∃ s : State, ∃ i : Nat, (i < 4) ∧ (s.m.objN (0x7140 + i) 1 = 1) ∧ (2 ≤ s.m.encodeUsable) :=
  ⟨started (fun m => (m.setN 0x7140 1 1).setN 0x7143 1 1), 3, by decide +kernel⟩

theorem meets_CodecEnginesAndHostJobs_4 : ∃ s : State, ∃ i : Nat, ∃ j : Nat, (i < 4) ∧ (j < 8) ∧ (s.m.objN (0x7140 + i) 1 = 1) ∧ (s.m.encodeUsable = 1) ∧ ((s.m.job j).kind = 1) ∧ (s.m.jobState j = 1 ∨ s.m.jobState j = 2) :=
  ⟨started (fun m => { ((m.setN 0x7140 1 2).setN 0x7141 1 2 |>.setN 0x7142 1 2).setN 0x7143 1 1 |>.setN 0x7117 0x0D 2 with codec := { m.codec with jobs := m.codec.jobs.set 7 { kind := 1 }, order := [7] } }), 3, 7, by decide +kernel⟩

theorem meets_CodecEnginesAndHostJobs_5 : ∃ s : State, ∃ i : Nat, (4 ≤ i) :=
  ⟨started id, 4, by decide +kernel⟩

theorem meets_CodecEnginesAndHostJobs_6 : ∃ s : State, ∃ e : Nat, (20 ≤ e ∨ s.m.codec.decode.getD e .idle = .idle) :=
  ⟨started id, 20, by decide +kernel⟩

theorem meets_CodecEnginesAndHostJobs_7 : ∃ s : State, ∃ e : Nat, ∃ k : Nat, ∃ o : Nat, ∃ n : Nat, ∃ col : Nat, ∃ row : Nat, ∃ c : Content, ∃ l : List Sample, (e < 20) ∧ (k < 64) ∧ (s.m.armedAt 5 e = false) ∧ (s.m.armedAt 6 e = false) ∧ (s.m.codec.decode.getD e .idle = .content k o) ∧ ((s.m.layer k).decoding = some c) ∧ (c.ready.find? (fun r => r.1 = o) = some (o, n)) ∧ (c.poison.contains o = false) ∧ ((c.staged o n).all (fun r => !s.m.poisonedAt r.1 r.2) = true) ∧ (s.m.poisonWaits = false) ∧ (s.m.scene.recording.isNone = true) ∧ (judgeBlock ((c.read? o n).getD []) c.width c.height c.streamLayer (c.blocks.map Prod.snd) = .ok (col, row, l)) ∧ (s.m.takesBlock c col row = true) ∧ (s.m.objN 0x7103 1 < 2 ^ 64 - 1) :=
  ⟨started (fun m => { m with codec := { m.codec with decode := setAt m.codec.decode 0 (.content 63 0) }, scene := { m.scene with layers := m.scene.layers.set 63 { pending := [{ origin := .stream 0 0, heat := 5, span := 1, width := 1, height := 1, length := (storedBlock 0 0 0 1 1 [⟨1, 2, 3, 4⟩]).length, runs := [(0, storedBlock 0 0 0 1 1 [⟨1, 2, 3, 4⟩])], buf := some 0 }] } } }), 0, 63, 0, 28, 0, 0, { origin := .stream 0 0, heat := 5, span := 1, width := 1, height := 1, length := (storedBlock 0 0 0 1 1 [⟨1, 2, 3, 4⟩]).length, runs := [(0, storedBlock 0 0 0 1 1 [⟨1, 2, 3, 4⟩])], buf := some 0 }, [⟨1, 2, 3, 4⟩], by decide +kernel⟩

theorem meets_CodecEnginesAndHostJobs_8 : ∃ s : State, ∃ e : Nat, ∃ k : Nat, ∃ o : Nat, ∃ n : Nat, ∃ col : Nat, ∃ row : Nat, ∃ c : Content, ∃ l : List Sample, (e < 20) ∧ (k < 64) ∧ (s.m.armedAt 5 e = false) ∧ (s.m.armedAt 6 e = false) ∧ (s.m.codec.decode.getD e .idle = .content k o) ∧ ((s.m.layer k).decoding = some c) ∧ (c.ready.find? (fun r => r.1 = o) = some (o, n)) ∧ (c.poison.contains o = false) ∧ ((c.staged o n).all (fun r => !s.m.poisonedAt r.1 r.2) = true) ∧ (s.m.poisonWaits = false) ∧ (judgeBlock ((c.read? o n).getD []) c.width c.height c.streamLayer (c.blocks.map Prod.snd) = .ok (col, row, l)) ∧ (s.m.takesBlock c col row = true) ∧ (c.whole = true) ∧ (c.ready = [(o, c.length)]) ∧ (c.blocks = []) ∧ ((blockGrid c.width c.height).length = 1) ∧ ((match c.origin with | .upload _ => false | _ => true) = true) ∧ (s.m.objN (0x5140 + k) 8 < 2 ^ 64 - 1) :=
  ⟨started (fun m => { m with codec := { m.codec with decode := setAt m.codec.decode 0 (.content 63 0) }, scene := { m.scene with layers := m.scene.layers.set 63 { pending := [{ origin := .stream 0 0, heat := 5, span := 1, width := 1, height := 1, length := (storedBlock 0 0 0 1 1 [⟨1, 2, 3, 4⟩]).length, runs := [(0, storedBlock 0 0 0 1 1 [⟨1, 2, 3, 4⟩])], buf := some 0 }] } } }), 0, 63, 0, 28, 0, 0, { origin := .stream 0 0, heat := 5, span := 1, width := 1, height := 1, length := (storedBlock 0 0 0 1 1 [⟨1, 2, 3, 4⟩]).length, runs := [(0, storedBlock 0 0 0 1 1 [⟨1, 2, 3, 4⟩])], buf := some 0 }, [⟨1, 2, 3, 4⟩], by decide +kernel⟩

theorem meets_CodecEnginesAndHostJobs_9 : ∃ s : State, ∃ e : Nat, ∃ k : Nat, ∃ o : Nat, ∃ n : Nat, ∃ r : Nat, ∃ c : Content, (e < 20) ∧ (k < 64) ∧ (s.m.armedAt 5 e = false) ∧ (s.m.armedAt 6 e = false) ∧ (s.m.codec.decode.getD e .idle = .content k o) ∧ ((s.m.layer k).decoding = some c) ∧ (c.ready.find? (fun r => r.1 = o) = some (o, n)) ∧ (c.poison.contains o = false) ∧ ((c.staged o n).all (fun r => !s.m.poisonedAt r.1 r.2) = true) ∧ (s.m.poisonWaits = false) ∧ (judgeBlock ((c.read? o n).getD []) c.width c.height c.streamLayer (c.blocks.map Prod.snd) = .error r) ∧ (r ≠ 2) ∧ ((match c.origin with | .upload _ => false | _ => true) = true) ∧ (s.m.objN (0x5140 + k) 9 < 2 ^ 64 - 1) :=
  ⟨started (fun m => { m with codec := { m.codec with decode := setAt m.codec.decode 0 (.content 63 0) }, scene := { m.scene with layers := m.scene.layers.set 63 { pending := [{ origin := .stream 0 0, heat := 5, span := 1, width := 2, height := 1, length := (storedBlock 0 0 0 1 1 [⟨1, 2, 3, 4⟩]).length, runs := [(0, storedBlock 0 0 0 1 1 [⟨1, 2, 3, 4⟩])], buf := some 0 }] } } }), 0, 63, 0, 28, 4, { origin := .stream 0 0, heat := 5, span := 1, width := 2, height := 1, length := (storedBlock 0 0 0 1 1 [⟨1, 2, 3, 4⟩]).length, runs := [(0, storedBlock 0 0 0 1 1 [⟨1, 2, 3, 4⟩])], buf := some 0 }, by decide +kernel⟩

theorem meets_CodecEnginesAndHostJobs_10 : ∃ s : State, ∃ e : Nat, ∃ k : Nat, ∃ o : Nat, ∃ n : Nat, ∃ x : Bool, ∃ c : Content, ∃ z : Nat × Nat × List Sample, (e < 20) ∧ (k < 64) ∧ (s.m.armedAt 5 e = false) ∧ (s.m.armedAt 6 e = false) ∧ (s.m.codec.decode.getD e .idle = .content k o) ∧ ((s.m.layer k).decoding = some c) ∧ (c.ready.find? (fun r => r.1 = o) = some (o, n)) ∧ (c.poison.contains o = false) ∧ ((c.staged o n).all (fun r => !s.m.poisonedAt r.1 r.2) = true) ∧ (s.m.poisonWaits = false) ∧ (judgeBlock ((c.read? o n).getD []) c.width c.height c.streamLayer (c.blocks.map Prod.snd) = .error 2 ∨ x = true ∧ judgeBlock ((c.read? o n).getD []) c.width c.height c.streamLayer (c.blocks.map Prod.snd) = .ok z) :=
  ⟨started (fun m => { m with codec := { m.codec with decode := setAt m.codec.decode 0 (.content 63 0) }, scene := { m.scene with layers := m.scene.layers.set 63 { pending := [{ origin := .stream 0 0, heat := 5, span := 1, width := 1, height := 1, length := (storedBlock 0 0 0 1 1 [⟨1, 2, 3, 4⟩]).length, runs := [(0, storedBlock 0 0 0 1 1 [⟨1, 2, 3, 4⟩])], buf := some 0 }] } } }), 0, 63, 0, 28, true, { origin := .stream 0 0, heat := 5, span := 1, width := 1, height := 1, length := (storedBlock 0 0 0 1 1 [⟨1, 2, 3, 4⟩]).length, runs := [(0, storedBlock 0 0 0 1 1 [⟨1, 2, 3, 4⟩])], buf := some 0 }, (0, 0, [⟨1, 2, 3, 4⟩]), by decide +kernel⟩

theorem meets_CodecEnginesAndHostJobs_11 : ∃ s : State, ∃ e : Nat, ∃ f : Nat, ∃ k : Nat, ∃ o : Nat, ∃ n : Nat, ∃ col : Nat, ∃ row : Nat, ∃ c : Content, ∃ l : List Sample, (e < 20) ∧ (k < 64) ∧ (s.m.armedAt 5 e = false) ∧ (s.m.armedAt 6 e = false) ∧ (s.m.codec.decode.getD e .idle = .again k o f) ∧ ((s.m.layer k).decoding = some c) ∧ (c.ready.find? (fun r => r.1 = o) = some (o, n)) ∧ (c.poison.contains o = false) ∧ ((c.staged o n).all (fun r => !s.m.poisonedAt r.1 r.2) = true) ∧ (s.m.poisonWaits = false) ∧ (judgeBlock ((c.read? o n).getD []) c.width c.height c.streamLayer (c.blocks.map Prod.snd) = .ok (col, row, l)) ∧ (s.m.takesBlock c col row = true) ∧ (f < 20) ∧ (f ≠ e) ∧ (s.m.objN (0x7120 + f) 1 = 1) ∧ (s.m.objN (0x7120 + f) 3 < 2 ^ 16 - 1) :=
  ⟨started (fun m => { m.setN 0x7125 1 1 with codec := { m.codec with decode := setAt m.codec.decode 0 (.again 63 0 5) }, scene := { m.scene with layers := m.scene.layers.set 63 { pending := [{ origin := .stream 0 0, heat := 5, span := 1, width := 1, height := 1, length := (storedBlock 0 0 0 1 1 [⟨1, 2, 3, 4⟩]).length, runs := [(0, storedBlock 0 0 0 1 1 [⟨1, 2, 3, 4⟩])], buf := some 0 }] } } }), 0, 5, 63, 0, 28, 0, 0, { origin := .stream 0 0, heat := 5, span := 1, width := 1, height := 1, length := (storedBlock 0 0 0 1 1 [⟨1, 2, 3, 4⟩]).length, runs := [(0, storedBlock 0 0 0 1 1 [⟨1, 2, 3, 4⟩])], buf := some 0 }, [⟨1, 2, 3, 4⟩], by decide +kernel⟩

theorem meets_CodecEnginesAndHostJobs_12 : ∃ s : State, ∃ e : Nat, ∃ j : Nat, ∃ st : Nat, ∃ r : Nat, (e < 20) ∧ (j < 8) ∧ (s.m.armedAt 5 e = false) ∧ (s.m.codec.decode.getD e .idle = .job j) ∧ (s.m.armedAt 6 e = false) ∧ (s.m.poisonWaits = false) ∧ (s.m.codec.jobs.length = 8) ∧ ((s.m.decodeWork s.ctx j allTokens).stop = some (st, r)) ∧ ((st, r) ≠ (7, 1)) :=
  ⟨started (fun m => { m.setN 0x7117 0x0D 2 with codec := { m.codec with jobs := m.codec.jobs.set 7 { inLen := 15, outCap := 6 }, decode := setAt m.codec.decode 2 (.job 7), order := [7] } }), 2, 7, 6, 0, by decide +kernel⟩

theorem meets_CodecEnginesAndHostJobs_13 : ∃ s : State, ∃ e : Nat, ∃ j : Nat, (e < 20) ∧ (j < 8) ∧ (s.m.armedAt 5 e = false) ∧ (s.m.codec.decode.getD e .idle = .job j) ∧ ((s.m.decodeWork s.ctx j allTokens).stop = some (7, 7)) :=
  ⟨started (fun m => { ({ m.setN 0x7117 0x0D 2 with dram := { m.dram with fresh := (upTo 32).map (fun l => (⟨l, [], none⟩ : Fresh)) } } : Mach) with codec := { m.codec with jobs := m.codec.jobs.set 7 { inLen := 15, outCap := 6 }, decode := setAt m.codec.decode 2 (.job 7), order := [7] } }), 2, 7, by decide +kernel⟩

theorem meets_CodecEnginesAndHostJobs_14 : ∃ s : State, ∃ i : Nat, (4 ≤ i ∨ s.m.codec.encode.getD i .idle = .idle) :=
  ⟨started id, 4, by decide +kernel⟩

theorem meets_CodecEnginesAndHostJobs_15 : ∃ s : State, ∃ i : Nat, ∃ j : Nat, ∃ col : Nat, ∃ row : Nat, ∃ w : Nat, ∃ h : Nat, (i < 4) ∧ (j < 8) ∧ (s.m.armedAt 7 i = false) ∧ (s.m.codec.encode.getD i .idle = .job j) ∧ (s.m.codec.jobs.length = 8) ∧ (s.m.poisonWaits = false) ∧ ((s.m.job j).pos.phase = 0) ∧ ((s.m.job j).nextBlock + 1 = (blockGrid (s.m.job j).width (s.m.job j).height).length) ∧ ((blockGrid (s.m.job j).width (s.m.job j).height).getD (s.m.job j).nextBlock (0, 0) = (col, row)) ∧ (blockSize (s.m.job j).width (s.m.job j).height col row = (w, h)) ∧ (s.m.encodePoison j (col, row) (w, h) = false) ∧ ((encodeBlock (s.m.job j).layer col row w h (imageBlock s.ctx (s.m.job j) col row w h) false).length ≤ (s.m.job j).outCap - ((s.m.job j).pos.outBytes - (s.m.job j).outBase)) ∧ (s.m.objN 0x7103 3 < 2 ^ 64 - 1) :=
  ⟨started (fun m => { m.setN 0x7117 0x0D 2 with codec := { m.codec with jobs := m.codec.jobs.set 7 { kind := 1, width := 1, height := 1, pitch := 6, outOff := 64, outCap := 100 }, encode := setAt m.codec.encode 3 (.job 7), order := [7] } }), 3, 7, 0, 0, 1, 1, by decide +kernel⟩

theorem meets_CodecEnginesAndHostJobs_16 : ∃ s : State, ∃ j : Nat, ∃ w p m, Reaches s (0x7110 + j) 0x0C w p m ∧ (j < 8) ∧ (ofBE w.value = 0x4C430071) ∧ (p.n = 0x4C430071) ∧ (m.jobRefused p.c j = none) ∧ (m.objN (0x7110 + j) 1 ≠ 1 ∨ 0 < m.encodeUsable) ∧ (m.objN (0x7110 + j) 0x0B ≠ 1 ∨ m.poisonedAt (jobBase + m.objN (0x7110 + j) 6) 64 = false) :=
  ⟨started id, 7, svc32 0x4C430071, reaches_of (by decide +kernel)⟩

theorem meets_CodecEnginesAndHostJobs_17 : ∃ s : State, ∃ j : Nat, ∃ w p m, Reaches s (0x7110 + j) 0x0C w p m ∧ (j < 8) ∧ (ofBE w.value = 0x4C430071) ∧ (p.n = 0x4C430071) ∧ (m.jobRefused p.c j = none) ∧ (m.objN (0x7110 + j) 1 = 1 ∧ m.encodeUsable = 0 ∨ m.objN (0x7110 + j) 0x0B = 1 ∧ m.poisonedAt (jobBase + m.objN (0x7110 + j) 6) 64 = true) :=
  ⟨started (fun m => each (upTo 4) ((((m.setN 0x7117 1 1).setN 0x7117 7 1).setN 0x7117 8 1).setN 0x7117 9 6) (fun m i => m.setN (0x7140 + i) 1 2)), 7, svc32 0x4C430071, reaches_of (by decide +kernel)⟩

theorem meets_CodecEnginesAndHostJobs_18 : ∃ s : State, ∃ j : Nat, ∃ w p m, Reaches s (0x7110 + j) 0x0C w p m ∧ (j < 8) ∧ (ofBE w.value = 0x4C430071) ∧ (p.n = 0x4C430071) ∧ ((m.jobRefused p.c j).isSome = true) :=
  ⟨started (fun m => m.setN 0x7117 0x0D 2), 7, svc32 0x4C430071, reaches_of (by decide +kernel)⟩

theorem meets_CodecEnginesAndHostJobs_19 : ∃ s : State, ∃ j : Nat, ∃ tokens : Nat, ∃ w p m, Reaches s (0x7110 + j) 0x0C w p m (hint := some tokens) ∧ (j < 8) ∧ (ofBE w.value = 0x4C430070) ∧ (p.n = 0x4C430070) ∧ (m.jobState j = 1) ∧ (m.codec.jobs.length = 8) :=
  ⟨started (fun m => { m.setN 0x7117 0x0D 1 with codec := { m.codec with jobs := m.codec.jobs.set 7 { recOff := 128 }, order := [7] } }), 7, 5, svc32 0x4C430070, reaches_of (by decide +kernel)⟩

theorem meets_CodecEnginesAndHostJobs_20 : ∃ s : State, ∃ j : Nat, ∃ tokens : Nat, ∃ w p m, Reaches s (0x7110 + j) 0x0C w p m (hint := some tokens) ∧ (j < 8) ∧ (ofBE w.value = 0x4C430070) ∧ (p.n = 0x4C430070) ∧ (m.jobState j = 3 ∨ m.jobState j = 2 ∧ m.engineOf j = none ∨ m.jobState j = 2 ∧ (m.job j).kind ≠ 0 ∧ tokens = 0) :=
  ⟨started (fun m => { m.setN 0x7117 0x0D 3 with codec := { m.codec with jobs := m.codec.jobs.set 7 { recOff := 128 }, order := [7] } }), 7, 5, svc32 0x4C430070, reaches_of (by decide +kernel)⟩

theorem meets_CodecEnginesAndHostJobs_21 : ∃ s : State, ∃ j : Nat, ∃ tokens : Nat, ∃ e : Nat, ∃ w p m, Reaches s (0x7110 + j) 0x0C w p m (hint := some tokens) ∧ (j < 8) ∧ (ofBE w.value = 0x4C430070) ∧ (p.n = 0x4C430070) ∧ (m.jobState j = 2) ∧ (m.engineOf j = some e) ∧ ((m.job j).kind = 0) ∧ (m.poisonWaits = false) ∧ ((m.decodeWork p.c j tokens).stop = none) :=
  ⟨started (fun m => { m.setN 0x7117 0x0D 2 with codec := { m.codec with jobs := m.codec.jobs.set 7 { inLen := 30 }, decode := setAt m.codec.decode 2 (.job 7), order := [7] } }), 7, 0, 2, svc32 0x4C430070, reaches_of (by decide +kernel)⟩

theorem meets_CodecEnginesAndHostJobs_22 : ∃ s : State, ∃ j : Nat, ∃ tokens : Nat, ∃ w p m, Reaches s (0x7110 + j) 0x0C w p m (hint := some tokens) ∧ (j < 8) ∧ (ofBE w.value = 0x4C430070) ∧ (p.n = 0x4C430070) ∧ (m.jobState j = 0 ∨ 4 ≤ m.jobState j) :=
  ⟨started id, 7, 5, svc32 0x4C430070, reaches_of (by decide +kernel)⟩

theorem meets_CodecEnginesAndHostJobs_23 : ∃ s : State, ∃ j : Nat, ∃ e : Nat, (j < 8) ∧ (s.m.jobState j = 1) ∧ (s.m.codec.order.find? (fun i => s.m.jobState i = 1 ∧ (s.m.job i).kind = (s.m.job j).kind) = some j) ∧ (s.m.jobHeld j = false) ∧ (s.m.power ≤ 1) ∧ (s.m.engineFor j e = true) ∧ (s.m.codec.decode.length = 20) ∧ (s.m.codec.encode.length = 4) :=
  ⟨started (fun m => { (m.setN 0x7117 0x0D 1).setN 0x7133 1 1 with codec := { m.codec with jobs := m.codec.jobs.set 7 {}, order := [7] } }), 7, 19, by decide +kernel⟩

theorem meets_CodecEnginesAndHostJobs_24 : ∃ s : State, ∃ j : Nat, ∃ e : Nat, (s.m.jobHeld j = true ∨ 2 ≤ s.m.power ∨ s.m.engineFor j e = false) :=
  ⟨started (fun m => m.setN 0x2000 6 5), 7, 19, by decide +kernel⟩

theorem meets_DrawingRunsItsElementsInOrder_1 : ∃ s : State, ∃ w p m, Reaches s 0x5800 0x0B w p m ∧ (ofBE w.value = 0x4C430081) ∧ (p.n = 0x4C430081) ∧ (m.drawState 0 ≠ 1) ∧ (m.drawRefused 0 m.drawRegisters = none) ∧ (0 < m.outs.drawing.length) :=
  ⟨started (fun m => (((((((({ m with outs := { m.outs with drawing := [{ op := { op := 1, w := 2, h := 1, dst := 0x2A0000000, dpitch := 16, fg := 77 } }, { op := { op := 1, w := 2, h := 1, dst := 0x2A0000000, dpitch := 16, fg := 77 } }] } } : Mach).setN 0x5800 0x0C 2).setN 0x5801 1 2).setN 0x5800 6 2).setN 0x5800 7 1).setN 0x5800 1 0x401).setN 0x5800 4 0x2A0000000).setN 0x5800 8 77).setN 0x5800 5 16), svc32 0x4C430081, reaches_of (by decide +kernel)⟩

theorem meets_DrawingRunsItsElementsInOrder_2 : ∃ s : State, ∃ w p m, Reaches s 0x5800 0x0B w p m ∧ (ofBE w.value = 0x4C430081) ∧ (p.n = 0x4C430081) ∧ (m.drawState 0 = 1 ∨ (m.drawRefused 0 m.drawRegisters).isSome = true) :=
  ⟨started (fun m => (((((((({ m with outs := { m.outs with drawing := [{ op := { op := 1, w := 2, h := 1, dst := 0x2A0000000, dpitch := 16, fg := 77 } }, { op := { op := 1, w := 2, h := 1, dst := 0x2A0000000, dpitch := 16, fg := 77 } }] } } : Mach).setN 0x5800 0x0C 1).setN 0x5801 1 1).setN 0x5800 6 2).setN 0x5800 7 1).setN 0x5800 1 0x401).setN 0x5800 4 0x2A0000000).setN 0x5800 8 77).setN 0x5800 5 16), svc32 0x4C430081, reaches_of (by decide +kernel)⟩

theorem meets_DrawingRunsItsElementsInOrder_3 : ∃ s : State, ∃ o : DrawOp, (s.m.power ≤ 2) ∧ (s.m.drawState 1 ≠ 1) ∧ (s.m.drawRefused 1 o = none) ∧ (1 < s.m.outs.drawing.length) :=
  ⟨started id (power := 2), { op := 1, w := 2, h := 1, dst := 0x249000010, dpitch := 16 }, by decide +kernel⟩

theorem meets_DrawingRunsItsElementsInOrder_4 : ∃ s : State, ∃ o : DrawOp, (3 ≤ s.m.power ∨ s.m.drawState 1 = 1 ∨ (s.m.drawRefused 1 o).isSome = true) :=
  ⟨started id (power := 2), { op := 3 }, by decide +kernel⟩

theorem meets_DrawingRunsItsElementsInOrder_5 : ∃ s : State, ∃ done : Nat, ∃ w p m, Reaches s 0x5800 0x0B w p m (hint := some done) ∧ (ofBE w.value = 0x4C430080) ∧ (p.n = 0x4C430080) ∧ (m.drawState 0 = 1) ∧ (m.poisonWaits = false) ∧ (((m.drawOp 0).order.take done).all (fun e => !m.elementPoisoned s.mem (m.drawOp 0) e) = true) :=
  ⟨started (fun m => (((((((({ m with outs := { m.outs with drawing := [{ op := { op := 1, w := 2, h := 1, dst := 0x2A0000000, dpitch := 16, fg := 77 } }, { op := { op := 1, w := 2, h := 1, dst := 0x2A0000000, dpitch := 16, fg := 77 } }] } } : Mach).setN 0x5800 0x0C 1).setN 0x5801 1 1).setN 0x5800 6 2).setN 0x5800 7 1).setN 0x5800 1 0x401).setN 0x5800 4 0x2A0000000).setN 0x5800 8 77).setN 0x5800 5 16), 1, svc32 0x4C430080, reaches_of (by decide +kernel)⟩

theorem meets_DrawingRunsItsElementsInOrder_6 : ∃ s : State, ∃ done : Nat, ∃ w p m, Reaches s 0x5800 0x0B w p m (hint := some done) ∧ (ofBE w.value = 0x4C430080) ∧ (p.n = 0x4C430080) ∧ (m.drawState 0 ≠ 1) :=
  ⟨started (fun m => (((((((({ m with outs := { m.outs with drawing := [{ op := { op := 1, w := 2, h := 1, dst := 0x2A0000000, dpitch := 16, fg := 77 } }, { op := { op := 1, w := 2, h := 1, dst := 0x2A0000000, dpitch := 16, fg := 77 } }] } } : Mach).setN 0x5800 0x0C 2).setN 0x5801 1 2).setN 0x5800 6 2).setN 0x5800 7 1).setN 0x5800 1 0x401).setN 0x5800 4 0x2A0000000).setN 0x5800 8 77).setN 0x5800 5 16), 1, svc32 0x4C430080, reaches_of (by decide +kernel)⟩

theorem meets_DrawingRunsItsElementsInOrder_7 : ∃ s : State, ∃ ch : Nat, ∃ x : Option DrawOp, (ch < 2) ∧ (ch = 0 ∨ x = none) ∧ (s.m.drawState ch = 1) ∧ (s.m.poisonWaits = false) ∧ (((s.m.drawOp ch).order.take ((s.m.drawOp ch).w * (s.m.drawOp ch).h)).all (fun e => !s.m.elementPoisoned s.mem (s.m.drawOp ch) e) = true) ∧ (s.m.objN 0x5800 0x0E < 2 ^ 64 - 1) :=
  ⟨started (fun m => (((((((({ m with outs := { m.outs with drawing := [{ op := { op := 1, w := 2, h := 1, dst := 0x2A0000000, dpitch := 16, fg := 77 } }, { op := { op := 1, w := 2, h := 1, dst := 0x2A0000000, dpitch := 16, fg := 77 } }] } } : Mach).setN 0x5800 0x0C 1).setN 0x5801 1 1).setN 0x5800 6 2).setN 0x5800 7 1).setN 0x5800 1 0x401).setN 0x5800 4 0x2A0000000).setN 0x5800 8 77).setN 0x5800 5 16), 1, none, by decide +kernel⟩

theorem meets_DrawingRunsItsElementsInOrder_8 : ∃ s : State, ∃ o : DrawOp, (s.m.drawState 1 = 1) ∧ (s.m.power ≤ 2) ∧ (1 < s.m.outs.drawing.length) ∧ (s.m.drawRefused 1 o = none) ∧ (s.m.poisonWaits = false) ∧ (((s.m.drawOp 1).order.take ((s.m.drawOp 1).w * (s.m.drawOp 1).h)).all (fun e => !s.m.elementPoisoned s.mem (s.m.drawOp 1) e) = true) :=
  ⟨started (fun m => (((((((({ m with outs := { m.outs with drawing := [{ op := { op := 1, w := 2, h := 1, dst := 0x2A0000000, dpitch := 16, fg := 77 } }, { op := { op := 1, w := 2, h := 1, dst := 0x2A0000000, dpitch := 16, fg := 77 } }] } } : Mach).setN 0x5800 0x0C 1).setN 0x5801 1 1).setN 0x5800 6 2).setN 0x5800 7 1).setN 0x5800 1 0x401).setN 0x5800 4 0x2A0000000).setN 0x5800 8 77).setN 0x5800 5 16), { op := 1, w := 2, h := 1, dst := 0x249000010, dpitch := 16 }, by decide +kernel⟩

theorem meets_DrawingRunsItsElementsInOrder_9 : ∃ s : State, ∃ o : DrawOp, (s.m.drawState 1 = 1) ∧ (3 ≤ s.m.power ∨ (s.m.drawRefused 1 o).isSome = true) ∧ (s.m.poisonWaits = false) ∧ (((s.m.drawOp 1).order.take ((s.m.drawOp 1).w * (s.m.drawOp 1).h)).all (fun e => !s.m.elementPoisoned s.mem (s.m.drawOp 1) e) = true) :=
  ⟨started (fun m => (((((((({ m with outs := { m.outs with drawing := [{ op := { op := 1, w := 2, h := 1, dst := 0x2A0000000, dpitch := 16, fg := 77 } }, { op := { op := 1, w := 2, h := 1, dst := 0x2A0000000, dpitch := 16, fg := 77 } }] } } : Mach).setN 0x5800 0x0C 1).setN 0x5801 1 1).setN 0x5800 6 2).setN 0x5800 7 1).setN 0x5800 1 0x401).setN 0x5800 4 0x2A0000000).setN 0x5800 8 77).setN 0x5800 5 16), { op := 3 }, by decide +kernel⟩

theorem meets_DrawingRunsItsElementsInOrder_10 : ∃ s : State, ∃ ch : Nat, (ch < 2) ∧ (s.m.drawState ch = 1) ∧ (s.m.poisonWaits = false) ∧ ((s.m.drawOp ch).order.any (fun e => s.m.elementPoisoned s.mem (s.m.drawOp ch) e) = true) :=
  ⟨started (fun m => (((((((({ ({ m with dram := { m.dram with fresh := (upTo 32).map (fun l => (⟨l, [], none⟩ : Fresh)) } } : Mach) with outs := { m.outs with drawing := [{ op := { op := 0, w := 2, h := 1, dst := 0x2A0000000, dpitch := 16, src := 0x2A0000100, spitch := 16 } }, { op := { op := 0, w := 2, h := 1, dst := 0x2A0000000, dpitch := 16, src := 0x2A0000100, spitch := 16 } }] } } : Mach).setN 0x5800 0x0C 1).setN 0x5801 1 1).setN 0x5800 6 2).setN 0x5800 7 1).setN 0x5800 1 0x401).setN 0x5800 4 0x2A0000000).setN 0x5800 8 77).setN 0x5800 5 16), 0, by decide +kernel⟩

theorem meets_DrawingRunsItsElementsInOrder_11 : ∃ s : State, ∃ ch : Nat, (2 ≤ ch ∨ s.m.drawState ch ≠ 1) :=
  ⟨started id, 1, by decide +kernel⟩

theorem meets_DrawingRunsItsElementsInOrder_12 : ∃ s : State, ∃ ch : Nat, ∃ done : Nat, (ch < 2) ∧ (s.m.drawState ch = 1) ∧ ((s.m.outs.drawing.getD ch {}).since + us 100 ≤ s.m.now) ∧ (s.m.poisonWaits = false) ∧ (((s.m.drawOp ch).order.take done).all (fun e => !s.m.elementPoisoned s.mem (s.m.drawOp ch) e) = true) :=
  ⟨started (fun m => (((((((({ ({ m with clk := { m.clk with mono := us 100 } } : Mach) with outs := { m.outs with drawing := [{ op := { op := 1, w := 2, h := 1, dst := 0x2A0000000, dpitch := 16, fg := 77 } }, { op := { op := 1, w := 2, h := 1, dst := 0x2A0000000, dpitch := 16, fg := 77 } }] } } : Mach).setN 0x5800 0x0C 1).setN 0x5801 1 1).setN 0x5800 6 2).setN 0x5800 7 1).setN 0x5800 1 0x401).setN 0x5800 4 0x2A0000000).setN 0x5800 8 77).setN 0x5800 5 16), 0, 1, by decide +kernel⟩

theorem meets_DrawingRunsItsElementsInOrder_13 : ∃ s : State, ∃ ch : Nat, (2 ≤ ch ∨ s.m.drawState ch ≠ 1 ∨ s.m.now < (s.m.outs.drawing.getD ch {}).since + us 100) :=
  ⟨started (fun m => (((((((({ m with outs := { m.outs with drawing := [{ op := { op := 1, w := 2, h := 1, dst := 0x2A0000000, dpitch := 16, fg := 77 } }, { op := { op := 1, w := 2, h := 1, dst := 0x2A0000000, dpitch := 16, fg := 77 } }] } } : Mach).setN 0x5800 0x0C 1).setN 0x5801 1 1).setN 0x5800 6 2).setN 0x5800 7 1).setN 0x5800 1 0x401).setN 0x5800 4 0x2A0000000).setN 0x5800 8 77).setN 0x5800 5 16), 0, by decide +kernel⟩

theorem meets_DramIsRefreshedPatrolledAndTakenOver_1 : ∃ s : State, ∃ p : Nat, ∃ r : Nat, ∃ n : Nat, ∃ k : Nat, (p < 36) ∧ (s.m.dram.chans.length = 36) ∧ ((s.m.chan p).ranks.length = 2) ∧ (r < 2) ∧ (s.m.chanActive p = true) ∧ ((s.m.chan p).selfRefresh = 0) ∧ (((s.m.chan p).ranks.getD r {}).dueAt + ns (refreshInterval ((s.m.chan p).ranks.getD r {}).band) ≤ s.m.now) ∧ ((((s.m.chan p).ranks.getD r {}).issue n k).pulled = 0) ∧ (7 ≤ (((s.m.chan p).ranks.getD r {}).issue n k).owed) ∧ (s.m.objN (0x7010 + p) 8 < 2 ^ 64 - 1) :=
  ⟨started (fun m => { m.setN 0x7033 1 1 with clk := { m.clk with mono := us 100 }, dram := { m.dram with chans := m.dram.chans.set 35 { ranks := [{}, { owed := 8 }] } } }), 35, 1, 1, 3, by decide +kernel⟩

theorem meets_DramIsRefreshedPatrolledAndTakenOver_2 : ∃ s : State, ∃ p : Nat, ∃ r : Nat, ∃ n : Nat, ∃ k : Nat, (p < 36) ∧ (s.m.dram.chans.length = 36) ∧ ((s.m.chan p).ranks.length = 2) ∧ (r < 2) ∧ (s.m.chanActive p = true) ∧ ((s.m.chan p).selfRefresh = 0) ∧ (((s.m.chan p).ranks.getD r {}).dueAt + ns (refreshInterval ((s.m.chan p).ranks.getD r {}).band) ≤ s.m.now) ∧ ((((s.m.chan p).ranks.getD r {}).issue n k).pulled = 0) ∧ ((((s.m.chan p).ranks.getD r {}).issue n k).owed < 7) :=
  ⟨started (fun m => { m.setN 0x7033 1 1 with clk := { m.clk with mono := us 100 }, dram := { m.dram with chans := m.dram.chans.set 35 { ranks := [{}, { owed := 6 }] } } }), 35, 1, 0, 1, by decide +kernel⟩

theorem meets_DramIsRefreshedPatrolledAndTakenOver_3 : ∃ s : State, ∃ p : Nat, ∃ r : Nat, ∃ n : Nat, ∃ k : Nat, (p < 36) ∧ (s.m.dram.chans.length = 36) ∧ ((s.m.chan p).ranks.length = 2) ∧ (r < 2) ∧ (s.m.chanActive p = true) ∧ ((s.m.chan p).selfRefresh = 0) ∧ (((s.m.chan p).ranks.getD r {}).dueAt + ns (refreshInterval ((s.m.chan p).ranks.getD r {}).band) ≤ s.m.now) ∧ ((((s.m.chan p).ranks.getD r {}).issue n k).pulled = 0) :=
  ⟨started (fun m => { m.setN 0x7033 1 1 with clk := { m.clk with mono := us 100 }, dram := { m.dram with chans := m.dram.chans.set 35 { ranks := [{}, { owed := 6 }] } } }), 35, 1, 6, 0, by decide +kernel⟩

theorem meets_DramIsRefreshedPatrolledAndTakenOver_4 : ∃ s : State, ∃ p : Nat, ∃ r : Nat, ∃ n : Nat, ∃ k : Nat, (p < 36) ∧ (s.m.dram.chans.length = 36) ∧ ((s.m.chan p).ranks.length = 2) ∧ (r < 2) ∧ (s.m.chanActive p = true) ∧ ((s.m.chan p).selfRefresh = 0) ∧ (((s.m.chan p).ranks.getD r {}).dueAt + ns (refreshInterval ((s.m.chan p).ranks.getD r {}).band) ≤ s.m.now) ∧ (((s.m.chan p).ranks.getD r {}).owed ≤ n) ∧ (0 < ((s.m.chan p).ranks.getD r {}).pulled + k) ∧ (((s.m.chan p).ranks.getD r {}).pulled ≤ 8) :=
  ⟨started (fun m => { m.setN 0x7033 1 1 with clk := { m.clk with mono := us 100 }, dram := { m.dram with chans := m.dram.chans.set 35 { ranks := [{}, { owed := 6 }] } } }), 35, 1, 6, 9, by decide +kernel⟩

theorem meets_DramIsRefreshedPatrolledAndTakenOver_5 : ∃ s : State, ∃ p : Nat, ∃ r : Nat, (2 ≤ r ∨ s.m.chanActive p = false ∨ (s.m.chan p).selfRefresh ≠ 0) :=
  ⟨started id, 35, 2, by decide +kernel⟩

theorem meets_DramIsRefreshedPatrolledAndTakenOver_6 : ∃ s : State, ∃ bands : List Nat, ∃ p : Nat, (p < 36) ∧ (s.m.dram.chans.length = 36) ∧ ((s.m.chan p).ranks.length = 2) ∧ (bands.all (· < 5) = true) ∧ (s.m.settled = true) ∧ (s.m.dram.mr4At + us 250 ≤ s.m.now) ∧ (s.m.power ≤ 2) ∧ (s.m.chanActive p = true) :=
  ⟨started (fun m => { m.setN 0x7033 1 1 with clk := { m.clk with mono := us 250 } }), List.replicate 71 1 ++ [4], 35, by decide +kernel⟩

theorem meets_DramIsRefreshedPatrolledAndTakenOver_7 : ∃ s : State, ∃ a : Nat, (addressable a = true) ∧ (s.m.power ≤ 2) ∧ (4 ≤ s.m.boot.step) ∧ ((s.m.physical a).1 < 36) ∧ (s.m.dram.chans.length = 36) ∧ ((s.m.chan (s.m.physical a).1).poison.length < 4096) ∧ (s.m.objN (0x7010 + (s.m.physical a).1) 6 < 2 ^ 32 - 1) :=
  ⟨started (fun m => each (upTo 32) m (fun m l => m.setN (0x7040 + l) 1 l)), 0x1FFFFFFFFF, by decide +kernel⟩

theorem meets_DramIsRefreshedPatrolledAndTakenOver_8 : ∃ s : State, ∃ a : Nat, ∃ j : Nat, (addressable a = true) ∧ (s.m.power ≤ 2) ∧ (4 ≤ s.m.boot.step) ∧ (j < 8) ∧ (s.m.jobState j = 2) :=
  ⟨started (fun m => m.setN 0x7117 0x0D 2), 0x2A0000000, 7, by decide +kernel⟩

theorem meets_DramIsRefreshedPatrolledAndTakenOver_9 : ∃ s : State, ∃ a : Nat, ∃ j : Nat, (addressable a = true) ∧ (s.m.power ≤ 2) ∧ (4 ≤ s.m.boot.step) ∧ (j < 8) ∧ (s.m.regionState j = 2) :=
  ⟨started (fun m => m.setN 0x540F 7 2), 0x2A0000000, 7, by decide +kernel⟩

theorem meets_DramIsRefreshedPatrolledAndTakenOver_10 : ∃ s : State, ∃ a : Nat, (addressable a = false ∨ 3 ≤ s.m.power ∨ s.m.boot.step < 4) :=
  ⟨started id, 0x2000000000, by decide +kernel⟩

theorem meets_DramIsRefreshedPatrolledAndTakenOver_13 : ∃ s : State, ∃ p : Nat, ∃ n : Nat, (p < s.m.dram.chans.length) ∧ (s.m.power = 2) ∧ (s.m.chanActive p = true) ∧ ((s.m.chan p).selfRefresh = 0) ∧ (s.m.objN 0x7000 9 ≤ n) :=
  ⟨started (fun m => m.setN 0x7033 1 1) (power := 2), 35, 100, by decide +kernel⟩

theorem meets_DramIsRefreshedPatrolledAndTakenOver_14 : ∃ s : State, ∃ p : Nat, ∃ n : Nat, (s.m.power ≠ 2 ∨ (s.m.chan p).selfRefresh ≠ 0 ∨ n < s.m.objN 0x7000 9) :=
  ⟨started id, 35, 99, by decide +kernel⟩

theorem meets_DramIsRefreshedPatrolledAndTakenOver_15 : ∃ s : State, ∃ p : Nat, (p < s.m.dram.chans.length) ∧ ((s.m.chan p).selfRefresh = 1) :=
  ⟨started (fun m => { m.setN 0x7033 1 1 with dram := { m.dram with chans := m.dram.chans.set 35 { selfRefresh := 1, tapHeld := 5 } } }), 35, by decide +kernel⟩

theorem meets_DramIsRefreshedPatrolledAndTakenOver_16 : ∃ s : State, ∃ p : Nat, (p < s.m.dram.chans.length) ∧ ((s.m.chan p).selfRefresh ≠ 0) :=
  ⟨started (fun m => { m.setN 0x7033 1 1 with dram := { m.dram with chans := m.dram.chans.set 35 { selfRefresh := 2, tapHeld := 5 } } }), 35, by decide +kernel⟩

theorem meets_DramIsRefreshedPatrolledAndTakenOver_17 : ∃ s : State, ∃ p : Nat, ((s.m.chan p).selfRefresh = 0) :=
  ⟨started id, 35, by decide +kernel⟩

theorem meets_DramIsRefreshedPatrolledAndTakenOver_18 : ∃ s : State, (s.m.dram.zqAt + ms 32 ≤ s.m.now) ∧ (s.m.power ≤ 2) :=
  ⟨started (fun m => { m with clk := { m.clk with mono := ms 32 } }), by decide +kernel⟩

theorem meets_DramIsRefreshedPatrolledAndTakenOver_19 : ∃ s : State, (s.m.now < s.m.dram.zqAt + ms 32 ∨ 3 ≤ s.m.power) :=
  ⟨started id, by decide +kernel⟩

theorem meets_DramIsRefreshedPatrolledAndTakenOver_20 : ∃ s : State, ∃ p : Nat, (p < 36) ∧ (s.m.dram.chans.length = 36) ∧ (s.m.dram.oscAt + ms 16 ≤ s.m.now) ∧ (s.m.power ≤ 2) ∧ (s.m.chanActive p = true) :=
  ⟨started (fun m => { m.setN 0x7033 1 1 with clk := { m.clk with mono := ms 16 } }), 35, by decide +kernel⟩

theorem meets_DramIsRefreshedPatrolledAndTakenOver_21 : ∃ s : State, ∃ l : Nat, ∃ k : Nat, ∃ q : Nat, ∃ x : List (Nat × Nat), (s.m.testing = none) ∧ (s.m.dram.takeOver = none) ∧ (s.m.dram.waiting = (l, k) :: x) ∧ (s.m.power ≤ 2) ∧ (8 ≤ s.m.boot.step) ∧ (s.m.boot.shut = 0) ∧ (s.m.coreUp 3 = true) ∧ (q < 36) ∧ ((upTo 36).find? (fun p => s.m.objN (0x7010 + p) 1 = 0 && !s.m.dram.failed.contains p) = some q) :=
  ⟨started (fun m => { each (upTo 34) m (fun m p => m.setN (0x7010 + p) 1 1) with dram := { m.dram with waiting := [(31, 3)], failed := [34] } }), 31, 3, 35, [], by decide +kernel⟩

theorem meets_DramIsRefreshedPatrolledAndTakenOver_22 : ∃ s : State, (s.m.dram.takeOver.isSome = true ∨ s.m.dram.waiting = [] ∨ 3 ≤ s.m.power ∨ s.m.coreUp 3 = false) :=
  ⟨started id, by decide +kernel⟩

theorem meets_DramIsRefreshedPatrolledAndTakenOver_23 : ∃ s : State, ∃ l : Nat, ∃ w p m, Reaches s 0x7060 1 w p m ∧ (p.n = 0x4C430900 + l) ∧ (m.dram.takeOver = none) ∧ (l ∉ m.dram.waiting.map Prod.fst) ∧ (m.objN (0x7040 + l) 1 ≠ 0xFF) :=
  ⟨withSession id (life := .service), 31, signed 0x7060 1 4 (beBytes 4 0x4C43091F), reaches_of (by decide +kernel)⟩

theorem meets_DramIsRefreshedPatrolledAndTakenOver_24 : ∃ s : State, ∃ w p m, Reaches s 0x7060 1 w p m ∧ (m.dram.takeOver.isSome = true) :=
  ⟨withSession (fun m => { m with dram := { m.dram with takeOver := some { logical := 31, old := 31, spare := some 35, cause := 3, dead := false, phase := 2, restarts := 0, copied := 0, rate := 4, since := 0 } } }) (life := .service), signed 0x7060 1 4 (beBytes 4 0x4C43091F), reaches_of (by decide +kernel)⟩

theorem meets_DramIsRefreshedPatrolledAndTakenOver_25 : ∃ s : State, ∃ l : List Nat, ∃ q : Nat, ∃ y : TakeOver, (s.m.dram.takeOver = some y) ∧ (y.phase = 1) ∧ (y.spare = some q) ∧ (q < 36) ∧ (2 ≤ l.length) ∧ (s.m.objN (0x7010 + q) 0x0A < 2 ^ 32 - 2) :=
  ⟨started (fun m => { m with dram := { m.dram with takeOver := some { logical := 31, old := 31, spare := some 35, cause := 3, dead := false, phase := 1, restarts := 0, copied := 0, rate := 4, since := 0 } } }), [0, 4], 35, { logical := 31, old := 31, spare := some 35, cause := 3, dead := false, phase := 1, restarts := 0, copied := 0, rate := 4, since := 0 }, by decide +kernel⟩

theorem meets_DramIsRefreshedPatrolledAndTakenOver_26 : ∃ s : State, ∃ l : List Nat, ∃ q : Nat, ∃ y : TakeOver, (s.m.dram.takeOver = some y) ∧ (y.phase = 1) ∧ (y.spare = some q) ∧ (q < 36) ∧ (s.m.dram.chans.length = 36) ∧ (l.length < 2) ∧ (s.m.objN (0x7010 + q) 0x0A < 2 ^ 32 - 1) :=
  ⟨started (fun m => { m with dram := { m.dram with takeOver := some { logical := 31, old := 31, spare := some 35, cause := 3, dead := false, phase := 1, restarts := 0, copied := 0, rate := 4, since := 0 } } }), [3], 35, { logical := 31, old := 31, spare := some 35, cause := 3, dead := false, phase := 1, restarts := 0, copied := 0, rate := 4, since := 0 }, by decide +kernel⟩

theorem meets_DramIsRefreshedPatrolledAndTakenOver_27 : ∃ s : State, (s.m.dram.takeOver = none) :=
  ⟨started id, by decide +kernel⟩

theorem meets_DramIsRefreshedPatrolledAndTakenOver_28 : ∃ s : State, (s.m.dram.takeOver.map TakeOver.phase = some 2) :=
  ⟨started (fun m => { m with dram := { m.dram with takeOver := some { logical := 31, old := 31, spare := some 35, cause := 3, dead := false, phase := 2, restarts := 0, copied := 0, rate := 4, since := 0 } } }), by decide +kernel⟩

theorem meets_DramIsRefreshedPatrolledAndTakenOver_29 : ∃ s : State, (s.m.dram.takeOver.map TakeOver.phase ≠ some 2) :=
  ⟨started id, by decide +kernel⟩

theorem meets_DramIsRefreshedPatrolledAndTakenOver_30 : ∃ s : State, ∃ p : Nat, ∃ n : Nat, ∃ k : Nat, (p < s.m.dram.chans.length) ∧ (s.m.power ≤ 2) ∧ (s.m.objN 0x2200 1 = 0) ∧ (s.m.chanActive p = true) ∧ (s.m.armedAt 8 p = false) ∧ (s.m.armedAt 10 p = false) ∧ (s.m.objN (0x7010 + p) 4 + n < 2 ^ 64) ∧ (s.m.objN (0x7010 + p) 5 + k < 2 ^ 64) :=
  ⟨started (fun m => { (m.setN 0x7033 1 1).setN 0x7033 2 3 with dram := { m.dram with chans := m.dram.chans.set 35 { scrub := 0x1FFFFFC0 } } }), 35, 3, 2, by decide +kernel⟩

theorem meets_DramIsRefreshedPatrolledAndTakenOver_31 : ∃ s : State, ∃ p : Nat, ∃ l : Nat, (s.m.backs p = some l) ∧ (s.m.chanActive p = true) ∧ (s.m.objN (0x7040 + l) 1 = p) ∧ (p < 0xFF) ∧ (s.m.power ≤ 2) ∧ (s.m.dram.takeOver = none) ∧ (l ∉ s.m.dram.waiting.map Prod.fst) :=
  ⟨started (fun m => ((m.setN 0x7023 2 3).setN 0x7023 1 1).setN 0x7043 1 19), 19, 3, by decide +kernel⟩

theorem meets_DramIsRefreshedPatrolledAndTakenOver_32 : ∃ s : State, ∃ p : Nat, ∃ x : ScrubReport, (3 ≤ s.m.power ∨ 1 ≤ s.m.objN 0x2200 1 ∧ x.silent = false ∨ s.m.chanActive p = false) :=
  ⟨started id, 35, { codewords := 3 }, by decide +kernel⟩

theorem meets_LaneStatesFollowTheirEvents_1 : ∃ s : State, ∃ l : Nat, (s.m.tx l = 2) ∧ (l < s.m.lanes.length) :=
  ⟨started (fun m => (m.setTx 3 2).setRx 3 4), 3, by decide +kernel⟩

theorem meets_LaneStatesFollowTheirEvents_2 : ∃ s : State, ∃ l : Nat, (s.m.rx l = 4) :=
  ⟨started (fun m => (m.setTx 3 4).setRx 3 4), 3, by decide +kernel⟩

theorem meets_LaneStatesFollowTheirEvents_3 : ∃ s : State, ∃ l : Nat, ∃ n : Nat, (s.m.rx l = 4) ∧ (n ≠ 0) ∧ (l < s.m.lanes.length) :=
  ⟨started (fun m => m.setRx 191 4), 191, 15, by decide +kernel⟩

theorem meets_LaneStatesFollowTheirEvents_4 : ∃ s : State, ∃ l : Nat, (s.m.tx l = 3) ∧ (l < s.m.lanes.length) :=
  ⟨started (fun m => (m.setTx 0 3).onLane 0 (fun x => { x with pllDone := true })), 0, by decide +kernel⟩

theorem meets_LaneStatesFollowTheirEvents_5 : ∃ s : State, ∃ l : Nat, (s.m.tx l = 3) ∧ (l < s.m.lanes.length) :=
  ⟨started (fun m => (m.setTx 0 3).onLane 0 (fun x => { x with patternDone := true })), 0, by decide +kernel⟩

theorem meets_LaneStatesFollowTheirEvents_6 : ∃ s : State, ∃ l : Nat, (s.m.rx l = 2) ∧ (l < s.m.lanes.length) :=
  ⟨started (fun m => m.setRx 7 2), 7, by decide +kernel⟩

theorem meets_LaneStatesFollowTheirEvents_7 : ∃ s : State, ∃ l : Nat, ((s.m.lane l).pendingWake = true) ∧ (s.m.tx l = 1) ∧ ((s.m.lane l).deepAt + us 2 ≤ s.m.now) :=
  ⟨started (fun m => ({ m with clk := { m.clk with mono := us 2 } } : Mach).setTx 4 1 |>.onLane 4 (fun x => { x with pendingWake := true })), 4, by decide +kernel⟩

theorem meets_LaneStatesFollowTheirEvents_8 : ∃ s : State, ∃ c : Nat, (c < 96) ∧ (s.m.power ≤ 1) ∧ (s.m.laneMode (2 * c) = 0) ∧ (s.m.laneMode (2 * c + 1) = 0) ∧ (s.m.tx (2 * c) = 4) ∧ (s.m.tx (2 * c + 1) = 4) ∧ (s.m.deepHolds (2 * c) = true) ∧ (s.m.deepHolds (2 * c + 1) = true) :=
  ⟨started (fun m => ({ m with clk := { m.clk with mono := sec 1 } } : Mach).setTx 0 4 |>.setTx 1 4), 0, by decide +kernel⟩

theorem meets_LaneStatesFollowTheirEvents_9 : ∃ s : State, ∃ l : Nat, (l < 192) ∧ (s.m.lanes.length = 192) ∧ (s.m.laneMode l = 0) ∧ (s.m.power ≤ 1) ∧ (s.m.power_.stop ≠ some 3) ∧ (s.m.power_.entry = none) ∧ (s.m.tx l = 1) ∧ (s.m.rx l = 1) ∧ ((s.m.lane l).deepAt + us 2 ≤ s.m.now) ∧ (s.m.objN (0x6010 + l) 0x16 < 4294967295) :=
  ⟨started (fun m => ({ m with clk := { m.clk with mono := us 2 } } : Mach).setTx 9 1 |>.setRx 9 1), 9, by decide +kernel⟩

theorem meets_LaneStatesFollowTheirEvents_10 : ∃ s : State, ∃ l : Nat, (l < 192) ∧ (s.m.lanes.length = 192) ∧ (s.m.laneMode l = 0) ∧ (s.m.power ≤ 1) ∧ (s.m.power_.stop ≠ some 3) ∧ (s.m.power_.entry = none) ∧ (s.m.tx l = 1) ∧ (s.m.now < (s.m.lane l).deepAt + us 2) ∧ (s.m.rx l = 1) ∧ (s.m.objN (0x6010 + l) 0x16 < 4294967295) :=
  ⟨started (fun m => (m.setTx 9 1).setRx 9 1), 9, by decide +kernel⟩

theorem meets_LaneLockAndHeaderErrors_1 : ∃ s : State, ∃ l : Nat, ∃ a : Level, ∃ x : List Level, (l < 192) ∧ (l < s.m.lanes.length) ∧ (s.m.boot.shut = 0) ∧ (x.length = 64) ∧ ((s.m.lane l).begun = []) ∧ (s.m.rx l = 3) ∧ ((s.m.lane l).slip = false) ∧ (a = .minus1 ∨ a = .plus3) ∧ ((s.m.lane l).badHeaders = 0) ∧ ((s.m.lane l).good < 63) :=
  ⟨started (fun m => (m.setRx 5 3).onLane 5 (fun x => { x with good := 62 })), 5, .minus1, List.replicate 64 .plus1, by decide +kernel⟩

theorem meets_LaneLockAndHeaderErrors_2 : ∃ s : State, ∃ l : Nat, ∃ a : Level, ∃ x : List Level, (l < 192) ∧ (l < s.m.lanes.length) ∧ (s.m.boot.shut = 0) ∧ (x.length = 64) ∧ ((s.m.lane l).begun = []) ∧ (s.m.rx l = 3) ∧ ((s.m.lane l).slip = false) ∧ (a = .minus1 ∨ a = .plus3) ∧ ((s.m.lane l).badHeaders = 0) ∧ ((s.m.lane l).good = 63) :=
  ⟨started (fun m => (m.setRx 5 3).onLane 5 (fun x => { x with good := 63 })), 5, .plus3, List.replicate 64 .plus1, by decide +kernel⟩

theorem meets_LaneLockAndHeaderErrors_3 : ∃ s : State, ∃ l : Nat, ∃ a : Level, ∃ x : List Level, (l < 192) ∧ (l < s.m.lanes.length) ∧ (s.m.boot.shut = 0) ∧ (x.length = 64) ∧ ((s.m.lane l).begun = []) ∧ (s.m.rx l = 3) ∧ ((s.m.lane l).slip = false) ∧ (a = .minus3 ∨ a = .plus1) :=
  ⟨started (fun m => (m.setRx 5 3).onLane 5 (fun x => { x with good := 63 })), 5, .minus3, List.replicate 64 .plus1, by decide +kernel⟩

theorem meets_LaneLockAndHeaderErrors_4 : ∃ s : State, ∃ l : Nat, ∃ x : List Level, (l < 192) ∧ (l < s.m.lanes.length) ∧ (s.m.boot.shut = 0) ∧ (x.length = 64) ∧ ((s.m.lane l).begun = []) ∧ (s.m.rx l = 3) ∧ ((s.m.lane l).slip = true) :=
  ⟨started (fun m => (m.setRx 5 3).onLane 5 (fun x => { x with slip := true })), 5, List.replicate 64 .plus1, by decide +kernel⟩

theorem meets_LaneLockAndHeaderErrors_5 : ∃ s : State, ∃ l : Nat, ∃ a : Level, ∃ x : List Level, (l < 192) ∧ (l < s.m.lanes.length) ∧ (s.m.boot.shut = 0) ∧ (x.length = 64) ∧ ((s.m.lane l).begun = []) ∧ (s.m.rx l = 4) ∧ ((s.m.lane l).slip = false) ∧ ((s.m.lane l).arriving = none) ∧ (a = .minus3 ∨ a = .plus1) ∧ ((((s.m.lane l).window.take 63).filter (fun v => !v)).length < 15) ∧ (s.m.objN (0x6010 + l) 6 < 18446744073709551615) :=
  ⟨started (fun m => (m.setRx 5 4).onLane 5 (fun x => { x with window := List.replicate 14 false })), 5, .plus1, List.replicate 64 .plus1, by decide +kernel⟩

theorem meets_LaneLockAndHeaderErrors_6 : ∃ s : State, ∃ l : Nat, ∃ a : Level, ∃ x : List Level, (l < 192) ∧ (l < s.m.lanes.length) ∧ (s.m.boot.shut = 0) ∧ (x.length = 64) ∧ ((s.m.lane l).begun = []) ∧ (s.m.rx l = 4) ∧ ((s.m.lane l).slip = false) ∧ (a = .minus3 ∨ a = .plus1) ∧ (15 ≤ (((s.m.lane l).window.take 63).filter (fun v => !v)).length) ∧ ((s.m.lane l).sleepAgo = none) ∧ (s.m.objN (0x6010 + l) 7 < 4294967295) :=
  ⟨started (fun m => (m.setRx 5 4).onLane 5 (fun x => { x with window := List.replicate 15 false })), 5, .plus1, List.replicate 64 .plus1, by decide +kernel⟩

theorem meets_LaneLockAndHeaderErrors_7 : ∃ s : State, ∃ l : Nat, (l < 192) ∧ (l < s.m.lanes.length) ∧ (l / 2 < s.m.tiles.chains.length) ∧ (s.m.coreUp 2 = true) ∧ (s.m.rx l = 3) ∧ ((s.m.lane l).alarmed = false) ∧ ((s.m.lane l).huntAt + us (s.m.objN 0x6000 6) ≤ s.m.now) :=
  ⟨started (fun m => ({ m with clk := { m.clk with mono := us 100 } } : Mach).setRx 6 3), 6, by decide +kernel⟩

theorem meets_LaneModesAndTestPatterns_1 : ∃ s : State, ∃ l : Nat, ∃ w p m, Reaches s (0x6010 + l) 1 w p m ∧ (l < 192) ∧ (p.n = 0 ∨ p.n = 3 ∨ m.chainMapped (l / 2) = false) :=
  ⟨started id, 3, svc 2 [2], reaches_of (by decide +kernel)⟩

theorem meets_LaneModesAndTestPatterns_2 : ∃ s : State, ∃ l : Nat, ∃ w p m, Reaches s (0x6010 + l) 1 w p m ∧ (l < 192) ∧ (p.n = 1 ∨ p.n = 2) ∧ (m.chainMapped (l / 2) = true) :=
  ⟨started (fun m => ((m.setN 0x6181 1 4 (tileBank 1 0)).onTile 1 0 (fun x => { x with entry := 5 }))), 3, svc 2 [2], reaches_of (by decide +kernel)⟩

theorem meets_LaneModesAndTestPatterns_3 : ∃ s : State, ∃ l : Nat, ∃ w p m, Reaches s (0x6010 + l) 0x11 w p m ∧ (l < 192) :=
  ⟨started (fun m => m.setN 0x6013 0x0F 7), 3, svc32 0x4C430600, reaches_of (by decide +kernel)⟩

theorem meets_LaneModesAndTestPatterns_4 : ∃ s : State, ∃ l : Nat, ∃ x : Level, ∃ a : Bool, ∃ b : Bool, (Level.bits x = [a, b]) ∧ (s.m.rx l = 5) ∧ (s.m.laneMode l = 1) ∧ (s.m.objB (0x6010 + l) 0x0E = true) ∧ ((s.m.lane l).flip = false) ∧ ((s.m.lane l).checker.hist.length = 31) ∧ ((s.m.lane l).checker.errors.length < 62) ∧ (s.m.objN (0x6010 + l) 0x0F < 18446744073709551614) ∧ (s.m.objN (0x6010 + l) 0x10 < 18446744073709551614) :=
  ⟨started (fun m => ((((m.setN 0x6013 1 1).setRx 3 5).setB 0x6013 0x0E true).onLane 3 (fun x => { x with checker := { hist := List.replicate 31 true, run := 2000, errors := [] } }))), 3, .plus3, true, false, by decide +kernel⟩

theorem meets_LaneModesAndTestPatterns_5 : ∃ s : State, ∃ l : Nat, ∃ w p m, Reaches s (0x6010 + l) 0x14 w p m ∧ (l < 192) ∧ (l < m.lanes.length) ∧ (ofBE w.value = 0x4C430061) ∧ (p.n = 0x4C430061) ∧ (m.injectionAllowed s.ctx = true) ∧ (m.objN (0x6010 + l) 0x12 ≠ 5) :=
  ⟨started id, 3, svc32 0x4C430061, reaches_of (by decide +kernel)⟩

theorem meets_LaneModesAndTestPatterns_6 : ∃ s : State, ∃ l : Nat, ∃ w p m, Reaches s (0x6010 + l) 0x14 w p m ∧ (l < 192) ∧ (l < m.lanes.length) ∧ (ofBE w.value = 0x4C430061) ∧ (p.n = 0x4C430061) ∧ (m.injectionAllowed s.ctx = true) ∧ (m.objN (0x6010 + l) 0x12 = 5) ∧ (m.tx l = 4) ∧ (m.objN (0x6010 + l) 0x15 < 4294967295) :=
  ⟨started (fun m => (m.setN 0x6013 0x12 5).setTx 3 4), 3, svc32 0x4C430061, reaches_of (by decide +kernel)⟩

theorem meets_LaneModesAndTestPatterns_7 : ∃ s : State, ∃ l : Nat, ∃ w p m, Reaches s (0x6010 + l) 0x14 w p m ∧ (l < 192) ∧ (ofBE w.value = 0x4C430061) ∧ (p.n = 0x4C430061) ∧ (m.injectionAllowed s.ctx = false) :=
  ⟨withSession id, 3, signed 0x6013 0x14 4 (beBytes 4 0x4C430061), reaches_of (by decide +kernel)⟩

theorem meets_LaneModesAndTestPatterns_8 : ∃ s : State, ∃ l : Nat, ∃ w p m, Reaches s (0x6010 + l) 0x14 w p m ∧ (l < 192) ∧ (l < m.lanes.length) ∧ (ofBE w.value = 0x4C430060) ∧ (p.n = 0x4C430060) ∧ ((m.lane l).armed ≠ 0) :=
  ⟨started (fun m => m.onLane 3 (fun x => { x with armed := 2, flip := true })), 3, svc32 0x4C430060, reaches_of (by decide +kernel)⟩

theorem meets_LaneModesAndTestPatterns_9 : ∃ s : State, ∃ l : Nat, (s.m.injectionAllowed s.ctx = true) ∧ (l < s.m.lanes.length) ∧ ((s.m.lane l).armed = 2) ∧ ((s.m.lane l).injectAt + bitsTime (s.m.objN (0x6010 + l) 0x13) ≤ s.m.now) :=
  ⟨started (fun m => ({ m with clk := { m.clk with mono := bitsTime 1000000 } } : Mach).onLane 3 (fun x => { x with armed := 2 })), 3, by decide +kernel⟩

theorem meets_TilesAreFoundProbedAndLoaded_1 : ∃ s : State, ∃ r : EnumReply, (s.m.boot.shut ≠ 2) ∧ (s.m.coreUp 2 = true) ∧ (r.c < s.m.tiles.chains.length) ∧ (r.c < 96) ∧ (r.hop < s.m.chainLength r.c) ∧ (s.m.chainLength r.c ≤ 10) ∧ (r.fromB = false) ∧ (r.last = false) ∧ (s.m.tileState r.c r.hop = 0) ∧ ((s.m.chain r.c).fromA = []) ∧ ((s.m.chain r.c).fromB = []) :=
  ⟨started id, ⟨41, false, 7, 0xABCDEF, 1, 2, true, false, false⟩, by decide +kernel⟩

theorem meets_TilesAreFoundProbedAndLoaded_2 : ∃ s : State, ∃ r : EnumReply, (s.m.boot.shut ≠ 2) ∧ (s.m.coreUp 2 = true) ∧ (r.c < 96) ∧ (s.m.chainLength r.c ≤ r.hop) ∧ (10 ≤ r.hop) ∧ (r.fromB = false) ∧ (r.last = false) ∧ (s.m.objN 0x1200 4 ≠ 0) :=
  ⟨started id, ⟨41, false, 11, 5, 1, 2, true, false, false⟩, by decide +kernel⟩

theorem meets_TilesAreFoundProbedAndLoaded_3 : ∃ s : State, ∃ c : Nat, ∃ pos : Nat, ∃ id : Nat, ∃ roundTrip : Nat, (s.m.boot.shut ≠ 2) ∧ (s.m.coreUp 2 = true) ∧ (c < s.m.tiles.chains.length) ∧ (pos < (s.m.chain c).tiles.length) ∧ (c < 96) ∧ (pos < 10) ∧ (id < 16) ∧ (s.m.tileState c pos = 1) ∧ ((s.m.tile c pos).probes.length = 15) ∧ ((((s.m.tile c pos).probes.sum + roundTrip) / 16 - ns 40) / 2 ≤ ns 3000) :=
  ⟨started (fun m => (m.setN 0x6181 1 1 (tileBank 41 7)).onTile 41 7 (fun x => { x with probes := List.replicate 15 (ns 431) })), 41, 7, 15, ns 431, by decide +kernel⟩

theorem meets_TilesAreFoundProbedAndLoaded_4 : ∃ s : State, ∃ c : Nat, ∃ pos : Nat, ∃ id : Nat, ∃ roundTrip : Nat, (s.m.boot.shut ≠ 2) ∧ (s.m.coreUp 2 = true) ∧ (c < s.m.tiles.chains.length) ∧ (pos < (s.m.chain c).tiles.length) ∧ (c < 96) ∧ (pos < 10) ∧ (id < 16) ∧ (s.m.tileState c pos = 1) ∧ ((s.m.tile c pos).probes.length = 15) ∧ (ns 3000 < (((s.m.tile c pos).probes.sum + roundTrip) / 16 - ns 40) / 2) :=
  ⟨started (fun m => (m.setN 0x6181 1 1 (tileBank 41 7)).onTile 41 7 (fun x => { x with probes := List.replicate 15 (ns 9000) })), 41, 7, 15, ns 9000, by decide +kernel⟩

theorem meets_TilesAreFoundProbedAndLoaded_5 : ∃ s : State, ∃ c : Nat, ∃ pos : Nat, ∃ reg : Nat, ∃ value : Nat, (s.m.coreUp 2 = true) ∧ (c < s.m.tiles.chains.length) ∧ (pos < (s.m.chain c).tiles.length) ∧ (s.m.tileState c pos = 1) ∧ (reg = 1) ∧ (value = symbolsOf (s.m.tile c pos).delay) ∧ (s.m.objN 0x6181 6 (tileBank c pos) = psOf (s.m.tile c pos).delay) ∧ ((s.m.tile c pos).gainInFlash = true) :=
  ⟨started (fun m => (m.setN 0x6181 1 1 (tileBank 41 7)).onTile 41 7 (fun x => { x with gainInFlash := true })), 41, 7, 1, 0, by decide +kernel⟩

theorem meets_TilesAreFoundProbedAndLoaded_6 : ∃ s : State, ∃ c : Nat, ∃ pos : Nat, (c < 96) ∧ (pos < 10) ∧ (c < s.m.tiles.chains.length) ∧ (pos < (s.m.chain c).tiles.length) ∧ (s.m.tileState c pos ≠ 0) :=
  ⟨started (fun m => m.setN 0x6181 1 4 (tileBank 3 9)), 3, 9, by decide +kernel⟩

theorem meets_TilesAreFoundProbedAndLoaded_7 : ∃ s : State, ∃ c : Nat, ∃ pos : Nat, (s.m.boot.shut ≠ 2) ∧ (s.m.coreUp 2 = true) ∧ (c < s.m.tiles.chains.length) ∧ (s.m.tileState c pos = 5) ∧ ((s.m.tile c pos).lostAt + ms (s.m.objN 0x6100 4) ≤ s.m.now) :=
  ⟨started (fun m => { m with clk := { m.clk with mono := ms 500 } } |>.setN 0x6181 1 5 (tileBank 3 9) |>.setN 0x6181 2 99 (tileBank 3 9)), 3, 9, by decide +kernel⟩

theorem meets_TilesAreFoundProbedAndLoaded_8 : ∃ s : State, ∃ c : Nat, (s.m.coreUp 2 = true) ∧ (c < 96) ∧ (c < s.m.tiles.chains.length) ∧ ((s.m.chain c).probeAt + sec 10 ≤ s.m.now) :=
  ⟨started (fun m => { m with clk := { m.clk with mono := sec 10 } }), 95, by decide +kernel⟩

theorem meets_SegmentsAndCommitsAreAcknowledged_1 : ∃ s : State, ∃ l : Nat, ∃ g : Seg, (l < 192) ∧ (l < s.m.lanes.length) ∧ (s.m.tx l = 4) ∧ ((s.m.lane l).naked = []) ∧ ((s.m.lane l).cur = none) ∧ ((s.m.lane l).staged = [g]) ∧ (g.kind = 0) ∧ (g.version = 1) ∧ (s.m.armedAt 11 (l / 2) = false) ∧ (s.m.objN 0x6401 1 = 0) :=
  ⟨started (fun m => (m.setTx 6 4).onLane 6 (fun x => { x with staged := [⟨2, 1, 0, 9, 0, 0, 0, 60, 0, 5, List.replicate 16 1⟩] })), 6, ⟨2, 1, 0, 9, 0, 0, 0, 60, 0, 5, List.replicate 16 1⟩, by decide +kernel⟩

theorem meets_SegmentsAndCommitsAreAcknowledged_2 : ∃ s : State, ∃ c : Nat, ∃ pos : Nat, ∃ kind : Nat, (c < 96) ∧ (pos < 10) ∧ (kind < 7) :=
  ⟨started (fun m => m.onLane 6 (fun x => { x with unacked := [(⟨2, 1, 0, 9, 0, 0, 0, 60, 0, 5, [1]⟩, 0), (⟨2, 1, 0, 9, 1, 0, 0, 60, 0, 5, [1]⟩, 0)] })), 3, 2, 0, by decide +kernel⟩

theorem meets_SegmentsAndCommitsAreAcknowledged_3 : ∃ s : State, ∃ c : Nat, ∃ pos : Nat, ∃ version : Nat, ∃ tag : Nat, ∃ n : Nat, ∃ v : Pour, (c < 96) ∧ (pos < 10) ∧ (s.m.heat.pours.find? (fun x => x.c = c ∧ x.pos = pos) = some v) ∧ ((v.ver version).state = 5) ∧ ((v.ver version).rendered = true) ∧ ((v.ver version).stopped = false) ∧ (s.m.timeWord ≤ s.m.commitAt) ∧ (tag = s.m.heat.number % 256) ∧ ((s.m.lane (s.m.feedLane c pos)).staged = []) ∧ ((s.m.lane (s.m.feedLane c pos)).naked = []) ∧ ((s.m.lane (s.m.feedLane c pos)).unacked.all (fun g => g.1.seq ≤ n) = true) ∧ (s.m.feedLane c pos / 2 = c) :=
  ⟨started (fun m => m.onHeat (fun h => { h with number := 9, running := true, pours := [{ panel := 5, c := 3, pos := 2, v1 := { state := 5, rendered := true } }] }) |>.setN 0x5000 6 1000000000), 3, 2, 1, 9, 0, { panel := 5, c := 3, pos := 2, v1 := { state := 5, rendered := true } }, by decide +kernel⟩

theorem meets_SegmentsAndCommitsAreAcknowledged_4 : ∃ s : State, ∃ c : Nat, ∃ pos : Nat, (c < 96) ∧ (pos < 10) :=
  ⟨started (fun m => m.onTile 3 2 (fun x => { x with commits := [⟨9, 1, false, 0⟩] })), 3, 2, by decide +kernel⟩

theorem meets_SegmentsAndCommitsAreAcknowledged_5 : ∃ s : State, ∃ c : Nat, ∃ pos : Nat, ∃ version : Nat, ∃ kind : Nat, ∃ tag : Nat, ∃ n : Nat, ∃ g : Seg, ∃ at_ : Nat, (c < 96) ∧ (s.m.feedLane c pos < s.m.lanes.length) ∧ ((s.m.lane (s.m.feedLane c pos)).unacked.find? (fun x => x.1.of pos version kind tag && x.1.seq = n) = some (g, at_)) ∧ (s.m.timeToResend (s.m.feedLane c pos) g = true) ∧ (s.m.objN (0x6110 + c) 7 < 18446744073709551615) :=
  ⟨started (fun m => m.onLane 6 (fun x => { x with unacked := [(⟨2, 0, 1, 0, 3, 0, 0, 60, 0, 5, [1]⟩, 0)] })), 3, 2, 0, 1, 0, 3, ⟨2, 0, 1, 0, 3, 0, 0, 60, 0, 5, [1]⟩, 0, by decide +kernel⟩

theorem meets_SegmentsAndCommitsAreAcknowledged_6 : ∃ s : State, ∃ l : Nat, ∃ pos : Nat, ∃ version : Nat, ∃ kind : Nat, ∃ n : Nat, ∃ g : Seg, ∃ at_ : Nat, (l < s.m.lanes.length) ∧ ((s.m.lane l).unacked = [(g, at_)]) ∧ (g.pos = pos) ∧ (g.kind = kind) ∧ (g.version = version) ∧ (g.seq = n) ∧ (l < 192) ∧ (at_ + us 20 ≤ s.m.now) ∧ (s.m.timeToResend l g = true) ∧ ((s.m.chain (l / 2)).brk = none) ∧ (s.m.objN (0x6110 + l / 2) 7 < 18446744073709551615) :=
  ⟨started (fun m => { m with clk := { m.clk with mono := us 20 } } |>.onLane 6 (fun x => { x with unacked := [(⟨2, 0, 1, 0, 3, 0, 0, 60, 0, 5, [1]⟩, 0)] })), 6, 2, 0, 1, 3, ⟨2, 0, 1, 0, 3, 0, 0, 60, 0, 5, [1]⟩, 0, by decide +kernel⟩

theorem meets_SegmentsAndCommitsAreAcknowledged_7 : ∃ s : State, ∃ c : Nat, ∃ pos : Nat, ∃ k : CommitSent, ((s.m.tile c pos).commits = [k]) ∧ (k.sentAt + us 10 ≤ s.m.now) ∧ (s.m.timeWord + us 20 ≤ s.m.tickAt k.heat) ∧ (k.withdraw = false) ∧ (s.m.tx (s.m.feedLane c pos) = 4) ∧ (c < s.m.tiles.chains.length) ∧ (pos < (s.m.chain c).tiles.length) ∧ (s.m.objN 0x6401 1 = 0) :=
  ⟨started (fun m => { m with clk := { m.clk with mono := us 10 } } |>.setTx 6 4 |>.setN 0x5000 6 10000000000 |>.onTile 3 2 (fun x => { x with commits := [⟨9, 1, false, 0⟩] })), 3, 2, ⟨9, 1, false, 0⟩, by decide +kernel⟩

theorem meets_SegmentsAndCommitsAreAcknowledged_8 : ∃ s : State, ∃ c : Nat, ∃ pos : Nat, ∃ k : CommitSent, (s.m.coreUp 2 = true) ∧ ((s.m.chain c).brk = none) ∧ (c < s.m.tiles.chains.length) ∧ (pos < (s.m.chain c).tiles.length) ∧ (c < 96) ∧ (pos < 10) ∧ ((s.m.tile c pos).commits = [k]) ∧ (s.m.tickAt k.heat ≤ s.m.timeWord + us 20) ∧ (s.m.objN 0x6181 9 (tileBank c pos) < 4294967295) :=
  ⟨started (fun m => m.onTile 3 2 (fun x => { x with commits := [⟨0, 1, false, 0⟩] })), 3, 2, ⟨0, 1, false, 0⟩, by decide +kernel⟩

theorem meets_SegmentsAndCommitsAreAcknowledged_9 : ∃ s : State, ∃ c : Nat, ∃ h : Nat, ∃ slot : Nat, (c < 96) ∧ (c < s.m.tiles.chains.length) ∧ (s.m.scheduled = true) ∧ (s.m.startTick = none) ∧ (slot < s.m.slotsOf h) ∧ (s.m.timeWord < s.m.slotAt h slot) ∧ (s.m.slotAt h slot ≤ s.m.timeWord + ns 4000) ∧ (s.m.tx (2 * c) = 4) ∧ (s.m.objN 0x6401 1 = 0) :=
  ⟨started (fun m => ((m.setN 0x5000 0x0A 2).setN 0x5000 6 (ns 4000)).setTx 6 4), 3, 0, 0, by decide +kernel⟩

theorem meets_ChainsBreakHealAndReport_1 : ∃ s : State, ∃ c : Nat, ∃ pos : Nat, (s.m.boot.shut ≠ 2) ∧ (s.m.coreUp 2 = true) ∧ (c < 96) ∧ (pos < 10) ∧ (c < s.m.tiles.chains.length) ∧ ((s.m.chain c).brk = none) ∧ ((s.m.chain c).aReach = none) ∧ ((s.m.chain c).window = none) :=
  ⟨started id, 41, 6, by decide +kernel⟩

theorem meets_ChainsBreakHealAndReport_2 : ∃ s : State, ∃ c : Nat, ∃ pos : Nat, ∃ code : Nat, (s.m.boot.shut ≠ 2) ∧ (s.m.coreUp 2 = true) ∧ (c < 96) ∧ (pos < 10) ∧ (5 ≤ code) ∧ (code ≤ 8) ∧ (s.m.jrn.rates = []) ∧ (s.m.objN 0x1200 4 ≠ 0) :=
  ⟨started id, 41, 6, 7, by decide +kernel⟩

theorem meets_ChainsBreakHealAndReport_3 : ∃ s : State, ∃ c : Nat, ∃ b : Break, (s.m.boot.shut ≠ 2) ∧ (s.m.coreUp 2 = true) ∧ (c < s.m.tiles.chains.length) ∧ ((s.m.chain c).brk = some b) ∧ (b.bFirst = none) ∧ (b.asked = false) ∧ (b.since + us 200 ≤ s.m.now) ∧ (s.m.rx (2 * c + 1) = 4) ∧ (s.m.tx (2 * c + 1) = 4) ∧ (s.m.objN 0x6401 1 = 0) ∧ (s.m.chainCalibrating c = false) :=
  ⟨started (fun m => { m with clk := { m.clk with mono := us 200 } } |>.setRx 7 4 |>.setTx 7 4 |>.onChain 3 (fun x => { x with brk := some ⟨some 2, none, 0, false, none⟩ })), 3, ⟨some 2, none, 0, false, none⟩, by decide +kernel⟩

theorem meets_ChainsBreakHealAndReport_4 : ∃ s : State, ∃ c : Nat, ∃ at_ : Nat, (s.m.coreUp 2 = true) ∧ (c < s.m.tiles.chains.length) ∧ ((s.m.chain c).wholeSince = some at_) ∧ (s.m.chainState c = 3) ∧ (at_ + ms (s.m.objN 0x6100 6) ≤ s.m.now) :=
  ⟨started (fun m => { m with clk := { m.clk with mono := ms 100 } } |>.setN 0x6113 1 3 |>.onChain 3 (fun x => { x with wholeSince := some 0 })), 3, 0, by decide +kernel⟩

theorem meets_ChainsBreakHealAndReport_5 : ∃ s : State, ∃ c : Nat, (s.m.coreUp 2 = true) ∧ (c < s.m.tiles.chains.length) ∧ (s.m.chainState c = 3) ∧ ((s.m.chain c).unhealReady = true) ∧ ((s.m.chain c).unhealAt = none) ∧ (s.m.heat.running = true) ∧ (s.m.commitAt + us 100 ≤ s.m.timeWord) ∧ (s.m.timeWord < s.m.tickAt s.m.heat.number) :=
  ⟨started (fun m => m.setN 0x6113 1 3 |>.onChain 3 (fun x => { x with unhealReady := true }) |>.setN 0x5000 6 1 |>.onHeat (fun h => { h with running := true, guard_ := 200 }) |> fun m => { m with clk := { m.clk with reg := 65536 * 0 } } |>.setN 0x5000 6 (us 100) |> fun m => { m with clk := { m.clk with reg := 65536 * (us 99) }, pipe := { m.pipe with heat := { m.pipe.heat with guard_ := 200 } } } |>.setN 0x5000 6 (us 250) |> fun m => { m with clk := { m.clk with reg := 65536 * (us 249) } }), 3, by decide +kernel⟩

theorem meets_ChainsBreakHealAndReport_6 : ∃ s : State, ∃ c : Nat, ∃ w : Window, (c < 96) ∧ (c < s.m.tiles.chains.length) ∧ (s.m.coreUp 2 = true) ∧ ((s.m.chain c).window = some w) ∧ (w.openedAt + ms 2 ≤ s.m.now) ∧ (s.m.chainState c = 1 ∨ (s.m.chain c).rootState = some (s.m.chainState c)) ∧ (w.timeouts = []) ∧ (s.m.tiles.storms = []) ∧ (s.m.objN (0x6110 + c) 8 + w.reports < 18446744073709551616) :=
  ⟨started (fun m => { m with clk := { m.clk with mono := ms 2 } } |>.onChain 3 (fun x => { x with window := some ⟨0, 4, []⟩, rootState := some 0 })), 3, ⟨0, 4, []⟩, by decide +kernel⟩

theorem meets_TileMapAndRemovalRequests_1 : ∃ s : State, ∃ w p m, Reaches s 0x6100 3 w p m ∧ ((m.stagedMap.filter (· != 0xFFFF)).Nodup) :=
  ⟨started id, svc32 0x4C4300A6, reaches_of (by decide +kernel)⟩

theorem meets_TileMapAndRemovalRequests_2 : ∃ s : State, ∃ w p m, Reaches s 0x6100 3 w p m ∧ (¬ (m.stagedMap.filter (· != 0xFFFF)).Nodup) :=
  ⟨started (fun m => (m.setN 0x6110 0x10 5).setN 0x6111 0x10 5), svc32 0x4C4300A6, reaches_of (by decide +kernel)⟩

theorem meets_TileMapAndRemovalRequests_3 : ∃ s : State, ∃ w p m, Reaches s 0x6181 0x0C w p m ∧ (m.tileState p.s.tile.1 p.s.tile.2 = 3) :=
  ⟨started (fun m => m.setN 0x6181 1 3 (tileBank 0 0)), svc32 0x4C430B0B, reaches_of (by decide +kernel)⟩

theorem meets_TileMapAndRemovalRequests_4 : ∃ s : State, ∃ w p m, Reaches s 0x6181 0x0C w p m ∧ (m.tileState p.s.tile.1 p.s.tile.2 = 4) ∧ (p.s.tile.1 < m.tiles.chains.length) ∧ (p.s.tile.2 < (m.chain p.s.tile.1).tiles.length) :=
  ⟨started (fun m => m.setN 0x6181 1 4 (tileBank 0 0)), svc32 0x4C430B0B, reaches_of (by decide +kernel)⟩

theorem meets_TileMapAndRemovalRequests_5 : ∃ s : State, ∃ w p m, Reaches s 0x6181 0x0C w p m ∧ (m.tileState p.s.tile.1 p.s.tile.2 ≠ 3) ∧ (m.tileState p.s.tile.1 p.s.tile.2 ≠ 4) :=
  ⟨started id, svc32 0x4C430B0B, reaches_of (by decide +kernel)⟩

theorem meets_HistoryObjectsComeAndGo_1 : ∃ s : State, ∃ g : TileSeg, ∃ cause : Nat, (g.c < 96) ∧ (g.pos < 10) ∧ (g.kind = 1 ∨ g.kind = 2) ∧ ((s.m.load g.c g.pos g.kind).since.isSome = true) ∧ (tileSegRejected g = some cause) ∧ (s.m.tx (s.m.feedLane g.c g.pos) = 4) ∧ (s.m.objN 0x6401 1 = 0) :=
  ⟨started (fun m => (m.setTx 6 4).onLoad 3 2 1 (fun x => { x with since := some 0 })), ⟨3, 2, 1, 0, 1, 0, 5, [some 0]⟩, 0, by decide +kernel⟩

theorem meets_HistoryObjectsComeAndGo_2 : ∃ s : State, ∃ g : TileSeg, (g.c < 96) ∧ (g.pos < 10) ∧ (g.c < s.m.tiles.chains.length) ∧ (g.pos < (s.m.chain g.c).tiles.length) ∧ (g.kind = 1 ∨ g.kind = 2) ∧ ((s.m.load g.c g.pos g.kind).since.isSome = true) ∧ (tileSegRejected g = none) ∧ ((s.m.load g.c g.pos g.kind).segs.any (fun y => y.1 = g.seq) = false) ∧ (({ (s.m.load g.c g.pos g.kind) with segs := (s.m.load g.c g.pos g.kind).segs ++ [(g.seq, 16 * g.locator, tileSegData g)] } : FlashLoad).bytes.length < 64 ∨ (headerGood g.kind ({ (s.m.load g.c g.pos g.kind) with segs := (s.m.load g.c g.pos g.kind).segs ++ [(g.seq, 16 * g.locator, tileSegData g)] } : FlashLoad).bytes = true ∧ ({ (s.m.load g.c g.pos g.kind) with segs := (s.m.load g.c g.pos g.kind).segs ++ [(g.seq, 16 * g.locator, tileSegData g)] } : FlashLoad).bytes.length < 64 + bodyLength ({ (s.m.load g.c g.pos g.kind) with segs := (s.m.load g.c g.pos g.kind).segs ++ [(g.seq, 16 * g.locator, tileSegData g)] } : FlashLoad).bytes)) :=
  ⟨started (fun m => m.onLoad 3 2 1 (fun x => { x with since := some 0 })), ⟨3, 2, 1, 1, 1, 256, crcOf (List.replicate 16 0), [some 0]⟩, by decide +kernel⟩

theorem meets_HistoryObjectsComeAndGo_3 : ∃ s : State, ∃ c : Nat, ∃ pos : Nat, ∃ k : Transfer, (s.m.boot.shut ≠ 2) ∧ (s.m.coreUp 2 = true) ∧ (s.m.panel.transfers = [k]) ∧ (k.c = c) ∧ (k.pos = pos) ∧ (k.kind = 2) ∧ (k.staged = true) ∧ (k.commitAt.isSome = true) ∧ ((s.m.tile c pos).leaving = false) ∧ (s.m.objN 0x6200 5 < 18446744073709551615) :=
  ⟨started (fun m => m.onPanel (fun x => { x with transfers := [{ c := 3, pos := 2, panel := 70, kind := 2, object := List.replicate 64 0, seq := 12, staged := true, commitAt := some 0 }] })), 3, 2, { c := 3, pos := 2, panel := 70, kind := 2, object := List.replicate 64 0, seq := 12, staged := true, commitAt := some 0 }, by decide +kernel⟩

theorem meets_HistoryIsWrittenBackAndRead_1 : ∃ s : State, ∃ c : Nat, ∃ i : Nat, ∃ w p m, Reaches s 0x6211 8 w p m ∧ (m.tileAt p.s.panel = some (c, i)) ∧ (m.tileState c i = 4) :=
  ⟨started (fun m => (m.setN 0x6181 1 4 (tileBank 3 2)).onTile 3 2 (fun x => { x with entry := 0 })), 3, 2, svc32 0x4C430C0C, reaches_of (by decide +kernel)⟩

theorem meets_HistoryIsWrittenBackAndRead_2 : ∃ s : State, ∃ w p m, Reaches s 0x6211 8 w p m ∧ (m.tileAt p.s.panel = none) :=
  ⟨started id, svc32 0x4C430C0C, reaches_of (by decide +kernel)⟩

theorem meets_HistoryIsWrittenBackAndRead_3 : ∃ s : State, ∃ p : Nat, ∃ k : Checkpoint, (s.m.boot.shut ≠ 2) ∧ (s.m.panel.checkpoints = [k]) ∧ (k.panel = p) ∧ (k.snapped = true) ∧ (k.blocks.length = 25) :=
  ⟨started (fun m => m.onPanel (fun x => { x with checkpoints := [{ c := 3, pos := 2, panel := 70, heat := some 4, snapped := true, blocks := (List.range 25).map (fun i => (i, [])) }] })), 70, { c := 3, pos := 2, panel := 70, heat := some 4, snapped := true, blocks := (List.range 25).map (fun i => (i, [])) }, by decide +kernel⟩

theorem meets_HistoryIsWrittenBackAndRead_4 : ∃ s : State, ∃ c : Nat, ∃ pos : Nat, ∃ at_ : Nat, ∃ k : Transfer, (s.m.boot.shut ≠ 2) ∧ (s.m.panel.transfers = [k]) ∧ (k.c = c) ∧ (k.pos = pos) ∧ (k.kind = 2) ∧ (k.staged = true) ∧ (k.commitAt = some at_) ∧ (at_ + ms 1000 ≤ s.m.now) ∧ (k.failures = 0) ∧ ((s.m.tile c pos).leaving = false) :=
  ⟨started (fun m => { m with clk := { m.clk with mono := sec 1 } } |>.onPanel (fun x => { x with transfers := [{ c := 3, pos := 2, panel := 70, kind := 2, object := List.replicate 64 0, seq := 12, staged := true, commitAt := some 0 }] })), 3, 2, 0, { c := 3, pos := 2, panel := 70, kind := 2, object := List.replicate 64 0, seq := 12, staged := true, commitAt := some 0 }, by decide +kernel⟩

theorem meets_HistoryIsWrittenBackAndRead_5 : ∃ s : State, ∃ c : Nat, ∃ pos : Nat, ∃ at_ : Nat, ∃ k : Transfer, (s.m.boot.shut ≠ 2) ∧ (s.m.panel.transfers = [k]) ∧ (k.c = c) ∧ (k.pos = pos) ∧ (k.kind = 2) ∧ (k.staged = false) ∧ (k.retryAt = some at_) ∧ (at_ ≤ s.m.now) ∧ (s.m.tileState c pos = 4) ∧ (k.seq = (s.m.objN 0x6211 3 k.panel + 1) % 2 ^ 32) :=
  ⟨started (fun m => { m with clk := { m.clk with mono := sec 10 } } |>.setN 0x6181 1 4 (tileBank 3 2) |>.setN 0x6211 3 11 70 |>.onPanel (fun x => { x with transfers := [{ c := 3, pos := 2, panel := 70, kind := 2, object := List.replicate 64 0, seq := 12, failures := 1, retryAt := some (sec 10) }] })), 3, 2, sec 10, { c := 3, pos := 2, panel := 70, kind := 2, object := List.replicate 64 0, seq := 12, failures := 1, retryAt := some (sec 10) }, by decide +kernel⟩

theorem meets_HistoryIsWrittenBackAndRead_6 : ∃ s : State, ∃ c : Nat, ∃ pos : Nat, ∃ at_ : Nat, (s.m.tileState c pos = 2) ∧ ((s.m.tile c pos).checkLoad.since = some at_) ∧ (at_ + ms 100 ≤ s.m.now) ∧ ((s.m.tile c pos).gainLoad.done = true) ∧ ((s.m.tile c pos).gainLoad.since = none) ∧ (s.m.panelFor c pos = none) ∧ (s.m.objN 0x1200 4 ≠ 0) ∧ (c < s.m.tiles.chains.length) ∧ (pos < (s.m.chain c).tiles.length) :=
  ⟨started (fun m => { m with clk := { m.clk with mono := ms 100 } } |>.setN 0x6181 1 2 (tileBank 3 2) |>.onTile 3 2 (fun x => { x with gainLoad := { done := true }, checkLoad := { since := some 0 } })), 3, 2, 0, by decide +kernel⟩

theorem meets_GainMapUpdatesRun_1 : ∃ s : State, ∃ j : Nat, ∃ w p m, Reaches s (0x6220 + j) 3 w p m ∧ (j < 8) ∧ (live (m.gainState j) = false) ∧ (m.patch j ≠ []) ∧ (m.tileUsable (m.gainPanel j) = true) :=
  ⟨started (fun m => ((m.setN 0x6181 1 3 (tileBank 3 2)).onTile 3 2 (fun x => { x with entry := 0 })).setStr 0x6232 0 [0, 0, 0, 0, 0, 1, 0, 1, 0x80, 0]), 2, svc32 0x4C4300A7, reaches_of (by decide +kernel)⟩

theorem meets_GainMapUpdatesRun_2 : ∃ s : State, ∃ j : Nat, ∃ i : Nat, ∃ w p m, Reaches s (0x6220 + j) 3 w p m ∧ (j < 8) ∧ (live (m.gainState j) = false) ∧ (m.patch j ≠ []) ∧ (m.tileUsable (m.gainPanel j) = true) ∧ (i < 8) ∧ (i ≠ j) ∧ (i ∈ m.panel.updates) ∧ (m.gainState i = 1) ∧ (m.gainTarget i = m.gainPanel j) ∧ (within (patchRect (m.patch i)) (patchRect (m.patch j)) = true) :=
  ⟨started (fun m => (((m.setN 0x6181 1 3 (tileBank 3 2)).onTile 3 2 (fun x => { x with entry := 0 })).setStr 0x6232 0 [0, 0, 0, 0, 0, 1, 0, 1, 0x80, 0] |>.setStr 0x6231 0 [0, 0, 0, 0, 0, 1, 0, 1, 0x81, 0] |>.setN 0x6221 4 1).onPanel (fun x => { x with updates := [1] })), 2, 1, svc32 0x4C4300A7, reaches_of (by decide +kernel)⟩

theorem meets_GainMapUpdatesRun_3 : ∃ s : State, ∃ j : Nat, ∃ w p m, Reaches s (0x6220 + j) 3 w p m ∧ (j < 8) ∧ (live (m.gainState j) = true) :=
  ⟨started (fun m => m.setN 0x6222 4 1), 2, svc32 0x4C4300A7, reaches_of (by decide +kernel)⟩

theorem meets_GainMapUpdatesRun_4 : ∃ s : State, ∃ j : Nat, ∃ slot : Nat, ∃ rest : List Nat, (j < 8) ∧ (s.m.gainState j = 1) ∧ (s.m.panel.updates.head? = some j) ∧ (s.m.panel.freeSlots = slot :: rest) :=
  ⟨started (fun m => (m.setN 0x6222 4 1).onPanel (fun x => { x with updates := [2], freeSlots := [968, 969] })), 2, 968, [969], by decide +kernel⟩

theorem meets_GainMapUpdatesRun_5 : ∃ s : State, ∃ j : Nat, ∃ slot : Nat, (j < 8) ∧ (slot < 970) ∧ ((patchRect (s.m.patch j)).1 + (patchRect (s.m.patch j)).2.2.1 ≤ 480) ∧ (s.m.panel.running = [(j, slot)]) ∧ ((gainCopyRuns (slotBase (s.m.objN 0x6211 7 (s.m.gainTarget j))) (patchRect (s.m.patch j))).any (fun r => s.m.poisonedAt r.1 r.2) = false) ∧ (s.m.poisonWaits = false) :=
  ⟨started (fun m => (m.setN 0x6222 4 2 |>.setStr 0x6232 0 [0, 0, 0, 0, 0, 1, 0, 1, 0x80, 0]).onPanel (fun x => { x with updates := [2], running := [(2, 968)] })), 2, 968, by decide +kernel⟩

theorem meets_GainMapUpdatesRun_6 : ∃ s : State, ∃ j : Nat, ∃ slot : Nat, (j < 8) ∧ (s.m.panel.running = [(j, slot)]) ∧ ((gainCopyRuns (slotBase (s.m.objN 0x6211 7 (s.m.gainTarget j))) (patchRect (s.m.patch j))).any (fun r => s.m.poisonedAt r.1 r.2) = true) ∧ (s.m.poisonWaits = false) :=
  ⟨started (fun m => ({ m with dram := { m.dram with fresh := (List.range 16).map (fun l => (⟨l, [], none⟩ : Fresh)) } } : Mach).setN 0x6222 4 2 |>.onPanel (fun x => { x with updates := [2], running := [(2, 968)] })), 2, 968, by decide +kernel⟩

theorem meets_CommonsSlateAndQuench_1 : ∃ s : State, ∃ n : Nat, ∃ cause : Nat, (n < 64) ∧ (1 ≤ cause) ∧ (cause ≤ 3) ∧ (s.m.commonState n ≠ 2) ∧ (s.m.testing ≠ some (calKey 4 n)) ∧ (s.m.objN (0x6310 + n) 8 < 65535) ∧ (s.m.objN 0x1200 4 ≠ 0) :=
  ⟨started (fun m => m.setN 0x634F 1 1), 63, 3, by decide +kernel⟩

theorem meets_CommonsSlateAndQuench_2 : ∃ s : State, ∃ n : Nat, ∃ w p m, Reaches s (0x6310 + n) 9 w p m ∧ (n < 64) ∧ (n < m.panel.commons.length) ∧ (m.commonState n = 2) :=
  ⟨started (fun m => m.setN 0x634F 1 2), 63, svc32 0x4C430C00, reaches_of (by decide +kernel)⟩

theorem meets_CommonsSlateAndQuench_3 : ∃ s : State, ∃ n : Nat, ∃ w p m, Reaches s (0x6310 + n) 9 w p m ∧ (n < 64) ∧ (m.commonState n ≠ 2) :=
  ⟨started id, 63, svc32 0x4C430C00, reaches_of (by decide +kernel)⟩

theorem meets_CommonsSlateAndQuench_4 : ∃ s : State, ∃ c : Nat, ∃ w p m, Reaches s 0x6300 3 w p m ∧ (c < 96) ∧ (m.objN 0x6300 3 ≠ p.n) ∧ (m.tx (2 * c) = 4) ∧ (m.objN 0x6401 1 = 0) :=
  ⟨started (fun m => m.setTx 6 4), 3, svc 3 [0, 200], reaches_of (by decide +kernel)⟩

theorem meets_CommonsSlateAndQuench_5 : ∃ s : State, (s.m.power = 2) ∧ (s.m.objN 0x6400 9 = 1) ∧ (s.m.panel.slate.tickAt + ms (s.m.objN 0x6400 6) ≤ s.m.timeWord) ∧ (s.m.tx (2 * s.m.objN 0x6400 1) = 4) ∧ (s.m.objN 0x6401 1 = 0) :=
  ⟨started (fun m => { m with clk := { m.clk with reg := 65536 * ms 100 } } |>.setN 0x6400 9 1 |>.setTx 0 4) 2, by decide +kernel⟩

theorem meets_CommonsSlateAndQuench_6 : ∃ s : State, ∃ w p m, Reaches s 0x6401 3 w p m ∧ (ofBE w.value = 0x4C430F0F) ∧ (p.n = 0x4C430F0F) ∧ (m.objN 0x6401 1 = 0) ∧ (m.settled = true) ∧ (m.objN 0x6401 4 < 4294967295) :=
  ⟨started id, svc32 0x4C430F0F, reaches_of (by decide +kernel)⟩

theorem meets_CommonsSlateAndQuench_7 : ∃ s : State, ∃ w p m, Reaches s 0x6401 3 w p m ∧ (ofBE w.value = 0x4C430F0F) ∧ (p.n = 0x4C430F0F) ∧ (m.objN 0x6401 1 ≠ 0) ∧ (m.settled = true) :=
  ⟨started (fun m => m.setN 0x6401 1 2), svc32 0x4C430F0F, reaches_of (by decide +kernel)⟩

theorem meets_CommonsSlateAndQuench_8 : ∃ s : State, ∃ w p m, Reaches s 0x6401 3 w p m ∧ (ofBE w.value = 0x4C430F00) ∧ (p.n = 0x4C430F00) ∧ (m.objN 0x6401 1 = 2) ∧ (m.objN 0x6401 2 = 4) ∧ (m.power ≤ 1) ∧ (m.boot.shut = 0) ∧ (8 ≤ m.boot.step) ∧ (m.objN 0x1200 4 ≠ 0) :=
  ⟨started (fun m => (m.setN 0x6401 1 2).setN 0x6401 2 4), svc32 0x4C430F00, reaches_of (by decide +kernel)⟩

theorem meets_CommonsSlateAndQuench_9 : ∃ s : State, ∃ w p m, Reaches s 0x6401 3 w p m ∧ (ofBE w.value = 0x4C430F00) ∧ (p.n = 0x4C430F00) ∧ (m.objN 0x6401 1 ≠ 2 ∨ m.objN 0x6401 2 ≠ 4) :=
  ⟨started (fun m => (m.setN 0x6401 1 2).setN 0x6401 2 2), svc32 0x4C430F00, reaches_of (by decide +kernel)⟩

theorem meets_PortsQueuesMetersGatesAndLinks_1 : ∃ s : State, ∃ f : EthFrame, (5 ≤ f.p ∨ s.m.linkUp f.p = false ∨ 3 ≤ s.m.power) :=
  ⟨started id, ⟨4, true, [], 0, 5⟩, by decide +kernel⟩

theorem meets_PortsQueuesMetersGatesAndLinks_2 : ∃ s : State, ∃ f : EthFrame, (f.p < 5) ∧ (portFitted s.unit.orderX f.p = true) ∧ (s.m.linkUp f.p = true) ∧ (s.m.power ≤ 2) ∧ (f.fcsOk = false ∨ largestFrame f.p < f.data.length + 4) ∧ (s.m.objN (0x4010 + f.p) 0x0B < 2 ^ 64 - 1) :=
  ⟨started (fun m => m.setN 0x4014 2 1), ⟨4, true, List.replicate 1519 0, 0, 5⟩, by decide +kernel⟩

theorem meets_PortsQueuesMetersGatesAndLinks_3 : ∃ s : State, ∃ f : EthFrame, (f.p < 5) ∧ (portFitted s.unit.orderX f.p = true) ∧ (s.m.linkUp f.p = true) ∧ (s.m.power ≤ 2) ∧ (s.m.armedAt 22 f.p = false) ∧ (f.fcsOk = true) ∧ (f.data.length + 4 ≤ largestFrame f.p) ∧ (pauseFrame f.data = true) ∧ (s.m.objN (0x4010 + f.p) 0x0A < 2 ^ 64 - 1) ∧ (s.m.objN (0x4010 + f.p) 0x10 < 2 ^ 64 - 1) :=
  ⟨started (fun m => m.setN 0x4014 2 1), ⟨4, true, [1, 0x80, 0xC2, 0, 0, 1] ++ List.replicate 6 2 ++ [0x88, 0x08, 0, 1], 0, 5⟩, by decide +kernel⟩

theorem meets_PortsQueuesMetersGatesAndLinks_4 : ∃ s : State, ∃ f : EthFrame, (f.p < 5) ∧ (portFitted s.unit.orderX f.p = true) ∧ (s.m.linkUp f.p = true) ∧ (s.m.power ≤ 2) ∧ (s.m.armedAt 22 f.p = false) ∧ (f.fcsOk = true) ∧ (f.data.length + 4 ≤ largestFrame f.p) ∧ (pauseFrame f.data = false) ∧ ((if s.m.objN (0x4010 + f.p) 8 = 1 then decide ((parseFrame f.data).vlan = some (s.m.objN (0x4010 + f.p) 9)) else decide ((parseFrame f.data).vlan = none ∨ (parseFrame f.data).vlan = some 0)) = false ∨ s.m.classify s.ctx f.p (parseFrame f.data) = .drop) ∧ (s.m.objN (0x4010 + f.p) 0x0C < 2 ^ 64 - 1) :=
  ⟨started (fun m => m.setN 0x4014 2 1), ⟨4, true, [2, 0, 0, 0, 0, 0, 1, 1, 1, 1, 1, 1, 8, 0], 0, 5⟩, by decide +kernel⟩

theorem meets_PortsQueuesMetersGatesAndLinks_5 : ∃ s : State, ∃ f : EthFrame, ∃ b : Nat, ∃ l : List Nat, (f.p < 5) ∧ (portFitted s.unit.orderX f.p = true) ∧ (s.m.linkUp f.p = true) ∧ (s.m.power ≤ 2) ∧ (s.m.armedAt 22 f.p = false) ∧ (f.fcsOk = true) ∧ (f.data.length + 4 ≤ largestFrame f.p) ∧ (pauseFrame f.data = false) ∧ ((if s.m.objN (0x4010 + f.p) 8 = 1 then decide ((parseFrame f.data).vlan = some (s.m.objN (0x4010 + f.p) 9)) else decide ((parseFrame f.data).vlan = none ∨ (parseFrame f.data).vlan = some 0)) = true) ∧ (s.m.classify s.ctx f.p (parseFrame f.data) = .ptp) ∧ (s.m.net.ports.length = 5) ∧ ((s.m.port f.p).rxBuffers = b :: l) :=
  ⟨started (fun m => { m.setN 0x4014 2 1 with net := { m.net with ports := m.net.ports.modify 4 (fun x => { x with rxBuffers := [8192, 16384], rxConsumer := 511 }) } }), ⟨4, true, List.replicate 6 255 ++ List.replicate 6 2 ++ [0x88, 0xF7, 1, 2], 0, 5⟩, 8192, [16384], by decide +kernel⟩

theorem meets_PortsQueuesMetersGatesAndLinks_6 : ∃ s : State, ∃ f : EthFrame, ∃ k : Nat, (f.p < 5) ∧ (portFitted s.unit.orderX f.p = true) ∧ (s.m.linkUp f.p = true) ∧ (s.m.power ≤ 2) ∧ (s.m.armedAt 22 f.p = false) ∧ (f.fcsOk = true) ∧ (f.data.length + 4 ≤ largestFrame f.p) ∧ (pauseFrame f.data = false) ∧ ((if s.m.objN (0x4010 + f.p) 8 = 1 then decide ((parseFrame f.data).vlan = some (s.m.objN (0x4010 + f.p) 9)) else decide ((parseFrame f.data).vlan = none ∨ (parseFrame f.data).vlan = some 0)) = true) ∧ (s.m.classify s.ctx f.p (parseFrame f.data) = .slot k) ∧ ((s.m.net.meters.getD k {}).on = true) ∧ (((s.m.net.meters.getD k {}).colour (f.data.length + 4)).1 = 2) ∧ (s.m.objN 0x4112 3 k < 2 ^ 64 - 1) :=
  ⟨started (fun m => ((m.setN 0x4014 2 1).setB 0x4110 1 true 255).setStr 0x4110 3 (List.replicate 10 0 ++ [255, 255, 10, 0, 0, 1]) 255), ⟨4, true, List.replicate 6 255 ++ List.replicate 6 2 ++ [8, 0] ++ [69, 0, 0, 0, 0, 0, 0, 0, 9, 17, 0, 0, 1, 1, 1, 1, 10, 0, 0, 1] ++ [0, 9, 19, 140, 0, 9, 0, 0, 1], 0, 5⟩, 255, by decide +kernel⟩

theorem meets_PortsQueuesMetersGatesAndLinks_7 : ∃ s : State, ∃ w p m, Reaches s 0x4110 1 w p m ∧ (p.v = 1) ∧ (m.objB 0x4110 1 (p.s.bank 0x4110) = false) ∧ (p.s.bank 0x4110 < m.net.meters.length) :=
  ⟨started id, svc 1 [1], reaches_of (by decide +kernel)⟩

theorem meets_PortsQueuesMetersGatesAndLinks_8 : ∃ s : State, ∃ w p m, Reaches s 0x4110 1 w p m ∧ (p.v = 0) ∧ (m.objB 0x4110 1 (p.s.bank 0x4110) = true) :=
  ⟨started (fun m => m.setB 0x4110 1 true), svc 1 [0], reaches_of (by decide +kernel)⟩

theorem meets_PortsQueuesMetersGatesAndLinks_9 : ∃ s : State, ∃ w p m, Reaches s 0x4110 1 w p m ∧ (p.v = bitI (m.objB 0x4110 1 (p.s.bank 0x4110))) :=
  ⟨started (fun m => m.setB 0x4110 1 true), svc 1 [1], reaches_of (by decide +kernel)⟩

theorem meets_PortsQueuesMetersGatesAndLinks_10 : ∃ s : State, ((upTo 4).all (fun v => (s.m.view v).packets.isEmpty) = true) ∧ (s.m.power ≤ 2) ∧ (s.m.net.refillAt + ns 128 ≤ s.m.now) :=
  ⟨started (fun m => { m with clk := { m.clk with mono := ns 128 } }), by decide +kernel⟩

theorem meets_PortsQueuesMetersGatesAndLinks_11 : ∃ s : State, (3 ≤ s.m.power ∨ s.m.now < s.m.net.refillAt + ns 128) :=
  ⟨started id, by decide +kernel⟩

theorem meets_PortsQueuesMetersGatesAndLinks_12 : ∃ s : State, ∃ x : TxPost, (x.p < 5) ∧ (portFitted s.unit.orderX x.p = true) ∧ (s.m.power ≤ 2) ∧ (s.m.net.ports.length = 5) ∧ ((s.m.port x.p).queues.length = 4) ∧ ((s.m.port x.p).owned < 512) ∧ (reachable x.buffer x.data.length = true) ∧ (s.m.nextStream x.p = none) ∧ (s.m.linkUp x.p = true) ∧ (s.m.neverLets x.p (x.cls % 4) (lineTime x.p (s.m.charged x.p (x.cls % 4) x.data.length)) = false) ∧ (((s.m.port x.p).queues.getD (x.cls % 4) []).length < queueLimit (x.cls % 4)) ∧ ((s.m.port x.p).sending.isSome = true) :=
  ⟨started (fun m => { m.setN 0x4014 2 1 with net := { m.net with ports := m.net.ports.modify 4 (fun x => { x with txProducer := 511, sending := some (⟨0, 510, false, false, 0, [], none⟩, 0) }) } }), ⟨4, 2, false, false, 0, 4096, [1, 2]⟩, by decide +kernel⟩

theorem meets_PortsQueuesMetersGatesAndLinks_13 : ∃ s : State, ∃ x : TxPost, (x.p < 5) ∧ (portFitted s.unit.orderX x.p = true) ∧ (s.m.power ≤ 2) ∧ (s.m.net.ports.length = 5) ∧ ((s.m.port x.p).queues.length = 4) ∧ ((s.m.port x.p).owned < 512) ∧ (reachable x.buffer x.data.length = false ∨ s.m.linkUp x.p = false) :=
  ⟨started (fun m => { m with net := { m.net with ports := m.net.ports.modify 4 (fun x => { x with txProducer := 511 }) } }), ⟨4, 2, false, false, 0, 4096, [1, 2]⟩, by decide +kernel⟩

theorem meets_PortsQueuesMetersGatesAndLinks_14 : ∃ s : State, ∃ x : TxPost, (x.p < 5) ∧ (portFitted s.unit.orderX x.p = true) ∧ (s.m.power ≤ 2) ∧ ((s.m.port x.p).owned < 512) ∧ (reachable x.buffer x.data.length = true) ∧ (s.m.linkUp x.p = true) ∧ (s.m.neverLets x.p (x.cls % 4) (lineTime x.p (s.m.charged x.p (x.cls % 4) x.data.length)) = true) ∧ (s.m.objN (shaperIx x.p (x.cls % 4)) 7 < 2 ^ 64 - 1) :=
  ⟨started (fun m => { (m.setN 0x4014 2 1).setB 0x4224 1 true with net := { m.net with ports := m.net.ports.modify 4 (fun x => { x with list := { entries := [(11, 100), (0, 100)] } }) } }), ⟨4, 2, false, false, 0, 4096, [1, 2]⟩, by decide +kernel⟩

theorem meets_PortsQueuesMetersGatesAndLinks_15 : ∃ s : State, ∃ x : TxPost, (5 ≤ x.p ∨ portFitted s.unit.orderX x.p = false ∨ 3 ≤ s.m.power ∨ 512 ≤ (s.m.port x.p).owned) :=
  ⟨started id (power := 3), ⟨4, 2, false, false, 0, 4096, [1, 2]⟩, by decide +kernel⟩

theorem meets_PortsQueuesMetersGatesAndLinks_16 : ∃ s : State, ∃ x : TxPost, (x.p < 5) ∧ (portFitted s.unit.orderX x.p = true) ∧ (s.m.power ≤ 2) ∧ (s.m.net.ports.length = 5) ∧ ((s.m.port x.p).queues.length = 4) ∧ ((s.m.port x.p).owned < 512) ∧ (reachable x.buffer x.data.length = true) ∧ (s.m.linkUp x.p = true) ∧ (s.m.neverLets x.p (x.cls % 4) (lineTime x.p (s.m.charged x.p (x.cls % 4) x.data.length)) = false) ∧ (x.cls % 4 ≠ 1) ∧ (queueLimit (x.cls % 4) ≤ ((s.m.port x.p).queues.getD (x.cls % 4) []).length) :=
  ⟨started (fun m => { m.setN 0x4014 2 1 with net := { m.net with ports := m.net.ports.modify 4 (fun x => { x with queues := [List.replicate 64 ⟨0, 0, false, false, 0, [], some 1⟩, [], [], []] }) } }), ⟨4, 4, false, false, 0, 4096, [1, 2]⟩, by decide +kernel⟩

theorem meets_PortsQueuesMetersGatesAndLinks_17 : ∃ s : State, ∃ q : Nat, (q < 5) ∧ (portFitted s.unit.orderX q = true) ∧ (s.m.power ≤ 2) ∧ (s.m.net.ports.length = 5) ∧ ((s.m.port q).rxBuffers.length < 512) :=
  ⟨started (fun m => { m with net := { m.net with ports := m.net.ports.modify 4 (fun x => { x with rxProducer := 511 }) } }), 4, by decide +kernel⟩

theorem meets_PortsQueuesMetersGatesAndLinks_18 : ∃ s : State, ∃ q : Nat, (5 ≤ q ∨ 512 ≤ (s.m.port q).rxBuffers.length ∨ 3 ≤ s.m.power) :=
  ⟨started id, 5, by decide +kernel⟩

theorem meets_PortsQueuesMetersGatesAndLinks_19 : ∃ s : State, ∃ q : Nat, ∃ f : TxFrame, ∃ x : Nat, (q < 5) ∧ (s.m.net.ports.length = 5) ∧ (s.m.nextStream q = none) ∧ (f.view = none) ∧ ((s.m.port q).sending = some (f, x)) ∧ ((s.m.port q).queues.all (fun z => z.isEmpty) = true) ∧ (s.m.objN (0x4010 + q) 0x0F < 2 ^ 64 - 1) :=
  ⟨started (fun m => { m.setN 0x4014 2 1 with net := { m.net with ports := m.net.ports.modify 4 (fun x => { x with txConsumer := 511, sending := some (⟨3, 511, true, false, 0, [1], none⟩, 7) }) } }), 4, ⟨3, 511, true, false, 0, [1], none⟩, 7, by decide +kernel⟩

theorem meets_PortsQueuesMetersGatesAndLinks_20 : ∃ s : State, ∃ q : Nat, ((s.m.port q).sending = none) :=
  ⟨started id, 4, by decide +kernel⟩

theorem meets_PortsQueuesMetersGatesAndLinks_21 : ∃ s : State, ∃ q : Nat, ∃ k : Nat, ∃ f : TxFrame, ∃ l : List TxFrame, (q < s.m.net.ports.length) ∧ (s.m.nextStream q = none) ∧ ((s.m.port q).sending = none) ∧ (s.m.linkUp q = true) ∧ ((s.m.port q).held = []) ∧ ([0, 1, 2, 3].find? (fun k => s.m.classEligible q k) = some k) ∧ ((s.m.port q).queues.getD k [] = f :: l) :=
  ⟨started (fun m => { m.setN 0x4014 2 1 with net := { m.net with ports := m.net.ports.modify 4 (fun x => { x with queues := [[], [], [⟨2, 0, false, false, 0, [1], none⟩], [⟨3, 1, false, false, 0, [2], none⟩]] }) } }), 4, 2, ⟨2, 0, false, false, 0, [1], none⟩, [], by decide +kernel⟩

theorem meets_PortsQueuesMetersGatesAndLinks_22 : ∃ s : State, ∃ q : Nat, (s.m.nextStream q = none) ∧ ((s.m.port q).sending.isSome = true ∨ s.m.linkUp q = false) :=
  ⟨started id, 4, by decide +kernel⟩

theorem meets_PortsQueuesMetersGatesAndLinks_23 : ∃ s : State, ∃ q : Nat, ∃ w p m, Reaches s (0x4220 + q) 6 w p m ∧ (q < 5) ∧ (q < m.net.ports.length) ∧ (1 ≤ m.objN (0x4220 + q) 3) ∧ (8 * m.objN (0x4220 + q) 3 ≤ (m.str (0x4230 + q) 0).length) ∧ ((gateEntries (m.objN (0x4220 + q) 3) (m.str (0x4230 + q) 0)).all (fun e => 64 ≤ e.2 && e.2 ≤ 1000000000) = true) ∧ (m.objN (0x4220 + q) 2 ≠ 0 ∨ 1000 ≤ ((gateEntries (m.objN (0x4220 + q) 3) (m.str (0x4230 + q) 0)).map Prod.snd).sum) ∧ (m.objN (0x4220 + q) 2 ≠ 0 ∨ ((gateEntries (m.objN (0x4220 + q) 3) (m.str (0x4230 + q) 0)).map Prod.snd).sum ≤ 1000000000) :=
  ⟨started (fun m => m.setStr 0x4234 0 [15, 0, 0, 0, 0, 0, 4, 0]), 4, svc32 0x4C4300A8, reaches_of (by decide +kernel)⟩

theorem meets_PortsQueuesMetersGatesAndLinks_24 : ∃ s : State, ∃ q : Nat, ∃ w p m, Reaches s (0x4220 + q) 6 w p m ∧ (q < 5) ∧ ((m.str (0x4230 + q) 0).length < 8 * m.objN (0x4220 + q) 3) :=
  ⟨started (fun m => m.setStr 0x4234 0 [15, 0, 0, 0, 0, 0, 4]), 4, svc32 0x4C4300A8, reaches_of (by decide +kernel)⟩

theorem meets_PortsQueuesMetersGatesAndLinks_25 : ∃ s : State, ∃ q : Nat, ∃ x : Nat, ∃ g : GateList, (q < 5) ∧ (q < s.m.net.ports.length) ∧ ((s.m.port q).switch_ = some (x, g)) ∧ (g.mode = 0) ∧ (s.m.objN (0x4220 + q) 9 ≤ s.m.timeWord) :=
  ⟨started (fun m => { m.setN 0x4224 8 1 with net := { m.net with ports := m.net.ports.modify 4 (fun x => { x with switch_ := some (5, { entries := [(9, 2000)] }) }) } }), 4, 5, { entries := [(9, 2000)] }, by decide +kernel⟩

theorem meets_PortsQueuesMetersGatesAndLinks_26 : ∃ s : State, ∃ q : Nat, ((s.m.port q).switch_ = none) :=
  ⟨started id, 4, by decide +kernel⟩

theorem meets_PortsQueuesMetersGatesAndLinks_27 : ∃ s : State, ∃ q : Nat, (q < 5) ∧ (portFitted s.unit.orderX q = true) ∧ (s.m.objN (0x4010 + q) 2 = 0) ∧ (s.m.power ≤ 2) ∧ (s.m.settled = true) :=
  ⟨started id, 4, by decide +kernel⟩

theorem meets_PortsQueuesMetersGatesAndLinks_28 : ∃ s : State, ∃ q : Nat, (q < 5) ∧ (s.m.net.ports.length = 5) ∧ (s.m.linkUp q = true) ∧ (s.m.settled = true) :=
  ⟨started (fun m => { m.setN 0x4014 2 1 with net := { m.net with ports := m.net.ports.modify 4 (fun x => { x with queues := [[], [], [⟨2, 0, false, false, 0, [1], none⟩], []] }) } }), 4, by decide +kernel⟩

theorem meets_PortsQueuesMetersGatesAndLinks_29 : ∃ s : State, ∃ q : Nat, (5 ≤ q ∨ s.m.linkUp q = false) :=
  ⟨started id, 4, by decide +kernel⟩

theorem meets_PortsQueuesMetersGatesAndLinks_30 : ∃ s : State, ∃ q : Nat, (q < 4) ∧ (portFitted s.unit.orderX q = true) ∧ (s.m.settled = true) :=
  ⟨started (fun m => m.setN 0x4011 2 2), 1, by decide +kernel⟩

theorem meets_PortsQueuesMetersGatesAndLinks_31 : ∃ s : State, ∃ q : Nat, (q < 4) ∧ (portFitted s.unit.orderX q = true) ∧ (s.m.objN (0x4010 + q) 2 ≠ 2) ∧ (s.m.settled = true) :=
  ⟨started (fun m => m.setN 0x4011 2 1), 1, by decide +kernel⟩

theorem meets_StageDemandsOfLineAndRiser_1 : ∃ s : State, ∃ v : Nat, ∃ f : Nat, ∃ k : Nat, (s.m.forced 17 0 = none) ∧ (580 ≤ v) ∧ (k < 6) ∧ (v < 65536) ∧ (f < 65536) ∧ (s.m.power_.line.below.length = 7) ∧ (s.m.power_.line.above.length = 7) ∧ (s.m.power_.line.on.length = 7) ∧ (s.m.power_.line.on.getD 6 false = false) ∧ (v < (stageThresholds.getD k (0, 0, 0, 0)).1) ∧ (s.m.power_.line.below.getD k none ≠ none) :=
  ⟨started (fun m => m.onPower (fun x => { x with line := { x.line with below := List.replicate 7 (some 0) } })), 641, 5000, 4, by decide +kernel⟩

theorem meets_StageDemandsOfLineAndRiser_2 : ∃ s : State, ∃ v : Nat, ∃ k : Nat, (s.m.forced 17 0 = none) ∧ (580 ≤ v) ∧ (k < 6) ∧ (s.m.power_.line.below.length = 7) ∧ (s.m.power_.line.above.length = 7) ∧ (s.m.power_.line.on.length = 7) ∧ (s.m.power_.line.on.getD 6 false = false) ∧ (v < (stageThresholds.getD k (0, 0, 0, 0)).1) ∧ (s.m.power_.line.below.getD k none = none) ∧ (s.m.power_.line.on.getD k false = false) :=
  ⟨started id, 639, 5, by decide +kernel⟩

theorem meets_StageDemandsOfLineAndRiser_3 : ∃ s : State, ∃ v : Nat, ∃ k : Nat, ∃ at_ : Nat, (s.m.forced 17 0 = none) ∧ (580 ≤ v) ∧ (k < 6) ∧ (s.m.power_.line.below.length = 7) ∧ (s.m.power_.line.above.length = 7) ∧ (s.m.power_.line.on.length = 7) ∧ (s.m.power_.line.on.getD 6 false = false) ∧ ((stageThresholds.getD k (0, 0, 0, 0)).2.1 ≤ v) ∧ (s.m.power_.line.above.getD k none = some at_) ∧ (at_ + sec 2 ≤ s.m.now) :=
  ⟨started (fun m => { m with clk := { m.clk with mono := sec 2 } } |>.onPower (fun x => { x with line := { x.line with on := List.replicate 6 true ++ [false], above := List.replicate 7 (some 0) } })), 800, 3, 0, by decide +kernel⟩

theorem meets_StageDemandsOfLineAndRiser_4 : ∃ s : State, ∃ v : Nat, ∃ k : Nat, ∃ at_ : Nat, (3100 ≤ v) ∧ (k < 6) ∧ (v < 65536) ∧ (s.m.power_.riser.below.length = 7) ∧ (s.m.power_.riser.above.length = 7) ∧ (s.m.power_.riser.on.length = 7) ∧ (s.m.power_.riser.on.getD 6 false = false) ∧ (v < (stageThresholds.getD k (0, 0, 0, 0)).2.2.1) ∧ (s.m.power_.riser.below.getD k none = some at_) ∧ (at_ + ms 2 ≤ s.m.now) :=
  ⟨started (fun m => { m with clk := { m.clk with mono := ms 2 } } |>.onPower (fun x => { x with riser := { x.riser with below := List.replicate 7 (some 0) } })), 3499, 3, 0, by decide +kernel⟩

theorem meets_StageDemandsOfLineAndRiser_5 : ∃ s : State, ∃ v : Nat, ∃ k : Nat, (3100 ≤ v) ∧ (k < 6) ∧ (s.m.power_.riser.below.length = 7) ∧ (s.m.power_.riser.above.length = 7) ∧ (s.m.power_.riser.on.length = 7) ∧ (s.m.power_.riser.on.getD 6 false = false) ∧ (v < (stageThresholds.getD k (0, 0, 0, 0)).2.2.1) ∧ (s.m.power_.riser.below.getD k none = none) ∧ (s.m.power_.riser.on.getD k false = false) :=
  ⟨started id, 3849, 0, by decide +kernel⟩

theorem meets_StageDemandsOfLineAndRiser_6 : ∃ s : State, ∃ v : Nat, ∃ k : Nat, ∃ at_ : Nat, (3100 ≤ v) ∧ (k < 6) ∧ (s.m.power_.riser.below.length = 7) ∧ (s.m.power_.riser.above.length = 7) ∧ (s.m.power_.riser.on.length = 7) ∧ (s.m.power_.riser.on.getD 6 false = false) ∧ ((stageThresholds.getD k (0, 0, 0, 0)).2.2.2 ≤ v) ∧ (s.m.power_.riser.above.getD k none = some at_) ∧ (at_ + sec 2 ≤ s.m.now) :=
  ⟨started (fun m => { m with clk := { m.clk with mono := sec 2 } } |>.onPower (fun x => { x with riser := { x.riser with on := List.replicate 6 true ++ [false], above := List.replicate 7 (some 0) } })), 3920, 0, 0, by decide +kernel⟩

theorem meets_StageInForceFollowsTheDemands_1 : ∃ s : State, ∃ d : Nat, (s.m.power ≤ 1) ∧ (5 ≤ s.m.boot.step) ∧ (s.m.boot.cores.contains 3 = false) ∧ (s.m.demanded.1 = d) ∧ (s.m.stage < d) ∧ (d ≤ 5) :=
  ⟨started (fun m => m.setN 0x2000 9 3), 3, by decide +kernel⟩

theorem meets_StageInForceFollowsTheDemands_2 : ∃ s : State, (s.m.power ≤ 1) ∧ (5 ≤ s.m.boot.step) ∧ (s.m.boot.cores.contains 3 = false) ∧ (s.m.demanded.1 < s.m.stage) ∧ (s.m.stage ≤ 5) ∧ (s.m.power_.changedAt + sec 2 ≤ s.m.now) :=
  ⟨started (fun m => ({ m with clk := { m.clk with mono := sec 2 } } : Mach).setN 0x2000 6 1) 1, by decide +kernel⟩

theorem meets_StageInForceFollowsTheDemands_3 : ∃ s : State, (s.m.demanded.1 ≤ s.m.stage) ∧ (s.m.now < s.m.power_.changedAt + sec 2) :=
  ⟨started (fun m => m.setN 0x2000 6 1), by decide +kernel⟩

theorem meets_StageInForceFollowsTheDemands_4 : ∃ s : State, ∃ w p m, Reaches s 0x2000 9 w p m ∧ (m.power ≤ 1) ∧ (5 ≤ m.boot.step) ∧ (m.boot.cores.contains 3 = false) ∧ (p.n ≤ 5) ∧ (m.stage < p.n) ∧ (m.power_.line.stage ≤ p.n) ∧ (m.power_.riser.stage ≤ p.n) ∧ (m.objN 0x2000 0x0A ≤ p.n) :=
  ⟨started id, svc 2 [4], reaches_of (by decide +kernel)⟩

theorem meets_PowerRequestsTakeEffect_1 : ∃ s : State, ∃ w p m, Reaches s 0x2100 2 w p m ∧ (ofBE w.value = 0x4C430210) ∧ (p.n = 0x4C430210) ∧ (m.power = 2) ∧ (m.stopping = false) ∧ (m.stage ≤ 5) :=
  ⟨started id 2, svc32 0x4C430210, reaches_of (by decide +kernel)⟩

theorem meets_PowerRequestsTakeEffect_2 : ∃ s : State, ∃ w p m, Reaches s 0x2100 2 w p m ∧ (ofBE w.value = 0x4C430210) ∧ (p.n = 0x4C430210) ∧ (m.power = 2) ∧ (m.stopping = false) ∧ (6 ≤ m.stage) :=
  ⟨started (fun m => m.setN 0x2000 6 6) 2, svc32 0x4C430210, reaches_of (by decide +kernel)⟩

theorem meets_PowerRequestsTakeEffect_3 : ∃ s : State, ∃ w p m, Reaches s 0x2100 2 w p m ∧ (ofBE w.value = 0x4C430210) ∧ (p.n = 0x4C430210) ∧ (m.power ≤ 1) ∧ (m.stopping = false) :=
  ⟨started id, svc32 0x4C430210, reaches_of (by decide +kernel)⟩

theorem meets_PowerRequestsTakeEffect_4 : ∃ s : State, ∃ w p m, Reaches s 0x2100 2 w p m ∧ (ofBE w.value = 0x4C430212) ∧ (p.n = 0x4C430212) ∧ (m.power ≤ 1) ∧ (m.stopping = false) ∧ (m.scheduled = false) :=
  ⟨started id, svc32 0x4C430212, reaches_of (by decide +kernel)⟩

theorem meets_PowerRequestsTakeEffect_5 : ∃ s : State, ∃ w p m, Reaches s 0x2100 2 w p m ∧ (ofBE w.value = 0x4C430213) ∧ (p.n = 0x4C430213) ∧ (m.power ≤ 2) ∧ (m.stopping = false) ∧ (m.scheduled = false) :=
  ⟨started id, svc32 0x4C430213, reaches_of (by decide +kernel)⟩

theorem meets_PowerRequestsTakeEffect_6 : ∃ s : State, ∃ w p m, Reaches s 0x2100 2 w p m ∧ (ofBE w.value = 0x4C430212) ∧ (p.n = 0x4C430212) ∧ (m.stopping = true) :=
  ⟨started (fun m => m.onPower (fun x => { x with entry := some (0, 1) })), svc32 0x4C430212, reaches_of (by decide +kernel)⟩

theorem meets_PowerRequestsTakeEffect_7 : ∃ s : State, ∃ w p m, Reaches s 0x2100 2 w p m ∧ (ofBE w.value = 0x4C430213) ∧ (p.n = 0x4C430213) ∧ (m.power ≤ 2) ∧ (m.stopping = false) ∧ (m.scheduled = true) :=
  ⟨started (fun m => m.setN 0x5000 0x0A 2), svc32 0x4C430213, reaches_of (by decide +kernel)⟩

theorem meets_PowerRequestsTakeEffect_8 : ∃ s : State, ∃ w p m, Reaches s 0x2100 2 w p m ∧ (ofBE w.value = 0x4C430214) ∧ (p.n = 0x4C430214) ∧ (m.power ≤ 2) ∧ (m.stopping = false) ∧ (m.scheduled = true) ∧ (m.boot.shut = 0) ∧ (m.boot.step ≠ 0) :=
  ⟨started (fun m => m.setN 0x5000 0x0A 2), svc32 0x4C430214, reaches_of (by decide +kernel)⟩

theorem meets_WakesReachTheModule_1 : ∃ s : State, ∃ q : Nat, ∃ data : Bytes, (q < 5) ∧ ((s.m.objN 0x2100 7).testBit q = true) ∧ (portFitted s.unit.orderX q = true) ∧ (s.m.wakeFrame s.ctx q data = true) ∧ ((s.m.objN 0x2100 4 ||| 64).testBit 1 = true) ∧ (s.m.power = 3) ∧ (s.m.boot.shut = 0) ∧ (s.m.power_.stop = none) ∧ (s.m.objN 0x2100 3 = 0xFF) ∧ (s.m.stage ≤ 5) ∧ (s.m.power_.wakes.length = 7) :=
  ⟨started id 3, 4, List.replicate 6 0xFF ++ List.replicate 6 0 ++ [0x88, 0xB5, 0x4B, 0x57, 0x44, 0x2D, 0x57, 0x41, 0x4B, 0x45] ++ State.reset.unit.serial, by decide +kernel⟩

theorem meets_WakesReachTheModule_2 : ∃ s : State, ∃ u : Nat, (s.m.power = 4) ∧ (s.m.boot.shut = 0) ∧ (u < 2) ∧ ((s.m.objN 0x2100 4 ||| 64).testBit 3 = true) ∧ (s.m.power_.dead = false) :=
  ⟨started (fun m => m.onPower (fun x => { x with startable := false })) 4, 1, by decide +kernel⟩

theorem meets_WakesReachTheModule_3 : ∃ s : State, (s.m.power = 4) ∧ (s.m.boot.shut = 0) ∧ ((s.m.objN 0x2100 4 ||| 64).testBit 4 = true) ∧ (s.m.power_.dead = false) :=
  ⟨started (fun m => m.onPower (fun x => { x with startable := false })) 4, by decide +kernel⟩

theorem meets_WakesReachTheModule_4 : ∃ s : State, (s.m.power = 4) ∧ (s.m.boot.shut = 0) ∧ (s.m.objN 0x2100 6 ≠ 0) ∧ (s.m.objN 0x2100 6 * 32768 ≤ s.m.clk.ao - s.m.power_.downAo) ∧ ((s.m.objN 0x2100 4 ||| 64).testBit 5 = true) ∧ (s.m.power_.dead = false) :=
  ⟨started (fun m => { m.setN 0x2100 6 2 with clk := { m.clk with ao := 65536 } }) 4, by decide +kernel⟩

theorem meets_WakesReachTheModule_5 : ∃ s : State, ∃ at_ : Nat, (s.m.power = 4) ∧ (s.m.boot.shut = 0) ∧ (s.m.power_.dead = true) ∧ (s.m.clk.lost = false) ∧ (s.m.power_.goodAt = some at_) ∧ (at_ + sec 2 ≤ s.m.now) ∧ (3920 ≤ s.m.objN 0x2000 3) :=
  ⟨started (fun m => ({ m with clk := { m.clk with mono := sec 2, lost := false } } : Mach).setN 0x2000 3 3920 |>.onPower (fun x => { x with dead := true, goodAt := some 0 })) 4, 0, by decide +kernel⟩

theorem meets_WakesReachTheModule_6 : ∃ s : State, ∃ n : Nat, ∃ b : Bool, (s.m.power = 4) ∧ (s.m.boot.shut = 0) ∧ (n < 2) ∧ (s.m.objN (0x3120 + n) 2 = 2 ∨ s.m.objN (0x3120 + n) 2 = bit b) ∧ ((s.m.objN 0x2100 4 ||| 64).testBit 3 = true) ∧ (s.m.power_.dead = false) :=
  ⟨started (fun m => (m.setN 0x3121 2 2).onPower (fun x => { x with startable := false })) 4, 1, false, by decide +kernel⟩

theorem meets_WakesReachTheModule_7 : ∃ s : State, ∃ u : Nat, (u < 2) ∧ ((s.m.objN 0x2100 4 ||| 64).testBit 3 = true) ∧ (s.m.power ≤ 2) ∧ (s.m.boot.shut = 0) ∧ (s.m.power_.stop = some 3) ∧ (s.m.power_.entry = none) ∧ (s.m.power = 2 ∨ s.m.stage ≤ 5) ∧ (s.m.objN 0x2100 3 = 0xFF) ∧ (s.m.power_.wakes.length = 7) :=
  ⟨started (fun m => (m.setN 0x5000 0x0A 2).onPower (fun x => { x with stop := some 3 })), 0, by decide +kernel⟩

theorem meets_WakesReachTheModule_8 : ∃ s : State, ∃ u : Nat, (u < 2) ∧ (s.m.power ≤ 2) ∧ (s.m.boot.shut = 0) ∧ (s.m.power_.stop ≠ some 3) ∧ (s.m.power_.entry = none) :=
  ⟨started id, 0, by decide +kernel⟩

theorem meets_AbruptStopsQuenchAndLeadToP4_1 : ∃ s : State, (s.m.power ≤ 3) ∧ (1 ≤ s.m.boot.step) ∧ (s.m.objN 0x6401 1 = 0) ∧ (s.m.objN 0x2000 0x0E < 4294967295) :=
  ⟨started id, by decide +kernel⟩

theorem meets_AbruptStopsQuenchAndLeadToP4_2 : ∃ s : State, ∃ n : Nat, (s.m.power ≤ 3) ∧ (1 ≤ s.m.boot.step) ∧ (s.m.objN 0x6401 1 = 0) ∧ (n < 28) ∧ (s.m.power ≤ 2 ∨ 23 ≤ n) ∧ (s.m.objN (0x2220 + n) 5 = 0) ∧ (2 ≤ (s.m.sensor n).tripRun) ∧ (s.m.objN 0x2200 0x0A < 4294967295) :=
  ⟨started (fun m => m.onSensor 5 (fun x => { x with tripRun := 2 })), 5, by decide +kernel⟩

theorem meets_AbruptStopsQuenchAndLeadToP4_3 : ∃ s : State, (s.m.power ≤ 2) ∧ (5 ≤ s.m.boot.step) ∧ (s.m.objN 0x6401 1 = 0) :=
  ⟨started id, by decide +kernel⟩

theorem meets_AbruptStopsQuenchAndLeadToP4_4 : ∃ s : State, ∃ k : Nat, ∃ cause : Nat, (s.m.power ≤ 3) ∧ (1 ≤ s.m.boot.step) ∧ (k < 7) ∧ (1 ≤ cause) ∧ (cause ≤ 4) ∧ (s.m.objN (0x2021 + k) 1 = 1) ∧ (6 ≤ s.m.phasesIn 0 + s.m.phasesIn 1) ∧ (s.m.objN (0x2021 + k) 3 < 65535) ∧ (s.m.objN 0x1200 4 ≠ 0) :=
  ⟨started id, 2, 3, by decide +kernel⟩

theorem meets_AbruptStopsQuenchAndLeadToP4_5 : ∃ s : State, ∃ ix : Nat, (s.m.power_.woken.all (fun w => w.1 != ix || decide (w.2 + ms 100 ≤ s.m.now)) = true) :=
  ⟨started (fun m => { m with clk := { m.clk with mono := ms 100 } } |>.onPower (fun x => { x with woken := [(0x5320, 0)] })), 0x5320, by decide +kernel⟩

theorem meets_SensorsReadFilterAndFail_1 : ∃ s : State, ∃ n : Nat, ∃ raw : Int, ∃ r : Int, ∃ f : Int, (n < 28) ∧ (n < s.m.thermal.sensors.length) ∧ (s.m.thermalLoop = true) ∧ (s.m.settled = true) ∧ (s.m.armedAt 14 n = false) ∧ (s.m.forced 25 n = none) ∧ (s.m.sensorState n = 0) ∧ ((s.m.sensor n).seeded = true) ∧ (r = raw + s.m.setting 5 n 0) ∧ (-640 ≤ r) ∧ (r ≤ 2400) ∧ (f = s.m.filtered n + ((r - s.m.filtered n) * (if s.m.objN (0x2220 + n) 7 = 100 then 164 else if s.m.objN (0x2220 + n) 7 = 1000 then 1618 else 14497) + 32768) / 65536) ∧ (f < s.m.obj (0x2240 + sensorClass n) 4) :=
  ⟨started (fun m => ((m.set 0x2228 4 800).onSensor 8 (fun x => { x with seeded := true })).onCalib (fun x => { x with moving := (calKey 5 8, [0]) :: x.moving })), 8, 900, 900, 822, by decide +kernel⟩

theorem meets_SensorsReadFilterAndFail_2 : ∃ s : State, ∃ n : Nat, ∃ raw : Int, ∃ r : Int, (n < 28) ∧ (n < s.m.thermal.sensors.length) ∧ (s.m.thermalLoop = true) ∧ (s.m.settled = true) ∧ (s.m.armedAt 14 n = false) ∧ (s.m.forced 25 n = none) ∧ (s.m.sensorState n = 0) ∧ ((s.m.sensor n).seeded = false) ∧ (r = raw + s.m.setting 5 n 0) ∧ (-640 ≤ r) ∧ (r ≤ 2400) ∧ (r < s.m.obj (0x2240 + sensorClass n) 4) :=
  ⟨started (fun m => m.onCalib (fun x => { x with moving := (calKey 5 27, [-3]) :: x.moving })), 27, 400, 397, by decide +kernel⟩

theorem meets_SensorsReadFilterAndFail_3 : ∃ s : State, ∃ n : Nat, ∃ raw : Int, (n < 28) ∧ (s.m.thermalLoop = true) ∧ (s.m.settled = true) ∧ (s.m.armedAt 14 n = false) ∧ (s.m.forced 25 n = none) ∧ ((upTo 28).all (fun k => decide (s.m.sensorState k = 0)) = true) ∧ (raw + s.m.setting 5 n 0 < -640 ∨ 2400 < raw + s.m.setting 5 n 0) :=
  ⟨started (fun m => m.onCalib (fun x => { x with moving := (calKey 5 0, [160]) :: x.moving })), 0, 2241, by decide +kernel⟩

theorem meets_SensorsReadFilterAndFail_4 : ∃ s : State, ∃ n : Nat, (n < 28) ∧ (s.m.thermalLoop = true) ∧ (s.m.settled = true) ∧ (s.m.armedAt 14 n = false) ∧ (s.m.forced 25 n = none) ∧ ((upTo 28).all (fun k => decide (s.m.sensorState k = 0)) = true) :=
  ⟨started id, 12, by decide +kernel⟩

theorem meets_SensorsReadFilterAndFail_5 : ∃ s : State, ∃ n : Nat, (n < 28) ∧ (s.m.thermalLoop = true) ∧ (s.m.settled = true) ∧ ((upTo 28).all (fun k => decide (s.m.sensorState k = 0)) = true) ∧ ((s.m.sensor n).lastAt + us (3 * s.m.objN (0x2220 + n) 7) ≤ s.m.now) :=
  ⟨started (fun m => { m with clk := { m.clk with mono := ms 30 } }), 21, by decide +kernel⟩

theorem meets_SensorsReadFilterAndFail_6 : ∃ s : State, ∃ n : Nat, (23 ≤ n) ∧ (n < 28) ∧ (3 ≤ s.m.power) ∧ (s.m.testing = none) ∧ (s.m.settled = true) ∧ ((s.m.sensor n).lastAt + ms 100 ≤ s.m.now) ∧ (s.m.armedAt 14 n = false) ∧ (s.m.forced 25 n = none) ∧ (s.m.sensorState n = 0) :=
  ⟨started (fun m => { m with clk := { m.clk with mono := ms 100 } }) 3, 23, by decide +kernel⟩

theorem meets_SensorsReadFilterAndFail_7 : ∃ s : State, ∃ n : Nat, (s.m.settled = true) ∧ (28 ≤ n ∨ (3 ≤ s.m.power ∧ (n < 23 ∨ s.m.now < (s.m.sensor n).lastAt + ms 100))) :=
  ⟨started (fun m => { m with clk := { m.clk with mono := ms 100 } }) 4, 22, by decide +kernel⟩

theorem meets_FailedSensorsClearAndRelease_1 : ∃ s : State, ∃ n : Nat, ∃ w p m, Reaches s (0x2220 + n) 8 w p m ∧ (n < 28) ∧ (n < m.thermal.sensors.length) ∧ (m.sensorState n ≠ 0) :=
  ⟨withSession (fun m => m.setN 0x2224 5 2) 0 .service, 4, signed 0x2224 8 4 (beBytes 4 0x4C430220), reaches_of (by decide +kernel)⟩

theorem meets_FailedSensorsClearAndRelease_2 : ∃ s : State, ∃ n : Nat, ∃ w p m, Reaches s (0x2220 + n) 8 w p m ∧ (n < 28) ∧ (m.sensorState n = 0) :=
  ⟨withSession id 0 .service, 4, signed 0x2224 8 4 (beBytes 4 0x4C430220), reaches_of (by decide +kernel)⟩

theorem meets_FailedSensorsClearAndRelease_3 : ∃ s : State, ∃ n : Nat, ∃ w p m, Reaches s (0x2220 + n) 9 w p m ∧ (n < 28) ∧ (n < m.thermal.sensors.length) ∧ (m.sensorState n = 1) ∧ (m.sensorValid (sensorTwin n) = true) :=
  ⟨started (fun m => m.setN 0x2224 5 1), 4, svc32 0x4C430221, reaches_of (by decide +kernel)⟩

theorem meets_FailedSensorsClearAndRelease_4 : ∃ s : State, ∃ n : Nat, ∃ w p m, Reaches s (0x2220 + n) 9 w p m ∧ (n < 28) ∧ (m.sensorState n = 2 ∨ m.sensorState n = 0 ∨ m.sensorValid (sensorTwin n) = false) :=
  ⟨started (fun m => m.setN 0x2224 5 2), 4, svc32 0x4C430221, reaches_of (by decide +kernel)⟩

theorem meets_FansFollowTheMargin_1 : ∃ s : State, (s.m.thermalLoop = true) ∧ (s.m.thermal.fanAt + ms 100 ≤ s.m.now) ∧ (s.m.throttle ≠ 0 ∨ s.m.objN 0x2200 7 ≠ 0) :=
  ⟨started (fun m => { m with clk := { m.clk with mono := ms 100 } } |>.setN 0x2200 1 1), by decide +kernel⟩

theorem meets_FansFollowTheMargin_2 : ∃ s : State, ∃ n : Nat, ∃ g : Int, (s.m.thermalLoop = true) ∧ (s.m.thermal.fanAt + ms 100 ≤ s.m.now) ∧ (s.m.throttle = 0) ∧ (s.m.objN 0x2200 7 = 0) ∧ (n < 28) ∧ (s.m.hasValue n = true) ∧ (g = s.m.threshold n 1 - s.m.thermalValue n) ∧ ((upTo 28).all (fun k => !s.m.hasValue k || decide (g ≤ s.m.threshold k 1 - s.m.thermalValue k)) = true) ∧ (g ≤ 32767) :=
  ⟨started (fun m => { m with clk := { m.clk with mono := ms 100 } } |>.onSensor 26 (fun x => { x with seeded := true }) |>.set 0x223A 4 480), 26, 160, by decide +kernel⟩

theorem meets_FansFollowTheMargin_3 : ∃ s : State, ∃ fan : Nat, (fan < 4) ∧ (s.m.coreUp 3 = true) ∧ ((s.m.objN 0x2200 7).testBit fan = false) ∧ (s.m.power ≤ 2) ∧ (5 ≤ s.m.boot.step) :=
  ⟨started id, 3, by decide +kernel⟩

theorem meets_CalibrationCommandsAct_1 : ∃ s : State, ∃ w p m, Reaches s 0x7800 5 w p m ∧ (ofBE w.value = 0x4C430780) ∧ (p.n = 0x4C430780) ∧ (s.life ≠ .retired) ∧ ((m.objN 0x7800 1 = 2 ∨ m.objN 0x7800 1 = 5) → (s.life = .factory ∨ s.life = .service)) ∧ (m.calState = 0 ∨ 5 ≤ m.calState) ∧ (m.objN 0x7800 2 < itemCount (m.objN 0x7800 1)) ∧ (m.objN 0x7800 1 = 5 → m.obj 0x7800 3 ≠ 0x7FFF) ∧ (m.objN 0x7800 1 = 3 → m.objN 0x7800 4 ≠ 0xFFFFFFFF) ∧ (m.objN 0x7800 0x0C < 4294967295) :=
  ⟨started (fun m => m.sets 0x7800 [(1, 5), (2, 27), (3, 400)]), svc32 0x4C430780, reaches_of (by decide +kernel)⟩

theorem meets_CalibrationCommandsAct_2 : ∃ s : State, ∃ w p m, Reaches s 0x7800 5 w p m ∧ (ofBE w.value = 0x4C430780) ∧ (p.n = 0x4C430780) ∧ (s.life = .retired ∨ ((m.objN 0x7800 1 = 2 ∨ m.objN 0x7800 1 = 5) ∧ (s.life = .provisioned ∨ s.life = .field)) ∨ (1 ≤ m.calState ∧ m.calState ≤ 4)) :=
  ⟨started (fun m => m.setN 0x7800 6 4), svc32 0x4C430780, reaches_of (by decide +kernel)⟩

theorem meets_CalibrationCommandsAct_3 : ∃ s : State, ∃ w p m, Reaches s 0x7800 5 w p m ∧ (ofBE w.value = 0x4C430781) ∧ (p.n = 0x4C430781) ∧ (1 ≤ m.calState) ∧ (m.calState ≤ 3) :=
  ⟨started (fun m => m.setN 0x7800 6 2), svc32 0x4C430781, reaches_of (by decide +kernel)⟩

theorem meets_CalibrationCommandsAct_4 : ∃ s : State, ∃ w p m, Reaches s 0x7800 5 w p m ∧ (ofBE w.value = 0x4C430781) ∧ (p.n = 0x4C430781) ∧ (m.calState = 0 ∨ 4 ≤ m.calState) :=
  ⟨started id, svc32 0x4C430781, reaches_of (by decide +kernel)⟩

theorem meets_CalibrationCommandsAct_5 : ∃ s : State, ∃ w p m, Reaches s 0x7800 5 w p m ∧ (ofBE w.value = 0x4C430783) ∧ (p.n = 0x4C430783) ∧ (m.calState = 4) :=
  ⟨started (fun m => m.setN 0x7800 6 4), svc32 0x4C430783, reaches_of (by decide +kernel)⟩

theorem meets_CalibrationCommandsAct_6 : ∃ s : State, ∃ k : Nat, ∃ w p m, Reaches s 0x7800 5 w p m ∧ (ofBE w.value = 0x4C430782) ∧ (p.n = 0x4C430782) ∧ (m.calState = 4) ∧ (m.targetSlot (calKey m.calib.run.item m.calib.run.inst) m.calib.run.temp (m.objN 0x7800 0x0B) = some k) :=
  ⟨started (fun m => m.setN 0x7800 6 4), 0, svc32 0x4C430782, reaches_of (by decide +kernel)⟩

theorem meets_CalibrationCommandsAct_7 : ∃ s : State, ∃ w p m, Reaches s 0x7800 5 w p m ∧ (ofBE w.value = 0x4C430783) ∧ (p.n = 0x4C430783) ∧ (m.calState ≠ 4) :=
  ⟨started id, svc32 0x4C430783, reaches_of (by decide +kernel)⟩

theorem meets_CalibrationPassesAndEndings_1 : ∃ s : State, (s.m.calState = 1) ∧ (s.m.calChecks s.m.calib.run.item s.m.calib.run.inst = 0) :=
  ⟨started (fun m => (m.sets 0x7800 [(6, 1), (3, 0)]).onCalib (fun x => { x with run := { x.run with item := 5 } })), by decide +kernel⟩

theorem meets_CalibrationPassesAndEndings_2 : ∃ s : State, ∃ failed : Nat, (s.m.calState = 1) ∧ (s.m.calChecks s.m.calib.run.item s.m.calib.run.inst = 0) ∧ ((checkCodes s.m.calib.run.item).contains failed = true) ∧ (failed ≠ 0) :=
  ⟨started (fun m => (m.sets 0x7800 [(6, 1), (3, 0)]).onCalib (fun x => { x with run := { x.run with item := 5 } })), 5, by decide +kernel⟩

theorem meets_CalibrationPassesAndEndings_3 : ∃ s : State, (s.m.calState = 2) ∧ (s.m.calib.run.v1 = []) ∧ (s.m.calChecks s.m.calib.run.item s.m.calib.run.inst = 0) :=
  ⟨started (fun m => (m.sets 0x7800 [(6, 2), (3, 0)]).onCalib (fun x => { x with run := { x.run with item := 5 } })), by decide +kernel⟩

theorem meets_CalibrationPassesAndEndings_4 : ∃ s : State, ∃ x : Int, (s.m.calState = 2) ∧ (s.m.calib.run.v1 ≠ []) ∧ (s.m.calib.run.since + calGap s.m.calib.run.item ≤ s.m.now) ∧ (s.m.calChecks s.m.calib.run.item s.m.calib.run.inst = 0) ∧ (x = s.m.meanOf (tempSensors (tempPlace s.m.calib.run.item s.m.calib.run.inst)) (s.m.calTemp s.m.calib.run.item s.m.calib.run.inst)) ∧ ((x - s.m.calib.run.t1).natAbs ≤ 32) :=
  ⟨started (fun m => { m with clk := { m.clk with mono := sec 30 } } |>.sets 0x7800 [(6, 2), (3, 0)] |>.onCalib (fun x => { x with run := { x.run with item := 5, t1 := 20, v1 := [3] } })), 0, by decide +kernel⟩

theorem meets_CalibrationPassesAndEndings_5 : ∃ s : State, ∃ x : List Int, ∃ u : Int, ∃ v : Int, (s.m.calState = 3) ∧ (s.m.calib.run.item = 3) ∧ (s.m.calib.run.v1 = [u]) ∧ (s.m.passValues 3 s.m.calib.run.inst x = [v]) ∧ (s.m.calChecks s.m.calib.run.item s.m.calib.run.inst = 0) ∧ ((u - v).natAbs ≤ 8) ∧ (0 ≤ v) ∧ (v ≤ 2047) :=
  ⟨started (fun m => ((m.setN 0x7800 6 3).setN 0x7800 4 4800).onCalib (fun x => { x with sets := [(calKey 3 2, [some ⟨0, [400]⟩, none, none, none, none])], run := { x.run with item := 3, inst := 2, t1 := 776, t2 := 780, v1 := [371] } })), [93029663], 371, 370, by decide +kernel⟩

theorem meets_CalibrationPassesAndEndings_6 : ∃ s : State, ∃ n : Nat, ∃ cause : Nat, (n < 64) ∧ (1 ≤ cause) ∧ (cause ≤ 3) ∧ (s.m.objN (0x6310 + n) 1 = 0) ∧ (s.m.testing = some (calKey 4 n)) ∧ (s.m.calib.run.item = 4) ∧ (s.m.calib.run.inst = n) :=
  ⟨started (fun m => (m.setN 0x7800 6 3).onCalib (fun x => { x with run := { x.run with item := 4, inst := 9 } })), 9, 1, by decide +kernel⟩

theorem meets_CalibrationPassesAndEndings_7 : ∃ s : State, ∃ a : Nat, (s.m.calState = 1) ∧ (s.m.calib.run.item = 2) ∧ (s.m.calChecks 2 s.m.calib.run.inst = 0) ∧ (a < 0x3B0000000 ∨ 0x3B0000800 ≤ a) :=
  ⟨started (fun m => (m.setN 0x7800 6 1).onCalib (fun x => { x with run := { x.run with item := 2, inst := 7 } })), 5, by decide +kernel⟩

theorem meets_CalibrationPassesAndEndings_8 : ∃ s : State, (s.m.calState = 3) ∧ (s.m.calib.run.since + calTimeout s.m.calib.run.item ≤ s.m.now) :=
  ⟨started (fun m => { m with clk := { m.clk with mono := sec 2 } } |>.setN 0x7800 6 3), by decide +kernel⟩

theorem meets_CalibrationPassesAndEndings_9 : ∃ s : State, (s.m.calState = 4) ∧ (s.m.calib.run.slot = none) ∧ (s.m.calib.run.since + sec 600 ≤ s.m.now) :=
  ⟨started (fun m => { m with clk := { m.clk with mono := sec 600 } } |>.setN 0x7800 6 4), by decide +kernel⟩

theorem meets_CalibrationPassesAndEndings_10 : ∃ s : State, ∃ k : Nat, (s.m.calState = 4) ∧ (s.m.calib.run.slot = some k) ∧ (k < 5) ∧ ((s.m.calSlots (calKey s.m.calib.run.item s.m.calib.run.inst)).length = 5) :=
  ⟨started (fun m => (m.setN 0x7800 6 4).onCalib (fun x => { x with run := { x.run with slot := some 2, temp := 778, result := [371], item := 3 } })), 2, by decide +kernel⟩

theorem meets_CalibrationSettingsMoveStepwise_1 : ∃ s : State, ∃ k : Nat, ∃ v : Int, ∃ e : Int, (s.m.power ≤ 2) ∧ (s.m.calib.steppedAt.any (fun t => s.m.now < t + us 1) = false) ∧ (2 ≤ k / 1024) ∧ (k / 1024 = 2 → (s.m.chan (k % 1024)).selfRefresh = 0) ∧ (k / 1024 = 3 → s.m.edgeNear (k % 1024) = false) ∧ (s.m.testing ≠ some k) ∧ (s.m.calib.moving = [(k, [v])]) ∧ (s.m.valuesInForce k = [e]) ∧ (v ≠ e) :=
  ⟨started (fun m => m.onCalib (fun x => { x with sets := [(calKey 3 2, [some ⟨0, [371]⟩, none, none, none, none])], moving := [(calKey 3 2, [400])] })), calKey 3 2, 400, 371, by decide +kernel⟩

theorem meets_CalibrationSettingsMoveStepwise_2 : ∃ s : State, ∃ u : Nat, (s.m.calib.steppedAt = some u) ∧ (s.m.now < u + us 1) :=
  ⟨started (fun m => m.onCalib (fun x => { x with steppedAt := some 0 })), 0, by decide +kernel⟩

theorem meets_CalibrationSettingsMoveStepwise_3 : ∃ s : State, ∃ a : List (Nat × List Int), ∃ o : Nat, ∃ l : List Int, (o < 8) ∧ (s.m.calib.moving = [(calKey 3 o, l)]) ∧ (s.m.edgeNear o = true) ∧ (l ≠ s.m.targets (calKey 3 o)) ∧ (a = []) :=
  ⟨started (fun m => ({ m with clk := { m.clk with reg := 65536 * 65536 } } : Mach).onSyncOut 5 (fun x => { x with active := true, endsAt := 65537 }) |>.onCalib (fun x => { x with sets := [(calKey 3 5, [some ⟨0, [371]⟩, none, none, none, none])], moving := [(calKey 3 5, [400])] })), [], 5, [400], by decide +kernel⟩

theorem meets_CalibrationSettingsMoveStepwise_4 : ∃ s : State, ∃ k : Nat, ∃ l : List Int, (s.m.power ≤ 2) ∧ (s.m.calib.moving = [(k, l)]) ∧ (l ≠ s.m.targets k) :=
  ⟨started (fun m => m.onCalib (fun x => { x with sets := [(calKey 3 2, [some ⟨0, [371]⟩, none, none, none, none])], moving := [(calKey 3 2, [400])] })), calKey 3 2, [400], by decide +kernel⟩

theorem meets_CalibrationSettingsMoveStepwise_5 : ∃ s : State, ∃ k : Nat, ∃ l : List Int, (s.m.power ≤ 2) ∧ (s.m.calib.moving = [(k, l)]) ∧ (s.m.testing = some k) ∧ (l ≠ s.m.targets k) :=
  ⟨started (fun m => (m.setN 0x7800 6 3).onCalib (fun x => { x with run := { x.run with item := 4, inst := 9 }, kept := [(calKey 4 9, [0x8000, 6])], moving := [(calKey 4 9, [0x8000, 5])] })), calKey 4 9, [0x8000, 5], by decide +kernel⟩

theorem meets_CalibrationSettingsMoveStepwise_6 : ∃ s : State, (s.m.schedState = 0) ∧ (s.m.power ≤ 2) ∧ (6 ≤ s.m.boot.step) ∧ (s.m.calib.latchedAt + ms 10 ≤ s.m.now) :=
  ⟨started (fun m => { m with clk := { m.clk with mono := ms 10 } }), by decide +kernel⟩

theorem meets_CalibrationSettingsMoveStepwise_7 : ∃ s : State, ∃ k : Nat, ∃ w p m, Reaches s 0x7808 5 w p m ∧ (p.s.calKey = k) ∧ (m.calState ≠ 4) ∧ ((p.s.own_ 0x7808 3).toNat < 5) ∧ ((m.calSlots k).length = 5) :=
  ⟨withSession (fun m => m.onCalib (fun x => { x with sets := [(0, [some ⟨0, [371]⟩, none, none, none, none])] })) 0 .service, 0, signed 0x7808 5 4 (beBytes 4 0x4C430785), reaches_of (by decide +kernel)⟩

theorem meets_CalibrationSettingsMoveStepwise_8 : ∃ s : State, ∃ w p m, Reaches s 0x7808 5 w p m ∧ (m.calState = 4) ∧ (calKey m.calib.run.item m.calib.run.inst = p.s.calKey) :=
  ⟨withSession (fun m => m.setN 0x7800 6 4) 0 .service, signed 0x7808 5 4 (beBytes 4 0x4C430785), reaches_of (by decide +kernel)⟩

theorem meets_CommandedTestsRunAndEnd_1 : ∃ s : State, ∃ w p m, Reaches s 0x7C01 5 w p m ∧ (ofBE w.value = 0x4C4307C1) ∧ (p.n = 0x4C4307C1) ∧ (s.life ≠ .factory ∧ s.life ≠ .service ∨ m.testRunning = true) :=
  ⟨started (fun m => m.setN 0x7C01 6 1), svc32 0x4C4307C1, reaches_of (by decide +kernel)⟩

theorem meets_CommandedTestsRunAndEnd_2 : ∃ s : State, ∃ w p m, Reaches s 0x7C01 5 w p m ∧ (ofBE w.value = 0x4C4307C1) ∧ (p.n = 0x4C4307C1) ∧ (s.life = .factory ∨ s.life = .service) ∧ (m.testRunning = false) ∧ (m.power ≤ 1) ∧ (m.calm = true) ∧ (m.objN 0x7C01 1 = 0) ∧ (m.objN 0x7C01 2 = 3) ∧ (m.objN 0x7C01 3 < 96) ∧ (m.objN 0x7C01 4 < 4) :=
  ⟨started (fun m => m.sets 0x7C01 [(2, 3), (3, 95), (4, 3)]), svc32 0x4C4307C1, reaches_of (by decide +kernel)⟩

theorem meets_CommandedTestsRunAndEnd_3 : ∃ s : State, ∃ w p m, Reaches s 0x7C01 5 w p m ∧ (ofBE w.value = 0x4C4307C1) ∧ (p.n = 0x4C4307C1) ∧ (s.life = .factory ∨ s.life = .service) ∧ (m.testRunning = false) ∧ (m.power ≤ 1) ∧ (m.calm = false) ∧ (testInRange (m.objN 0x7C01 1) (m.objN 0x7C01 2) (m.objN 0x7C01 3) (m.objN 0x7C01 4) = true) ∧ (needsFree (m.objN 0x7C01 1) (m.objN 0x7C01 2) = false) :=
  ⟨started (fun m => (m.sets 0x7C01 [(2, 3), (3, 95), (4, 3)]).setN 0x2000 6 1) 1, svc32 0x4C4307C1, reaches_of (by decide +kernel)⟩

theorem meets_CommandedTestsRunAndEnd_4 : ∃ s : State, ∃ w p m, Reaches s 0x7C01 5 w p m ∧ (ofBE w.value = 0x4C4307C0) ∧ (p.n = 0x4C4307C0) ∧ (m.testRunning = true) ∧ (m.objN 0x7C01 0x0D = 0) :=
  ⟨started (fun m => m.setN 0x7C01 6 1), svc32 0x4C4307C0, reaches_of (by decide +kernel)⟩

theorem meets_CommandedTestsRunAndEnd_5 : ∃ s : State, ∃ w p m, Reaches s 0x7C01 5 w p m ∧ (ofBE w.value = 0x4C4307C0) ∧ (p.n = 0x4C4307C0) ∧ (m.testRunning = false) :=
  ⟨started id, svc32 0x4C4307C0, reaches_of (by decide +kernel)⟩

theorem meets_CommandedTestsRunAndEnd_6 : ∃ s : State, ∃ e : Nat, ∃ g : Nat, (s.m.testRunning = true) ∧ (s.m.objN 0x7C01 0x0A ≤ e) ∧ (g = s.m.objN 0x7C01 0x0C) ∧ (g < 4294967296) ∧ (s.m.test.test.kind ≠ 0) ∧ (s.m.objN 0x7C01 0x0D = 0) :=
  ⟨started (fun m => (m.sets 0x7C01 [(6, 1), (0x0A, 64), (0x0C, 77)]).onTest (fun x => { x with test := { kind := 3 } })), 64, 77, by decide +kernel⟩

theorem meets_CommandedTestsRunAndEnd_7 : ∃ s : State, ∃ e : Nat, ∃ g : Nat, (s.m.testRunning = true) ∧ (s.m.objN 0x7C01 0x0A ≤ e) ∧ (g ≠ s.m.objN 0x7C01 0x0C) ∧ (g < 4294967296) ∧ (s.m.test.test.kind = 3) :=
  ⟨started (fun m => (m.sets 0x7C01 [(6, 1), (0x0A, 64), (0x0C, 77)]).onTest (fun x => { x with test := { kind := 3 } })), 64, 78, by decide +kernel⟩

theorem meets_CommandedTestsRunAndEnd_8 : ∃ s : State, ∃ e : Nat, (s.m.testRunning = true) ∧ (e < s.m.objN 0x7C01 0x0A) ∧ (s.m.test.test.kind ≠ 0) ∧ (s.m.objN 0x7C01 0x0D = 0) :=
  ⟨started (fun m => (m.sets 0x7C01 [(6, 1), (0x0A, 64), (0x0C, 77)]).onTest (fun x => { x with test := { kind := 3 } })), 63, by decide +kernel⟩

theorem meets_CommandedTestsRunAndEnd_9 : ∃ s : State, ∃ e : Nat, (s.m.testRunning = true) ∧ (e < s.m.objN 0x7C01 0x0A) ∧ (s.m.test.test.kind = 0) ∧ (s.m.objN 0x7C01 0x0D < 4294967295) ∧ (s.m.test.failures.length < 256) :=
  ⟨started (fun m => (m.sets 0x7C01 [(6, 1), (0x0A, 327680)]).onTest (fun x => { x with test := { kind := 0, cls := 3, inst := 95, macro_ := 3 } })), 2560, by decide +kernel⟩

theorem meets_CommandedTestsRunAndEnd_10 : ∃ s : State, ∃ w p m, Reaches s 0x7C01 5 w p m ∧ (ofBE w.value = 0x4C4307C0) ∧ (p.n = 0x4C4307C0) ∧ (m.testRunning = true) ∧ (m.objN 0x7C01 0x0D ≠ 0) :=
  ⟨started (fun m => (m.setN 0x7C01 6 1).setN 0x7C01 0x0D 1), svc32 0x4C4307C0, reaches_of (by decide +kernel)⟩

theorem meets_FettlingRotatesAndYields_1 : ∃ s : State, ∃ q : Nat, (s.m.fettles s.ctx = true) ∧ (s.m.scheduled = false) ∧ (s.m.test.sliceWord + us 16667 ≤ s.m.timeWord) ∧ (s.m.objN 0x7C00 4 = q) ∧ (q < 315392) ∧ (s.m.armedAt 24 (macroPlace memCounts (q / 128)).1 = false) ∧ (s.m.objN 0x7C00 6 < 18446744073709551615) ∧ (s.m.objN 0x7C00 5 < 18446744073709551615) :=
  ⟨{ started (fun m => ({ m with clk := { m.clk with reg := us 16667 * 65536 } } : Mach).setN 0x7C00 4 315391) 0 .field with m := { (started (fun m => ({ m with clk := { m.clk with reg := us 16667 * 65536 } } : Mach).setN 0x7C00 4 315391) 0 .field).m with boot := { (started id).m.boot with step := 8 } } }, 315391, by decide +kernel⟩

theorem meets_FettlingRotatesAndYields_2 : ∃ s : State, (s.m.fettles s.ctx = false) :=
  ⟨started id 0 .service, by decide +kernel⟩

theorem meets_FettlingRotatesAndYields_3 : ∃ s : State, ∃ q : Nat, (s.m.test.last = some q) ∧ (s.m.now ≤ s.m.test.sliceAt + us 20) ∧ (s.m.objN 0x7C00 4 = q + 1) ∧ (q < 315391) ∧ (s.m.test.yields < 7) ∧ (s.m.objN 0x7C00 7 < 18446744073709551615) :=
  ⟨started (fun m => (m.setN 0x7C00 4 1).onTest (fun x => { x with last := some 0 })), 0, by decide +kernel⟩

theorem meets_FettlingRotatesAndYields_4 : ∃ s : State, ∃ q : Nat, (s.m.test.last = some q) ∧ (s.m.now ≤ s.m.test.sliceAt + us 20) ∧ (s.m.objN 0x7C00 4 = q + 1) ∧ (q < 315391) ∧ (s.m.test.yields = 7) ∧ (s.m.objN 0x7C00 8 < 4294967295) :=
  ⟨started (fun m => (m.setN 0x7C00 4 1).onTest (fun x => { x with last := some 0, yields := 7 })), 0, by decide +kernel⟩

theorem meets_FettlingRotatesAndYields_5 : ∃ s : State, (s.m.scheduled = false) ∧ (s.m.power ≤ 2) ∧ (6 ≤ s.m.boot.step) ∧ (s.m.test.ledgerAt + us 16667 ≤ s.m.now) :=
  ⟨started (fun m => { m with clk := { m.clk with mono := us 16667 } }), by decide +kernel⟩

theorem meets_FettlingRotatesAndYields_6 : ∃ s : State, ∃ q : Nat, (s.m.scheduled = false) ∧ (s.m.power ≤ 2) ∧ (6 ≤ s.m.boot.step) ∧ (s.m.test.ledgerAt + us 16667 ≤ s.m.now) ∧ (s.m.coreUp 3 = true) ∧ (s.m.dram.failed = [q]) ∧ (q < 36) ∧ (s.m.dram.takeOver = none) :=
  ⟨started (fun m => { m with clk := { m.clk with mono := us 16667 } } |> fun m => { m with dram := { m.dram with failed := [35] } }), 35, by decide +kernel⟩

theorem meets_InjectionNeedsItsWindow_1 : ∃ s : State, ∃ w p m, Reaches s 0x7F00 1 w p m ∧ (ofBE w.value = 0x4C437F01) ∧ (p.n = 0x4C437F01) :=
  ⟨withSession id, signed 0x7F00 1 4 (beBytes 4 0x4C437F01), reaches_of (by decide +kernel)⟩

theorem meets_InjectionNeedsItsWindow_2 : ∃ s : State, ∃ w p m, Reaches s 0x7F00 1 w p m ∧ (ofBE w.value = 0x4C437F00) ∧ (p.n = 0x4C437F00) ∧ (m.objB 0x7F00 2 = true) :=
  ⟨withSession (fun m => m.setB 0x7F00 2 true), signed 0x7F00 1 4 (beBytes 4 0x4C437F00), reaches_of (by decide +kernel)⟩

theorem meets_InjectionNeedsItsWindow_3 : ∃ s : State, (s.m.objB 0x7F00 2 = true) ∧ (s.m.test.openedAt + sec 60 ≤ s.m.now) :=
  ⟨started (fun m => { m with clk := { m.clk with mono := sec 60 } } |>.setB 0x7F00 2 true), by decide +kernel⟩

theorem meets_InjectionNeedsItsWindow_4 : ∃ s : State, ∃ q : Nat, ∃ w p m, Reaches s 0x7F01 5 w p m ∧ (ofBE w.value = 0x4C437F61) ∧ (p.n = 0x4C437F61) ∧ (m.objN 0x7F01 1 = q) ∧ (q = 5 ∨ q = 9 ∨ q = 18 ∨ q = 24) ∧ (m.testRunning = false) ∧ (m.injectionAllowed s.ctx = true) ∧ (m.objN 0x7F01 2 < pointInstances q) ∧ (m.objN 0x7F01 7 < 4294967295) :=
  ⟨started (fun m => m.sets 0x7F01 [(1, 9), (2, 35)]), 9, svc32 0x4C437F61, reaches_of (by decide +kernel)⟩

theorem meets_InjectionNeedsItsWindow_5 : ∃ s : State, ∃ w p m, Reaches s 0x7F01 5 w p m ∧ (ofBE w.value = 0x4C437F61) ∧ (p.n = 0x4C437F61) ∧ (m.objN 0x7F01 1 = 20) ∧ (m.injectionAllowed s.ctx = true) ∧ (m.objN 0x7F01 2 < 4) ∧ (m.objB 0x7F01 3 = false) :=
  ⟨started (fun m => m.sets 0x7F01 [(1, 20), (2, 3)]), svc32 0x4C437F61, reaches_of (by decide +kernel)⟩

theorem meets_InjectionNeedsItsWindow_6 : ∃ s : State, ∃ q : Nat, ∃ w p m, Reaches s 0x7F01 5 w p m ∧ (ofBE w.value = 0x4C437F61) ∧ (p.n = 0x4C437F61) ∧ (m.objN 0x7F01 1 = q) ∧ (q < 25) ∧ (m.injectionAllowed s.ctx = false ∨ pointInstances q ≤ m.objN 0x7F01 2) :=
  ⟨started (fun m => m.sets 0x7F01 [(1, 9), (2, 36)]), 9, svc32 0x4C437F61, reaches_of (by decide +kernel)⟩

theorem meets_InjectionNeedsItsWindow_7 : ∃ s : State, ∃ w p m, Reaches s 0x7F01 5 w p m ∧ (ofBE w.value = 0x4C437F60) ∧ (p.n = 0x4C437F60) ∧ (m.test.armed.isSome = true) :=
  ⟨started (fun m => m.onTest (fun x => { x with armed := some ⟨9, 0, false, 1000, 0, true, 0⟩ })), svc32 0x4C437F60, reaches_of (by decide +kernel)⟩

theorem meets_InjectionNeedsItsWindow_8 : ∃ s : State, ∃ a : Inject, (s.m.test.armed = some a) ∧ (a.periodic = true) ∧ (a.point = 9) ∧ (a.at_ + ms a.value ≤ s.m.now) ∧ (s.m.injectionAllowed s.ctx = true) ∧ (s.m.objN 0x7F01 7 < 4294967295) :=
  ⟨started (fun m => { m with clk := { m.clk with mono := sec 1 } } |>.onTest (fun x => { x with armed := some ⟨9, 0, true, 1000, 0, false, 0⟩ })), ⟨9, 0, true, 1000, 0, false, 0⟩, by decide +kernel⟩

theorem meets_StartSequenceRunsInOrder_1 : ∃ s : State, (s.m.boot.recovery = false) ∧ (s.m.boot.shut = 0) ∧ (s.m.boot.step = 0) ∧ (s.m.power_.startable = true) ∧ (s.m.power_.cold = false ∨ 3920 ≤ s.m.objN 0x2000 3) ∧ (s.m.power_.lastStop ≠ 5 ∨ s.m.power_.downAt + ms 100 ≤ s.m.now) :=
  ⟨{ started id with m := (fun m : Mach => (fun m => ((m.setN 0x2100 1 4).setN 0x5000 4 3).setN 0x2000 3 3920) { m with boot := { m.boot with step := 0 } }) (started id).m }, by decide +kernel⟩

theorem meets_StartSequenceRunsInOrder_2 : ∃ s : State, (s.m.boot.recovery = false) ∧ (s.m.boot.shut = 0) ∧ (s.m.boot.step = 1) :=
  ⟨{ started id with m := (fun m : Mach => id { m with boot := { m.boot with step := 1 } }) (started id).m }, by decide +kernel⟩

theorem meets_StartSequenceRunsInOrder_3 : ∃ s : State, (s.m.boot.recovery = false) ∧ (s.m.boot.shut = 0) ∧ (s.m.boot.step = 2) ∧ (s.m.boot.record.trial = false) ∧ (s.m.boot.record.selected = 1) ∧ (s.m.boot.record.validB = true) :=
  ⟨{ started id with m := (fun m : Mach => (fun m => m.onRecord (fun r => { r with selected := 1 })) { m with boot := { m.boot with step := 2 } }) (started id).m }, by decide +kernel⟩

theorem meets_StartSequenceRunsInOrder_4 : ∃ s : State, (s.m.boot.recovery = false) ∧ (s.m.boot.shut = 0) ∧ (s.m.boot.step = 2) ∧ (s.m.boot.record.validA = false) ∧ (s.m.boot.record.validB = false) :=
  ⟨{ started id with m := (fun m : Mach => (fun m => m.onRecord (fun r => { r with validA := false, validB := false })) { m with boot := { m.boot with step := 2 } }) (started id).m }, by decide +kernel⟩

theorem meets_StartSequenceRunsInOrder_5 : ∃ s : State, ∃ n : Nat, (s.m.boot.recovery = false) ∧ (s.m.boot.shut = 0) ∧ (n = 4 ∨ n = 5 ∨ n = 6 ∨ n = 7) ∧ (s.m.boot.step + 1 = n) ∧ (5 ≤ s.m.phasesIn 1) :=
  ⟨{ started id with m := (fun m : Mach => id { m with boot := { m.boot with step := 5 } }) (started id).m }, 6, by decide +kernel⟩

theorem meets_StartSequenceRunsInOrder_6 : ∃ s : State, ∃ x : StartInput, ∃ q : Nat, (s.m.boot.recovery = false) ∧ (s.m.boot.shut = 0) ∧ (s.m.boot.step = 3) ∧ (q < 36) ∧ (s.m.dram.chans.length = 36) ∧ (s.m.objN (0x7010 + q) 1 ≠ 4) ∧ (s.m.backs q = none) ∧ ((x.failed.find? (fun f => f.1 = q)).map Prod.snd = some [0, 4]) ∧ (s.m.objN (0x7010 + q) 0x0A < 4294967294) :=
  ⟨{ started id with m := (fun m : Mach => id { m with boot := { m.boot with step := 3 } }) (started id).m }, ⟨false, 390, [(35, [0, 4])], []⟩, 35, by decide +kernel⟩

theorem meets_StartSequenceRunsInOrder_7 : ∃ s : State, (s.m.boot.recovery = false) ∧ (s.m.boot.shut = 0) ∧ (s.m.boot.step = 5) ∧ (s.m.phasesIn 1 = 5) ∧ (s.m.phasesIn 0 = 0) :=
  ⟨{ started id with m := (fun m : Mach => (fun m => (((m.setN 0x2021 1 3).setN 0x2022 1 3).setN 0x2027 1 1).setN 0x2000 0x0C 390) { m with boot := { m.boot with step := 5 } }) (started id).m }, by decide +kernel⟩

theorem meets_StartSequenceRunsInOrder_8 : ∃ s : State, (s.m.boot.recovery = false) ∧ (s.m.boot.shut = 0) ∧ (s.m.boot.step = 7) ∧ (s.m.stage ≤ 5) :=
  ⟨{ started id with m := (fun m : Mach => id { m with boot := { m.boot with step := 7 } }) (started id).m }, by decide +kernel⟩

theorem meets_StartSequenceRunsInOrder_9 : ∃ s : State, (s.m.power_.cold = true) ∧ (s.m.objN 0x2000 3 < 3920) :=
  ⟨{ started id with m := (fun m : Mach => (fun m => m.setN 0x2000 3 3919) { m with boot := { m.boot with step := 0 } }) (started id).m }, by decide +kernel⟩

theorem meets_StartSequenceRunsInOrder_10 : ∃ s : State, ∃ n : Nat, (n ≠ s.m.boot.step + 1 ∨ s.m.boot.recovery = true) :=
  ⟨started id, 5, by decide +kernel⟩

theorem meets_WatchdogsAndFaultHandling_1 : ∃ s : State, ∃ core : Nat, (s.m.power ≤ 2) ∧ (5 ≤ s.m.boot.step) ∧ (core < 4) ∧ (s.m.recentResets.length < 2) :=
  ⟨started id, 3, by decide +kernel⟩

theorem meets_WatchdogsAndFaultHandling_2 : ∃ s : State, ∃ core : Nat, (core ≠ 1 ∨ s.m.settled = true) ∧ (core ≠ 2 ∨ s.m.tiles.later = []) :=
  ⟨started (fun m => { m with boot := { m.boot with cores := [1, 3] } }), 3, by decide +kernel⟩

theorem meets_WatchdogsAndFaultHandling_3 : ∃ s : State, ∃ core : Nat, (s.m.power ≤ 2) ∧ (5 ≤ s.m.boot.step) ∧ (core < 4) :=
  ⟨started id, 1, by decide +kernel⟩

theorem meets_WatchdogsAndFaultHandling_4 : ∃ s : State, (s.m.boot.record.trial = true) ∧ (8 ≤ s.m.boot.step) ∧ (s.m.boot.record.running = s.m.boot.record.selected) ∧ (sec 600 ≤ s.m.clk.active) :=
  ⟨started (fun m => { m with boot := { m.boot with record := { m.boot.record with trial := true } }, clk := { m.clk with active := sec 600 } }), by decide +kernel⟩

theorem meets_WatchdogsAndFaultHandling_5 : ∃ s : State, ∃ v : Nat, (s.m.koa.imageWriting = some v) ∧ (s.m.boot.recovery = false) :=
  ⟨started (fun m => { m with koa := { m.koa with imageWriting := some 7 } }), 7, by decide +kernel⟩

theorem meets_WatchdogsAndFaultHandling_6 : ∃ s : State, (s.m.boot.shut = 2) ∧ (s.m.boot.shutCause = 0) ∧ (s.m.boot.t1 + sec 3 ≤ s.m.now) ∧ (s.m.objB 0x7C00 9 = true) ∧ (s.life ≠ .retired) :=
  ⟨started (fun m => { m with boot := { m.boot with shut := 2 }, clk := { m.clk with mono := sec 3 } }), by decide +kernel⟩

theorem meets_WatchdogsAndFaultHandling_7 : ∃ s : State, ((upTo 7).all (fun k => !s.m.armedAt 24 k) = true) ∧ (s.m.boot.shut = 5) ∧ (s.m.power ≤ 3) :=
  ⟨started (fun m => { m with boot := { m.boot with shut := 5 } }), by decide +kernel⟩


/-! ### Checks of well-formedness: a term that each refuses -/

/-- A message of a peer on port 6, which no module has. -/
def badMsg : KoaMsg := { msg 0x10 [] with hdr := { (msg 0x10 []).hdr with peer := ⟨6, false, 0, 0, []⟩ } }

/-- A write whose type code is wider than a byte. -/
def badWrite : WriteReq := svc 256 []

theorem test_header_refused : badMsg.hdr.wf = false := by decide +kernel
theorem test_message_refused : badMsg.wf = false ∧ (msg 0x10 [1, 2]).wf = true := by decide +kernel
theorem test_write_refused : badWrite.wf = false ∧ (svc32 5).wf = true := by decide +kernel
theorem test_lane_refused : laneOk 192 = false ∧ laneOk 191 = true := by decide
theorem test_chain_refused : chainOk 96 = false ∧ chainOk 95 = true := by decide
theorem test_tile_refused : tileOk 95 10 = false ∧ tileOk 96 9 = false ∧ tileOk 95 9 = true := by decide
theorem test_panel_refused : panelOk 960 = false ∧ panelOk 959 = true := by decide
theorem test_job_refused : jobOk 8 = false ∧ jobOk 7 = true := by decide
theorem test_port_refused : portOk 5 = false ∧ portOk 4 = true := by decide
theorem test_domain_refused : domainOk 2 = false ∧ domainOk 1 = true := by decide
theorem test_cluster_refused : clusterOk 68 = false ∧ clusterOk 67 = true := by decide
theorem test_channel_refused : channelOk 36 = false ∧ channelOk 35 = true := by decide
theorem test_sensor_refused : sensorOk 28 = false ∧ sensorOk 27 = true := by decide
theorem test_common_refused : commonOk 64 = false ∧ commonOk 63 = true := by decide
theorem test_core_refused : coreOk 4 = false ∧ coreOk 3 = true := by decide

/-- Commands that name what the block does not have, one for each kind of check. -/
theorem test_commands_refused : ([.read badMsg, .transitionRequest badWrite, .keyWrite 9 (svc32 0), .hostJobRun 7 20, .blockReceived 0 .plus1 [],
    .laneSleep 0 16, .segmentAckTimeout 0 10 0 0 0, .deepIdleTimeout 96, .lostTimeExpiry 0 10, .checkpointEncoded 960, .clusterFault 68 1,
    .rtcpBye 256 0, .decodeStart 64, .encodeEngineFault 4, .blockDecoded 20 false 0, .signatureLearn 16 (svc32 0), .drawHang 2 0,
    .refreshDue 0 2 true true 0 0, .fence 16, .commonFault 64 1, .linkUp 5, .qsfpRemoved 4, .syncLoss 2, .syncOutputEdge 8 0 0,
    .syncInputEdge 2 true 0, .phaseFault 7 1, .internalBusError 0 3 0, .coreRestarted 4, .sensorMissing 28, .fanTachFault 4 0, .wakeOnAccessIdle 65536,
    .sessionIdleTimeout (2 ^ 32), .uploadRun 8] : List Instr).all (fun i => !i.wf) = true := by decide +kernel

/-! ### The manual's worked examples -/

/-- R192: the CRC-32C of "123456789". -/
theorem test_crc32c : crc32c [0x31, 0x32, 0x33, 0x34, 0x35, 0x36, 0x37, 0x38, 0x39] = 0xE3069283 := by decide +kernel

/-- The example of R13. -/
theorem test_div65535 : div65535 122102160 = 1863 ∧ x16 2225 = 35608 := by decide

/-- The example of R73 to R75: the frame ticks of 59.94 Hz, and slot 1 of frame 0 at 16 slots. -/
theorem test_frame_ticks : frameTick 0 1001 60000 1 = 1093358933333 ∧ frameTick 0 1001 60000 2 = 2186717866666 ∧
    frameTick 0 1001 60000 3 = 3280076800000 ∧ slotTick 0 1001 60000 16 0 1 = 68334933333 := by decide

/-- The example of chapter 09: a sample's logical channel, in-channel offset, bank, rank, row and column. -/
theorem test_address_map : logicalOf 0xD0C73C74 = 24 ∧ offsetOf 0xD0C73C74 = 0x06863974 ∧ bankOf 0x06863974 = 1 ∧ rankOf 0x06863974 = 0 ∧
    rowNumber 0x06863974 = 1670 ∧ columnOf 0x06863974 = 372 := by decide +kernel

/-- The example of chapter 12: the drive values of a ray at a gain, and the ceiling of S4. -/
theorem test_drive : driveValue 1991 0x8A3D 4095 = 2150 ∧ driveValue 1326 0x8A3D 4095 = 1432 ∧ driveValue 1513 0x8A3D 4095 = 1634 ∧
    driveValue 1991 0x8A3D 2047 = 2047 := by decide

/-- The example of R182. -/
theorem test_ray_bytes : rayBytes (1991, 1326, 1513) = [0x07, 0xC7, 0x05, 0x2E, 0x05, 0xE9] := by decide

/-- The example of chapter 10: the first line bits of the first block after the all-ones seed. -/
theorem test_scrambler : (scramble true (List.replicate 58 true) (List.replicate 80 false)).1 =
    List.replicate 39 false ++ List.replicate 19 true ++ List.replicate 20 false ++ [true, true] := by decide +kernel

/-- The samples of the worked example of chapter 07. -/
def sixSamples : List Sample :=
  [⟨1000, 2000, 3000, 4095⟩, ⟨1004, 2000, 2998, 4095⟩, ⟨1000, 2000, 3000, 4095⟩, ⟨1004, 2000, 2998, 4095⟩, ⟨1000, 2000, 3000, 4095⟩,
    ⟨1004, 2000, 2998, 4095⟩]

/-- The block of the worked example of chapter 07: CODED, Table 3, Length 36, and it decodes to its samples. -/
theorem test_coded_block : (encodeBlock 5 1 1 6 1 sixSamples false).length = 36 ∧
    (readHeader (encodeBlock 5 1 1 6 1 sixSamples false)).map (fun h => (h.mode, h.table, h.length)) = some (1, 3, 36) ∧
    (match decodeBlock (encodeBlock 5 1 1 6 1 sixSamples false) with
      | .ok x => decide (x.2 = sixSamples)
      | .error _ => false) = true := by decide +kernel

/-- The interrupted decode of that example: OUTPUT_FULL, with the record it gives. -/
theorem test_output_full :
    let st := decodeStep (encodeBlock 5 1 1 6 1 sixSamples false) { inLen := 36, outOff := 0x100000, outCap := 24 } [] 1000
    st.stop = some (5, 0) ∧ (st.pos.phase, st.pos.sample, st.pos.inBits, st.pos.origin, st.pos.matchLeft, st.pos.matchOffset) =
      (2, 4, 229, 0x100000, 2, 2) ∧ st.new = sixSamples.take 4 := by decide +kernel

/-- A row of samples in memory. -/
def sampleRow (base width col row : Nat) (l : List Sample) : MemWrite := ⟨sampleAt base width col row, l.flatMap Sample.memBytes⟩

/-- The memory of the worked example of chapter 05. -/
def rayMemory : Mem := memApply [] [
  sampleRow 0x20000000 1920 191 74 [⟨1200, 300, 100, 1600⟩], sampleRow 0x20000000 1920 191 75 [⟨1500, 400, 120, 2000⟩],
  sampleRow 0x20000000 1920 191 76 [⟨1800, 480, 160, 2400⟩], sampleRow 0x20000000 1920 191 77 [⟨1800, 480, 160, 2400⟩],
  sampleRow 0x22000000 2048 999 261 [⟨200, 900, 1400, 2000⟩, ⟨240, 1000, 1600, 2200⟩, ⟨300, 1100, 1800, 2400⟩, ⟨320, 1200, 1900, 2600⟩],
  sampleRow 0x24000000 1920 190 77 [⟨1000, 2000, 3000, 4095⟩]]

/-- The worked example of chapter 05: one ray through three layers. -/
theorem test_ray : rayAt rayMemory [⟨0, 0, 0x20000000, 1920, 1080, 0x100, 0x10000, 0x10000, -8192, 8192, some []⟩,
    ⟨1, 1, 0x22000000, 2048, 1152, -512, 0x20000, 0x20000, 0x2704000, 0x640000, some []⟩,
    ⟨2, 2, 0x24000000, 1920, 1080, 0, 0x10000, 0x10000, 0, 0, some []⟩] 16 190 77 20 9 = ⟨1991, 1326, 1513, 3, false⟩ := by decide +kernel

/-- The operation of the example of R243, on a codec job region: nine samples one row and one column further on. -/
def overlapCopy (back : Bool) : DrawOp := ⟨0, 6, back, back, false, 0, 11520, 11526, 11520, 3, 3, 0, 0, 0⟩

/-- The hazard of R243 with both directions of its example. -/
theorem test_overlap : (overlapCopy false).hazard (overlapCopy false).order = true ∧ (overlapCopy true).hazard (overlapCopy true).order = false := by
  decide +kernel

/-- The corrupted and the whole copy of R243's example; sample v stands for the letter with that number. -/
theorem test_overlapping_copy :
    let mem0 := memApply [] ((upTo 9).map (fun (i : Nat) => (⟨i / 3 * 11520 + i % 3 * 6, leBytes 6 (i + 1)⟩ : MemWrite)))
    let out (b : Bool) : List Nat :=
      let m := memApply mem0 ((overlapCopy b).run mem0 (overlapCopy b).order)
      (upTo 9).map (fun i => memLE m (11526 + i / 3 * 11520 + i % 3 * 6) 6)
    out false = [1, 2, 3, 4, 1, 2, 7, 4, 1] ∧ out true = [1, 2, 3, 4, 5, 6, 7, 8, 9] := by decide +kernel

/-- The first pass of the example of R500: the mean of stamp minus instant is 5,530 ps, the loopback delay 4,800 ps, the tap in force 400. -/
theorem test_sync_output_pass :
    (((State.reset.m.setN 0x7800 4 4800).onCalib (fun x => { x with sets := [(calKey 3 2, [some ⟨0, [400]⟩, none, none, none, none])] })
      ).passValues 3 2 [92778004]) = [371] := by decide +kernel

end Sys2Proof.Machine
end

/-! The step of the block (O1): why an entry to P3 may write DRAM in its last step. -/

namespace Sys2Proof.Machine

/-- What a command with its writes leaves in the DRAM. -/
theorem mem_of_liftE {f : Ctx → Mach → Eff} {s t : State} (h : liftE f s = .next t) :
    t.mem = memApply (if (f s.ctx s.m).wipe then [] else s.mem) (f s.ctx s.m).writes := by
  rw [liftE_next] at h
  cases h
  rfl

/-- A block that has started (R533), 3 ms after T1 of an entry to P3 (R454), with host job 0 QUEUED: software started it
after the step at T1 + 1 ms, which aborts the jobs of its time (R235). -/
def sleepDueWithQueuedJob : State :=
  let m := State.reset.m
  { State.reset with m :=
      ((({ m with boot := { m.boot with step := 8 }, clk := { m.clk with mono := ms 3 } } : Mach).setN 0x2100 1 0).setN
        0x7110 0x0D 1).onPower (fun x => { x with entry := some (0, 3) }) }

/-- Before the DRAM sleeps the job becomes ABORTED, which writes its resume record (R230, R235). -/
theorem idle_sleepDueWithQueuedJob :
    (idle sleepDueWithQueuedJob.ctx sleepDueWithQueuedJob.m).wipe = false ∧
    (idle sleepDueWithQueuedJob.ctx sleepDueWithQueuedJob.m).writes = [⟨jobBase, ({} : JobPos).record 0⟩] := by
  decide +kernel

/-- Refutes O1: its last clause says that the last step of an entry to P3 leaves the DRAM alone, but a host job that is
still QUEUED then is aborted, and its resume record is written (R230, R235; `Mach.sleepPower`). -/
theorem not_stepRunsTheFrontCommand : ¬ Obligations.StepRunsTheFrontCommand := by
  unfold Obligations.StepRunsTheFrontCommand
  rintro ⟨-, hidle, -, -, hlast⟩
  obtain ⟨t, hstep, -, -, -, -, hkept⟩ :=
    hlast sleepDueWithQueuedJob 0 rfl rfl (by decide +kernel) (by decide +kernel)
  obtain ⟨hwipe, hwrites⟩ := idle_sleepDueWithQueuedJob
  have hmem : t.mem = memApply [] [⟨jobBase, ({} : JobPos).record 0⟩] := by
    rw [mem_of_liftE ((hidle _ rfl).symm.trans hstep), hwipe, hwrites]
    rfl
  have hwritten : memApply [] [⟨jobBase, ({} : JobPos).record 0⟩] = [] := hmem.symm.trans hkept
  exact absurd hwritten (by decide +kernel)

end Sys2Proof.Machine

/-! Every command completes (O2). -/

namespace Sys2Proof.Machine

/-- A command's answer: a next state that keeps the queue and the unit, and whose life-cycle state is the one that R65
lets a request lead to. -/
def Completes (s : State) (o : Host.Outcome State Fault Refusal) : Prop :=
  ∃ t : State, o = .next t ∧ t.pending = s.pending ∧ t.unit = s.unit ∧ ∃ l : Option Life, t.life = s.life.after l

theorem liftE_completes (f : Ctx → Mach → Eff) (s : State) : Completes s (liftE f s) :=
  ⟨_, liftE_next f s, rfl, rfl, _, rfl⟩

theorem lift_completes (f : Ctx → Mach → Mach) (s : State) : Completes s (lift f s) :=
  ⟨_, lift_next f s, rfl, rfl, none, rfl⟩

/-- Every command runs one meaning, on the block alone (`lift`) or with writes and a transition (`liftE`). -/
theorem exec_completes (c : Instr) (s : State) : Completes s (exec c s) := by
  unfold exec
  cases c with
  | hello | proof | close | eventAck | sessionIdleTimeout | handshakeTimeout | segmentRetransmissionTimeout
  | segmentedTransferStall | eventRetransmissionTimeout | eventSendRelease | tagFailureIntervalEnd | imageFlashWritten
  | slotTick | lateCutOff | planeSetComplete | segmentSent | rtcpBye | sourceIdleTimeout | decodeStart | uploadRun
  | clusterFault | pourWatchdog | regionUpdateRun | decodeEngineFault | encodeEngineFault | hostJobRun | refreshDue
  | fence | fenceComplete | idleSelfRefresh | selfRefreshRequest | zqCalibrationTimer | oscillatorMeasurement
  | spareTrained | copyInComplete | huntAlarm | laneSleep | deepIdleTimeout | laneSleepSent | wakePatternDone
  | pllLocked | cdrLocked | deepResidencyEnd | laneInjectionPeriod | tickSend | ack | nak | status | segmentAckTimeout
  | commitResend | commitDeadline | unHealDelayExpiry | unheal | coalescingWindowClose | reProbeTimer | gainUpdateRun
  | commonFault | slateTick | meterRefill | gateEntryEnd | syncOutputEdge | wakeOnAccessIdle | fanControl
  | fanTachFault | calibrationPassEnd | calibrationTimeout | calibrationExpiry | calibrationFlashWritten | tapStep
  | fettlingYield | testEnd | windowExpiry | trialPeriodEnd | patrolScrub | checkerSync | ledgerUpdatePeriod
  | fettlingSlicePeriod | valuesInForcePeriod | outputSettingsInEffect | aoIslandPowerLoss =>
    dsimp only
    exact lift_completes _ s
  | _ =>
    dsimp only
    exact liftE_completes _ s

/-- The transitions of R65 as a table. -/
theorem permits_listed {l t : Life} (h : l.permits t = true) :
    (l, t) ∈ ([(.factory, .provisioned), (.provisioned, .field), (.field, .service), (.service, .field),
      (.provisioned, .retired), (.field, .retired), (.service, .retired)] : List (Life × Life)) := by
  revert h
  cases l <;> cases t <;> decide

/-- Settles O2: every arm of `exec` runs one meaning, and a request leads only where R65 lets it. -/
theorem everyCommandCompletesAndRetiredIsForever : Obligations.EveryCommandCompletesAndRetiredIsForever := by
  unfold Obligations.EveryCommandCompletesAndRetiredIsForever
  intro c s
  obtain ⟨t, hrun, hpending, hunit, l, hlife⟩ := exec_completes c s
  refine ⟨t, hrun, hpending, hunit, ?_, fun hret => by rw [hlife, hret, Life.after_retired]⟩
  rw [hlife]
  exact (Life.after_cases s.life l).imp id fun h => permits_listed h.2

end Sys2Proof.Machine

/-! The state after reset (O4), and fresh session IDs (R39, O9). -/

namespace Sys2Proof.Machine

/-- Settles O4: `State.reset` stores no object, so that each reads the default of its row. -/
theorem resetLeavesTheDefaults : Obligations.ResetLeavesTheDefaults := by
  unfold Obligations.ResetLeavesTheDefaults
  refine ⟨rfl, rfl, rfl, rfl, rfl, rfl, ?_, ?_⟩ <;> decide +kernel

/-! ### Fresh session IDs (R39) -/

/-- The search for a fresh ID ends on a number that is free, or has found every number it tried in use. -/
theorem freshFrom_free_or_tried_used (n : Nat) : ∀ (start : Nat) (used : List Nat), start < 4294967296 →
    freshFrom n start used < 4294967296 ∧
    ((freshFrom n start used ≠ 0 ∧ freshFrom n start used ∉ used) ∨
      ∀ i < n, (start + i) % 4294967296 ∈ 0 :: used) := by
  induction n with
  | zero => exact fun start used h => ⟨h, .inr fun i hi => absurd hi (by omega)⟩
  | succ n ih =>
    intro start used h
    by_cases hused : start = 0 ∨ start ∈ used
    · rw [freshFrom, if_pos hused]
      obtain ⟨hlt, hfree | htried⟩ := ih ((start + 1) % 4294967296) used (by omega)
      · exact ⟨hlt, .inl hfree⟩
      · refine ⟨hlt, .inr fun i hi => ?_⟩
        cases i with
        | zero => simpa [Nat.mod_eq_of_lt h] using hused
        | succ i => simpa [Nat.mod_add_mod, Nat.add_assoc, Nat.add_comm 1 i] using htried i (by omega)
    · rw [freshFrom, if_neg hused]
      exact ⟨h, .inl (not_or.mp hused)⟩

/-- Of `used.length + 2` numbers in a row at least one is neither 0 nor in use. -/
theorem exists_unused_in_row (start : Nat) (used : List Nat) (h : used.length + 2 ≤ 4294967296) :
    ¬ ∀ i < used.length + 2, (start + i) % 4294967296 ∈ 0 :: used := by
  intro hall
  have hinj : Set.InjOn (fun i => (start + i) % 4294967296) (Finset.range (used.length + 2)) := by
    intro i hi j hj hij
    simp only [Finset.coe_range, Set.mem_Iio] at hi hj hij
    omega
  have hcard := Finset.card_le_card_of_injOn (t := (0 :: used).toFinset) _
    (fun i hi => List.mem_toFinset.mpr (hall i (Finset.mem_range.mp hi))) hinj
  have hlength := (0 :: used).toFinset_card_le
  rw [Finset.card_range] at hcard
  rw [List.length_cons] at hlength
  omega

/-- Settles O9: at most 16 IDs are in use, so the search of `freshFrom` ends on a free one. -/
theorem freshSessionIds : Obligations.FreshSessionIds := by
  unfold Obligations.FreshSessionIds
  intro m hsessions hshakes
  have hlength : m.idsInUse.length ≤ 16 := by
    simp only [Mach.idsInUse, List.length_append, List.length_map]
    omega
  obtain ⟨hlt, ⟨hzero, hunused⟩ | htried⟩ :=
    freshFrom_free_or_tried_used (m.idsInUse.length + 2) (Config.sessionId m.free).toNat m.idsInUse (BitVec.isLt _)
  · rw [Mach.idsInUse, List.mem_append, not_or] at hunused
    exact ⟨hzero, hlt, hunused⟩
  · exact absurd htried (exists_unused_in_row _ _ (by omega))

end Sys2Proof.Machine

/-! Sessions: what is found of them, what a message sent leaves of them, what an event leaves of them. -/

namespace Sys2Proof.Machine

/-! ### A session found and changed -/

theorem Mach.session?_id {m : Mach} {id : Nat} {z : Session} (h : m.session? id = some z) : z.id = id := by
  unfold Mach.session? at h
  split at h
  · next h0 => cases h; exact h0.symm
  · simpa using List.find?_some h

theorem Mach.session_of_session? {m : Mach} {id : Nat} {z : Session} (h : m.session? id = some z) : m.session id = z := by
  rw [Mach.session, h, Option.getD_some]

/-- Sessions depend on the KOA server only. -/
theorem Mach.session?_congr {a b : Mach} (h : a.koa = b.koa) (id : Nat) : a.session? id = b.session? id := by
  rw [Mach.session?, Mach.session?, h]

theorem Mach.session?_of_find? {m : Mach} {id : Nat} {z : Session} (h0 : id ≠ 0)
    (h : m.koa.sessions.find? (fun x => x.id = id) = some z) : m.session? id = some z := by
  rw [Mach.session?, if_neg h0, h]

theorem find?_map_id {l : List Session} {id : Nat} {z : Session} {f : Session → Session} (hf : (f z).id = id)
    (h : l.find? (fun x => x.id = id) = some z) :
    (l.map (fun x => if x.id = id then f x else x)).find? (fun x => x.id = id) = some (f z) := by
  induction l with
  | nil => cases h
  | cons y l ih =>
    by_cases hy : y.id = id
    · rw [List.find?_cons_of_pos (by simpa using hy)] at h
      cases h
      rw [List.map_cons, if_pos hy, List.find?_cons_of_pos (by simpa using hf)]
    · rw [List.find?_cons_of_neg (by simpa using hy)] at h
      rw [List.map_cons, if_neg hy, List.find?_cons_of_neg (by simpa using hy)]
      exact ih h

/-- A session that is replaced by one of its ID. -/
theorem Mach.session?_put {m : Mach} {id : Nat} {z y : Session} (h : m.session? id = some z) (hy : y.id = id) :
    (m.onSession id (fun _ => y)).session? id = some y := by
  unfold Mach.session? Mach.onSession at *
  split
  · next h0 => subst h0; simp [← hy]
  · next h0 =>
    rw [if_neg h0] at h
    exact find?_map_id hy h

/-- The same, read in a block that shares the KOA server. -/
theorem Mach.session_of_put {m m' : Mach} {id : Nat} {z y : Session} (h : m.session? id = some z) (hy : y.id = id)
    (hk : m'.koa = (m.onSession id (fun _ => y)).koa) : m'.session id = y :=
  Mach.session_of_session? ((Mach.session?_congr hk id).trans (Mach.session?_put h hy))

/-- A session under another ID. -/
def Session.named (z : Session) (id : Nat) : Session := { z with id := id }

theorem Session.named_self {z : Session} {id : Nat} (h : z.id = id) : z.named id = z := by subst h; rfl

/-- A change of a session that neither reads nor writes its ID. -/
def KeepsId (f : Session → Session) : Prop := ∀ x n, f (x.named n) = (f x).named n

theorem KeepsId.id_eq {f : Session → Session} (hf : KeepsId f) (z : Session) : (f z).id = z.id := by
  have h := congrArg Session.id (hf z z.id)
  rwa [Session.named_self rfl] at h

/-- A session that a change of its other fields is applied to. -/
theorem Mach.session?_onSession {m : Mach} {id : Nat} {z : Session} {f : Session → Session} (hf : KeepsId f)
    (h : m.session? id = some z) : (m.onSession id f).session? id = some (f z) := by
  have hid : (f z).id = id := (hf.id_eq z).trans (Mach.session?_id h)
  unfold Mach.session? Mach.onSession at *
  split
  · next h0 =>
    rw [if_pos h0] at h
    cases h
    exact congrArg some (hf m.koa.direct 0).symm
  · next h0 =>
    rw [if_neg h0] at h
    exact find?_map_id hid h

/-! ### Messages sent -/

/-- What a message leaves of its session: the count of messages sent. -/
theorem Session.messageTo_fst (z : Session) (peer : Peer) (ty flags tag : Nat) (b : Bytes) :
    ∃ n, (z.messageTo peer ty flags tag b).1 = { z with tx := n } := by
  unfold Session.messageTo
  split
  · exact ⟨z.tx, rfl⟩
  · exact ⟨z.tx + 1, rfl⟩

/-- The message that leaves. -/
theorem Session.messageTo_snd (z : Session) (peer : Peer) (ty flags tag : Nat) (b : Bytes) :
    ∃ n mac, (z.messageTo peer ty flags tag b).2 = .koa peer ty flags z.id n tag b mac := by
  unfold Session.messageTo
  split
  · next h => exact ⟨0, [], by rw [h]⟩
  · exact ⟨_, _, rfl⟩

theorem Mach.sayTo_eq {m : Mach} {id : Nat} {z : Session} (h : m.session? id = some z) (peer : Peer) (ty flags tag : Nat)
    (b : Bytes) : m.sayTo peer id ty flags tag b =
      (m.onSession id (fun _ => (z.messageTo peer ty flags tag b).1)).emit (z.messageTo peer ty flags tag b).2 := by
  unfold Mach.sayTo
  rw [h]

@[simp] theorem Mach.onSession_out (m : Mach) (id : Nat) (f : Session → Session) : (m.onSession id f).out = m.out := by
  unfold Mach.onSession; split <;> rfl

theorem Mach.session?_sayTo {m : Mach} {id : Nat} {z : Session} (h : m.session? id = some z) (peer : Peer)
    (ty flags tag : Nat) (b : Bytes) : ∃ n, (m.sayTo peer id ty flags tag b).session? id = some { z with tx := n } := by
  obtain ⟨n, hn⟩ := z.messageTo_fst peer ty flags tag b
  refine ⟨n, ?_⟩
  rw [Mach.sayTo_eq h, Mach.session?_congr (Mach.emit_koa ..), hn]
  exact Mach.session?_put (y := { z with tx := n }) h (Mach.session?_id (z := z) h)

theorem Mach.sayTo_out {m : Mach} {id : Nat} {z : Session} (h : m.session? id = some z) (peer : Peer) (ty flags tag : Nat)
    (b : Bytes) : ∃ n mac, (m.sayTo peer id ty flags tag b).out = .koa peer ty flags id n tag b mac :: m.out := by
  obtain ⟨n, mac, hm⟩ := z.messageTo_snd peer ty flags tag b
  refine ⟨n, mac, ?_⟩
  rw [Mach.sayTo_eq h, Mach.emit, hm, Mach.session?_id h, Mach.onSession_out]

/-- A message that left right after a state answers, whatever left after it. -/
theorem answeredBy_after {a m b : Mach} {l : List Out} {peer : Peer} {ty flags session n tag : Nat} {payload mac : Bytes}
    (hm : m.out = .koa peer ty flags session n tag payload mac :: a.out) (hb : b.out = l ++ m.out) :
    answeredBy a b ty session tag payload = true := by
  have hsent : sentBy a b = l ++ [.koa peer ty flags session n tag payload mac] := by
    rw [sentBy, hb, hm, List.append_cons, List.length_append (bs := a.out), Nat.add_sub_cancel,
      List.take_append_of_le_length (Nat.le_refl _), List.take_length]
  rw [answeredBy, hsent, List.any_eq_true]
  exact ⟨_, List.mem_append_right l (List.mem_singleton.mpr rfl), by simp⟩

/-- A message that left last answers. -/
theorem answeredBy_last {a b : Mach} {peer : Peer} {ty flags session n tag : Nat} {payload mac : Bytes}
    (hb : b.out = .koa peer ty flags session n tag payload mac :: a.out) :
    answeredBy a b ty session tag payload = true := answeredBy_after (l := []) hb rfl

/-- What is said last answers. -/
theorem answeredBy_sayTo {a m : Mach} {id : Nat} {z : Session} (h : m.session? id = some z) (hout : m.out = a.out)
    (peer : Peer) (ty flags tag : Nat) (b : Bytes) : answeredBy a (m.sayTo peer id ty flags tag b) ty id tag b = true := by
  obtain ⟨n, mac, hm⟩ := Mach.sayTo_out h peer ty flags tag b
  exact answeredBy_last (by rw [hm, hout])

theorem SameBut.symm {a b : Mach} (h : SameBut a b) : SameBut b a := by
  unfold SameBut at *; rw [h]

theorem SameBut.emit (m : Mach) (o : Out) : SameBut (m.emit o) m := rfl

/-- The change of a session that a kept response is. -/
def Session.keep (z : Session) (k : Kept) : Session := { z with kept := keepResponse z.kept k }

theorem keepsId_keep (k : Kept) : KeepsId (fun z => z.keep k) := fun _ _ => rfl

/-- An answer that is kept: the session counts a message more and keeps a response. -/
theorem Mach.session?_answer {m : Mach} {id : Nat} {z : Session} (h : m.session? id = some z) (ty : Nat) (g : KoaMsg)
    (rt : Nat) (b : Bytes) : ∃ n k, (m.answer id ty g rt b).session? id = some { z with tx := n, kept := k } := by
  unfold Mach.answer
  split
  · obtain ⟨n, hn⟩ := Mach.session?_sayTo h g.hdr.peer rt 0 g.hdr.tag b
    exact ⟨n, z.kept, hn⟩
  · obtain ⟨n, hn⟩ := Mach.session?_sayTo (Mach.session?_onSession (keepsId_keep _) h) g.hdr.peer rt 0 g.hdr.tag b
    exact ⟨n, _, hn⟩

theorem answeredBy_answer {a m : Mach} {id : Nat} {z : Session} (h : m.session? id = some z) (hout : m.out = a.out)
    (ty : Nat) (g : KoaMsg) (rt : Nat) (b : Bytes) : answeredBy a (m.answer id ty g rt b) rt id g.hdr.tag b = true := by
  unfold Mach.answer
  split
  · exact answeredBy_sayTo h hout ..
  · exact answeredBy_sayTo (Mach.session?_onSession (keepsId_keep _) h) (by rw [Mach.onSession_out, hout]) ..

/-! ### The checks of a message (R35 to R42) -/

/-- Where an accepted message came from: the access without a session, or an open one that now holds it. -/
theorem vet_take_cases {m m0 : Mach} {c : Ctx} {ty : Nat} {g : KoaMsg} {z : Session} (h : m.vet c ty g = .take m0 z) :
    (z.id = 0 ∧ m0 = m.onSession 0 (fun x => { x with peer := g.hdr.peer, lastAt := m.now }) ∧
      z = { m0.koa.direct with id := 0 }) ∨
    ∃ x, m.koa.sessions.find? (fun y => y.id = g.hdr.session) = some x ∧ z = x.accept g m.now ∧
      m0 = m.onSession x.id (fun _ => z) := by
  unfold Mach.vet at h
  split at h
  · cases h
  split at h
  · cases h
  split at h
  · cases h
    exact .inl ⟨rfl, rfl, rfl⟩
  split at h
  · cases h
  next x hfind =>
  split at h
  · cases h
  split at h
  · cases h
  · cases h
    exact .inr ⟨x, hfind, rfl, rfl⟩

/-- The session of an accepted message is the one that the block then holds under its ID. -/
theorem vet_take_session {m m0 : Mach} {c : Ctx} {ty : Nat} {g : KoaMsg} {z : Session} (h : m.vet c ty g = .take m0 z) :
    m0.session? z.id = some z := by
  obtain ⟨h0, -, hz⟩ | ⟨x, hfind, rfl, rfl⟩ := vet_take_cases h
  · rw [h0, Mach.session?, if_pos rfl, ← hz]
  · have hx : x.id = g.hdr.session := by simpa using List.find?_some hfind
    by_cases h0 : x.id = 0
    · have : (x.accept g m.now).id = 0 := h0
      rw [this, h0, Mach.session?, if_pos rfl, Mach.onSession, if_pos rfl]
      simp [Session.accept, h0]
    · exact Mach.session?_put (Mach.session?_of_find? h0 (by rwa [hx])) rfl

/-- A change of a session that keeps its ID keeps the IDs of all. -/
theorem onSession_ids (m : Mach) {id : Nat} {f : Session → Session} (hf : ∀ z, z.id = id → (f z).id = id) :
    (m.onSession id f).koa.sessions.map Session.id = m.koa.sessions.map Session.id := by
  unfold Mach.onSession
  split
  · rfl
  · rw [List.map_map]
    refine List.map_congr_left fun z _ => ?_
    rw [Function.comp_apply]
    split
    · next h => rw [hf z h, h]
    · rfl

theorem vet_take_ids {m m0 : Mach} {c : Ctx} {ty : Nat} {g : KoaMsg} {z : Session} (h : m.vet c ty g = .take m0 z) :
    m0.koa.sessions.map Session.id = m.koa.sessions.map Session.id := by
  obtain ⟨-, rfl, -⟩ | ⟨x, -, rfl, rfl⟩ := vet_take_cases h
  · exact onSession_ids m fun _ h => h
  · exact onSession_ids m fun _ _ => rfl

theorem vet_take_out {m m0 : Mach} {c : Ctx} {ty : Nat} {g : KoaMsg} {z : Session} (h : m.vet c ty g = .take m0 z) :
    m0.out = m.out := by
  obtain ⟨-, rfl, -⟩ | ⟨x, -, -, rfl⟩ := vet_take_cases h <;> rw [Mach.onSession_out]

end Sys2Proof.Machine

/-! The checks of a message, one by one (R35 to R42, O7). -/

namespace Sys2Proof.Machine

section Vet
variable {m : Mach} {c : Ctx} {g : KoaMsg} {x : Session}

theorem vet_unheard (ty : Nat) (h : m.hears c g.hdr.peer = false) : m.vet c ty g = .drop m := by
  rw [Mach.vet, h]; rfl

theorem vet_misframed (ty : Nat) (h : wellFramed g (m.sessionless c g.hdr) = false) : m.vet c ty g = .drop m := by
  rw [Mach.vet, h]
  exact ite_id _

/-- A message that is heard and well framed is judged by its session's key and window. -/
theorem vet_of_session (ty : Nat) (h1 : m.hears c g.hdr.peer = true) (h2 : wellFramed g (m.sessionless c g.hdr) = true)
    (h3 : m.sessionless c g.hdr = false) : m.vet c ty g =
      match m.koa.sessions.find? (fun s => s.id = g.hdr.session) with
      | none => .drop m.tagFailure
      | some s =>
        if !tagged g ty s.key then .drop m.tagFailure
        else if !s.takes g.hdr.counter then .drop (m.bump 0x1100 5)
        else .take (m.onSession s.id (fun _ => s.accept g m.now)) (s.accept g m.now) := by
  rw [Mach.vet, h1, h2, h3]
  rfl

end Vet

/-- The receive window (R42). -/
theorem takes_iff (z : Session) (n : Nat) : z.takes n = true ↔ z.rxHigh < n ∨ (z.rxHigh ≤ n + 64 ∧ n ∉ z.rxSeen) := by
  simp [Session.takes]

/-- A counter noted is not taken again. -/
theorem accept_takes_not (z : Session) (g : KoaMsg) (now : Nat) : (z.accept g now).takes g.hdr.counter = false := by
  simp [Session.accept, Session.takes]

theorem objMax_1100_4 : objMax 0x1100 4 = 4294967295 := by decide +kernel

theorem objMax_1100_5 : objMax 0x1100 5 = 4294967295 := by decide +kernel

/-- A tag failure is counted in 0x1100:04 (R40). -/
theorem tagFailure_objN (m : Mach) (h : m.objN 0x1100 4 < 4294967295) :
    m.tagFailure.objN 0x1100 4 = m.objN 0x1100 4 + 1 :=
  (Mach.objN_congr rfl ..).trans (Mach.bump_objN_same m 0x1100 4 1 0 (by rw [objMax_1100_4]; exact h))

theorem tagFailure_sessions (m : Mach) : m.tagFailure.koa.sessions = m.koa.sessions := by
  have h : (m.bump 0x1100 4).koa = m.koa := Mach.bump_koa ..
  rw [← h]
  rfl

/-- Settles O7: the checks of `Mach.vet` one after the other. -/
theorem messagesAreChecked : Obligations.MessagesAreChecked := by
  unfold Obligations.MessagesAreChecked
  intro s ty g
  refine ⟨vet_unheard ty, vet_misframed ty, fun hheard hframed hopen htags hreplays => ?_⟩
  rw [vet_of_session ty hheard hframed hopen]
  have hfailure : ∃ m, Gate.drop s.m.tagFailure = .drop m ∧ m.objN 0x1100 4 = s.m.objN 0x1100 4 + 1 ∧
      m.koa.sessions = s.m.koa.sessions := ⟨_, rfl, tagFailure_objN _ htags, tagFailure_sessions _⟩
  refine ⟨fun hnone => by rw [hnone]; exact hfailure, fun x hfind => ?_⟩
  rw [hfind]
  refine ⟨fun htag => ?_, fun htag hlow hold => ?_, fun htag hnew => ?_⟩
  · simpa only [htag, Bool.not_false, ↓reduceIte] using hfailure
  · have hno : x.takes g.hdr.counter = false := by
      rw [Bool.eq_false_iff, ne_eq, takes_iff]
      intro h
      obtain h | ⟨h, hunseen⟩ := h
      · omega
      · exact hold.elim (fun _ => by omega) hunseen
    simp only [htag, hno]
    exact ⟨_, rfl, Mach.bump_objN_same _ _ _ _ _ (by rw [objMax_1100_5]; exact hreplays), Mach.bump_koa ..⟩
  · simp only [htag, (takes_iff ..).mpr hnew]
    exact ⟨_, _, rfl, .onSession .., rfl, rfl, rfl, rfl, accept_takes_not ..⟩

end Sys2Proof.Machine

/-! Events: what they leave of the sessions they are offered to, of the journal and of what is sent (R60, R61). -/

namespace Sys2Proof.Machine

/-! ### Events of a session's queue -/

/-- A session without what events change of it: the count of messages sent, its own objects, its queue and the instants of
its EVENT messages. -/
def Session.steady (z : Session) : Session := { z with tx := 0, own := [], queue := [], sends := [] }

/-- The EVENT message of `q` has been sent: the queue notes the instant. -/
def QEvent.noted (q : QEvent) (now : Nat) (x : QEvent) : QEvent :=
  if x.record.seq = q.record.seq then { x with sent := some now } else x

@[simp] theorem QEvent.noted_record (q : QEvent) (now : Nat) (x : QEvent) : (q.noted now x).record = x.record := by
  unfold QEvent.noted; split <;> rfl

theorem Session.sendEvent_fst (z : Session) (now : Nat) (q : QEvent) : ∃ n, (z.sendEvent now q).1 =
    { z with tx := n, sends := now :: z.sends.filter (fun t => now < t + sec 1), queue := z.queue.map (q.noted now) } := by
  obtain ⟨n, hn⟩ := z.messageTo_fst z.peer 0x40 0 0 q.record.bytes
  refine ⟨n, ?_⟩
  have h : (z.sendEvent now q).1 =
      { (z.messageTo z.peer 0x40 0 0 q.record.bytes).1 with
        sends := now :: (z.messageTo z.peer 0x40 0 0 q.record.bytes).1.sends.filter (fun t => now < t + sec 1)
        queue := (z.messageTo z.peer 0x40 0 0 q.record.bytes).1.queue.map (q.noted now) } := rfl
  rw [h, hn]

theorem Session.sendEvent_snd (z : Session) (now : Nat) (q : QEvent) : ∃ n mac, (z.sendEvent now q).2 =
    .koa z.peer 0x40 0 z.id n 0 q.record.bytes mac := z.messageTo_snd z.peer 0x40 0 0 q.record.bytes

/-- What sending an event keeps, sending the queue keeps. -/
theorem Session.pump_keeps {P : Session → Prop} {z : Session} (now : Nat) (hz : P z)
    (hsend : ∀ y q, P y → P (y.sendEvent now q).1) : P (z.pump now).1 := by
  unfold Session.pump
  refine List.foldlRecOn _ _ (motive := fun (a : Session × List Out) => P a.1) hz fun a ha q _ => ?_
  split
  · exact hsend a.1 q ha
  · exact ha

theorem Session.pump_steady (z : Session) (now : Nat) : (z.pump now).1.steady = z.steady := by
  refine Session.pump_keeps (P := fun y => y.steady = z.steady) now rfl fun y q hy => ?_
  obtain ⟨n, h⟩ := y.sendEvent_fst now q
  rw [h]
  exact hy

theorem Session.pump_records (z : Session) (now : Nat) :
    (z.pump now).1.queue.map QEvent.record = z.queue.map QEvent.record := by
  refine Session.pump_keeps (P := fun y => y.queue.map QEvent.record = z.queue.map QEvent.record) now rfl fun y q hy => ?_
  obtain ⟨n, h⟩ := y.sendEvent_fst now q
  rw [h, ← hy]
  simp

theorem Session.offer_steady (z : Session) (now : Nat) (up : Bool) (r : Rec) : (z.offer now up r).1.steady = z.steady := by
  unfold Session.offer
  split
  · split
    · dsimp only
      split
      · exact Session.pump_steady ..
      · rfl
    · rfl
  · rfl

theorem Session.id_of_steady {y z : Session} (h : y.steady = z.steady) : y.id = z.id :=
  show y.steady.id = z.steady.id by rw [h]

/-! ### Events of the block -/

/-- An event changes of the KOA server its sessions, and of these what events change. -/
theorem Mach.record_koa (m : Mach) (code flags supp inst : Nat) (d : List (Nat × Nat)) :
    ∃ f : Session → Session, (∀ z, (f z).steady = z.steady) ∧
      (m.record code flags supp inst d).koa = { m.koa with sessions := m.koa.sessions.map f } := by
  refine ⟨fun z => (z.offer m.now (m.coreUp 0) ⟨m.jrn.newest + 1, code, flags, m.eventTime, supp, inst, d⟩).1,
    fun z => z.offer_steady .., ?_⟩
  unfold Mach.record
  simp only [Mach.bump_koa, List.map_map]
  rfl

theorem Mach.raise_koa (m : Mach) (code inst : Nat) (d : List (Nat × Nat)) :
    ∃ f : Session → Session, (∀ z, (f z).steady = z.steady) ∧
      (m.raise code inst d).koa = { m.koa with sessions := m.koa.sessions.map f } := m.record_koa ..

theorem Mach.raise_out (m : Mach) (code inst : Nat) (d : List (Nat × Nat)) :
    ∃ l, (m.raise code inst d).out = l ++ m.out := by
  unfold Mach.raise Mach.record
  simp only [Mach.bump_out]
  exact ⟨_, rfl⟩

@[simp] theorem Mach.raise_newest (m : Mach) (code inst : Nat) (d : List (Nat × Nat)) :
    (m.raise code inst d).jrn.newest = m.jrn.newest + 1 := by
  unfold Mach.raise Mach.record
  simp only [Mach.bump_jrn]

/-- A property of sessions that events leave alone, over lists that agree in what events leave alone. -/
theorem map_of_map_steady {α : Type} {p : Session → α} (hp : ∀ z : Session, p z.steady = p z) {l k : List Session}
    (h : l.map Session.steady = k.map Session.steady) : l.map p = k.map p := by
  have h := congrArg (List.map p) h
  simpa only [List.map_map, Function.comp_def, hp] using h

theorem Mach.raise_sessions (m : Mach) (code inst : Nat) (d : List (Nat × Nat)) :
    (m.raise code inst d).koa.sessions.map Session.steady = m.koa.sessions.map Session.steady := by
  obtain ⟨f, hf, hk⟩ := m.raise_koa code inst d
  rw [hk, List.map_map]
  exact List.map_congr_left fun z _ => hf z

@[simp] theorem Mach.raise_shakes (m : Mach) (code inst : Nat) (d : List (Nat × Nat)) :
    (m.raise code inst d).koa.shakes = m.koa.shakes := by
  obtain ⟨f, -, hk⟩ := m.raise_koa code inst d
  rw [hk]

end Sys2Proof.Machine

/-! The delivery of events (R40, R61, O12). -/

namespace Sys2Proof.Machine

theorem SameBut.jrn {a b : Mach} (h : SameBut a b) : a.jrn = b.jrn := by
  have := congrArg Mach.jrn h; exact this

theorem SameBut.clk {a b : Mach} (h : SameBut a b) : a.clk = b.clk := by
  have := congrArg Mach.clk h; exact this

theorem SameBut.now {a b : Mach} (h : SameBut a b) : a.now = b.now := by rw [Mach.now, h.clk]; rfl

/-- Several things that leave the module at once. -/
def Mach.emitAll (m : Mach) (l : List Out) : Mach := { m with out := l ++ m.out }

theorem Mach.emitAll_koa (m : Mach) (l : List Out) : (m.emitAll l).koa = m.koa := rfl

theorem SameBut.emitAll (m : Mach) (l : List Out) : SameBut (m.emitAll l) m := rfl

/-- A payload of its type's length (R568). -/
theorem lengthAbort_of_length {ty n : Nat} {b : Bytes} (ht : payloadLength ty b = some n) (hb : b.length = n) :
    lengthAbort ty b = none := by
  rw [lengthAbort, ht]
  exact if_pos hb

/-- The sequence numbers queued, as a property of the records queued. -/
theorem queue_all_seq (l : List QEvent) (n : Nat) :
    l.all (fun q => q.record.seq != n) = (l.map QEvent.record).all (fun r => r.seq != n) := by
  rw [List.all_map]; rfl

/-- A session whose events of one sequence number are dropped and whose others are sent as far as the rate lets them. -/
def Session.dropEvent (z : Session) (now n : Nat) : Session × List Out :=
  ({ z with queue := z.queue.filter (fun q => q.record.seq != n) } : Session).pump now

theorem Session.dropEvent_id (z : Session) (now n : Nat) : (z.dropEvent now n).1.id = z.id :=
  Session.id_of_steady (Session.pump_steady _ now)

theorem Session.dropEvent_queue (z : Session) (now n : Nat) :
    (z.dropEvent now n).1.queue.all (fun q => q.record.seq != n) = true := by
  rw [queue_all_seq, Session.dropEvent, Session.pump_records, List.all_map, List.all_filter]
  simp

/-- EVENT_ACK accepted: its event is dropped. -/
theorem eventAck_of_take {c : Ctx} {m m0 : Mach} {g : KoaMsg} {z : Session} (h : m.vet c 0x41 g = .take m0 z)
    (hl : g.payload.length = 8) : eventAck g c m =
      (m0.onSession z.id (fun _ => (z.dropEvent m0.now (ofBE g.payload)).1)).emitAll
        (z.dropEvent m0.now (ofBE g.payload)).2 := by
  unfold eventAck
  rw [h]
  simp only [lengthAbort_of_length (b := g.payload) (ty := 0x41) rfl hl]
  rfl

/-- An event of a sequence number counts one more resend. -/
def QEvent.again (n : Nat) (x : QEvent) : QEvent := if x.record.seq = n then { x with resends := x.resends + 1 } else x

theorem QEvent.again_record (n : Nat) (x : QEvent) : (x.again n).record = x.record := by
  unfold QEvent.again; split <;> rfl

/-- A session that counts one more resend of the event of a sequence number. -/
def Session.recount (z : Session) (n : Nat) : Session := { z with queue := z.queue.map (QEvent.again n) }

/-- The event of a sequence number after its resend is counted and noted. -/
theorem find?_resent {l : List QEvent} {n now : Nat} {q : QEvent} (h : l.find? (fun x => x.record.seq = n) = some q) :
    ((l.map (QEvent.again n)).map (q.noted now)).find? (fun x => x.record.seq = n) =
      some { q with resends := q.resends + 1, sent := some now } := by
  have hq : q.record.seq = n := by simpa using List.find?_some h
  rw [List.map_map, List.find?_map]
  simp only [Function.comp_def, QEvent.noted_record, QEvent.again_record, h, Option.map_some]
  simp [QEvent.noted, QEvent.again, hq]

/-- The timer of an event that was sent, once it has run out: given up after the fifth resend, sent again as far as the rate
lets it. -/
theorem eventRetransmissionTimeout_of_due {m : Mach} {k n b : Nat} {z : Session} {q : QEvent}
    (hz : m.koa.sessions.find? (fun x => x.id = k) = some z) (hq : z.queue.find? (fun x => x.record.seq = n) = some q)
    (hsent : q.sent = some b) (hdue : b + ms 100 ≤ m.now) (hup : m.coreUp 0 = true) :
    eventRetransmissionTimeout k n m =
      if q.resends ≥ 5 then
        (m.onSession k (fun _ => (z.dropEvent m.now n).1)).emitAll (z.dropEvent m.now n).2
      else if z.sentLately m.now < 200 then
        (m.onSession k (fun _ => ((z.recount n).sendEvent m.now q).1)).emit ((z.recount n).sendEvent m.now q).2
      else m := by
  unfold eventRetransmissionTimeout
  simp only [hz, hq, hsent, hup, Nat.not_lt.mpr hdue, Bool.not_true, Bool.false_eq_true, or_self, ↓reduceIte]
  rfl

/-- A queue of one event that was not sent yet, while the rate lets it go. -/
theorem Session.pump_single {z : Session} {q : QEvent} {now : Nat} (hq : z.queue = [q]) (hsent : q.sent = none)
    (hrate : z.sentLately now < 200) : z.pump now = ((z.sendEvent now q).1, [(z.sendEvent now q).2]) := by
  unfold Session.pump
  rw [hq]
  simp [hsent, hrate]

theorem pumpEvents_of_find? {m : Mach} {k : Nat} {z : Session} (hz : m.koa.sessions.find? (fun x => x.id = k) = some z) :
    m.pumpEvents k = (m.onSession k (fun _ => (z.pump m.now).1)).emitAll (z.pump m.now).2 := by
  unfold Mach.pumpEvents
  rw [hz]
  rfl

/-- Settles O12: what each command makes of the session's queue. -/
theorem eventsAreDelivered : Obligations.EventsAreDelivered := by
  unfold Obligations.EventsAreDelivered
  refine ⟨?ack, ?again, ?givenUp, ?release, ?interval⟩
  case ack =>
    intro s g m z hvet hlength
    refine ⟨_, rfl, ?_⟩
    dsimp only
    rw [eventAck_of_take hvet hlength]
    refine ⟨?_, (SameBut.trans (.emitAll ..) (.trans (.onSession ..) (vet_take hvet))).jrn⟩
    rw [Mach.session_of_put (vet_take_session hvet) (z.dropEvent_id m.now _) (Mach.emitAll_koa ..)]
    exact z.dropEvent_queue ..
  case again =>
    intro s k n b z q hk hz hq hsent hdue hup hfew hrate
    have hid : z.id = k := by simpa using List.find?_some hz
    obtain ⟨x, hfst⟩ := (z.recount n).sendEvent_fst s.m.now q
    obtain ⟨y, mac, hsnd⟩ := (z.recount n).sendEvent_snd s.m.now q
    have hnext : ((z.recount n).sendEvent s.m.now q).1.id = k := by rw [hfst]; exact hid
    refine ⟨_, rfl, ?_⟩
    dsimp only
    rw [eventRetransmissionTimeout_of_due hz hq hsent hdue hup, if_neg (by omega), if_pos hrate]
    refine ⟨?_, answeredBy_last (by rw [Mach.emit, Mach.onSession_out, hsnd, ← hid]; rfl), (SameBut.trans (.emit ..) (.onSession ..)).jrn⟩
    rw [Mach.session_of_put (Mach.session?_of_find? hk hz) hnext (Mach.emit_koa ..), hfst]
    exact congrArg (Option.map _) (find?_resent hq)
  case givenUp =>
    intro s k n b z q hk hz hq hsent hdue hup hmany
    have hid : z.id = k := by simpa using List.find?_some hz
    refine ⟨_, rfl, ?_⟩
    dsimp only
    rw [eventRetransmissionTimeout_of_due hz hq hsent hdue hup, if_pos hmany]
    refine ⟨?_, (SameBut.trans (.emitAll ..) (.onSession ..)).jrn⟩
    rw [Mach.session_of_put (Mach.session?_of_find? hk hz) ((z.dropEvent_id s.m.now n).trans hid) (Mach.emitAll_koa ..)]
    exact z.dropEvent_queue ..
  case release =>
    intro s k z q hk hz hqueue hsent hup hrate
    have hid : z.id = k := by simpa using List.find?_some hz
    obtain ⟨x, hfst⟩ := z.sendEvent_fst s.m.now q
    obtain ⟨y, mac, hsnd⟩ := z.sendEvent_snd s.m.now q
    have hnext : (z.sendEvent s.m.now q).1.id = k := by rw [hfst]; exact hid
    refine ⟨_, rfl, ?_⟩
    dsimp only
    rw [eventSendRelease, if_pos hup, pumpEvents_of_find? hz, Session.pump_single hqueue hsent hrate]
    refine ⟨?_, answeredBy_last (by rw [Mach.emitAll, Mach.onSession_out, hsnd, hid]; rfl)⟩
    rw [Mach.session_of_put (Mach.session?_of_find? hk hz) hnext (Mach.emitAll_koa ..), hfst]
    simp [hqueue, QEvent.noted]
  case interval =>
    intro s hlater
    refine ⟨_, rfl, ?_⟩
    dsimp only
    unfold tagFailureIntervalEnd
    simp only [if_neg (Nat.ne_of_gt hlater)]
    split
    · next hmany =>
      obtain ⟨f, -, hkoa⟩ := Mach.raise_koa { s.m with koa := { s.m.koa with tagFails := 0, tagSecond := s.m.timeWord / sec 1 } }
        0xE003 0 [(4, s.m.koa.tagFails)]
      rw [hkoa, Mach.raise_newest]
      exact ⟨rfl, rfl, rfl⟩
    · exact ⟨rfl, rfl, rfl⟩

end Sys2Proof.Machine

/-! Sessions open and close (R39 to R43, O8). -/

namespace Sys2Proof.Machine

/-! ### The cyclic maps of a session that closes -/

/-- A cyclic map is disabled, or another session is its destination. -/
def Mach.mapOff (m : Mach) (id k : Nat) : Prop := m.objN (0x1130 + k) 2 ≠ id ∨ m.objB (0x1130 + k) 1 = false

/-- A cyclic map is disabled. -/
def Mach.disableMap (m : Mach) (i : Nat) : Mach := (m.setN (0x1130 + i) 1 0).setN (0x1130 + i) 2 0

/-- The step of `Mach.dropMaps` at one map. -/
def Mach.dropMap (id : Nat) (m : Mach) (i : Nat) : Mach :=
  if m.objB (0x1130 + i) 1 ∧ m.objN (0x1130 + i) 2 = id then m.disableMap i else m

theorem Mach.dropMaps_eq (m : Mach) (id : Nat) : m.dropMaps id = (upTo 8).foldl (Mach.dropMap id) m := rfl

theorem Mach.objB_congr {m n : Mach} {ix sub bank : Nat} (h : m.obj ix sub bank = n.obj ix sub bank) :
    m.objB ix sub bank = n.objB ix sub bank := by
  rw [Mach.objB, Mach.objB, h]

theorem Mach.disableMap_objB (m : Mach) (i : Nat) (h : i < 8) : (m.disableMap i).objB (0x1130 + i) 1 = false := by
  rw [Mach.disableMap, Mach.objB_congr (Mach.setN_obj_ne _ _ _ _ _ (okey_ne (by omega) (by omega) (by omega) (by omega)
    (by omega))), Mach.objB, Mach.setN_obj_same]
  rfl

theorem Mach.disableMap_obj_ne (m : Mach) {i k : Nat} (sub : Nat) (hi : i < 8) (hk : k < 8) (hs : sub < 256) (h : k ≠ i) :
    (m.disableMap i).obj (0x1130 + k) sub = m.obj (0x1130 + k) sub := by
  rw [Mach.disableMap, Mach.setN_obj_ne _ _ _ _ _ (okey_ne (by omega) (by omega) (by omega) (by omega) (by omega)),
    Mach.setN_obj_ne _ _ _ _ _ (okey_ne (by omega) (by omega) (by omega) (by omega) (by omega))]

/-- The step of one map turns it off. -/
theorem Mach.dropMap_mapOff (m : Mach) (id : Nat) {i : Nat} (hi : i < 8) : (m.dropMap id i).mapOff id i := by
  unfold Mach.dropMap
  split
  · exact .inr (m.disableMap_objB i hi)
  · next h =>
    rw [not_and'] at h
    by_cases hd : m.objN (0x1130 + i) 2 = id
    · exact .inr (Bool.eq_false_iff.mpr (h hd))
    · exact .inl hd

/-- The step of one map turns none on. -/
theorem Mach.mapOff_dropMap {m : Mach} {id i k : Nat} (hi : i < 8) (hk : k < 8) (h : m.mapOff id k) :
    (m.dropMap id i).mapOff id k := by
  by_cases hki : k = i
  · exact hki ▸ m.dropMap_mapOff id (hki ▸ hk)
  · unfold Mach.dropMap
    split
    · unfold Mach.mapOff Mach.objN
      rw [Mach.objB_congr (m.disableMap_obj_ne 1 hi hk (by omega) hki), m.disableMap_obj_ne 2 hi hk (by omega) hki]
      exact h
    · exact h

theorem Mach.dropMaps_mapOff (m : Mach) (id : Nat) {k : Nat} (hk : k < 8) : (m.dropMaps id).mapOff id k := by
  have hall : ∀ (l : List Nat) (m : Mach), (∀ i ∈ l, i < 8) → (k ∈ l ∨ m.mapOff id k) →
      (l.foldl (Mach.dropMap id) m).mapOff id k := by
    intro l
    induction l with
    | nil => exact fun m _ h => h.elim (fun h => absurd h List.not_mem_nil) (fun h => h)
    | cons i l ih =>
      intro m hl h
      refine ih _ (fun j hj => hl j (List.mem_cons_of_mem i hj)) ?_
      obtain h | h := h
      · obtain rfl | h := List.mem_cons.mp h
        · exact .inr (m.dropMap_mapOff id hk)
        · exact .inl h
      · exact .inr (Mach.mapOff_dropMap (hl i List.mem_cons_self) hk h)
  exact hall (upTo 8) m (fun i hi => List.mem_range.mp hi) (.inl (List.mem_range.mpr hk))

/-- What turning one map off keeps, turning off those of a session keeps. -/
theorem Mach.dropMaps_keeps {P : Mach → Prop} {m : Mach} (id : Nat) (hm : P m)
    (hstep : ∀ (m : Mach) (i : Nat), i < 8 → P m → P (m.disableMap i)) : P (m.dropMaps id) := by
  rw [Mach.dropMaps_eq]
  refine List.foldlRecOn _ _ (motive := P) hm fun n hn i hi => ?_
  unfold Mach.dropMap
  split
  · exact hstep n i (List.mem_range.mp hi) hn
  · exact hn

/-- Maps that are turned off change objects only. -/
theorem Mach.dropMaps_frame (m : Mach) (id : Nat) : m.dropMaps id = { m with od := (m.dropMaps id).od } := by
  refine Mach.dropMaps_keeps (P := fun n => n = { m with od := n.od }) id rfl fun n i _ hn => ?_
  rw [hn]
  rfl

@[simp] theorem Mach.dropMaps_koa (m : Mach) (id : Nat) : (m.dropMaps id).koa = m.koa := by rw [Mach.dropMaps_frame]
@[simp] theorem Mach.dropMaps_jrn (m : Mach) (id : Nat) : (m.dropMaps id).jrn = m.jrn := by rw [Mach.dropMaps_frame]
@[simp] theorem Mach.dropMaps_out (m : Mach) (id : Nat) : (m.dropMaps id).out = m.out := by rw [Mach.dropMaps_frame]
@[simp] theorem Mach.dropMaps_strs (m : Mach) (id : Nat) : (m.dropMaps id).strs = m.strs := by rw [Mach.dropMaps_frame]

/-- An event touches no object of a cyclic map. -/
theorem Mach.mapOff_raise {m : Mach} {id k : Nat} (code inst : Nat) (d : List (Nat × Nat)) (hc : code < 0x10000) (hk : k < 8)
    (h : m.mapOff id k) : (m.raise code inst d).mapOff id k := by
  unfold Mach.mapOff at *
  rw [Mach.raise_objN _ _ _ _ (okey_ne (by omega) (by omega) (by omega) (by omega) (by omega)),
    Mach.objB_congr (Mach.raise_obj _ _ _ _ (okey_ne (by omega) (by omega) (by omega) (by omega) (by omega)))]
  exact h

/-! ### A session closes (R43) -/

/-- What CLOSE is sent before: a session that closes by itself tells its peer while core 0 is up. -/
def Mach.farewell (m : Mach) (id : Nat) (tell : Bool) : Mach := if tell ∧ m.coreUp 0 then m.say id 0x05 0 0 [] else m

theorem SameBut.farewell (m : Mach) (id : Nat) (tell : Bool) : SameBut (m.farewell id tell) m := by
  unfold Mach.farewell
  split
  · exact .say ..
  · exact .refl m

/-- A session is gone, with its transfers, requests and maps. -/
def Mach.withoutSession (m : Mach) (id : Nat) : Mach :=
  ((({ m with koa := { m.koa with sessions := m.koa.sessions.filter (fun s => s.id != id) } } : Mach).dropHeld id).dropWaiting
    id).dropMaps id

theorem closeSession_of_find? {m : Mach} {id : Nat} {z : Session} (h : m.koa.sessions.find? (fun x => x.id = id) = some z)
    (reason : Nat) (tell : Bool) : m.closeSession id reason tell =
      ((m.farewell id tell).withoutSession id).raise 0xE002 0 [(4, id), (1, reason)] := by
  unfold Mach.closeSession
  rw [h]
  rfl

theorem closeSession_of_none {m : Mach} {id : Nat} (h : m.koa.sessions.find? (fun x => x.id = id) = none)
    (reason : Nat) (tell : Bool) : m.closeSession id reason tell = m := by
  unfold Mach.closeSession
  rw [h]

theorem Mach.withoutSession_sessions (m : Mach) (id : Nat) :
    (m.withoutSession id).koa.sessions = m.koa.sessions.filter (fun s => s.id != id) := by
  rw [Mach.withoutSession, Mach.dropMaps_koa]
  rfl

/-- A change of one session leaves the others alone. -/
theorem onSession_filter_sessions (m : Mach) {id : Nat} {f : Session → Session} (hf : ∀ z, (f z).id = id) :
    (m.onSession id f).koa.sessions.filter (fun s => s.id != id) = m.koa.sessions.filter (fun s => s.id != id) := by
  unfold Mach.onSession
  split
  · rfl
  · simp only
    induction m.koa.sessions with
    | nil => rfl
    | cons y l ih =>
      rw [List.map_cons]
      split
      · next hy => simpa [hf, hy] using ih
      · next hy => simpa [hy] using ih

theorem farewell_filter_sessions (m : Mach) (id : Nat) (tell : Bool) :
    (m.farewell id tell).koa.sessions.filter (fun s => s.id != id) = m.koa.sessions.filter (fun s => s.id != id) := by
  unfold Mach.farewell Mach.say
  split
  · cases h : m.session? id with
    | none => rw [Mach.sayTo, h]
    | some z =>
      obtain ⟨n, hn⟩ := z.messageTo_fst (m.session id).peer 0x05 0 0 []
      rw [Mach.sayTo_eq h, Mach.emit_koa, hn]
      exact onSession_filter_sessions m fun _ => Mach.session?_id (z := z) h
  · rfl

/-- A session that closes is gone; of the others stays what events leave alone. -/
theorem closeSession_sessions (m : Mach) (id reason : Nat) (tell : Bool) :
    (m.closeSession id reason tell).koa.sessions.map Session.steady =
      (m.koa.sessions.filter (fun s => s.id != id)).map Session.steady := by
  cases h : m.koa.sessions.find? (fun x => x.id = id) with
  | none =>
    rw [closeSession_of_none h, List.filter_eq_self.mpr]
    simpa using h
  | some z =>
    rw [closeSession_of_find? h, Mach.raise_sessions, Mach.withoutSession_sessions, farewell_filter_sessions]

theorem closeSession_ids (m : Mach) (id reason : Nat) (tell : Bool) :
    (m.closeSession id reason tell).koa.sessions.map Session.id = (m.koa.sessions.map Session.id).filter (· != id) := by
  rw [map_of_map_steady (fun _ => rfl) (closeSession_sessions ..), List.filter_map]
  rfl

theorem closeSession_newest {m : Mach} {id : Nat} {z : Session} (h : m.koa.sessions.find? (fun x => x.id = id) = some z)
    (reason : Nat) (tell : Bool) : (m.closeSession id reason tell).jrn.newest = m.jrn.newest + 1 := by
  rw [closeSession_of_find? h, Mach.raise_newest, Mach.withoutSession, Mach.dropMaps_jrn]
  show (m.farewell id tell).jrn.newest + 1 = _
  rw [(SameBut.farewell ..).jrn]

theorem closeSession_out {m : Mach} {id : Nat} {z : Session} (h : m.koa.sessions.find? (fun x => x.id = id) = some z)
    (reason : Nat) (tell : Bool) : ∃ l, (m.closeSession id reason tell).out = l ++ (m.farewell id tell).out := by
  obtain ⟨l, hl⟩ := ((m.farewell id tell).withoutSession id).raise_out 0xE002 0 [(4, id), (1, reason)]
  refine ⟨l, ?_⟩
  rw [closeSession_of_find? h, hl, Mach.withoutSession, Mach.dropMaps_out]
  rfl

theorem closeSession_mapOff {m : Mach} {id : Nat} {z : Session} (h : m.koa.sessions.find? (fun x => x.id = id) = some z)
    (reason : Nat) (tell : Bool) {k : Nat} (hk : k < 8) : (m.closeSession id reason tell).mapOff id k := by
  rw [closeSession_of_find? h]
  exact Mach.mapOff_raise _ _ _ (by omega) hk (Mach.dropMaps_mapOff _ id hk)

end Sys2Proof.Machine

/-! Handshakes, and the commands that open and close sessions (R39 to R43, O8). -/

namespace Sys2Proof.Machine

/-! ### HELLO and PROOF (R39 to R41) -/

/-- A HELLO whose checks pass, while the module does not shut down. -/
theorem hello_of_valid {g : KoaMsg} {c : Ctx} {m : Mach} (hheard : m.hears c g.hdr.peer = true)
    (hoffers : m.offersSessions c = true) (hframed : wellFramed g false = true) (hlength : g.payload.length = 20)
    (hkey : m.slotKey (ofBE (g.payload.take 1)) ≠ [])
    (htag : tagged g 1 (m.slotKey (ofBE (g.payload.take 1))) = true) (hshut : m.boot.shut = 0) :
    hello g c m =
      if m.koa.sessions.length ≥ 8 then
        (m.sayWith g.hdr.peer (m.slotKey (ofBE (g.payload.take 1))) 0x7F 0 0 g.hdr.tag (abortPayload 0 0 abNoSession)).raise
          0xE004 0 [(1, ofBE (g.payload.take 1))]
      else m.challenge g (ofBE (g.payload.take 1)) (m.slotKey (ofBE (g.payload.take 1))) := by
  have hsome : g.payload ≠ [] := fun h => by rw [h] at hlength; simp at hlength
  unfold hello
  simp [hheard, hoffers, hframed, hsome, hkey, htag, lengthAbort_of_length (ty := 0x01) rfl hlength, hshut]

/-- A PROOF of a pending handshake whose checks pass. -/
theorem proof_of_valid {g : KoaMsg} {c : Ctx} {m : Mach} {h : Handshake} (hheard : m.hears c g.hdr.peer = true)
    (hoffers : m.offersSessions c = true) (hframed : wellFramed g false = true)
    (hfind : m.koa.shakes.find? (fun x => x.id = g.hdr.session) = some h) (htag : tagged g 3 h.key = true)
    (hcounter : g.hdr.counter ≠ 0) (hpayload : g.payload = []) : proof g c m = m.openSession g h := by
  unfold proof
  simp [hheard, hoffers, hframed, hfind, htag, hcounter, hpayload]

/-- The session that a PROOF opens has the role of its key slot. -/
theorem openSession_sessions (m : Mach) (g : KoaMsg) (h : Handshake) (hfew : m.koa.sessions.length < 8) :
    ∃ z : Session, z.id = h.id ∧ z.role = m.objN 0x1111 h.slot ∧
      (m.openSession g h).koa.sessions.map Session.steady = (m.koa.sessions ++ [z]).map Session.steady ∧
      (m.openSession g h).koa.shakes = m.koa.shakes.filter (fun x => x.id != h.id) ∧
      (m.openSession g h).jrn.newest = m.jrn.newest + 1 := by
  let y : Session := { id := h.id, slot := h.slot, role := m.objN 0x1111 h.slot, key := h.key, peer := g.hdr.peer,
                       idle := m.objN 0x1100 2, lastAt := m.now, rxHigh := g.hdr.counter, rxSeen := [g.hdr.counter] }
  obtain ⟨n, hn⟩ := y.messageTo_fst g.hdr.peer 0x04 0 g.hdr.tag (beBytes 1 y.role ++ [0] ++ beBytes 2 y.idle)
  unfold Mach.openSession
  simp only [ge_iff_le, Nat.not_le.mpr hfew, ↓reduceIte]
  refine ⟨{ y with tx := n }, rfl, rfl, ?_, Mach.raise_shakes .., Mach.raise_newest ..⟩
  rw [Mach.raise_sessions, ← hn]
  rfl

/-- Settles O8: HELLO and PROOF with their checks, and the ways a session closes. -/
theorem sessionsOpenAndClose : Obligations.SessionsOpenAndClose := by
  unfold Obligations.SessionsOpenAndClose
  refine ⟨?challenge, ?full, ?proof, ?close, ?timeout, ?early, ?forget⟩
  case challenge =>
    intro s g hheard hoffers hframed hlength hkey htag hshut hfew
    refine ⟨_, rfl, ?_⟩
    dsimp only
    rw [hello_of_valid hheard hoffers hframed hlength hkey htag hshut, if_neg (by omega)]
    refine ⟨?_, rfl, answeredBy_last rfl⟩
    show (List.map Handshake.id ((if s.m.koa.shakes.length < 8 then s.m.koa.shakes else s.m.koa.shakes.drop 1) ++ [_])) = _
    rw [List.map_append]
    split <;> simp
  case full =>
    intro s g hheard hoffers hframed hlength hkey htag hshut hfull
    refine ⟨_, rfl, ?_⟩
    dsimp only
    rw [hello_of_valid hheard hoffers hframed hlength hkey htag hshut, if_pos hfull]
    exact ⟨Mach.raise_shakes .., Mach.raise_newest .., answeredBy_after rfl (Mach.raise_out ..).choose_spec⟩
  case proof =>
    intro s g h hheard hoffers hframed hfind htag hcounter hpayload hfew _
    refine ⟨_, rfl, ?_⟩
    dsimp only
    rw [proof_of_valid hheard hoffers hframed hfind htag hcounter hpayload]
    obtain ⟨z, hid, hrole, hsessions, hshakes, hnewest⟩ := openSession_sessions s.m g h hfew
    refine ⟨?_, ?_, ?_, hnewest⟩
    · rw [map_of_map_steady (fun _ => rfl) hsessions, List.map_append, ← hid]
      rfl
    · rw [hshakes, List.filter_map]
      rfl
    · rw [map_of_map_steady (fun _ => rfl) hsessions, List.map_append, ← hrole]
      exact List.getLast?_concat
  case close =>
    intro s g m z hvet hpayload hid
    obtain ⟨h0, -, -⟩ | ⟨x, hfind, rfl, hm⟩ := vet_take_cases hvet
    · exact absurd h0 hid
    have hopen : m.koa.sessions.find? (fun y => y.id = (x.accept g s.m.now).id) = some (x.accept g s.m.now) := by
      have := vet_take_session hvet
      rwa [Mach.session?, if_neg hid] at this
    have hclose : close g s.ctx s.m = m.closeSession (x.accept g s.m.now).id 0 false := by
      unfold close
      rw [hvet]
      simp only [lengthAbort_of_length (ty := 0x05) (b := g.payload) rfl (by rw [hpayload]; rfl)]
    refine ⟨_, rfl, ?_⟩
    dsimp only
    rw [hclose]
    refine ⟨?_, ?_, ?_⟩
    · rw [closeSession_ids, vet_take_ids hvet]
    · rw [closeSession_newest hopen, (vet_take hvet).jrn]
    · rw [List.all_eq_true]
      intro k hk
      simpa [Mach.mapOff] using closeSession_mapOff hopen 0 false (List.mem_range.mp hk)
  case timeout =>
    intro s k z hk hup hfind hdue
    have hclose : sessionIdleTimeout k s.m = s.m.closeSession k 1 true := by
      unfold sessionIdleTimeout
      rw [hfind]
      exact if_pos ⟨hdue, hup⟩
    refine ⟨_, rfl, ?_⟩
    dsimp only
    rw [hclose]
    refine ⟨closeSession_ids .., closeSession_newest hfind .., ?_⟩
    obtain ⟨l, hl⟩ := closeSession_out hfind 1 true
    obtain ⟨n, mac, hsaid⟩ := Mach.sayTo_out (Mach.session?_of_find? hk hfind) (s.m.session k).peer 0x05 0 0 []
    have hfarewell : (s.m.farewell k true).out = .koa (s.m.session k).peer 0x05 0 k n 0 [] mac :: s.m.out := by
      rw [Mach.farewell, if_pos ⟨rfl, hup⟩]
      exact hsaid
    exact answeredBy_after hfarewell hl
  case early =>
    intro s k z hfind hearly
    refine ⟨_, rfl, ?_⟩
    have hkept : sessionIdleTimeout k s.m = s.m := by
      unfold sessionIdleTimeout
      rw [hfind]
      exact if_neg fun h => absurd h.1 (by omega)
    dsimp only
    rw [hkept]
  case forget =>
    intro s k hup
    refine ⟨_, rfl, ?_⟩
    dsimp only
    unfold handshakeTimeout
    rw [hup]
    refine ⟨fun h hmem hid => ?_, rfl⟩
    have := (List.mem_filter.mp hmem).2
    simpa [hid] using this

end Sys2Proof.Machine

/-! What the commands of sessions, transfers and events leave alone (O14). -/

namespace Sys2Proof.Machine

/-! ### Objects that stay -/

theorem ObjectsBut.refl (l : List (Nat × Nat)) (a : Mach) : ObjectsBut l a a := fun _ _ => rfl

theorem ObjectsBut.trans {l : List (Nat × Nat)} {a b c : Mach} (h : ObjectsBut l a b) (k : ObjectsBut l b c) :
    ObjectsBut l a c := fun x hx => (k x hx).trans (h x hx)

theorem ObjectsBut.of_od {l : List (Nat × Nat)} {a b : Mach} (h : b.od = a.od) : ObjectsBut l a b := fun _ _ => by rw [h]

theorem ObjectsBut.mono {l k : List (Nat × Nat)} {a b : Mach} (hl : ∀ r ∈ l, r ∈ k) (h : ObjectsBut l a b) : ObjectsBut k a b :=
  fun x hx => h x fun r hr => hx r (hl r hr)

/-- An object of a named index is written. -/
theorem ObjectsBut.setN {l : List (Nat × Nat)} (r : Nat × Nat) (m : Mach) (ix sub v : Nat) (hr : r ∈ l) (hix : r.1 ≤ ix ∧ ix ≤ r.2)
    (hsmall : ix < 65536 ∧ sub < 256) : ObjectsBut l m (m.setN ix sub v) := by
  intro k hk
  refine storeGet_set_ne _ _ fun h => ?_
  have hindex : k / 256 % 65536 = ix := by rw [h, okey]; omega
  have := hk r hr
  omega

/-! ### Sessions, the journal and two groups of objects -/

/-- From one block to the next only sessions, the journal, what is sent and the objects 0x1100 and 0x1202 changed: what an
accepted or refused message with its event changes. -/
def Speaks (a b : Mach) : Prop :=
  b = { a with od := b.od, koa := b.koa, jrn := b.jrn, out := b.out } ∧ ObjectsBut [(0x1100, 0x1100), (0x1202, 0x1202)] a b

theorem Speaks.refl (a : Mach) : Speaks a a := ⟨rfl, .refl _ a⟩

theorem Speaks.trans {a b c : Mach} (h : Speaks a b) (k : Speaks b c) : Speaks a c := by
  obtain ⟨h1, h2⟩ := h
  obtain ⟨k1, k2⟩ := k
  refine ⟨?_, h2.trans k2⟩
  rw [k1, h1]

theorem SameBut.od {a b : Mach} (h : SameBut a b) : a.od = b.od := by
  have := congrArg Mach.od h; exact this

theorem SameBut.speaks {a b : Mach} (h : SameBut b a) : Speaks a b := by
  refine ⟨?_, .of_od h.od⟩
  unfold SameBut at h
  rw [h]

theorem Speaks.bump (m : Mach) {sub : Nat} (h : sub < 256) : Speaks m (m.bump 0x1100 sub) :=
  ⟨rfl, .setN (0x1100, 0x1100) m _ _ _ (by decide) ⟨Nat.le_refl _, Nat.le_refl _⟩ ⟨by omega, h⟩⟩

theorem Speaks.tagFailure (m : Mach) : Speaks m m.tagFailure := (Speaks.bump m (sub := 4) (by omega)).trans (SameBut.speaks rfl)

theorem Speaks.raise (m : Mach) {code : Nat} (inst : Nat) (d : List (Nat × Nat)) (h : code < 0x10000) :
    Speaks m (m.raise code inst d) :=
  ⟨rfl, .trans (b := m.bump 0x1202 (code / 4096)) (.setN (0x1202, 0x1202) m _ _ _ (by decide) ⟨Nat.le_refl _, Nat.le_refl _⟩
    ⟨by omega, by omega⟩) (.of_od rfl)⟩

theorem Speaks.sayWith (m : Mach) (peer : Peer) (key : Bytes) (ty session counter tag : Nat) (b : Bytes) :
    Speaks m (m.sayWith peer key ty session counter tag b) := (SameBut.emit ..).speaks

/-- A message that is dropped changes nothing but a count. -/
theorem vet_drop_cases {m m0 : Mach} {c : Ctx} {ty : Nat} {g : KoaMsg} (h : m.vet c ty g = .drop m0) :
    m0 = m ∨ m0 = m.tagFailure ∨ m0 = m.bump 0x1100 5 := by
  unfold Mach.vet at h
  split at h
  · cases h; exact .inl rfl
  split at h
  · cases h; exact .inl rfl
  split at h
  · cases h
  split at h
  · cases h; exact .inr (.inl rfl)
  split at h
  · cases h; exact .inr (.inl rfl)
  split at h
  · cases h; exact .inr (.inr rfl)
  · cases h

theorem Speaks.vet_drop {m m0 : Mach} {c : Ctx} {ty : Nat} {g : KoaMsg} (h : m.vet c ty g = .drop m0) : Speaks m m0 := by
  obtain rfl | rfl | rfl := vet_drop_cases h
  · exact .refl _
  · exact .tagFailure _
  · exact .bump _ (by omega)

theorem Speaks.vet_take {m m0 : Mach} {c : Ctx} {ty : Nat} {g : KoaMsg} {z : Session} (h : m.vet c ty g = .take m0 z) :
    Speaks m m0 := (Machine.vet_take h).speaks

theorem Speaks.abort (m : Mach) (id tag ix sub code : Nat) : Speaks m (m.abort id tag ix sub code) := (SameBut.say ..).speaks

/-! ### HELLO, PROOF, EVENT_ACK, SEG_ACK and the interval of tag failures -/

/-- HELLO speaks, or leaves a challenge. -/
theorem hello_cases (g : KoaMsg) (c : Ctx) (m : Mach) : Speaks m (hello g c m) ∨ ∃ slot key, hello g c m = m.challenge g slot key := by
  unfold hello
  split
  · exact .inl (.refl m)
  simp only
  split
  · exact .inl (.tagFailure m)
  split
  · exact .inl (.refl m)
  split
  · exact .inl (.sayWith ..)
  split
  · exact .inl (.trans (.sayWith ..) (.raise _ _ _ (by omega)))
  · exact .inr ⟨_, _, rfl⟩

theorem Speaks.openSession (m : Mach) (g : KoaMsg) (h : Handshake) : Speaks m (m.openSession g h) := by
  unfold Mach.openSession
  simp only
  split
  · exact .trans (b := { m with koa := { m.koa with shakes := m.koa.shakes.filter (fun x => x.id != h.id) } })
      (SameBut.speaks rfl) (.trans (.sayWith ..) (.raise _ _ _ (by omega)))
  · exact .trans (SameBut.speaks rfl) (.raise _ _ _ (by omega))

theorem Speaks.proof (g : KoaMsg) (c : Ctx) (m : Mach) : Speaks m (proof g c m) := by
  unfold Machine.proof
  split
  · exact .refl m
  split
  · split
    · next h => exact .vet_drop h
    · next h => exact .vet_take h
  split
  · exact .tagFailure m
  split
  · exact .bump m (by omega)
  split
  · exact .refl m
  · exact .openSession ..

theorem Speaks.eventAck (g : KoaMsg) (c : Ctx) (m : Mach) : Speaks m (eventAck g c m) := by
  unfold Machine.eventAck
  split
  · next h => exact .vet_drop h
  next m0 z h =>
  refine .trans (.vet_take h) ?_
  split
  · exact .abort ..
  · exact SameBut.speaks (.trans (b := m0.onSession z.id _) rfl (.onSession ..))

theorem Speaks.tagFailureIntervalEnd (m : Mach) : Speaks m (tagFailureIntervalEnd m) := by
  unfold Machine.tagFailureIntervalEnd
  simp only
  split
  · exact .refl m
  split
  · exact .trans (SameBut.speaks rfl) (.raise _ _ _ (by omega))
  · exact SameBut.speaks rfl

/-! ### Transfers -/

theorem SameBut.endTransfer (m : Mach) (id : Nat) : SameBut (m.endTransfer id) m := .onSession ..

theorem SameBut.cancelTransfer (m : Mach) (id tag code : Nat) : SameBut (m.cancelTransfer id tag code) m :=
  .trans (.say ..) (.endTransfer ..)

theorem SameBut.sendSegment (m : Mach) (id : Nat) (x : Xfer) (i : Nat) : SameBut (m.sendSegment id x i) m := .say ..

/-- Segments sent one after the other. -/
theorem SameBut.sendSegments (m : Mach) (id : Nat) (x : Xfer) (l : List Nat) :
    SameBut (each l m (fun m i => m.sendSegment id x i)) m := by
  unfold each
  exact List.foldlRecOn l _ (motive := fun n => SameBut n m) (.refl m) fun n hn i _ => .trans (.sendSegment ..) hn

theorem SameBut.pumpRead (m : Mach) (id : Nat) : SameBut (m.pumpRead id) m := by
  unfold Mach.pumpRead
  split
  · exact .refl m
  simp only
  split
  · exact .trans (.onSession ..) (.sendSegments ..)
  · exact .sendSegments ..

/-- A message of a transfer, whatever it does to an open one, is one that speaks when the latter is. -/
theorem Speaks.ofTransfer {m : Mach} {c : Ctx} {ty : Nat} {g : KoaMsg} {f : Session → Xfer → Mach → Eff}
    (hf : ∀ z x n, ∃ n', f z x n = .of n' ∧ Speaks n n') : ∃ m', m.ofTransfer c ty g f = .of m' ∧ Speaks m m' := by
  unfold Mach.ofTransfer Mach.serve
  split
  · next h => exact ⟨_, rfl, .vet_drop h⟩
  next m0 z h =>
  split
  · exact ⟨_, rfl, .trans (.vet_take h) (.abort ..)⟩
  dsimp only
  split
  · exact ⟨_, rfl, .vet_take h⟩
  · obtain ⟨n', hn, hs⟩ := hf z _ m0
    exact ⟨n', hn, .trans (.vet_take h) hs⟩

theorem Speaks.segAck (g : KoaMsg) (c : Ctx) (m : Mach) : ∃ m', segAck g c m = .of m' ∧ Speaks m m' := by
  refine Speaks.ofTransfer fun z x n => ?_
  simp only
  split
  · exact ⟨_, rfl, .refl n⟩
  split
  · exact ⟨_, rfl, (SameBut.cancelTransfer ..).speaks⟩
  split
  · exact ⟨_, rfl, .refl n⟩
  split
  · exact ⟨_, rfl, (SameBut.endTransfer ..).speaks⟩
  · exact ⟨_, rfl, (SameBut.trans (.pumpRead ..) (.onSession ..)).speaks⟩

/-! ### Sessions that close -/

/-- From one block to the next only what speaking changes, the cyclic maps and the held patches changed: what the end of a
session or of a transfer changes. -/
def Closes (a b : Mach) : Prop :=
  b = { a with od := b.od, koa := b.koa, jrn := b.jrn, outs := b.outs, out := b.out } ∧
    ObjectsBut [(0x1100, 0x1100), (0x1130, 0x1137), (0x1202, 0x1202)] a b ∧ b.outs = { a.outs with held := b.outs.held }

theorem Closes.trans {a b c : Mach} (h : Closes a b) (k : Closes b c) : Closes a c := by
  obtain ⟨h1, h2, h3⟩ := h
  obtain ⟨k1, k2, k3⟩ := k
  refine ⟨?_, h2.trans k2, ?_⟩
  · rw [k1, h1]
  · rw [k3, h3]

theorem Speaks.outs {a b : Mach} (h : Speaks a b) : b.outs = a.outs := by
  have := congrArg Mach.outs h.1; exact this

theorem Speaks.closes {a b : Mach} (h : Speaks a b) : Closes a b := by
  refine ⟨?_, h.2.mono (by decide), by rw [h.outs]⟩
  conv_lhs => rw [h.1]
  rw [h.outs]

theorem Closes.dropMaps (m : Mach) (id : Nat) : Closes m (m.dropMaps id) := by
  refine Mach.dropMaps_keeps (P := fun n => Closes m n) id (Speaks.closes (.refl m)) fun n i hi hn => hn.trans ⟨rfl, ?_, rfl⟩
  exact .trans (.setN (0x1130, 0x1137) n _ _ _ (by decide) (by dsimp only; omega) (by omega))
    (.setN (0x1130, 0x1137) _ _ _ _ (by decide) (by dsimp only; omega) (by omega))

theorem Closes.withoutSession (m : Mach) (id : Nat) : Closes m (m.withoutSession id) := by
  have hheld : Closes m ((({ m with koa := { m.koa with sessions := m.koa.sessions.filter (fun s => s.id != id) } } :
      Mach).dropHeld id).dropWaiting id) := ⟨rfl, .of_od rfl, rfl⟩
  exact hheld.trans (.dropMaps _ id)

theorem Closes.closeSession (m : Mach) (id reason : Nat) (tell : Bool) : Closes m (m.closeSession id reason tell) := by
  cases h : m.koa.sessions.find? (fun x => x.id = id) with
  | none => rw [closeSession_of_none h]; exact (Speaks.refl m).closes
  | some z =>
    rw [closeSession_of_find? h]
    exact .trans (.trans (SameBut.farewell m id tell).speaks.closes (.withoutSession _ id))
      (Speaks.raise _ 0 _ (by omega)).closes

theorem Closes.close (g : KoaMsg) (c : Ctx) (m : Mach) : Closes m (close g c m) := by
  unfold Machine.close
  split
  · next h => exact (Speaks.vet_drop h).closes
  next h =>
  refine .trans (Speaks.vet_take h).closes ?_
  split
  · exact (Speaks.abort ..).closes
  · exact .closeSession ..

theorem Closes.sessionIdleTimeout (id : Nat) (m : Mach) : Closes m (sessionIdleTimeout id m) := by
  unfold Machine.sessionIdleTimeout
  split
  · exact (Speaks.refl m).closes
  split
  · exact .closeSession ..
  · exact (Speaks.refl m).closes

theorem Closes.segCancel (g : KoaMsg) (c : Ctx) (m : Mach) : ∃ m', segCancel g c m = .of m' ∧ Closes m m' := by
  unfold Machine.segCancel Mach.serve
  split
  · next h => exact ⟨_, rfl, (Speaks.vet_drop h).closes⟩
  next m0 z h =>
  split
  · exact ⟨_, rfl, (Speaks.trans (.vet_take h) (.abort ..)).closes⟩
  · refine ⟨_, rfl, .trans (Speaks.vet_take h).closes (.trans (b := m0.endTransfer z.id) (SameBut.endTransfer ..).speaks.closes ?_)⟩
    exact ⟨rfl, .of_od rfl, rfl⟩

/-! ### Timers -/

theorem SameBut.segmentRetransmissionTimeout (id : Nat) (m : Mach) : SameBut (segmentRetransmissionTimeout id m) m := by
  unfold Machine.segmentRetransmissionTimeout
  split
  · exact .refl m
  split
  · exact .refl m
  · exact .trans (.onSession ..) (.sendSegments ..)

theorem SameBut.segmentedTransferStall (id : Nat) (m : Mach) : SameBut (segmentedTransferStall id m) m := by
  unfold Machine.segmentedTransferStall
  split
  · exact .refl m
  split
  · exact .refl m
  · exact .cancelTransfer ..

theorem SameBut.handshakeTimeout (id : Nat) (m : Mach) : SameBut (handshakeTimeout id m) m := by
  unfold Machine.handshakeTimeout
  split
  · exact .refl m
  · rfl

theorem SameBut.eventRetransmissionTimeout (id n : Nat) (m : Mach) : SameBut (eventRetransmissionTimeout id n m) m := by
  unfold Machine.eventRetransmissionTimeout
  split
  · exact .refl m
  split
  · exact .refl m
  split
  · exact .refl m
  split
  · exact .refl m
  split
  · exact .trans (b := m.onSession id _) rfl (.onSession ..)
  split
  · exact .trans (b := m.onSession id _) rfl (.onSession ..)
  · exact .refl m

theorem SameBut.eventSendRelease (id : Nat) (m : Mach) : SameBut (eventSendRelease id m) m := by
  unfold Machine.eventSendRelease
  split
  · cases h : m.koa.sessions.find? (fun x => x.id = id) with
    | none => rw [Mach.pumpEvents, h]
    | some z => rw [pumpEvents_of_find? h]; exact .trans (.emitAll ..) (.onSession ..)
  · exact .refl m

/-! ### The commands -/

/-- A command on the block alone, as an equation of states. -/
theorem state_eq_of_lift {f : Ctx → Mach → Mach} {s t : State} {m : Mach} (h : lift f s = .next t) (hm : f s.ctx s.m = m) :
    t = { s with m := m } := by
  rw [lift_next, hm] at h
  cases h
  rfl

/-- A command that has an effect on the block alone, as an equation of states. -/
theorem state_eq_of_liftE {f : Ctx → Mach → Eff} {s t : State} {m : Mach} (h : liftE f s = .next t)
    (hm : f s.ctx s.m = .of m) : t = { s with m := m } := by
  rw [liftE_next, hm] at h
  cases h
  rfl

/-- The frame of O14's first clause: what speaking changes, and the count of free values. -/
def SpeaksOrDraws (a b : Mach) : Prop :=
  b = { a with od := b.od, koa := b.koa, jrn := b.jrn, out := b.out, free := b.free } ∧
    ObjectsBut [(0x1100, 0x1100), (0x1202, 0x1202)] a b

theorem Speaks.orDraws {a b : Mach} (h : Speaks a b) : SpeaksOrDraws a b := by
  refine ⟨?_, h.2⟩
  conv_lhs => rw [h.1]
  have hfree : b.free = a.free := by have := congrArg Mach.free h.1; exact this
  rw [hfree]

theorem SpeaksOrDraws.hello (g : KoaMsg) (c : Ctx) (m : Mach) : SpeaksOrDraws m (hello g c m) := by
  obtain h | ⟨slot, key, h⟩ := hello_cases g c m
  · exact h.orDraws
  · rw [h]
    exact ⟨rfl, .of_od rfl⟩

theorem SpeaksOrDraws.state {s t : State} {m : Mach} (ht : t = { s with m := m }) (h : SpeaksOrDraws s.m m) :
    t = { s with m := { s.m with od := t.m.od, koa := t.m.koa, jrn := t.m.jrn, out := t.m.out, free := t.m.free } } ∧
      ObjectsBut [(0x1100, 0x1100), (0x1202, 0x1202)] s.m t.m := by
  subst ht
  exact ⟨congrArg (fun m => ({ s with m := m } : State)) h.1, h.2⟩

theorem Closes.state {s t : State} {m : Mach} (ht : t = { s with m := m }) (h : Closes s.m m) :
    t = { s with m := { s.m with od := t.m.od, koa := t.m.koa, jrn := t.m.jrn, outs := t.m.outs, out := t.m.out } } ∧
      ObjectsBut [(0x1100, 0x1100), (0x1130, 0x1137), (0x1202, 0x1202)] s.m t.m ∧
      t.m.outs = { s.m.outs with held := t.m.outs.held } := by
  subst ht
  exact ⟨congrArg (fun m => ({ s with m := m } : State)) h.1, h.2⟩

theorem SameBut.state {s t : State} {m : Mach} (ht : t = { s with m := m }) (h : SameBut m s.m) :
    t = { s with m := { s.m with koa := t.m.koa, out := t.m.out } } := by
  subst ht
  exact congrArg (fun m => ({ s with m := m } : State)) h

/-! ### READ -/

/-- From one block to the next only sessions, the wake of a domain, what is sent and the count of free values changed. -/
def Reads (a b : Mach) : Prop :=
  b = { a with od := b.od, koa := b.koa, power_ := b.power_, out := b.out, free := b.free } ∧
    ObjectsBut [(0x1100, 0x1100)] a b ∧ b.power_ = { a.power_ with woken := b.power_.woken }

theorem Reads.trans {a b c : Mach} (h : Reads a b) (k : Reads b c) : Reads a c := by
  obtain ⟨h1, h2, h3⟩ := h
  obtain ⟨k1, k2, k3⟩ := k
  refine ⟨?_, h2.trans k2, ?_⟩
  · rw [k1, h1]
  · rw [k3, h3]

theorem SameBut.reads {a b : Mach} (h : SameBut b a) : Reads a b := by
  have hpower : b.power_ = a.power_ := by have := congrArg Mach.power_ h; exact this
  refine ⟨?_, .of_od h.od, by rw [hpower]⟩
  unfold SameBut at h
  rw [h]

theorem Reads.wakeFor (m : Mach) (ix : Nat) : Reads m (m.wakeFor ix) := by
  unfold Mach.wakeFor
  split
  · exact ⟨rfl, .of_od rfl, rfl⟩
  · exact (SameBut.refl m).reads

theorem Reads.draw (m : Mach) : Reads m m.draw := ⟨rfl, .of_od rfl, rfl⟩

theorem Reads.bump (m : Mach) {sub : Nat} (h : sub < 256) : Reads m (m.bump 0x1100 sub) :=
  ⟨rfl, .setN (0x1100, 0x1100) m _ _ _ (by decide) ⟨Nat.le_refl _, Nat.le_refl _⟩ ⟨by omega, h⟩, rfl⟩

theorem Reads.tagFailure (m : Mach) : Reads m m.tagFailure := (Reads.bump m (sub := 4) (by omega)).trans (SameBut.reads rfl)

theorem Reads.vet_drop {m m0 : Mach} {c : Ctx} {ty : Nat} {g : KoaMsg} (h : m.vet c ty g = .drop m0) : Reads m m0 := by
  obtain rfl | rfl | rfl := vet_drop_cases h
  · exact (SameBut.refl _).reads
  · exact .tagFailure _
  · exact .bump _ (by omega)

/-- A READ that is answered has an effect on the block alone, and nothing follows its response. -/
theorem Reads.doRead {m : Mach} {c : Ctx} {z : Session} {ix sub : Nat} {r : Reply} (h : m.doRead c z ix sub = .ok r) :
    ∃ m', r.eff = .of m' ∧ r.after = Eff.of ∧ Reads m m' := by
  unfold Mach.doRead at h
  simp only at h
  split at h
  · cases h
  split at h
  · cases h
  split at h
  · cases hb : (m.wakeFor ix).readBytes c z ix sub with
    | error a => rw [hb] at h; cases h
    | ok b => rw [hb] at h; cases h; exact ⟨_, rfl, rfl, .wakeFor ..⟩
  · cases h
    refine ⟨_, rfl, rfl, .trans (.wakeFor m ix) ?_⟩
    split
    · exact .draw _
    · exact (SameBut.refl _).reads

theorem SameBut.refuse (m : Mach) (id ty : Nat) (g : KoaMsg) (a : Nat) : SameBut (m.refuse id ty g a) m := .answer ..

theorem Reads.execute (m : Mach) (c : Ctx) (z : Session) (g : KoaMsg) :
    ∃ m', m.execute c z 0x10 g none = .of m' ∧ Reads m m' := by
  unfold Mach.execute
  split
  · exact ⟨_, rfl, (SameBut.refuse ..).reads⟩
  next r hr =>
  obtain ⟨m', heff, hafter, hreads⟩ := Reads.doRead hr
  rw [heff, hafter]
  exact ⟨_, rfl, hreads.trans (SameBut.answer ..).reads⟩

theorem Reads.request16 (m : Mach) (c : Ctx) (z : Session) (g : KoaMsg) (hwait : m.koa.waiting = []) :
    ∃ m', m.request16 c z 0x10 g none = .of m' ∧ Reads m m' := by
  unfold Mach.request16
  split
  · exact ⟨_, rfl, (SameBut.say ..).reads⟩
  split
  · exact ⟨_, rfl, (SameBut.refuse ..).reads⟩
  split
  · exact ⟨_, rfl, (SameBut.refuse ..).reads⟩
  split
  · exact ⟨_, rfl, (SameBut.refuse ..).reads⟩
  split
  · exact Reads.execute ..
  next hbusy =>
  have hbusy : g.hdr.busy = true := by simpa [hwait] using hbusy
  rw [if_pos hbusy]
  exact ⟨_, rfl, SameBut.reads rfl⟩

theorem Reads.koaRead (g : KoaMsg) (c : Ctx) (m : Mach) (hwait : m.koa.waiting = []) :
    ∃ m', koaRead g c m = .of m' ∧ Reads m m' := by
  unfold Machine.koaRead Mach.serve
  split
  · next h => exact ⟨_, rfl, .vet_drop h⟩
  · next m0 z h =>
    obtain ⟨m', hm, hreads⟩ := Reads.request16 m0 c z g ((vet_waiting h).trans hwait)
    exact ⟨m', hm, (vet_take h).reads.trans hreads⟩

/-- Settles O14: the frame of each command, put together from those of the operations it is made of. -/
theorem sessionCommandsChangeSessionsOnly : Obligations.SessionCommandsChangeSessionsOnly := by
  unfold Obligations.SessionCommandsChangeSessionsOnly
  refine ⟨?speak, ?close, ?timers, ?read⟩
  case speak =>
    intro s t g c hc hrun
    simp only [List.mem_cons, List.not_mem_nil, or_false] at hc
    obtain rfl | rfl | rfl | rfl | rfl := hc
    · exact SpeaksOrDraws.state (state_eq_of_lift hrun rfl) (SpeaksOrDraws.hello ..)
    · exact SpeaksOrDraws.state (state_eq_of_lift hrun rfl) (Speaks.proof ..).orDraws
    · exact SpeaksOrDraws.state (state_eq_of_lift hrun rfl) (Speaks.eventAck ..).orDraws
    · obtain ⟨m, hm, hspeaks⟩ := Speaks.segAck g s.ctx s.m
      exact SpeaksOrDraws.state (state_eq_of_liftE hrun hm) hspeaks.orDraws
    · exact SpeaksOrDraws.state (state_eq_of_lift (f := fun _ => tagFailureIntervalEnd) hrun rfl)
        (Speaks.tagFailureIntervalEnd _).orDraws
  case close =>
    intro s t g k c hc hrun
    simp only [List.mem_cons, List.not_mem_nil, or_false] at hc
    obtain rfl | rfl | rfl := hc
    · exact Closes.state (state_eq_of_lift hrun rfl) (Closes.close ..)
    · exact Closes.state (state_eq_of_lift (f := fun _ => sessionIdleTimeout k) hrun rfl) (Closes.sessionIdleTimeout ..)
    · obtain ⟨m, hm, hcloses⟩ := Closes.segCancel g s.ctx s.m
      exact Closes.state (state_eq_of_liftE hrun hm) hcloses
  case timers =>
    intro s t k n c hc hrun
    simp only [List.mem_cons, List.not_mem_nil, or_false] at hc
    obtain rfl | rfl | rfl | rfl | rfl := hc
    · exact SameBut.state (state_eq_of_lift (f := fun _ => handshakeTimeout k) hrun rfl) (SameBut.handshakeTimeout ..)
    · exact SameBut.state (state_eq_of_lift (f := fun _ => segmentRetransmissionTimeout k) hrun rfl) (SameBut.segmentRetransmissionTimeout ..)
    · exact SameBut.state (state_eq_of_lift (f := fun _ => segmentedTransferStall k) hrun rfl) (SameBut.segmentedTransferStall ..)
    · exact SameBut.state (state_eq_of_lift (f := fun _ => eventRetransmissionTimeout k n) hrun rfl)
        (SameBut.eventRetransmissionTimeout ..)
    · exact SameBut.state (state_eq_of_lift (f := fun _ => eventSendRelease k) hrun rfl) (SameBut.eventSendRelease ..)
  case read =>
    intro s t g hwait _ hrun
    obtain ⟨m, hm, hreads⟩ := Reads.koaRead g s.ctx s.m hwait
    have ht := state_eq_of_liftE hrun hm
    subst ht
    exact ⟨congrArg (fun m => ({ s with m := m } : State)) hreads.1, hreads.2⟩

end Sys2Proof.Machine

/-! Requests: the fields of their payloads, their turn, and what they are answered (R46 to R48, R66, O10). -/

namespace Sys2Proof.Machine

/-! ### Fields of a payload -/

theorem slice_middle {a b : Bytes} {k n : Nat} (c : Bytes) (ha : a.length = k) (hb : b.length = n) :
    slice k n (a ++ b ++ c) = b := by
  subst ha hb
  rw [slice, List.append_assoc, List.drop_left, List.take_left]

/-- A number of a payload, read back from its place. -/
theorem ofBE_slice {a : Bytes} {k n v : Nat} (c : Bytes) (ha : a.length = k) (hv : v < 256 ^ n) :
    ofBE (slice k n (a ++ beBytes n v ++ c)) = v := by
  rw [slice_middle c ha (beBytes_length n v), ofBE_beBytes, Nat.mod_eq_of_lt hv]

/-- The index that begins a payload. -/
theorem ofBE_take_index {ix : Nat} (c : Bytes) (h : ix < 65536) : ofBE ((beBytes 2 ix ++ c).take 2) = ix := by
  rw [List.take_left' (beBytes_length 2 ix), ofBE_beBytes, Nat.mod_eq_of_lt (by omega)]

/-- The sub-index behind it. -/
theorem ofBE_slice_sub {ix sub : Nat} (c : Bytes) (h : sub < 256) :
    ofBE (slice 2 1 (beBytes 2 ix ++ (beBytes 1 sub ++ c))) = sub := by
  rw [← List.append_assoc, ofBE_slice c (beBytes_length 2 ix) (by omega)]

/-- The object that an ABORT carries is the one that the payload names. -/
theorem payloadObject_of_object {ty ix sub : Nat} {c : Bytes} (ht : ty = 0x10 ∨ ty = 0x12 ∨ ty = 0x20) (hix : ix < 65536)
    (hsub : sub < 256) : payloadObject ty (beBytes 2 ix ++ (beBytes 1 sub ++ c)) = (ix, sub) := by
  rw [payloadObject, if_pos ⟨ht, by simp only [List.length_append, beBytes_length]; omega⟩, ofBE_take_index _ hix, ofBE_slice_sub _ hsub]

/-! ### The turn of a request -/

theorem SameBut.boot {a b : Mach} (h : SameBut a b) : a.boot = b.boot := by
  have := congrArg Mach.boot h; exact this

theorem SameBut.power_ {a b : Mach} (h : SameBut a b) : a.power_ = b.power_ := by
  have := congrArg Mach.power_ h; exact this

section Turn
variable {m : Mach} {c : Ctx} {z : Session} {ty : Nat} {g : KoaMsg} {hint : Option Nat}

theorem request16_kept {k : Kept} (h : z.keeps ty g = some k) :
    m.request16 c z ty g hint = .of (m.say z.id k.respTy 0 k.tag k.resp) := by
  rw [Mach.request16, h]

theorem request16_full (hkept : z.keeps ty g = none) (hlength : lengthAbort ty g.payload = none)
    (hnormal : m.boot.recovery = false) (hfull : 16 ≤ (m.koa.waiting.filter (fun w => w.session = z.id)).length) :
    m.request16 c z ty g hint = .of (m.refuse z.id ty g abOutstanding) := by
  rw [Mach.request16, hkept]
  simp only [hlength, hnormal, Bool.false_eq_true, false_and, ↓reduceIte, hfull]

theorem request16_waits (hkept : z.keeps ty g = none) (hlength : lengthAbort ty g.payload = none)
    (hnormal : m.boot.recovery = false) (hfew : (m.koa.waiting.filter (fun w => w.session = z.id)).length < 16)
    (hbusy : g.hdr.busy = true) : m.request16 c z ty g hint =
      .of { m with koa := { m.koa with waiting := m.koa.waiting ++ [⟨z.id, ty, g, hint⟩] } } := by
  rw [Mach.request16, hkept]
  simp only [hlength, hnormal, Bool.false_eq_true, false_and, ↓reduceIte, Nat.not_le.mpr hfew, hbusy, Bool.not_true]

theorem request16_executes (hkept : z.keeps ty g = none) (hlength : lengthAbort ty g.payload = none)
    (hnormal : m.boot.recovery = false) (hbusy : g.hdr.busy = false) (hwait : m.koa.waiting = []) :
    m.request16 c z ty g hint = m.execute c z ty g hint := by
  rw [Mach.request16, hkept]
  simp [hlength, hnormal, hbusy, hwait]

theorem execute_refused {a : Nat} (h : m.perform c z ty g hint = .error a) :
    m.execute c z ty g hint = .of (m.refuse z.id ty g a) := by
  rw [Mach.execute, h]

theorem execute_answered {r : Reply} (h : m.perform c z ty g hint = .ok r) :
    m.execute c z ty g hint = (r.eff.on (fun m => m.answer z.id ty g r.ty r.bytes)).then_ r.after := by
  rw [Mach.execute, h]

end Turn

theorem wakeFor_koa (m : Mach) (ix : Nat) : (m.wakeFor ix).koa = m.koa := by
  unfold Mach.wakeFor; split <;> rfl

theorem wakeFor_out (m : Mach) (ix : Nat) : (m.wakeFor ix).out = m.out := by
  unfold Mach.wakeFor; split <;> rfl

/-- A refusal that carries the object of its request. -/
theorem answeredBy_refuse {a m : Mach} {z : Session} {ty ix sub : Nat} {g : KoaMsg} {r : Bytes} (h : m.session? z.id = some z)
    (hout : m.out = a.out) (ht : ty = 0x10 ∨ ty = 0x12 ∨ ty = 0x20) (hp : g.payload = beBytes 2 ix ++ (beBytes 1 sub ++ r))
    (hix : ix < 65536) (hsub : sub < 256) (code : Nat) :
    answeredBy a (m.refuse z.id ty g code) 0x7F z.id g.hdr.tag (abortPayload ix sub code) = true := by
  rw [Mach.refuse, hp, payloadObject_of_object ht hix hsub]
  exact answeredBy_answer h hout ..

/-- A command whose meaning has an effect on the block alone. -/
theorem runs_of_eff {f : Ctx → Mach → Eff} {s : State} {m : Mach} {P : State → Prop} (h : f s.ctx s.m = .of m)
    (hP : P { s with m := m }) : ∃ t, liftE f s = .next t ∧ P t := by
  refine ⟨{ s with m := m }, ?_, hP⟩
  rw [liftE_next, h]
  rfl

/-! ### READ -/

section Read
variable {s : State} {g : KoaMsg} {m : Mach} {z : Session}

theorem koaRead_of_take (h : Accepts s 0x10 g m z) : koaRead g s.ctx s.m = m.request16 s.ctx z 0x10 g none := by
  rw [koaRead, Mach.serve, h]

/-- A READ of one object whose turn has come. -/
theorem koaRead_executes {ix sub : Nat} (h : Accepts s 0x10 g m z) (hkept : z.keeps 0x10 g = none)
    (hnormal : s.m.boot.recovery = false) (hp : g.payload = beBytes 2 ix ++ beBytes 1 sub ++ [0]) (hbusy : g.hdr.busy = false)
    (hwait : s.m.koa.waiting = []) : koaRead g s.ctx s.m = m.execute s.ctx z 0x10 g none := by
  rw [koaRead_of_take h]
  exact request16_executes hkept (lengthAbort_of_length rfl (by simp [hp])) ((congrArg Boot.recovery (vet_take h).boot).trans hnormal) hbusy
    ((vet_waiting h).trans hwait)

theorem perform_read {c : Ctx} {ix sub : Nat} (hp : g.payload = beBytes 2 ix ++ beBytes 1 sub ++ [0]) (hix : ix < 65536)
    (hsub : sub < 256) : m.perform c z 0x10 g none = m.doRead c z ix sub := by
  unfold Mach.perform
  rw [hp, List.append_assoc]
  simp only [ofBE_take_index _ hix, ofBE_slice_sub _ hsub]

/-- A READ of an object of fixed size whose checks pass. -/
theorem doRead_fixed {c : Ctx} {ix sub n : Nat} {r : Row} (hchecks : (m.wakeFor ix).readAbort c ix sub false = none)
    (hrow : objRow ix sub = some r) (hsize : r.ty.size = some n) (hstated : (m.wakeFor ix).unstated ix sub = false) :
    m.doRead c z ix sub = .ok ⟨.of (m.wakeFor ix), 0x11,
      readResponse ix sub r.ty.code (r.ty.encode ((m.wakeFor ix).read c z ix sub)), Eff.of⟩ := by
  unfold Mach.doRead
  simp [hchecks, hrow, hsize, hstated]

theorem doRead_refused {c : Ctx} {ix sub a : Nat} (h : (m.wakeFor ix).readAbort c ix sub false = some a) :
    m.doRead c z ix sub = .error a := by
  unfold Mach.doRead
  simp only [h]

end Read

/-! ### WRITE -/

theorem writeMsg_lengthAbort (w : WriteReq) (ix sub : Nat) (h : w.value.length < 65536) :
    lengthAbort 0x12 (writeMsg w ix sub).payload = none := by
  have hlength : (writeMsg w ix sub).payload.length = 6 + w.value.length := by
    simp only [writeMsg, List.length_append, beBytes_length]
  have hfield : ofBE (slice 4 2 (writeMsg w ix sub).payload) = w.value.length :=
    ofBE_slice w.value (a := beBytes 2 ix ++ beBytes 1 sub ++ beBytes 1 w.ty) (by simp) (by omega)
  refine lengthAbort_of_length (n := 6 + w.value.length) ?_ hlength
  rw [payloadLength, hlength, hfield, if_neg (by omega)]

section Write
variable {s : State} {w : WriteReq} {m : Mach} {z : Session} {ix sub : Nat}

theorem koaWrite_of_take {g : KoaMsg} (hint : Option Nat) (h : Accepts s 0x12 g m z) :
    koaWrite g hint s.ctx s.m = m.request16 s.ctx z 0x12 g hint := by
  rw [koaWrite, Mach.serve, h]

theorem perform_write (c : Ctx) (hint : Option Nat) (hix : ix < 65536) (hsub : sub < 256) (hty : w.ty < 256) :
    m.perform c z 0x12 (writeMsg w ix sub) hint = m.doWrite c z ix sub w.ty w.value hint := by
  unfold Mach.perform
  simp only [writeMsg_ix w hix, writeMsg_sub w hsub, writeMsg_ty w hty, writeMsg_value]

theorem doWrite_refused {c : Ctx} {ty a : Nat} {b : Bytes} {hint : Option Nat}
    (h : (m.wakeFor ix).writeAbort c z.role ix sub false b = some a) : m.doWrite c z ix sub ty b hint = .error a := by
  unfold Mach.doWrite
  simp only [h]

/-- The session of a WRITE that reaches its object is open in the block that the object's rule acts on. -/
theorem Reaches.session? {p : Put} {hint : Option Nat} (h : Reaches s ix sub w p m hint) : m.session? p.s.id = some p.s := by
  obtain ⟨m0, hvet, rfl⟩ := h.taken
  exact (Mach.session?_congr (wakeFor_koa m0 ix) _).trans (vet_take_session hvet)

theorem Reaches.out {p : Put} {hint : Option Nat} (h : Reaches s ix sub w p m hint) : m.out = s.m.out := by
  obtain ⟨m0, hvet, rfl⟩ := h.taken
  rw [wakeFor_out, vet_take_out hvet]

/-- What a WRITE that reaches its object comes to: the effect of the object's rule, the response, and after the write of a key
slot the end of its sessions. -/
theorem Reaches.koaWrite_eq {p : Put} {hint : Option Nat} {e : Eff} (h : Reaches s ix sub w p m hint) (hrun : p.run m = .ok e) :
    koaWrite (writeMsg w ix sub) hint s.ctx s.m =
      (e.on (fun m => m.answer p.s.id 0x12 (writeMsg w ix sub) 0x13 (beBytes 2 ix ++ beBytes 1 sub ++ [0]))).then_
        (fun m => .of (if ix = 0x1110 ∨ ix = 0x1111 then m.closeSlot sub else m)) := by
  obtain ⟨m0, hvet, hm⟩ := h.taken
  obtain ⟨r, hrow, hvalue, hv⟩ := h.value
  obtain ⟨hc, hix, hsub, hb, hhint⟩ := h.put
  obtain ⟨hsmall, hsmallSub, hsmallTy⟩ := h.small
  have hput : ({ c := s.ctx, s := p.s, ix := ix, sub := sub, v := r.value w.value, b := w.value, hint := hint } : Put) = p := by
    rw [← hc, ← hix, ← hsub, ← hhint, ← hv, ← hb]
  have hdo : m0.doWrite s.ctx p.s ix sub w.ty w.value hint = .ok ⟨e, 0x13, beBytes 2 ix ++ beBytes 1 sub ++ [0],
      fun m => .of (if ix = 0x1110 ∨ ix = 0x1111 then m.closeSlot sub else m)⟩ := by
    unfold Mach.doWrite
    simp only [← hm, h.allowed, hrow, hvalue, hput, hrun]
  rw [koaWrite_of_take hint hvet, request16_executes h.unkept h.length ((congrArg Boot.recovery (vet_take hvet).boot).trans h.normal)
    h.turn.1 ((vet_waiting hvet).trans h.turn.2),
    execute_answered ((perform_write s.ctx hint hsmall hsmallSub hsmallTy).trans hdo)]

/-- The same for a rule that acts on the block alone, of another object than the key slots. -/
theorem Reaches.koaWrite_of_act {p : Put} {hint : Option Nat} {n : Mach} (h : Reaches s ix sub w p m hint)
    (hrun : p.run m = act n) (hkey : ix ≠ 0x1110 ∧ ix ≠ 0x1111) :
    koaWrite (writeMsg w ix sub) hint s.ctx s.m =
      .of (n.answer p.s.id 0x12 (writeMsg w ix sub) 0x13 (beBytes 2 ix ++ beBytes 1 sub ++ [0])) := by
  rw [h.koaWrite_eq hrun]
  simp only [hkey.1, hkey.2, or_self, ↓reduceIte]
  rfl

end Write

/-- The prediction limit 0x2200:05 has no rule of its own: its value is stored. -/
theorem run_predictionLimit {p : Put} (hix : p.ix = 0x2200) (hsub : p.sub = 5) (m : Mach) :
    p.run m = act (m.set 0x2200 5 p.v) := by
  have hrow : (objRow 0x2200 5).map (fun r => r.ty.size.isNone) = some false := by decide +kernel
  obtain ⟨r, hr, hsize⟩ := Option.map_eq_some_iff.mp hrow
  have hstore : p.store m = m.set 0x2200 5 p.v := by
    simp [Put.store, hix, hsub, ownSession, hr, hsize, Session.bank]
  simp [Put.run, Put.sessions, Put.supply, Put.times, Put.ports, Put.schedule, Put.layers, Put.observers, Put.memory,
    Put.links, Put.panel, Put.tests, hix, hsub, hstore]

/-- Settles O10: each request with its turn, its checks and its answer. -/
theorem requestsAreAnswered : Obligations.RequestsAreAnswered := by
  unfold Obligations.RequestsAreAnswered
  refine ⟨?read, ?readRefused, ?full, ?waits, ?readKept, ?write, ?writeKept, ?writeRefused⟩
  case read =>
    intro s g m z ix sub n r hvet hkept hnormal hp hix hsub hbusy hwait hchecks hrow hsize hstated
    have heff : koaRead g s.ctx s.m = .of ((m.wakeFor ix).answer z.id 0x10 g 0x11
        (readResponse ix sub r.ty.code (r.ty.encode ((m.wakeFor ix).read s.ctx z ix sub)))) := by
      rw [koaRead_executes hvet hkept hnormal hp hbusy hwait,
        execute_answered ((perform_read hp hix hsub).trans (doRead_fixed hchecks hrow hsize hstated))]
      rfl
    refine runs_of_eff heff ⟨?_, rfl, rfl⟩
    exact answeredBy_answer ((Mach.session?_congr (wakeFor_koa m ix) _).trans (vet_take_session hvet))
      (by rw [wakeFor_out, vet_take_out hvet]) ..
  case readRefused =>
    intro s g m z ix sub a hvet hkept hnormal hp hix hsub hbusy hwait hchecks
    refine runs_of_eff (f := koaRead g) (m := m.refuse z.id 0x10 g a) ?_
      ⟨answeredBy_refuse (vet_take_session hvet) (vet_take_out hvet) (by simp) (by rw [hp, List.append_assoc]) hix hsub a,
        (SameBut.refuse ..).trans (vet_take hvet)⟩
    rw [koaRead_executes hvet hkept hnormal hp hbusy hwait,
      execute_refused ((perform_read hp hix hsub).trans (doRead_refused hchecks))]
  case full =>
    intro s g m z hvet hkept hnormal hlength hfull
    refine runs_of_eff (f := koaRead g) (m := m.refuse z.id 0x10 g abOutstanding) ?_
      ⟨?_, (SameBut.refuse ..).trans (vet_take hvet)⟩
    · rw [koaRead_of_take hvet]
      exact request16_full hkept (lengthAbort_of_length rfl hlength) ((congrArg Boot.recovery (vet_take hvet).boot).trans hnormal)
        (by rw [vet_waiting hvet]; exact hfull)
    · have hobject : payloadObject 0x10 g.payload = (ofBE (g.payload.take 2), ofBE (slice 2 1 g.payload)) :=
        if_pos ⟨.inl rfl, by omega⟩
      rw [Mach.refuse, hobject]
      exact answeredBy_answer (vet_take_session hvet) (vet_take_out hvet) ..
  case waits =>
    intro s g m z hvet hkept hnormal hlength hfew hbusy
    refine runs_of_eff (f := koaRead g) ?_ ⟨rfl, rfl⟩
    rw [koaRead_of_take hvet, ← vet_waiting hvet]
    exact request16_waits hkept (lengthAbort_of_length rfl hlength) ((congrArg Boot.recovery (vet_take hvet).boot).trans hnormal)
      (by rw [vet_waiting hvet]; exact hfew) hbusy
  case readKept =>
    intro s g m z k hvet hkept
    refine runs_of_eff (f := koaRead g) (m := m.say z.id k.respTy 0 k.tag k.resp) ?_
      ⟨answeredBy_sayTo (vet_take_session hvet) (vet_take_out hvet) .., (SameBut.say ..).trans (vet_take hvet), rfl⟩
    rw [koaRead_of_take hvet]
    exact request16_kept hkept
  case write =>
    intro s w p m h
    obtain ⟨-, hix, hsub, -, -⟩ := h.put
    refine runs_of_eff (h.koaWrite_of_act (run_predictionLimit hix hsub m) (by decide)) ⟨?_, rfl, rfl, ?_⟩
    · rw [Put.n, Mach.objN_congr (SameBut.answer ..).od, Mach.set_objN_same]
    · exact answeredBy_answer ((Mach.session?_congr (Mach.set_koa ..) _).trans h.session?) (by rw [Mach.set_out, h.out]) ..
  case writeKept =>
    intro s g m z k hvet hkept
    refine runs_of_eff (f := koaWrite g none) (m := m.say z.id k.respTy 0 k.tag k.resp) ?_
      ⟨answeredBy_sayTo (vet_take_session hvet) (vet_take_out hvet) .., (SameBut.say ..).trans (vet_take hvet), rfl⟩
    rw [koaWrite_of_take none hvet]
    exact request16_kept hkept
  case writeRefused =>
    intro s g m z ix sub ty a b hvet hkept hnormal hp hix hsub hty hlength hbusy hwait hchecks
    have hg : g = writeMsg ⟨g.hdr, ty, b⟩ ix sub := by rw [writeMsg, ← hp]
    have hfits : lengthAbort 0x12 g.payload = none := hg ▸ writeMsg_lengthAbort ⟨g.hdr, ty, b⟩ ix sub hlength
    have hperform : m.perform s.ctx z 0x12 g none = .error a := by
      rw [hg]
      exact (perform_write (w := ⟨g.hdr, ty, b⟩) s.ctx none hix hsub hty).trans (doWrite_refused hchecks)
    refine runs_of_eff (f := koaWrite g none) (m := m.refuse z.id 0x12 g a) ?_
      ⟨answeredBy_refuse (r := beBytes 1 ty ++ (beBytes 2 b.length ++ b)) (vet_take_session hvet) (vet_take_out hvet) (by simp)
          (by rw [hp]; simp only [List.append_assoc]) hix hsub a,
        (SameBut.refuse ..).trans (vet_take hvet), rfl, rfl⟩
    rw [koaWrite_of_take none hvet, request16_executes hkept hfits ((congrArg Boot.recovery (vet_take hvet).boot).trans hnormal) hbusy
      ((vet_waiting hvet).trans hwait), execute_refused hperform]

end Sys2Proof.Machine

/-! The life cycle, key slots, the journal and cyclic maps (R43, R57, R65, R71, R73, O13). -/

namespace Sys2Proof.Machine

/-! ### What the end of sessions leaves -/

theorem Closes.strs {a b : Mach} (h : Closes a b) : b.strs = a.strs := by
  have := congrArg Mach.strs h.1; exact this

/-- An object outside the named indices keeps its value. -/
theorem ObjectsBut.objN {l : List (Nat × Nat)} {a b : Mach} (h : ObjectsBut l a b) {ix sub : Nat}
    (hix : ∀ r ∈ l, ix < r.1 ∨ r.2 < ix) (hsmall : ix < 65536 ∧ sub < 256) : b.objN ix sub = a.objN ix sub := by
  have hindex : okey ix sub / 256 % 65536 = ix := by rw [okey]; omega
  rw [Mach.objN, Mach.objN, Mach.obj, Mach.obj, h (okey ix sub) (by rwa [hindex])]

theorem Closes.foldl (l : List Nat) (reason : Nat) (tell : Bool) (m : Mach) :
    Closes m (l.foldl (fun m i => m.closeSession i reason tell) m) :=
  List.foldlRecOn l _ (motive := fun n => Closes m n) (Speaks.refl m).closes fun _ hn _ _ => hn.trans (.closeSession ..)

theorem Closes.closeSlot (m : Mach) (slot : Nat) : Closes m (m.closeSlot slot) := .foldl ..

/-- A session that closes by itself adds to the journal, and takes nothing from it. -/
theorem closeSession_newest_le (m : Mach) (id reason : Nat) (tell : Bool) :
    m.jrn.newest ≤ (m.closeSession id reason tell).jrn.newest := by
  cases h : m.koa.sessions.find? (fun x => x.id = id) with
  | none => rw [closeSession_of_none h]
  | some z => rw [closeSession_newest h]; exact Nat.le_succ _

theorem closeSlot_newest_le (m : Mach) (slot : Nat) : m.jrn.newest ≤ (m.closeSlot slot).jrn.newest :=
  List.foldlRecOn _ _ (motive := fun n => m.jrn.newest ≤ n.jrn.newest) (Nat.le_refl _)
    fun n hn _ _ => Nat.le_trans hn (closeSession_newest_le n ..)

/-- Sessions closed one after the other: those of other IDs stay. -/
theorem foldl_closeSession_sessions (l : List Nat) (reason : Nat) (tell : Bool) : ∀ m : Mach,
    (l.foldl (fun m i => m.closeSession i reason tell) m).koa.sessions.map Session.steady =
      (m.koa.sessions.filter (fun z => z.id ∉ l)).map Session.steady := by
  have hcommute (k : List Session) (p : Nat → Bool) :
      (k.filter (fun z => p z.id)).map Session.steady = (k.map Session.steady).filter (fun z => p z.id) := by
    rw [List.filter_map]; rfl
  induction l with
  | nil => intro m; simp
  | cons i l ih =>
    intro m
    rw [List.foldl_cons, ih, hcommute _ (fun n => n ∉ l), closeSession_sessions, ← hcommute _ (fun n => n ∉ l), List.filter_filter]
    congr 1
    refine List.filter_congr fun z _ => ?_
    rw [Bool.eq_iff_iff]
    simp [and_comm]

/-- After the sessions of a key slot have closed no session is one of the slot. -/
theorem closeSlot_slots (m : Mach) (slot : Nat) : (m.closeSlot slot).koa.sessions.all (fun z => z.slot != slot) = true := by
  rw [List.all_eq_true]
  intro z hz
  have hmem : z.steady ∈ (m.closeSlot slot).koa.sessions.map Session.steady := List.mem_map_of_mem hz
  rw [Mach.closeSlot, each, foldl_closeSession_sessions] at hmem
  obtain ⟨y, hy, hyz⟩ := List.mem_map.mp hmem
  obtain ⟨hopen, hid⟩ := List.mem_filter.mp hy
  have hslot : y.slot = z.slot := show y.steady.slot = z.steady.slot by rw [hyz]
  rw [← hslot, bne_iff_ne]
  intro h
  have hlisted : y.id ∈ (m.koa.sessions.filter (fun s => s.slot = slot)).map Session.id :=
    List.mem_map_of_mem (List.mem_filter.mpr ⟨hopen, by simpa using h⟩)
  simp only [decide_not, Bool.not_eq_true', decide_eq_false_iff_not] at hid
  exact hid hlisted

/-! ### Rules of chapter 02 -/

theorem run_of_sessions {p : Put} {m : Mach} {a : Act} (h : p.sessions m = some a) : p.run m = a := by
  rw [Put.run, List.findSome?_cons, h]

theorem writeIn_of_true {ok : Bool} {ix sub : Nat} {w : WriteReq} (h : ok = true) :
    writeIn ok ix sub w = koaWrite (writeMsg w ix sub) none := by
  subst h; rfl

theorem closeWindow_newest_le (m : Mach) (session : Nat) : m.jrn.newest ≤ (m.closeWindow session).jrn.newest := by
  unfold Mach.closeWindow
  split
  · exact Nat.le_refl _
  · rw [Mach.raise_newest]
    exact Nat.le_succ _

/-- The effect of a transition request that goes through. -/
def Put.granted (p : Put) (m : Mach) : Mach :=
  ((((m.raise 0x1001 0 [(1, p.c.life.code), (1, p.target.code)]).bump 0x1010 3).closeWindow p.s.id).disarm)

theorem granted_newest (p : Put) (m : Mach) : m.jrn.newest < (p.granted m).jrn.newest := by
  have h := closeWindow_newest_le ((m.raise 0x1001 0 [(1, p.c.life.code), (1, p.target.code)]).bump 0x1010 3) p.s.id
  rw [Mach.bump_jrn, Mach.raise_newest] at h
  exact h

/-- A transition that R65 lists and that no precondition holds back. -/
theorem run_transition {p : Put} {m : Mach} (hix : p.ix = 0x1010) (hlisted : p.c.life.permits p.target = true)
    (hadmin : p.c.life = .factory → m.objN 0x1111 8 = 3 ∧ m.slotKey 8 ≠ [])
    (htest : p.c.life = .factory ∨ p.target ≠ .field ∨ m.testRunning = false) :
    p.run m = .ok { m := p.granted m, life := some p.target } := by
  refine run_of_sessions ?_
  rw [Put.sessions, if_pos hix, Put.transition]
  have hready : ¬ ((p.c.life = .factory ∧
      (!(upTo 8).any (fun k => m.objN 0x1111 (k + 1) = 3 && m.slotKey (k + 1) != [])) = true) ∨
      (p.c.life = .service ∧ p.target = .field ∧ m.testRunning = true)) := by
    rintro (⟨hfactory, hnone⟩ | ⟨hservice, hfield, hrunning⟩)
    · obtain ⟨hrole, hkey⟩ := hadmin hfactory
      rw [Bool.not_eq_true', List.any_eq_false] at hnone
      exact hnone 7 (by decide) (by simp [hrole, hkey])
    · obtain h | h | h := htest
      · rw [hservice] at h; cases h
      · exact h hfield
      · rw [hrunning] at h; cases h
  simp only [hlisted, Bool.not_true, Bool.false_eq_true, ↓reduceIte, hready]
  rfl

theorem run_transition_refused {p : Put} {m : Mach} (hix : p.ix = 0x1010) (hunlisted : p.c.life.permits p.target = false) :
    p.run m = .error abTransition := by
  refine run_of_sessions ?_
  rw [Put.sessions, if_pos hix, Put.transition]
  simp only [hunlisted, Bool.not_false, ↓reduceIte]

/-- The effect of a write of a key slot or of its role (R71): the value and event 0xE005. -/
def Put.keyed (p : Put) (n : Mach) : Mach := n.raise 0xE005 0 [(1, p.sub), (1, n.objN 0x1111 p.sub)]

theorem run_key {p : Put} {m : Mach} (hix : p.ix = 0x1110) :
    p.run m = act (p.keyed (m.setStr 0x1110 p.sub (if p.b.all (· = 0) then [] else p.b))) := by
  refine run_of_sessions ?_
  simp [Put.sessions, Put.key, hix, Put.keyed]

theorem run_keyRole {p : Put} {m : Mach} (hix : p.ix = 0x1111) (hsub : 1 ≤ p.sub ∧ p.sub ≤ 8) :
    p.run m = act (p.keyed (m.set 0x1111 p.sub p.v)) := by
  have hrow : ∀ k, 1 ≤ k ∧ k ≤ 8 → (objRow 0x1111 k).map (fun r => r.ty.size.isNone) = some false := by
    rintro k ⟨h1, h8⟩
    interval_cases k <;> decide +kernel
  obtain ⟨r, hr, hsize⟩ := Option.map_eq_some_iff.mp (hrow p.sub hsub)
  have hstore : p.store m = m.set 0x1111 p.sub p.v := by
    simp [Put.store, hix, ownSession, hr, hsize, Session.bank]
  refine run_of_sessions ?_
  simp [Put.sessions, Put.key, hix, Put.keyed, hstore]

theorem run_journalClear {p : Put} {m : Mach} (hix : p.ix = 0x1200) :
    p.run m = act { m with jrn := { m.jrn with recs := [] } } := by
  refine run_of_sessions ?_
  simp [Put.sessions, hix]

theorem run_cyclicMap {p : Put} {m : Mach} {k : Nat} (hix : p.ix = 0x1130 + k) (hk : k < 8) : p.run m = p.cyclicMap m := by
  refine run_of_sessions ?_
  unfold Put.sessions
  rw [if_neg (by omega), if_neg (by omega), if_pos (by omega)]

theorem cyclicMap_disable {p : Put} {m : Mach} (hsub : p.sub = 1) (hv : p.v = 0) :
    p.cyclicMap m = act ((m.setN p.ix 1 0).setN p.ix 2 0) := by
  rw [Put.cyclicMap, if_pos hsub, if_pos hv]

theorem cyclicMap_enable {p : Put} {m : Mach} {k : Nat} (hix : p.ix = 0x1130 + k) (hsub : p.sub = 1) (hv : p.v = 1) :
    p.cyclicMap m = actIf (!(m.mapEntries k).any (fun e => (mapEntrySize p.c.unit.orderX e).isNone) &&
      decide (m.mapSize p.c.unit.orderX k ≤ 1368)) abMapInvalid ((m.setN (0x1130 + k) 1 1).setN (0x1130 + k) 2 p.s.id) := by
  have hk : p.ix - 0x1130 = k := by omega
  rw [Put.cyclicMap, if_pos hsub, if_neg (by omega), hk, hix]

/-! ### The commands -/

/-- A write whose rule acts on the block, of an object that is no key slot. -/
theorem Reaches.runs_act {s : State} {ix sub : Nat} {w : WriteReq} {p : Put} {m n : Mach} {P : State → Prop}
    (h : Reaches s ix sub w p m) (hkey : ix ≠ 0x1110 ∧ ix ≠ 0x1111) (hrun : p.run m = act n)
    (hP : ∀ a : Mach, SameBut a n → P { s with m := a }) : ∃ t, liftE (koaWrite (writeMsg w ix sub) none) s = .next t ∧ P t :=
  runs_of_eff (h.koaWrite_of_act hrun hkey) (hP _ (.answer ..))

/-- A write of a key slot or its role: the sessions of the slot close after the response. -/
theorem Reaches.runs_key {s : State} {ix sub : Nat} {w : WriteReq} {p : Put} {m n : Mach} {P : State → Prop}
    (h : Reaches s ix sub w p m) (hkey : ix = 0x1110 ∨ ix = 0x1111) (hrun : p.run m = act n)
    (hP : ∀ a : Mach, SameBut a n → P { s with m := a.closeSlot sub }) :
    ∃ t, liftE (koaWrite (writeMsg w ix sub) none) s = .next t ∧ P t := by
  refine runs_of_eff (m := (n.answer p.s.id 0x12 (writeMsg w ix sub) 0x13 (beBytes 2 ix ++ beBytes 1 sub ++ [0])).closeSlot sub)
    ?_ (hP _ (.answer ..))
  rw [h.koaWrite_eq hrun]
  simp only [hkey, ↓reduceIte]
  rfl

theorem wakeFor_of_unlisted {ix : Nat} (h : ix < 0x5320) (m : Mach) : m.wakeFor ix = m := if_neg (by omega)

/-- A write whose rule refuses it, of an object that wakes no domain: nothing changes but the sessions and what is sent. -/
theorem Reaches.runs_refused {s : State} {ix sub a : Nat} {w : WriteReq} {p : Put} {m : Mach} {P : State → Prop}
    (h : Reaches s ix sub w p m) (hix : ix < 0x5320) (hrun : p.run m = .error a)
    (hP : ∀ n : Mach, SameBut n m → P { s with m := n }) : ∃ t, liftE (koaWrite (writeMsg w ix sub) none) s = .next t ∧ P t := by
  obtain ⟨m0, hvet, hm⟩ := h.taken
  obtain ⟨t, m1, hnext, hbefore, hafter, hmem, hlife, hunit, hpending, -⟩ := h.liftE_refused hrun
  have ht : t = { s with m := t.m } := by rw [← hmem, ← hlife, ← hunit, ← hpending]
  have hsame : SameBut t.m m := by
    rw [hm, wakeFor_of_unlisted hix]
    exact hafter.trans (hbefore.trans (vet_take hvet).symm)
  exact ⟨t, hnext, ht ▸ hP t.m hsame⟩

theorem exec_keyWrite {k : Nat} (h : k ≤ 8) (w : WriteReq) (s : State) :
    exec (.keyWrite k w) s = liftE (koaWrite (writeMsg w 0x1110 k) none) s := by
  show liftE (writeIn _ _ _ _) s = _
  rw [writeIn_of_true (by simp; omega)]

theorem exec_keyRoleWrite {k : Nat} (h : k ≤ 8) (w : WriteReq) (s : State) :
    exec (.keyRoleWrite k w) s = liftE (koaWrite (writeMsg w 0x1111 k) none) s := by
  show liftE (writeIn _ _ _ _) s = _
  rw [writeIn_of_true (by simp; omega)]

theorem exec_cyclicMapEnable {k : Nat} (h : k < 8) (w : WriteReq) (s : State) :
    exec (.cyclicMapEnable k w) s = liftE (koaWrite (writeMsg w (0x1130 + k) 1) none) s := by
  show liftE (writeIn _ _ _ _) s = _
  rw [writeIn_of_true (by simpa using h)]

/-- A cyclic map that is enabled. -/
theorem enabled_objB (m : Mach) {k : Nat} (hk : k < 8) (id : Nat) :
    ((m.setN (0x1130 + k) 1 1).setN (0x1130 + k) 2 id).objB (0x1130 + k) 1 = true := by
  rw [Mach.objB_congr (Mach.setN_obj_ne _ _ _ _ _ (okey_ne (by omega) (by omega) (by omega) (by omega) (by omega))), Mach.objB,
    Mach.setN_obj_same]
  rfl

/-- Settles O13: each write with its rule, by what the rule leaves. -/
theorem lifeCycleKeysAndMaps : Obligations.LifeCycleKeysAndMaps := by
  unfold Obligations.LifeCycleKeysAndMaps
  refine ⟨?granted, ?provisioned, ?unlisted, ?key, ?role, ?clear, ?disable, ?enable, ?bad⟩
  case granted =>
    intro s w p m h hlisted hfactory htest
    obtain ⟨hc, hix, -, -, -⟩ := h.put
    have hlife : p.c.life = s.life := by rw [hc]; rfl
    have hrun := run_transition (m := m) hix (by rw [hlife]; exact hlisted) (fun h => absurd (hlife ▸ h) hfactory) (.inr htest)
    obtain ⟨t, hnext, hsame, hmem, hafter, -, -⟩ := h.liftE_next hrun (by decide)
    refine ⟨t, hnext, ?_, ?_, hmem⟩
    · rw [hafter, Life.after, if_pos hlisted]
    · rw [hsame.jrn]
      exact granted_newest p m
  case provisioned =>
    intro s w p m h hfactory htarget hrole hkey
    obtain ⟨hc, hix, -, -, -⟩ := h.put
    have hlife : p.c.life = .factory := by rw [hc]; exact hfactory
    have hrun := run_transition (m := m) hix (by rw [hlife, htarget]; rfl) (fun _ => ⟨hrole, hkey⟩) (.inl hlife)
    obtain ⟨t, hnext, hsame, hmem, hafter, -, -⟩ := h.liftE_next hrun (by decide)
    refine ⟨t, hnext, ?_, ?_, hmem⟩
    · rw [hafter, hfactory, htarget]
      rfl
    · rw [hsame.jrn]
      exact granted_newest p m
  case unlisted =>
    intro s w p m h hunlisted
    obtain ⟨hc, hix, -, -, -⟩ := h.put
    exact h.runs_refused (by omega) (run_transition_refused hix (by rw [hc]; exact hunlisted))
      fun n hn => ⟨rfl, hn, rfl⟩
  case key =>
    intro s k w p m h h1 h8
    obtain ⟨-, hix, hsub, hb, -⟩ := h.put
    unfold Runs
    rw [exec_keyWrite h8]
    refine h.runs_key (.inl rfl) (run_key hix) fun a ha => ⟨?_, closeSlot_slots .., ?_, rfl⟩
    · have hstrs : (a.closeSlot k).strs = (p.keyed (m.setStr 0x1110 k (if w.value.all (· = 0) then [] else w.value))).strs := by
        rw [(Closes.closeSlot a k).strs, ← hsub, ← hb]
        have := congrArg Mach.strs ha; exact this
      rw [Mach.str, hstrs, Put.keyed, Mach.raise_strs]
      exact Mach.setStr_str_same ..
    · refine Nat.lt_of_lt_of_le ?_ (closeSlot_newest_le ..)
      rw [ha.jrn, Put.keyed, Mach.raise_newest]
      exact Nat.lt_succ_self _
  case role =>
    intro s k w p m h h1 h8
    obtain ⟨-, hix, hsub, -, -⟩ := h.put
    unfold Runs
    rw [exec_keyRoleWrite h8]
    refine h.runs_key (.inr rfl) (run_keyRole hix (hsub.symm ▸ ⟨h1, h8⟩)) fun a ha => ⟨?_, closeSlot_slots .., ?_, rfl⟩
    · rw [(Closes.closeSlot a k).2.1.objN (by decide) (by omega), Mach.objN_congr ha.od, Put.keyed,
        Mach.raise_objN _ _ _ _ (okey_ne (by omega) (by omega) (by omega) (by omega) (by omega)), hsub, Mach.set_objN_same, Put.n]
    · refine Nat.lt_of_lt_of_le ?_ (closeSlot_newest_le ..)
      rw [ha.jrn, Put.keyed, Mach.raise_newest]
      exact Nat.lt_succ_self _
  case clear =>
    intro s w p m h
    obtain ⟨-, hix, -, -, -⟩ := h.put
    exact h.runs_act (by decide) (run_journalClear hix) fun a ha => ⟨ha.jrn, rfl, rfl⟩
  case disable =>
    intro s k w p m h hk hv
    obtain ⟨-, hix, hsub, -, -⟩ := h.put
    unfold Runs
    rw [exec_cyclicMapEnable hk]
    refine h.runs_act (by omega) ((run_cyclicMap hix hk).trans (cyclicMap_disable hsub hv)) fun a ha => ?_
    rw [hix] at ha
    refine ⟨?_, ?_, rfl⟩
    · exact (Mach.objB_congr (Mach.obj_congr ha.od ..)).trans (m.disableMap_objB k hk)
    · rw [Mach.objN_congr ha.od, Mach.setN_objN_same]
  case enable =>
    intro s k w p m h hk hv hallowed hfits
    obtain ⟨hc, hix, hsub, -, -⟩ := h.put
    have hgood : (m.mapEntries k).any (fun e => (mapEntrySize p.c.unit.orderX e).isNone) = false := by
      rw [hc, List.any_eq_false]
      intro e he
      have hsome : (mapEntrySize s.unit.orderX e).isSome = true := List.all_eq_true.mp hallowed e he
      show ¬ (mapEntrySize s.unit.orderX e).isNone = true
      simpa [Option.isSome_iff_ne_none] using hsome
    have hfits : m.mapSize p.c.unit.orderX k ≤ 1368 := by rw [hc]; exact hfits
    unfold Runs
    rw [exec_cyclicMapEnable hk]
    refine h.runs_act (by omega) ((run_cyclicMap hix hk).trans ((cyclicMap_enable hix hsub hv).trans
      (if_pos (by simp [hgood, hfits])))) fun a ha => ⟨?_, ?_, rfl⟩
    · exact (Mach.objB_congr (Mach.obj_congr ha.od ..)).trans (enabled_objB m hk _)
    · rw [Mach.objN_congr ha.od, Mach.setN_objN_same]
  case bad =>
    intro s k w p m h hk hv hbad
    obtain ⟨hc, hix, hsub, -, -⟩ := h.put
    have hbad : (m.mapEntries k).any (fun e => (mapEntrySize p.c.unit.orderX e).isNone) = true := by rw [hc]; exact hbad
    unfold Runs
    rw [exec_cyclicMapEnable hk]
    exact h.runs_refused (by omega) ((run_cyclicMap hix hk).trans ((cyclicMap_enable hix hsub hv).trans
      (if_neg (by simp [hbad])))) fun n hn => ⟨hn, rfl⟩

end Sys2Proof.Machine

/-! Segmented transfers (R51 to R53, O11). -/

namespace Sys2Proof.Machine

/-! ### The transfer of a session -/

/-- A session with another transfer, or with none. -/
def Session.withXfer (z : Session) (x : Option Xfer) : Session := { z with xfer := x }

theorem keepsId_withXfer (x : Option Xfer) : KeepsId (fun z => z.withXfer x) := fun _ _ => rfl

/-- The transfer of a session that is given one. -/
theorem Mach.session?_withXfer {m : Mach} {id : Nat} {z : Session} (h : m.session? id = some z) (x : Option Xfer) :
    (m.onSession id (fun z => z.withXfer x)).session? id = some (z.withXfer x) :=
  Mach.session?_onSession (keepsId_withXfer x) h

theorem Mach.session?_endTransfer {m : Mach} {id : Nat} {z : Session} (h : m.session? id = some z) :
    (m.endTransfer id).session? id = some (z.withXfer none) := Mach.session?_withXfer h none

/-- A message leaves the transfer of its session alone. -/
theorem Mach.xfer_sayTo {m : Mach} {id : Nat} {z : Session} (h : m.session? id = some z) (peer : Peer) (ty flags tag : Nat)
    (b : Bytes) : ((m.sayTo peer id ty flags tag b).session id).xfer = z.xfer := by
  obtain ⟨n, hn⟩ := Mach.session?_sayTo h peer ty flags tag b
  rw [Mach.session_of_session? hn]

theorem Mach.xfer_answer {m : Mach} {id : Nat} {z : Session} (h : m.session? id = some z) (ty : Nat) (g : KoaMsg) (rt : Nat)
    (b : Bytes) : ((m.answer id ty g rt b).session id).xfer = z.xfer := by
  obtain ⟨n, k, hn⟩ := Mach.session?_answer h ty g rt b
  rw [Mach.session_of_session? hn]

/-- A transfer belongs to a session that is found. -/
theorem Mach.session?_of_xfer {m : Mach} {id : Nat} {x : Xfer} (h : (m.session id).xfer = some x) :
    ∃ z, m.session? id = some z ∧ z.xfer = some x := by
  unfold Mach.session at h
  cases hz : m.session? id with
  | none => rw [hz] at h; cases h
  | some z => rw [hz] at h; exact ⟨z, rfl, h⟩

theorem Mach.endTransfer_out (m : Mach) (id : Nat) : (m.endTransfer id).out = m.out := Mach.onSession_out ..

/-- A transfer that the module cancels is gone, and its peer is told. -/
theorem cancelTransfer_spec {a m : Mach} {id : Nat} {z : Session} (h : m.session? id = some z) (hout : m.out = a.out) (tag code : Nat) :
    ((m.cancelTransfer id tag code).session id).xfer = none ∧
      answeredBy a (m.cancelTransfer id tag code) 0x2F id tag (beBytes 4 code) = true :=
  ⟨Mach.xfer_sayTo (Mach.session?_endTransfer h) .., answeredBy_sayTo (Mach.session?_endTransfer h) ((m.endTransfer_out id).trans hout) ..⟩

theorem SameBut.strs {a b : Mach} (h : SameBut a b) : a.strs = b.strs := by
  have := congrArg Mach.strs h; exact this

/-! ### Segments sent -/

/-- Segments sent one after the other: each leaves one message, and the session counts them. -/
theorem sendSegments_spec {id : Nat} (x : Xfer) (l : List Nat) : ∀ {m : Mach} {z : Session}, m.session? id = some z →
    (each l m (fun m i => m.sendSegment id x i)).out.length = m.out.length + l.length ∧
      ∃ n, (each l m (fun m i => m.sendSegment id x i)).session? id = some { z with tx := n } := by
  unfold each
  induction l with
  | nil => exact fun {m z} h => ⟨rfl, z.tx, h⟩
  | cons i l ih =>
    intro m z h
    obtain ⟨n, hn⟩ := Mach.session?_sayTo h (m.session id).peer 0x22 (if i + 1 = segCount x.total then 1 else 0) x.tag
      (beBytes 4 i ++ slice (1024 * i) 1024 x.data)
    obtain ⟨k, mac, hout⟩ := Mach.sayTo_out h (m.session id).peer 0x22 (if i + 1 = segCount x.total then 1 else 0) x.tag
      (beBytes 4 i ++ slice (1024 * i) 1024 x.data)
    obtain ⟨hlength, n', hn'⟩ := ih (m := m.sendSegment id x i) hn
    refine ⟨?_, n', hn'⟩
    rw [List.foldl_cons, hlength, Mach.sendSegment, Mach.say, hout, List.length_cons, List.length_cons]
    omega

theorem pumpRead_of_xfer {m : Mach} {id : Nat} {x : Xfer} (h : (m.session id).xfer = some x) : m.pumpRead id =
    let n := each (List.range' x.sent (min (x.next + 8) (segCount x.total) - x.sent)) m (fun m i => m.sendSegment id x i)
    if x.sent < min (x.next + 8) (segCount x.total) then
      n.onSession id (fun z => z.withXfer (some { x with sent := min (x.next + 8) (segCount x.total), lastSend := n.now }))
    else n := by
  unfold Mach.pumpRead
  rw [h]
  rfl

/-- A read transfer sends what its window lets it. -/
theorem pumpRead_spec {m : Mach} {id : Nat} {z : Session} {x : Xfer} (h : m.session? id = some z) (hx : z.xfer = some x) :
    (m.pumpRead id).out.length = m.out.length + (min (x.next + 8) (segCount x.total) - x.sent) ∧
      ((m.pumpRead id).session id).xfer.map (fun y => (y.next, y.sent, y.progress)) =
        some (x.next, max x.sent (min (x.next + 8) (segCount x.total)), x.progress) := by
  obtain ⟨hlength, n, hn⟩ := sendSegments_spec x (List.range' x.sent (min (x.next + 8) (segCount x.total) - x.sent)) h
  rw [List.length_range'] at hlength
  rw [pumpRead_of_xfer (by rw [Mach.session_of_session? h, hx])]
  simp only
  split
  · next hmore =>
    refine ⟨(congrArg List.length (Mach.onSession_out ..)).trans hlength, ?_⟩
    rw [Mach.session_of_session? (Mach.session?_withXfer hn _)]
    simp only [Session.withXfer, Option.map_some, Nat.max_eq_right (Nat.le_of_lt hmore)]
  · next hall =>
    refine ⟨hlength, ?_⟩
    rw [Mach.session_of_session? hn, hx]
    simp only [Option.map_some, Nat.max_eq_left (Nat.not_lt.mp hall)]

/-! ### SEG_OPEN -/

theorem segOpen_of_take {s : State} {g : KoaMsg} {m : Mach} {z : Session} (h : Accepts s 0x20 g m z) :
    segOpen g s.ctx s.m = m.request16 s.ctx z 0x20 g none := by
  rw [segOpen, Mach.serve, h]

/-- The payload of a SEG_OPEN of a write. -/
def openPayload (ix sub total crc : Nat) : Bytes :=
  beBytes 2 ix ++ beBytes 1 sub ++ [1] ++ beBytes 4 total ++ beBytes 4 crc

theorem perform_open {m : Mach} {c : Ctx} {z : Session} {g : KoaMsg} {ix sub total crc : Nat}
    (hp : g.payload = openPayload ix sub total crc) (hix : ix < 65536) (hsub : sub < 256) (htotal : total < 2 ^ 32)
    (hcrc : crc < 2 ^ 32) : m.perform c z 0x20 g none = m.doOpen c z ix sub 1 g.hdr.tag total crc := by
  have h1 : ofBE (g.payload.take 2) = ix := by
    rw [hp, openPayload]; simp only [List.append_assoc]; exact ofBE_take_index _ hix
  have h2 : ofBE (slice 2 1 g.payload) = sub := by
    rw [hp, openPayload]; simp only [List.append_assoc]; exact ofBE_slice_sub _ hsub
  have h3 : ofBE (slice 3 1 g.payload) = 1 := by
    rw [hp, openPayload, List.append_assoc]
    exact ofBE_slice (v := 1) (beBytes 4 total ++ beBytes 4 crc) (a := beBytes 2 ix ++ beBytes 1 sub) (by simp) (by omega)
  have h4 : ofBE (slice 4 4 g.payload) = total := by
    rw [hp, openPayload]
    exact ofBE_slice (beBytes 4 crc) (a := beBytes 2 ix ++ beBytes 1 sub ++ [1]) (by simp) (by omega)
  have h5 : ofBE (slice 8 4 g.payload) = crc := by
    have := ofBE_slice (k := 8) (n := 4) (v := crc) [] (a := beBytes 2 ix ++ beBytes 1 sub ++ [1] ++ beBytes 4 total) (by simp) (by omega)
    rwa [List.append_nil, ← openPayload, ← hp] at this
  unfold Mach.perform
  simp only [h1, h2, h3, h4, h5]

/-- SEG_OPEN of a write whose checks pass, of some bytes. -/
theorem execute_open {m : Mach} {c : Ctx} {z : Session} {g : KoaMsg} {ix sub total crc : Nat}
    (hp : g.payload = openPayload ix sub total crc) (hix : ix < 65536) (hsub : sub < 256) (hsome : 0 < total) (htotal : total < 2 ^ 32)
    (hcrc : crc < 2 ^ 32) (hchecks : m.openAbort c z ix sub 1 = none) : m.execute c z 0x20 g none =
      .of ((m.onSession z.id (fun z => z.withXfer (some ⟨ix, sub, true, total, crc, [], 0, 0, m.now, m.now, g.hdr.tag⟩))).answer
        z.id 0x20 g 0x21 (beBytes 4 total ++ beBytes 4 0)) := by
  have hopen : m.doOpen c z ix sub 1 g.hdr.tag total crc = .ok (m.openWrite c z ix sub g.hdr.tag total crc) := by
    rw [Mach.doOpen, hchecks]
    rfl
  have hlater : (m.openWrite c z ix sub g.hdr.tag total crc).after = Eff.of := funext fun n => if_neg (Nat.ne_of_gt hsome)
  rw [execute_answered ((perform_open hp hix hsub htotal hcrc).trans hopen), hlater]
  rfl

end Sys2Proof.Machine

/-! What a segment that arrives does (R51 to R53), and how a transfer repeats or is cancelled. -/

namespace Sys2Proof.Machine

/-! ### SEG_DATA -/

/-- A transfer that took the segment expected. -/
def Xfer.received (x : Xfer) (b : Bytes) (now : Nat) : Xfer := { x with data := x.data ++ b, next := x.next + 1, progress := now }

section Data
variable {m : Mach} {c : Ctx} {z : Session} {x : Xfer} {g : KoaMsg} {v : ImageVerdict} {n : Nat} {b : Bytes}

/-- A message of an open transfer that has its type's length. -/
theorem ofTransfer_of_take {s : State} {ty : Nat} {f : Session → Xfer → Mach → Eff} (h : Accepts s ty g m z)
    (hlength : lengthAbort ty g.payload = none) (hx : z.xfer = some x) : s.m.ofTransfer s.ctx ty g f = f z x m := by
  rw [Mach.ofTransfer, Mach.serve, h]
  simp only [hlength, hx]

theorem segData_of_take {s : State} (h : Accepts s 0x22 g m z) (hx : z.xfer = some x) (hwrite : x.write = true)
    (hp : g.payload = beBytes 4 n ++ b) : segData g v s.ctx s.m = m.takeSegment s.ctx z x g v := by
  have hlength : lengthAbort 0x22 g.payload = none := by
    have h4 : ¬ g.payload.length < 4 := by rw [hp, List.length_append, beBytes_length]; omega
    rw [lengthAbort, payloadLength, if_neg h4]
  rw [segData, ofTransfer_of_take h hlength hx, if_pos hwrite]

/-- The number and the bytes of a segment. -/
theorem segment_fields (hp : g.payload = beBytes 4 n ++ b) (hn : n < 2 ^ 32) :
    ofBE (g.payload.take 4) = n ∧ g.payload.drop 4 = b := by
  rw [hp, List.take_left' (beBytes_length 4 n), List.drop_left' (beBytes_length 4 n), ofBE_beBytes, Nat.mod_eq_of_lt (by omega)]
  exact ⟨rfl, rfl⟩

/-- A segment beyond the window cancels the transfer. -/
theorem takeSegment_beyond (hp : g.payload = beBytes 4 n ++ b) (hn : n < 2 ^ 32) (hfar : x.next + 8 < n) :
    m.takeSegment c z x g v = .of (m.cancelTransfer z.id g.hdr.tag abWindow) := by
  obtain ⟨hnumber, -⟩ := segment_fields hp hn
  rw [Mach.takeSegment, hnumber]
  exact if_pos hfar

/-- A segment within the window that is not the one expected is answered with the number expected. -/
theorem takeSegment_unexpected (hp : g.payload = beBytes 4 n ++ b) (hn : n < 2 ^ 32) (hne : n ≠ x.next) (hnear : n ≤ x.next + 8) :
    m.takeSegment c z x g v = .of (m.say z.id 0x23 0 g.hdr.tag (beBytes 4 x.next)) := by
  obtain ⟨hnumber, -⟩ := segment_fields hp hn
  rw [Mach.takeSegment, hnumber]
  simp only [Nat.not_lt.mpr hnear, ↓reduceIte, hne, ne_eq, not_false_eq_true]

/-- The segment expected, of a length that fits: it is received, and the last one ends the transfer. -/
theorem takeSegment_expected (hp : g.payload = beBytes 4 x.next ++ b) (hn : x.next < 2 ^ 32) (hsome : b ≠ [])
    (hlong : g.hdr.flags % 2 = 1 ∨ 1024 ≤ b.length) (hshort : b.length ≤ 1024) (hfits : x.data.length + b.length ≤ x.total) :
    m.takeSegment c z x g v =
      let n := m.onSession z.id (fun z => z.withXfer (some (x.received b m.now)))
      if g.hdr.flags % 2 = 1 then n.finishWrite c z (x.received b m.now) g.hdr.tag v
      else .of (n.say z.id 0x23 0 g.hdr.tag (beBytes 4 (x.next + 1))) := by
  obtain ⟨hnumber, hbytes⟩ := segment_fields hp hn
  have h1 : ¬ x.next + 8 < x.next := by omega
  have h2 : ¬ (b = [] ∨ (!decide (g.hdr.flags % 2 = 1)) = true ∧ b.length < 1024) := by
    rintro (h | ⟨hlast, h⟩)
    · exact hsome h
    · rcases hlong with hlong | hlong
      · simp [hlong] at hlast
      · omega
  have h3 : ¬ (1024 < b.length ∨ x.total < x.data.length + b.length) := by omega
  rw [Mach.takeSegment, hnumber, hbytes]
  simp only [h1, h2, h3, ↓reduceIte, ne_eq, not_true_eq_false, decide_eq_true_eq]
  rfl

end Data

/-! ### The end of a segmented write -/

theorem firstAbort_eq_none (l : List (Option Nat)) : firstAbort l = none ↔ ∀ a ∈ l, a = none := by
  rw [firstAbort, List.head?_eq_none_iff, List.filterMap_eq_nil_iff]
  rfl

/-- A check that fails after checks that pass. -/
theorem firstAbort_cons_none (l : List (Option Nat)) : firstAbort (none :: l) = firstAbort l := rfl

/-- The checks on a write ask nothing of the block but the power state, the start-up and the shut-down. -/
theorem writeAbort_of_unavailable {m n : Mach} {c : Ctx} {role ix sub : Nat} {domain : Bool} {b : Bytes} (hpower : n.power = m.power)
    (havailable : m.unavailable ix true = none → n.unavailable ix true = none) (h : m.writeAbort c role ix sub domain b = none) :
    n.writeAbort c role ix sub domain b = none := by
  unfold Mach.writeAbort at *
  split at h
  · cases h
  · next hfirst =>
    obtain ⟨h1, h2, h3⟩ := by simpa only [firstAbort_eq_none, List.forall_mem_cons, List.not_mem_nil, false_imp_iff, implies_true, and_true] using hfirst
    rw [hpower, h1, havailable h2, h3]
    exact h

/-- A shut-down lets an open transfer end: without it a write is refused no more than with it. -/
theorem unavailable_of_open {m n : Mach} {ix : Nat} (h : SameBut n m) (ha : m.unavailable ix true = none) :
    ({ n with boot := { n.boot with shut := 0 } } : Mach).unavailable ix true = none := by
  have hpower : ({ n with boot := { n.boot with shut := 0 } } : Mach).power = m.power := Mach.objN_congr h.od ..
  unfold Mach.unavailable at *
  rw [hpower, h.boot]
  split at ha
  · cases ha
  · next h1 =>
    rw [if_neg h1]
    split at ha
    · cases ha
    · next h2 =>
      rw [if_neg h2]
      simp

/-- The end checks of a write whose length is right, as far as its CRC-32C. -/
theorem endAbort_of_checks {m n : Mach} {c : Ctx} {z : Session} {x : Xfer} {r : Row} (hsame : SameBut n m)
    (hchecks : m.writeAbort c z.role x.ix x.sub true = none) (hrow : objRow x.ix x.sub = some r) (hlength : r.lengthAbort x.data.length = none)
    (htotal : x.total ≤ x.data.length) : n.endAbort c z x = if crc32c x.data ≠ x.crc then some abCrc else none := by
  have hopen : ({ n with boot := { n.boot with shut := 0 } } : Mach).writeAbort c z.role x.ix x.sub true = none :=
    writeAbort_of_unavailable (Mach.objN_congr hsame.od ..) (unavailable_of_open hsame) hchecks
  unfold Mach.endAbort
  simp only [hopen, Nat.not_lt.mpr htotal, ↓reduceIte, hrow, Option.bind_some, hlength, firstAbort_cons_none]
  split <;> rfl

theorem domainBusy_congr {m n : Mach} (hod : n.od = m.od) (hscene : n.scene = m.scene) (ix : Nat) : n.domainBusy ix = m.domainBusy ix := by
  unfold Mach.domainBusy Mach.gainState
  rw [hscene, Mach.objN_congr hod]

/-- A gain map patch 0x6230+g whose content is allowed replaces the old one (R358). -/
theorem putDomain_gainPatch {m : Mach} {ix : Nat} {b : Bytes} (hix : 0x6230 ≤ ix ∧ ix ≤ 0x6237) (hfree : m.domainBusy ix = false)
    (hallowed : gainPatchAllowed b = true) (v : ImageVerdict) : m.putDomain ix b v = act (m.setStr ix 0 b) := by
  unfold Mach.putDomain
  simp only [hfree, Bool.false_eq_true, hallowed, ↓reduceIte]
  rw [if_neg (by omega), if_neg (by omega), if_neg (by omega), if_neg (by omega), if_neg (by omega), if_pos hix]

theorem finishWrite_gainPatch {m : Mach} {c : Ctx} {z : Session} {x : Xfer} {tag : Nat} {v : ImageVerdict}
    (hix : 0x6230 ≤ x.ix ∧ x.ix ≤ 0x6237) (hend : m.endAbort c z x = none) (hfree : m.domainBusy x.ix = false)
    (hallowed : gainPatchAllowed x.data = true) : m.finishWrite c z x tag v =
      .of (((m.setStr x.ix 0 x.data).endTransfer z.id).say z.id 0x23 0 tag (beBytes 4 x.next)) := by
  unfold Mach.finishWrite
  rw [hend, putDomain_gainPatch hix hfree hallowed]
  dsimp only
  rw [if_neg (by omega)]
  rfl

theorem finishWrite_refused {m : Mach} {c : Ctx} {z : Session} {x : Xfer} {tag a : Nat} {v : ImageVerdict}
    (hend : m.endAbort c z x = some a) : m.finishWrite c z x tag v = .of (m.cancelTransfer z.id tag a) := by
  unfold Mach.finishWrite
  rw [hend]

end Sys2Proof.Machine

/-! The commands of a segmented transfer, and O11. -/

namespace Sys2Proof.Machine

/-! ### The commands of a transfer -/

/-- A transfer whose last segment arrives in the first message: what `finishWrite` then does. -/
theorem segData_single {s : State} {g : KoaMsg} {m : Mach} {z : Session} {v : ImageVerdict} {x : Xfer} {b : Bytes}
    (hvet : Accepts s 0x22 g m z) (hx : z.xfer = some x) (hwrite : x.write = true) (hdata : x.data = []) (hnext : x.next = 0)
    (htotal : x.total = b.length) (hp : g.payload = beBytes 4 0 ++ b) (hshort : b.length ≤ 1024) (hsome : b ≠ [])
    (hlast : g.hdr.flags % 2 = 1) : segData g v s.ctx s.m =
      (m.onSession z.id (fun z => z.withXfer (some (x.received b m.now)))).finishWrite s.ctx z (x.received b m.now) g.hdr.tag v := by
  rw [segData_of_take hvet hx hwrite hp, takeSegment_expected (by rw [hnext]; exact hp) (by omega) hsome (.inl hlast) hshort
    (by rw [hdata, htotal]; simp)]
  simp only [hlast, ↓reduceIte]

/-- The end checks of such a transfer: its CRC-32C decides (R53). -/
theorem endAbort_single {m : Mach} {c : Ctx} {z : Session} {x : Xfer} {b : Bytes} {r : Row} (hdata : x.data = [])
    (htotal : x.total = b.length) (hchecks : m.writeAbort c z.role x.ix x.sub true = none) (hrow : objRow x.ix x.sub = some r)
    (hlength : r.lengthAbort b.length = none) :
    (m.onSession z.id (fun z => z.withXfer (some (x.received b m.now)))).endAbort c z (x.received b m.now) =
      if crc32c b ≠ x.crc then some abCrc else none := by
  have hbytes : (x.received b m.now).data = b := by rw [Xfer.received, hdata]; rfl
  rw [endAbort_of_checks (x := x.received b m.now) (.onSession ..) hchecks hrow (by rw [hbytes]; exact hlength)
    (by rw [hbytes]; exact Nat.le_of_eq htotal), hbytes]
  rfl

/-- SEG_ACK accepted during a read. -/
theorem segAck_of_take {s : State} {g : KoaMsg} {m : Mach} {z : Session} {x : Xfer} {n : Nat} (hvet : Accepts s 0x23 g m z)
    (hx : z.xfer = some x) (hread : x.write = false) (hp : g.payload = beBytes 4 n) (hn : n < 2 ^ 32) (hsent : n ≤ x.sent)
    (hnew : x.next < n) : segAck g s.ctx s.m =
      if n = segCount x.total then .of (m.endTransfer z.id)
      else .of ((m.onSession z.id (fun z => z.withXfer (some { x with next := n, progress := m.now }))).pumpRead z.id) := by
  have hnumber : ofBE g.payload = n := by rw [hp, ofBE_beBytes, Nat.mod_eq_of_lt (by omega)]
  rw [segAck, ofTransfer_of_take hvet (lengthAbort_of_length rfl (by rw [hp, beBytes_length])) hx]
  simp only [hread, Bool.false_eq_true, hnumber, Nat.not_lt.mpr hsent, Nat.not_le.mpr hnew, ↓reduceIte]
  rfl

/-- t_seg after its last segment a read transfer sends again from the acknowledged number. -/
theorem segmentRetransmissionTimeout_of_due {m : Mach} {k : Nat} {x : Xfer} (hx : (m.session k).xfer = some x) (hread : x.write = false)
    (hmore : x.next < x.sent) (hup : m.coreUp 0 = true) (hdue : x.lastSend + ms 50 ≤ m.now) :
    segmentRetransmissionTimeout k m =
      (each (List.range' x.next (x.sent - x.next)) m (fun m i => m.sendSegment k x i)).onSession k
        (fun z => z.withXfer (some { x with lastSend := m.now })) := by
  unfold segmentRetransmissionTimeout
  rw [hx]
  simp only [hread, Bool.false_eq_true, Nat.ne_of_gt hmore, Nat.not_lt.mpr hdue, hup, Bool.not_true, or_self, ↓reduceIte]
  rw [(SameBut.sendSegments ..).now]
  rfl

theorem segmentedTransferStall_of_due {m : Mach} {k : Nat} {x : Xfer} (hx : (m.session k).xfer = some x) (hup : m.coreUp 0 = true)
    (hdue : x.progress + ms 2000 ≤ m.now) : segmentedTransferStall k m = m.cancelTransfer k x.tag abStalled := by
  unfold segmentedTransferStall
  rw [hx]
  simp only [Nat.not_lt.mpr hdue, hup, Bool.not_true, Bool.false_eq_true, or_self, ↓reduceIte]

/-- Settles O11: each command of a transfer by what it makes of the transfer and what it sends. -/
theorem segmentedTransfers : Obligations.SegmentedTransfers := by
  unfold Obligations.SegmentedTransfers
  refine ⟨?opens, ?inOrder, ?repeated, ?beyond, ?last, ?wrongCrc, ?ackAll, ?ackSome, ?cancel, ?resend, ?stall⟩
  case opens =>
    intro s g m z ix sub total crc hvet hkept hnormal hp hix hsub hsome htotal hcrc hbusy hwait hchecks
    have hput := Mach.session?_withXfer (vet_take_session hvet)
      (some ⟨ix, sub, true, total, crc, [], 0, 0, s.m.now, s.m.now, g.hdr.tag⟩)
    have hlength : lengthAbort 0x20 g.payload = none :=
      lengthAbort_of_length rfl (by rw [hp]; simp only [List.length_append, beBytes_length, List.length_singleton])
    refine runs_of_eff (f := segOpen g) (m := (m.onSession z.id (fun z => z.withXfer
      (some ⟨ix, sub, true, total, crc, [], 0, 0, s.m.now, s.m.now, g.hdr.tag⟩))).answer z.id 0x20 g 0x21 (beBytes 4 total ++ beBytes 4 0))
      ?_ ⟨Mach.xfer_answer hput .., answeredBy_answer hput (by rw [Mach.onSession_out, vet_take_out hvet]) ..,
        ((SameBut.answer ..).trans (.trans (.onSession ..) (vet_take hvet))).strs⟩
    rw [segOpen_of_take hvet, request16_executes hkept hlength ((congrArg Boot.recovery (vet_take hvet).boot).trans hnormal) hbusy
      ((vet_waiting hvet).trans hwait), execute_open hp hix hsub hsome htotal hcrc hchecks, (vet_take hvet).now]
  case inOrder =>
    intro s g m z v x b hvet hx hwrite hp hlength hmore hfits hn
    have hput := Mach.session?_withXfer (vet_take_session hvet) (some (x.received b s.m.now))
    refine runs_of_eff (f := segData g v) (m := (m.onSession z.id (fun z => z.withXfer (some (x.received b s.m.now)))).say z.id
      0x23 0 g.hdr.tag (beBytes 4 (x.next + 1))) ?_ ⟨Mach.xfer_sayTo hput .., answeredBy_sayTo hput
        (by rw [Mach.onSession_out, vet_take_out hvet]) .., ((SameBut.say ..).trans (.trans (.onSession ..) (vet_take hvet))).strs, rfl⟩
    rw [segData_of_take hvet hx hwrite hp, takeSegment_expected hp (by omega) (fun h => by rw [h] at hlength; cases hlength) (.inr (by omega)) (by omega)
      (by omega), (vet_take hvet).now]
    simp only [hmore, Nat.zero_ne_one, ↓reduceIte]
  case repeated =>
    intro s g m z v x n b hvet hx hwrite hp hn hne hnear
    refine runs_of_eff (f := segData g v) (m := m.say z.id 0x23 0 g.hdr.tag (beBytes 4 x.next)) ?_
      ⟨(Mach.xfer_sayTo (vet_take_session hvet) ..).trans hx, answeredBy_sayTo (vet_take_session hvet) (vet_take_out hvet) ..,
        (SameBut.say ..).trans (vet_take hvet), rfl⟩
    rw [segData_of_take hvet hx hwrite hp, takeSegment_unexpected hp hn hne hnear]
  case beyond =>
    intro s g m z v x n b hvet hx hwrite hp hn hfar
    obtain ⟨hgone, htold⟩ := cancelTransfer_spec (vet_take_session hvet) (vet_take_out hvet) g.hdr.tag abWindow
    refine runs_of_eff (f := segData g v) (m := m.cancelTransfer z.id g.hdr.tag abWindow) ?_
      ⟨hgone, htold, (SameBut.cancelTransfer ..).trans (vet_take hvet), rfl⟩
    rw [segData_of_take hvet hx hwrite hp, takeSegment_beyond hp hn hfar]
  case last =>
    intro s g m z v x b r hvet hx hwrite hdata hnext htotal hcrc hp hshort hsome hlast hgain hchecks hrow hlength
    obtain ⟨hlow, hhigh, hfree, hallowed⟩ := hgain
    let n := m.onSession z.id (fun z => z.withXfer (some (x.received b m.now)))
    have hsame : SameBut n m := .onSession ..
    have hend : n.endAbort s.ctx z (x.received b m.now) = none :=
      (endAbort_single hdata htotal hchecks hrow hlength).trans (if_neg (not_not.mpr hcrc.symm))
    have hbytes : (x.received b m.now).data = b := by rw [Xfer.received, hdata]; rfl
    have hscene : n.scene = m.scene := by have := congrArg Mach.scene hsame; exact this
    have hput : ((n.setStr x.ix 0 b).endTransfer z.id).session? z.id =
        some ((z.withXfer (some (x.received b m.now))).withXfer none) :=
      Mach.session?_endTransfer ((Mach.session?_congr (Mach.setStr_koa ..) _).trans (Mach.session?_withXfer (vet_take_session hvet) _))
    refine runs_of_eff (f := segData g v) (m := ((n.setStr x.ix 0 b).endTransfer z.id).say z.id 0x23 0 g.hdr.tag (beBytes 4 1)) ?_
      ⟨?_, Mach.xfer_sayTo hput .., answeredBy_sayTo hput ?_ .., rfl⟩
    · rw [segData_single hvet hx hwrite hdata hnext htotal hp hshort hsome hlast,
        finishWrite_gainPatch (x := x.received b m.now) ⟨hlow, hhigh⟩ hend ((domainBusy_congr hsame.od hscene _).trans hfree)
          (by rw [hbytes]; exact hallowed), hbytes]
      simp only [Xfer.received, hnext]
    · have hstrs : (((n.setStr x.ix 0 b).endTransfer z.id).say z.id 0x23 0 g.hdr.tag (beBytes 4 1)).strs = (n.setStr x.ix 0 b).strs :=
        ((SameBut.say ..).trans (SameBut.endTransfer ..)).strs
      rw [Mach.str, hstrs]
      exact Mach.setStr_str_same ..
    · rw [Mach.endTransfer_out, Mach.setStr_out]
      exact (Mach.onSession_out ..).trans (vet_take_out hvet)
  case wrongCrc =>
    intro s g m z v x b r hvet hx hwrite hdata hnext htotal hcrc hp hshort hsome hlast hchecks hrow hlength
    let n := m.onSession z.id (fun z => z.withXfer (some (x.received b m.now)))
    have hend : n.endAbort s.ctx z (x.received b m.now) = some abCrc :=
      (endAbort_single hdata htotal hchecks hrow hlength).trans (if_pos (Ne.symm hcrc))
    obtain ⟨hgone, htold⟩ := cancelTransfer_spec (m := n) (Mach.session?_withXfer (vet_take_session hvet) _)
      ((Mach.onSession_out ..).trans (vet_take_out hvet)) g.hdr.tag abCrc
    refine runs_of_eff (f := segData g v) (m := n.cancelTransfer z.id g.hdr.tag abCrc) ?_
      ⟨hgone, htold, (SameBut.cancelTransfer ..).trans (.trans (.onSession ..) (vet_take hvet)), rfl⟩
    rw [segData_single hvet hx hwrite hdata hnext htotal hp hshort hsome hlast, finishWrite_refused hend]
  case ackAll =>
    intro s g m z x hvet hx hread hp hn hnext hsent
    refine runs_of_eff (f := segAck g) (m := m.endTransfer z.id) ?_
      ⟨congrArg Session.xfer (Mach.session_of_session? (Mach.session?_endTransfer (vet_take_session hvet))),
        (SameBut.endTransfer ..).trans (vet_take hvet)⟩
    rw [segAck_of_take hvet hx hread hp hn (Nat.le_of_eq hsent.symm) hnext, if_pos rfl]
  case ackSome =>
    intro s g m z x n hvet hx hread hp hn hmore hnext hsent hall
    let y : Xfer := { x with next := n, progress := m.now }
    let k := m.onSession z.id (fun z => z.withXfer (some y))
    obtain ⟨hlength, hxfer⟩ := pumpRead_spec (m := k) (x := y) (Mach.session?_withXfer (vet_take_session hvet) _) rfl
    refine runs_of_eff (f := segAck g) (m := k.pumpRead z.id) ?_
      ⟨?_, (SameBut.pumpRead ..).trans (.trans (.onSession ..) (vet_take hvet)), ?_⟩
    · rw [segAck_of_take hvet hx hread hp hn hsent hnext, if_neg (Nat.ne_of_lt hmore)]
    · rw [← (vet_take hvet).now]
      exact hxfer
    · rw [← vet_take_out hvet, ← Mach.onSession_out m z.id (fun z => z.withXfer (some y))]
      exact hlength
  case cancel =>
    intro s g m z hvet hlength
    refine runs_of_eff (f := segCancel g) (m := (m.endTransfer z.id).dropHeld z.id) ?_ ⟨?_, ?_, ?_, rfl⟩
    · rw [segCancel, Mach.serve, hvet]
      simp only [lengthAbort_of_length (ty := 0x2F) (b := g.payload) rfl hlength]
    · have hgone := Mach.session?_endTransfer (vet_take_session hvet)
      exact congrArg Session.xfer (Mach.session_of_session? ((Mach.session?_congr (a := (m.endTransfer z.id).dropHeld z.id) rfl _).trans hgone))
    · rw [List.all_eq_true]
      exact fun y hy => (List.mem_filter.mp hy).2
    · exact ((SameBut.endTransfer m z.id).trans (vet_take hvet)).strs
  case resend =>
    intro s k x hx hread hmore hup hdue
    obtain ⟨z, hz, -⟩ := Mach.session?_of_xfer hx
    obtain ⟨hlength, n, hn⟩ := sendSegments_spec x (List.range' x.next (x.sent - x.next)) hz
    refine ⟨_, rfl, ?_⟩
    dsimp only
    rw [segmentRetransmissionTimeout_of_due hx hread hmore hup hdue]
    refine ⟨?_, ?_, (SameBut.onSession ..).trans (.sendSegments ..)⟩
    · rw [Mach.onSession_out, hlength, List.length_range']
    · rw [Mach.session_of_session? (Mach.session?_withXfer hn _)]
      rfl
  case stall =>
    intro s k x hx hdue hup
    obtain ⟨z, hz, -⟩ := Mach.session?_of_xfer hx
    obtain ⟨hgone, htold⟩ := cancelTransfer_spec hz rfl x.tag abStalled
    refine ⟨_, rfl, ?_⟩
    dsimp only
    rw [segmentedTransferStall_of_due hx hup hdue]
    exact ⟨hgone, htold, .cancelTransfer ..⟩

end Sys2Proof.Machine

/-! Slot ticks of a schedule (R75, O16). -/

namespace Sys2Proof.Machine

/-- The slot tick after k frames' worth of slots is the frame tick k frames on. -/
theorem slotTick_mul (e n d h k : Nat) {slots : Nat} (hslots : 0 < slots) :
    slotTick e n d slots h (k * slots) = frameTick e n d (h + k) := by
  have hsplit : (h * slots + k * slots) * n * perSecond = (h + k) * n * perSecond * slots := by ring
  rw [slotTick, frameTick, hsplit, Nat.mul_div_mul_right _ _ hslots]

theorem slotTick_le_succ (e n d slots h k : Nat) : slotTick e n d slots h k ≤ slotTick e n d slots h (k + 1) :=
  Nat.add_le_add_left (Nat.div_le_div_right (Nat.mul_le_mul_right _ (Nat.mul_le_mul_right _ (Nat.le_succ _)))) _

/-- A frame tick is the exact instant rounded down to a unit. -/
theorem frameTick_rounds (e n h : Nat) {d : Nat} (hd : 0 < d) :
    frameTick e n d h * d ≤ e * d + h * n * perSecond ∧ e * d + h * n * perSecond < (frameTick e n d h + 1) * d := by
  have hfloor := Nat.div_mul_le_self (h * n * perSecond) d
  have hceil := Nat.lt_div_mul_add (a := h * n * perSecond) hd
  rw [frameTick, Nat.add_mul, Nat.add_mul, Nat.add_mul, Nat.one_mul]
  omega

/-- Settles O16: the slots cancel out of the ticks at both ends of a frame, and a tick is rounded from the exact instant anew. -/
theorem slotTicksSplitFrames : Obligations.SlotTicksSplitFrames := by
  unfold Obligations.SlotTicksSplitFrames
  intro e n d slots h k hd hslots
  have hfirst := slotTick_mul e n d h 0 hslots
  have hlast := slotTick_mul e n d h 1 hslots
  rw [Nat.zero_mul] at hfirst
  rw [Nat.one_mul] at hlast
  exact ⟨hfirst, hlast, slotTick_le_succ .., frameTick_rounds e n h hd⟩

end Sys2Proof.Machine

/-! What clusters that look again and contexts that take pours leave alone (R164, R166, R167, R173). -/

namespace Sys2Proof.Machine

/-! ### Lists and clusters -/

/-- A relation that one step of a loop keeps is kept by the loop. -/
theorem each_rel {α : Type} {R : Mach → Mach → Prop} (hrefl : ∀ m, R m m) (htrans : ∀ {a b c}, R a b → R b c → R a c)
    {f : Mach → α → Mach} (hf : ∀ m x, R m (f m x)) (l : List α) (m : Mach) : R m (each l m f) :=
  List.foldlRecOn l f (motive := fun n => R m n) (hrefl m) fun n hn x _ => htrans hn (hf n x)

theorem map_modify_of_eq {α β : Type} {g : α → β} {f : α → α} (hf : ∀ x, g (f x) = g x) (l : List α) (i : Nat) :
    (l.modify i f).map g = l.map g := by
  apply List.ext_getElem?
  intro j
  rw [List.getElem?_map, List.getElem?_map, List.getElem?_modify]
  by_cases hij : i = j <;> cases l[j]? <;> simp [hij, hf]

theorem getD_of_map_eq {α β : Type} {g : α → β} {l k : List α} (h : l.map g = k.map g) (i : Nat) (d : α) :
    g (l.getD i d) = g (k.getD i d) := by
  rw [← List.getD_map (f := g), ← List.getD_map (f := g), h]

/-! ### Clusters that look again -/

/-- A context without the instant from which it has been eligible. -/
def Work.plain (w : Work) : Work := { w with eligibleAt := none }

/-- A cluster without what it renders, since when it waits and since when its contexts are eligible. -/
def Cluster.plain (x : Cluster) : Cluster :=
  { x with ctx := x.ctx.map (Option.map Work.plain), cur := none, waitAt := none, soloAt := none }

/-- From one block to the next only the waiting times of the heat and of the clusters, what these render and since when their contexts are
eligible changed. -/
structure Looks (a b : Mach) : Prop where
  frame : b = { a with pipe := { a.pipe with
    clusters := b.pipe.clusters
    heat := { a.pipe.heat with waitTime := b.pipe.heat.waitTime, soloTime := b.pipe.heat.soloTime } } }
  clusters : b.pipe.clusters.map Cluster.plain = a.pipe.clusters.map Cluster.plain

theorem Looks.refl (m : Mach) : Looks m m := ⟨rfl, rfl⟩

theorem Looks.trans {a b c : Mach} (h : Looks a b) (k : Looks b c) : Looks a c := by
  refine ⟨?_, k.clusters.trans h.clusters⟩
  rw [k.frame, h.frame]

theorem Looks.onCluster (m : Mach) (c : Nat) {f : Cluster → Cluster} (hf : ∀ x, (f x).plain = x.plain) : Looks m (m.onCluster c f) :=
  ⟨rfl, map_modify_of_eq hf _ _⟩

theorem Looks.waited (m : Mach) (f g : Heat → Nat) : Looks m (m.onHeat (fun h => { h with waitTime := f h, soloTime := g h })) := ⟨rfl, rfl⟩

theorem Looks.noteEligible (m : Mach) (c : Nat) : Looks m (m.noteEligible c) := by
  refine .onCluster m c fun x => ?_
  have hctx : ((x.ctx.zipIdx.map fun (y : Option Work × Nat) => y.1.map fun w =>
      { w with eligibleAt := if x.cur = some y.2 ∨ m.eligible w then some (w.eligibleAt.getD m.now) else none }).map (Option.map Work.plain)) =
      x.ctx.map (Option.map Work.plain) := by
    conv_rhs => rw [← List.zipIdx_map_fst 0 x.ctx]
    rw [List.map_map, List.map_map]
    refine List.map_congr_left fun y _ => ?_
    cases hy : y.1 <;> simp [hy, Work.plain]
  simp only [Cluster.plain, hctx]

theorem Looks.look (m : Mach) (c : Nat) : Looks m (m.look c) := by
  unfold Mach.look
  dsimp only
  split
  · exact .refl m
  split
  · exact (Looks.waited m _ _).trans (.onCluster _ c fun _ => by rfl)
  split
  · split
    · exact .onCluster m c fun _ => by rfl
    · exact .refl m
  split
  · exact (Looks.waited m _ _).trans (.onCluster _ c fun _ => by rfl)
  · exact .refl m

theorem Looks.noteSolo (m : Mach) (c : Nat) : Looks m (m.noteSolo c) := by
  unfold Mach.noteSolo
  dsimp only
  cases hsolo : (m.cluster c).soloAt with
  | none => exact iteInduction (fun _ => .onCluster m c fun _ => by rfl) (fun _ => .refl m)
  | some t => exact iteInduction (fun _ => .refl m) (fun _ => (Looks.waited m _ _).trans (.onCluster _ c fun _ => by rfl))

theorem Looks.reschedule (m : Mach) (c : Nat) : Looks m (m.reschedule c) :=
  (((Looks.noteEligible m c).trans (.look _ c)).trans (.noteEligible _ c)).trans (.noteSolo _ c)

theorem Looks.rescheduleAll (m : Mach) : Looks m m.rescheduleAll :=
  each_rel Looks.refl Looks.trans Looks.reschedule _ m

/-! ### Contexts that take pours -/

/-- From one block to the next only layers, graphics and the pipeline changed. -/
def Assigns (a b : Mach) : Prop := b = { a with scene := b.scene, outs := b.outs, pipe := b.pipe }

theorem Assigns.refl (m : Mach) : Assigns m m := rfl

theorem Assigns.trans {a b c : Mach} (h : Assigns a b) (k : Assigns b c) : Assigns a c := by
  unfold Assigns at *
  rw [k, h]

theorem Looks.assigns {a b : Mach} (h : Looks a b) : Assigns a b := by
  rw [h.frame]
  exact rfl

theorem Assigns.onHeat (m : Mach) (f : Heat → Heat) : Assigns m (m.onHeat f) := rfl

theorem Assigns.onPour (m : Mach) (p : Nat) (f : Pour → Pour) : Assigns m (m.onPour p f) := rfl

theorem Assigns.onPipe (m : Mach) (f : Pipeline → Pipeline) : Assigns m (m.onPipe f) := rfl

theorem Assigns.onCluster (m : Mach) (c : Nat) (f : Cluster → Cluster) : Assigns m (m.onCluster c f) := rfl

theorem Assigns.holdBuffers (m : Mach) (p : Pour) (version : Nat) : Assigns m (m.holdBuffers p version) := by
  refine each_rel Assigns.refl Assigns.trans (fun n l => ?_) _ m
  split <;> exact rfl

theorem Assigns.takePour (m : Mach) (c : Nat) (e : Nat × Nat) : Assigns m (m.takePour c e) := by
  unfold Mach.takePour
  split
  · exact .refl m
  · exact ((((Assigns.holdBuffers m _ _).trans (.onHeat _ _)).trans (.onPour _ _ _)).trans (.onPipe _ _)).trans (.onCluster _ _ _)

theorem assignOne_cases (m : Mach) : m.assignOne = m ∨ ∃ c e, m.firstEntry = some e ∧ m.clusterUp c = true ∧ m.held c ≤ 1 ∧
    m.assignOne = m.takePour c e := by
  unfold Mach.assignOne
  cases he : m.firstEntry with
  | none => exact .inl rfl
  | some e =>
    dsimp only
    split
    · next c hc =>
      refine .inr ⟨c, e, rfl, ?_⟩
      rw [Option.orElse_eq_or, Option.or_eq_some_iff] at hc
      obtain hc | ⟨-, hc⟩ := hc
      all_goals
        have hup := List.mem_of_find?_eq_some hc
        have hheld := List.find?_some hc
        simp only [List.mem_filter, Bool.and_eq_true, Bool.or_eq_true, decide_eq_true_eq] at hup hheld
        refine ⟨hup.2, ?_, rfl⟩
        omega
    · split
      · next c hc =>
        have hup := List.mem_of_find?_eq_some hc
        have hheld := List.find?_some hc
        simp only [List.mem_filter, Bool.and_eq_true, decide_eq_true_eq] at hup hheld
        exact .inr ⟨c, e, rfl, hup.2, hheld.1.le, rfl⟩
      · exact .inl rfl

theorem Assigns.assignOne (m : Mach) : Assigns m m.assignOne := by
  obtain h | ⟨c, e, -, -, -, h⟩ := assignOne_cases m <;> rw [h]
  · exact .refl m
  · exact .takePour m c e

theorem Assigns.assign (m : Mach) : Assigns m m.assign :=
  each_rel Assigns.refl Assigns.trans (fun n _ => .assignOne n) _ m

theorem Assigns.assign_rescheduleAll (m : Mach) : Assigns m m.assign.rescheduleAll :=
  (Assigns.assign m).trans (Looks.rescheduleAll _).assigns

section Fields
variable {a b : Mach} (h : Assigns a b)
include h

theorem Assigns.od : b.od = a.od := by have := congrArg Mach.od h; exact this
theorem Assigns.lanes : b.lanes = a.lanes := by have := congrArg Mach.lanes h; exact this
theorem Assigns.jrn : b.jrn = a.jrn := by have := congrArg Mach.jrn h; exact this
theorem Assigns.out : b.out = a.out := by have := congrArg Mach.out h; exact this

end Fields

end Sys2Proof.Machine

/-! Lanes that send: what a control block or a segment leaves of what the lanes hold (R287, R290, R316). -/

namespace Sys2Proof.Machine

/-! ### One lane -/

theorem getD_modify {α : Type} (l : List α) (i : Nat) (f : α → α) (d : α) :
    (l.modify i f).getD i d = if i < l.length then f (l.getD i d) else d := by
  rw [List.getD_eq_getElem?_getD, List.getD_eq_getElem?_getD, List.getElem?_modify]
  by_cases h : i < l.length
  · simp [h]
  · simp [h]

theorem Mach.lane_onLane (m : Mach) (l : Nat) (f : Lane → Lane) :
    (m.onLane l f).lane l = if l < m.lanes.length then f (m.lane l) else {} := getD_modify ..

theorem Mach.lane_onLane_same {m : Mach} {l : Nat} (h : l < m.lanes.length) (f : Lane → Lane) :
    (m.onLane l f).lane l = f (m.lane l) := by rw [Mach.lane_onLane, if_pos h]

theorem Mach.chain_onChain {m : Mach} {c : Nat} (h : c < m.tiles.chains.length) (f : Chain → Chain) :
    (m.onChain c f).chain c = f (m.chain c) := (getD_modify ..).trans (if_pos h)

theorem Mach.tile_onTile {m : Mach} {c pos : Nat} (hc : c < m.tiles.chains.length) (hpos : pos < (m.chain c).tiles.length)
    (f : Tile → Tile) : (m.onTile c pos f).tile c pos = f (m.tile c pos) := by
  rw [Mach.tile, Mach.onTile, Mach.chain_onChain hc]
  exact (getD_modify ..).trans (if_pos hpos)

/-! ### What lanes hold -/

/-- What a lane holds of segments: staged, unacknowledged and NAKed, with the pour in transmission. -/
def Lane.load (x : Lane) : List Seg × List (Seg × Nat) × List Seg × Option (Nat × Nat) := (x.staged, x.unacked, x.naked, x.cur)

theorem Lane.encode_load (blocks : List (Bool × Nat)) : ∀ x : Lane, (x.encode blocks).2.load = x.load := by
  induction blocks with
  | nil => exact fun _ => rfl
  | cons b blocks ih =>
    intro x
    obtain ⟨control, payload⟩ := b
    simp only [Lane.encode]
    exact (ih _).trans rfl

theorem Lane.disarmed_load (x : Lane) : x.disarmed.load = x.load := by
  unfold Lane.disarmed
  split <;> rfl

/-- From one block to the next lanes have sent: what they hold of segments is as it was, and nothing that has left is taken back. -/
structure Sends (a b : Mach) : Prop where
  frame : b = { a with od := b.od, lanes := b.lanes, out := b.out, free := b.free }
  loads : b.lanes.map Lane.load = a.lanes.map Lane.load
  objects : ∀ k < 0x6010 * 256, storeGet b.od k = storeGet a.od k
  out : a.out ⊆ b.out

theorem Sends.refl (m : Mach) : Sends m m := ⟨rfl, rfl, fun _ _ => rfl, List.Subset.refl _⟩

theorem Sends.trans {a b c : Mach} (h : Sends a b) (k : Sends b c) : Sends a c := by
  refine ⟨?_, k.loads.trans h.loads, fun x hx => (k.objects x hx).trans (h.objects x hx), fun _ ho => k.out (h.out ho)⟩
  rw [k.frame, h.frame]

theorem Sends.emit (m : Mach) (o : Out) : Sends m (m.emit o) := ⟨rfl, rfl, fun _ _ => rfl, List.subset_cons_self ..⟩

theorem Sends.draw (m : Mach) : Sends m m.draw := ⟨rfl, rfl, fun _ _ => rfl, List.Subset.refl _⟩

/-- An object of an index keeps its value when one of a higher index, or of any bank of it, is written. -/
theorem storeGet_setN_of_lt (m : Mach) {ix n k : Nat} (hix : n ≤ ix) (hk : k < n * 256) (sub v bank : Nat) :
    storeGet (m.setN ix sub v bank).od k = storeGet m.od k :=
  storeGet_set_ne m.od (v : Int) (by rw [okey]; omega)

theorem storeGet_bump_of_lt (m : Mach) {ix n k : Nat} (hix : n ≤ ix) (hk : k < n * 256) (sub v bank : Nat) :
    storeGet (m.bump ix sub v bank).od k = storeGet m.od k := by
  obtain ⟨x, hx⟩ := Mach.bump_eq m ix sub v bank
  rw [hx, storeGet_setN_of_lt m hix hk]

theorem Sends.bump (m : Mach) (l sub n : Nat) : Sends m (m.bump (0x6010 + l) sub n) := by
  refine ⟨?_, by rw [Mach.bump_lanes], fun k hk => storeGet_bump_of_lt m (Nat.le_add_right ..) hk .., by rw [Mach.bump_out]; exact fun _ h => h⟩
  obtain ⟨v, h⟩ := Mach.bump_eq m (0x6010 + l) sub n 0
  rw [h]
  rfl

theorem map_modify_load (l : List Lane) (i : Nat) {f : Lane → Lane} {x : Lane} (hx : l.getD i {} = x) (hf : (f x).load = x.load) :
    (l.modify i f).map Lane.load = l.map Lane.load := by
  apply List.ext_getElem?
  intro j
  rw [List.getElem?_map, List.getElem?_map, List.getElem?_modify]
  by_cases hij : i = j
  · subst hij
    cases hl : l[i]? with
    | none => rfl
    | some y =>
      have hy : y = x := by rw [← hx, List.getD_eq_getElem?_getD, hl]; rfl
      simp [hy, hf]
  · cases l[j]? <;> simp [hij]

theorem Sends.onLane (m : Mach) (l : Nat) {f : Lane → Lane} (hf : (f (m.lane l)).load = (m.lane l).load) : Sends m (m.onLane l f) :=
  ⟨rfl, map_modify_load m.lanes l rfl hf, fun _ _ => rfl, List.Subset.refl _⟩

theorem Sends.transmit (m : Mach) (l : Nat) (blocks : List (Bool × Nat)) : Sends m (m.transmit l blocks).2 := by
  unfold Mach.transmit
  have hbegin : ∀ x : Lane, (if x.sentAt = some m.now then x else { x with scrambler := bitsMsb 58 (Config.scrambler m.free).toNat }).load = x.load :=
    fun x => by split <;> rfl
  refine .trans ((Sends.onLane m l ?_).trans (.draw _)) (iteInduction (fun _ => .bump ..) (fun _ => .refl _))
  rw [Lane.disarmed_load]
  exact (Lane.encode_load blocks _).trans (hbegin _)

theorem Sends.putKtl (m : Mach) (l : Nat) (k : Ktl) : Sends m (m.putKtl l k) :=
  iteInduction (fun _ => .refl m) (fun _ => (Sends.transmit m l [(true, k.payload)]).trans (.emit _ (.ktl l k (m.transmit l [(true, k.payload)]).1)))

theorem Sends.sendKtl (m : Mach) (l : Nat) (k : Ktl) : Sends m (m.sendKtl l k) :=
  iteInduction (fun _ => .refl m) (fun _ => .putKtl ..)

theorem Sends.toTile (m : Mach) (c pos : Nat) (k : Ktl) : Sends m (m.toTile c pos k) := .sendKtl ..

/-- A control block leaves on a lane whose TX is ACTIVE while the module is not QUENCHED. -/
theorem sendKtl_sentOn {m : Mach} {l : Nat} (htx : m.tx l = 4) (hquench : m.objN 0x6401 1 = 0) (k : Ktl) :
    (m.sendKtl l k).sentOn l k = true := by
  unfold Mach.sendKtl Mach.putKtl
  rw [if_neg (not_not.mpr hquench), if_neg (not_not.mpr htx), Mach.sentOn, List.any_eq_true]
  exact ⟨_, List.mem_cons_self .., by simp⟩

theorem sentOn_of_subset {a b : Mach} {l : Nat} {k : Ktl} (h : a.out ⊆ b.out) (hsent : a.sentOn l k = true) : b.sentOn l k = true := by
  rw [Mach.sentOn, List.any_eq_true] at *
  obtain ⟨o, ho, hk⟩ := hsent
  exact ⟨o, h ho, hk⟩

section Fields
variable {a b : Mach} (h : Sends a b)
include h

theorem Sends.load (l : Nat) : (b.lane l).load = (a.lane l).load := getD_of_map_eq h.loads l _

theorem Sends.staged (l : Nat) : (b.lane l).staged = (a.lane l).staged := congrArg Prod.fst (h.load l)
theorem Sends.unacked (l : Nat) : (b.lane l).unacked = (a.lane l).unacked := congrArg (fun x => x.2.1) (h.load l)
theorem Sends.naked (l : Nat) : (b.lane l).naked = (a.lane l).naked := congrArg (fun x => x.2.2.1) (h.load l)
theorem Sends.cur (l : Nat) : (b.lane l).cur = (a.lane l).cur := congrArg (fun x => x.2.2.2) (h.load l)
theorem Sends.lanes_length : b.lanes.length = a.lanes.length := by simpa using congrArg List.length h.loads
theorem Sends.tiles : b.tiles = a.tiles := by have := congrArg Mach.tiles h.frame; exact this
theorem Sends.clk : b.clk = a.clk := by have := congrArg Mach.clk h.frame; exact this
theorem Sends.pipe : b.pipe = a.pipe := by have := congrArg Mach.pipe h.frame; exact this
theorem Sends.jrn : b.jrn = a.jrn := by have := congrArg Mach.jrn h.frame; exact this
theorem Sends.boot : b.boot = a.boot := by have := congrArg Mach.boot h.frame; exact this
theorem Sends.power_ : b.power_ = a.power_ := by have := congrArg Mach.power_ h.frame; exact this

end Fields

end Sys2Proof.Machine

/-! Segments, COMMIT and WITHDRAW with their acknowledgements (R86, R318, R319, O32). -/

namespace Sys2Proof.Machine

/-! ### Pours -/

/-- A pour of a panel position after every pour of that position changed. -/
theorem pour?_onPour_same (m : Mach) (p : Nat) {f : Pour → Pour} (hf : ∀ x, (f x).panel = x.panel) :
    (m.onPour p f).pour? p = (m.pour? p).map f := by
  show ((m.heat.pours.map fun x => if x.panel = p then f x else x).find? _) = _
  have hpanel : ∀ x : Pour, (if x.panel = p then f x else x).panel = x.panel := fun x => by split <;> simp [hf]
  rw [List.find?_map, Mach.pour?]
  simp only [Function.comp_def, hpanel]
  cases h : m.heat.pours.find? (fun x => x.panel = p) with
  | none => rfl
  | some x =>
    have hx : x.panel = p := by simpa using List.find?_some h
    simp [hx]

@[simp] theorem Pour.onVer_panel (p : Pour) (v : Nat) (f : Ver → Ver) : (p.onVer v f).panel = p.panel := by
  unfold Pour.onVer; split <;> rfl

@[simp] theorem Pour.ver_onVer (p : Pour) (v : Nat) (f : Ver → Ver) : (p.onVer v f).ver v = f (p.ver v) := by
  unfold Pour.onVer Pour.ver; split <;> rfl

theorem Looks.pours {a b : Mach} (h : Looks a b) : b.heat.pours = a.heat.pours := by
  have := congrArg (fun m : Mach => m.heat.pours) h.frame; exact this

theorem Looks.pour? {a b : Mach} (h : Looks a b) (p : Nat) : b.pour? p = a.pour? p := by
  rw [Mach.pour?, h.pours, Mach.pour?]

/-! ### Tiles and lanes that are answered -/

theorem Mach.tile_onTile_if (m : Mach) (c pos : Nat) (f : Tile → Tile) : (m.onTile c pos f).tile c pos =
    if c < m.tiles.chains.length ∧ pos < (m.chain c).tiles.length then f (m.tile c pos) else {} := by
  rw [Mach.tile, Mach.onTile, Mach.onChain, Mach.chain]
  dsimp only
  rw [modAt, getD_modify]
  by_cases hc : c < m.tiles.chains.length
  · simp only [hc, ↓reduceIte, true_and]
    exact getD_modify ..
  · simp only [hc, ↓reduceIte, false_and]
    rw [List.getD_eq_getElem?_getD, List.getElem?_replicate]
    split <;> rfl

/-- A change of a chain that keeps its tiles keeps every tile. -/
theorem tile_onChain (m : Mach) (c : Nat) {f : Chain → Chain} (hf : ∀ x, (f x).tiles = x.tiles) (d pos : Nat) :
    (m.onChain c f).tile d pos = m.tile d pos :=
  congrArg (fun l => List.getD l pos ({} : Tile)) (getD_of_map_eq (map_modify_of_eq hf m.tiles.chains c) d _)

/-- An answer changes what is known of its chain's break at most. -/
theorem answers_cases (m : Mach) (c pos : Nat) :
    m.answers c pos = m ∨ ∃ f : Chain → Chain, (∀ x, (f x).tiles = x.tiles) ∧ m.answers c pos = m.onChain c f := by
  unfold Mach.answers
  split
  · exact .inl rfl
  split
  · exact .inl rfl
  · exact iteInduction (motive := fun n => n = m ∨ ∃ f : Chain → Chain, (∀ x, (f x).tiles = x.tiles) ∧ n = m.onChain c f)
      (fun _ => .inr ⟨_, fun _ => by rfl, rfl⟩) (fun _ => .inl rfl)

theorem answers_frame (m : Mach) (c pos : Nat) : m.answers c pos = { m with tiles := (m.answers c pos).tiles } := by
  obtain h | ⟨f, -, h⟩ := answers_cases m c pos
  · rw [h]
  · rw [h]
    rfl

@[simp] theorem answers_tile (m : Mach) (c pos d i : Nat) : (m.answers c pos).tile d i = m.tile d i := by
  obtain h | ⟨f, hf, h⟩ := answers_cases m c pos <;> rw [h]
  exact tile_onChain m c hf d i

@[simp] theorem answers_od (m : Mach) (c pos : Nat) : (m.answers c pos).od = m.od := by rw [answers_frame]
@[simp] theorem answers_lanes (m : Mach) (c pos : Nat) : (m.answers c pos).lanes = m.lanes := by rw [answers_frame]
@[simp] theorem answers_pipe (m : Mach) (c pos : Nat) : (m.answers c pos).pipe = m.pipe := by rw [answers_frame]
@[simp] theorem answers_clk (m : Mach) (c pos : Nat) : (m.answers c pos).clk = m.clk := by rw [answers_frame]

theorem feedLane_congr {a b : Mach} (h : a.od = b.od) (c pos : Nat) : a.feedLane c pos = b.feedLane c pos := by
  unfold Mach.feedLane Mach.fedFromB Mach.objB
  rw [Mach.obj_congr h]

@[simp] theorem answers_feedLane (m : Mach) (c pos d i : Nat) : (m.answers c pos).feedLane d i = m.feedLane d i :=
  feedLane_congr (answers_od ..) ..

theorem lane_congr {a b : Mach} (h : a.lanes = b.lanes) (l : Nat) : a.lane l = b.lane l := by rw [Mach.lane, h, Mach.lane]

/-! ### ACK -/

theorem checkReceived_lanes (m : Mach) (l pos version : Nat) : (m.checkReceived l pos version).lanes = m.lanes := by
  unfold Mach.checkReceived
  dsimp only
  split
  · rfl
  · exact iteInduction (motive := fun n : Mach => n.lanes = m.lanes) (fun _ => rfl) (fun _ => rfl)

/-- What an ACK leaves unacknowledged on the lane of its tile: what follows from it sends a FLASH_COMMIT at most. -/
theorem ackBlock_unacked {m : Mach} {c pos kind : Nat} (hc : c < 96) (hpos : pos < 10) (hkind : kind < 7) (version tag n : Nat) :
    ((ackBlock c pos version kind tag n m).lane (m.feedLane c pos)).unacked =
      (((m.answers c pos).ackSegs (m.feedLane c pos) pos version kind tag n).lane (m.feedLane c pos)).unacked := by
  unfold ackBlock
  rw [if_neg (by omega)]
  dsimp only
  rw [if_neg (by omega), answers_feedLane]
  generalize (m.answers c pos).ackSegs (m.feedLane c pos) pos version kind tag n = k
  split
  · rw [lane_congr ((Looks.rescheduleAll _).assigns.lanes.trans (checkReceived_lanes k _ pos version))]
  split
  · unfold Mach.checkObject
    split
    · rfl
    · split
      · rfl
      · exact (Sends.toTile ..).unacked _
  · rfl

theorem ackSegs_unacked (m : Mach) (l pos version kind tag n : Nat) : ((m.ackSegs l pos version kind tag n).lane l).unacked =
    (m.lane l).unacked.filter (fun g => !(g.1.of pos version kind tag && decide (g.1.seq ≤ n))) := by
  rw [Mach.ackSegs, Mach.lane_onLane]
  split
  · rfl
  · next h => rw [Mach.lane, List.getD_eq_default _ _ (Nat.le_of_not_lt h)]; rfl

theorem ackSegs_staged {m : Mach} {l : Nat} (h : (m.lane l).staged = []) (pos version kind tag n : Nat) :
    ((m.ackSegs l pos version kind tag n).lane l).staged = [] := by
  rw [Mach.ackSegs, Mach.lane_onLane]
  split
  · exact h
  · rfl

theorem ackSegs_naked {m : Mach} {l : Nat} (h : (m.lane l).naked = []) (pos version kind tag n : Nat) :
    ((m.ackSegs l pos version kind tag n).lane l).naked = [] := by
  rw [Mach.ackSegs, Mach.lane_onLane]
  split
  · simp [h]
  · rfl

/-- Once all that a lane holds of a version is acknowledged, it carries nothing of it. -/
theorem ackSegs_carries {m : Mach} {l n : Nat} (hstaged : (m.lane l).staged = []) (hnaked : (m.lane l).naked = [])
    (hlast : (m.lane l).unacked.all (fun g => g.1.seq ≤ n) = true) (pos version kind tag : Nat) :
    ((m.ackSegs l pos version kind tag n).lane l).carries pos version kind tag = false := by
  have hnone : ∀ g ∈ (m.lane l).unacked, g.1.seq ≤ n := by simpa using hlast
  rw [Lane.carries, ackSegs_staged hstaged, ackSegs_naked hnaked, ackSegs_unacked]
  simp only [List.any_nil, Bool.false_or, List.any_eq_false, List.mem_filter]
  intro g hg
  simpa [hnone g hg.1] using hg.2

theorem checkReceived_of_all {m : Mach} {l pos version : Nat} {p : Pour}
    (hp : m.heat.pours.find? (fun p => p.c = l / 2 ∧ p.pos = pos) = some p) (hstate : (p.ver version).state = 5)
    (hrendered : (p.ver version).rendered = true) (hsent : (p.ver version).stopped = false) (htime : m.timeWord ≤ m.commitAt)
    (hcarries : (m.lane l).carries pos version 0 (m.heat.number % 256) = false) : m.checkReceived l pos version =
      m.onPour p.panel (fun p => p.onVer version (fun v => { v with state := 6, received := some m.tHus })) := by
  unfold Mach.checkReceived
  simp only [hp, hstate, hrendered, hsent, htime, hcarries, Bool.not_false, and_self, ↓reduceIte]

theorem ackBlock_rays {m : Mach} {c pos : Nat} (hc : c < 96) (hpos : pos < 10) (version tag n : Nat) :
    ackBlock c pos version 0 tag n m =
      (((m.answers c pos).ackSegs (m.feedLane c pos) pos version 0 tag n).checkReceived (m.feedLane c pos) pos version).rescheduleAll := by
  unfold ackBlock
  rw [if_neg (by omega)]
  simp

theorem ackBlock_commit {m : Mach} {c pos : Nat} (hc : c < 96) (hpos : pos < 10) (version tag n : Nat) :
    ackBlock c pos version 7 tag n m = (m.answers c pos).ackCommit c pos version tag := by
  unfold ackBlock
  rw [if_neg (by omega)]
  simp

theorem ackCommit_commits (m : Mach) (c pos version tag : Nat) : ((m.ackCommit c pos version tag).tile c pos).commits =
    (m.tile c pos).commits.filter (fun k => !(decide (k.version = version ∧ k.heat % 256 = tag))) := by
  rw [Mach.ackCommit, Mach.tile_onTile_if]
  split
  · rfl
  · next h =>
    have hnone : m.tile c pos = {} := by
      rw [Mach.tile]
      by_cases hc : c < m.tiles.chains.length
      · exact List.getD_eq_default _ _ (by omega)
      · rw [Mach.chain, List.getD_eq_default m.tiles.chains _ (by omega), List.getD_eq_getElem?_getD, List.getElem?_replicate]
        split <;> rfl
    rw [hnone]
    rfl

/-! ### Segments that count as NAKed -/

theorem commitAt_congr {a b : Mach} (hpipe : a.pipe = b.pipe) (hod : ∀ sub < 256, a.objN 0x5000 sub = b.objN 0x5000 sub) :
    a.commitAt = b.commitAt := by
  unfold Mach.commitAt Mach.tickAt Mach.heat
  rw [hpipe, hod 6 (by omega), hod 7 (by omega), hod 8 (by omega)]

/-- Whether a segment can be sent again depends on its lane, the heat, the schedule and the time alone. -/
theorem timeToResend_congr {a b : Mach} {l : Nat} (hlane : a.lane l = b.lane l) (hpipe : a.pipe = b.pipe) (hclk : a.clk = b.clk)
    (hod : ∀ sub < 256, a.objN 0x5000 sub = b.objN 0x5000 sub) (g : Seg) : a.timeToResend l g = b.timeToResend l g := by
  unfold Mach.timeToResend Mach.historyAllowed
  rw [hlane, commitAt_congr hpipe hod]
  unfold Mach.heat Mach.timeWord Mach.now
  rw [hpipe, hclk]

theorem timeToResend_bump (m : Mach) {ix : Nat} (hix : 0x5001 ≤ ix) (sub n l : Nat) (g : Seg) :
    (m.bump ix sub n).timeToResend l g = m.timeToResend l g := by
  refine timeToResend_congr (lane_congr (Mach.bump_lanes ..) l) (Mach.bump_pipe ..) (Mach.bump_clk ..) (fun k hk => ?_) g
  have hkey : okey 0x5000 k < 0x5001 * 256 := by rw [okey]; omega
  exact congrArg Int.toNat (storeGet_bump_of_lt m hix hkey sub n 0)

/-- A lane after a segment it has in flight counts as NAKed. -/
def Lane.afterNak (x : Lane) (g : Seg) : Lane := { x with unacked := x.unacked.filter (fun y => y.1 != g), naked := x.naked ++ [g] }

theorem nakSeg_of_time {m : Mach} {l pos version kind tag n at_ : Nat} {g : Seg}
    (hg : (m.lane l).unacked.find? (fun x => x.1.of pos version kind tag && x.1.seq = n) = some (g, at_)) (htime : m.timeToResend l g = true) :
    m.nakSeg l pos version kind tag n = m.onLane l (fun x => x.afterNak g) := by
  unfold Mach.nakSeg Lane.afterNak
  simp only [hg, htime, ↓reduceIte]

theorem feedLane_bump (m : Mach) {ix : Nat} (hix : ix < 0x6181) (sub n c pos : Nat) (hsub : sub < 256) :
    (m.bump ix sub n).feedLane c pos = m.feedLane c pos := by
  unfold Mach.feedLane Mach.fedFromB Mach.objB
  rw [Mach.bump_obj_ne m ix sub n 0 (okey_ne (by omega) hsub (by omega) (by omega) (.inl (by omega)))]

theorem objMax_naks {c : Nat} (h : c < 96) : objMax (0x6110 + c) 7 = 18446744073709551615 := by
  have hall : ∀ c < 96, objMax (0x6110 + c) 7 = 18446744073709551615 := by decide +kernel
  exact hall c h

theorem objMax_late : objMax 0x6181 9 = 4294967295 := by decide +kernel

theorem noAnswer_frame (m : Mach) (c pos : Nat) (hbrk : (m.chain c).brk = none) :
    ∃ t, m.noAnswer c pos = { m with tiles := t } := by
  unfold Mach.noAnswer
  rw [hbrk]
  split <;> exact ⟨_, rfl⟩

end Sys2Proof.Machine

/-! Segments and commits sent, sent again and given up (R87, R318, R319, R321, R334), and O32. -/

namespace Sys2Proof.Machine

/-! ### Segments sent -/

/-- The only segment staged on a lane that has nothing in transmission is the next one. -/
theorem nextRays_of_single {m : Mach} {l : Nat} {g : Seg} (hcur : (m.lane l).cur = none) (hstaged : (m.lane l).staged = [g])
    (hkind : g.kind = 0) (hversion : g.version = 1) : m.nextRays l = some g := by
  unfold Mach.nextRays
  simp [hcur, hstaged, hkind, hversion]

theorem segmentSent_of_rays {m : Mach} {l : Nat} {g : Seg} (hl : l < 192) (htx : m.tx l = 4) (hquench : m.objN 0x6401 1 = 0)
    (hnaked : (m.lane l).naked = []) (hnext : m.nextRays l = some g) : segmentSent l m = (m.sendSeg l g).rescheduleAll := by
  unfold segmentSent
  rw [if_neg (by omega), hnaked, List.find?_nil]
  dsimp only
  rw [hnext]

/-- The block after the SEG_START and the data blocks of a segment have left on a lane. -/
def Mach.putSegment (m : Mach) (l : Nat) (g : Seg) : Mach :=
  let x := (m.sendKtl l (.segStart g)).transmit l (dataBlocks (g.data.length / 16) g.data)
  x.2.emit (.segment l g x.1)

theorem Sends.putSegment (m : Mach) (l : Nat) (g : Seg) : Sends m (m.putSegment l g) :=
  ((Sends.sendKtl m l _).trans (.transmit _ l _)).trans (.emit ..)

theorem putSegment_sentOn {m : Mach} {l : Nat} (htx : m.tx l = 4) (hquench : m.objN 0x6401 1 = 0) (g : Seg) :
    (m.putSegment l g).sentOn l (.segStart g) = true :=
  sentOn_of_subset ((Sends.transmit (m.sendKtl l (.segStart g)) l _).trans (.emit ..)).out (sendKtl_sentOn htx hquench _)

/-- A lane after it has sent a segment of a pour, whose last block leaves at an instant. -/
def Lane.afterSegment (x : Lane) (g : Seg) (at_ : Nat) : Lane :=
  { x with
    staged := x.staged.filter (· != g)
    naked := x.naked.filter (· != g)
    unacked := x.unacked ++ [(g, at_)]
    cur := if x.staged.contains g then some (g.pos, g.version) else x.cur }

/-- A segment of a pour sent with no injection that waits at its chain. -/
theorem sendSeg_of_quiet {m : Mach} {l : Nat} {g : Seg} (hquiet : m.armedAt 11 (l / 2) = false) (hkind : g.kind = 0) :
    m.sendSeg l g = ((m.putSegment l g).onLane l (fun x => x.afterSegment g ((m.putSegment l g).now + g.time))).onPour g.panel
      (fun p => p.onVer g.version (fun v => if v.state = 4 then { v with state := 5 } else v)) := by
  unfold Mach.sendSeg Mach.putSegment Lane.afterSegment
  rw [hquiet]
  simp only [Bool.false_eq_true, ↓reduceIte, if_pos hkind, decide_eq_true hkind, Bool.true_and]

theorem sendSeg_lane {m : Mach} {l : Nat} {g : Seg} (hl : l < m.lanes.length) (hquiet : m.armedAt 11 (l / 2) = false)
    (hkind : g.kind = 0) : ((m.sendSeg l g).lane l).load = ((m.lane l).afterSegment g (m.now + g.time)).load := by
  have hsends := Sends.putSegment m l g
  rw [sendSeg_of_quiet hquiet hkind, lane_congr (Mach.onPour_lanes ..), Mach.lane_onLane_same (by rwa [hsends.lanes_length]), Mach.now,
    hsends.clk, ← Mach.now]
  simp only [Lane.load, Lane.afterSegment, hsends.staged, hsends.unacked, hsends.naked, hsends.cur]

theorem sendSeg_sentOn {m : Mach} {l : Nat} {g : Seg} (hquiet : m.armedAt 11 (l / 2) = false) (hkind : g.kind = 0) (htx : m.tx l = 4)
    (hquench : m.objN 0x6401 1 = 0) : (m.sendSeg l g).sentOn l (.segStart g) = true := by
  rw [sendSeg_of_quiet hquiet hkind, Mach.sentOn, Mach.onPour_out, Mach.onLane_out]
  exact putSegment_sentOn htx hquench g

/-! ### COMMIT and WITHDRAW sent again and given up -/

theorem commitResend_of_due {m : Mach} {c pos : Nat} {k : CommitSent} (hcommits : (m.tile c pos).commits = [k])
    (hdue : k.sentAt + us 10 ≤ m.now) (htime : m.timeWord + us 20 ≤ m.tickAt k.heat) (hcommit : k.withdraw = false) :
    commitResend c pos m = (m.toTile c pos (.commit pos k.version k.heat)).onTile c pos (fun t => { t with
      commits := t.commits.map (fun x => if x = k then { x with sentAt := m.now } else x) }) := by
  unfold commitResend
  rw [hcommits]
  simp only [each, List.foldl_cons, List.foldl_nil, hdue, htime, hcommit, and_self, ↓reduceIte, Bool.false_eq_true]

/-- From one block to the next only reports were joined to chains: their tiles and breaks are as they were. -/
structure Reports (a b : Mach) : Prop where
  frame : b = { a with tiles := b.tiles }
  chains : b.tiles.chains.map (fun x => (x.tiles, x.brk)) = a.tiles.chains.map (fun x => (x.tiles, x.brk))

theorem Reports.onChain (m : Mach) (c : Nat) {f : Chain → Chain} (hf : ∀ x, ((f x).tiles, (f x).brk) = (x.tiles, x.brk)) :
    Reports m (m.onChain c f) := ⟨rfl, map_modify_of_eq (g := fun x : Chain => (x.tiles, x.brk)) hf _ _⟩

theorem Reports.trans {a b c : Mach} (h : Reports a b) (k : Reports b c) : Reports a c := by
  refine ⟨?_, k.chains.trans h.chains⟩
  rw [k.frame, h.frame]

theorem Reports.report {m : Mach} (hup : m.coreUp 2 = true) (c : Nat) : Reports m (m.report c) := by
  unfold Mach.report
  rw [hup]
  cases (m.chain c).window with
  | some w => exact .onChain m c fun _ => by rfl
  | none => exact (Reports.onChain m c fun _ => by rfl).trans ⟨rfl, rfl⟩

theorem Reports.reportLate {m : Mach} (hup : m.coreUp 2 = true) (c pos heat : Nat) : Reports m (m.reportLate c pos heat) := by
  unfold Mach.reportLate
  rw [hup]
  refine (Reports.report hup c).trans (.onChain _ c fun x => ?_)
  cases x.window <;> rfl

section Fields
variable {a b : Mach} (h : Reports a b)
include h

theorem Reports.brk (c : Nat) : (b.chain c).brk = (a.chain c).brk := congrArg Prod.snd (getD_of_map_eq h.chains c _)

theorem Reports.tile (c pos : Nat) : b.tile c pos = a.tile c pos :=
  congrArg (fun x : List Tile × Option Break => x.1.getD pos {}) (getD_of_map_eq h.chains c _)

theorem Reports.length : b.tiles.chains.length = a.tiles.chains.length := by simpa using congrArg List.length h.chains

theorem Reports.od : b.od = a.od := by have := congrArg Mach.od h.frame; exact this

theorem Reports.boot : b.boot = a.boot := by have := congrArg Mach.boot h.frame; exact this

end Fields

/-- A report leaves its chain's window open. -/
theorem report_window {m : Mach} {c : Nat} (hup : m.coreUp 2 = true) (hc : c < m.tiles.chains.length) :
    ∃ w, ((m.report c).chain c).window = some w := by
  unfold Mach.report
  rw [hup]
  cases (m.chain c).window with
  | some w => exact ⟨_, congrArg Chain.window (Mach.chain_onChain hc _)⟩
  | none => exact ⟨_, congrArg Chain.window (Mach.chain_onChain hc _)⟩

/-- A late commit is among the timeouts of its chain's window once it is reported. -/
theorem reportLate_window {m : Mach} {c : Nat} (hup : m.coreUp 2 = true) (hc : c < m.tiles.chains.length) (pos heat : Nat) :
    ((m.reportLate c pos heat).chain c).window.map (fun w => w.timeouts.contains (heat, pos)) = some true := by
  obtain ⟨w, hw⟩ := report_window hup hc
  unfold Mach.reportLate
  rw [hup]
  simp only [Bool.not_true, Bool.false_eq_true, ↓reduceIte]
  rw [Mach.chain_onChain (by rwa [(Reports.report hup c).length]), hw]
  simp

/-- A tile that does not answer in a chain without a break breaks the chain: its tiles and its window stay. -/
theorem noAnswer_of_whole {m : Mach} {c : Nat} (hup : m.coreUp 2 = true) (hbrk : (m.chain c).brk = none) (pos : Nat) :
    ∃ f : Chain → Chain, (∀ x, (f x).tiles = x.tiles ∧ (f x).window = x.window) ∧ m.noAnswer c pos = m.onChain c f := by
  unfold Mach.noAnswer
  rw [hup, hbrk]
  exact ⟨_, fun _ => ⟨by rfl, by rfl⟩, rfl⟩

/-- A commit that is given up has left its tile, counted and reported in its chain's window. -/
theorem commitDeadline_of_late {m : Mach} {c pos : Nat} {k : CommitSent} (hcommits : (m.tile c pos).commits = [k])
    (hlate : m.tickAt k.heat ≤ m.timeWord + us 20) : commitDeadline c pos m =
      (((m.onTile c pos (fun t => { t with commits := t.commits.filter (fun x => x.heat != k.heat) })).bump 0x6181 9 1
        (tileBank c pos)).reportLate c pos k.heat).noAnswer c pos := by
  unfold commitDeadline
  rw [hcommits]
  dsimp only
  rw [if_neg (by omega)]

/-- A chain after a TICK with its ring's next sequence number has left. -/
def Chain.afterTick (x : Chain) (seq at_ : Nat) : Chain := { x with ringSeq := seq, tickSent := some (seq, at_) }

/-- After a TICK that is due has left on a chain's A-side lane, at most the B-side's copy follows. -/
theorem tickSend_sends {m : Mach} {c h slot : Nat} (hc : c < 96) (hsched : m.scheduled = true) (hstart : m.startTick = none)
    (hslot : slot < m.slotsOf h) (hfuture : m.timeWord < m.slotAt h slot) (hlead : m.slotAt h slot ≤ m.timeWord + ns 4000) :
    Sends ((m.onChain c (fun x => x.afterTick (((m.chain c).ringSeq + 1) % 65536) m.timeWord)).sendKtl (2 * c)
      (.tick (slot = 0) slot (m.slotsOf h) h ((m.slotAt h slot - m.timeWord) / 32) (((m.chain c).ringSeq + 1) % 65536)))
      (tickSend c h slot m) := by
  have hdue : m.slotDue h slot = some (m.slotAt h slot, m.slotsOf h) := by simp [Mach.slotDue, hstart, hsched, hslot]
  unfold tickSend
  rw [hdue]
  dsimp only
  rw [if_neg (by omega)]
  exact iteInduction (motive := Sends _) (fun _ => .sendKtl ..) (fun _ => .refl _)

/-- A pour of the heat is found by its panel position. -/
theorem pour?_of_mem {m : Mach} {p : Pour} (h : p ∈ m.heat.pours) : ∃ x, m.pour? p.panel = some x := by
  have hsome : (m.pour? p.panel).isSome = true := by
    rw [Mach.pour?, List.find?_isSome]
    exact ⟨p, h, by simp⟩
  exact Option.isSome_iff_exists.mp hsome

/-- Settles O32: each clause by the rules above about lanes that send and are answered. -/
theorem segmentsAndCommitsAreAcknowledged : Obligations.SegmentsAndCommitsAreAcknowledged := by
  unfold Obligations.SegmentsAndCommitsAreAcknowledged
  refine ⟨?sent, ?ack, ?received, ?ackCommit, ?nak, ?timeout, ?resend, ?deadline, ?tick⟩
  case sent =>
    intro s l g hl hlane htx hnaked hcur hstaged hkind hversion hquiet hquench
    refine ⟨_, rfl, ?_⟩
    dsimp only
    rw [segmentSent_of_rays hl htx hquench hnaked (nextRays_of_single hcur hstaged hkind hversion)]
    have hlanes := lane_congr (Looks.rescheduleAll (s.m.sendSeg l g)).assigns.lanes l
    have hload := sendSeg_lane hlane hquiet hkind
    simp only [Lane.load, Lane.afterSegment, Prod.mk.injEq] at hload
    obtain ⟨hstaged', hunacked, -, hcur'⟩ := hload
    rw [hlanes]
    refine ⟨by simpa [hstaged] using hstaged', hunacked, by simpa [hstaged, hversion] using hcur', ?_⟩
    exact sentOn_of_subset (fun o ho => by rwa [(Looks.rescheduleAll _).assigns.out]) (sendSeg_sentOn hquiet hkind htx hquench)
  case ack =>
    intro s c pos version kind tag n hc hpos hkind
    refine ⟨_, rfl, ?_⟩
    dsimp only
    rw [ackBlock_unacked hc hpos hkind, ackSegs_unacked, lane_congr (answers_lanes ..)]
  case received =>
    intro s c pos version tag n v hc hpos hv hstate hrendered hsent htime htag hstaged hnaked hlast hfeed
    refine ⟨_, rfl, ?_⟩
    dsimp only
    generalize hl : s.m.feedLane c pos = l at *
    have hlane : ((s.m.answers c pos).lane l) = s.m.lane l := lane_congr (answers_lanes ..) l
    have hpipe : ((s.m.answers c pos).ackSegs l pos version 0 tag n).pipe = s.m.pipe := answers_pipe ..
    have hheat : ((s.m.answers c pos).ackSegs l pos version 0 tag n).heat = s.m.heat := congrArg Pipeline.heat hpipe
    obtain ⟨x, hx⟩ := pour?_of_mem (List.mem_of_find?_eq_some hv)
    have hcarries := ackSegs_carries (by rw [hlane]; exact hstaged) (by rw [hlane]; exact hnaked) (by rw [hlane]; exact hlast) pos version 0 tag
    rw [ackBlock_rays hc hpos, hl, (Looks.rescheduleAll _).pour?,
      checkReceived_of_all (p := v) (by rw [hheat, hfeed]; exact hv) hstate hrendered hsent ?_ (by rw [hheat, ← htag]; exact hcarries),
      pour?_onPour_same _ _ (by simp), Mach.pour?, hheat, ← Mach.pour?, hx]
    · simp
    · rw [commitAt_congr (b := s.m) hpipe (fun sub _ => Mach.objN_congr (answers_od ..) _ _ _)]
      rw [Mach.timeWord, Mach.ackSegs, Mach.onLane_clk, answers_clk]
      exact htime
  case ackCommit =>
    intro s c pos version tag n hc hpos
    refine ⟨_, rfl, ?_⟩
    dsimp only
    rw [ackBlock_commit hc hpos, ackCommit_commits, answers_tile]
  case nak =>
    intro s c pos version kind tag n g at_ hc hlane hg htime hroom
    refine ⟨_, rfl, ?_⟩
    dsimp only
    have hbump : ((s.m.answers c pos).bump (0x6110 + c) 7).lane (s.m.feedLane c pos) = s.m.lane (s.m.feedLane c pos) :=
      lane_congr ((Mach.bump_lanes ..).trans (answers_lanes ..)) _
    have hassigns := Assigns.assign_rescheduleAll (nak c pos version kind tag n (s.m.answers c pos))
    have hnak : nak c pos version kind tag n (s.m.answers c pos) = ((s.m.answers c pos).bump (0x6110 + c) 7).onLane (s.m.feedLane c pos)
        (fun x => x.afterNak g) := by
      unfold nak
      rw [if_neg (by omega)]
      dsimp only
      rw [feedLane_bump _ (by omega) _ _ _ _ (by omega), answers_feedLane, nakSeg_of_time (by rw [hbump]; exact hg)]
      rw [timeToResend_bump _ (by omega), ← htime]
      exact timeToResend_congr (lane_congr (answers_lanes ..) _) (answers_pipe ..) (answers_clk ..)
        (fun _ _ => Mach.objN_congr (answers_od ..) _ _ _) g
    constructor
    · rw [nakBlock, lane_congr hassigns.lanes, hnak, Mach.lane_onLane_same (by rwa [Mach.bump_lanes, answers_lanes]), hbump, Lane.afterNak]
    · rw [nakBlock, Mach.objN_congr hassigns.od, hnak, Mach.objN_congr (Mach.onLane_od ..), Mach.bump_objN_same, Mach.objN_congr (answers_od ..)]
      rw [Mach.objN_congr (answers_od ..), objMax_naks hc]
      omega
  case timeout =>
    intro s l pos version kind n g at_ hlane hunacked hpos hkind hversion hseq hl hdue htime hbrk hroom
    subst hpos hkind hversion hseq
    refine ⟨_, rfl, ?_⟩
    dsimp only
    have hbump : (s.m.bump (0x6110 + l / 2) 7).lane l = s.m.lane l := lane_congr (Mach.bump_lanes ..) _
    obtain ⟨tiles, htiles⟩ := noAnswer_frame ((s.m.bump (0x6110 + l / 2) 7).onLane l (fun x => x.afterNak g)) (l / 2) g.pos
      (by rw [Mach.chain, Mach.onLane_tiles, Mach.bump_tiles]; exact hbrk)
    have hassigns := Assigns.assign_rescheduleAll (segmentAckTimeout l g.pos g.version g.kind g.seq s.m)
    have htimeout : segmentAckTimeout l g.pos g.version g.kind g.seq s.m = { (s.m.bump (0x6110 + l / 2) 7).onLane l (fun x => x.afterNak g) with tiles := tiles } := by
      have hfound : (s.m.lane l).unacked.find? (fun x => x.1.pos = g.pos && x.1.kind = g.kind && x.1.version = g.version &&
          x.1.seq = g.seq) = some (g, at_) := by rw [hunacked]; simp
      unfold segmentAckTimeout
      rw [hfound]
      dsimp only
      rw [if_pos ⟨hl, hdue⟩, nakSeg_of_time (g := g) (at_ := at_) (by rw [hbump, hunacked]; simp [Seg.of]) (by rw [timeToResend_bump _ (by omega)]; exact htime),
        htiles]
    rw [ackTimeout, lane_congr hassigns.lanes, Mach.objN_congr hassigns.od, htimeout]
    refine ⟨?_, ?_, ?_⟩
    · exact (congrArg Lane.naked (Mach.lane_onLane_same (by rwa [Mach.bump_lanes]) _)).trans (by rw [hbump, Lane.afterNak])
    · exact (congrArg Lane.unacked (Mach.lane_onLane_same (by rwa [Mach.bump_lanes]) _)).trans (by simp [hbump, Lane.afterNak, hunacked])
    · exact Mach.bump_objN_same _ _ _ _ _ (by rw [objMax_naks (by omega)]; omega)
  case resend =>
    intro s c pos k hcommits hdue htime hcommit htx hc hpos hquench
    refine ⟨_, rfl, ?_⟩
    dsimp only
    have hsends := Sends.toTile s.m c pos (.commit pos k.version k.heat)
    rw [commitResend_of_due hcommits hdue htime hcommit]
    constructor
    · rw [Mach.tile_onTile (by rwa [hsends.tiles]) (by rwa [Mach.chain, hsends.tiles]), Mach.tile, Mach.chain, hsends.tiles]
      change (((s.m.tile c pos).commits.map _) : List CommitSent) = _
      rw [hcommits]
      simp
    · rw [Mach.sentOn, Mach.onTile_out]
      exact sendKtl_sentOn htx hquench _
  case deadline =>
    intro s c pos k hup hbrk hc hpos _ _ hcommits hlate hroom
    refine ⟨_, rfl, ?_⟩
    dsimp only
    rw [commitDeadline_of_late hcommits hlate]
    generalize hx : s.m.onTile c pos _ = x
    have hod : x.od = s.m.od := by rw [← hx, Mach.onTile_od]
    have hlength : x.tiles.chains.length = s.m.tiles.chains.length := by rw [← hx]; exact List.length_modify ..
    have hwhole : (x.chain c).brk = none := by
      rw [← hx, Mach.onTile, Mach.chain_onChain hc]
      exact hbrk
    have hnone : (x.tile c pos).commits = [] := by rw [← hx, Mach.tile_onTile hc hpos]; simp [hcommits]
    have hup' : (x.bump 0x6181 9 1 (tileBank c pos)).coreUp 2 = true := by
      rw [Mach.coreUp, Mach.bump_boot, ← hx, Mach.onTile_boot]
      exact hup
    have hreports := Reports.reportLate hup' c pos k.heat
    have hupAfter : ((x.bump 0x6181 9 1 (tileBank c pos)).reportLate c pos k.heat).coreUp 2 = true := by
      rw [Mach.coreUp, hreports.boot]
      exact hup'
    obtain ⟨f, hf, hsilent⟩ := noAnswer_of_whole (c := c) hupAfter
      (by rw [hreports.brk, Mach.chain, Mach.bump_tiles]; exact hwhole) pos
    rw [hsilent]
    refine ⟨?_, ?_, ?_⟩
    · rw [tile_onChain _ c (fun y => (hf y).1), hreports.tile, Mach.tile, Mach.chain, Mach.bump_tiles]
      exact hnone
    · rw [Mach.objN_congr (Mach.onChain_od ..), Mach.objN_congr hreports.od, Mach.bump_objN_same, Mach.objN_congr hod]
      rw [Mach.objN_congr hod, objMax_late]
      omega
    · rw [Mach.chain_onChain (by rwa [hreports.length, Mach.bump_tiles, hlength]), (hf _).2]
      exact reportLate_window hup' (by rwa [Mach.bump_tiles, hlength]) pos k.heat
  case tick =>
    intro s c h slot hc hlen hsched hstart hslot hfuture hlead htx hquench
    refine ⟨_, rfl, ?_⟩
    dsimp only
    have hsends := tickSend_sends hc hsched hstart hslot hfuture hlead
    constructor
    · rw [Mach.chain, hsends.tiles, (Sends.sendKtl ..).tiles, ← Mach.chain, Mach.chain_onChain hlen]
      rfl
    · refine sentOn_of_subset hsends.out (sendKtl_sentOn ?_ ?_ _)
      · rw [Mach.tx, Mach.objN_congr (Mach.onChain_od ..)]
        exact htx
      · rw [Mach.objN_congr (Mach.onChain_od ..)]
        exact hquench

end Sys2Proof.Machine

/-! What work beside the heat leaves alone: the schedule objects, the stop that waits, and a view of the pipeline (R76 to R85). -/

namespace Sys2Proof.Machine

/-- From one block to the next a view of the pipeline, the boot, the stop that waits and the objects 0x5000 to 0x5002 are as they were, and
no event was taken back. -/
structure Steady {α : Type} (v : Pipeline → α) (a b : Mach) : Prop where
  view : v b.pipe = v a.pipe
  boot : b.boot = a.boot
  stop : b.power_.stop = a.power_.stop
  objects : ∀ k, 0x5000 * 256 ≤ k → k < 0x5003 * 256 → storeGet b.od k = storeGet a.od k
  newest : a.jrn.newest ≤ b.jrn.newest

section Rules
variable {α : Type} {v : Pipeline → α} {a b m : Mach}

theorem Steady.refl (v : Pipeline → α) (m : Mach) : Steady v m m := ⟨rfl, rfl, rfl, fun _ _ _ => rfl, Nat.le_refl _⟩

theorem Steady.trans (h : Steady v a m) (k : Steady v m b) : Steady v a b :=
  ⟨k.view.trans h.view, k.boot.trans h.boot, k.stop.trans h.stop, fun x hl hr => (k.objects x hl hr).trans (h.objects x hl hr),
    h.newest.trans k.newest⟩

/-- What keeps the whole pipeline keeps every view of it. -/
theorem Steady.of_id (h : Steady id a b) : Steady v a b := ⟨congrArg v h.view, h.boot, h.stop, h.objects, h.newest⟩

theorem Steady.keep (h : Steady v a m) (hb : (v b.pipe, b.boot, b.power_.stop, b.od, b.jrn.newest) =
    (v m.pipe, m.boot, m.power_.stop, m.od, m.jrn.newest)) : Steady v a b := by
  obtain ⟨hview, hboot, hstop, hod, hnewest⟩ : _ ∧ _ ∧ _ ∧ _ ∧ _ := by simpa only [Prod.mk.injEq] using hb
  exact h.trans ⟨hview, hboot, hstop, fun _ _ _ => by rw [hod], hnewest.ge⟩

theorem Steady.ite {c : Prop} [Decidable c] {x y : Mach} (hx : c → Steady v a x) (hy : ¬ c → Steady v a y) :
    Steady v a (if c then x else y) := iteInduction hx hy

theorem Steady.each {β : Type} {f : Mach → β → Mach} (l : List β) (hf : ∀ n x, Steady v a n → Steady v a (f n x)) (h : Steady v a m) :
    Steady v a (each l m f) := List.foldlRecOn l f (motive := fun n => Steady v a n) h fun n hn x _ => hf n x hn

/-- A change of the pipeline that keeps the view. -/
theorem Steady.onPipe {f : Pipeline → Pipeline} (hf : ∀ p, v (f p) = v p) (h : Steady v a m) : Steady v a (m.onPipe f) :=
  h.trans ⟨hf _, rfl, rfl, fun _ _ _ => rfl, Nat.le_refl _⟩

/-! ### Objects and events -/

theorem Steady.set {ix : Nat} (hix : 0x5003 ≤ ix) {sub bank : Nat} {x : Int} (h : Steady v a m) : Steady v a (m.set ix sub x bank) :=
  h.trans ⟨rfl, rfl, rfl, fun _ _ hk => storeGet_set_ne m.od x (by rw [okey]; omega), Nat.le_refl _⟩

theorem Steady.setN {ix : Nat} (hix : 0x5003 ≤ ix) {sub x bank : Nat} (h : Steady v a m) : Steady v a (m.setN ix sub x bank) := h.set hix

theorem Steady.sets {ix : Nat} (hix : 0x5003 ≤ ix) {l : List (Nat × Int)} {bank : Nat} (h : Steady v a m) : Steady v a (m.sets ix l bank) :=
  Steady.each l (fun _ _ hn => hn.set hix) h

theorem Steady.bump {ix : Nat} (hix : 0x5003 ≤ ix) {sub n bank : Nat} (h : Steady v a m) : Steady v a (m.bump ix sub n bank) := h.set hix

theorem Steady.bumpSat {ix : Nat} (hix : 0x5003 ≤ ix) {sub n bank : Nat} (h : Steady v a m) : Steady v a (m.bumpSat ix sub n bank) := h.set hix

theorem Steady.setLow {ix : Nat} (hix : ix < 0x5000) {sub : Nat} (hsub : sub < 256) {x : Int} (h : Steady v a m) :
    Steady v a (m.set ix sub x) :=
  h.trans ⟨rfl, rfl, rfl, fun _ hk _ => storeGet_set_ne m.od x (by rw [okey]; omega), Nat.le_refl _⟩

theorem Steady.setNLow {ix : Nat} (hix : ix < 0x5000) {sub : Nat} (hsub : sub < 256) {x : Nat} (h : Steady v a m) :
    Steady v a (m.setN ix sub x) := h.setLow hix hsub

theorem Steady.bumpLow {ix : Nat} (hix : ix < 0x5000) {sub : Nat} (hsub : sub < 256) {n : Nat} (h : Steady v a m) :
    Steady v a (m.bump ix sub n) := h.setLow hix hsub

theorem Steady.record {code flags supp inst : Nat} {d : List (Nat × Nat)} (hcode : code < 0x100000) (h : Steady v a m) :
    Steady v a (m.record code flags supp inst d) := by
  refine h.trans ⟨rfl, rfl, rfl, fun k hk _ => ?_, Nat.le_succ _⟩
  exact storeGet_set_ne m.od _ (by rw [okey]; omega)

theorem Steady.raise {code inst : Nat} {d : List (Nat × Nat)} (hcode : code < 0x100000) (h : Steady v a m) :
    Steady v a (m.raise code inst d) := h.record hcode

theorem Steady.raiseRate {n code inst : Nat} {d : List (Nat × Nat)} (hcode : code < 0x100000) (h : Steady v a m) :
    Steady v a (m.raiseRate n code inst d) := .ite (fun _ => .record hcode (h.keep rfl)) (fun _ => h.keep rfl)

theorem Steady.acted (h : Steady v a m) : Steady v a m.acted := by
  unfold Mach.acted
  cases m.test.armed with
  | none => exact h
  | some x => exact .ite (fun _ => h.keep rfl) (fun _ => .setN (by omega) (h.keep rfl))

end Rules

/-- Lanes that send leave the rest of the machine as it was. -/
theorem Sends.steady {α : Type} {v : Pipeline → α} {a b : Mach} (h : Sends a b) : Steady v a b :=
  ⟨congrArg v h.pipe, h.boot, by rw [h.power_], fun k _ hk => h.objects k (by omega), by rw [h.jrn]⟩

/-! ### Commands with effects on memory -/

/-- An effect that keeps the life of the machine, and after which it is steady. -/
structure SteadyE {α : Type} (v : Pipeline → α) (a : Mach) (e : Eff) : Prop where
  life : e.life = none
  steady : Steady v a e.m

section Effects
variable {α : Type} {v : Pipeline → α} {a m : Mach} {e : Eff}

theorem Steady.eff (h : Steady v a m) : SteadyE v a (.of m) := ⟨rfl, h⟩

theorem SteadyE.ite {c : Prop} [Decidable c] {x y : Eff} (hx : c → SteadyE v a x) (hy : ¬ c → SteadyE v a y) :
    SteadyE v a (if c then x else y) := iteInduction hx hy

theorem SteadyE.then_ {f : Mach → Eff} (h : SteadyE v a e) (hf : ∀ n, Steady v a n → SteadyE v a (f n)) : SteadyE v a (e.then_ f) := by
  have hlast := hf e.m h.steady
  refine ⟨?_, hlast.steady⟩
  show (match (f e.m).life with | some l => some l | none => e.life) = none
  rw [hlast.life]
  exact h.life

theorem SteadyE.on {f : Mach → Mach} (h : SteadyE v a e) (hf : ∀ n, Steady v a n → Steady v a (f n)) : SteadyE v a (e.on f) :=
  ⟨h.life, hf _ h.steady⟩

theorem SteadyE.foldl {β : Type} {f : Eff → β → Eff} (l : List β) (hf : ∀ e x, SteadyE v a e → SteadyE v a (f e x)) (h : SteadyE v a e) :
    SteadyE v a (l.foldl f e) := List.foldlRecOn l f (motive := fun n => SteadyE v a n) h fun n hn x _ => hf n x hn

end Effects

end Sys2Proof.Machine

/-! Memory accesses, uncorrectable reads and the history of a tile leave the pipeline alone (R266, R271, R273, R354, R357). -/

namespace Sys2Proof.Machine

/-! ### Accesses -/

/-- What can make a read return poison, beside where it is placed. -/
def Dram.holdings (d : Dram) : List Fresh × List (Nat × List Nat) × List (List Nat) := (d.fresh, d.borrowed, d.chans.map Channel.poison)

/-- From one block to the next memory was accessed: the pipeline and what can make a read return poison are as they were. -/
structure Touches (a b : Mach) : Prop where
  steady : Steady id a b
  holdings : b.dram.holdings = a.dram.holdings

section Accesses
variable {a b m : Mach}

theorem Touches.refl (m : Mach) : Touches m m := ⟨.refl _ m, rfl⟩

/-- A step that is steady and keeps the channels. -/
theorem Touches.step (h : Touches a m) (hs : Steady id m b) (hd : b.dram.holdings = m.dram.holdings) : Touches a b :=
  ⟨h.steady.trans hs, hd.trans h.holdings⟩

theorem Touches.ite {c : Prop} [Decidable c] {x y : Mach} (hx : c → Touches a x) (hy : ¬ c → Touches a y) :
    Touches a (if c then x else y) := iteInduction hx hy

theorem Touches.each {β : Type} {f : Mach → β → Mach} (l : List β) (hf : ∀ n x, Touches a n → Touches a (f n x)) (h : Touches a m) :
    Touches a (each l m f) := List.foldlRecOn l f (motive := fun n => Touches a n) h fun n hn x _ => hf n x hn

theorem Touches.setN {ix : Nat} (hix : 0x5003 ≤ ix) {sub x bank : Nat} (h : Touches a m) : Touches a (m.setN ix sub x bank) :=
  h.step (.setN hix (.refl _ m)) (congrArg Dram.holdings (Mach.setN_dram ..))

theorem Touches.bump {ix : Nat} (hix : 0x5003 ≤ ix) {sub n bank : Nat} (h : Touches a m) : Touches a (m.bump ix sub n bank) :=
  h.step (.bump hix (.refl _ m)) (congrArg Dram.holdings (Mach.bump_dram ..))

theorem Touches.raise {code inst : Nat} {d : List (Nat × Nat)} (hcode : code < 0x100000) (h : Touches a m) : Touches a (m.raise code inst d) :=
  h.step (.raise hcode (.refl _ m)) rfl

theorem Touches.acted (h : Touches a m) : Touches a m.acted := by
  refine h.step (.acted (.refl _ m)) ?_
  unfold Mach.acted
  cases m.test.armed with
  | none => rfl
  | some x => exact iteInduction (motive := fun n : Mach => n.dram.holdings = m.dram.holdings) (fun _ => rfl) (fun _ => rfl)

/-- A change of a channel that keeps its poison. -/
theorem Touches.onChan {p : Nat} {f : Channel → Channel} (hf : ∀ x, (f x).poison = x.poison) (h : Touches a m) : Touches a (m.onChan p f) :=
  h.step (.keep (.refl _ m) rfl) (congrArg (fun l => (m.dram.fresh, m.dram.borrowed, l)) (map_modify_of_eq hf m.dram.chans p))

theorem Touches.joinTakeOvers {l cause : Nat} (h : Touches a m) : Touches a (m.joinTakeOvers l cause) :=
  .ite (fun _ => h) fun _ => .ite (fun _ => .ite (fun _ => h.step (.keep (.refl _ m) rfl) rfl) (fun _ => h))
    (fun _ => h.step (.keep (.refl _ m) rfl) rfl)

theorem Touches.wantTakeOver {l cause : Nat} (h : Touches a m) : Touches a (m.wantTakeOver l cause) := by
  unfold Mach.wantTakeOver
  cases m.dram.takeOver with
  | none => exact h.joinTakeOvers
  | some t =>
    exact .ite (fun _ => .ite (fun _ => h) fun _ => .setN (by omega) (h.step (.keep (.refl _ m) rfl) rfl)) (fun _ => h.joinTakeOvers)

theorem Touches.passChannel {p : Nat} (h : Touches a m) : Touches a (m.passChannel p) := by
  unfold Mach.passChannel
  have hpassed : Touches a (if m.dram.passed.contains p then m
      else ({ m with dram := { m.dram with passed := addNew m.dram.passed p } } : Mach).raise 0xD009 p [(1, 1), (2, p)]) :=
    .ite (fun _ => h) fun _ => .raise (by omega) (h.step (.keep (.refl _ m) rfl) rfl)
  dsimp only
  split
  · exact hpassed.wantTakeOver
  · exact .ite (fun _ => hpassed.step (.keep (.refl ..) rfl) rfl) (fun _ => hpassed)

theorem Touches.dramThreshold {p : Nat} (h : Touches a m) : Touches a (m.dramThreshold p) := .ite (fun _ => h.passChannel) (fun _ => h)

theorem Touches.listFull {p : Nat} (h : Touches a m) : Touches a (m.listFull p) := by
  unfold Mach.listFull
  split
  · exact .ite (fun _ => h.wantTakeOver) (fun _ => h)
  · exact h

theorem Touches.touchPage {p o : Nat} (h : Touches a m) : Touches a (m.touchPage p o) := h.onChan fun _ => by rfl

theorem Touches.access {p o : Nat} (h : Touches a m) : Touches a (m.access p o) :=
  .ite (fun _ => .acted (.bump (by omega) h.touchPage)) (fun _ => h.touchPage)

theorem Touches.noteCorrected {p n : Nat} (h : Touches a m) : Touches a (m.noteCorrected p n) :=
  .ite (fun _ => h) (fun _ => .onChan (fun _ => by rfl) (.bump (by omega) h))

theorem Touches.readAccess {p o : Nat} (h : Touches a m) : Touches a (m.readAccess p o) :=
  .ite (fun _ => h.access.noteCorrected.dramThreshold.acted) (fun _ => h.access)

theorem Touches.touchRun {phases : List Nat} {x n : Nat} {f : Mach → Nat → Nat → Mach} (hf : ∀ k y z, Touches a k → Touches a (f k y z))
    (h : Touches a m) : Touches a (m.touchRun phases x n f) := by
  refine h.each _ fun k y hk => ?_
  dsimp only
  split
  · exact hf _ _ _ (hf _ _ _ hk)
  · exact hf _ _ _ hk

theorem Touches.noteRead {n : Nat} (h : Touches a m) : Touches a (m.noteRead n) := h.bump (by omega)

theorem Touches.noteWritten {n : Nat} (h : Touches a m) : Touches a (m.noteWritten n) := h.bump (by omega)

/-- The runs of a read, once no injection makes them fail. -/
theorem Touches.readRuns {runs : List (Nat × Nat)} (h : Touches a m) : Touches a (Machine.each runs m (fun m r =>
    (m.touchRun [4] r.1 r.2 Mach.readAccess).noteRead (r.2 + m.movedTwice [4] r.1 r.2))) :=
  h.each _ fun _ _ hk => .noteRead (hk.touchRun fun _ _ _ => .readAccess)

/-- Reads while no poison is injected make none. -/
theorem Touches.reads {n : Nat} {runs : List (Nat × Nat)} (hwaits : m.poisonWaits = false) (h : Touches a m) : Touches a (m.reads n runs) := by
  have hstrike : m.strike n runs = m := by rw [Mach.strike, hwaits]; rfl
  rw [Mach.reads, hstrike]
  exact h.readRuns

theorem Touches.anyPoison (h : Touches a b) : b.anyPoison = a.anyPoison := by
  obtain ⟨hfresh, hborrowed, hpoison⟩ : _ ∧ _ ∧ _ := by simpa only [Dram.holdings, Prod.mk.injEq] using h.holdings
  have hchans : ∀ l : List Channel, l.any (fun ch => !ch.poison.isEmpty) = (l.map Channel.poison).any (fun p => !p.isEmpty) :=
    fun l => by rw [List.any_map]; rfl
  rw [Mach.anyPoison, Mach.anyPoison, hfresh, hborrowed, hchans, hchans, hpoison]

end Accesses

/-! ### Reads that may fail, and writes -/

section Steps
variable {α : Type} {v : Pipeline → α} {a b m : Mach}

/-- A step that accesses memory. -/
theorem Steady.touch (h : Steady v a m) (k : Touches m b) : Steady v a b := h.trans k.steady.of_id

theorem Steady.onChan {p : Nat} {f : Channel → Channel} (h : Steady v a m) : Steady v a (m.onChan p f) := h.keep rfl

theorem Steady.showPoison {p : Nat} (h : Steady v a m) : Steady v a (m.showPoison p) := h.setN (by omega)

theorem Steady.addPoison {p o : Nat} (h : Steady v a m) : Steady v a (m.addPoison p o) := h.onChan.showPoison

theorem Steady.uncorrectable {p o x n : Nat} (h : Steady v a m) : Steady v a (m.uncorrectable p o x n) :=
  (((h.bump (by omega)).addPoison.raiseRate (by omega)).touch (Touches.dramThreshold (.refl _))).touch (Touches.listFull (.refl _))

theorem Steady.strike {n : Nat} {runs : List (Nat × Nat)} (h : Steady v a m) : Steady v a (m.strike n runs) := by
  refine .ite (fun _ => h) fun _ => ?_
  split
  · exact h.acted.uncorrectable
  · exact h

theorem Steady.reads {n : Nat} {runs : List (Nat × Nat)} (h : Steady v a m) : Steady v a (m.reads n runs) :=
  h.strike.touch (Touches.readRuns (.refl _))

theorem Steady.draw (h : Steady v a m) : Steady v a m.draw := h.keep rfl

theorem Steady.heal {x : Nat} (h : Steady v a m) : Steady v a (m.heal x) := by
  unfold Mach.heal
  have hfresh : Steady v a (if m.freshAt x then ({ m with dram := { m.dram with fresh := m.dram.fresh.map (fun (f : Fresh) =>
      match (m.homes x).find? (fun h => h.1 = f.logical) with
      | some h => { f with written := (h.2 / 64 * 64) :: f.written }
      | none => f) } } : Mach) else m) := .ite (fun _ => h.keep rfl) (fun _ => h)
  dsimp only
  split
  · exact hfresh.onChan.showPoison.onChan.showPoison
  · exact hfresh.onChan.showPoison

theorem Steady.unpoison {x n : Nat} (h : Steady v a m) : Steady v a (m.unpoison x n) :=
  .ite (fun _ => h.each _ fun _ _ => .heal) (fun _ => h)

theorem Steady.storeAll {ws : List MemWrite} (h : Steady v a m) : SteadyE v a (m.storeAll ws) :=
  ⟨rfl, List.foldlRecOn (ws.flatMap writesOf) _ (motive := fun n => Steady v a n) h fun _ hn _ _ =>
    hn.unpoison.touch (.noteWritten (.touchRun (fun _ _ _ => .access) (.refl _)))⟩

theorem Steady.store {x : Nat} {bytes : Bytes} (h : Steady v a m) : SteadyE v a (m.store x bytes) := h.storeAll

/-! ### Tiles and their history -/

theorem Steady.onPanel {f : Panel → Panel} (h : Steady v a m) : Steady v a (m.onPanel f) := h.keep rfl

theorem Steady.onChain {c : Nat} {f : Chain → Chain} (h : Steady v a m) : Steady v a (m.onChain c f) := h.keep rfl

theorem Steady.onTile {c pos : Nat} {f : Tile → Tile} (h : Steady v a m) : Steady v a (m.onTile c pos f) := h.keep rfl

theorem Steady.onLoad {c pos kind : Nat} {f : FlashLoad → FlashLoad} (h : Steady v a m) : Steady v a (m.onLoad c pos kind f) := h.keep rfl

theorem Steady.onLane {l : Nat} {f : Lane → Lane} (h : Steady v a m) : Steady v a (m.onLane l f) := h.keep rfl

theorem Steady.sendKtl {l : Nat} {k : Ktl} (h : Steady v a m) : Steady v a (m.sendKtl l k) := h.trans (Sends.sendKtl ..).steady

theorem Steady.toTile {c pos : Nat} {k : Ktl} (h : Steady v a m) : Steady v a (m.toTile c pos k) := h.sendKtl

theorem Steady.flag {p bit_ : Nat} {on : Bool} (h : Steady v a m) : Steady v a (m.flag p bit_ on) := h.setN (by omega)

theorem Steady.setFree {l : List Nat} (h : Steady v a m) : Steady v a (m.setFree l) := h.onPanel.setN (by omega)

theorem Steady.bindSlot {p slot : Nat} (h : Steady v a m) : Steady v a (m.bindSlot p slot) := (h.setN (by omega)).setFree

theorem Steady.forgetReports {c pos : Nat} (h : Steady v a m) : Steady v a (m.forgetReports c pos) := h.sets (by omega)

theorem Steady.setTile {c pos st : Nat} (h : Steady v a m) : Steady v a (m.setTile c pos st) := by
  unfold Mach.setTile
  extract_lets m1 m2 m3 m4
  have h1 : Steady v a m1 := h.setN (by omega)
  have h2 : Steady v a m2 := h1.forgetReports.sets (by omega)
  have h3 : Steady v a m3 := .ite (fun _ => h2) (fun _ => h2.setN (by omega))
  have h4 : Steady v a m4 := h3.onTile
  exact .ite (fun _ => .ite (fun _ => h4) (fun _ => h4.onChain)) (fun _ => h1)

theorem Steady.placeGain {c pos p : Nat} (h : Steady v a m) : SteadyE v a (m.placeGain c pos p) := by
  unfold Mach.placeGain
  split
  · extract_lets m1 m2 m3
    have h2 : Steady v a m2 := h.onLoad.flag.setN (by omega)
    have h3 : Steady v a m3 := .ite (fun _ => h2.setFree.onPanel) (fun _ => h2.bindSlot)
    exact h3.store
  · exact h.eff

theorem Steady.placeCheckpoint {c pos p : Nat} (h : Steady v a m) : SteadyE v a (m.placeCheckpoint c pos p) := by
  unfold Mach.placeCheckpoint
  split
  · exact h.eff
  · extract_lets m1 none_ m2 m3 on m4 l
    have h2 : Steady v a m2 := h.onLoad.flag.flag.flag.flag
    have h4 : Steady v a m4 := ((h2.setN (by omega)).setN (by omega)).onPanel
    exact .ite (fun _ => h4.store) (fun _ => h4.storeAll)

theorem Steady.placeHistory {c pos : Nat} (h : Steady v a m) : SteadyE v a (m.placeHistory c pos) := by
  unfold Mach.placeHistory
  split
  · exact h.eff
  · exact h.placeGain.then_ fun _ => Steady.placeCheckpoint

theorem Steady.loadNext {c pos : Nat} (h : Steady v a m) : SteadyE v a (m.loadNext c pos) := by
  unfold Mach.loadNext
  extract_lets settle read t m1 m2 m3
  have hsettle : ∀ n kind, Steady v a n → Steady v a (settle n kind) := fun n kind hn => hn.onLoad.raise (by omega)
  have hread : ∀ n kind, Steady v a n → Steady v a (read n kind) := fun n kind hn => hn.onLoad.toTile
  have h1 : Steady v a m1 := .ite (fun _ => h) (fun _ => hsettle _ _ h)
  have h2 : Steady v a m2 := .ite (fun _ => h1) (fun _ => hsettle _ _ h1)
  have h3 : Steady v a m3 := .ite (fun _ => h2.setTile) (fun _ => h2)
  exact .ite (fun _ => h.eff) fun _ => .ite (fun _ => (hread _ _ h).eff) fun _ => .ite (fun _ => (hread _ _ h1).eff) fun _ => h3.placeHistory

/-! ### Poison that the pipeline reads -/

theorem Steady.gainPoison {p x : Nat} (h : Steady v a m) : SteadyE v a (m.gainPoison p x) := by
  unfold Mach.gainPoison
  extract_lets access m1
  have h1 : Steady v a m1 := h.raiseRate (by omega)
  refine .ite (fun _ => h1.store) fun _ => ?_
  split
  · exact .ite (fun _ => h1.eff) (fun _ => h1.onTile.loadNext)
  · exact h1.eff

theorem Steady.stressPoison {p x : Nat} (h : Steady v a m) : SteadyE v a (m.stressPoison p x) := by
  unfold Mach.stressPoison
  extract_lets access m1 m2
  have h2 : Steady v a m2 := (h.raiseRate (by omega)).onPanel
  split
  · exact .ite (fun _ => h2.eff) (fun _ => h2.onTile.loadNext)
  · exact h2.eff

theorem Steady.stressFound {p : Nat} {runs : List (Nat × Nat)} (h : Steady v a m) : SteadyE v a (m.stressFound p runs) :=
  .foldl _ (fun _ _ he => he.then_ fun _ => Steady.stressPoison) h.eff

theorem Steady.pipelinePoison {p : Pour} {version row x w : Nat} (h : Steady v a m) : SteadyE v a (m.pipelinePoison p version row x w) := by
  have hgains : SteadyE v a ((m.badAccesses (m.gainRuns p row x w)).foldl (fun (e : Eff) y => e.then_ (fun m => m.gainPoison p.panel y)) (.of m)) :=
    .foldl _ (fun _ _ he => he.then_ fun _ => Steady.gainPoison) h.eff
  exact .ite (fun _ => hgains) (fun _ => hgains.then_ fun _ => Steady.stressFound)

theorem Steady.onTest {f : SelfTest → SelfTest} (h : Steady v a m) : Steady v a (m.onTest f) := h.keep rfl

theorem Steady.passThreshold {k i : Nat} (h : Steady v a m) : Steady v a (m.passThreshold k i) :=
  .ite (fun _ => h) (fun _ => h.onTest.raise (by omega))

end Steps

end Sys2Proof.Machine

/-! Contexts that hold their pours while others take theirs, and O22 (R157, R159, R164, R165, R167). -/

namespace Sys2Proof.Machine

/-! ### Contexts and pours -/

/-- The part of the pipeline in which contexts hold pours. -/
def Pipeline.work (p : Pipeline) : List Cluster × List Pour := (p.clusters, p.heat.pours)

theorem cluster_congr {a b : Mach} (h : b.pipe.work = a.pipe.work) (c : Nat) : b.cluster c = a.cluster c :=
  congrArg (fun l : List Cluster => l.getD c {}) (congrArg Prod.fst h)

theorem pour?_congr {a b : Mach} (h : b.pipe.work = a.pipe.work) (p : Nat) : b.pour? p = a.pour? p :=
  congrArg (fun l : List Pour => l.find? (fun x : Pour => x.panel = p)) (congrArg Prod.snd h)

theorem cluster_onCluster (m : Mach) (c d : Nat) (f : Cluster → Cluster) :
    (m.onCluster c f).cluster d = if c = d ∧ d < m.pipe.clusters.length then f (m.cluster d) else m.cluster d := by
  show (m.pipe.clusters.modify c f).getD d {} = _
  rw [Mach.cluster, List.getD_eq_getElem?_getD, List.getD_eq_getElem?_getD, List.getElem?_modify]
  by_cases hd : d < m.pipe.clusters.length
  · by_cases hcd : c = d <;> simp [hd, hcd]
  · simp [hd]

theorem cluster_onCluster_same {m : Mach} {c : Nat} (h : c < m.pipe.clusters.length) (f : Cluster → Cluster) :
    (m.onCluster c f).cluster c = f (m.cluster c) := by rw [cluster_onCluster, if_pos ⟨rfl, h⟩]

theorem cluster_onCluster_ne (m : Mach) {c d : Nat} (h : c ≠ d) (f : Cluster → Cluster) : (m.onCluster c f).cluster d = m.cluster d := by
  rw [cluster_onCluster, if_neg fun hc => h hc.1]

/-- A context that holds a pour is one of a cluster that there is. -/
theorem lt_of_ctx {m : Mach} {c k : Nat} {w : Work} (h : (m.cluster c).ctx.getD k none = some w) :
    c < m.pipe.clusters.length ∧ k < (m.cluster c).ctx.length := by
  refine ⟨?_, ?_⟩ <;> by_contra hge
  · rw [Mach.cluster, List.getD_eq_default _ _ (Nat.le_of_not_lt hge)] at h
    match k, h with
    | k + 2, h => simp at h
  · rw [List.getD_eq_default _ _ (Nat.le_of_not_lt hge)] at h
    cases h

theorem pour?_onPour_ne (m : Mach) {p q : Nat} (hpq : p ≠ q) {f : Pour → Pour} (hf : ∀ x, (f x).panel = x.panel) :
    (m.onPour p f).pour? q = m.pour? q := by
  show (m.heat.pours.map fun x => if x.panel = p then f x else x).find? _ = _
  have hpanel : ∀ x : Pour, (if x.panel = p then f x else x).panel = x.panel := fun x => by split <;> simp [hf]
  rw [List.find?_map, Mach.pour?]
  simp only [Function.comp_def, hpanel]
  cases h : m.heat.pours.find? (fun x => x.panel = q) with
  | none => rfl
  | some x =>
    have hx : x.panel = q := by simpa using List.find?_some h
    simp [hx, hpq.symm]

/-- What a context holds, beside since when it is eligible. -/
def Work.place (w : Work) : Nat × Nat × Nat × Nat := (w.panel, w.version, w.start, w.rows)

theorem Looks.place {a b : Mach} (h : Looks a b) (c k : Nat) :
    ((b.cluster c).ctx.getD k none).map Work.place = ((a.cluster c).ctx.getD k none).map Work.place := by
  have hctx : (b.cluster c).ctx.map (Option.map Work.plain) = (a.cluster c).ctx.map (Option.map Work.plain) :=
    congrArg Cluster.ctx (getD_of_map_eq (g := Cluster.plain) h.clusters c {})
  have hplain := congrArg (Option.map Work.place) (getD_of_map_eq hctx k none)
  rwa [Option.map_map, Option.map_map] at hplain

/-! ### A pour is taken on a lane that is free -/

/-- A context holds a pour. -/
structure Holds (m : Mach) (c k : Nat) (w : Work) (p : Pour) : Prop where
  ctx : (m.cluster c).ctx.getD k none = some w
  pour : m.pour? w.panel = some p

theorem Holds.laneBusy {m : Mach} {c k : Nat} {w : Work} {p : Pour} (h : Holds m c k w p) : m.laneBusy (m.feedLane p.c p.pos) = true := by
  obtain ⟨hc, hk⟩ := lt_of_ctx h.ctx
  rw [Mach.laneBusy, List.any_eq_true]
  refine ⟨w, ?_, by rw [h.pour]; simp⟩
  rw [List.mem_flatMap]
  refine ⟨m.cluster c, ?_, ?_⟩
  · rw [Mach.cluster, List.getD_eq_getElem _ _ hc]
    exact List.getElem_mem hc
  · rw [List.mem_filterMap]
    refine ⟨some w, ?_, rfl⟩
    rw [← h.ctx, List.getD_eq_getElem _ _ hk]
    exact List.getElem_mem hk

/-- The entry that is taken is not that of a pour which a context holds. -/
theorem Holds.firstEntry_ne {m : Mach} {c k : Nat} {w : Work} {p : Pour} (h : Holds m c k w p) {e : Nat × Nat} (he : m.firstEntry = some e) :
    e.1 ≠ w.panel := by
  intro hpanel
  have hfree := List.find?_some he
  rw [hpanel, h.pour] at hfree
  simp [h.laneBusy] at hfree

theorem holdBuffers_pipe (m : Mach) (p : Pour) (version : Nat) : (m.holdBuffers p version).pipe = m.pipe :=
  each_rel (R := fun a b : Mach => b.pipe = a.pipe) (fun _ => rfl) (fun h k => k.trans h) (fun n l => by split <;> rfl) _ m

/-- Clusters that change one by one. -/
theorem cluster_map {m n : Mach} {g : Cluster → Cluster} (hn : n.pipe.clusters = m.pipe.clusters.map g) (hg : g {} = {}) (c : Nat) :
    n.cluster c = g (m.cluster c) := by
  rw [Mach.cluster, hn, Mach.cluster, ← List.getD_map (f := g), hg]

/-- A cluster gives an entry of its lookahead pool up. -/
def Cluster.without (x : Cluster) (e : Nat × Nat) : Cluster := if x.ahead = some e then { x with ahead := none } else x

theorem Cluster.without_ctx (x : Cluster) (e : Nat × Nat) : (x.without e).ctx = x.ctx := by unfold Cluster.without; split <;> rfl

theorem Cluster.without_empty (e : Nat × Nat) : ({} : Cluster).without e = {} := rfl

/-- A version that a context takes: it becomes FETCHING, and RENDERING when its opening rows are there. -/
def Ver.taken (v : Ver) (there : Bool) : Ver :=
  let v := if v.state = 1 then { v with state := 2 } else v
  if there then v.begun else v

/-- The first free context of a cluster. -/
def Cluster.free (x : Cluster) : Nat := if (x.ctx.getD 0 none).isNone then 0 else 1

/-- With at most one pour held by its cluster, the context that takes one is another than that which holds one. -/
theorem Cluster.free_ne {x : Cluster} {k : Nat} {w : Work} (hk : x.ctx.getD k none = some w) (hheld : (x.ctx.filterMap id).length ≤ 1) :
    x.free ≠ k := by
  unfold Cluster.free
  generalize x.ctx = l at *
  match l, k, hk with
  | some u :: y :: l, 1, hk =>
    have hy : y = some w := hk
    simp [hy] at hheld
  | some u :: l, 0, _ => simp
  | none :: l, 0, hk => cases hk
  | none :: l, k + 1, _ => simp
  | some u :: l, k + 2, _ => simp

/-- The pipeline after a cluster's free context has taken an entry whose pour there is. -/
theorem takePour_pipe {m : Mach} {e : Nat × Nat} {p : Pour} (c : Nat) (hp : m.pour? e.1 = some p) : ∃ (w : Work) (there : Bool),
    (m.takePour c e).pipe = { m.pipe with
      heat := { m.pipe.heat with
        list := m.pipe.heat.list.erase e
        pours := m.pipe.heat.pours.map (fun x => if x.panel = e.1 then x.onVer e.2 (fun v => v.taken there) else x) }
      clusters := (m.pipe.clusters.map (fun x => x.without e)).modify c (fun x => { x with ctx := setAt x.ctx (m.cluster c).free (some w) }) } := by
  refine ⟨⟨e.1, e.2, (p.ver e.2).row, if m.pipe.clusters.any (fun x => x.ahead = some e) then min 36 ((p.ver e.2).row + 2) else 0,
    (m.holdBuffers p e.2).now, none⟩, m.pipe.clusters.any (fun x => x.ahead = some e), ?_⟩
  unfold Mach.takePour
  rw [hp]
  dsimp only [Mach.onCluster, Mach.onPipe, Mach.onPour, Mach.onPours, Mach.onHeat]
  rw [holdBuffers_pipe]
  rfl

/-- The clusters after a pour was taken. -/
theorem takePour_cluster {m : Mach} {e : Nat × Nat} {p : Pour} (c d : Nat) (hp : m.pour? e.1 = some p) : ∃ w : Work,
    (m.takePour c e).cluster d = if c = d ∧ d < m.pipe.clusters.length then
      { (m.cluster d).without e with ctx := setAt (m.cluster d).ctx (m.cluster c).free (some w) } else (m.cluster d).without e := by
  obtain ⟨w, there, h⟩ := takePour_pipe c hp
  refine ⟨w, ?_⟩
  have hclusters := congrArg Pipeline.clusters h
  have hmap : ∀ i, (m.pipe.clusters.map (fun x => x.without e)).getD i {} = (m.cluster i).without e := fun i =>
    cluster_map (n := m.onPipe (fun q => { q with clusters := q.clusters.map (fun x => x.without e) })) rfl (Cluster.without_empty e) i
  rw [Mach.cluster, hclusters]
  by_cases hd : c = d ∧ d < m.pipe.clusters.length
  · obtain ⟨rfl, hlength⟩ := hd
    rw [getD_modify, List.length_map, if_pos hlength, if_pos ⟨rfl, hlength⟩, hmap, Cluster.without_ctx]
  · rw [if_neg hd, ← hmap d, List.getD_eq_getElem?_getD, List.getD_eq_getElem?_getD, List.getElem?_modify]
    by_cases hcd : c = d
    · subst hcd
      rw [List.getElem?_eq_none (by rw [List.length_map]; omega)]
      rfl
    · simp only [hcd, ↓reduceIte, id_map']

theorem takePour_pour? {m : Mach} {e : Nat × Nat} {p : Pour} (c q : Nat) (hp : m.pour? e.1 = some p) : ∃ there : Bool,
    (m.takePour c e).pour? q = (m.pour? q).map (fun x => if q = e.1 then x.onVer e.2 (fun v => v.taken there) else x) := by
  obtain ⟨w, there, h⟩ := takePour_pipe c hp
  refine ⟨there, ?_⟩
  have hpours : (m.takePour c e).heat.pours = (m.onPour e.1 (fun x => x.onVer e.2 (fun v => v.taken there))).heat.pours := by
    rw [Mach.heat, h]; rfl
  rw [Mach.pour?, hpours, ← Mach.pour?]
  by_cases hq : q = e.1
  · subst hq
    simp only [↓reduceIte]
    exact pour?_onPour_same _ _ (by simp)
  · simp only [hq, ↓reduceIte, Option.map_id']
    exact pour?_onPour_ne _ (Ne.symm hq) (by simp)

/-- A context keeps its pour, and the pour its versions, while another is taken. -/
theorem Holds.assignOne {m : Mach} {c k : Nat} {w : Work} {p : Pour} (h : Holds m c k w p) : Holds m.assignOne c k w p := by
  obtain hsame | ⟨d, e, he, -, hheld, htake⟩ := assignOne_cases m
  · rwa [hsame]
  · obtain ⟨q, hq⟩ : ∃ q, m.pour? e.1 = some q := by
      have hfree := List.find?_some he
      cases hq : m.pour? e.1 with
      | none => simp [hq] at hfree
      | some q => exact ⟨q, rfl⟩
    obtain ⟨u, hcluster⟩ := takePour_cluster d c hq
    obtain ⟨there, hpour⟩ := takePour_pour? d w.panel hq
    rw [htake]
    constructor
    · rw [hcluster]
      split
      · next hd =>
        obtain ⟨rfl, -⟩ := hd
        dsimp only
        rw [setAt, List.getD_eq_getElem?_getD, List.getElem?_set_ne (Cluster.free_ne h.ctx hheld), ← List.getD_eq_getElem?_getD]
        exact h.ctx
      · rw [Cluster.without_ctx]
        exact h.ctx
    · rw [hpour, h.pour, Option.map_some, if_neg (Ne.symm (h.firstEntry_ne he))]

theorem Holds.assign {m : Mach} {c k : Nat} {w : Work} {p : Pour} (h : Holds m c k w p) : Holds m.assign c k w p := by
  rw [Mach.assign, Machine.each]
  exact List.foldlRecOn _ _ (motive := fun n => Holds n c k w p) h fun _ hn _ _ => hn.assignOne

/-- What a context holds beside its eligibility, and its pour, once clusters have looked again. -/
theorem Holds.rescheduleAll {m : Mach} {c k : Nat} {w : Work} {p : Pour} (h : Holds m c k w p) :
    ((m.rescheduleAll.cluster c).ctx.getD k none).map Work.place = some w.place ∧ m.rescheduleAll.pour? w.panel = some p :=
  ⟨by rw [(Looks.rescheduleAll m).place, h.ctx]; rfl, by rw [(Looks.rescheduleAll m).pour?, h.pour]⟩

theorem Holds.congr {a b : Mach} {c k : Nat} {w : Work} {p : Pour} (hw : b.pipe.work = a.pipe.work) (h : Holds a c k w p) : Holds b c k w p :=
  ⟨by rw [cluster_congr hw, h.ctx], by rw [pour?_congr hw, h.pour]⟩

/-! ### Plane sets (R89, R157, R159) -/

/-- The ladle without poison moves nothing of the contexts and pours. -/
theorem ladle_work {m : Mach} (hclean : m.anyPoison = false) (hwaits : m.poisonWaits = false) (p : Pour) (version start f t : Nat) :
    (m.ladle p version start f t).pipe.work = m.pipe.work := by
  have hreads := (Touches.refl m).reads (n := sourceBase 0) (runs := m.ladleRuns p version start f t) hwaits
  have hpoison : ∀ g, ((m.reads (sourceBase 0) (m.ladleRuns p version start f t)).onHeat g).anyPoison = false :=
    fun g => hreads.anyPoison.trans hclean
  have hnone : ∀ (g : Heat → Heat) (l : List (Nat × Nat)), l.any (fun r : Nat × Nat => ((m.reads (sourceBase 0) (m.ladleRuns p version start f t)).onHeat g).poisonedAt r.1 r.2) =
      false := fun g l => by simp [Mach.poisonedAt, hpoison]
  unfold Mach.ladle
  dsimp only
  rw [hnone, if_neg Bool.false_ne_true]
  have hwork : (m.reads (sourceBase 0) (m.ladleRuns p version start f t)).pipe.work = m.pipe.work :=
    congrArg Pipeline.work hreads.steady.view
  exact hwork

theorem Holds.ladle {m : Mach} {c k : Nat} {w : Work} {p : Pour} (h : Holds m c k w p) (hclean : m.anyPoison = false)
    (hwaits : m.poisonWaits = false) (q : Pour) (version start f t : Nat) : Holds (m.ladle q version start f t) c k w p :=
  h.congr (ladle_work hclean hwaits ..)

/-- A plane set's rows are resident in a context. -/
def Mach.putRows (m : Mach) (c k : Nat) (w : Work) (rows : Nat) : Mach :=
  m.onCluster c (fun x => { x with ctx := setAt x.ctx k (some { w with rows := rows }) })

theorem Holds.putRows {m : Mach} {c k : Nat} {w : Work} {p : Pour} (h : Holds m c k w p) (rows : Nat) :
    Holds (m.putRows c k w rows) c k { w with rows := rows } p := by
  obtain ⟨hc, hk⟩ := lt_of_ctx h.ctx
  refine ⟨?_, h.pour⟩
  rw [Mach.putRows, cluster_onCluster_same hc]
  simp [setAt, hk]

theorem Holds.onPour {m : Mach} {c k : Nat} {w : Work} {p : Pour} (h : Holds m c k w p) {f : Pour → Pour} (hf : ∀ x, (f x).panel = x.panel) :
    Holds (m.onPour w.panel f) c k w (f p) := ⟨h.ctx, by rw [pour?_onPour_same m _ hf, h.pour]; rfl⟩

/-- The opening rows of a plane set make its pour RENDERING. -/
theorem planeSetComplete_opening {s : Mach} {c k : Nat} {w : Work} {p : Pour} (hk : k ≠ 2) (h : Holds s c k w p) (hup : s.clusterUp c = true)
    (hrows : w.rows ≤ w.start) : planeSetComplete c k s =
      (((s.putRows c k w (min 36 ((p.ver w.version).row + 2))).onPour w.panel (fun x => x.onVer w.version Ver.begun)).ladle p w.version w.start
        (p.ver w.version).row (min 36 ((p.ver w.version).row + 2))).assign.rescheduleAll := by
  unfold planeSetComplete
  rw [if_neg hk, h.ctx]
  dsimp only
  rw [h.pour]
  dsimp only
  rw [hup, if_neg (by simp), if_pos hrows]
  rfl

/-- While a row is rendered, the rows that the next one adds become resident. -/
theorem planeSetComplete_next {s : Mach} {c k : Nat} {w : Work} {p : Pour} (hk : k ≠ 2) (h : Holds s c k w p) (hup : s.clusterUp c = true)
    (hopened : w.start < w.rows) (hmore : w.rows < 36) (hnext : w.rows ≤ (p.ver w.version).row ∨ ((s.cluster c).cur = some k ∧
      w.rows ≤ (p.ver w.version).row + 1)) : planeSetComplete c k s =
      ((s.putRows c k w (w.rows + 1)).ladle p w.version w.start w.rows (w.rows + 1)).assign.rescheduleAll := by
  unfold planeSetComplete
  rw [if_neg hk, h.ctx]
  dsimp only
  rw [h.pour]
  dsimp only
  rw [hup, if_neg (by simp), if_neg (by omega), if_neg (by simp [hnext]; omega)]
  rfl

end Sys2Proof.Machine

/-! Hogel rows rendered and clusters that fail (R164, R165, R167), and O22. -/

namespace Sys2Proof.Machine

/-! ### Lookahead pools (R159) -/

theorem stopVersion_ahead (m : Mach) (panel version c : Nat) : ((m.stopVersion panel version).cluster c).ahead = (m.cluster c).ahead := by
  have hmap : ∀ {n : Mach} {g : Cluster → Cluster}, n.pipe.clusters = m.pipe.clusters.map g → (∀ x, (g x).ahead = x.ahead) →
      (n.cluster c).ahead = (m.cluster c).ahead := fun hn hg => by
    refine getD_of_map_eq (g := Cluster.ahead) ?_ c {}
    rw [hn, List.map_map]
    exact List.map_congr_left fun x _ => hg x
  exact hmap rfl fun _ => by rfl

theorem ladle_ahead (m : Mach) (p : Pour) (version start f t c : Nat) :
    ((m.ladle p version start f t).cluster c).ahead = (m.cluster c).ahead := by
  have hwork : (m.reads (sourceBase 0) (m.ladleRuns p version start f t)).pipe.work = m.pipe.work :=
    congrArg Pipeline.work ((Steady.refl id m).reads).view
  have hheat : ∀ (n : Mach) (f : Heat → Heat), (n.onHeat f).cluster c = n.cluster c := fun _ _ => rfl
  have hdrop : ∀ (n : Mach) (l pos u kind tag : Nat), (n.dropSegs l pos u kind tag).cluster c = n.cluster c := fun _ _ _ _ _ _ => rfl
  unfold Mach.ladle
  dsimp only
  split
  · rw [stopVersion_ahead, hdrop, hheat, cluster_congr hwork]
  · rw [hheat, cluster_congr hwork]

theorem lookAhead_ahead {m : Mach} {c : Nat} {e : Nat × Nat} {p : Pour} (hc : c < m.pipe.clusters.length)
    (he : m.heat.list.find? (fun e => !m.pipe.clusters.any (fun x => x.ahead = some e)) = some e) (hp : m.pour? e.1 = some p)
    (hup : m.clusterUp c = true) (hspent : (m.cluster c).ahead = none)
    (hroom : ((m.ladleRuns p e.2 (p.ver e.2).row (p.ver e.2).row (min 36 ((p.ver e.2).row + 2))).map Prod.snd).sum ≤ m.poolSize) :
    ((m.lookAhead c).cluster c).ahead = some e := by
  unfold Mach.lookAhead
  rw [he, hspent]
  dsimp only
  rw [hp]
  dsimp only
  rw [hup, if_neg (by simpa using hroom), ladle_ahead, cluster_congr (congrArg Pipeline.work (holdBuffers_pipe ..)), cluster_onCluster_same hc]

/-! ### Hogel rows (R164, R165) -/

/-- With no injection and no corrected word, a row is rendered and the pipeline deals with the poison it read. -/
theorem hogelRow_of_quiet {m : Mach} {c : Ctx} {cl k : Nat} {w : Work} {p : Pour} (hcl : cl < 68) (hforced : m.forced 4 cl = none)
    (hstop : m.armedAt 1 cl = false) (hcorrect : m.armedAt 2 cl = false) (hfail : m.armedAt 3 cl = false)
    (hcur : (m.cluster cl).cur = some k) (h : Holds m cl k w p) (hup : m.clusterUp cl = true) (hmin : 3 ≤ (p.ver w.version).state)
    (hmax : (p.ver w.version).state ≤ 5) : hogelRow cl 0 c m = (rowRendered cl c m).then_ (fun n =>
      n.pipelinePoison p w.version (p.ver w.version).row (60 / p.bands * (p.ver w.version).band) (60 / p.bands)) := by
  have hrow : m.rowAt cl = some (p, w) := by
    simp [Mach.rowAt, hcur, -List.getD_eq_getElem?_getD, h.ctx, hup, h.pour, hmin, hmax]
  unfold hogelRow
  rw [if_neg (by simp [hforced]; omega), hstop, hcorrect, hfail]
  simp [bit, hrow]

/-- A version of a pour once its row is rendered, with its next segment number. -/
def Pour.afterRow (p : Pour) (version seq : Nat) : Ver :=
  { p.ver version with state := max (p.ver version).state 4, seq := seq }.nextRow p.bands

theorem afterRow_of_row {p : Pour} {version : Nat} (hrow : (p.ver version).row + 1 < 36) (seq : Nat) : p.afterRow version seq =
    { p.ver version with state := max (p.ver version).state 4, seq := seq, row := (p.ver version).row + 1 } := by
  unfold Pour.afterRow Ver.nextRow
  rw [if_pos hrow]

theorem afterRow_of_last {p : Pour} {version : Nat} (hrow : (p.ver version).row + 1 = 36) (hband : p.bands ≤ (p.ver version).band + 1)
    (seq : Nat) : (p.afterRow version seq).rendered = true := by
  unfold Pour.afterRow Ver.nextRow
  rw [if_neg (by dsimp only; omega), if_neg (by dsimp only; omega)]

/-- What a context goes on with once a row of its pour is rendered. -/
def Work.afterRow (w : Work) (p : Pour) (seq : Nat) : Option Work :=
  let wk := { w with eligibleAt := none }
  if (p.afterRow w.version seq).rendered then none
  else if (p.afterRow w.version seq).band = (p.ver w.version).band then some wk
  else some { wk with start := 0, rows := 0 }

/-- The contexts and pours after a cluster rendered a row. -/
def Mach.afterRow (m : Mach) (cl k : Nat) (w : Work) (p : Pour) (seq : Nat) : Mach :=
  (m.onPour w.panel (fun x => x.onVer w.version (fun _ => p.afterRow w.version seq))).onCluster cl
    (fun x => { x with ctx := setAt x.ctx k (w.afterRow p seq), cur := none })

theorem afterRow_work {m n : Mach} (h : n.pipe.work = m.pipe.work) (cl k : Nat) (w : Work) (p : Pour) (seq : Nat) :
    (n.afterRow cl k w p seq).pipe.work = (m.afterRow cl k w p seq).pipe.work := by
  obtain ⟨hclusters, hpours⟩ : n.pipe.clusters = m.pipe.clusters ∧ n.pipe.heat.pours = m.pipe.heat.pours := by
    simpa only [Pipeline.work, Prod.mk.injEq] using h
  dsimp only [Mach.afterRow, Mach.onCluster, Mach.onPour, Mach.onPours, Mach.onHeat, Pipeline.work]
  rw [hclusters, hpours]

/-- Rendering a row moves its version and its context on, and at the end of its pour contexts take others; the rest of it leaves contexts and
pours alone. -/
theorem rowRendered_steps {m : Mach} (c : Ctx) {cl k : Nat} {w : Work} {p : Pour} (hcur : (m.cluster cl).cur = some k) (h : Holds m cl k w p)
    (hup : m.clusterUp cl = true) (hmin : 3 ≤ (p.ver w.version).state) (hmax : (p.ver w.version).state ≤ 5)
    (hgoing : (p.ver w.version).rendered = false) : ∃ (n : Mach) (seq : Nat) (writes : List MemWrite),
    n.pipe.work = (m.afterRow cl k w p seq).pipe.work ∧
    (rowRendered cl c m).m = ((if (p.afterRow w.version seq).rendered then n.assign else n).storeAll writes).m.rescheduleAll := by
  unfold rowRendered
  rw [hcur]
  dsimp -zeta only
  rw [h.ctx]
  dsimp -zeta only
  rw [h.pour]
  dsimp -zeta only
  extract_lets v width a m1 es rays segs writes blends m2 m3 m4 v' m5 flags m6 wk next m7 m8
  rw [if_neg (by simp [hup, v, hgoing]; omega)]
  have h4 : Steady Pipeline.work m m4 :=
    (((Steady.refl Pipeline.work m).strike.trans (b := m2) ⟨rfl, rfl, rfl, fun _ _ _ => rfl, Nat.le_refl _⟩).bump (by omega)).reads.onLane
  have h6 : m6.pipe = m5.pipe := by
    refine iteInduction (motive := fun n : Mach => n.pipe = m5.pipe) (fun _ => ?_) (fun _ => rfl)
    rw [Mach.raise_pipe, Mach.setN_pipe]
  have h7 : m7.pipe.work = (m.afterRow cl k w p (v.seq + segs.length)).pipe.work := by
    rw [← afterRow_work h4.view cl k w p (v.seq + segs.length)]
    show (modAt m6.pipe.clusters cl _, m6.pipe.heat.pours) = _
    rw [h6]
    rfl
  by_cases hdone : v'.rendered = true
  · refine ⟨(m7.bump (0x5320 + cl) 2).onHeat (fun h => { h with lastRender := m7.tHus }), v.seq + segs.length, writes, ?_, ?_⟩
    · have hbump : (m7.bump (0x5320 + cl) 2).pipe.work = m7.pipe.work := congrArg Pipeline.work (Mach.bump_pipe ..)
      rw [← h7, ← hbump]
      rfl
    · have hrendered : (p.afterRow w.version (v.seq + segs.length)).rendered = true := hdone
      have h8 : m8 = ((m7.bump (0x5320 + cl) 2).onHeat (fun h => { h with lastRender := m7.tHus })).assign := if_pos hdone
      rw [hrendered, if_pos rfl, ← h8, Eff.on]
  · refine ⟨m7, v.seq + segs.length, writes, h7, ?_⟩
    have hrendered : ¬ (p.afterRow w.version (v.seq + segs.length)).rendered = true := hdone
    have h8 : m8 = m7 := if_neg hdone
    rw [if_neg hrendered, ← h8, Eff.on]

/-- The contexts and pours after a row that is not its pour's last. -/
theorem afterRow_holds {m : Mach} {cl k : Nat} {w : Work} {p : Pour} (h : Holds m cl k w p) {seq : Nat}
    (hgoing : (p.afterRow w.version seq).rendered = false) (hband : (p.afterRow w.version seq).band = (p.ver w.version).band) :
    Holds (m.afterRow cl k w p seq) cl k { w with eligibleAt := none } (p.onVer w.version (fun _ => p.afterRow w.version seq)) := by
  have hpour := h.onPour (f := fun x => x.onVer w.version (fun _ => p.afterRow w.version seq)) (by simp)
  obtain ⟨hc, hk⟩ := lt_of_ctx hpour.ctx
  refine ⟨?_, hpour.pour⟩
  have hnext : w.afterRow p seq = some { w with eligibleAt := none } := by simp [Work.afterRow, hgoing, hband]
  rw [Mach.afterRow, hnext, cluster_onCluster_same hc]
  simp [setAt, hk]

/-- Contexts that take pours leave rendered what is rendered. -/
theorem assign_rendered (m : Mach) (q version : Nat) : (m.assign.pour? q).map (fun x => (x.ver version).rendered) =
    (m.pour? q).map (fun x => (x.ver version).rendered) := by
  have htaken : ∀ (x : Pour) (u : Nat) (there : Bool), ((x.onVer u (fun v => v.taken there)).ver version).rendered = (x.ver version).rendered := by
    intro x u there
    have hver : ∀ v : Ver, (v.taken there).rendered = v.rendered := fun v => by
      unfold Ver.taken Ver.begun
      dsimp only
      split_ifs <;> rfl
    unfold Pour.onVer Pour.ver
    split_ifs <;> simp [hver]
  refine each_rel (R := fun a b : Mach => (b.pour? q).map (fun x => (x.ver version).rendered) = (a.pour? q).map (fun x => (x.ver version).rendered))
    (fun _ => rfl) (fun h k => k.trans h) (fun n _ => ?_) _ m
  obtain hsame | ⟨d, e, -, -, -, htake⟩ := assignOne_cases n
  · rw [hsame]
  · rw [htake]
    cases hp : n.pour? e.1 with
    | none => rw [Mach.takePour, hp]
    | some p =>
      obtain ⟨there, hpour⟩ := takePour_pour? d q hp
      rw [hpour, Option.map_map]
      refine congrArg (fun f => Option.map f (n.pour? q)) (funext fun x => ?_)
      show ((if q = e.1 then _ else x : Pour).ver version).rendered = _
      split
      · exact htaken ..
      · rfl

theorem storeAll_work (m : Mach) (writes : List MemWrite) : (m.storeAll writes).m.pipe.work = m.pipe.work :=
  (Steady.refl Pipeline.work m).storeAll.steady.view

/-- What the pipeline does with poison leaves contexts and pours alone. -/
theorem poison_work (e : Eff) (p : Pour) (version row a w : Nat) :
    (e.then_ (fun n => n.pipelinePoison p version row a w)).m.pipe.work = e.m.pipe.work :=
  (Steady.refl Pipeline.work e.m).pipelinePoison.steady.view

/-- A row that is not the last of its band: the version goes on with the next, and the context with the version. -/
theorem row_outcome {m : Mach} (c : Ctx) {cl k : Nat} {w : Work} {p : Pour} (hcur : (m.cluster cl).cur = some k) (h : Holds m cl k w p)
    (hup : m.clusterUp cl = true) (hmin : 3 ≤ (p.ver w.version).state) (hmax : (p.ver w.version).state ≤ 5)
    (hgoing : (p.ver w.version).rendered = false) (hrow : (p.ver w.version).row + 1 < 36) : ∃ seq,
    (((rowRendered cl c m).m.cluster cl).ctx.getD k none).map Work.place = some w.place ∧
    (rowRendered cl c m).m.pour? w.panel = some (p.onVer w.version (fun _ => p.afterRow w.version seq)) := by
  obtain ⟨n, seq, writes, hwork, hsteps⟩ := rowRendered_steps c hcur h hup hmin hmax hgoing
  have hgoes : (p.afterRow w.version seq).rendered = false := by rw [afterRow_of_row hrow]; exact hgoing
  have hholds := ((afterRow_holds h hgoes (by rw [afterRow_of_row hrow])).congr hwork).congr (storeAll_work n writes)
  rw [hgoes, if_neg Bool.false_ne_true] at hsteps
  rw [hsteps]
  exact ⟨seq, hholds.rescheduleAll⟩

/-- After the last row of its last band a version is rendered. -/
theorem lastRow_outcome {m : Mach} (c : Ctx) {cl k : Nat} {w : Work} {p : Pour} (hcur : (m.cluster cl).cur = some k) (h : Holds m cl k w p)
    (hup : m.clusterUp cl = true) (hmin : 3 ≤ (p.ver w.version).state) (hmax : (p.ver w.version).state ≤ 5)
    (hgoing : (p.ver w.version).rendered = false) (hrow : (p.ver w.version).row + 1 = 36) (hband : p.bands ≤ (p.ver w.version).band + 1) :
    ((rowRendered cl c m).m.pour? w.panel).map (fun x => (x.ver w.version).rendered) = some true := by
  obtain ⟨n, seq, writes, hwork, hsteps⟩ := rowRendered_steps c hcur h hup hmin hmax hgoing
  have hdone : (p.afterRow w.version seq).rendered = true := afterRow_of_last hrow hband seq
  have hpour : n.pour? w.panel = some (p.onVer w.version (fun _ => p.afterRow w.version seq)) := by
    rw [pour?_congr hwork]
    exact (h.onPour (f := fun x => x.onVer w.version (fun _ => p.afterRow w.version seq)) (by simp)).pour
  rw [hdone, if_pos rfl] at hsteps
  rw [hsteps, (Looks.rescheduleAll _).pour?, pour?_congr (storeAll_work ..), assign_rendered, hpour, Option.map_some, Pour.ver_onVer, hdone]

/-! ### Clusters that fail (R167) -/

/-- A cluster that has stopped with nothing in it. -/
def Mach.empty (m : Mach) (c : Nat) : Prop := m.cluster c = { stopped := true }

theorem clusterUp_of_empty {m : Mach} {c : Nat} (h : m.empty c) : m.clusterUp c = false := by
  rw [Mach.clusterUp, show m.cluster c = { stopped := true } from h]
  simp

theorem onCluster_empty {m : Mach} {c d : Nat} (h : m.empty c) {f : Cluster → Cluster} (hf : d = c → f { stopped := true } = { stopped := true }) :
    (m.onCluster d f).empty c := by
  rw [Mach.empty, cluster_onCluster]
  split
  · next hd => rw [show m.cluster c = { stopped := true } from h, hf hd.1]
  · exact h

theorem look_cluster_ne (m : Mach) {c d : Nat} (h : d ≠ c) : (m.look d).cluster c = m.cluster c := by
  unfold Mach.look
  dsimp only
  split
  · rfl
  split
  · exact cluster_onCluster_ne _ h _
  split
  · split
    · exact cluster_onCluster_ne _ h _
    · rfl
  split
  · exact cluster_onCluster_ne _ h _
  · rfl

theorem noteSolo_cluster_ne (m : Mach) {c d : Nat} (h : d ≠ c) : (m.noteSolo d).cluster c = m.cluster c := by
  unfold Mach.noteSolo
  dsimp only
  cases (m.cluster d).soloAt with
  | none =>
    exact iteInduction (motive := fun n : Mach => n.cluster c = _) (fun _ => cluster_onCluster_ne _ h _) (fun _ => rfl)
  | some t => exact iteInduction (motive := fun n : Mach => n.cluster c = _) (fun _ => rfl) (fun _ => cluster_onCluster_ne _ h _)

theorem noteEligible_empty {m : Mach} {c : Nat} (h : m.empty c) (d : Nat) : (m.noteEligible d).empty c := onCluster_empty h fun _ => by simp

theorem reschedule_empty {m : Mach} {c : Nat} (h : m.empty c) (d : Nat) : (m.reschedule d).empty c := by
  by_cases hd : d = c
  · subst hd
    have hlook : ∀ n : Mach, n.empty d → n.look d = n := fun n hn => by simp [Mach.look, clusterUp_of_empty hn]
    have hsolo : ∀ n : Mach, n.empty d → n.noteSolo d = n := fun n hn => by
      simp [Mach.noteSolo, clusterUp_of_empty hn, show n.cluster d = { stopped := true } from hn]
    have hnoted := noteEligible_empty h d
    have htwice := noteEligible_empty hnoted d
    rwa [Mach.reschedule, hlook _ hnoted, hsolo _ htwice]
  · have hne : ∀ n : Mach, (n.noteEligible d).cluster c = n.cluster c := fun n => cluster_onCluster_ne n hd _
    rwa [Mach.empty, Mach.reschedule, noteSolo_cluster_ne _ hd, hne, look_cluster_ne _ hd, hne]

theorem rescheduleAll_empty {m : Mach} {c : Nat} (h : m.empty c) : m.rescheduleAll.empty c := by
  rw [Mach.rescheduleAll, Machine.each]
  exact List.foldlRecOn _ _ (motive := fun n => Mach.empty n c) h fun _ hn d _ => reschedule_empty hn d

/-- A stopped cluster takes no pour. -/
theorem assignOne_empty {m : Mach} {c : Nat} (h : m.empty c) : m.assignOne.empty c := by
  obtain hsame | ⟨d, e, -, hup, -, htake⟩ := assignOne_cases m
  · rwa [hsame]
  · have hd : d ≠ c := fun hd => by
      rw [hd, clusterUp_of_empty h] at hup
      cases hup
    rw [htake]
    cases hp : m.pour? e.1 with
    | none => rwa [Mach.takePour, hp]
    | some p =>
      obtain ⟨w, hcluster⟩ := takePour_cluster d c hp
      rw [Mach.empty, hcluster, if_neg fun hc => hd hc.1, show m.cluster c = { stopped := true } from h]
      rfl

theorem assign_empty {m : Mach} {c : Nat} (h : m.empty c) : m.assign.empty c := by
  rw [Mach.assign, Machine.each]
  exact List.foldlRecOn _ _ (motive := fun n => Mach.empty n c) h fun _ hn _ _ => assignOne_empty hn

theorem assign_reissues (m : Mach) : m.assign.heat.reissues = m.heat.reissues := by
  refine each_rel (R := fun a b : Mach => b.heat.reissues = a.heat.reissues) (fun _ => rfl) (fun h k => k.trans h) (fun n _ => ?_) _ m
  obtain hsame | ⟨d, e, -, -, -, htake⟩ := assignOne_cases n
  · rw [hsame]
  · rw [htake]
    cases hp : n.pour? e.1 with
    | none => rw [Mach.takePour, hp]
    | some p =>
      obtain ⟨w, there, hpipe⟩ := takePour_pipe d hp
      rw [Mach.heat, hpipe]
      rfl

theorem Looks.reissues {a b : Mach} (h : Looks a b) : b.heat.reissues = a.heat.reissues := by
  have := congrArg (fun m : Mach => m.heat.reissues) h.frame; exact this

theorem objMax_faults {cl : Nat} (h : cl < 68) : objMax (0x5320 + cl) 5 = 2 ^ 16 - 1 := by
  have hall : ∀ cl < 68, objMax (0x5320 + cl) 5 = 2 ^ 16 - 1 := by decide +kernel
  exact hall cl h

/-- A cluster in use that fails is FAULTED and empty, and its pours are issued again. -/
theorem clusterFault_outcome {m : Mach} {cl cause : Nat} (hcl : cl < 68) (hlength : cl < m.pipe.clusters.length)
    (hused : m.objN (0x5320 + cl) 1 = 1) : (clusterFault cl cause m).objN (0x5320 + cl) 1 = 2 ∧
    (m.objN (0x5320 + cl) 5 < 2 ^ 16 - 1 → (clusterFault cl cause m).objN (0x5320 + cl) 5 = m.objN (0x5320 + cl) 5 + 1) ∧
    (clusterFault cl cause m).objN (0x5320 + cl) 6 = cause ∧ (clusterFault cl cause m).cluster cl = { stopped := true } ∧
    (clusterFault cl cause m).heat.reissues = m.heat.reissues + ((m.cluster cl).ctx.filterMap id).length ∧
    (clusterFault cl cause m).jrn.newest = m.jrn.newest + 1 := by
  unfold clusterFault
  rw [if_neg (by omega)]
  extract_lets x works open_ m1 m2 m3 m4 m5
  have hassigns : Assigns m5 m5.assign.rescheduleAll := .assign_rescheduleAll m5
  have hkey : ∀ sub tub : Nat, sub ≠ tub → okey (0x5320 + cl) sub 0 ≠ okey (0x5320 + cl) tub 0 := fun sub tub h => by rw [okey, okey]; omega
  have hraise : ∀ sub, m5.assign.rescheduleAll.objN (0x5320 + cl) sub = m3.objN (0x5320 + cl) sub := fun sub => by
    rw [Mach.objN_congr hassigns.od]
    exact Mach.raise_objN m4 _ _ _ (by rw [okey, okey]; omega)
  have h2 : ∀ sub, m2.objN (0x5320 + cl) sub = m.objN (0x5320 + cl) sub := fun _ => rfl
  have hpipe : m5.pipe = m4.pipe := Mach.raise_pipe ..
  have hpipe3 : m3.pipe = m2.pipe := by rw [Mach.setN_pipe, Mach.bump_pipe, Mach.setN_pipe]
  refine ⟨?_, fun hroom => ?_, ?_, ?_, ?_, ?_⟩
  · rw [hraise, Mach.setN_objN_ne _ _ _ _ _ (hkey _ _ (by omega)), Mach.bump_objN_ne _ _ _ _ _ (hkey _ _ (by omega)), Mach.setN_objN_same]
  · rw [hraise, Mach.setN_objN_ne _ _ _ _ _ (hkey _ _ (by omega)), Mach.bump_objN_same, Mach.setN_objN_ne _ _ _ _ _ (hkey _ _ (by omega)), h2]
    rw [Mach.setN_objN_ne _ _ _ _ _ (hkey _ _ (by omega)), h2, objMax_faults hcl]
    omega
  · rw [hraise, Mach.setN_objN_same]
  · refine rescheduleAll_empty (assign_empty ?_)
    rw [Mach.empty, Mach.cluster, hpipe]
    show m3.pipe.clusters.getD cl {} = _
    rw [hpipe3]
    exact cluster_onCluster_same hlength _
  · rw [(Looks.rescheduleAll _).reissues, assign_reissues, Mach.heat, hpipe]
    show m3.pipe.heat.reissues + works.length = _
    rw [hpipe3]
    rfl
  · rw [hassigns.jrn, Mach.raise_newest]
    show m3.jrn.newest + 1 = _
    rw [Mach.setN_jrn, Mach.bump_jrn, Mach.setN_jrn]
    rfl

theorem clusterFault_of_unused {m : Mach} {cl : Nat} (h : m.objN (0x5320 + cl) 1 ≠ 1) (cause : Nat) : clusterFault cl cause m = m := by
  rw [clusterFault, if_pos (.inr h)]

/-- A context has been eligible for 400 us without completing a row. -/
def Mach.overdue (m : Mach) (cl : Nat) : Bool := (m.cluster cl).ctx.any (fun x : Option Work => match x.bind Work.eligibleAt with
  | some a => decide (a + us 400 ≤ m.now)
  | none => false)

theorem pourWatchdog_eq (cl : Nat) (m : Mach) : pourWatchdog cl m = if m.overdue cl then clusterFault cl 3 m else m := by
  unfold pourWatchdog Mach.overdue
  rfl

/-- Settles O22: contexts that hold a pour keep it while others take theirs, and a failed cluster stays empty. -/
theorem clustersRenderPours : Obligations.ClustersRenderPours := by
  unfold Obligations.ClustersRenderPours
  refine ⟨?opening, ?nextRows, ?ahead, ?row, ?lastRow, ?noRow, ?fault, ?noFault, ?late, ?inTime⟩
  case opening =>
    intro s c k w p hk hctx hpour hup hrows hclean hwaits
    refine ⟨_, rfl, ?_⟩
    dsimp only
    have h : Holds s.m c k w p := ⟨hctx, hpour⟩
    rw [planeSetComplete_opening hk h hup hrows]
    have hbegun : Holds ((s.m.putRows c k w (min 36 ((p.ver w.version).row + 2))).onPour w.panel (fun x => x.onVer w.version Ver.begun)) c k
        { w with rows := min 36 ((p.ver w.version).row + 2) } (p.onVer w.version Ver.begun) := (h.putRows _).onPour (by simp)
    obtain ⟨hplace, hver⟩ := (hbegun.ladle (by exact hclean) (by exact hwaits) p w.version w.start (p.ver w.version).row
      (min 36 ((p.ver w.version).row + 2))).assign.rescheduleAll
    refine ⟨hplace, ?_⟩
    rw [hver, Option.map_some, Pour.ver_onVer]
    unfold Ver.begun
    split <;> rfl
  case nextRows =>
    intro s c k w p hk hctx hpour hup hopened hmore hnext hclean hwaits
    refine ⟨_, rfl, ?_⟩
    dsimp only
    have h : Holds s.m c k w p := ⟨hctx, hpour⟩
    rw [planeSetComplete_next hk h hup hopened hmore hnext]
    obtain ⟨hplace, -⟩ := ((h.putRows (w.rows + 1)).ladle (by exact hclean) (by exact hwaits) p w.version w.start w.rows
      (w.rows + 1)).assign.rescheduleAll
    exact hplace
  case ahead =>
    intro s c e p hc he hp hup hspent hroom
    exact ⟨_, rfl, lookAhead_ahead hc he hp hup hspent hroom, rfl⟩
  case row =>
    intro s cl k w p hcl hforced hstop hcorrect hfail hcur hctx hpour hup hmin hmax hgoing hrow
    have h : Holds s.m cl k w p := ⟨hctx, hpour⟩
    refine ⟨_, rfl, ?_⟩
    dsimp only
    rw [hogelRow_of_quiet hcl hforced hstop hcorrect hfail hcur h hup hmin hmax]
    obtain ⟨seq, hplace, hver⟩ := row_outcome s.ctx hcur h hup hmin hmax hgoing hrow
    have hpoison := poison_work (rowRendered cl s.ctx s.m) p w.version (p.ver w.version).row (60 / p.bands * (p.ver w.version).band) (60 / p.bands)
    rw [pour?_congr hpoison, hver, cluster_congr hpoison]
    simp only [Option.map_some, Pour.ver_onVer, afterRow_of_row hrow, hgoing, true_and]
    exact hplace
  case lastRow =>
    intro s cl k w p hcl hforced hstop hcorrect hfail hcur hctx hpour hup hmin hmax hgoing hrow hband
    have h : Holds s.m cl k w p := ⟨hctx, hpour⟩
    refine ⟨_, rfl, ?_⟩
    dsimp only
    rw [hogelRow_of_quiet hcl hforced hstop hcorrect hfail hcur h hup hmin hmax, pour?_congr (poison_work ..)]
    exact lastRow_outcome s.ctx hcur h hup hmin hmax hgoing hrow hband
  case noRow =>
    intro s cl n h
    exact runs_of_eff (f := hogelRow cl n) (by rw [hogelRow, if_pos (by simpa using h)]) rfl
  case fault =>
    intro s cl cause hcl hlength hused hroom
    obtain ⟨hstate, hcount, hcause, hcluster, hreissues, hnewest⟩ := clusterFault_outcome (cause := cause) hcl hlength hused
    exact ⟨_, rfl, hstate, hcount hroom, hcause, hcluster, hreissues, hnewest⟩
  case noFault =>
    intro s cl cause hunused
    refine ⟨_, rfl, ?_⟩
    dsimp only
    rw [clusterFault_of_unused hunused]
  case late =>
    intro s cl hcl hlength hlate hused
    refine ⟨_, rfl, ?_⟩
    dsimp only
    have hover : s.m.overdue cl = true := hlate
    rw [pourWatchdog_eq, if_pos hover]
    obtain ⟨hstate, -, hcause, hcluster, -, hnewest⟩ := clusterFault_outcome (cause := 3) hcl hlength hused
    exact ⟨hstate, hcause, by rw [hcluster], hnewest⟩
  case inTime =>
    intro s cl hlate
    refine ⟨_, rfl, ?_⟩
    dsimp only
    have hover : s.m.overdue cl = false := hlate
    rw [pourWatchdog_eq, hover]
    rfl

end Sys2Proof.Machine

/-! What the commit point does beside its heat (R83, R90, R95, R98, R129, R187, R189, R191, R354). -/

namespace Sys2Proof.Machine

/-- The heat that runs, when it began, whether it is resolved, and a restart of the schedule. -/
def Heat.course (h : Heat) : Bool × Nat × Nat × Bool := (h.running, h.number, h.start, h.resolved)

def Pipeline.course (p : Pipeline) : Option Restart × Bool × Nat × Nat × Bool := (p.restart, p.heat.course)

/-- A restart of the schedule and the number of the heat. -/
def Pipeline.numbered (p : Pipeline) : Option Restart × Nat := (p.restart, p.heat.number)

section Views
variable {a b m : Mach}

theorem Steady.numbered (h : Steady Pipeline.course a b) : Steady Pipeline.numbered a b :=
  ⟨congrArg (fun x : Option Restart × Bool × Nat × Nat × Bool => (x.1, x.2.2.1)) h.view, h.boot, h.stop, h.objects, h.newest⟩

theorem Steady.restart (h : Steady Pipeline.numbered a b) : Steady Pipeline.restart a b :=
  ⟨congrArg (fun x : Option Restart × Nat => x.1) h.view, h.boot, h.stop, h.objects, h.newest⟩

end Views

section Steps
variable {α : Type} {v : Pipeline → α} {a m : Mach}

theorem Steady.onHeat {f : Heat → Heat} (hf : ∀ x, (f x).course = x.course) (h : Steady Pipeline.course a m) :
    Steady Pipeline.course a (m.onHeat f) :=
  h.onPipe (f := fun p => { p with heat := f p.heat }) fun p => congrArg (Prod.mk p.restart) (hf p.heat)

/-! ### Buffers and contexts -/

theorem Steady.freeContexts (h : Steady Pipeline.course a m) : Steady Pipeline.course a m.freeContexts := h.onPipe fun _ => rfl

theorem Steady.dropRays (h : Steady v a m) : Steady v a m.dropRays := h.keep rfl

theorem Steady.onLayer {k : Nat} {f : VLayer → VLayer} (h : Steady v a m) : Steady v a (m.onLayer k f) := h.keep rfl

theorem Steady.onView {k : Nat} {f : View → View} (h : Steady v a m) : Steady v a (m.onView k f) := h.keep rfl

theorem Steady.markBusy {k b n : Nat} (h : Steady v a m) : Steady v a (m.markBusy k b n) := h.onLayer

theorem Steady.freeBuffers {n : Nat} (h : Steady v a m) : Steady v a (m.freeBuffers n) := h.keep rfl

theorem Steady.prefetch (h : Steady Pipeline.course a m) : Steady Pipeline.course a m.prefetch :=
  .ite (fun _ => h) (fun _ => .onPipe (fun _ => rfl) (h.each _ fun _ _ hn => hn.markBusy))

theorem Steady.dropEngines {k : Nat} (h : Steady v a m) : Steady v a (m.dropEngines k) := h.keep rfl

theorem Steady.showPending {k : Nat} (h : Steady v a m) : Steady v a (m.showPending k) := h.sets (by omega)

theorem Steady.abandon {k reason : Nat} {c : Content} (h : Steady v a m) : Steady v a (m.abandon k c reason) := by
  unfold Mach.abandon
  extract_lets m1 m2 m3
  have h1 : Steady v a m1 := .ite (fun _ => h.dropEngines) (fun _ => h)
  have h3 : Steady v a m3 := (h1.onLayer.bump (by omega)).showPending
  exact h3.raise (by omega)

theorem Steady.abandonWhere {k reason : Nat} {f : Content → Bool} (h : Steady v a m) : Steady v a (m.abandonWhere k f reason) :=
  h.each _ fun _ _ => .abandon

theorem Steady.abandonPast {n : Nat} (h : Steady v a m) : Steady v a (m.abandonPast n) := h.each _ fun _ _ => .abandonWhere

theorem Steady.feedEncode (h : Steady v a m) : Steady v a m.feedEncode := by
  refine h.each _ fun n i hn => .ite (fun _ => hn) fun _ => ?_
  split
  · exact hn.keep rfl
  · split
    · exact hn.keep rfl
    · exact hn

/-! ### Images, previews and captures -/

theorem Steady.copyImage {x : Ctx} {k : Checkpoint} (h : Steady v a m) : SteadyE v a (m.copyImage x k) :=
  h.strike.draw.reads.store.then_ fun _ => Steady.stressFound

theorem Steady.snapCheckpoints {x : Ctx} {n t : Nat} (h : Steady v a m) : SteadyE v a (m.snapCheckpoints x n t) :=
  .foldl _ (fun _ _ he => he.then_ fun _ => Steady.copyImage) h.onPanel.eff

theorem Steady.assemblePreviews {c : Ctx} (h : Steady v a m) : SteadyE v a (m.assemblePreviews c) :=
  .foldl _ (fun _ _ he => he.then_ fun _ hn => .ite (fun _ => hn.onView.storeAll) (fun _ => hn.onView.eff)) h.eff

theorem Steady.endCapture {reason : Nat} (h : Steady v a m) : Steady v a (m.endCapture reason) :=
  .ite (fun _ => h) (fun _ => ((h.setN (by omega)).setN (by omega)).raise (by omega))

theorem Steady.capture {c : Ctx} (h : Steady v a m) : SteadyE v a (m.capture c) := by
  unfold Mach.capture
  extract_lets cap k size tiles writes recs cap' outs m1 m2
  have h1 : Steady v a m1 := .setN (by omega) (h.keep rfl)
  have h2 : Steady v a m2 := .ite (fun _ => h1.endCapture) (fun _ => h1)
  exact .ite (fun _ => h.eff) (fun _ => h2.storeAll)

/-! ### Signatures -/

theorem Steady.postRegion {c : Ctx} {r : Nat} (h : Steady v a m) : Steady v a (m.postRegion c r).1 := by
  unfold Mach.postRegion
  extract_lets heat hit m1 outs m0
  split
  · exact h
  · rcases m.judgeRegion c r with ⟨good, rays, expected, flags⟩
    dsimp -zeta only
    extract_lets sig complete learns m2 checked want flags' result was m3 m4 m5 m6
    have h1 : Steady v a m1 := .ite (fun _ => h.acted) (fun _ => h)
    have h2 : Steady v a m2 := by
      refine .ite (fun _ => .raise (by omega) (.setN (by omega) (.setN (by omega) (h1.keep rfl)))) (fun _ => h1)
    have h3 : Steady v a m3 := h2.sets (by omega)
    have h4 : Steady v a m4 := by
      unfold m4
      clear_value result
      split
      · exact h3.bump (by omega)
      · exact h3.bump (by omega)
      · exact h3.bump (by omega)
      · exact h3
    have h5 : Steady v a m5 := .ite (fun _ => h4.raise (by omega)) (fun _ => h4)
    exact .ite (fun _ => h5.raise (by omega)) (fun _ => h5)

theorem Steady.postRegions {c : Ctx} (l : List Nat) : ∀ {m : Mach} (b : Bytes), Steady v a m →
    Steady v a (l.foldl (fun (x : Mach × Bytes) r => let (m, b) := x.1.postRegion c r; (m, x.2 ++ b)) (m, b)).1 := by
  induction l with
  | nil => exact fun _ h => h
  | cons r l ih => exact fun b h => ih _ h.postRegion

theorem Steady.postSignatures {c : Ctx} (h : Steady v a m) : Steady v a (m.postSignatures c) := by
  have hposted := h.postRegions (c := c) (upTo 16) []
  unfold Mach.postSignatures
  revert hposted
  generalize List.foldl _ (m, []) (upTo 16) = x
  exact fun hposted => hposted.keep rfl

end Steps

end Sys2Proof.Machine

/-! What a frame tick does beside its heat: links, tiles, previews, settings and the self-test (R78, R366, R371, R511). -/

namespace Sys2Proof.Machine

/-- A loop over some values whose steps are steady for these values. -/
theorem Steady.eachOf {α β : Type} {v : Pipeline → α} {a m : Mach} {f : Mach → β → Mach} (l : List β)
    (hf : ∀ n, ∀ x ∈ l, Steady v a n → Steady v a (f n x)) (h : Steady v a m) : Steady v a (Machine.each l m f) :=
  List.foldlRecOn l f (motive := fun n => Steady v a n) h fun n hn x hx => hf n x hx hn

section Steps
variable {α : Type} {v : Pipeline → α} {a m : Mach}

/-! ### Small steps of parts of the machine -/

theorem Steady.toAll {k : Ktl} (h : Steady v a m) : Steady v a (m.toAll k) :=
  h.each _ fun _ _ hn => .ite (fun _ => hn.sendKtl.sendKtl) (fun _ => hn.sendKtl)

theorem Steady.followMode (h : Steady v a m) : Steady v a m.followMode := .ite (fun _ => h) (fun _ => h.onPanel.toAll)

theorem Steady.forgetKnown {f : Nat} (h : Steady v a m) : Steady v a (m.forgetKnown f) := h.keep rfl

theorem Steady.accrueOnTime (h : Steady v a m) : Steady v a m.accrueOnTime := by
  unfold Mach.accrueOnTime
  extract_lets dt m1
  have h1 : Steady v a m1 := .ite (fun _ => h.each _ fun _ _ hn => hn.onPanel) (fun _ => h)
  exact h1.onPanel

theorem Steady.onPtp {f : Ptp → Ptp} (h : Steady v a m) : Steady v a (m.onPtp f) := h.keep rfl

theorem Steady.emit {o : Out} (h : Steady v a m) : Steady v a (m.emit o) := h.keep rfl

theorem Steady.outputsInEffect (h : Steady v a m) : Steady v a m.outputsInEffect := by
  unfold Mach.outputsInEffect
  split
  · exact h
  · exact .ite (fun _ => h) fun _ => .raise (by omega) (.setNLow (by omega) (by omega) (.each _ (fun _ _ => .emit) h.onPtp))

theorem Steady.showUploads {n : Nat} (h : Steady v a m) : Steady v a (m.showUploads n) :=
  .each _ (fun _ _ hn => .raise (by omega) (.setN (by omega) (.setN (by omega) hn))) (h.keep rfl)

theorem Steady.showRegions {n : Nat} (h : Steady v a m) : Steady v a (m.showRegions n) :=
  .each _ (fun _ _ hn => .setN (by omega) (.setN (by omega) hn)) (h.keep rfl)

theorem Steady.latchViews (h : Steady v a m) : Steady v a m.latchViews := h.each _ fun _ _ => .onView

theorem Steady.observeStage (h : Steady v a m) : Steady v a m.observeStage :=
  .ite (fun _ => .endCapture (h.keep rfl)) (fun _ => h.keep rfl)

/-! ### Gains and transfers -/

theorem Steady.runTransfers (h : Steady v a m) : Steady v a m.runTransfers := h.each _ fun _ _ hn => hn.onLane.onPanel

theorem Steady.wantTransfer {t : Transfer} (h : Steady v a m) : Steady v a (m.wantTransfer t) := h.onPanel.runTransfers

theorem Steady.writeBackGain {x : Ctx} {p t : Nat} (h : Steady v a m) : Steady v a (m.writeBackGain x p t) := by
  unfold Mach.writeBackGain
  split
  · exact h
  · exact h.strike.draw.reads.wantTransfer

theorem Steady.showGains {x : Ctx} {n t : Nat} (h : Steady v a m) : Steady v a (m.showGains x n t) := by
  refine Steady.each _ (fun n s hn => .writeBackGain (.flag (.ite (fun _ => ?_) (fun _ => hn)))) h.onPanel
  exact .raise (by omega) (.setN (by omega) (.setN (by omega) hn))

theorem Steady.gainFailed {j reason : Nat} (h : Steady v a m) : Steady v a (m.gainFailed j reason) :=
  .raise (by omega) (.setN (by omega) (.setN (by omega) h))

theorem Steady.failGain {j reason : Nat} (h : Steady v a m) : Steady v a (m.failGain j reason) := h.setFree.onPanel.gainFailed

theorem Steady.failShown {s : GainShown} (h : Steady v a m) : Steady v a (m.failShown s) :=
  .ite (fun _ => h.setFree.onPanel.gainFailed) (fun _ => h.setFree.onPanel)

theorem Steady.dropSegs {l pos version kind tag : Nat} (h : Steady v a m) : Steady v a (m.dropSegs l pos version kind tag) := h.onLane

theorem Steady.dropTransfer {t : Transfer} (h : Steady v a m) : Steady v a (m.dropTransfer t) := by
  unfold Mach.dropTransfer
  exact h.dropSegs.onPanel

theorem Steady.failTransfer {t : Transfer} {status : Nat} (h : Steady v a m) : Steady v a (m.failTransfer t status) := by
  refine .ite (fun _ => h.dropSegs.onPanel) fun _ => .runTransfers (.raise (by omega) (.ite (fun _ => .flag ?_) (fun _ => ?_))) <;>
    exact .bump (by omega) h.dropTransfer

/-! ### Chains and tiles -/

theorem Steady.moveSegs {l k : Nat} {again : Bool} {f : Seg → Bool} (h : Steady v a m) : Steady v a (m.moveSegs l k again f) := h.onLane.onLane

theorem Steady.finishUnheals {n : Nat} (h : Steady v a m) : Steady v a (m.finishUnheals n) := by
  refine h.each _ fun n c hn => .ite (fun _ => hn) fun _ => ?_
  extract_lets ring fed m1 m2 m3 m4
  have h2 : Steady v a m2 := Steady.each _ (fun k i hk => .onTile (.setN (by omega) (.setN (by omega) hk))) hn.moveSegs
  have h3 : Steady v a m3 := .setN (by omega) (.setN (by omega) (.setN (by omega) h2))
  exact .raise (by omega) h3.onChain

theorem Steady.later {x : TileNews} (h : Steady v a m) : Steady v a (m.later x) := h.keep rfl

theorem Steady.report {c : Nat} (h : Steady v a m) : Steady v a (m.report c) := by
  refine .ite (fun _ => h.later) fun _ => ?_
  split
  · exact h.onChain
  · extract_lets m1
    have h1 : Steady v a m1 := h.onChain
    exact h1.keep rfl

theorem Steady.loseTile {c pos : Nat} (h : Steady v a m) : Steady v a (m.loseTile c pos) :=
  .ite (fun _ => h.setTile.onTile) fun _ => .ite (fun _ => h.setTile) (fun _ => h)

theorem Steady.judgeStatus (h : Steady v a m) : Steady v a m.judgeStatus := by
  refine .ite (fun _ => h) fun _ => h.each _ fun n x hn => ?_
  obtain ⟨c, i⟩ := x
  exact .ite (fun _ => hn) fun _ => .ite (fun _ => hn.onTile) fun _ => .ite (fun _ => hn.onTile.report.loseTile) (fun _ => hn.onTile.report)

theorem Steady.followTiles (h : Steady v a m) : Steady v a m.followTiles := by
  unfold Mach.followTiles
  extract_lets m1 m2 m3 m4
  have h1 : Steady v a m1 := h.each _ fun _ _ hn => .ite (fun _ => hn) (fun _ => hn.failGain)
  have h2 : Steady v a m2 := h1.each _ fun _ _ hn => .ite (fun _ => hn) (fun _ => hn.failShown)
  have h3 : Steady v a m3 := h2.each _ fun _ _ => .failTransfer
  exact h3.onPanel.onPanel

theorem Steady.showBands (h : Steady v a m) : Steady v a m.showBands :=
  .each _ (fun _ _ => .setN (by omega)) (h.each _ fun _ _ => .setN (by omega))

theorem Steady.evaluateBands (h : Steady v a m) : Steady v a m.evaluateBands := by
  unfold Mach.evaluateBands
  extract_lets on fresh m1 m2
  have h1 : Steady v a m1 := h.each _ fun _ _ => .onTile
  have h2 : Steady v a m2 := h1.each _ fun _ _ hn => .ite (fun _ => hn) (fun _ => hn.setN (by omega))
  exact h2.showBands

/-! ### Commons -/

theorem Steady.onCommon {n : Nat} {f : Common → Common} (h : Steady v a m) : Steady v a (m.onCommon n f) := h.onPanel

theorem Steady.applyArmed (h : Steady v a m) : Steady v a m.applyArmed :=
  .each _ (fun _ _ => .onCommon) (.onPanel (h.each _ fun _ _ => .onPanel))

theorem Steady.followCommons (h : Steady v a m) : Steady v a m.followCommons := by
  unfold Mach.followCommons
  extract_lets enter m1
  have h1 : Steady v a m1 := .ite (fun _ => h.onPanel) (fun _ => h)
  refine h1.each _ fun n k hn => .ite (fun _ => hn) fun _ => .ite (fun _ => ?_) (fun _ => ?_)
  · exact .onCommon (hn.setN (by omega))
  · exact hn.setN (by omega)

theorem Steady.clearCommons (h : Steady v a m) : Steady v a m.clearCommons :=
  h.each _ fun _ _ hn => .ite (fun _ => hn) (fun _ => hn.onCommon.setN (by omega))

theorem Steady.frameCommons (h : Steady v a m) : Steady v a m.frameCommons := h.applyArmed.onPanel.clearCommons.followCommons

/-! ### Previews -/

theorem Steady.onPort {p : Nat} {f : Port → Port} (h : Steady v a m) : Steady v a (m.onPort p f) := h.keep rfl

theorem Steady.skipPreview {k n : Nat} (h : Steady v a m) : Steady v a (m.skipPreview k n) := by
  unfold Mach.skipPreview
  extract_lets x skips m1
  have h1 : Steady v a m1 := .onView (h.bump (by omega))
  exact .ite (fun _ => (h1.raise (by omega)).onView) (fun _ => h1)

/-- A frame of the previews' class that is dropped is counted beside the schedule: the counters of class 3 miss its objects. -/
theorem Steady.countDrop {p : Nat} (h : Steady v a m) : Steady v a (m.countDrop p 3) := by
  have hix : shaperIx p 3 < 0x5000 ∨ 0x5003 ≤ shaperIx p 3 := by unfold shaperIx; omega
  obtain hlow | hhigh := hix
  · exact h.bumpLow hlow (by omega)
  · exact h.bump hhigh

theorem Steady.tooLong {p len : Nat} (h : Steady v a m) : Steady v a (m.tooLong p 3 len) := h.countDrop.raiseRate (by omega)

theorem Steady.packetDone {k : Nat} {down : Bool} (h : Steady v a m) : Steady v a (m.packetDone k down) := by
  refine .ite (fun _ => h.onView) fun _ => .ite (fun _ => h.onView.onView.skipPreview) (fun _ => ?_)
  exact h.onView.onView.bump (by omega)

theorem Steady.putPacket {c : Ctx} {p k : Nat} (h : Steady v a m) : Steady v a (m.putPacket c p k) := by
  unfold Mach.putPacket
  extract_lets x data m1 m2 f
  have h1 : Steady v a m1 := .ite (fun _ => h.reads) (fun _ => h)
  have h2 : Steady v a m2 := h1.onView
  exact .ite (fun _ => h2.tooLong.packetDone) (fun _ => h2.onPort)

theorem Steady.feedStream {c : Ctx} {p : Nat} (n : Nat) : ∀ {m : Mach}, Steady v a m → Steady v a (Mach.feedStream c p n m) := by
  induction n with
  | zero => exact fun h => h
  | succ n ih =>
    intro m h
    refine .ite (fun _ => h) fun _ => ?_
    split
    · exact h
    · exact ih h.putPacket

theorem Steady.startNext {c : Ctx} {p : Nat} (h : Steady v a m) : Steady v a (m.startNext c p) := by
  have hfed := h.feedStream (c := c) (p := p) (((upTo 4).map (fun v => (m.view v).packets.length)).sum)
  unfold Mach.startNext
  generalize Mach.feedStream c p (((upTo 4).map (fun v => (m.view v).packets.length)).sum) m = n at *
  refine .ite (fun _ => hfed) fun _ => ?_
  split
  · exact hfed
  · split
    · exact hfed
    · exact hfed.onPort.emit

theorem Steady.sendPreviews {c : Ctx} {n : Nat} (h : Steady v a m) : Steady v a (m.sendPreviews c n) :=
  h.each _ fun _ _ hn => .ite (fun _ => hn) fun _ => .ite (fun _ => hn.skipPreview) (fun _ => hn.draw.onView.startNext)

/-! ### Settings and calibration -/

theorem Steady.onCalib {f : Calib → Calib} (h : Steady v a m) : Steady v a (m.onCalib f) := h.keep rfl

theorem Steady.keepSettings {f : Mach → Mach} (hf : ∀ n, Steady v a n → Steady v a (f n)) (h : Steady v a m) :
    Steady v a (m.keepSettings f) := by
  unfold Mach.keepSettings
  exact (hf m h).onCalib

theorem Steady.latchTemps (h : Steady v a m) : Steady v a m.latchTemps :=
  .ite (fun _ => h.onCalib) (fun _ => h.onCalib.keepSettings fun _ => .onCalib)

theorem Steady.setStr {ix sub bank : Nat} {x : Bytes} (h : Steady v a m) : Steady v a (m.setStr ix sub x bank) := h.keep rfl

theorem Steady.calEnter {st : Nat} (h : Steady v a m) : Steady v a (m.calEnter st) := .onCalib (h.setN (by omega))

theorem Steady.endCal {st code : Nat} (h : Steady v a m) : Steady v a (m.endCal st code) := by
  unfold Mach.endCal
  extract_lets r m1 m2
  have h1 : Steady v a m1 := .calEnter (h.setN (by omega))
  have h2 : Steady v a m2 := .ite (fun _ => h1.setStr) (fun _ => h1)
  exact .raise (by omega) h2.onCalib

theorem Steady.watchCal {old : Mach} (h : Steady v a m) : Steady v a (old.watchCal m) := .ite (fun _ => h.endCal) (fun _ => h)

/-! ### Jobs -/

theorem Steady.showJob {j : Nat} (h : Steady v a m) : Steady v a (m.showJob j) := .setN (by omega) (.setN (by omega) h)

theorem Steady.freeJob {j : Nat} (h : Steady v a m) : Steady v a (m.freeJob j) := h.keep rfl

theorem Steady.jobEnter {j st reason : Nat} (h : Steady v a m) : SteadyE v a (m.jobEnter j st reason) := by
  unfold Mach.jobEnter
  extract_lets m1 m2 codec m3 m4
  have h2 : Steady v a m2 := .freeJob (.showJob (.setN (by omega) (.setN (by omega) h)))
  have h3 : Steady v a m3 := .ite (fun _ => h2.keep rfl) (fun _ => h2)
  have h4 : Steady v a m4 := .ite (fun _ => h3.raise (by omega)) (fun _ => h3)
  exact .ite (fun _ => h4.store) (fun _ => h4.eff)

theorem Steady.putJob {j e : Nat} (h : Steady v a m) : Steady v a (m.putJob j e) :=
  .ite (fun _ => .keep (h.setN (by omega)) rfl) (fun _ => .keep (h.setN (by omega)) rfl)

theorem Steady.resumeJobs (h : Steady v a m) : Steady v a m.resumeJobs := by
  refine h.each _ fun n j hn => .ite (fun _ => ?_) (fun _ => hn)
  split
  · exact hn.putJob
  · exact hn

/-! ### Self-tests (R511 to R518) -/

theorem Steady.passFlash {s retry : Nat} (h : Steady v a m) : Steady v a (m.passFlash s retry) := h.onTest.raise (by omega)

theorem Steady.flashWrite (h : Steady v a m) : Steady v a m.flashWrite :=
  .ite (fun _ => h.draw.onTest.passFlash.acted) fun _ => .ite (fun _ => h.draw.onTest.passFlash) (fun _ => h.draw.onTest)

theorem Steady.writeMap (h : Steady v a m) : Steady v a m.writeMap := h.onTest.flashWrite

theorem Steady.selfFailure {source : Nat} {injected : Bool} {f : Miscompare} (h : Steady v a m) :
    Steady v a (m.selfFailure source injected f) := .raiseRate (by omega) (h.onTest.setN (by omega))

theorem Steady.encodeFault {i cause : Nat} (h : Steady v a m) : Steady v a (m.encodeFault i cause) := by
  refine .ite (fun _ => h) fun _ => ?_
  extract_lets m1 codec m2
  have h1 : Steady v a m1 := .raise (by omega) (h.setN (by omega))
  have h2 : Steady v a m2 := h1.keep rfl
  exact .ite (fun _ => h2) (fun _ => h2.each _ fun _ _ hn => .ite (fun _ => hn.jobEnter.steady) (fun _ => hn))

theorem Steady.failUnit {cls inst : Nat} (h : Steady v a m) : Steady v a (m.failUnit cls inst) :=
  .ite (fun _ => .ite (fun _ => h.passThreshold) (fun _ => h)) fun _ =>
    .ite (fun _ => .ite (fun _ => .ite (fun _ => h.passThreshold) (fun _ => h)) (fun _ => h.encodeFault)) (fun _ => h)

theorem Steady.endTest {result cause : Nat} (h : Steady v a m) : Steady v a (m.endTest result cause) := by
  unfold Mach.endTest
  extract_lets t m1
  have h1 : Steady v a m1 := by
    refine .ite (fun _ => h) fun _ => ?_
    split
    · exact h.failUnit
    · exact h.failUnit
    · exact h.failUnit
    · exact h
  exact .raise (by omega) (h1.sets (by omega))

theorem Steady.cutTest {cause : Nat} (h : Steady v a m) : Steady v a (m.cutTest cause) :=
  .ite (fun _ => h) (fun _ => .endTest (.draw (h.sets (by omega))))

theorem Steady.testTaken (h : Steady v a m) : Steady v a m.testTaken := .ite (fun _ => h.cutTest) (fun _ => h)

theorem Steady.fettle {c : Ctx} {found : List (Nat × Nat)} (h : Steady v a m) : Steady v a (m.fettle c found) := by
  unfold Mach.fettle
  extract_lets p m1 m2 m3 m4
  refine .ite (fun _ => h) fun _ => ?_
  rcases macroPlace memCounts (p / 128) with ⟨k, i, n⟩
  dsimp -zeta only
  extract_lets fail m5 forced m6
  have h1 : Steady v a m1 := .ite (fun _ => h.setN (by omega)) (fun _ => h)
  have h3 : Steady v a m3 := .setN (by omega) (.bump (by omega) h1.onTest)
  have h4 : Steady v a m4 := .ite (fun _ => h3.bump (by omega)) (fun _ => h3)
  have hfail : ∀ (b : Bool) (x : Mach) (f : Nat × Nat), Steady v a x → Steady v a (fail b x f) := fun _ _ _ hx => hx.selfFailure
  have h5 : Steady v a m5 := h4.each _ fun _ _ hx => hfail _ _ _ hx
  have h6 : Steady v a m6 := .ite (fun _ => (hfail _ _ _ h5).acted) (fun _ => h5)
  exact .ite (fun _ => h6) (fun _ => h6.failUnit.writeMap)

/-! ### Cyclic messages -/

theorem Steady.onSession {id : Nat} {f : Session → Session} (h : Steady v a m) : Steady v a (m.onSession id f) :=
  .ite (fun _ => h.keep rfl) (fun _ => h.keep rfl)

theorem Steady.say {id ty flags tag : Nat} {b : Bytes} (h : Steady v a m) : Steady v a (m.say id ty flags tag b) := by
  unfold Mach.say Mach.sayTo
  split
  · exact h
  · exact h.onSession.emit

theorem Steady.sample {c : Ctx} {s : Session} {e : Nat} (h : Steady v a m) : Steady v a (m.sample c s e).1 := by
  unfold Mach.sample
  dsimp only
  split
  · exact h
  · exact .ite (fun _ => h.draw) (fun _ => h)

theorem Steady.sendCyclic {c : Ctx} {n t : Nat} (h : Steady v a m) : Steady v a (m.sendCyclic c n t) := by
  refine .ite (fun _ => h) fun _ => h.each _ fun k i hk => .ite (fun _ => hk) fun _ => .say ?_
  exact List.foldlRecOn _ _ (motive := fun x : Mach × Bytes => Steady v a x.1) hk fun _ hx _ _ => hx.sample

end Steps

end Sys2Proof.Machine

/-! What the update of the spares ledger leaves alone (R32, R168, R278 to R281). -/

namespace Sys2Proof.Machine

section Steps
variable {α : Type} {v : Pipeline → α} {a m : Mach}

/-! ### Take-overs of memory channels -/

theorem Steady.onDram {f : Dram → Dram} (h : Steady v a m) : Steady v a (m.onDram f) := h.keep rfl

theorem Steady.takeOverPhase {k : Nat} (h : Steady v a m) : Steady v a (m.takeOverPhase k) := h.onDram.setN (by omega)

theorem Steady.listFull {p : Nat} (h : Steady v a m) : Steady v a (m.listFull p) := h.touch (Touches.listFull (.refl _))

theorem Steady.switchChannel {t : TakeOver} (h : Steady v a m) : Steady v a (m.switchChannel t) := by
  unfold Mach.switchChannel
  extract_lets m1 first m2 m3 m4
  have h1 : Steady v a m1 := (h.sets (by omega)).onChan
  have h2 : Steady v a m2 := by
    unfold m2
    cases t.spare with
    | some s => exact ((h1.sets (by omega)).setN (by omega)).onChan
    | none => exact ((h1.setN (by omega)).setN (by omega)).bump (by omega)
  have h3 : Steady v a m3 := .ite (fun _ => h2.bump (by omega)) (fun _ => h2)
  have h4 : Steady v a m4 := h3.onDram.setN (by omega)
  cases t.spare with
  | some s => exact h4.listFull
  | none => exact h4

theorem Steady.clearBorrowed {l : Nat} (h : Steady v a m) : Steady v a (m.clearBorrowed l) := h.each _ fun _ _ hn => hn.onChan.showPoison

theorem Steady.noteRead {n : Nat} (h : Steady v a m) : Steady v a (m.noteRead n) := h.bump (by omega)

theorem Steady.noteWritten {n : Nat} (h : Steady v a m) : Steady v a (m.noteWritten n) := h.bump (by omega)

theorem Steady.rebuildFirmware {t : TakeOver} (h : Steady v a m) : Steady v a (m.rebuildFirmware t) := by
  unfold Mach.rebuildFirmware
  extract_lets twin lost m1 last from_ m2
  have h1 : Steady v a m1 := h.noteRead.noteWritten
  have h2 : Steady v a m2 := h1.onChan.onChan
  exact h2.each _ fun _ _ => .addPoison

theorem Steady.dropClip {id : Nat} (h : Steady v a m) : Steady v a (m.dropClip id) := h.keep rfl

theorem Steady.loseExtents {l : List Nat} (h : Steady v a m) : Steady v a (m.loseExtents l) :=
  h.each _ fun _ _ hn => hn.dropClip.raise (by omega)

theorem Steady.switchDead {t : TakeOver} (h : Steady v a m) : Steady v a (m.switchDead t) := by
  unfold Mach.switchDead
  extract_lets own m1 mirror m2 m3
  have h1 : Steady v a m1 := by
    unfold m1
    cases t.spare with
    | some s => exact h.onChan
    | none => exact h.clearBorrowed
  have h3 : Steady v a m3 := h1.loseExtents.rebuildFirmware.switchChannel.onDram
  exact h3.raise (by omega)

theorem Steady.takeOverTick {b : Bool} (h : Steady v a m) : Steady v a (m.takeOverTick b) := by
  unfold Mach.takeOverTick
  split
  · exact h
  · next t _ =>
    refine .ite (fun _ => h.takeOverPhase) fun _ => .ite (fun _ => h.switchDead) fun _ => .ite (fun _ => h) fun _ => .ite (fun _ => ?_) fun _ => ?_
    · split
      · exact h.switchChannel.raise (by omega)
      · exact h.switchChannel
    · have hraised := h.raise (code := 0xA00B) (inst := t.logical) (d := [(1, t.logical), (1, t.restarts + 1)]) (by omega)
      exact .ite (fun _ => hraised.switchDead) (fun _ => hraised.onDram.takeOverPhase)

/-! ### Units -/

theorem Steady.verifyJournal (h : Steady v a m) : Steady v a m.verifyJournal := by
  unfold Mach.verifyJournal
  split
  · exact .ite (fun _ => (h.onTest.raise (by omega)).acted) (fun _ => h)
  · exact h

theorem Steady.retireFailed (h : Steady v a m) : Steady v a m.retireFailed := by
  unfold Mach.retireFailed
  extract_lets m1 dram m2 m3 m4 jrn m5
  have h1 : Steady v a m1 := h.each _ fun _ _ => .setN (by omega)
  have h2 : Steady v a m2 := h1.keep rfl
  have h4 : Steady v a m4 := ((h2.bump (by omega)).bump (by omega)).onTest
  have h5 : Steady v a m5 := h4.keep rfl
  exact h5.onTest.each _ fun _ _ => .flashWrite

theorem Steady.onCluster {c : Nat} {f : Cluster → Cluster} (h : Steady Pipeline.course a m) : Steady Pipeline.course a (m.onCluster c f) :=
  h.onPipe (f := fun p => { p with clusters := modAt p.clusters c f }) fun _ => rfl

theorem Steady.dropPassed (h : Steady Pipeline.course a m) : Steady Pipeline.course a m.dropPassed := by
  unfold Mach.dropPassed
  extract_lets out m1
  have hout : ∀ ix n, 0x5003 ≤ ix → Steady Pipeline.course a n → Steady Pipeline.course a (out ix n) := fun ix n hix hn => by
    unfold out
    split
    · exact hn.setN hix
    · exact hn.setN hix
    · exact hn
  have h1 : Steady Pipeline.course a m1 := h.each _ fun n p hn => by
    split
    · exact (hout _ _ (by omega) hn).onCluster
    · exact hout _ _ (by omega) hn
    · exact hn
  exact h1.onTest

theorem Steady.clusterTakeOver (h : Steady Pipeline.course a m) : Steady Pipeline.course a m.clusterTakeOver := by
  unfold Mach.clusterTakeOver
  extract_lets heat faulted m1 n
  have h1 : Steady Pipeline.course a m1 := h.each _ fun k c hk => by
    extract_lets k1
    have hk1 : Steady Pipeline.course a k1 := hk.setN (by omega)
    split
    · exact .raise (by omega) (.onCluster (hk1.setN (by omega)))
    · exact hk1
  exact .ite (fun _ => h1.raise (by omega)) (fun _ => h1)

theorem Steady.engineTakeOver (h : Steady v a m) : Steady v a m.engineTakeOver := by
  unfold Mach.engineTakeOver
  extract_lets faulted m1 m2
  have h1 : Steady v a m1 := h.each _ fun k c hk => by
    extract_lets k1
    have hk1 : Steady v a k1 := hk.setN (by omega)
    split
    · exact .raise (by omega) (hk1.setN (by omega))
    · exact hk1
  have h2 : Steady v a m2 := .ite (fun _ => h1.raise (by omega)) (fun _ => h1)
  exact h2.each _ fun _ _ hn => .ite (fun _ => hn.setN (by omega)) (fun _ => hn)

theorem Steady.onThermal {f : Thermal → Thermal} (h : Steady v a m) : Steady v a (m.onThermal f) := h.keep rfl

theorem Steady.onSensor {s : Nat} {f : Sensor → Sensor} (h : Steady v a m) : Steady v a (m.onSensor s f) := h.onThermal

theorem Steady.finishReleases (h : Steady v a m) : Steady v a m.finishReleases :=
  h.eachOf _ fun n s hs hn => .ite (fun _ => .raise (by omega) (.onSensor (hn.setNLow (by have := List.mem_range.mp hs; omega) (by omega))))
    (fun _ => hn)

theorem Steady.updateUnits (h : Steady Pipeline.course a m) : Steady Pipeline.course a m.updateUnits := by
  unfold Mach.updateUnits
  extract_lets m1 clusters engines m2 m3 m4 few pipe m5
  have h1 : Steady Pipeline.course a m1 := h.verifyJournal.dropPassed.retireFailed
  have h2 : Steady Pipeline.course a m2 := h1.clusterTakeOver.engineTakeOver.finishReleases
  have h3 : Steady Pipeline.course a m3 := h2.bump (by omega)
  clear_value m3
  have h4 : Steady Pipeline.course a m4 := h3.bump (by omega)
  clear_value m4
  have h5 : Steady Pipeline.course a m5 := h4.keep rfl
  exact h5.testTaken

/-! ### Phases, and the ledger itself -/

theorem Steady.holdPhases (h : Steady v a m) : Steady v a m.holdPhases := .ite (fun _ => h.setNLow (by omega) (by omega)) (fun _ => h)

theorem Steady.phaseTakeOver (h : Steady v a m) : Steady v a m.phaseTakeOver := by
  refine .holdPhases (h.eachOf _ fun n k hk hn => ?_)
  have hphase := List.mem_range.mp (List.mem_filter.mp hk).1
  extract_lets n1
  have h1 : Steady v a n1 := hn.setNLow (by omega) (by omega)
  split
  · next s hs =>
    have hspare := List.mem_range.mp (List.mem_of_find?_eq_some hs)
    exact .raise (by omega) (.bump (by omega) (h1.setNLow (by omega) (by omega)))
  · exact h1

theorem Steady.tellEmpty (h : Steady v a m) : Steady v a m.tellEmpty :=
  h.each _ fun _ _ hn => .ite (fun _ => hn.onTest.raise (by omega)) (fun _ => hn)

theorem Steady.keepLedger (h : Steady v a m) : Steady v a m.keepLedger := h.onTest

theorem Steady.updateLedger {b : Bool} (h : Steady Pipeline.course a m) : Steady Pipeline.course a (m.updateLedger b) :=
  .ite (fun _ => h) (fun _ => h.updateUnits.phaseTakeOver.takeOverTick.tellEmpty.keepLedger)

end Steps

end Sys2Proof.Machine

/-! What the start of a heat does beside its course (R82, R88, R92, R129 to R131, R159, R166). -/

namespace Sys2Proof.Machine

/-! ### Contexts -/

/-- Clusters that look again keep a view without their waiting times. -/
theorem Looks.steady {α : Type} {v : Pipeline → α} {a b : Mach} (h : Looks a b)
    (hv : ∀ p cs w s, v { p with clusters := cs, heat := { p.heat with waitTime := w, soloTime := s } } = v p) : Steady v a b := by
  rw [h.frame]
  exact ⟨hv .., rfl, rfl, fun _ _ _ => rfl, Nat.le_refl _⟩

/-- Contexts that take pours leave all but layers, graphics and the pipeline. -/
theorem Assigns.steady {α : Type} {v : Pipeline → α} {a b : Mach} (h : Assigns a b) (hv : v b.pipe = v a.pipe) : Steady v a b := by
  refine ⟨hv, ?_, ?_, fun _ _ _ => by rw [h.od], by rw [h.jrn]⟩
  · have := congrArg Mach.boot h; exact this
  · have := congrArg (fun m : Mach => m.power_.stop) h; exact this

/-- A view without the list, the pours and the clusters is kept by a context that takes a pour. -/
theorem assignOne_steady {α : Type} {v : Pipeline → α}
    (hv : ∀ p cs l ps, v { p with clusters := cs, heat := { p.heat with list := l, pours := ps } } = v p) (m : Mach) :
    Steady v m m.assignOne := by
  refine (Assigns.assignOne m).steady ?_
  obtain hsame | ⟨c, e, -, -, -, htake⟩ := assignOne_cases m
  · rw [hsame]
  · rw [htake]
    cases hp : m.pour? e.1 with
    | none => rw [Mach.takePour, hp]
    | some p =>
      obtain ⟨w, there, hpipe⟩ := takePour_pipe c hp
      rw [hpipe]
      exact hv ..

theorem assign_steady {α : Type} {v : Pipeline → α}
    (hv : ∀ p cs l ps, v { p with clusters := cs, heat := { p.heat with list := l, pours := ps } } = v p) (m : Mach) :
    Steady v m m.assign := (Steady.refl v m).each _ fun n _ hn => hn.trans (assignOne_steady hv n)

theorem Steady.assign {a m : Mach} (h : Steady Pipeline.course a m) : Steady Pipeline.course a m.assign :=
  h.trans (assign_steady (fun _ _ _ _ => rfl) m)

theorem Steady.rescheduleAll {a m : Mach} (h : Steady Pipeline.course a m) : Steady Pipeline.course a m.rescheduleAll :=
  h.trans ((Looks.rescheduleAll m).steady fun _ _ _ _ => rfl)

section Steps
variable {α : Type} {v : Pipeline → α} {a m : Mach}

/-! ### Uploads, recordings and descriptors -/

theorem Steady.failUpload {u : Upload} {reason : Nat} (h : Steady v a m) : Steady v a (m.failUpload u reason) := by
  unfold Mach.failUpload
  extract_lets mine m1 m2 scene m3 m4
  have h1 : Steady v a m1 := .ite (fun _ => h.dropEngines) (fun _ => h)
  have h2 : Steady v a m2 := (h1.setN (by omega)).setN (by omega)
  have h3 : Steady v a m3 := h2.keep rfl
  exact h3.onLayer.showPending.raise (by omega)

theorem Steady.stopRecording {reason : Nat} (h : Steady v a m) : Steady v a (m.stopRecording reason) := by
  unfold Mach.stopRecording
  split
  · exact h
  · extract_lets scene m1
    have h1 : Steady v a m1 := h.keep rfl
    exact .raise (by omega) (h1.setN (by omega))

theorem Steady.discardHistory {k reason : Nat} (h : Steady v a m) : Steady v a (m.discardHistory k reason) := by
  unfold Mach.discardHistory
  extract_lets m1 m2 m3 m4
  have h2 : Steady v a m2 := h.abandonWhere.each _ fun _ _ => .failUpload
  have h4 : Steady v a m4 := .raise (by omega) (h2.onLayer.setN (by omega))
  split
  · exact .ite (fun _ => h4.stopRecording) (fun _ => h4)
  · exact h4

theorem Steady.latchLayer {k : Nat} {old new : VDesc} (h : Steady v a m) : Steady v a (m.latchLayer k old new) := by
  unfold Mach.latchLayer
  extract_lets m1 reclip m2 m3 cut
  have h1 : Steady v a m1 := .ite (fun _ => h.discardHistory) fun _ => .ite (fun _ => h.discardHistory) (fun _ => h)
  have h2 : Steady v a m2 := .ite (fun _ => h1.onLayer) (fun _ => h1)
  have h3 : Steady v a m3 := h2.abandonWhere
  exact h3.each _ fun _ _ hn => hn.draw.failUpload

theorem Steady.latchDescriptors {n : Nat} {b : Bool} (h : Steady v a m) : Steady v a (m.latchDescriptors n b) := by
  unfold Mach.latchDescriptors
  split
  · exact h
  · refine .ite (fun _ => h) fun _ => ?_
    extract_lets old m1 scene m2
    have h1 : Steady v a m1 := h.each _ fun _ _ => .latchLayer
    have h2 : Steady v a m2 := h1.keep rfl
    exact (h2.setN (by omega)).setN (by omega)

theorem Steady.dropMisfits (h : Steady v a m) : Steady v a m.dropMisfits := by
  refine h.each _ fun n k hn => .ite (fun _ => hn) fun _ => Steady.each _ (fun x b hx => ?_)
    (hn.each _ fun _ _ hx => hx.abandon.raise (by omega))
  split
  · exact .ite (fun _ => .raise (by omega) (.raise (by omega) (hx.onLayer.bump (by omega)))) (fun _ => hx)
  · exact hx

theorem Steady.recordFrom {n : Nat} (h : Steady v a m) : Steady v a (m.recordFrom n) := h.keep rfl

/-! ### Tiles and their map -/

theorem Steady.onPours {f : Pour → Pour} (h : Steady Pipeline.course a m) : Steady Pipeline.course a (m.onPours f) := h.onHeat fun _ => rfl

theorem Steady.cancelPour {c pos : Nat} (h : Steady Pipeline.course a m) : Steady Pipeline.course a (m.cancelPour c pos) := by
  unfold Mach.cancelPour
  extract_lets m1 gone m2 mine
  have h2 : Steady Pipeline.course a m2 := h.onPours.onHeat fun _ => rfl
  exact h2.onPipe fun _ => rfl

theorem Steady.leftMap {c pos reason : Nat} (h : Steady Pipeline.course a m) : Steady Pipeline.course a (m.leftMap c pos reason) :=
  h.cancelPour.raise (by omega)

theorem Steady.applyMap (h : Steady Pipeline.course a m) : Steady Pipeline.course a m.applyMap := by
  unfold Mach.applyMap
  split
  · exact h
  · extract_lets tiles m1
    have h1 : Steady Pipeline.course a m1 := .setN (by omega) (h.keep rfl)
    exact .showBands (h1.each _ fun _ _ hn => hn.each _ fun _ _ hk => .onTile (.ite (fun _ => hk.leftMap.setTile) (fun _ => hk)))

theorem Steady.joinTiles (h : Steady v a m) : SteadyE v a m.joinTiles :=
  .foldl _ (fun _ _ he => he.then_ fun _ hn => .ite (fun _ => hn.placeHistory) fun _ => .ite (fun _ => hn.eff) fun _ =>
    hn.placeHistory.on fun _ hk => .ite (fun _ => hk) (fun _ => hk.setTile.onTile)) h.eff

theorem Steady.bindGains {n : Nat} (h : Steady v a m) : Steady v a (m.bindGains n) := by
  unfold Mach.bindGains
  extract_lets m1 m2
  have h1 : Steady v a m1 := h.each _ fun _ _ => .bindSlot
  have h2 : Steady v a m2 := h1.each _ fun _ _ => .bindSlot
  exact h2.onPanel

theorem Steady.askCheckpoint {c pos p : Nat} (h : Steady v a m) : Steady v a (m.askCheckpoint c pos p) :=
  .ite (fun _ => h) (fun _ => h.onPanel)

theorem Steady.beginCheckpoints {n limit : Nat} (h : Steady v a m) : Steady v a (m.beginCheckpoints n limit) :=
  .each _ (fun _ _ => .onPanel) (h.each _ fun _ _ => .askCheckpoint)

/-! ### What a heat binds -/

theorem Steady.armCapture {n : Nat} (h : Steady v a m) : Steady v a (m.armCapture n) := .ite (fun _ => h.setN (by omega)) (fun _ => h)

theorem Steady.bindGraphics {n : Nat} (h : Steady Pipeline.course a m) : Steady Pipeline.course a (m.bindGraphics n) := by
  unfold Mach.bindGraphics
  extract_lets m1 outs
  have h1 : Steady Pipeline.course a m1 := h.onHeat fun _ => rfl
  exact h1.keep rfl

theorem Steady.makePours (h : Steady Pipeline.course a m) : Steady Pipeline.course a m.makePours := by
  unfold Mach.makePours
  extract_lets ls pours m1 n split m2 m3 order
  have h1 : Steady Pipeline.course a m1 := h.onHeat fun _ => rfl
  have h2 : Steady Pipeline.course a m2 := .ite (fun _ => h1.raise (by omega)) (fun _ => h1)
  have h3 : Steady Pipeline.course a m3 := h2.onPipe fun _ => rfl
  split
  · exact h3
  · exact h3.raise (by omega)

theorem Steady.squash (h : Steady Pipeline.course a m) : Steady Pipeline.course a m.squash := by
  unfold Mach.squash
  extract_lets ls all bad bytes m1 m2 n total tell m3
  have h1 : Steady Pipeline.course a m1 := h.noteRead.onHeat fun _ => by rfl
  have h2 : Steady Pipeline.course a m2 := h1.onPipe fun _ => by rfl
  have h3 : Steady Pipeline.course a m3 := h2.onPipe fun _ => rfl
  exact .ite (fun _ => .ite (fun _ => h3.raise (by omega)) (fun _ => h3)) (fun _ => h2.onPipe fun _ => rfl)

theorem Steady.snapLayer {n k : Nat} (h : Steady Pipeline.course a m) : Steady Pipeline.course a (m.snapLayer n k) := by
  unfold Mach.snapLayer
  extract_lets x c bit_ bindAt late m1 m2 m3 m4 m5 m6 m7 m8 m9
  have hbind : ∀ y b, Steady Pipeline.course a y → Steady Pipeline.course a (bindAt y b) := fun y b hy =>
    ((hy.setN (by omega)).setN (by omega)).onHeat fun _ => by rfl
  have h1 : Steady Pipeline.course a m1 := .ite (fun _ => h.raise (by omega)) (fun _ => h)
  have h3 : Steady Pipeline.course a m3 := h1.onLayer.onHeat fun _ => by rfl
  have h4 : Steady Pipeline.course a m4 := h3.onLayer
  have h6 : Steady Pipeline.course a m6 := (hbind _ _ (h4.setN (by omega))).onHeat fun _ => by rfl
  have h7 : Steady Pipeline.course a m7 := h6.bumpSat (by omega)
  have h9 : Steady Pipeline.course a m9 := (hbind _ _ (h3.setN (by omega))).onHeat fun _ => by rfl
  refine .ite (fun _ => hbind _ _ (h.setN (by omega))) fun _ => ?_
  split
  · exact .onLayer ((hbind _ _ ((h.setN (by omega)).setN (by omega))).onHeat fun _ => by rfl)
  · split
    · exact .ite (fun _ => (hbind _ _ ((h4.setN (by omega)).setN (by omega))).onHeat fun _ => by rfl) fun _ =>
        .ite (fun _ => h7) (fun _ => h7.onLayer.raise (by omega))
    · exact .ite (fun _ => h9) (fun _ => h9.onLayer.raise (by omega))

/-! ### Clips and engines -/

theorem Steady.feedEngine {e : Nat} (h : Steady v a m) : Steady v a (m.feedEngine e) := by
  refine .ite (fun _ => h) fun _ => ?_
  split
  · exact h.keep rfl
  · split
    · exact h.keep rfl
    · split
      · exact h.keep rfl
      · exact h

theorem Steady.feedEngines (h : Steady v a m) : Steady v a m.feedEngines := h.each _ fun _ _ => .feedEngine

theorem Steady.passClip {k f : Nat} (n : Nat) : ∀ {m : Mach}, Steady v a m → Steady v a (Mach.passClip k f n m) := by
  induction n with
  | zero => exact fun h => h
  | succ n ih =>
    intro m h
    unfold Mach.passClip
    split
    · exact h
    · exact .ite (fun _ => h) (fun _ => ih h.onLayer)

theorem Steady.rewindClips {f : Nat} (h : Steady v a m) : Steady v a (m.rewindClips f) :=
  .ite (fun _ => h) fun _ => h.each _ fun _ _ hn => .ite (fun _ => hn) (fun _ => hn.onLayer.passClip _)

theorem Steady.playClip {c : Ctx} {k : Nat} (n : Nat) : ∀ {m : Mach}, Steady v a m → SteadyE v a (Mach.playClip c k n m) := by
  induction n with
  | zero => exact fun h => h.eff
  | succ n ih =>
    intro m h
    unfold Mach.playClip
    extract_lets d now
    refine .ite (fun _ => h.eff) fun _ => ?_
    split
    · exact h.eff
    · extract_lets last step span room t m1 e
      have hstep : ∀ x, Steady v a x → Steady v a (step x) := fun x hx =>
        .ite (fun _ => hx.onLayer) fun _ => .ite (fun _ => hx.onLayer) (fun _ => hx.onLayer.raise (by omega))
      have h1 : Steady v a m1 := .ite (fun _ => h.strike) (fun _ => h)
      have he : SteadyE v a e := .ite (fun _ => h1.eff) fun _ => .ite (fun _ => h1.reads.abandon.eff) (fun _ => h1.reads.onLayer.storeAll)
      exact .ite (fun _ => h.eff) fun _ => .ite (fun _ => ih (hstep _ (h.bump (by omega)))) fun _ => he.then_ fun _ hx => ih (hstep _ hx.showPending)

end Steps

end Sys2Proof.Machine

/-! The commit point resolves the heat and posts its record (R83, R85, R96, R98). -/

namespace Sys2Proof.Machine

theorem objN_of_objects {a b : Mach} (h : ∀ k, 0x5000 * 256 ≤ k → k < 0x5003 * 256 → storeGet b.od k = storeGet a.od k) {k : Nat}
    (hl : 0x5000 * 256 ≤ k) (hr : k < 0x5003 * 256) : b.objN (k / 256) (k % 256) = a.objN (k / 256) (k % 256) := by
  have hkey : okey (k / 256) (k % 256) = k := by rw [okey]; omega
  rw [Mach.objN, Mach.objN, Mach.obj, Mach.obj, hkey, h k hl hr]

/-- An object of the schedule, of its parameters or of the record of the heat. -/
theorem Steady.objN {α : Type} {v : Pipeline → α} {a b : Mach} (h : Steady v a b) (k : Nat) (hl : 0x5000 * 256 ≤ k) (hr : k < 0x5003 * 256) :
    b.objN (k / 256) (k % 256) = a.objN (k / 256) (k % 256) := objN_of_objects h.objects hl hr

/-- Values set at other subindices leave an object as it was. -/
theorem sets_obj_of_forall_ne {ix sub : Nat} (l : List (Nat × Int)) : ∀ m : Mach, (∀ x ∈ l, x.1 ≠ sub) →
    (m.sets ix l).obj ix sub = m.obj ix sub := by
  induction l with
  | nil => exact fun _ _ => rfl
  | cons x l ih =>
    intro m hne
    refine (ih _ fun y hy => hne y (List.mem_cons_of_mem _ hy)).trans (m.set_obj_ne ix x.1 x.2 0 ?_)
    have hx := hne x List.mem_cons_self
    rw [okey, okey]
    omega

theorem sets_obj_head {ix sub : Nat} {x : Int} {l : List (Nat × Int)} (m : Mach) (hne : ∀ y ∈ l, y.1 ≠ sub) :
    (m.sets ix ((sub, x) :: l)).obj ix sub = x :=
  (sets_obj_of_forall_ne l (m.set ix sub x) hne).trans (m.set_obj_same ix sub x 0)

section Steps
variable {α : Type} {v : Pipeline → α} {a m : Mach}

theorem Steady.sendCommit {c pos heat version : Nat} {withdraw : Bool} (h : Steady v a m) :
    Steady v a (m.sendCommit c pos heat version withdraw) := h.toTile.onTile

theorem Steady.endProvisional (h : Steady Pipeline.course a m) : Steady Pipeline.course a m.endProvisional := h.onPours

theorem Steady.tellHeat {repeat_ : Bool} {misses : Nat} (h : Steady v a m) : Steady v a (m.tellHeat repeat_ misses) := by
  unfold Mach.tellHeat
  extract_lets heat v2 out got m1 gone p
  have h1 : Steady v a m1 := .ite (fun _ => h.raise (by omega)) fun _ => .ite (fun _ => h.raise (by omega)) (fun _ => h)
  exact .ite (fun _ => h1.raise (by omega)) fun _ => .ite (fun _ => h1) (fun _ => h1.raise (by omega))

end Steps

/-- Resolving a heat keeps its number, and the heat is then resolved. -/
theorem resolve_steady (m : Mach) : Steady Pipeline.numbered m m.resolve.1 ∧ m.resolve.1.heat.resolved = true := by
  unfold Mach.resolve
  extract_lets m1 m2 heat v2 hit ok misses repeat_ m3 m4 m5
  have h1 : Steady Pipeline.course m m1 := .ite (fun _ => (Steady.refl _ m).endProvisional) (fun _ => .refl _ m)
  have h3 : Steady Pipeline.course m m3 := Steady.each _ (fun n p hn => .ite (fun _ => hn) fun _ => by
    extract_lets k
    have hk : Steady Pipeline.course m k := .ite (fun _ => hn.sendCommit) (fun _ => hn)
    exact .ite (fun _ => hk) fun _ => .ite (fun _ => hk.sendCommit) fun _ => .ite (fun _ => hk.sendCommit) (fun _ => hk)) h1.onPours
  have h4 : Steady Pipeline.numbered m m4 := h3.numbered.keep rfl
  have h5 : Steady Pipeline.course m4 m5 :=
    .ite (fun _ => .each _ (fun n k hn => .ite (fun _ => hn.setN (by omega)) (fun _ => hn)) (.refl _ m4)) (fun _ => .refl _ m4)
  have hresolved : m5.heat.course = m4.heat.course := congrArg Prod.snd h5.view
  exact ⟨h4.trans h5.numbered, congrArg (fun x : Bool × Nat × Nat × Bool => x.2.2.2) hresolved⟩

/-- A heat as it stands once its record is posted: what goes on after the commit point, with the heat resolved and its number in 0x5002:01. -/
structure Posted (a b : Mach) : Prop where
  restart : b.pipe.restart = a.pipe.restart
  stop : b.power_.stop = a.power_.stop
  number : b.heat.number = a.heat.number
  resolved : b.heat.resolved = true
  posted : b.objN 0x5002 1 = a.heat.number

theorem Posted.steady {a b c : Mach} (h : Posted a b) (k : Steady Pipeline.course b c) : Posted a c := by
  have hcourse : c.heat.course = b.heat.course := congrArg Prod.snd k.view
  refine ⟨(congrArg Prod.fst k.view).trans h.restart, k.stop.trans h.stop, ?_, ?_, ?_⟩
  · exact (congrArg (fun x : Bool × Nat × Nat × Bool => x.2.1) hcourse).trans h.number
  · exact (congrArg (fun x : Bool × Nat × Nat × Bool => x.2.2.2) hcourse).trans h.resolved
  · exact (k.objN 0x500201 (by omega) (by omega)).trans h.posted

/-- The record of a heat goes to 0x5002 first. -/
theorem postHeat_posted {a m : Mach} {repeat_ : Bool} (hkept : Steady Pipeline.numbered a m) (hresolved : m.heat.resolved = true) :
    Posted a (m.postHeat repeat_) := by
  unfold Mach.postHeat
  extract_lets heat v2 missed got last tc out m1 m2 m3 m4 wait solo bands m5
  have hpipe : m1.pipe = m.pipe := m.sets_pipe ..
  have hnumber : m.heat.number = a.heat.number := congrArg (fun x : Option Restart × Nat => x.2) hkept.view
  have h1 : Posted a m1 := by
    refine ⟨?_, ?_, ?_, ?_, ?_⟩
    · rw [hpipe]; exact congrArg (fun x : Option Restart × Nat => x.1) hkept.view
    · rw [show m1.power_ = m.power_ from m.sets_power_ ..]; exact hkept.stop
    · rw [Mach.heat, hpipe]; exact hnumber
    · rw [Mach.heat, hpipe]; exact hresolved
    · rw [← hnumber, Mach.objN, sets_obj_head m (by simp)]; rfl
  clear_value m1
  have h2 : Steady Pipeline.course m1 m2 := (((Steady.refl _ m1).bumpSat (by omega)).bumpSat (by omega)).bumpSat (by omega)
  have h3 : Steady Pipeline.course m1 m3 := ((h2.bumpSat (by omega)).bumpSat (by omega)).bumpSat (by omega)
  have h4 : Steady Pipeline.course m1 m4 := (h3.bumpSat (by omega)).bumpSat (by omega)
  have h5 : Steady Pipeline.course m1 m5 := h4.sets (by omega)
  exact h1.steady (h5.onPipe fun _ => rfl)

/-- The commit point of a heat that runs: the heat is resolved and its number posted. -/
theorem commitPoint_posted {c : Ctx} {m : Mach} (hdue : ¬ (!m.heat.running ∨ m.heat.resolved ∨ m.timeWord < m.commitAt)) :
    (commitPoint c m).life = none ∧ Posted m (commitPoint c m).m := by
  obtain ⟨hkept, hresolved⟩ := resolve_steady m
  unfold commitPoint
  rw [if_neg hdue]
  revert hkept hresolved
  rcases m.resolve with ⟨m1, repeat_, misses⟩
  intro hkept hresolved
  dsimp -zeta only
  extract_lets m2 number m3
  have hposted : Posted m (m1.postHeat repeat_) := postHeat_posted hkept hresolved
  have h3 : Steady Pipeline.course (m1.postHeat repeat_) m3 := (Steady.refl _ _).tellHeat.dropRays.freeContexts
  clear_value m3
  have hlast : SteadyE Pipeline.course (m1.postHeat repeat_) _ := SteadyE.on (SteadyE.then_ (SteadyE.then_
    (h3.snapCheckpoints (x := c) (n := number) (t := m3.commitAt)) fun _ hn => hn.assemblePreviews (c := c)) fun _ hn => hn.capture (c := c))
    (f := fun m => (((m.postSignatures c).abandonPast number).freeBuffers number).prefetch.feedEncode)
    fun _ hn => hn.postSignatures.abandonPast.freeBuffers.prefetch.feedEncode
  exact ⟨hlast.life, hposted.steady hlast.steady⟩

/-- A commit point keeps what the next tick goes by. -/
theorem commitPoint_kept (c : Ctx) (m : Mach) : (commitPoint c m).life = none ∧ (commitPoint c m).m.pipe.restart = m.pipe.restart ∧
    (commitPoint c m).m.power_.stop = m.power_.stop := by
  by_cases hdue : !m.heat.running ∨ m.heat.resolved ∨ m.timeWord < m.commitAt
  · unfold commitPoint
    rw [if_pos hdue]
    exact ⟨rfl, rfl, rfl⟩
  · obtain ⟨hlife, h⟩ := commitPoint_posted (c := c) hdue
    exact ⟨hlife, h.restart, h.stop⟩

end Sys2Proof.Machine

/-! Frame ticks and the heats that they start (R76, R78 to R81). -/

namespace Sys2Proof.Machine

/-! ### The work of a frame tick -/

/-- From one block to the next the restart, the boot and the stop that waits are as they were, and no event was taken back. -/
structure Lasts (a b : Mach) : Prop where
  restart : b.pipe.restart = a.pipe.restart
  boot : b.boot = a.boot
  stop : b.power_.stop = a.power_.stop
  newest : a.jrn.newest ≤ b.jrn.newest

theorem Steady.lasts {a b : Mach} (h : Steady Pipeline.restart a b) : Lasts a b := ⟨h.view, h.boot, h.stop, h.newest⟩

theorem Lasts.trans {a b c : Mach} (h : Lasts a b) (k : Lasts b c) : Lasts a c :=
  ⟨k.restart.trans h.restart, k.boot.trans h.boot, k.stop.trans h.stop, h.newest.trans k.newest⟩

theorem Lasts.setN (m : Mach) (ix sub x : Nat) : Lasts m (m.setN ix sub x) := ⟨rfl, rfl, rfl, Nat.le_refl _⟩

theorem Steady.frameNo {α : Type} {v : Pipeline → α} {a b : Mach} (h : Steady v a b) : b.frameNo = a.frameNo :=
  h.objN 0x50000B (by omega) (by omega)

theorem Steady.schedState {α : Type} {v : Pipeline → α} {a b : Mach} (h : Steady v a b) : b.schedState = a.schedState :=
  h.objN 0x50000A (by omega) (by omega)

theorem onHeat_restart (m : Mach) (f : Heat → Heat) : Steady Pipeline.restart m (m.onHeat f) := ⟨rfl, rfl, rfl, fun _ _ _ => rfl, Nat.le_refl _⟩

theorem Steady.heat_course {a b : Mach} (h : Steady Pipeline.course a b) : b.heat.course = a.heat.course := congrArg Prod.snd h.view

/-- The work of a frame tick makes its number the frame number. -/
theorem tickWork_lasts (m : Mach) (c : Ctx) (h t : Nat) (b : Bool) (found : List (Nat × Nat)) :
    Lasts m (m.tickWork c h t b found) ∧ (m.tickWork c h t b found).frameNo = h ∧
      (m.tickWork c h t b found).schedState = m.schedState := by
  unfold Mach.tickWork
  extract_lets m1 m2 m3 m4 m5 m6 m7 m8
  have h1 : Steady Pipeline.course (m.setN 0x5000 9 (m.slotsOf h)) m1 := (Steady.refl _ (m.setN 0x5000 9 (m.slotsOf h))).followMode
  clear_value m1
  have h2 : Steady Pipeline.course (m1.accrueOnTime.setN 0x5000 0x0B h) m2 := (Steady.refl _ (m1.accrueOnTime.setN 0x5000 0x0B h)).forgetKnown
  have h3 : Steady Pipeline.course (m1.accrueOnTime.setN 0x5000 0x0B h) m3 := .ite (fun _ => h2.outputsInEffect) (fun _ => h2)
  have h4 : Steady Pipeline.course (m1.accrueOnTime.setN 0x5000 0x0B h) m4 := h3.showUploads.showRegions.showGains
  have h5 : Steady Pipeline.course (m1.accrueOnTime.setN 0x5000 0x0B h) m5 := h4.observeStage.sendPreviews.finishUnheals.latchViews
  have h6 : Steady Pipeline.course (m1.accrueOnTime.setN 0x5000 0x0B h) m6 := h5.judgeStatus.followTiles.frameCommons.evaluateBands
  have h7 : Steady Pipeline.restart m6.latchTemps m7 := onHeat_restart ..
  have h8 : Steady Pipeline.course m7 ((m8.resumeJobs.setN 0x5300 7 (clusterClock m8.stage)).sendCyclic c h t) :=
    (Steady.setN (by omega) (Steady.refl _ m7).updateLedger.fettle.resumeJobs).sendCyclic
  have hlast := (h6.latchTemps.numbered.restart.trans h7).trans h8.numbered.restart
  refine ⟨(((Lasts.setN m _ _ _).trans h1.accrueOnTime.numbered.restart.lasts).trans (.setN _ _ _ _)).trans hlast.lasts, ?_, ?_⟩
  · exact hlast.frameNo.trans (Mach.setN_objN_same ..)
  · exact hlast.schedState.trans ((Mach.setN_objN_ne _ _ _ _ _ (by decide)).trans
      (h1.accrueOnTime.schedState.trans (Mach.setN_objN_ne _ _ _ _ _ (by decide))))

/-! ### Heats that begin -/

theorem Steady.noteTick {α : Type} {v : Pipeline → α} {a m : Mach} {n : Nat} (h : Steady v a m) : Steady v a (m.noteTick n) := by
  unfold Mach.noteTick
  exact h.onPtp

/-- A heat that begins runs under its number from its instant, unresolved. -/
structure Began (a : Mach) (n t : Nat) (b : Mach) : Prop where
  steady : Steady Pipeline.restart a b
  course : b.heat.course = (true, n, t, false)

theorem latchHeat_restart (m : Mach) (n t : Nat) : Steady Pipeline.restart m (m.latchHeat n t) := ⟨rfl, rfl, rfl, fun _ _ _ => rfl, Nat.le_refl _⟩

theorem latchHeat_course (m : Mach) (n t : Nat) : (m.latchHeat n t).heat.course = (true, n, t, false) := rfl

/-- What a heat binds once it has latched its settings; `told` are the filter sets replaced before. -/
def Mach.bindHeat (m : Mach) (told : List Nat) (n : Nat) (restarted : Bool) : Mach :=
  let m := m.recordFrom n
  let m := m.setN 0x5300 2 (contextCapacity m.heat.shear)
  let m := each told m (fun m s => m.raise 0x6015 s [(8, n), (1, s)])
  let m := (m.latchDescriptors n restarted).dropMisfits
  let m := each (upTo 64) m (fun m k => m.snapLayer n k)
  let m := m.bindGraphics n
  let m := m.freeContexts.makePours.squash
  let m := m.armCapture n
  let m := if m.coreUp 2 then m.beginCheckpoints n 4 else m
  m.assign.rescheduleAll

theorem beginHeat_eq (m : Mach) (n t : Nat) (restarted : Bool) : m.beginHeat n t restarted =
    m.applyMap.joinTiles.on (fun m => ((m.bindGains n).latchHeat n t).bindHeat (m.bindGains n).pipe.newSets n restarted) := rfl

theorem Steady.bindHeat {a m : Mach} {told : List Nat} {n : Nat} {restarted : Bool} (h : Steady Pipeline.course a m) :
    Steady Pipeline.course a (m.bindHeat told n restarted) := by
  unfold Mach.bindHeat
  extract_lets m1 m2 m3 m4 m5 m6 m7 m8 m9
  have h1 : Steady Pipeline.course a m1 := h.recordFrom
  have h3 : Steady Pipeline.course a m3 := .each _ (fun _ _ => .raise (by omega)) (h1.setN (by omega))
  have h5 : Steady Pipeline.course a m5 := h3.latchDescriptors.dropMisfits.each _ fun _ _ => .snapLayer
  have h7 : Steady Pipeline.course a m7 := h5.bindGraphics.freeContexts.makePours.squash
  have h9 : Steady Pipeline.course a m9 := .ite (fun _ => h7.armCapture.beginCheckpoints) (fun _ => h7.armCapture)
  exact h9.assign.rescheduleAll

theorem Steady.latched {a m : Mach} (h : Steady Pipeline.course a m) (n t : Nat) : Began a n t (m.latchHeat n t) :=
  ⟨h.numbered.restart.trans (latchHeat_restart m n t), latchHeat_course m n t⟩

theorem Eff.on_steady {α : Type} {v : Pipeline → α} {a : Mach} {e : Eff} {f : Mach → Mach} (hlife : e.life = none)
    (h : Steady v a (f e.m)) : SteadyE v a (e.on f) := ⟨hlife, h⟩

theorem beginHeat_began {m : Mach} (n t : Nat) (restarted : Bool) :
    ∃ b, Began m n t b ∧ SteadyE Pipeline.course b (m.beginHeat n t restarted) := by
  have hjoined := (Steady.refl Pipeline.course m).applyMap.joinTiles
  rw [beginHeat_eq]
  generalize m.applyMap.joinTiles = e at hjoined
  obtain ⟨hlife, hjoined⟩ := hjoined
  exact ⟨_, hjoined.bindGains.latched n t, Eff.on_steady hlife (Steady.refl _ _).bindHeat⟩

theorem nextHeat_began {m : Mach} {c : Ctx} (n t : Nat) (restarted : Bool) :
    ∃ b, Began m (n + 1) t b ∧ SteadyE Pipeline.course b (m.nextHeat c n t restarted) := by
  obtain ⟨b, hbegan, hlast⟩ := beginHeat_began (m := m.noteTick n) (n + 1) t restarted
  refine ⟨b, ⟨(Steady.refl _ m).noteTick.trans hbegan.steady, hbegan.course⟩, ?_⟩
  unfold Mach.nextHeat
  extract_lets k e
  have he : SteadyE Pipeline.course b e := .foldl _ (fun _ _ hx => hx.then_ fun _ hn => hn.playClip _) hlast
  exact he.on fun _ hn => hn.feedEngines.feedEncode

/-- What the next heat of a tick leaves: the frame, the state of the schedule, and the heat that runs. -/
structure Heated (st f t : Nat) (e : Eff) : Prop where
  life : e.life = none
  frameNo : e.m.frameNo = f
  schedState : e.m.schedState = st
  course : e.m.heat.course = (true, f + 1, t, false)

theorem nextHeat_heated {m : Mach} {c : Ctx} {f t : Nat} {restarted : Bool} (hf : m.frameNo = f) :
    Heated m.schedState f t (m.nextHeat c f t restarted) ∧ Lasts m (m.nextHeat c f t restarted).m := by
  obtain ⟨b, hbegan, hlast⟩ := nextHeat_began (m := m) (c := c) f t restarted
  have hsteady := hbegan.steady.trans hlast.steady.numbered.restart
  exact ⟨⟨hlast.life, hsteady.frameNo.trans hf, hsteady.schedState, hlast.steady.heat_course.trans hbegan.course⟩, hsteady.lasts⟩

/-- A tick of the schedule while neither a restart nor a stop waits. -/
theorem runningTick_heated {m : Mach} {c : Ctx} {f t : Nat} {b : Bool} {found : List (Nat × Nat)} (hrestart : m.pipe.restart = none)
    (hstop : m.power_.stop = none) : Heated 2 f t (m.runningTick c f t b found) := by
  obtain ⟨hlasts, hframe, -⟩ := tickWork_lasts m c f t b found
  unfold Mach.runningTick
  dsimp only
  rw [hlasts.restart, hrestart, hlasts.stop, hstop]
  have hstate : ((m.tickWork c f t b found).setN 0x5000 0x0A 2).schedState = 2 := Mach.setN_objN_same ..
  have hheated := (nextHeat_heated (c := c) (t := t) (restarted := false) ((Mach.setN_objN_ne (m.tickWork c f t b found) 0x5000 0x0A 2 0
    (jx := 0x5000) (tub := 0x0B) (cank := 0) (by decide)).trans hframe)).1
  rwa [hstate] at hheated

/-! ### Heats that start again -/

theorem Steady.agePast {α : Type} {v : Pipeline → α} {a m : Mach} (h : Steady v a m) : Steady v a m.agePast := h.keep rfl

/-- The start of heats: what it leaves of the boot and of a restart, and the event it raises. -/
theorem startHeats_heated (m : Mach) (c : Ctx) (f t : Nat) (b : Bool) (found : List (Nat × Nat)) :
    Heated (if m.boot.starting then 1 else 2) f t (m.startHeats c f t b found) ∧
      (m.startHeats c f t b found).m.boot.heatsFrom = none ∧ (m.startHeats c f t b found).m.pipe.restart = none ∧
      m.jrn.newest < (m.startHeats c f t b found).m.jrn.newest := by
  unfold Mach.startHeats
  extract_lets reason m1 m2 m3 boot m4 m5 m6
  have h1 : m1.boot = m.boot ∧ m1.jrn = m.jrn := by
    unfold m1 Mach.bringIn Mach.bumpSat
    split <;> simp
  obtain ⟨hboot, hjrn⟩ := h1
  clear_value m1
  have hstate : m4.schedState = if m.boot.starting then 1 else 2 := by
    rw [← hboot]
    exact Mach.setN_objN_same ..
  have hnewest : m4.jrn.newest = m.jrn.newest := by rw [← hjrn]; rfl
  have hrestart : m4.pipe.restart = none := rfl
  have hfrom : m4.boot.heatsFrom = none := rfl
  clear_value m4
  have h5 : Steady Pipeline.course m4 m5 := (Steady.refl _ m4).onThermal.followCommons
  have h6 : Steady Pipeline.course m4 (m5.agePast.rewindClips f) := h5.agePast.rewindClips
  have hraised : m4.jrn.newest < m6.jrn.newest := Nat.lt_succ_of_le h6.newest
  have h7 : Steady Pipeline.course m4 m6 := h6.raise (by omega)
  clear_value m6
  obtain ⟨hlasts, hframe, hsched⟩ := tickWork_lasts (m6.setN 0x5000 9 m6.slotsFor) c f t b found
  have hstarted : ((m6.setN 0x5000 9 m6.slotsFor).tickWork c f t b found).schedState = if m.boot.starting then 1 else 2 := by
    rw [hsched, Mach.schedState, Mach.setN_objN_ne _ _ _ _ _ (by decide)]
    exact h7.schedState.trans hstate
  obtain ⟨hheated, hnext⟩ := nextHeat_heated (c := c) (t := t) (restarted := true) hframe
  have hall := ((h7.numbered.restart.lasts.trans (.setN _ _ _ _)).trans hlasts).trans hnext
  refine ⟨hstarted ▸ hheated, by rw [hall.boot, hfrom], hall.restart.trans hrestart, ?_⟩
  exact (hnewest ▸ hraised).trans_le (hlasts.newest.trans hnext.newest)

end Sys2Proof.Machine

/-! FRAME_TICK by the state of the schedule, and the slots of a frame (R76, R78, R79, R81). -/

namespace Sys2Proof.Machine

/-! ### FRAME_TICK -/

/-- A command with effects on memory that keeps the life of the machine. -/
theorem runs_of_life {f : Ctx → Mach → Eff} {s : State} {P : State → Prop} (hlife : (f s.ctx s.m).life = none)
    (hP : ∀ t : State, t.m = (f s.ctx s.m).m → t.life = s.life → P t) : ∃ t, liftE f s = .next t ∧ P t := by
  refine ⟨_, rfl, hP _ rfl ?_⟩
  show s.life.after (f s.ctx s.m).life = s.life
  rw [hlife]
  rfl

theorem watchCal_self (m : Mach) : m.watchCal m = m := if_neg fun h => h.2.2 h.2.1

theorem frameTick_early {b : Bool} {l : List (Nat × Nat)} {c : Ctx} {m : Mach} {f u : Nat} (hnext : m.nextTick = some (f, u))
    (hearly : m.timeWord < u) : tickComes b l c m = .of m := by
  have htick : frameTick_ b l c m = .of m := by
    unfold frameTick_
    rw [hnext]
    exact if_pos hearly
  rw [tickComes, htick, Eff.on, Eff.of, watchCal_self]

theorem frameTick_running {b : Bool} {l : List (Nat × Nat)} {c : Ctx} {m : Mach} {f u : Nat} (hnext : m.nextTick = some (f, u))
    (hdue : u ≤ m.timeWord) (hstart : m.startTick = none) : frameTick_ b l c m =
      (commitPoint c m).then_ (fun n => n.runningTick { c with mem := memApply c.mem (commitPoint c m).writes } f u b l) := by
  unfold frameTick_
  rw [hnext]
  dsimp only
  rw [if_neg (by omega), hstart]
  rfl

theorem frameTick_start {b : Bool} {l : List (Nat × Nat)} {c : Ctx} {m : Mach} {f u : Nat} (hstart : m.startTick = some (f, u))
    (hdue : u ≤ m.timeWord) (hstop : m.stopping = false) (hhold : m.thermalHold = false) :
    frameTick_ b l c m = m.startHeats c f u b l := by
  have hnext : m.nextTick = some (f, u) := by rw [Mach.nextTick, hstart]
  unfold frameTick_
  rw [hnext]
  dsimp only
  rw [if_neg (by omega), hstart, hstop, hhold]
  rfl

theorem then_heated {e : Eff} {st f t : Nat} {g : Mach → Eff} (hlife : e.life = none) (h : Heated st f t (g e.m)) :
    Heated st f t (e.then_ g) := by
  refine ⟨?_, h.frameNo, h.schedState, h.course⟩
  unfold Eff.then_
  dsimp only
  rw [h.life]
  exact hlife

theorem Heated.trans {e k : Eff} {st f t : Nat} (h : Heated st f t e) (hk : SteadyE Pipeline.course e.m k) : Heated st f t k :=
  ⟨hk.life, hk.steady.frameNo.trans h.frameNo, hk.steady.schedState.trans h.schedState, hk.steady.heat_course.trans h.course⟩

theorem Heated.watched {e : Eff} {st f t : Nat} (old : Mach) (h : Heated st f t e) : Heated st f t (e.on old.watchCal) :=
  h.trans (Eff.on_steady h.life (Steady.refl _ e.m).watchCal)

/-- A tick of the schedule with nothing that waits. -/
theorem tickComes_running {b : Bool} {l : List (Nat × Nat)} {c : Ctx} {m : Mach} {f u : Nat} (hnext : m.nextTick = some (f, u))
    (hdue : u ≤ m.timeWord) (hstart : m.startTick = none) (hstop : m.power_.stop = none) (hrestart : m.pipe.restart = none) :
    Heated 2 f u (tickComes b l c m) := by
  obtain ⟨hlife, hkept, hstill⟩ := commitPoint_kept c m
  rw [tickComes, frameTick_running hnext hdue hstart]
  refine Heated.watched m (then_heated hlife ?_)
  exact runningTick_heated (hkept.trans hrestart) (hstill.trans hstop)

/-! ### SLOT_TICK -/

/-- From one block to the next the pipeline, the count of slots and the clock are as they were. -/
structure Slots (a b : Mach) : Prop where
  pipe : b.pipe = a.pipe
  count : b.panel.g = a.panel.g
  clk : b.clk = a.clk

section Slots
variable {a m : Mach}

theorem Slots.ite {c : Prop} [Decidable c] {x y : Mach} (hx : Slots a x) (hy : Slots a y) : Slots a (if c then x else y) :=
  iteInduction (fun _ => hx) (fun _ => hy)

theorem Slots.each {α : Type} {f : Mach → α → Mach} (l : List α) (hf : ∀ n x, Slots a n → Slots a (f n x)) (h : Slots a m) :
    Slots a (each l m f) := List.foldlRecOn l f (motive := fun n => Slots a n) h fun n hn x _ => hf n x hn

theorem Slots.onPanel {f : Panel → Panel} (hf : ∀ x, (f x).g = x.g) (h : Slots a m) : Slots a (m.onPanel f) :=
  ⟨h.pipe, (hf _).trans h.count, h.clk⟩

theorem Slots.onCommon {n : Nat} {f : Common → Common} (h : Slots a m) : Slots a (m.onCommon n f) := h.onPanel fun _ => rfl

theorem Slots.applyArmed (h : Slots a m) : Slots a m.applyArmed :=
  .each _ (fun _ _ => .onCommon) (.onPanel (fun _ => rfl) (h.each _ fun _ _ hn => hn.onPanel fun _ => rfl))

theorem Slots.set {ix sub : Nat} {x : Int} (h : Slots a m) : Slots a (m.set ix sub x) := ⟨h.pipe, h.count, h.clk⟩

theorem Slots.bump {ix sub : Nat} (h : Slots a m) : Slots a (m.bump ix sub) := h.set

theorem Slots.raise {code inst : Nat} {d : List (Nat × Nat)} (h : Slots a m) : Slots a (m.raise code inst d) := ⟨h.pipe, h.count, h.clk⟩

theorem Slots.emit {o : Out} (h : Slots a m) : Slots a (m.emit o) := ⟨h.pipe, h.count, h.clk⟩

theorem Slots.counted {k g : Nat} {clk : Clk} (h : Slots a m) (hslot : a.pipe.slot = k) (hcount : a.panel.g = g) (hclk : a.clk = clk) :
    m.pipe.slot = k ∧ m.panel.g = g ∧ m.clk = clk := ⟨by rw [h.pipe, hslot], h.count.trans hcount, h.clk.trans hclk⟩

end Slots

/-- A slot whose tick has come is set and counted. -/
theorem slotTick_slots {k : Nat} {l : List Int} {m : Mach} (hon : m.scheduled = true) (hstart : m.startTick = none)
    (hk : k < m.objN 0x5000 9) (hdue : m.slotAt m.frameNo k ≤ m.timeWord) :
    (slotTick_ k l m).pipe.slot = k ∧ (slotTick_ k l m).panel.g = m.panel.g + 1 ∧ (slotTick_ k l m).clk = m.clk := by
  have hpast : ¬ (!m.scheduled ∨ m.startTick.isSome ∨ m.objN 0x5000 9 ≤ k ∨ m.timeWord < m.slotAt m.frameNo k) := by
    simp [hon, hstart]; omega
  unfold slotTick_
  rw [if_neg hpast]
  extract_lets slots m1 pipe m2 m3 m4 m5 driving m6 wide free m7 lens drive m8
  have h1 : Slots m m1 := .ite ⟨rfl, rfl, rfl⟩ (Slots.applyArmed ⟨rfl, rfl, rfl⟩)
  clear_value m1
  have hslot : m3.pipe.slot = k := rfl
  have hcount : m3.panel.g = m.panel.g + 1 := congrArg (· + 1) h1.count
  have hclk : m3.clk = m.clk := h1.clk
  have h3 : Slots m3 m3 := ⟨rfl, rfl, rfl⟩
  clear_value m3
  have h4 : Slots m3 m4 := .bump (h3.each _ fun n x hn => .ite hn.onCommon hn)
  have h5 : Slots m3 m5 := .ite h3 (h4.onPanel fun _ => rfl)
  have h6 : Slots m3 m6 := h5.each _ fun _ _ => .set
  have h7 : Slots m3 m7 := h6.onPanel fun _ => rfl
  have h8 : Slots m3 m8 := .ite h7 h7.emit
  refine Slots.counted (a := m3) (.ite h8 (h8.each _ fun n x hn => ?_)) hslot hcount hclk
  refine .ite hn.onCommon ?_
  exact .ite hn.onCommon.raise.onCommon hn.onCommon

end Sys2Proof.Machine

/-! The late cut-off and its decision (R82, R83, R96), and the writes of the schedule (R76, R80). -/

namespace Sys2Proof.Machine

/-! ### LATE_CUT_OFF -/

theorem lateCutOff_due {m : Mach} (hrunning : m.heat.running = true) (hresolved : m.heat.resolved = false) (hcut : m.heat.cutOff = false)
    (hdue : m.cutOffAt ≤ m.timeWord) : ¬ (!m.heat.running ∨ m.heat.resolved ∨ m.heat.cutOff ∨ m.timeWord < m.cutOffAt) := by
  simp [hrunning, hresolved, hcut, hdue]

/-- A heat at its late cut-off. -/
def Mach.cut (m : Mach) : Mach := m.onHeat (fun h => { h with cutOff := true })

/-- Without late layers to decide on, the cut-off decides nothing. -/
theorem lateCutOff_undecided {m : Mach} (hdue : ¬ (!m.heat.running ∨ m.heat.resolved ∨ m.heat.cutOff ∨ m.timeWord < m.cutOffAt))
    (hnone : m.heat.late = 0 ∨ m.lateComplete = [] ∨ m.heat.decision.isSome = true) :
    lateCutOff m = m.cut ∨ lateCutOff m = m.endProvisional.cut := by
  unfold lateCutOff
  rw [if_neg hdue]
  by_cases hundecided : m.undecided = true
  · have hempty : m.lateComplete = [] := by
      simp only [Mach.undecided, Bool.and_eq_true, bne_iff_ne, Option.isNone_iff_eq_none] at hundecided
      obtain ⟨⟨⟨-, hdecision⟩, -⟩, hlate⟩ := hundecided
      simpa [hdecision, hlate] using hnone
    rw [if_pos hundecided, hempty]
    exact .inr rfl
  · rw [if_neg hundecided]
    dsimp only
    split
    · exact .inr rfl
    · exact .inl rfl

theorem lateCutOff_decided {m : Mach} (hdue : ¬ (!m.heat.running ∨ m.heat.resolved ∨ m.heat.cutOff ∨ m.timeWord < m.cutOffAt))
    (hundecided : m.undecided = true) (hlate : m.lateComplete ≠ []) : lateCutOff m = (m.decide_ m.lateComplete).cut := by
  unfold lateCutOff
  rw [if_neg hdue, if_pos hundecided]
  dsimp only
  split
  · contradiction
  · rfl

/-- The decision on late layers. -/
def Pipeline.decision (p : Pipeline) : Option (Nat × Nat) := p.heat.decision

theorem Steady.onHeatDecision {a m : Mach} {f : Heat → Heat} (hf : ∀ x, (f x).decision = x.decision) (h : Steady Pipeline.decision a m) :
    Steady Pipeline.decision a (m.onHeat f) := h.trans ⟨hf m.heat, rfl, rfl, fun _ _ _ => rfl, Nat.le_refl _⟩

theorem Steady.rescheduleDecision {a m : Mach} (h : Steady Pipeline.decision a m) : Steady Pipeline.decision a m.assign.rescheduleAll :=
  (h.trans (assign_steady (fun _ _ _ _ => rfl) m)).trans ((Looks.rescheduleAll m.assign).steady fun _ _ _ _ => rfl)

/-- The decision is taken at the instant of the frame tick, in microseconds. -/
theorem decide_instant (m : Mach) (v2 : List (Nat × Bound)) : (m.decide_ v2).heat.decision.map Prod.fst = some m.tHus := by
  suffices h : ∃ n : Mach, n.heat.decision.map Prod.fst = some m.tHus ∧ Steady Pipeline.decision n (m.decide_ v2) by
    obtain ⟨n, hn, hsteady⟩ := h
    have hview : (m.decide_ v2).heat.decision = n.heat.decision := hsteady.view
    rw [hview, hn]
  unfold Mach.decide_
  extract_lets m1 set_ hit hits most ok m2 m3 first peak2 m4
  refine ⟨m2, rfl, ?_⟩
  have h3 : Steady Pipeline.decision m2 m3 := by
    refine Steady.each _ (fun n k hn => .markBusy ?_) (.refl _ m2)
    split
    · exact hn.markBusy
    · exact hn
  have h4 : Steady Pipeline.decision m2 m4 := h3.onHeatDecision fun _ => rfl
  clear_value m4
  refine .ite (fun _ => h3.raise (by omega)) fun _ => ?_
  exact (h4.onHeatDecision fun _ => by rfl).rescheduleDecision

/-! ### Writes of the schedule -/

/-- SCHEDULE_APPLY is the write of 0x5000:05. -/
theorem run_scheduleApply {p : Put} (hix : p.ix = 0x5000) (hsub : p.sub = 5) (m : Mach) : p.run m = actM m.applySchedule := by
  simp [Put.run, Put.sessions, Put.supply, Put.times, Put.ports, Put.schedule, hix, hsub]

/-- SLOTS_REQUESTED is the write of 0x5000:04. -/
theorem run_slotsRequested {p : Put} (hix : p.ix = 0x5000) (hsub : p.sub = 4) (m : Mach) : p.run m = actM (m.requestSlots p.n) := by
  simp [Put.run, Put.sessions, Put.supply, Put.times, Put.ports, Put.schedule, hix, hsub]

/-- The schedule that the objects 0x5000:01 to 0x5000:04 state keeps the margins. -/
abbrev Mach.scheduleFits (m : Mach) : Bool :=
  scheduleAllowed (m.objN 0x5000 2) (m.objN 0x5000 3) (m.objN 0x5000 4) (m.objN 0x5001 1) (m.objN 0x5001 2)

theorem applySchedule_refused {m : Mach} (h : m.scheduleFits = false) : m.applySchedule = .error abInconsistent := by
  unfold Mach.applySchedule
  exact if_pos (by simpa using h)

/-- While STOPPED the schedule is in force at once. -/
theorem applySchedule_stopped {m : Mach} (h : m.scheduleFits = true) (hoff : m.scheduled = false) :
    m.applySchedule = .ok (m.bringIn (m.objN 0x5000 1) (m.objN 0x5000 2) (m.objN 0x5000 3)) := by
  unfold Mach.applySchedule
  dsimp only
  rw [if_neg (by simpa using h), if_pos (by simpa using hoff)]

theorem bringIn_inForce (m : Mach) (e n d : Nat) : (m.bringIn e n d).inForce = (e, n, d) := by
  have hkey : ∀ i j : Nat, i ≠ j → okey 0x5000 i ≠ okey 0x5000 j := fun i j hij => by rw [okey, okey]; omega
  simp only [Mach.bringIn, Mach.inForce, Mach.sets, List.foldl_cons, List.foldl_nil]
  rw [Mach.set_objN_ne _ _ _ _ _ (hkey 6 8 (by decide)), Mach.set_objN_ne _ _ _ _ _ (hkey 6 7 (by decide)),
    Mach.set_objN_ne _ _ _ _ _ (hkey 7 8 (by decide))]
  simp

theorem bringIn_schedState (m : Mach) (e n d : Nat) : (m.bringIn e n d).schedState = m.schedState := by
  rw [Mach.schedState, Mach.objN, Mach.bringIn, sets_obj_of_forall_ne _ _ (by simp)]
  rfl

/-- The restart that a schedule begins while heats run. -/
def Mach.restartOf (m : Mach) : Restart :=
  { phase := 1, t1 := m.tickAt (m.frameNo + 1), t2 := m.tickAt (m.frameNo + 2), after := m.tickAt (m.frameNo + 2) + us 1000, reason := 0,
    epoch := m.objN 0x5000 1, num := m.objN 0x5000 2, den := m.objN 0x5000 3 }

/-- While heats run a restart brings the schedule in. -/
theorem applySchedule_running {m : Mach} (h : m.scheduleFits = true) (hon : m.scheduled = true) (hrestart : m.pipe.restart = none) :
    m.applySchedule = .ok (((m.onPipe (fun p => { p with restart := some m.restartOf })).setN 0x5000 0x0A 3).endCapture 3) := by
  unfold Mach.applySchedule
  dsimp only
  rw [if_neg (by simpa using h), if_neg (by simpa using hon), hrestart]
  rfl

/-- A restart that begins leaves the schedule in force. -/
theorem restarted_steady (m : Mach) (r : Restart) :
    ((m.onPipe (fun p => { p with restart := some r })).setN 0x5000 0x0A 3 |>.endCapture 3).schedState = 3 ∧
    ((m.onPipe (fun p => { p with restart := some r })).setN 0x5000 0x0A 3 |>.endCapture 3).pipe.restart = some r ∧
    ((m.onPipe (fun p => { p with restart := some r })).setN 0x5000 0x0A 3 |>.endCapture 3).inForce = m.inForce := by
  have hset : ((m.onPipe (fun p => { p with restart := some r })).setN 0x5000 0x0A 3).inForce = m.inForce := by
    simp only [Mach.inForce]
    rw [Mach.setN_objN_ne _ _ _ _ _ (by decide), Mach.setN_objN_ne _ _ _ _ _ (by decide), Mach.setN_objN_ne _ _ _ _ _ (by decide)]
    rfl
  have hstate : ((m.onPipe (fun p => { p with restart := some r })).setN 0x5000 0x0A 3).schedState = 3 := Mach.setN_objN_same ..
  have hrestart : ((m.onPipe (fun p => { p with restart := some r })).setN 0x5000 0x0A 3).pipe.restart = some r := rfl
  generalize (m.onPipe (fun p => { p with restart := some r })).setN 0x5000 0x0A 3 = n at *
  have hend : Steady id n (n.endCapture 3) := (Steady.refl _ n).endCapture
  refine ⟨hend.schedState.trans hstate, ?_, ?_⟩
  · rw [show (n.endCapture 3).pipe = n.pipe from hend.view, hrestart]
  · rw [← hset]
    exact congrArg₂ Prod.mk (hend.objN 0x500006 (by omega) (by omega))
      (congrArg₂ Prod.mk (hend.objN 0x500007 (by omega) (by omega)) (hend.objN 0x500008 (by omega) (by omega)))

end Sys2Proof.Machine

/-! O15: the schedule of heats. -/

namespace Sys2Proof.Machine

/-- A command on the block alone. -/
theorem runs_of_lift {f : Ctx → Mach → Mach} {s : State} {P : State → Prop} (hP : P { s with m := f s.ctx s.m }) :
    ∃ t, lift f s = .next t ∧ P t := ⟨_, lift_next f s, hP⟩

section Writes
variable {a b : Mach} (h : SameBut a b)
include h

theorem SameBut.pipe : a.pipe = b.pipe := by have := congrArg Mach.pipe h; exact this

theorem SameBut.objN_eq (ix sub : Nat) : a.objN ix sub = b.objN ix sub := Mach.objN_congr h.od ix sub 0

theorem SameBut.inForce : a.inForce = b.inForce := by simp only [Mach.inForce, h.objN_eq]

end Writes

/-- Settles O15: the ticks by the state of the schedule, the cut-off and the commit point, and the writes through their rules. -/
theorem heatsFollowTheSchedule : Obligations.HeatsFollowTheSchedule := by
  unfold Obligations.HeatsFollowTheSchedule
  refine ⟨?tick, ?start, ?early, ?slot, ?undecided, ?decided, ?commit, ?unchanged, ?stopped, ?running, ?refused, ?slots, ?tooMany⟩
  case tick =>
    intro s b l f u hnext hdue hstart hstop hrestart
    obtain ⟨hlife, hframe, hstate, hcourse⟩ := tickComes_running (b := b) (l := l) (c := s.ctx) hnext hdue hstart hstop hrestart
    simp only [Heat.course, Prod.mk.injEq] at hcourse
    obtain ⟨hrunning, hnumber, hbegan, hresolved⟩ := hcourse
    refine runs_of_life (f := tickComes b l) hlife fun t hm hlife => ?_
    rw [hm]
    exact ⟨hframe, hstate, hrunning, hnumber, hbegan, hresolved, hlife⟩
  case start =>
    intro s b l f u hstart hdue hstop hhold
    obtain ⟨hheated, hfrom, hrestart, hnewest⟩ := startHeats_heated s.m s.ctx f u b l
    rw [← frameTick_start hstart hdue hstop hhold] at hheated hfrom hrestart hnewest
    obtain ⟨hlife, hframe, hstate, hcourse⟩ := hheated.watched s.m
    simp only [Heat.course, Prod.mk.injEq] at hcourse
    obtain ⟨hrunning, hnumber, hbegan, -⟩ := hcourse
    have hwatched := (Steady.refl Pipeline.course (frameTick_ b l s.ctx s.m).m).watchCal (old := s.m)
    refine runs_of_life (f := tickComes b l) hlife fun t hm _ => ?_
    rw [hm]
    refine ⟨hframe, hstate, hrunning, hnumber, hbegan, ?_, ?_, hnewest.trans_le hwatched.newest⟩
    · rw [← hfrom]
      exact congrArg Boot.heatsFrom hwatched.boot
    · exact hwatched.numbered.restart.view.trans hrestart
  case early =>
    intro s b l f u hnext hearly
    exact runs_of_eff (f := tickComes b l) (frameTick_early hnext hearly) rfl
  case slot =>
    intro s k l hon hstart hk hdue
    exact runs_of_lift (f := fun _ => slotBegins k l) (slotTick_slots hon hstart hk hdue)
  case undecided =>
    intro s hrunning hresolved hcut hdue hnone
    refine runs_of_lift (f := fun _ => lateCutOff) ?_
    obtain h | h := lateCutOff_undecided (lateCutOff_due hrunning hresolved hcut hdue) hnone <;>
    · rw [h]
      exact ⟨rfl, rfl, rfl⟩
  case decided =>
    intro s hrunning hresolved hcut hdue hlate hcomplete hdecision
    refine runs_of_lift (f := fun _ => lateCutOff) ?_
    have hundecided : s.m.undecided = true := by simp [Mach.undecided, hrunning, hresolved, hcut, hlate, hdecision]
    rw [lateCutOff_decided (lateCutOff_due hrunning hresolved hcut hdue) hundecided hcomplete]
    exact ⟨rfl, decide_instant s.m s.m.lateComplete⟩
  case commit =>
    intro s hrunning hresolved hdue
    obtain ⟨hlife, hposted⟩ := commitPoint_posted (c := s.ctx) (m := s.m) (by simp [hrunning, hresolved, hdue])
    refine runs_of_life (f := commitPoint) hlife fun t hm hlife => ?_
    rw [hm]
    exact ⟨hposted.resolved, hposted.posted, hposted.number, hlife⟩
  case unchanged =>
    intro s hnot
    refine runs_of_eff (f := commitPoint) (m := s.m) (if_pos ?_) rfl
    obtain h | h | h := hnot <;> simp [h]
  case stopped =>
    intro s w p m h hfits hoff
    have hrun : p.run m = act _ := (run_scheduleApply h.put.2.1 h.put.2.2.1 m).trans (congrArg actM (applySchedule_stopped hfits hoff))
    refine h.runs_act (by decide) hrun fun n hn => ⟨?_, ?_, rfl⟩
    · exact hn.inForce.trans (bringIn_inForce ..)
    · refine (hn.objN_eq ..).trans ((bringIn_schedState ..).trans ?_)
      simpa [Mach.scheduled] using hoff
  case running =>
    intro s w p m h hfits hon hrestart
    obtain ⟨hstate, hbegun, hforce⟩ := restarted_steady m m.restartOf
    have hrun : p.run m = act _ := (run_scheduleApply h.put.2.1 h.put.2.2.1 m).trans (congrArg actM (applySchedule_running hfits hon hrestart))
    refine h.runs_act (by decide) hrun fun n hn => ?_
    have hnow : n.pipe.restart = some m.restartOf := by rw [hn.pipe, hbegun]
    refine ⟨(hn.objN_eq ..).trans hstate, ?_, ?_, hn.inForce.trans hforce, rfl⟩ <;> dsimp only <;> rw [hnow] <;> rfl
  case refused =>
    intro s w p m h hfits
    have hrun : p.run m = .error abInconsistent := (run_scheduleApply h.put.2.1 h.put.2.2.1 m).trans (congrArg actM (applySchedule_refused hfits))
    exact h.runs_refused (by decide) hrun fun n hn => ⟨hn, rfl⟩
  case slots =>
    intro s w p m h hrate
    have hrun : p.run m = act (m.setN 0x5000 4 p.n) :=
      (run_slotsRequested h.put.2.1 h.put.2.2.1 m).trans (congrArg actM (if_pos hrate))
    refine h.runs_act (by decide) hrun fun n hn => ⟨?_, ?_, rfl⟩
    · exact (hn.objN_eq ..).trans (Mach.setN_objN_same ..)
    · exact (hn.objN_eq ..).trans (Mach.setN_objN_ne _ _ _ _ _ (by decide))
  case tooMany =>
    intro s w p m h hrate
    have hrun : p.run m = .error abInconsistent :=
      (run_slotsRequested h.put.2.1 h.put.2.2.1 m).trans (congrArg actM (if_neg (by omega)))
    exact h.runs_refused (by decide) hrun fun n hn => ⟨hn, rfl⟩

end Sys2Proof.Machine

/-! A plane set that is read as poison withdraws the segments of its pour from their lane (R157, R273), and O42. -/

namespace Sys2Proof.Machine

/-- The pour of panel position 0: three of its hogel rows were rendered and sent before its cluster failed, and it waits to be rendered
on from the fourth (R167). -/
def reissuedPour : Pour := { c := 0, pos := 0, panel := 0, v1 := { state := 4, row := 3, seq := 1 } }

/-- The segment of that pour that waits on the A-lane of chain 0 (R316). -/
def reissuedSegment : Seg := ⟨0, 1, 0, 0, 0, 2, 0, 60, 0, 0, []⟩

/-- A heat with that pour in its list, and one graphic layer. The first 64 bytes of the layer's image that the next plane-set row
needs are poisoned: they lie on physical channel 23 (R258, R271). -/
def lookAheadMeetsPoison : State :=
  let m := State.reset.m
  { State.reset with m := { m with
      scene := { m.scene with gdesc := [{ enable := true }] }
      pipe := { m.pipe with heat := { m.pipe.heat with running := true, pours := [reissuedPour], list := [(0, 1)] } }
      lanes := modAt m.lanes 0 (fun x => { x with staged := [reissuedSegment] })
      dram := { m.dram with chans := modAt m.dram.chans 23 (fun x => { x with poison := [302384128] }) } } }

/-- The lookahead pool of cluster 0 meets the poison, and the segment leaves its lane. -/
theorem staged_lookAheadMeetsPoison :
    (lookAheadMeetsPoison.m.lane 0).staged = [reissuedSegment] ∧
    ((planeSetComplete 0 2 lookAheadMeetsPoison.m).lane 0).staged = [] := by
  decide +kernel

theorem exec_planeSetComplete (c k : Nat) (s : State) :
    ∃ t, exec (.planeSetComplete c k) s = .next t ∧ t.m = planeSetComplete c k s.m := ⟨_, rfl, rfl⟩

/-- Refutes O42: its clause on plane sets says that the lanes stay, but a plane set that is read as poison drops the staged segments of its
pour version from the lane that feeds their tile (R157, R273; `Mach.ladle`). -/
theorem not_dataPathCommandsChangeTheirUnitsOnly : ¬ Obligations.DataPathCommandsChangeTheirUnitsOnly := by
  unfold Obligations.DataPathCommandsChangeTheirUnitsOnly
  rintro ⟨-, -, -, -, -, hplane, -⟩
  obtain ⟨t, hrun, ht⟩ := exec_planeSetComplete 0 2 lookAheadMeetsPoison
  have hlanes : t.m.lanes = lookAheadMeetsPoison.m.lanes := by
    have := congrArg (fun u : State => u.m.lanes) (hplane _ t 0 2 hrun).1
    exact this
  obtain ⟨hbefore, hafter⟩ := staged_lookAheadMeetsPoison
  rw [← ht, Mach.lane, hlanes, ← Mach.lane, hbefore] at hafter
  cases hafter

end Sys2Proof.Machine

/-! Contents that are abandoned, and sources that leave (R116, R124). -/

namespace Sys2Proof.Machine

/-! ### Objects, events and loops -/

/-- An object of a named index is written, in any bank. -/
theorem ObjectsBut.set {l : List (Nat × Nat)} (r : Nat × Nat) (m : Mach) (ix sub : Nat) (v : Int) (bank : Nat) (hr : r ∈ l)
    (hix : r.1 ≤ ix ∧ ix ≤ r.2) (hsmall : ix < 65536 ∧ sub < 256) : ObjectsBut l m (m.set ix sub v bank) := by
  intro k hk
  refine storeGet_set_ne _ _ fun h => ?_
  have hindex : k / 256 % 65536 = ix := by rw [h, okey]; omega
  have := hk r hr
  omega

theorem ObjectsBut.record {l : List (Nat × Nat)} (m : Mach) {code : Nat} (flags supp inst : Nat) (d : List (Nat × Nat))
    (hl : (0x1202, 0x1202) ∈ l) (hcode : code < 0x100000) : ObjectsBut l m (m.record code flags supp inst d) :=
  .trans (b := m.bump 0x1202 (code / 4096)) (.set (0x1202, 0x1202) m _ _ _ _ hl ⟨Nat.le_refl _, Nat.le_refl _⟩ (by omega)) (.of_od rfl)

/-- An object outside the named indices keeps its value, in any bank. -/
theorem ObjectsBut.obj_bank {l : List (Nat × Nat)} {a b : Mach} (h : ObjectsBut l a b) {ix sub bank : Nat}
    (hix : ∀ r ∈ l, ix < r.1 ∨ r.2 < ix) (hsmall : ix < 65536 ∧ sub < 256) : b.obj ix sub bank = a.obj ix sub bank := by
  have hindex : okey ix sub bank / 256 % 65536 = ix := by rw [okey]; omega
  exact h _ (by rwa [hindex])

/-- What one turn of a loop makes true, and the others keep, holds at its end. -/
theorem each_of_mem {α σ : Type} {Q : σ → Prop} {f : σ → α → σ} {l : List α} {x : α} (hx : x ∈ l) (hmake : ∀ s, Q (f s x))
    (hkeep : ∀ s, ∀ y ∈ l, Q s → Q (f s y)) (s : σ) : Q (each l s f) := by
  obtain ⟨before, after, rfl⟩ := List.append_of_mem hx
  rw [each, List.foldl_append, List.foldl_cons]
  exact List.foldlRecOn after f (motive := Q) (hmake _) fun s hs y hy => hkeep s y (by simp [hy]) hs

/-! ### Layers -/

theorem Mach.layer_onLayer (m : Mach) (k : Nat) (f : VLayer → VLayer) (j : Nat) :
    (m.onLayer k f).layer j = if j = k ∧ k < m.scene.layers.length then f (m.layer j) else m.layer j := by
  simp only [Mach.onLayer, Mach.layer, modAt, List.getD_eq_getElem?_getD, List.getElem?_modify]
  by_cases hj : j = k
  · subst hj
    by_cases hk : j < m.scene.layers.length <;> simp [hk]
  · simp [hj, Ne.symm hj]

theorem Mach.onLayer_length (m : Mach) (k : Nat) (f : VLayer → VLayer) :
    (m.onLayer k f).scene.layers.length = m.scene.layers.length := List.length_modify ..

/-- A layer that the block does not have is empty. -/
theorem Mach.layer_of_length_le {m : Mach} {k : Nat} (h : m.scene.layers.length ≤ k) : m.layer k = {} := by
  simp [Mach.layer, List.getD_eq_getElem?_getD, h]

/-- The pending contents of a layer that is changed. -/
theorem Mach.pending_onLayer (m : Mach) (k : Nat) {f : VLayer → VLayer} {g : List Content → List Content}
    (hf : ∀ x, (f x).pending = g x.pending) (hg : g [] = []) (j : Nat) :
    ((m.onLayer k f).layer j).pending = if j = k then g (m.layer j).pending else (m.layer j).pending := by
  rw [Mach.layer_onLayer]
  by_cases hj : j = k
  · subst hj
    by_cases hk : j < m.scene.layers.length
    · simp [hk, hf]
    · simp [hk, Mach.layer_of_length_le (Nat.le_of_not_lt hk), hg]
  · simp [hj]

@[simp] theorem VLayer.note_pending (x : VLayer) (c : Content) (whole : Bool) : (x.note c whole).pending = x.pending := by
  unfold VLayer.note
  split <;> rfl

@[simp] theorem Mach.showPending_scene (m : Mach) (k : Nat) : (m.showPending k).scene = m.scene := Mach.sets_scene ..

theorem ObjectsBut.showPending {l : List (Nat × Nat)} (m : Mach) {k : Nat} (hl : (0x5140, 0x517F) ∈ l) (hk : k < 64) :
    ObjectsBut l m (m.showPending k) := by
  have hset (n : Mach) {sub : Nat} (v : Int) (hsub : sub < 256) : ObjectsBut l n (n.set (0x5140 + k) sub v) :=
    .set (0x5140, 0x517F) n _ _ _ _ hl (by dsimp only; omega) (by omega)
  exact .trans (.trans (.trans (hset _ _ (by omega)) (hset _ _ (by omega))) (hset _ _ (by omega))) (hset _ _ (by omega))

/-! ### Contents that are abandoned -/

/-- Whether two contents are the same in origin and heat. -/
def Content.alike (c y : Content) : Bool := y.origin = c.origin ∧ y.heat = c.heat

/-- A layer without the contents of an origin and heat, which it notes as abandoned (R114, R124). -/
def VLayer.without (x : VLayer) (c : Content) : VLayer := ({ x with pending := x.pending.filter (fun y => !c.alike y) } : VLayer).note c false

theorem Mach.abandon_scene (m : Mach) (k : Nat) (c : Content) (reason : Nat) :
    (m.abandon k c reason).scene = (m.onLayer k (·.without c)).scene := by
  unfold Mach.abandon
  dsimp only
  rw [Mach.raise_scene, Mach.showPending_scene, Mach.bump_scene]
  split <;> rfl

theorem Mach.pending_abandon (m : Mach) (k : Nat) (c : Content) (reason j : Nat) :
    ((m.abandon k c reason).layer j).pending =
      if j = k then (m.layer j).pending.filter (fun y => !c.alike y) else (m.layer j).pending := by
  rw [Mach.layer, Mach.abandon_scene]
  exact m.pending_onLayer k (g := fun l => l.filter (fun y => !c.alike y)) (fun _ => VLayer.note_pending ..) rfl j

/-- From one block to the next pending contents were abandoned: no layer has a new one, and only the objects of the layers and the counts of
events changed. -/
structure Sheds (a b : Mach) : Prop where
  sources : b.scene.sources = a.scene.sources
  layers : b.scene.layers.length = a.scene.layers.length
  pending : ∀ j, ∀ c ∈ (b.layer j).pending, c ∈ (a.layer j).pending
  objects : ObjectsBut [(0x5140, 0x517F), (0x1202, 0x1202)] a b

theorem Sheds.refl (m : Mach) : Sheds m m := ⟨rfl, rfl, fun _ _ h => h, .refl _ m⟩

theorem Sheds.trans {a b c : Mach} (h : Sheds a b) (k : Sheds b c) : Sheds a c :=
  ⟨k.sources.trans h.sources, k.layers.trans h.layers, fun j x hx => h.pending j x (k.pending j x hx), h.objects.trans k.objects⟩

theorem Sheds.abandon (m : Mach) {k : Nat} (hk : k < 64) (c : Content) (reason : Nat) : Sheds m (m.abandon k c reason) where
  sources := by rw [Mach.abandon_scene]; rfl
  layers := by rw [Mach.abandon_scene, Mach.onLayer_length]
  pending j x hx := by
    rw [Mach.pending_abandon] at hx
    split at hx
    · exact List.mem_of_mem_filter hx
    · exact hx
  objects := by
    unfold Mach.abandon
    extract_lets m1 m2 m3
    have hstart : ObjectsBut [(0x5140, 0x517F), (0x1202, 0x1202)] m m2 := by
      refine .of_od ?_
      rw [Mach.onLayer_od]
      unfold m1
      split <;> rfl
    have hcount : ObjectsBut [(0x5140, 0x517F), (0x1202, 0x1202)] m2 (m2.bump (0x5140 + k) 9) :=
      .set (0x5140, 0x517F) m2 _ _ _ _ (by decide) (by dsimp only; omega) (by omega)
    exact .trans (.trans (hstart.trans hcount) (.showPending _ (by decide) hk)) (.record _ _ _ _ _ (by decide) (by decide))

theorem Sheds.each {α : Type} {f : Mach → α → Mach} {l : List α} (hf : ∀ m, ∀ x ∈ l, Sheds m (f m x)) (m : Mach) :
    Sheds m (each l m f) := List.foldlRecOn l f (motive := fun n => Sheds m n) (.refl m) fun n hn x hx => hn.trans (hf n x hx)

theorem Sheds.abandonWhere (m : Mach) {k : Nat} (hk : k < 64) (f : Content → Bool) (reason : Nat) :
    Sheds m (m.abandonWhere k f reason) := .each (fun n c _ => .abandon n hk c reason) m

/-- No content of a layer that satisfies the test is left of those abandoned. -/
theorem abandonWhere_none (m : Mach) {k : Nat} (hk : k < 64) (f : Content → Bool) (reason : Nat) :
    ∀ y ∈ ((m.abandonWhere k f reason).layer k).pending, f y = false := by
  intro y hy
  by_contra hf
  have hlisted : y ∈ (m.layer k).pending.filter f :=
    List.mem_filter.mpr ⟨(Sheds.abandonWhere m hk f reason).pending k y hy, by simpa using hf⟩
  refine each_of_mem (Q := fun n : Mach => y ∉ (n.layer k).pending) hlisted (fun n => ?_)
    (fun n c _ hn hy => hn ((Sheds.abandon n hk c reason).pending k y hy)) m hy
  rw [Mach.pending_abandon, if_pos rfl]
  simp [Content.alike]

/-! ### Sources that leave (R116) -/

/-- A content of a source slot. -/
def Content.ofSlot (slot : Nat) (c : Content) : Bool := match c.origin with
  | .stream sl _ => sl = slot
  | _ => false

/-- The block when a source has left, before its contents are abandoned: its slot not joined, and event 0x7002 raised. -/
def Mach.unjoined (m : Mach) (slot ssrc reason : Nat) : Mach :=
  ((m.setSource slot none).setN 0x4110 6 0 slot).raiseRate 10 0x7002 slot [(2, slot), (4, ssrc), (1, reason)]

theorem leave_of_source {m : Mach} {slot ssrc : Nat} {l : Option Nat × Nat} (h : m.source? slot = some (ssrc, l)) (reason : Nat) :
    m.leave slot reason = each (upTo 64) (m.unjoined slot ssrc reason) (fun m k => m.abandonWhere k (Content.ofSlot slot) 5) := by
  rw [Mach.leave, h]
  rfl

theorem ObjectsBut.raiseRate {l : List (Nat × Nat)} (m : Mach) (n : Nat) {code : Nat} (inst : Nat) (d : List (Nat × Nat))
    (hl : (0x1202, 0x1202) ∈ l) (hcode : code < 0x100000) : ObjectsBut l m (m.raiseRate n code inst d) :=
  iteInduction (motive := fun b => ObjectsBut l m b) (fun _ => .trans (.of_od rfl) (.record _ _ _ _ _ hl hcode)) (fun _ => .of_od rfl)

theorem Mach.raiseRate_scene (m : Mach) (n code inst : Nat) (d : List (Nat × Nat)) : (m.raiseRate n code inst d).scene = m.scene :=
  iteInduction (motive := fun b : Mach => b.scene = m.scene) (fun _ => Mach.record_scene ..) (fun _ => rfl)

theorem unjoined_scene (m : Mach) (slot ssrc reason : Nat) : (m.unjoined slot ssrc reason).scene = (m.setSource slot none).scene := by
  rw [Mach.unjoined, Mach.raiseRate_scene, Mach.setN_scene]

theorem unjoined_objN (m : Mach) (slot ssrc reason : Nat) : (m.unjoined slot ssrc reason).objN 0x4110 6 slot = 0 := by
  have hraised := (ObjectsBut.raiseRate (l := [(0x1202, 0x1202)]) ((m.setSource slot none).setN 0x4110 6 0 slot) 10 (code := 0x7002) slot
    [(2, slot), (4, ssrc), (1, reason)] (by decide) (by decide)).obj_bank (ix := 0x4110) (sub := 6) (bank := slot) (by decide) (by decide)
  rw [Mach.objN, Mach.unjoined, hraised, Mach.setN_obj_same]
  rfl

/-- A source that leaves: its slot is not joined, and none of its contents is pending. -/
theorem leave_left {m : Mach} {slot ssrc : Nat} {l : Option Nat × Nat} (h : m.source? slot = some (ssrc, l)) (reason : Nat) :
    (m.leave slot reason).source? slot = none ∧ (m.leave slot reason).objN 0x4110 6 slot = 0 ∧
    (m.leave slot reason).scene.layers.length = m.scene.layers.length ∧
    ∀ k < 64, ∀ y ∈ ((m.leave slot reason).layer k).pending, y.ofSlot slot = false := by
  have hscene := unjoined_scene m slot ssrc reason
  rw [leave_of_source h]
  have hsheds : Sheds (m.unjoined slot ssrc reason) (each (upTo 64) (m.unjoined slot ssrc reason)
      (fun m k => m.abandonWhere k (Content.ofSlot slot) 5)) :=
    .each (fun n k hk => .abandonWhere n (List.mem_range.mp hk) _ 5) _
  refine ⟨?_, ?_, ?_, fun k hk => ?_⟩
  · rw [Mach.source?, hsheds.sources, hscene]
    simp [Mach.setSource, List.find?_filter]
  · rw [Mach.objN, hsheds.objects.obj_bank (by decide) (by decide)]
    exact unjoined_objN ..
  · rw [hsheds.layers, hscene]
    rfl
  · exact each_of_mem (Q := fun n : Mach => ∀ y ∈ (n.layer k).pending, y.ofSlot slot = false) (List.mem_range.mpr hk)
      (fun n => abandonWhere_none n hk _ 5) (fun n j hj hn y hy => hn y ((Sheds.abandonWhere n (List.mem_range.mp hj) _ 5).pending k y hy)) _

/-- The contents of all layers, of a block with at most 64. -/
theorem layers_all_of_forall {m : Mach} {f : Content → Bool} (hlayers : m.scene.layers.length ≤ 64)
    (h : ∀ k < 64, ∀ y ∈ (m.layer k).pending, f y = true) : (m.scene.layers.all (fun x => x.pending.all f)) = true := by
  rw [List.all_eq_true]
  intro x hx
  obtain ⟨k, hk, rfl⟩ := List.mem_iff_getElem.mp hx
  rw [List.all_eq_true]
  intro y hy
  refine h k (by omega) y ?_
  simpa [Mach.layer, List.getD_eq_getElem?_getD, hk] using hy

end Sys2Proof.Machine

/-! Contents and upload jobs that begin to decode (R127, R130). -/

namespace Sys2Proof.Machine

/-! ### Engines that take what waits (R224) -/

/-- From one block to the next only the codec changed. -/
def Feeds (a b : Mach) : Prop := b = { a with codec := b.codec }

theorem Feeds.refl (m : Mach) : Feeds m m := rfl

theorem Feeds.trans {a b c : Mach} (h : Feeds a b) (k : Feeds b c) : Feeds a c := by
  unfold Feeds at *
  rw [k, h]

theorem Feeds.feedEngine (m : Mach) (e : Nat) : Feeds m (m.feedEngine e) := by
  refine iteInduction (motive := Feeds m) (fun _ => .refl m) fun _ => ?_
  split
  · exact rfl
  · split
    · exact rfl
    · split
      · exact rfl
      · exact .refl m

theorem Feeds.feedEngines (m : Mach) : Feeds m m.feedEngines := each_rel Feeds.refl Feeds.trans Feeds.feedEngine _ m

theorem feedEngines_scene (m : Mach) : m.feedEngines.scene = m.scene := by
  have := congrArg Mach.scene (Feeds.feedEngines m); exact this

theorem feedEngines_od (m : Mach) : m.feedEngines.od = m.od := by
  have := congrArg Mach.od (Feeds.feedEngines m); exact this

/-! ### DECODE_START -/

/-- A layer whose content of an origin and heat begins to decode into a buffer (R127). -/
def VLayer.into (x : VLayer) (b : Nat) (c : Content) : VLayer :=
  { x with
    bufs := setAt x.bufs b none
    pending := x.pending.map (fun y => if y.origin = c.origin ∧ y.heat = c.heat then { y with buf := some b } else y) }

theorem VLayer.into_bufs (x : VLayer) (b : Nat) (c : Content) : (x.into b c).bufs.getD b none = none := by
  simp only [VLayer.into, setAt, List.getD_eq_getElem?_getD, List.getElem?_set, ↓reduceIte]
  split <;> rfl

theorem VLayer.into_pending (x : VLayer) (b : Nat) (c : Content) :
    (x.into b c).pending.all (fun y => !(y.origin = c.origin && y.heat = c.heat) || y.buf = some b) = true := by
  rw [List.all_eq_true]
  intro y hy
  obtain ⟨z, -, rfl⟩ := List.mem_map.mp hy
  by_cases h : z.origin = c.origin ∧ z.heat = c.heat
  · simp [h]
  · simpa [h] using Or.inl (not_and_or.mp h)

theorem startContent_layer {m : Mach} {k : Nat} {c : Content} {l : List Content} (hk : k < 64) (hlayers : k < m.scene.layers.length)
    (horder : (m.layer k).inOrder = c :: l) (hwritable : (m.layer k).writable = true) (hheat : c.heat ≤ m.frameNo + 2) :
    (startContent k m).layer k = (m.layer k).into (m.layer k).target c := by
  have hdue : ¬ ((!(m.layer k).writable) = true ∨ m.frameNo + 2 < c.heat) := by simp [hwritable, hheat]
  have hstart : m.startDecode k =
      (m.onLayer k (fun x => { x with bufs := setAt x.bufs (m.layer k).target none })).onContent k c.origin c.heat
        (fun c => { c with buf := some (m.layer k).target }) := by
    rw [Mach.startDecode, horder]
    exact if_neg hdue
  rw [startContent, if_pos hk, Mach.layer, feedEngines_scene, ← Mach.layer, hstart, Mach.onContent, Mach.layer_onLayer, Mach.onLayer_length,
    if_pos ⟨rfl, hlayers⟩, Mach.layer_onLayer, if_pos ⟨rfl, hlayers⟩]
  rfl

/-! ### UPLOAD_RUN -/

/-- The content that the data of an upload job is decoded as (R130). -/
def Mach.uploadContent (m : Mach) (j : Nat) (u : Upload) : Content :=
  { origin := .upload j, heat := m.frameNo + 2, span := 0, width := (m.vdesc u.layer).width, height := (m.vdesc u.layer).height,
    length := (m.str (0x5190 + u.buf) 0).length, runs := [(0, m.str (0x5190 + u.buf) 0)], buf := some (m.layer u.layer).target }

/-- The block with an upload job RUNNING. -/
def Mach.withUpload (m : Mach) (j : Nat) (u : Upload) : Mach :=
  (m.onLayer u.layer (fun x => { x with
    bufs := setAt x.bufs (m.layer u.layer).target none, pending := x.pending ++ [m.uploadContent j u] })).setN (0x51A0 + j) 8 2

theorem runUpload_due {m : Mach} {j : Nat} {u : Upload} (hu : m.upload? j = some u) (hstate : m.uploadState j = 1)
    (hfirst : m.scene.uploads.find? (fun a => a.layer = u.layer) = some u) (henable : (m.vdesc u.layer).enable = true)
    (hmode : (m.vdesc u.layer).mode = 1) (hwritable : (m.layer u.layer).writable = true) (hpending : (m.layer u.layer).pending = []) :
    m.runUpload j = (m.withUpload j u).showPending u.layer := by
  rw [Mach.runUpload, hu]
  exact if_neg (by simp [hstate, hfirst, henable, hmode, hwritable, hpending])

theorem runUpload_waits {m : Mach} {j : Nat} {u : Upload} (hu : m.upload? j = some u)
    (h : m.uploadState j ≠ 1 ∨ (m.layer u.layer).writable = false ∨ (m.vdesc u.layer).mode ≠ 1) : m.runUpload j = m := by
  rw [Mach.runUpload, hu]
  refine if_pos ?_
  obtain h | h | h := h <;> simp [h]

theorem uploadState_showPending (m : Mach) {k j : Nat} (hk : k < 64) (hj : j < 8) : (m.showPending k).uploadState j = m.uploadState j :=
  (ObjectsBut.showPending m (l := [(0x5140, 0x517F)]) (by decide) hk).objN (by simp; omega) (by omega)

theorem withUpload_state (m : Mach) (j : Nat) (u : Upload) : (m.withUpload j u).uploadState j = 2 := Mach.setN_objN_same ..

theorem withUpload_pending {m : Mach} {j : Nat} {u : Upload} (hlayers : u.layer < m.scene.layers.length)
    (hpending : (m.layer u.layer).pending = []) : ((m.withUpload j u).layer u.layer).pending = [m.uploadContent j u] := by
  rw [Mach.layer, Mach.withUpload, Mach.setN_scene, ← Mach.layer, Mach.layer_onLayer, if_pos ⟨rfl, hlayers⟩, hpending]
  rfl

theorem startUpload_uploadState (j i : Nat) (m : Mach) (hj : j < 8) : (startUpload j m).uploadState i = (m.runUpload j).uploadState i := by
  rw [startUpload, if_pos hj]
  exact Mach.objN_congr (feedEngines_od _) ..

theorem startUpload_scene (j : Nat) (m : Mach) (hj : j < 8) : (startUpload j m).scene = (m.runUpload j).scene := by
  rw [startUpload, if_pos hj, feedEngines_scene]

end Sys2Proof.Machine

/-! What leaves the upload jobs alone (R128 to R132). -/

namespace Sys2Proof.Machine

/-- From one block to the next the upload jobs are as they were: those not ended, those not yet visible, and the objects 0x51A0 to 0x51A7. -/
structure KeepsUploads (a b : Mach) : Prop where
  uploads : b.scene.uploads = a.scene.uploads
  shown : b.scene.shown = a.scene.shown
  objects : ∀ k, 0x51A0 * 256 ≤ k → k < 0x51A8 * 256 → storeGet b.od k = storeGet a.od k

section Rules
variable {a b m : Mach}

theorem KeepsUploads.refl (m : Mach) : KeepsUploads m m := ⟨rfl, rfl, fun _ _ _ => rfl⟩

theorem KeepsUploads.objN (h : KeepsUploads a b) {j sub : Nat} (hj : j < 8) (hsub : sub < 256) :
    b.objN (0x51A0 + j) sub = a.objN (0x51A0 + j) sub := by
  have hkey := h.objects (okey (0x51A0 + j) sub) (by rw [okey]; omega) (by rw [okey]; omega)
  rw [Mach.objN, Mach.objN, Mach.obj, Mach.obj, hkey]

theorem KeepsUploads.keep (h : KeepsUploads a m)
    (hb : (b.scene.uploads, b.scene.shown, b.od) = (m.scene.uploads, m.scene.shown, m.od)) : KeepsUploads a b := by
  obtain ⟨huploads, hshown, hod⟩ : _ ∧ _ ∧ _ := by simpa only [Prod.mk.injEq] using hb
  exact ⟨huploads.trans h.uploads, hshown.trans h.shown, fun k hl hr => by rw [hod, h.objects k hl hr]⟩

theorem KeepsUploads.ite {c : Prop} [Decidable c] {x y : Mach} (hx : c → KeepsUploads a x) (hy : ¬ c → KeepsUploads a y) :
    KeepsUploads a (if c then x else y) := iteInduction hx hy

theorem KeepsUploads.each {β : Type} {f : Mach → β → Mach} (l : List β) (hf : ∀ n x, KeepsUploads a n → KeepsUploads a (f n x))
    (h : KeepsUploads a m) : KeepsUploads a (each l m f) :=
  List.foldlRecOn l f (motive := fun n => KeepsUploads a n) h fun n hn x _ => hf n x hn

/-! ### Objects and events -/

theorem KeepsUploads.setOther (h : KeepsUploads a m) {ix sub bank : Nat} {x : Int}
    (hkey : okey ix sub bank < 0x51A0 * 256 ∨ 0x51A8 * 256 ≤ okey ix sub bank) : KeepsUploads a (m.set ix sub x bank) :=
  ⟨h.uploads, h.shown, fun k hl hr => (storeGet_set_ne m.od x (by omega)).trans (h.objects k hl hr)⟩

theorem KeepsUploads.set {ix : Nat} (hix : 0x51A8 ≤ ix) {sub bank : Nat} {x : Int} (h : KeepsUploads a m) :
    KeepsUploads a (m.set ix sub x bank) := h.setOther (.inr (by rw [okey]; omega))

theorem KeepsUploads.setLow {ix : Nat} (hix : ix < 0x51A0) {sub : Nat} (hsub : sub < 256) {x : Int} (h : KeepsUploads a m) :
    KeepsUploads a (m.set ix sub x) := h.setOther (.inl (by rw [okey]; omega))

theorem KeepsUploads.setN {ix : Nat} (hix : 0x51A8 ≤ ix) {sub bank x : Nat} (h : KeepsUploads a m) :
    KeepsUploads a (m.setN ix sub x bank) := h.set hix

theorem KeepsUploads.bump {ix : Nat} (hix : 0x51A8 ≤ ix) {sub n bank : Nat} (h : KeepsUploads a m) :
    KeepsUploads a (m.bump ix sub n bank) := h.set hix

theorem KeepsUploads.record {code flags supp inst : Nat} {d : List (Nat × Nat)} (hcode : code < 0x100000) (h : KeepsUploads a m) :
    KeepsUploads a (m.record code flags supp inst d) :=
  .keep (m := m.bump 0x1202 (code / 4096)) (h.setLow (by omega) (by omega)) rfl

theorem KeepsUploads.raise {code inst : Nat} {d : List (Nat × Nat)} (hcode : code < 0x100000) (h : KeepsUploads a m) :
    KeepsUploads a (m.raise code inst d) := h.record hcode

theorem KeepsUploads.acted (h : KeepsUploads a m) : KeepsUploads a m.acted := by
  unfold Mach.acted
  cases m.test.armed with
  | none => exact h
  | some x => exact .ite (fun _ => h.keep rfl) (fun _ => .setN (by omega) (h.keep rfl))

/-! ### Memory accesses (R266, R271, R272) -/

theorem KeepsUploads.onChan {p : Nat} {f : Channel → Channel} (h : KeepsUploads a m) : KeepsUploads a (m.onChan p f) := h.keep rfl

theorem KeepsUploads.joinTakeOvers {l cause : Nat} (h : KeepsUploads a m) : KeepsUploads a (m.joinTakeOvers l cause) :=
  .ite (fun _ => h) fun _ => .ite (fun _ => .ite (fun _ => h.keep rfl) (fun _ => h)) (fun _ => h.keep rfl)

theorem KeepsUploads.wantTakeOver {l cause : Nat} (h : KeepsUploads a m) : KeepsUploads a (m.wantTakeOver l cause) := by
  unfold Mach.wantTakeOver
  cases m.dram.takeOver with
  | none => exact h.joinTakeOvers
  | some t => exact .ite (fun _ => .ite (fun _ => h) fun _ => .setN (by omega) (h.keep rfl)) (fun _ => h.joinTakeOvers)

theorem KeepsUploads.passChannel {p : Nat} (h : KeepsUploads a m) : KeepsUploads a (m.passChannel p) := by
  unfold Mach.passChannel
  extract_lets _ m1 _
  have h1 : KeepsUploads a m1 := .ite (fun _ => h) fun _ => .raise (by omega) (h.keep rfl)
  split
  · exact h1.wantTakeOver
  · exact .ite (fun _ => h1.keep rfl) (fun _ => h1)

theorem KeepsUploads.access {p o : Nat} (h : KeepsUploads a m) : KeepsUploads a (m.access p o) :=
  .ite (fun _ => .acted (.bump (by omega) (h.onChan (p := p)))) (fun _ => h.onChan)

theorem KeepsUploads.noteCorrected {p n : Nat} (h : KeepsUploads a m) : KeepsUploads a (m.noteCorrected p n) :=
  .ite (fun _ => h) (fun _ => .onChan (.bump (by omega) h))

theorem KeepsUploads.dramThreshold {p : Nat} (h : KeepsUploads a m) : KeepsUploads a (m.dramThreshold p) :=
  .ite (fun _ => h.passChannel) (fun _ => h)

theorem KeepsUploads.readAccess {p o : Nat} (h : KeepsUploads a m) : KeepsUploads a (m.readAccess p o) :=
  .ite (fun _ => h.access.noteCorrected.dramThreshold.acted) (fun _ => h.access)

theorem KeepsUploads.touchRun {phases : List Nat} {x n : Nat} {f : Mach → Nat → Nat → Mach}
    (hf : ∀ k y z, KeepsUploads a k → KeepsUploads a (f k y z)) (h : KeepsUploads a m) : KeepsUploads a (m.touchRun phases x n f) := by
  refine h.each _ fun k y hk => ?_
  dsimp only
  split
  · exact hf _ _ _ (hf _ _ _ hk)
  · exact hf _ _ _ hk

/-- Reads while no poison is injected. -/
theorem KeepsUploads.reads {n : Nat} {runs : List (Nat × Nat)} (hwaits : m.poisonWaits = false) (h : KeepsUploads a m) :
    KeepsUploads a (m.reads n runs) := by
  have hstrike : m.strike n runs = m := by rw [Mach.strike, hwaits]; rfl
  rw [Mach.reads, hstrike]
  exact h.each _ fun _ _ hk => .bump (by omega) (hk.touchRun fun _ _ _ => .readAccess)

theorem KeepsUploads.heal {x : Nat} (h : KeepsUploads a m) : KeepsUploads a (m.heal x) := by
  unfold Mach.heal
  extract_lets po _ m1 clean m2
  have h1 : KeepsUploads a m1 := .ite (fun _ => h.keep rfl) (fun _ => h)
  have hclean : ∀ n y, KeepsUploads a n → KeepsUploads a (clean n y) := fun n y hn => .setN (by omega) (hn.onChan (p := y.1))
  split
  · exact hclean _ _ (hclean _ _ h1)
  · exact hclean _ _ h1

theorem KeepsUploads.unpoison {x n : Nat} (h : KeepsUploads a m) : KeepsUploads a (m.unpoison x n) :=
  .ite (fun _ => h.each _ fun _ _ => .heal) (fun _ => h)

theorem KeepsUploads.storeAll {ws : List MemWrite} (h : KeepsUploads a m) : KeepsUploads a (m.storeAll ws).m :=
  List.foldlRecOn (ws.flatMap writesOf) _ (motive := fun n => KeepsUploads a n) h fun _ hn _ _ =>
    .bump (by omega) (hn.unpoison.touchRun fun _ _ _ => .access)

/-! ### Contents, and clips that are recorded (R123, R134) -/

theorem KeepsUploads.onLayer {k : Nat} {f : VLayer → VLayer} (h : KeepsUploads a m) : KeepsUploads a (m.onLayer k f) := h.keep rfl

theorem KeepsUploads.showPending {k : Nat} (hk : k < 64) (h : KeepsUploads a m) : KeepsUploads a (m.showPending k) :=
  .setLow (by omega) (by omega) (.setLow (by omega) (by omega) (.setLow (by omega) (by omega) (.setLow (by omega) (by omega) h)))

theorem KeepsUploads.complete {k b : Nat} {w : Whole} (hk : k < 64) (h : KeepsUploads a m) : KeepsUploads a (m.complete k b w) :=
  .setLow (by omega) (by omega) h.onLayer

theorem KeepsUploads.then_ {e : Eff} {f : Mach → Eff} (h : KeepsUploads a e.m) (hf : ∀ n, KeepsUploads a n → KeepsUploads a (f n).m) :
    KeepsUploads a (e.then_ f).m := hf _ h

theorem KeepsUploads.stopRecording {reason : Nat} (h : KeepsUploads a m) : KeepsUploads a (m.stopRecording reason) := by
  unfold Mach.stopRecording
  split
  · exact h
  · exact .raise (by omega) (.setN (by omega) (h.keep rfl))

theorem KeepsUploads.recordFrame {k heat span width height : Nat} {stream : Bytes} (h : KeepsUploads a m) :
    KeepsUploads a (m.recordFrame k heat span width height stream).m := by
  unfold Mach.recordFrame
  split
  · exact h
  split
  · exact h
  extract_lets _ m1 old fresh old' _ m2 b need free f c _ m3 m4 m5
  have h1 : KeepsUploads a m1 := .setN (by omega) (h.keep rfl)
  have h2 : KeepsUploads a m2 := .ite (fun _ => h1.keep rfl) (fun _ => h1)
  have h4 : KeepsUploads a m4 := .bump (by omega) (h2.keep rfl)
  have h5 : KeepsUploads a m5 := .ite (fun _ => h4.stopRecording) (fun _ => h4)
  split
  · exact h2
  split
  · exact h2.stopRecording
  · exact h5.storeAll

/-! ### The decision on late layers (R96, R97) -/

theorem KeepsUploads.markBusy {k b n : Nat} (h : KeepsUploads a m) : KeepsUploads a (m.markBusy k b n) := h.onLayer

theorem KeepsUploads.holdBuffers {p : Pour} {version : Nat} (h : KeepsUploads a m) : KeepsUploads a (m.holdBuffers p version) :=
  h.each _ fun _ _ hn => .ite (fun _ => hn.markBusy) (fun _ => hn.keep rfl)

theorem KeepsUploads.onPipe {f : Pipeline → Pipeline} (h : KeepsUploads a m) : KeepsUploads a (m.onPipe f) := h.keep rfl

theorem KeepsUploads.onHeat {f : Heat → Heat} (h : KeepsUploads a m) : KeepsUploads a (m.onHeat f) := h.keep rfl

theorem KeepsUploads.onPour {p : Nat} {f : Pour → Pour} (h : KeepsUploads a m) : KeepsUploads a (m.onPour p f) := h.keep rfl

theorem KeepsUploads.onPours {f : Pour → Pour} (h : KeepsUploads a m) : KeepsUploads a (m.onPours f) := h.keep rfl

theorem KeepsUploads.onCluster {c : Nat} {f : Cluster → Cluster} (h : KeepsUploads a m) : KeepsUploads a (m.onCluster c f) := h.keep rfl

theorem KeepsUploads.takePour {c : Nat} {e : Nat × Nat} (h : KeepsUploads a m) : KeepsUploads a (m.takePour c e) := by
  unfold Mach.takePour
  split
  · exact h
  · exact h.holdBuffers.onHeat.onPour.onPipe.onCluster

theorem KeepsUploads.assignOne (h : KeepsUploads a m) : KeepsUploads a m.assignOne := by
  obtain hnone | ⟨c, e, -, -, -, htake⟩ := assignOne_cases m
  · rw [hnone]; exact h
  · rw [htake]; exact h.takePour

theorem KeepsUploads.assign (h : KeepsUploads a m) : KeepsUploads a m.assign := h.each _ fun _ _ => .assignOne

theorem KeepsUploads.rescheduleAll (h : KeepsUploads a m) : KeepsUploads a m.rescheduleAll := by
  rw [(Looks.rescheduleAll m).frame]
  exact h.keep rfl

theorem KeepsUploads.decide_ {v2 : List (Nat × Bound)} (h : KeepsUploads a m) : KeepsUploads a (m.decide_ v2) := by
  unfold Mach.decide_
  extract_lets m1 set_ hit hits most ok m2 m3 first peak2 m4
  have h2 : KeepsUploads a m2 := h.onPours.onHeat
  have h3 : KeepsUploads a m3 := by
    refine h2.each _ fun n k hn => .markBusy ?_
    split
    · exact hn.markBusy
    · exact hn
  exact .ite (fun _ => h3.raise (by omega)) fun _ => h3.onPours.onHeat.assign.rescheduleAll

theorem KeepsUploads.checkDecision (h : KeepsUploads a m) : KeepsUploads a m.checkDecision :=
  .ite (fun _ => h) fun _ => .ite (fun _ => h.decide_) (fun _ => h)

end Rules

end Sys2Proof.Machine

/-! Upload jobs that end (R130, R131). -/

namespace Sys2Proof.Machine

theorem Mach.upload?_job {m : Mach} {j : Nat} {u : Upload} (h : m.upload? j = some u) : u.job = j := by
  simpa using List.find?_some h

/-- A job that has ended is none of those not ended. -/
theorem uploads_without (l : List Upload) (u : Upload) : (l.filter (· != u)).contains u = false := by simp

/-! ### A job that fails -/

/-- A job that becomes FAILED: its state, its reason, and its end. -/
theorem failUpload_failed (m : Mach) {u : Upload} (hk : u.layer < 64) (hj : u.job < 8) (reason : Nat) :
    (m.failUpload u reason).uploadState u.job = 6 ∧ (m.failUpload u reason).objN (0x51A0 + u.job) 0x0A = reason ∧
    (m.failUpload u reason).scene.uploads.contains u = false := by
  unfold Mach.failUpload
  extract_lets mine m1 m2 _ m3 m4
  have hkept : ObjectsBut [(0x5140, 0x517F), (0x1202, 0x1202)] m2
      ((m4.showPending u.layer).raise 0x7009 u.job [(1, u.job), (1, u.layer), (1, reason)]) :=
    .trans (.trans (b := m4) (.of_od rfl) (.showPending m4 (by decide) hk)) (.record _ _ _ _ _ (by decide) (by decide))
  have hobjN (sub : Nat) (hsub : sub < 256) := hkept.objN (ix := 0x51A0 + u.job) (sub := sub) (by simp; omega) ⟨by omega, hsub⟩
  refine ⟨?_, ?_, ?_⟩
  · rw [Mach.uploadState, hobjN 8 (by omega)]
    exact (Mach.setN_objN_ne _ _ _ _ _ (okey_ne (by omega) (by omega) (by omega) (by omega) (by omega))).trans (Mach.setN_objN_same ..)
  · rw [hobjN 0x0A (by omega)]
    exact Mach.setN_objN_same ..
  · rw [Mach.raise_scene, Mach.showPending_scene]
    exact uploads_without ..

/-- UPLOAD_FINISH that makes its job FAILED. -/
theorem runs_uploadFailed {s : State} {j reason : Nat} {u : Upload} (hj : j < 8) (hu : s.m.upload? j = some u) (hk : u.layer < 64)
    (h : s.m.finishUpload s.ctx j = .of (s.m.failUpload u reason)) :
    Runs (.uploadFinish j) s (fun t => t.m.uploadState j = 6 ∧ t.m.objN (0x51A0 + j) 0x0A = reason ∧
      t.m.scene.uploads.contains u = false ∧ t.mem = s.mem) := by
  obtain rfl := Mach.upload?_job hu
  refine runs_of_eff (f := endUpload u.job) (m := (s.m.failUpload u reason).checkDecision) (by rw [endUpload, h]; rfl) ?_
  obtain ⟨hstate, hreason, hended⟩ := failUpload_failed s.m hk hj reason
  have hkeeps := (KeepsUploads.refl (s.m.failUpload u reason)).checkDecision
  exact ⟨(hkeeps.objN hj (by omega)).trans hstate, (hkeeps.objN hj (by omega)).trans hreason, by rw [hkeeps.uploads, hended], rfl⟩

/-- No block of a content waits to be decoded. -/
theorem ready_decoded {b : Content} (hready : b.ready.all (fun r => b.blocks.any (fun x => x.1 = r.1)) = true) :
    ¬ b.ready.any (fun r => !(b.blocks.any (fun x => x.1 = r.1))) = true := by
  simpa [List.any_eq_true, List.all_eq_true] using hready

section Finish
variable {m : Mach} {c : Ctx} {j : Nat} {u : Upload} {b : Content} (hu : m.upload? j = some u)
  (hb : (m.layer u.layer).pending.find? (fun x => x.origin = .upload j) = some b)
  (hready : b.ready.all (fun r => b.blocks.any (fun x => x.1 = r.1)) = true)
include hu hb hready

theorem finishUpload_misparsed (hsum : (b.ready.map Prod.snd).sum ≠ b.length) : m.finishUpload c j = .of (m.failUpload u 4) := by
  unfold Mach.finishUpload
  rw [hu]
  dsimp only
  rw [hb]
  exact (if_neg (ready_decoded hready)).trans (if_pos hsum)

theorem finishUpload_unfilled (hsum : (b.ready.map Prod.snd).sum = b.length) (hcount : b.blocks.length ≠ u.cols * u.rows) :
    m.finishUpload c j = .of (m.failUpload u 3) := by
  unfold Mach.finishUpload
  rw [hu]
  dsimp only
  rw [hb]
  exact (if_neg (ready_decoded hready)).trans ((if_neg (not_not.mpr hsum)).trans (if_pos hcount))

/-- The job ends COMPLETE for heat F+2: what becomes of it is left as it is by the copies and a recording that follow. -/
theorem finishUpload_complete (hk : u.layer < 64) (hsum : (b.ready.map Prod.snd).sum = b.length) (hcount : b.blocks.length = u.cols * u.rows)
    (hpoison : m.anyPoison = false) (hwaits : m.poisonWaits = false) :
    ∃ n : Mach, KeepsUploads n (m.finishUpload c j).m ∧ n.uploadState j = 3 ∧ (j, u.layer, m.frameNo + 2) ∈ n.scene.shown ∧
      n.scene.uploads = m.scene.uploads.filter (· != u) := by
  unfold Mach.finishUpload
  rw [hu]
  dsimp -zeta only
  extract_lets k x from_
  rw [hb]
  dsimp -zeta only
  extract_lets ready b1 outside rows old spans m1 keep data heat m2 m3 m4 _ m5 samples
  rw [if_neg (ready_decoded hready), if_neg (not_not.mpr hsum), if_neg (not_not.mpr hcount)]
  have hread : KeepsUploads m m1 := (KeepsUploads.refl m).reads hwaits
  have htouch : Touches m m1 := (Touches.refl m).reads hwaits
  have hclean : ¬ spans.any (fun r => m1.poisonedAt r.1 r.2) = true := by
    simp [Mach.poisonedAt, htouch.anyPoison, hpoison]
  have hheat : heat = m.frameNo + 2 := congrArg (· + 2) htouch.steady.frameNo
  rw [if_neg hclean]
  have hwhole : KeepsUploads m m3 := .showPending hk (.complete hk hread.onLayer)
  refine ⟨m5, .then_ (KeepsUploads.refl m5).storeAll fun n hn => ?_, Mach.setN_objN_same .., ?_, ?_⟩
  · split
    · exact hn
    · exact hn.recordFrame
  · rw [← hheat]
    exact List.mem_append_right _ (List.mem_singleton_self _)
  · exact congrArg (List.filter (· != u)) hwhole.uploads

end Finish

end Sys2Proof.Machine

/-! The writes of chapter 04, and O21 (R120, R129, R134, R138). -/

namespace Sys2Proof.Machine

/-! ### Writes of descriptors, uploads and clips -/

section Rules
variable {s : State} {w : WriteReq} {p : Put} {m : Mach}

/-- DESCRIPTOR_APPLY is the write of 0x5180:01. -/
theorem Reaches.run_descriptorApply (h : Reaches s 0x5180 1 w p m) : p.run m = actM m.applyDescriptors := by
  obtain ⟨-, hix, hsub, -, -⟩ := h.put
  simp [Put.run, Put.sessions, Put.supply, Put.times, Put.ports, Put.schedule, Put.layers, hix, hsub]

/-- RECORD_START and RECORD_STOP are writes of 0x51B1:05. -/
theorem Reaches.run_record (h : Reaches s 0x51B1 5 w p m) :
    p.run m = actM (if p.n = 0x4C4300B1 then m.startRecording else m.recordStop) := by
  obtain ⟨-, hix, hsub, -, -⟩ := h.put
  simp [Put.run, Put.sessions, Put.supply, Put.times, Put.ports, Put.schedule, Put.layers, hix, hsub]

/-- CLIP_DELETE is the write of 0x51B2:02. -/
theorem Reaches.run_clipDelete (h : Reaches s 0x51B2 2 w p m) : p.run m = actM m.deleteClip := by
  obtain ⟨-, hix, hsub, -, -⟩ := h.put
  simp [Put.run, Put.sessions, Put.supply, Put.times, Put.ports, Put.schedule, Put.layers, hix, hsub]

/-- UPLOAD_START is the write of 0x51A0+j:07. -/
theorem Reaches.run_uploadStart {j : Nat} (h : Reaches s (0x51A0 + j) 7 w p m) (hj : j < 8) : p.run m = actM (m.startUpload j) := by
  obtain ⟨-, hix, hsub, -, -⟩ := h.put
  interval_cases j <;>
    simp [Put.run, Put.sessions, Put.supply, Put.times, Put.ports, Put.schedule, Put.layers, hix, hsub]

end Rules

/-- A write of one command value, which the message carries. -/
theorem writeCode_of_eq {ix sub code : Nat} {w : WriteReq} (h : ofBE w.value = code) :
    writeCode true ix sub code w = koaWrite (writeMsg w ix sub) none := by
  funext c m
  exact if_pos ⟨rfl, h⟩

theorem SameBut.scene {a b : Mach} (h : SameBut a b) : a.scene = b.scene := by have := congrArg Mach.scene h; exact this

/-- The block with the staged descriptors scheduled for the target heat (R120). -/
def Mach.descriptorsStaged (m : Mach) : Mach :=
  { m with scene := { m.scene with
    staged := some (m.objN 0x5180 2, (upTo 64).map m.stagedV, (upTo 4).map m.stagedG) } }.setN 0x5180 3 1

theorem applyDescriptors_allowed {m : Mach} (htarget : m.objN 0x5180 2 = 0 ∨ m.frameNo + 2 ≤ m.objN 0x5180 2)
    (hallowed : m.descriptorsAllowed ((upTo 64).map m.stagedV) ((upTo 4).map m.stagedG) = true) :
    m.applyDescriptors = .ok m.descriptorsStaged :=
  (if_neg (by omega)).trans (if_neg (by simp [hallowed]))

theorem applyDescriptors_below {m : Mach} (hset : m.objN 0x5180 2 ≠ 0) (hbelow : m.objN 0x5180 2 < m.frameNo + 2) :
    m.applyDescriptors = .error abBelow := if_pos ⟨hset, hbelow⟩

theorem startUpload_refused {m : Mach} {j : Nat}
    (h : live (m.uploadState j) = true ∨ (m.vdesc (m.objN (0x51A0 + j) 1)).mode ≠ 1) : m.startUpload j = .error abPrecondition := by
  refine if_pos ?_
  obtain h | h := h
  · exact .inl h
  · exact .inr (.inr (.inl h))

/-- A job whose layer is in UPLOAD mode, whose rectangle lies in the grid and whose buffer no other job has is QUEUED as the last. -/
theorem startUpload_queued {m : Mach} {j : Nat} (hj : j < 8) (hlive : live (m.uploadState j) = false)
    (henable : (m.vdesc (m.objN (0x51A0 + j) 1)).enable = true) (hmode : (m.vdesc (m.objN (0x51A0 + j) 1)).mode = 1)
    (hcols : m.objN (0x51A0 + j) 2 + m.objN (0x51A0 + j) 4 ≤ ((m.vdesc (m.objN (0x51A0 + j) 1)).width + 63) / 64)
    (hrows : m.objN (0x51A0 + j) 3 + m.objN (0x51A0 + j) 5 ≤ ((m.vdesc (m.objN (0x51A0 + j) 1)).height + 63) / 64)
    (hfree : m.scene.uploads.all (fun a => a.job = j || a.buf != m.objN (0x51A0 + j) 6) = true) :
    ∃ n : Mach, m.startUpload j = .ok n ∧ n.uploadState j = 1 ∧ n.objN (0x51A0 + j) 0x0A = 0 ∧
      n.scene.uploads.getLast? = some (m.stagedUpload j) := by
  have hfits : ¬ (live (m.uploadState j) = true ∨ (!(m.vdesc (m.stagedUpload j).layer).enable) = true ∨
      (m.vdesc (m.stagedUpload j).layer).mode ≠ 1 ∨
      ((m.vdesc (m.stagedUpload j).layer).width + 63) / 64 < (m.stagedUpload j).col + (m.stagedUpload j).cols ∨
      ((m.vdesc (m.stagedUpload j).layer).height + 63) / 64 < (m.stagedUpload j).row + (m.stagedUpload j).rows) := by
    simp only [Mach.stagedUpload, hlive, henable, hmode]
    simp [hcols, hrows]
  have hunused : ¬ m.scene.uploads.any (fun i => i.job != j && i.buf = (m.stagedUpload j).buf) = true := by
    intro hused
    obtain ⟨i, hi, hother⟩ := List.any_eq_true.mp hused
    have hkept := List.all_eq_true.mp hfree i hi
    simp only [Mach.stagedUpload, Bool.and_eq_true, Bool.or_eq_true, bne_iff_ne, decide_eq_true_eq] at hother hkept
    exact hkept.elim hother.1 (· (of_decide_eq_true hother.2))
  refine ⟨_, (if_neg hfits).trans (if_neg hunused), ?_, Mach.setN_objN_same .., ?_⟩
  · rw [Mach.uploadState, Mach.setN_objN_ne _ _ _ _ _ (okey_ne (by omega) (by omega) (by omega) (by omega) (by omega)),
      Mach.setN_objN_ne _ _ _ _ _ (okey_ne (by omega) (by omega) (by omega) (by omega) (by omega)), Mach.setN_objN_same]
  · exact List.getLast?_concat

theorem exec_uploadStart {j : Nat} (hj : j < 8) (w : WriteReq) (s : State) :
    exec (.uploadStart j w) s = liftE (koaWrite (writeMsg w (0x51A0 + j) 7) none) s := by
  show liftE (writeIn _ _ _ _) s = _
  rw [writeIn_of_true (by simpa using hj)]

theorem exec_recordStart {w : WriteReq} (h : ofBE w.value = 0x4C4300B1) (s : State) :
    exec (.recordStart w) s = liftE (koaWrite (writeMsg w 0x51B1 5) none) s := by
  show liftE (writeCode _ _ _ _ _) s = _
  rw [writeCode_of_eq h]

theorem exec_recordStop {w : WriteReq} (h : ofBE w.value = 0x4C4300B0) (s : State) :
    exec (.recordStop w) s = liftE (koaWrite (writeMsg w 0x51B1 5) none) s := by
  show liftE (writeCode _ _ _ _ _) s = _
  rw [writeCode_of_eq h]

/-- The recording that the objects describe (R134). -/
def Mach.stagedRecording (m : Mach) : Recording :=
  let s := m.objN 0x51B1 3
  ⟨m.objN 0x51B1 1, m.objN 0x51B1 2, if s = 0 then m.heat.number + 1 else s, m.objN 0x51B1 4, s = 0⟩

/-- The block with that recording ARMED. -/
def Mach.recordingArmed (m : Mach) : Mach :=
  ({ m with scene := { m.scene with recording := some m.stagedRecording } }.setN 0x51B1 6 1).setN 0x51B1 7 0

theorem startRecording_idle {m : Mach} (h1 : m.objN 0x51B1 6 ≠ 1) (h2 : m.objN 0x51B1 6 ≠ 2) : m.startRecording = .ok m.recordingArmed :=
  if_neg (by simp [h1, h2])

theorem startRecording_busy {m : Mach} (h : m.objN 0x51B1 6 = 1 ∨ m.objN 0x51B1 6 = 2) : m.startRecording = .error abPrecondition :=
  if_pos h

/-- A recording that ends: no clip is recorded, and event 0x700A is raised (R134). -/
theorem stopRecording_ended {m : Mach} (h : m.scene.recording.isSome = true) (reason : Nat) :
    (m.stopRecording reason).scene.recording = none ∧ (m.stopRecording reason).objN 0x51B1 6 = 3 ∧
      (m.stopRecording reason).jrn.newest = m.jrn.newest + 1 := by
  obtain ⟨r, hr⟩ := Option.isSome_iff_exists.mp h
  unfold Mach.stopRecording
  rw [hr]
  refine ⟨?_, ?_, ?_⟩
  · rw [Mach.raise_scene, Mach.setN_scene]
  · rw [Mach.raise_objN _ _ _ _ (okey_ne (by omega) (by omega) (by omega) (by omega) (by omega)), Mach.setN_objN_same]
  · rw [Mach.raise_newest, Mach.setN_jrn]

theorem clip?_dropClip (m : Mach) (id : Nat) : (m.dropClip id).clip? id = none := by
  simp [Mach.dropClip, Mach.clip?, List.find?_filter]

/-! ### O21 -/

/-- Settles O21: each event and each write by what it leaves. -/
theorem sceneContentsUploadsAndClips : Obligations.SceneContentsUploadsAndClips := by
  unfold Obligations.SceneContentsUploadsAndClips
  refine ⟨?bye, ?otherBye, ?idle, ?notIdle, ?decode, ?apply, ?below, ?queued, ?unqueued, ?run, ?waits, ?complete, ?misparsed, ?unfilled,
    ?armed, ?recording, ?stopped, ?nothing, ?deleted, ?inUse⟩
  case bye =>
    intro s k x b a _ hsource henabled hlayers
    obtain ⟨hgone, hslot, hlength, hpending⟩ := leave_left hsource 0
    refine runs_of_lift (f := fun _ => rtcpBye k x) ?_
    have hbye : rtcpBye k x s.m = s.m.leave k 0 := by
      rw [rtcpBye, hsource]
      exact if_pos ⟨rfl, henabled⟩
    rw [hbye]
    refine ⟨hgone, hslot, layers_all_of_forall (hlength.trans_le hlayers) fun i hi y hy => ?_⟩
    have hother := hpending i hi y hy
    rw [Content.ofSlot] at hother
    split
    · next z t horigin =>
      rw [horigin] at hother
      simpa using hother
    · rfl
  case otherBye =>
    intro s k x y b a hsource hne
    refine runs_of_lift (f := fun _ => rtcpBye k x) ?_
    rw [rtcpBye, hsource]
    dsimp only
    rw [if_neg fun h => hne h.1.symm]
  case idle =>
    intro s k x b a _ hsource hidle
    obtain ⟨hgone, hslot, -, -⟩ := leave_left hsource 1
    refine runs_of_lift (f := fun _ => sourceIdleTimeout k) ?_
    rw [sourceIdleTimeout, hsource]
    dsimp only
    rw [if_pos hidle]
    exact ⟨hgone, hslot⟩
  case notIdle =>
    intro s k x b a hsource hrecent
    refine runs_of_lift (f := fun _ => sourceIdleTimeout k) ?_
    rw [sourceIdleTimeout, hsource]
    dsimp only
    rw [if_neg (by omega)]
  case decode =>
    intro s k c l hk hlayers horder hwritable hheat _
    refine runs_of_lift (f := fun _ => startContent k) ?_
    rw [startContent_layer hk hlayers horder hwritable hheat]
    exact ⟨VLayer.into_bufs .., VLayer.into_pending .., rfl⟩
  case apply =>
    intro s w p m h htarget hallowed
    have hrun : p.run m = act m.descriptorsStaged :=
      h.run_descriptorApply.trans (congrArg actM (applyDescriptors_allowed htarget hallowed))
    refine h.runs_act (by decide) hrun fun n hn => ⟨?_, ?_, ?_, rfl⟩
    · rw [hn.scene]; rfl
    · exact (hn.objN_eq ..).trans (Mach.setN_objN_same ..)
    · rw [hn.scene]; rfl
  case below =>
    intro s w p m h hset hbelow
    have hrun : p.run m = .error abBelow :=
      h.run_descriptorApply.trans (congrArg actM (applyDescriptors_below hset hbelow))
    exact h.runs_refused (by decide) hrun fun n hn => ⟨hn, rfl⟩
  case queued =>
    intro s j w p m h hj hlive henable hmode hcols hrows hfree
    obtain ⟨n, hstart, hstate, hreason, hlast⟩ := startUpload_queued hj hlive henable hmode hcols hrows hfree
    have hrun : p.run m = act n := (h.run_uploadStart hj).trans (congrArg actM hstart)
    unfold Runs
    rw [exec_uploadStart hj]
    refine h.runs_act (by omega) hrun fun a ha => ⟨(ha.objN_eq ..).trans hstate, ?_, (ha.objN_eq ..).trans hreason, rfl⟩
    rw [ha.scene]
    exact hlast
  case unqueued =>
    intro s j w p m h hj hrefused
    have hrun : p.run m = .error abPrecondition :=
      (h.run_uploadStart hj).trans (congrArg actM (startUpload_refused hrefused))
    unfold Runs
    rw [exec_uploadStart hj]
    exact h.runs_refused (by omega) hrun fun n hn => ⟨hn, rfl⟩
  case run =>
    intro s j u hj hu hk hlayers hstate hfirst henable hmode hwritable hpending
    refine runs_of_lift (f := fun _ => startUpload j) ?_
    have hscene := startUpload_scene j s.m hj
    rw [runUpload_due hu hstate hfirst henable hmode hwritable hpending, Mach.showPending_scene] at hscene
    refine ⟨?_, ?_, ?_⟩
    · rw [startUpload_uploadState j j s.m hj, runUpload_due hu hstate hfirst henable hmode hwritable hpending,
        uploadState_showPending _ hk hj, withUpload_state]
    · rw [Mach.layer, hscene, ← Mach.layer, withUpload_pending hlayers hpending]
      rfl
    · rw [hscene]; rfl
  case waits =>
    intro s j u hj hu hwait
    refine runs_of_lift (f := fun _ => startUpload j) ?_
    rw [startUpload_scene j s.m hj, startUpload_uploadState j j s.m hj, runUpload_waits hu hwait]
    exact ⟨rfl, rfl⟩
  case complete =>
    intro s j u b hj hu hk hb hready hsum hcount hpoison hwaits
    obtain ⟨n, hkeeps, hstate, hshown, huploads⟩ := finishUpload_complete (c := s.ctx) hu hb hready hk hsum hcount hpoison hwaits
    have hdecided : KeepsUploads n (endUpload j s.ctx s.m).m := hkeeps.checkDecision
    refine ⟨_, liftE_next (endUpload j) s, (hdecided.objN hj (by omega)).trans hstate, ?_, ?_⟩
    · rw [hdecided.shown, List.contains_iff_mem]
      exact hshown
    · rw [hdecided.uploads, huploads]
      exact uploads_without ..
  case misparsed =>
    intro s j u b hj hu hk hb hready hsum
    exact runs_uploadFailed hj hu hk (finishUpload_misparsed hu hb hready hsum)
  case unfilled =>
    intro s j u b hj hu hk hb hready hsum hcount
    exact runs_uploadFailed hj hu hk (finishUpload_unfilled hu hb hready hsum hcount)
  case armed =>
    intro s w p m h hcode hn h1 h2
    have hrun : p.run m = act m.recordingArmed := h.run_record.trans (congrArg actM ((if_pos hn).trans (startRecording_idle h1 h2)))
    unfold Runs
    rw [exec_recordStart hcode]
    refine h.runs_act (by decide) hrun fun n hn => ⟨?_, ?_, ?_, rfl⟩
    · exact (hn.objN_eq ..).trans ((Mach.setN_objN_ne _ _ _ _ _ (by decide)).trans (Mach.setN_objN_same ..))
    · exact (hn.objN_eq ..).trans (Mach.setN_objN_same ..)
    · rw [hn.scene]; rfl
  case recording =>
    intro s w p m h hcode hn hbusy
    have hrun : p.run m = .error abPrecondition :=
      h.run_record.trans (congrArg actM ((if_pos hn).trans (startRecording_busy hbusy)))
    unfold Runs
    rw [exec_recordStart hcode]
    exact h.runs_refused (by decide) hrun fun n hn => ⟨hn, rfl⟩
  case stopped =>
    intro s w p m h hcode hn hon
    have hstop : m.recordStop = .ok (m.stopRecording 0) := if_neg (by simpa using Option.isSome_iff_ne_none.mp hon)
    have hrun : p.run m = act (m.stopRecording 0) :=
      h.run_record.trans (congrArg actM ((if_neg (by omega)).trans hstop))
    obtain ⟨hnone, hstate, hnewest⟩ := stopRecording_ended hon 0
    unfold Runs
    rw [exec_recordStop hcode]
    exact h.runs_act (by decide) hrun fun n hn => ⟨by rw [hn.scene, hnone], (hn.objN_eq ..).trans hstate, by rw [hn.jrn, hnewest], rfl⟩
  case nothing =>
    intro s w p m h hcode hn hoff
    have hstop : m.recordStop = .error abNothing := if_pos (by simp [hoff])
    have hrun : p.run m = .error abNothing :=
      h.run_record.trans (congrArg actM ((if_neg (by omega)).trans hstop))
    unfold Runs
    rw [exec_recordStop hcode]
    exact h.runs_refused (by decide) hrun fun n hn => ⟨hn, rfl⟩
  case deleted =>
    intro s w p m h hfree
    have hrun : p.run m = act (m.dropClip (m.objN 0x51B2 1)) :=
      h.run_clipDelete.trans (congrArg actM (if_neg (by simp [hfree])))
    refine h.runs_act (by decide) hrun fun n hn => ⟨?_, rfl⟩
    rw [Mach.clip?, hn.scene]
    exact clip?_dropClip ..
  case inUse =>
    intro s w p m h hused
    have hrun : p.run m = .error abInUse := h.run_clipDelete.trans (congrArg actM (if_pos hused))
    exact h.runs_refused (by decide) hrun fun n hn => ⟨hn, rfl⟩

end Sys2Proof.Machine

/-! A region update that reads poison, and the events that its reads raise beside its own (R178, R521, R522, O23). -/

namespace Sys2Proof.Machine

/-! ### Events that reads of memory raise (R521, R522) -/

/-- A loop whose steps take back no event, and whose first step raises one. -/
theorem newest_lt_each {α : Type} {f : Mach → α → Mach} (hf : ∀ m x, m.jrn.newest ≤ (f m x).jrn.newest) {m : Mach} {x : α} (l : List α)
    (hx : m.jrn.newest < (f m x).jrn.newest) : m.jrn.newest < (each (x :: l) m f).jrn.newest :=
  Nat.lt_of_lt_of_le hx (each_rel (R := fun a b => a.jrn.newest ≤ b.jrn.newest) (fun _ => Nat.le_refl _) Nat.le_trans hf l (f m x))

theorem newest_le_readAccess (m : Mach) (p o : Nat) : m.jrn.newest ≤ (m.readAccess p o).jrn.newest :=
  (Touches.refl m).readAccess.steady.newest

/-- The accesses that a run of bytes touches, the first one apart. -/
theorem accessesOf_cons (a : Nat) {n : Nat} (hn : n ≠ 0) : ∃ l, accessesOf a n = a / 64 * 64 :: l := by
  rw [accessesOf, if_neg hn, upTo, List.range_succ_eq_map, List.map_cons]
  exact ⟨_, rfl⟩

/-- A run whose first access raises an event. -/
theorem newest_lt_touchRun {m : Mach} {phases : List Nat} {a n : Nat} (hn : n ≠ 0)
    (hfirst : m.jrn.newest < (m.readAccess (m.physical (a / 64 * 64)).1 (m.physical (a / 64 * 64)).2).jrn.newest) :
    m.jrn.newest < (m.touchRun phases a n Mach.readAccess).jrn.newest := by
  obtain ⟨l, hl⟩ := accessesOf_cons a hn
  rw [Mach.touchRun, hl]
  refine newest_lt_each (fun k y => ?_) l ?_
  · dsimp only
    split
    · exact (newest_le_readAccess ..).trans (newest_le_readAccess ..)
    · exact newest_le_readAccess ..
  · dsimp only
    split
    · exact hfirst.trans_le (newest_le_readAccess ..)
    · exact hfirst

/-- Reads whose first access raises an event, while no poison is injected. -/
theorem newest_lt_reads {m : Mach} {source a n : Nat} {runs : List (Nat × Nat)} (hwaits : m.poisonWaits = false)
    (hreach : reachable a n = true) (hn : n ≠ 0)
    (hfirst : m.jrn.newest < (m.readAccess (m.physical (a / 64 * 64)).1 (m.physical (a / 64 * 64)).2).jrn.newest) :
    m.jrn.newest < (m.reads source ((a, n) :: runs)).jrn.newest := by
  have hstrike : m.strike source ((a, n) :: runs) = m := by rw [Mach.strike, hwaits]; rfl
  rw [Mach.reads, hstrike, List.filter_cons_of_pos (p := fun r : Nat × Nat => reachable r.1 r.2) hreach]
  exact newest_lt_each (fun k r => (((Touches.refl k).touchRun fun _ _ _ => .readAccess).noteRead).steady.newest) _
    (newest_lt_touchRun hn hfirst)

/-! ### Poison of a channel replaced without a copy (R280) -/

/-- A run whose first access lies on a logical channel that was replaced without a copy, and is lost. -/
theorem poisonedAt_of_fresh {m : Mach} {a n : Nat} {f : Fresh} (hn : n ≠ 0) (hfixed : a / 64 * 64 < fixedEnd)
    (hfresh : m.dram.fresh.find? (fun f => f.logical = logicalOf (a / 64 * 64)) = some f)
    (hlost : f.lost (offsetOf (a / 64 * 64)) = true) : m.poisonedAt a n = true := by
  have hsome : m.anyPoison = true := by
    have hlisted : m.dram.fresh ≠ [] := by rintro h; simp [h] at hfresh
    simp [Mach.anyPoison, hlisted]
  have hhome : (logicalOf (a / 64 * 64), offsetOf (a / 64 * 64)) ∈ m.homes (a / 64 * 64) := by
    rw [Mach.homes]
    dsimp only
    split <;> exact List.mem_cons_self
  have haccess : m.freshAt (a / 64 * 64) = true := by
    rw [Mach.freshAt, Bool.and_eq_true, List.any_eq_true]
    exact ⟨decide_eq_true hfixed, _, hhome, by simp only [hfresh, hlost]⟩
  obtain ⟨l, hl⟩ := accessesOf_cons a hn
  simp [Mach.poisonedAt, hsome, hl, haccess]

/-! ### A region update that reads poison (R178) -/

/-- What a region update reads (R178), without the runs that are empty. -/
def Mach.regionRuns (m : Mach) (j : Nat) : List (Nat × Nat) :=
  (regionReads (graphicBase (m.regionJob j).layer (m.graphic (m.regionJob j).layer).newest) (graphicBase (m.regionJob j).layer 0)
    (m.regionJob j).rect).filter (fun a => a.2 != 0)

/-- A running update that reads poison fails, after its reads. -/
theorem regionComplete_poisoned {m : Mach} {j : Nat} (c : Ctx) (hrunning : m.regionState j = 2)
    (hpoison : (m.regionRuns j).any (fun a => (m.reads (sourceBase 8) (m.regionRuns j)).poisonedAt a.1 a.2) = true) :
    regionComplete j c m = .of ((m.reads (sourceBase 8) (m.regionRuns j)).failRegion j) :=
  (if_neg (not_not.mpr hrunning)).trans (if_pos hpoison)

theorem exec_regionUpdateComplete (j : Nat) (s : State) : exec (.regionUpdateComplete j) s = liftE (regionComplete j) s := rfl

theorem failRegion_newest (m : Mach) (j : Nat) : (m.failRegion j).jrn.newest = m.jrn.newest + 1 := by
  rw [Mach.failRegion, Mach.raise_newest, Mach.endRegion, Mach.onGraphic_jrn, Mach.setN_jrn]

/-- The first run of an update of the whole surface is the first row of the work surface. -/
theorem regionReads_whole (old work : Nat) :
    ∃ l, (regionReads old work (0, 0, 1920, 1080)).filter (fun a => a.2 != 0) = (work, 11520) :: l := by
  rw [regionReads, upTo, List.range_succ_eq_map, List.flatMap_cons, List.filter_append]
  exact ⟨_, rfl⟩

/-! ### O23 -/

/-- Region update 0 is RUNNING over the whole surface of graphic layer 0. Logical channel 5, on which the work surface begins, was replaced by
spare channel 32 without a copy (R280). That channel has corrected 99,999 codewords within 24 h (R521), and an injection waits to have
its next read reported corrected (R523). -/
def updateOfLostChannel : State :=
  let m := State.reset.m.setN 0x5408 7 2
  let m := ((m.setN 0x7015 1 4).setN 0x7015 2 0xFF).setN 0x7045 1 32
  let m := ((m.setN 0x7030 1 1).setN 0x7030 2 5).setN 0x7F01 6 1
  { State.reset with m := { m with
      outs := { m.outs with graphics := modAt m.outs.graphics 0 (fun g => { g with order := [0] }) }
      dram := { m.dram with
        fresh := [⟨5, [], none⟩], chans := modAt m.dram.chans 32 (fun x => { x with corrected := [(0, 99999)] }) }
      test := { m.test with armed := some ⟨8, 32, false, 0, 0, true, 0⟩ } } }

/-- The first access of the work surface passes the threshold of its channel, with event 0xD009 (R521, R522). -/
theorem readAccess_updateOfLostChannel :
    updateOfLostChannel.m.poisonWaits = false ∧
    updateOfLostChannel.m.physical 0x240000000 = (32, 301989888) ∧
    (updateOfLostChannel.m.readAccess 32 301989888).jrn.newest = updateOfLostChannel.m.jrn.newest + 1 := by
  decide +kernel

/-- The runs that it reads begin with a row that is lost, before the reads and after them. -/
theorem regionRuns_updateOfLostChannel {m : Mach} (h : Touches updateOfLostChannel.m m) :
    ∃ l, updateOfLostChannel.m.regionRuns 0 = (0x240000000, 11520) :: l ∧
      (updateOfLostChannel.m.regionRuns 0).any (fun a => m.poisonedAt a.1 a.2) = true := by
  obtain ⟨l, hl⟩ := regionReads_whole (graphicBase 0 1) (graphicBase 0 0)
  have hruns : updateOfLostChannel.m.regionRuns 0 = (0x240000000, 11520) :: l := hl
  have hfresh : m.dram.fresh = [⟨5, [], none⟩] := congrArg Prod.fst h.holdings
  have hpoison : m.poisonedAt 0x240000000 11520 = true :=
    poisonedAt_of_fresh (f := ⟨5, [], none⟩) (by decide) (by decide) (by rw [hfresh]; decide) (by decide)
  exact ⟨l, hruns, by rw [hruns, List.any_cons, hpoison, Bool.true_or]⟩

/-- Refutes O23: its clause on a region update that reads poison says that one event is raised, 0x7011, but the reads of the update count at the
channels that they go to, and one that passes the threshold of corrected codewords raises 0xD009 too (R178, R521, R522;
`Mach.readAccess`). -/
theorem not_regionUpdatesCapturesAndSignatures : ¬ Obligations.RegionUpdatesCapturesAndSignatures := by
  unfold Obligations.RegionUpdatesCapturesAndSignatures
  rintro ⟨-, -, -, -, hfailed, -⟩
  obtain ⟨hwaits, hphysical, hraised⟩ := readAccess_updateOfLostChannel
  have hrunning : updateOfLostChannel.m.regionState 0 = 2 := by decide +kernel
  obtain ⟨l, hruns, hbefore⟩ := regionRuns_updateOfLostChannel (.refl _)
  obtain ⟨-, -, hafter⟩ := regionRuns_updateOfLostChannel
    (.reads (n := sourceBase 8) (runs := updateOfLostChannel.m.regionRuns 0) hwaits (.refl _))
  obtain ⟨t, hrun, -, hone, -⟩ := hfailed _ 0 (by decide) hrunning hbefore hwaits
  have hmore : updateOfLostChannel.m.jrn.newest <
      (updateOfLostChannel.m.reads (sourceBase 8) (updateOfLostChannel.m.regionRuns 0)).jrn.newest := by
    rw [hruns]
    refine newest_lt_reads hwaits (by decide) (by decide) ?_
    rw [hphysical, hraised]
    exact Nat.lt_succ_self _
  rw [exec_regionUpdateComplete] at hrun
  rw [state_eq_of_liftE hrun (regionComplete_poisoned _ hrunning hafter), failRegion_newest] at hone
  omega

end Sys2Proof.Machine

/-! Bits and the class scheme (R207, R209), and O5. -/

namespace Sys2Proof.Machine

/-! ### Bits of a number (R207, R209) -/

@[simp] theorem bitsN_length (n v : Nat) : (bitsN n v).length = n := by
  induction n with
  | zero => rfl
  | succ n ih => simp [bitsN, ih]

theorem bitsVal_foldl (l : List Bool) (a : Nat) : l.foldl (fun a b => a * 2 + bit b) a = a * 2 ^ l.length + bitsVal l := by
  unfold bitsVal
  induction l generalizing a with
  | nil => simp
  | cons b l ih =>
    simp only [List.foldl_cons, List.length_cons]
    rw [ih, ih (0 * 2 + bit b)]
    ring

theorem bitsVal_cons (b : Bool) (l : List Bool) : bitsVal (b :: l) = bit b * 2 ^ l.length + bitsVal l := by
  simpa [bitsVal] using bitsVal_foldl l (bit b)

theorem bitsVal_lt (l : List Bool) : bitsVal l < 2 ^ l.length := by
  induction l with
  | nil => simp [bitsVal]
  | cons b l ih =>
    rw [bitsVal_cons, List.length_cons, pow_succ]
    cases b <;> simp only [bit, Bool.false_eq_true, ↓reduceIte] <;> omega

/-- The low bits of a number read back from its bits. -/
theorem bitsVal_bitsN (n v : Nat) : bitsVal (bitsN n v) = v % 2 ^ n := by
  induction n with
  | zero => simp [bitsN, bitsVal, Nat.mod_one]
  | succ n ih =>
    have hb : bit (v.testBit n) = v / 2 ^ n % 2 := by
      rw [Nat.testBit_eq_decide_div_mod_eq]
      rcases Nat.mod_two_eq_zero_or_one (v / 2 ^ n) with h | h <;> simp [bit, h]
    rw [bitsN, bitsVal_cons, ih, bitsN_length, hb, pow_succ, Nat.mod_mul]
    ring

theorem takeBits_bitsN (n v : Nat) (l : List Bool) : takeBits n (bitsN n v ++ l) = .ok (v % 2 ^ n, l) := by
  simp [takeBits, bitsVal_bitsN]

theorem takeBits_ok {n v : Nat} {l r : List Bool} (h : takeBits n l = .ok (v, r)) : v < 2 ^ n ∧ r = l.drop n := by
  unfold takeBits at h
  split at h
  · cases h
  next hl =>
    cases h
    have := bitsVal_lt (l.take n)
    rw [List.length_take, min_eq_left (by omega)] at this
    exact ⟨this, rfl⟩

/-! ### Classes (R209) -/

theorem readExtra_of_le_one {k : Nat} (hk : k ≤ 1) (l : List Bool) : readExtra k l = .ok (k, l) := by
  simp [readExtra, hk]

theorem readExtra_of_two_le {k : Nat} (hk : 2 ≤ k) (l : List Bool) :
    readExtra k l = (takeBits (k - 1) l).map (fun p => (2 ^ (k - 1) + p.1, p.2)) := by
  unfold readExtra
  rw [if_neg (by omega)]
  cases takeBits (k - 1) l <;> rfl

theorem readExtra_bitsN {k : Nat} (hk : 2 ≤ k) (v : Nat) (l : List Bool) :
    readExtra k (bitsN (k - 1) v ++ l) = .ok (2 ^ (k - 1) + v % 2 ^ (k - 1), l) := by
  rw [readExtra_of_two_le hk, takeBits_bitsN]
  rfl

theorem readExtra_ok {k v : Nat} {l r : List Bool} (hk : 2 ≤ k) (h : readExtra k l = .ok (v, r)) :
    2 ^ (k - 1) ≤ v ∧ v < 2 ^ k ∧ r = l.drop (k - 1) := by
  rw [readExtra_of_two_le hk] at h
  cases ht : takeBits (k - 1) l with
  | error f => rw [ht] at h; cases h
  | ok p =>
    rw [ht] at h
    obtain ⟨hx, hr⟩ := takeBits_ok ht
    cases h
    have : 2 ^ k = 2 ^ (k - 1) + 2 ^ (k - 1) := by rw [← two_mul, ← pow_succ', Nat.sub_add_cancel (by omega)]
    exact ⟨by omega, by omega, hr⟩

theorem classOf_le {v n : Nat} (h : v < 2 ^ n) : classOf v ≤ n := by
  unfold classOf
  split
  · omega
  next hv => exact (Nat.log2_lt hv).2 h

theorem readExtra_classOf (v : Nat) (l : List Bool) : readExtra (classOf v) (extraBits v ++ l) = .ok (v, l) := by
  unfold extraBits
  obtain hv | hv := Nat.lt_or_ge v 2
  · have : classOf v = v := by interval_cases v <;> decide
    rw [this, readExtra_of_le_one (by omega)]
    interval_cases v <;> rfl
  · have h0 : v ≠ 0 := by omega
    have hc : classOf v = Nat.log2 v + 1 := if_neg h0
    have h1 : 1 ≤ Nat.log2 v := (Nat.le_log2 h0).2 hv
    have hlow : 2 ^ Nat.log2 v ≤ v := Nat.log2_self_le h0
    have hhigh : v < 2 ^ (Nat.log2 v + 1) := Nat.lt_log2_self
    rw [readExtra_bitsN (by omega), hc, Nat.add_sub_cancel, Nat.mod_eq_sub_mod hlow, Nat.mod_eq_of_lt (by omega)]
    congr 2
    omega

/-- Settles O5: from class 2 on, a value is its leading bit and the extra field below it. -/
theorem classSchemeCodesItsValues : Obligations.ClassSchemeCodesItsValues := by
  unfold Obligations.ClassSchemeCodesItsValues
  refine ⟨fun l => ⟨readExtra_of_le_one (by omega) l, readExtra_of_le_one (by omega) l⟩, ?_, ?_, ?_⟩
  · intro k x l hk _ hx
    rw [readExtra_bitsN hk, Nat.mod_eq_of_lt hx]
  · intro k v l r hk _ h
    exact readExtra_ok hk h
  · intro v l hv
    exact ⟨classOf_le hv, readExtra_classOf v l⟩

end Sys2Proof.Machine

/-! The STORED form of a block (R202, R203, R205, R206), and O6. -/

namespace Sys2Proof.Machine

/-! ### Samples (R111, R205) -/

theorem Sample.ofWord_word {s : Sample} (h : s.wf = true) : Sample.ofWord s.word = s := by
  obtain ⟨r, g, b, a⟩ := s
  simp only [Sample.wf, Bool.and_eq_true, decide_eq_true_eq] at h
  simp only [Sample.ofWord, Sample.word, Sample.mk.injEq]
  omega

theorem Sample.word_lt {s : Sample} (h : s.wf = true) : s.word < 256 ^ 6 := by
  simp only [Sample.wf, Bool.and_eq_true, decide_eq_true_eq] at h
  simp only [Sample.word]
  omega

@[simp] theorem flatMap_sampleBytes_length (l : List Sample) : (l.flatMap Sample.bytes).length = 6 * l.length := by
  induction l with
  | nil => rfl
  | cons s l ih => simp [Sample.bytes, ih]; omega

/-- Samples read back from their bytes, whatever follows them. -/
theorem samplesBE_flatMap_bytes (l : List Sample) (b : Bytes) (h : l.all Sample.wf = true) :
    samplesBE l.length (l.flatMap Sample.bytes ++ b) = l := by
  induction l with
  | nil => rfl
  | cons s l ih =>
    rw [List.all_cons, Bool.and_eq_true] at h
    have hb : s.bytes.length = 6 := beBytes_length 6 _
    have hs : Sample.ofWord (ofBE s.bytes) = s := by
      rw [Sample.bytes, ofBE_beBytes, Nat.mod_eq_of_lt (Sample.word_lt h.1), Sample.ofWord_word h.1]
    rw [List.length_cons, List.flatMap_cons, List.append_assoc, samplesBE, List.take_left' hb, List.drop_left' hb, hs, ih h.2]

/-! ### Headers (R203) -/

theorem ofBE_append (a b : Bytes) : ofBE (a ++ b) = ofBE a * 256 ^ b.length + ofBE b := by
  rw [ofBE, List.foldl_append]
  exact ofBE_foldl b _

theorem crc8Bit_lt {r : Nat} (h : r < 256) : crc8Bit r < 256 := by
  unfold crc8Bit
  split
  · exact Nat.xor_lt_two_pow (n := 8) (by omega) (by omega)
  · omega

theorem crc8Byte_lt {r : Nat} (h : r < 256) (b : Byte) : crc8Byte r b < 256 := by
  unfold crc8Byte
  have : r ^^^ b.toNat < 256 := Nat.xor_lt_two_pow (n := 8) h b.isLt
  iterate 8 apply crc8Bit_lt
  exact this

theorem crc8_lt (b : Bytes) : crc8 b < 256 :=
  List.foldlRecOn b crc8Byte (motive := (· < 256)) (by decide) fun _ h x _ => crc8Byte_lt h x

/-- A header that can be written: every field in its range, with the mode, table and length that R203 and R221 allow. -/
def GwynHeader.Fits (g : GwynHeader) : Prop :=
  g.layer < 256 ∧ g.col < 64 ∧ g.row < 64 ∧ g.mode ≤ 1 ∧ g.table ≤ 8 ∧ (g.mode = 0 → g.table = 0) ∧
    (1 ≤ g.w ∧ g.w ≤ 64) ∧ (1 ≤ g.h ∧ g.h ≤ 64) ∧ g.length % 4 = 0 ∧ 24 ≤ g.length ∧ g.length ≤ 24596

@[simp] theorem GwynHeader.bytes_length (g : GwynHeader) : g.bytes.length = 16 := by
  simp [GwynHeader.bytes]

/-- The number that the fields of a header spell, from its magic to its length (R203). -/
def GwynHeader.word (g : GwynHeader) : Nat :=
  ((((((((0x4757 * 256 + g.layer) * 64 + g.col) * 64 + g.row) * 4 + g.mode) * 16 + g.table) * 64 + (g.w - 1)) * 64 + (g.h - 1)) * 1024) *
    65536 + g.length

/-- The fields of the number that a header's 16 bytes spell, with its check `k` last. -/
theorem GwynHeader.field_word {g : GwynHeader} (hg : g.Fits) {k n : Nat} (hk : k < 256) (hn : n = g.word * 256 ^ 5 * 256 + k) :
    (field n 127 112 = 0x4757 ∧ field n 111 104 = g.layer ∧ field n 103 98 = g.col ∧ field n 97 92 = g.row) ∧
    (field n 91 90 = g.mode ∧ field n 89 86 = g.table ∧ field n 85 80 + 1 = g.w ∧ field n 79 74 + 1 = g.h) ∧
    (field n 63 48 = g.length ∧ field n 7 0 = k) := by
  obtain ⟨hlayer, hcol, hrow, hmode, htable, -, hw, hh, -, -, hlength⟩ := hg
  simp only [field, word, hn]
  omega

/-- A header is its fields, five reserved bytes and the check of both. -/
theorem GwynHeader.bytes_eq {g : GwynHeader} (hg : g.Fits) :
    ∃ b, b.length = 15 ∧ ofBE b = g.word * 256 ^ 5 ∧ g.bytes = b ++ [BitVec.ofNat 8 (crc8 b)] := by
  obtain ⟨hlayer, hcol, hrow, hmode, htable, -, hw, hh, -, -, hlength⟩ := hg
  refine ⟨_, ?_, ?_, rfl⟩
  · simp
  · rw [ofBE_append, ofBE_append, ofBE_beBytes, ofBE_beBytes, ofBE_beBytes, beBytes_length, beBytes_length, word]
    omega

/-- A header reads back from a block that begins with its bytes. -/
theorem readHeader_bytes {g : GwynHeader} (hg : g.Fits) (rest : Bytes) : readHeader (g.bytes ++ rest) = some g := by
  obtain ⟨b, hlen, hfields, hbytes⟩ := GwynHeader.bytes_eq hg
  have hcheck : crc8 b < 256 := crc8_lt b
  have hword : ofBE g.bytes = g.word * 256 ^ 5 * 256 + crc8 b := by
    rw [hbytes, ofBE_append, hfields]
    simp [ofBE, Nat.mod_eq_of_lt hcheck]
  have hfirst : (g.bytes ++ rest).take 15 = b := by rw [hbytes, List.append_assoc, List.take_left' hlen]
  obtain ⟨⟨hmagic, hlayer, hcol, hrow⟩, ⟨hmode, htable, hw, hh⟩, hlength, hlast⟩ := GwynHeader.field_word hg hcheck hword
  obtain ⟨-, -, -, fmode, ftable, fstored, -, -, ffour, fleast, fmost⟩ := hg
  unfold readHeader
  rw [List.take_left' g.bytes_length, hfirst]
  simp only [hmagic, hlayer, hcol, hrow, hmode, htable, hw, hh, hlength, hlast]
  exact if_pos ⟨trivial, trivial, fmode, ftable, fstored, ffour, fleast, fmost⟩

/-! ### Check values (R205, R232) -/

theorem crcBit_lt {p r : Nat} (hp : p < 2 ^ 32) (h : r < 2 ^ 32) : crcBit p r < 2 ^ 32 := by
  unfold crcBit
  split
  · exact Nat.xor_lt_two_pow (by omega) hp
  · omega

theorem crcByte_lt {p r : Nat} (hp : p < 2 ^ 32) (h : r < 2 ^ 32) (b : Byte) : crcByte p r b < 2 ^ 32 := by
  unfold crcByte
  iterate 8 apply crcBit_lt hp
  exact Nat.xor_lt_two_pow h (b.isLt.trans (by decide))

theorem checkRegister_lt {start : Nat} (h : start < 2 ^ 32) (l : List Sample) : checkRegister start l < 2 ^ 32 :=
  List.foldlRecOn (l.flatMap Sample.bytes) (crcByte 0x82F63B78) (motive := (· < 2 ^ 32)) h
    fun _ h x _ => crcByte_lt (by decide) h x

theorem checkValue_lt (l : List Sample) : checkValue l < 2 ^ 32 :=
  Nat.xor_lt_two_pow (checkRegister_lt (by decide) l) (by decide)

/-! ### STORED blocks (R202, R206) -/

/-- The length of a block of `n` samples in STORED mode: header, sample bytes filled to a multiple of four, check value. -/
def storedLength (n : Nat) : Nat := 16 + 6 * n + (4 - 6 * n % 4) % 4 + 4

/-- The header that a STORED block is made with. -/
def storedHeader (layer col row w h : Nat) : GwynHeader := ⟨layer, col, row, 0, 0, w, h, storedLength (w * h)⟩

/-- The bytes that fill the payload of `n` samples to a multiple of four. -/
def storedPadding (n : Nat) : Bytes := List.replicate ((4 - 6 * n % 4) % 4) 0

theorem storedBlock_eq {layer col row w h : Nat} {l : List Sample} (hl : l.length = w * h) :
    storedBlock layer col row w h l =
      (storedHeader layer col row w h).bytes ++ (l.flatMap Sample.bytes ++ storedPadding (w * h) ++ beBytes 4 (checkValue l)) := by
  simp only [storedBlock, pad4, storedHeader, storedPadding, storedLength, List.length_append, List.length_replicate,
    flatMap_sampleBytes_length, hl, List.append_assoc]
  congr 3
  omega

theorem storedBlock_length {layer col row w h : Nat} {l : List Sample} (hl : l.length = w * h) :
    (storedBlock layer col row w h l).length = storedLength (w * h) := by
  simp only [storedBlock_eq hl, List.length_append, GwynHeader.bytes_length, flatMap_sampleBytes_length, hl, storedPadding,
    List.length_replicate, beBytes_length, storedLength]
  omega

theorem storedHeader_fits {layer col row w h : Nat} (hlayer : layer < 256) (hcol : col < 64) (hrow : row < 64)
    (hw : 1 ≤ w ∧ w ≤ 64) (hh : 1 ≤ h ∧ h ≤ 64) : (storedHeader layer col row w h).Fits := by
  have hpos : 1 ≤ w * h := Nat.mul_pos hw.1 hh.1
  have hmax : w * h ≤ 64 * 64 := Nat.mul_le_mul hw.2 hh.2
  refine ⟨hlayer, hcol, hrow, Nat.zero_le _, Nat.zero_le _, fun _ => rfl, hw, hh, ?_⟩
  simp only [storedHeader, storedLength]
  omega

/-- The body of a STORED block reads back as its samples. -/
theorem decodeBody_storedBlock {layer col row w h : Nat} {l : List Sample} (hl : l.length = w * h) (hwf : l.all Sample.wf = true) :
    decodeBody (storedHeader layer col row w h) (storedBlock layer col row w h l) = .ok l := by
  have hpay : (l.flatMap Sample.bytes).length = 6 * (w * h) := by rw [flatMap_sampleBytes_length, hl]
  have hbody : bodyBytes (storedHeader layer col row w h) (storedBlock layer col row w h l) =
      l.flatMap Sample.bytes ++ storedPadding (w * h) := by
    rw [bodyBytes, slice, storedBlock_eq hl, List.drop_left' (GwynHeader.bytes_length _), List.take_left']
    simp only [List.length_append, hpay, storedPadding, List.length_replicate, storedHeader, storedLength]
    omega
  have hzero : ((l.flatMap Sample.bytes ++ storedPadding (w * h)).drop (6 * (w * h))).any (· != 0) = false := by
    rw [List.drop_left' hpay]
    simp [storedPadding]
  have hlen : ¬ (l.flatMap Sample.bytes ++ storedPadding (w * h)).length + 20 < storedLength (w * h) := by
    simp only [List.length_append, hpay, storedPadding, List.length_replicate, storedLength]
    omega
  have hsamples : samplesBE (w * h) (l.flatMap Sample.bytes ++ storedPadding (w * h)) = l :=
    hl ▸ samplesBE_flatMap_bytes l _ hwf
  unfold decodeBody
  rw [hbody]
  simp only [storedHeader, hlen, ↓reduceIte, hsamples, hzero, Bool.false_eq_true]
  exact if_neg (not_not.mpr rfl)

theorem blockCheck_storedBlock {layer col row w h : Nat} {l : List Sample} (hl : l.length = w * h) :
    blockCheck (storedHeader layer col row w h) (storedBlock layer col row w h l) = checkValue l := by
  rw [blockCheck, slice, storedBlock_eq hl, ← List.append_assoc, List.drop_left', List.take_of_length_le (by simp), ofBE_beBytes]
  · exact Nat.mod_eq_of_lt (checkValue_lt l)
  · simp only [List.length_append, GwynHeader.bytes_length, flatMap_sampleBytes_length, hl, storedPadding, List.length_replicate,
      storedHeader, storedLength]
    omega

theorem decodeBlock_storedBlock {layer col row w h : Nat} {l : List Sample} (hl : l.length = w * h) (hwf : l.all Sample.wf = true)
    (hfits : (storedHeader layer col row w h).Fits) :
    decodeBlock (storedBlock layer col row w h l) = .ok (storedHeader layer col row w h, l) := by
  have hread : readHeader (storedBlock layer col row w h l) = some (storedHeader layer col row w h) := by
    rw [storedBlock_eq hl, readHeader_bytes hfits]
  have hlen : ¬ (storedBlock layer col row w h l).length < (storedHeader layer col row w h).length := by
    rw [storedBlock_length hl]
    exact Nat.lt_irrefl _
  have hshort : ¬ (storedBlock layer col row w h l).length < 16 := by
    rw [storedBlock_length hl, storedLength]
    omega
  unfold decodeBlock
  rw [if_neg hshort, hread]
  simp only [hlen, decodeBody_storedBlock hl hwf, blockCheck_storedBlock hl, ↓reduceIte]

/-- Settles O6: the parts of the block lie one after the other, and each reads back. -/
theorem storedBlocksHoldTheirSamples : Obligations.StoredBlocksHoldTheirSamples := by
  unfold Obligations.StoredBlocksHoldTheirSamples
  intro layer col row w h l hlayer hcol hrow hw hw' hh hh' hl hwf
  have hpay : (l.flatMap Sample.bytes).length = 6 * w * h := by rw [flatMap_sampleBytes_length, hl, Nat.mul_assoc]
  have hlen := storedBlock_length (layer := layer) (col := col) (row := row) hl
  refine ⟨?_, hpay, ?_, ?_, _, decodeBlock_storedBlock hl hwf (storedHeader_fits hlayer hcol hrow ⟨hw, hw'⟩ ⟨hh, hh'⟩), ?_⟩
  · rw [slice, storedBlock_eq hl, List.drop_left' (GwynHeader.bytes_length _), List.append_assoc, List.take_left' hpay]
  · rw [hlen, storedLength, Nat.mul_assoc]
    omega
  · rintro rfl rfl
    rw [hlen]
    rfl
  · rw [hlen, storedHeader]

end Sys2Proof.Machine

/-! A block whose check value differs, and the decision on late layers that follows it (R96, R222, O24). -/

namespace Sys2Proof.Machine

/-- What a command with its writes leaves of the block. -/
theorem mach_of_liftE {f : Ctx → Mach → Eff} {s t : State} (h : liftE f s = .next t) : t.m = (f s.ctx s.m).m := by
  rw [liftE_next] at h
  cases h
  rfl

theorem exec_blockDecoded (e y : Nat) (x : Bool) (s : State) : exec (.blockDecoded e x y) s = liftE (blockDecoded e x y) s := rfl

/-- A content of one sample for heat 5, of one block in STORED mode, in decode into buffer 1. -/
def contentOfHeat5 : Content :=
  { origin := .stream 0 0, heat := 5, span := 1, width := 1, height := 1, length := 28
    runs := [(0, storedBlock 0 0 0 1 1 [⟨1, 2, 3, 4⟩])], buf := some 1 }

/-- Heat 4 runs, 5 ms into its frame, with video layer 0 late. The layer's content of heat 4 is complete in buffer 0 by now, and the
decision on version 2 is still to be taken (R96). Decode engine 0 works on the layer's content of heat 5. -/
def decisionDue : State :=
  started fun m =>
    { m.setN 0x5000 0x0B 3 with
      clk := { m.clk with reg := 65536 * ms 55 }
      codec := { m.codec with decode := setAt m.codec.decode 0 (.content 0 0) }
      pipe := { m.pipe with heat := { m.pipe.heat with running := true, number := 4, late := 1 } }
      scene := { m.scene with
        vdesc := setAt m.scene.vdesc 0 { enable := true, width := 1, height := 1 }
        layers := setAt m.scene.layers 0
          { bufs := [some ⟨4, 1, 1, 1, 28, false⟩, none], newest := some 0, pending := [contentOfHeat5] } } }

theorem decisionDue_engine :
    decisionDue.m.armedAt 5 0 = false ∧ decisionDue.m.armedAt 6 0 = false ∧
    decisionDue.m.codec.decode.getD 0 .idle = .content 0 0 ∧ decisionDue.m.poisonWaits = false := by
  decide +kernel

theorem decisionDue_content :
    (decisionDue.m.layer 0).decoding = some contentOfHeat5 ∧ contentOfHeat5.ready.find? (fun r => r.1 = 0) = some (0, 28) ∧
    contentOfHeat5.poison.contains 0 = false ∧
    (contentOfHeat5.staged 0 28).all (fun r => !decisionDue.m.poisonedAt r.1 r.2) = true := by
  decide +kernel

theorem judgeBlock_contentOfHeat5 :
    judgeBlock ((contentOfHeat5.read? 0 28).getD []) contentOfHeat5.width contentOfHeat5.height contentOfHeat5.streamLayer
      (contentOfHeat5.blocks.map Prod.snd) = .ok (0, 0, [⟨1, 2, 3, 4⟩]) := by
  decide +kernel

/-- The end of the block has the decision taken, which keeps the buffer that heat 4 binds busy (R96, R127). -/
theorem busy_blockDecoded_decisionDue :
    (decisionDue.m.layer 0).busy = [] ∧
    ((blockDecoded 0 true 0 decisionDue.ctx decisionDue.m).m.layer 0).busy = [(0, 4)] := by
  decide +kernel

/-- Refutes O24: its clause on a block whose check value differs says that the layer stays as it is, but the decision on late layers is
looked at after every content block, also after one that is to be decoded again. Where every late layer is complete by then, the
decision is taken, and it marks their buffers as busy (R96, R127; `blockDecoded`, `Mach.checkDecision`). -/
theorem not_codecEnginesAndHostJobs : ¬ Obligations.CodecEnginesAndHostJobs := by
  unfold Obligations.CodecEnginesAndHostJobs
  rintro ⟨-, -, -, -, -, -, -, -, -, hdiffers, -⟩
  obtain ⟨hfive, hsix, hwork, hwaits⟩ := decisionDue_engine
  obtain ⟨hdecoding, hready, hclean, hstaged⟩ := decisionDue_content
  obtain ⟨hbefore, hafter⟩ := busy_blockDecoded_decisionDue
  obtain ⟨t, hrun, -, hlayer, -⟩ := hdiffers decisionDue 0 0 0 28 0 true contentOfHeat5 _ (by decide) (by decide) hfive hsix hwork
    hdecoding hready hclean hstaged hwaits (.inr ⟨rfl, judgeBlock_contentOfHeat5⟩)
  rw [exec_blockDecoded] at hrun
  rw [← mach_of_liftE hrun, hlayer, hbefore] at hafter
  cases hafter

end Sys2Proof.Machine

/-! A drawing operation that hangs, and the events that its reads raise beside its own (R249, R255, R521, R522, O25). -/

namespace Sys2Proof.Machine

/-! ### The events of a drawing operation that stops -/

theorem exec_drawHang (ch done : Nat) (s : State) : exec (.drawHang ch done) s = liftE (drawHang ch done) s := rfl

theorem strike_of_not_poisonWaits {m : Mach} (hwaits : m.poisonWaits = false) (n : Nat) (runs : List (Nat × Nat)) :
    m.strike n runs = m := by rw [Mach.strike, hwaits]; rfl

theorem drawEnter_jrn (m : Mach) (ch st error : Nat) : (m.drawEnter ch st error).jrn = m.jrn :=
  iteInduction (motive := fun n : Mach => n.jrn = m.jrn) (fun _ => Mach.setN_jrn ..) (fun _ => Mach.setN_jrn ..)

theorem failDraw_newest (m : Mach) (ch error done : Nat) : (m.failDraw ch error done).jrn.newest = m.jrn.newest + 1 := by
  rw [Mach.failDraw, Mach.raise_newest, drawEnter_jrn]

/-- The first `done` elements of a channel's operation, up to the first that meets poison (R247, R249). -/
def Mach.soundElements (m : Mach) (mem : Mem) (ch done : Nat) : List (Nat × Nat) :=
  ((m.drawOp ch).order.take done).takeWhile (fun e => !m.elementPoisoned mem (m.drawOp ch) e)

/-- Processing elements takes back no event that their reads raised. -/
theorem newest_reads_le_drawElements {m : Mach} (hwaits : m.poisonWaits = false) (c : Ctx) (ch done : Nat) :
    (m.reads (sourceBase 7 + ch) ((m.soundElements c.mem ch done).map (m.drawOp ch).srcAt)).jrn.newest ≤
      (m.drawElements c ch done).1.m.jrn.newest := by
  rw [Mach.drawElements]
  simp only [strike_of_not_poisonWaits hwaits]
  have hread := Steady.refl id (m.reads (sourceBase 7 + ch) ((m.soundElements c.mem ch done).map (m.drawOp ch).srcAt))
  exact (Steady.storeAll (.ite (fun _ => hread.setN (by omega)) (fun _ => hread.onPanel))).steady.newest

/-- A hang of a RUNNING channel is one event more than what its elements raised (R249, R255). -/
theorem drawHang_newest {m : Mach} (c : Ctx) {ch : Nat} (done : Nat) (hch : ch < 2) (hrunning : m.drawState ch = 1)
    (hlate : (m.outs.drawing.getD ch {}).since + us 100 ≤ m.now) :
    (drawHang ch done c m).m.jrn.newest = (m.drawElements c ch done).1.m.jrn.newest + 1 := by
  rw [drawHang, if_neg (by omega)]
  exact failDraw_newest ..

/-! ### O25 -/

/-- A copy of two elements of 6 bytes within the host-job region. -/
def copyOfTwo : DrawOp := { op := 0, w := 2, h := 1, src := 0x2A0000000, spitch := 16, dst := 0x2A0001000, dpitch := 16 }

/-- Channel 0 is RUNNING `copyOfTwo` for 100 µs. Physical channel 11, on which the source begins, has corrected 99,999 codewords within 24 h
(R521), and an injection waits to have its next read reported corrected (R523). -/
def copyNearThreshold : State :=
  started fun m =>
    { (m.setN 0x5800 0x0C 1).setN 0x7F01 6 1 with
      clk := { m.clk with mono := us 100 }
      outs := { m.outs with drawing := [{ op := copyOfTwo }, {}] }
      dram := { m.dram with chans := modAt m.dram.chans 11 (fun x => { x with corrected := [(0, 99999)] }) }
      test := { m.test with armed := some ⟨8, 11, false, 0, 0, true, 0⟩ } }

theorem copyNearThreshold_hangs :
    copyNearThreshold.m.drawState 0 = 1 ∧
    (copyNearThreshold.m.outs.drawing.getD 0 {}).since + us 100 ≤ copyNearThreshold.m.now ∧
    copyNearThreshold.m.poisonWaits = false ∧ copyNearThreshold.m.anyPoison = false := by
  decide +kernel

/-- The first read of the source passes the threshold of its channel, with event 0xD009 (R521, R522). -/
theorem readAccess_copyNearThreshold :
    copyNearThreshold.m.physical 0x2A0000000 = (11, 352321536) ∧
    (copyNearThreshold.m.readAccess 11 352321536).jrn.newest = copyNearThreshold.m.jrn.newest + 1 := by
  decide +kernel

/-- No element of it meets poison, and the first one reads the first 6 bytes of the source. -/
theorem elements_copyNearThreshold (mem : Mem) :
    ((copyNearThreshold.m.drawOp 0).order.take 1).all
      (fun e => !copyNearThreshold.m.elementPoisoned mem (copyNearThreshold.m.drawOp 0) e) = true ∧
    (copyNearThreshold.m.soundElements mem 0 1).map (copyNearThreshold.m.drawOp 0).srcAt = [(0x2A0000000, 6)] := by
  obtain ⟨-, -, -, hclean⟩ := copyNearThreshold_hangs
  have hsound (e : Nat × Nat) : copyNearThreshold.m.elementPoisoned mem (copyNearThreshold.m.drawOp 0) e = false := by
    rw [Mach.elementPoisoned, hclean, Bool.false_and]
  have hfirst : (copyNearThreshold.m.drawOp 0).order.take 1 = [(0, 0)] := rfl
  constructor
  · simp [hsound]
  · simp only [Mach.soundElements, hfirst, hsound, Bool.not_false, List.takeWhile_cons, ↓reduceIte, List.takeWhile_nil]
    rfl

/-- Refutes O25: its clause on a hang says that one event is raised, 0xB010, but the elements done before the hang read memory, and a read that
passes the threshold of corrected codewords of its channel raises 0xD009 too, as injected faults count toward it (R249, R521, R522;
`Mach.readAccess`). -/
theorem not_drawingRunsItsElementsInOrder : ¬ Obligations.DrawingRunsItsElementsInOrder := by
  unfold Obligations.DrawingRunsItsElementsInOrder
  rintro ⟨-, -, -, -, -, -, -, -, -, -, -, hhang, -⟩
  obtain ⟨hrunning, hlate, hwaits, -⟩ := copyNearThreshold_hangs
  obtain ⟨hphysical, hraised⟩ := readAccess_copyNearThreshold
  obtain ⟨hsound, hruns⟩ := elements_copyNearThreshold copyNearThreshold.ctx.mem
  obtain ⟨t, hrun, -, -, hone, -⟩ := hhang copyNearThreshold 0 1 (by decide) hrunning hlate hwaits hsound
  have hread : copyNearThreshold.m.jrn.newest < (copyNearThreshold.m.reads (sourceBase 7 + 0) [(0x2A0000000, 6)]).jrn.newest := by
    refine newest_lt_reads hwaits (by decide) (by decide) ?_
    rw [hphysical, hraised]
    exact Nat.lt_succ_self _
  have hdrawn := newest_reads_le_drawElements hwaits copyNearThreshold.ctx 0 1
  rw [hruns] at hdrawn
  rw [exec_drawHang] at hrun
  rw [mach_of_liftE hrun, drawHang_newest _ 1 (by decide) hrunning hlate] at hone
  omega

end Sys2Proof.Machine

/-! The DRAM contents after a step (R257, O3). -/

namespace Sys2Proof.Machine

/-- The two forms of a command's answer: its meaning may write DRAM (`liftE`), or changes the block alone (`lift`). -/
inductive Lifted (s : State) : Host.Outcome State Fault Refusal → Prop where
  | writes (f : Ctx → Mach → Eff) : Lifted s (liftE f s)
  | block (f : Ctx → Mach → Mach) : Lifted s (lift f s)

/-- Every arm of `exec` is of one of the two forms. -/
theorem exec_lifted (c : Instr) (s : State) : Lifted s (exec c s) := by
  unfold exec
  cases c <;> dsimp only <;> constructor

/-- Both forms touch the DRAM by their list of writes only, on what it held or, after a loss of its contents, on nothing. -/
theorem Lifted.keeps_inv {s t : State} {o : Host.Outcome State Fault Refusal} (h : Lifted s o) (hs : s.Inv) (ht : o = .next t) : t.Inv := by
  cases h with
  | writes f =>
    rw [State.Inv, mem_of_liftE ht]
    apply memApply_wf
    split
    · rfl
    · exact hs
  | block f =>
    cases ht
    exact hs

/-- Settles O3: a step is a command of one of the two forms, or the passing of time, and writes keep the canonical form. -/
theorem memoryStaysCanonical : Obligations.MemoryStaysCanonical := by
  unfold Obligations.MemoryStaysCanonical
  intro s t hs hstep
  unfold step at hstep
  split at hstep
  next => exact (Lifted.writes idle).keeps_inv hs hstep
  next i rest _ => exact (exec_lifted i { s with pending := rest }).keeps_inv hs hstep

end Sys2Proof.Machine

/-! The training failures of a spare channel (R277, R279), and O26. -/

namespace Sys2Proof.Machine

/-! ### Counters -/

/-- A counter reads a value of its type, also once it has counted past its width (log entry 7). -/
theorem counted_le (ix sub bank v : Nat) : counted ix sub bank v ≤ objMax ix sub := by
  unfold counted
  split
  · assumption
  · exact Nat.le_of_lt_succ (Nat.mod_lt _ (Nat.succ_pos _))

theorem Mach.bump_objN_le (m : Mach) (ix sub n bank : Nat) : (m.bump ix sub n bank).objN ix sub bank ≤ objMax ix sub := by
  rw [Mach.bump, Mach.setN_objN_same]
  exact counted_le ..

/-! ### Training failures -/

/-- The training failures of a channel are a U16 object. -/
theorem objMax_trainingFailures {p : Nat} (h : p < 36) : objMax (0x7010 + p) 0x0A = 2 ^ 16 - 1 := by
  have hall : ∀ p < 36, objMax (0x7010 + p) 0x0A = 2 ^ 16 - 1 := by decide +kernel
  exact hall p h

theorem trainingFailures_trainChannel_le {p : Nat} (hp : p < 36) (m : Mach) {fails : List Nat} (h : fails ≠ []) :
    (m.trainChannel p fails).objN (0x7010 + p) 0x0A ≤ 2 ^ 16 - 1 := by
  rw [← objMax_trainingFailures hp]
  unfold Mach.trainChannel
  rw [if_neg h]
  exact Mach.bump_objN_le ..

/-- A spare that fails twice shows a number of failures that its object holds. -/
theorem trainingFailures_spareTrained_le {m : Mach} {y : TakeOver} {q : Nat} {fails : List Nat} (hy : m.dram.takeOver = some y)
    (hphase : y.phase = 1) (hspare : y.spare = some q) (hq : q < 36) (hfails : 2 ≤ fails.length) :
    (spareTrained fails m).objN (0x7010 + q) 0x0A ≤ 2 ^ 16 - 1 := by
  have hne : fails ≠ [] := List.ne_nil_of_length_pos (by omega)
  have hshown : (spareTrained fails m).objN (0x7010 + q) 0x0A = (m.trainChannel q fails).objN (0x7010 + q) 0x0A := by
    simp only [spareTrained, hy, hspare, hphase, ne_eq, not_true_eq_false, ↓reduceIte, hfails]
    exact Mach.setN_objN_ne _ _ _ _ _ (okey_ne (by decide) (by decide) (by omega) (by decide) (.inl (by omega)))
  rw [hshown]
  exact trainingFailures_trainChannel_le hq m hne

/-! ### O26 -/

/-- A take-over of logical channel 31 that trains the spare 35. -/
def trainingSpare35 : TakeOver :=
  { logical := 31, old := 31, spare := some 35, cause := 3, dead := false, phase := 1, restarts := 0, copied := 0, rate := 4, since := 0 }

/-- The spare in training has failed 65,535 times, the largest number that its object holds. -/
def spareAtLargestCount : State :=
  started fun m => { m.setN 0x7033 0x0A (2 ^ 16 - 1) with dram := { m.dram with takeOver := some trainingSpare35 } }

theorem trainingFailures_spareAtLargestCount : spareAtLargestCount.m.objN (0x7010 + 35) 0x0A = 2 ^ 16 - 1 := by decide +kernel

/-- What a command on the block alone leaves of the block. -/
theorem mach_of_lift {f : Ctx → Mach → Mach} {s t : State} (h : lift f s = .next t) : t.m = f s.ctx s.m := by
  rw [lift_next] at h
  cases h
  rfl

theorem exec_spareTrained (fails : List Nat) (s : State) : exec (.spareTrained fails) s = lift (fun _ => spareTrained fails) s := rfl

/-- Refutes O26: its clause on a spare that fails twice counts two more failures at any count short of 2³² - 2, but the training failures of a
channel (0x7010+p:0A) are a U16 object, which cannot read 65,537 (R62, R277 and the object
table of chapter 09; `counted`). -/
theorem not_dramIsRefreshedPatrolledAndTakenOver : ¬ Obligations.DramIsRefreshedPatrolledAndTakenOver := by
  unfold Obligations.DramIsRefreshedPatrolledAndTakenOver
  rintro ⟨-, -, -, -, -, -, -, -, -, -, -, -, -, -, -, -, -, -, -, -, -, -, -, -, htwice, -⟩
  have hcount := trainingFailures_spareAtLargestCount
  obtain ⟨t, hrun, -, -, hmore, -⟩ :=
    htwice spareAtLargestCount [0, 0] 35 trainingSpare35 rfl rfl rfl (by decide) (by decide) (by rw [hcount]; decide)
  have hheld : (spareTrained [0, 0] spareAtLargestCount.m).objN (0x7010 + 35) 0x0A ≤ 2 ^ 16 - 1 :=
    trainingFailures_spareTrained_le (y := trainingSpare35) rfl rfl rfl (by decide) (by decide)
  rw [exec_spareTrained] at hrun
  rw [mach_of_lift hrun, hcount] at hmore
  omega

end Sys2Proof.Machine

/-! What one lane's event leaves of the other lanes and of the rest of the block (R297 to R302, R306). -/

namespace Sys2Proof.Machine

/-! ### Objects and lanes side by side -/

/-- Keys of the same bank differ with the index or the sub-index. -/
theorem okey_ne_of_sub {ix sub jx tub : Nat} (hsub : sub < 256) (htub : tub < 256) (h : ix ≠ jx ∨ sub ≠ tub) : okey ix sub ≠ okey jx tub := by
  unfold okey; omega

theorem getD_modify_ne {α : Type} (l : List α) {i j : Nat} (h : j ≠ i) (f : α → α) (d : α) : (l.modify i f).getD j d = l.getD j d := by
  simp [List.getD_eq_getElem?_getD, h.symm]

theorem Mach.lane_onLane_ne (m : Mach) {l k : Nat} (h : k ≠ l) (f : Lane → Lane) : (m.onLane l f).lane k = m.lane k := getD_modify_ne _ h ..

@[simp] theorem Mach.onLane_lanes_length (m : Mach) (l : Nat) (f : Lane → Lane) : (m.onLane l f).lanes.length = m.lanes.length :=
  List.length_modify ..

/-- The state of a lane past the last one is the default. -/
theorem Mach.lane_default {m : Mach} {l : Nat} (h : m.lanes.length ≤ l) : m.lane l = {} := List.getD_eq_default _ _ h

@[simp] theorem Mach.tx_setTx (m : Mach) (l st : Nat) : (m.setTx l st).tx l = st := Mach.setN_objN_same ..
@[simp] theorem Mach.rx_setRx (m : Mach) (l st : Nat) : (m.setRx l st).rx l = st := Mach.setN_objN_same ..
@[simp] theorem Mach.rx_setTx (m : Mach) (l st : Nat) : (m.setTx l st).rx l = m.rx l :=
  Mach.setN_objN_ne _ _ _ _ _ (okey_ne_of_sub (by decide) (by decide) (.inr (by decide)))
@[simp] theorem Mach.tx_setRx (m : Mach) (l st : Nat) : (m.setRx l st).tx l = m.tx l :=
  Mach.setN_objN_ne _ _ _ _ _ (okey_ne_of_sub (by decide) (by decide) (.inr (by decide)))

@[simp] theorem Mach.tx_onLane (m : Mach) (k : Nat) (f : Lane → Lane) (l : Nat) : (m.onLane k f).tx l = m.tx l := rfl
@[simp] theorem Mach.rx_onLane (m : Mach) (k : Nat) (f : Lane → Lane) (l : Nat) : (m.onLane k f).rx l = m.rx l := rfl

/-! ### The steps of one lane -/

/-- From one block to the next only lane `l`, its objects 0x6010+l and what is sent changed. -/
structure LaneMoves (l : Nat) (a b : Mach) : Prop where
  frame : b = { a with od := b.od, lanes := b.lanes, out := b.out, free := b.free }
  objects : ∀ k, k / 256 ≠ 0x6010 + l → storeGet b.od k = storeGet a.od k
  others : ∀ k, k ≠ l → b.lane k = a.lane k
  length : b.lanes.length = a.lanes.length

section Rules
variable {l : Nat} {a b m : Mach}

theorem LaneMoves.refl (l : Nat) (m : Mach) : LaneMoves l m m := ⟨rfl, fun _ _ => rfl, fun _ _ => rfl, rfl⟩

theorem LaneMoves.trans (h : LaneMoves l a m) (k : LaneMoves l m b) : LaneMoves l a b := by
  refine ⟨?_, fun x hx => (k.objects x hx).trans (h.objects x hx), fun x hx => (k.others x hx).trans (h.others x hx), k.length.trans h.length⟩
  rw [k.frame, h.frame]

theorem LaneMoves.ite {c : Prop} [Decidable c] {x y : Mach} (hx : c → LaneMoves l a x) (hy : ¬ c → LaneMoves l a y) :
    LaneMoves l a (if c then x else y) := iteInduction hx hy

theorem LaneMoves.each {α : Type} {f : Mach → α → Mach} (hf : ∀ n x, LaneMoves l n (f n x)) (k : List α) (m : Mach) :
    LaneMoves l m (Machine.each k m f) := each_rel (.refl l) .trans hf k m

theorem LaneMoves.set (m : Mach) (l : Nat) {sub : Nat} (hsub : sub < 256) (v : Int) : LaneMoves l m (m.set (0x6010 + l) sub v) :=
  ⟨rfl, fun _ hk => storeGet_set_ne _ _ fun h => hk (by rw [h, okey]; omega), fun _ _ => rfl, rfl⟩

theorem LaneMoves.setTx (m : Mach) (l st : Nat) : LaneMoves l m (m.setTx l st) := .set m l (by decide) _

theorem LaneMoves.setRx (m : Mach) (l st : Nat) : LaneMoves l m (m.setRx l st) := .set m l (by decide) _

theorem LaneMoves.setB (m : Mach) (l : Nat) {sub : Nat} (hsub : sub < 256) (v : Bool) : LaneMoves l m (m.setB (0x6010 + l) sub v) :=
  .set m l hsub _

theorem LaneMoves.bump (m : Mach) (l : Nat) {sub : Nat} (hsub : sub < 256) (n : Nat) : LaneMoves l m (m.bump (0x6010 + l) sub n) :=
  .set m l hsub _

theorem LaneMoves.onLane (m : Mach) (l : Nat) (f : Lane → Lane) : LaneMoves l m (m.onLane l f) :=
  ⟨rfl, fun _ _ => rfl, fun _ hk => Mach.lane_onLane_ne m hk f, List.length_modify ..⟩

theorem LaneMoves.emit (m : Mach) (l : Nat) (o : Out) : LaneMoves l m (m.emit o) := ⟨rfl, fun _ _ => rfl, fun _ _ => rfl, rfl⟩

theorem LaneMoves.draw (m : Mach) (l : Nat) : LaneMoves l m m.draw := ⟨rfl, fun _ _ => rfl, fun _ _ => rfl, rfl⟩

theorem LaneMoves.transmit (m : Mach) (l : Nat) (blocks : List (Bool × Nat)) : LaneMoves l m (m.transmit l blocks).2 := by
  unfold Mach.transmit
  exact ((LaneMoves.onLane m l _).trans (.draw _ l)).trans (.ite (fun _ => .bump _ l (by decide) 1) (fun _ => .refl l _))

theorem LaneMoves.putKtl (m : Mach) (l : Nat) (k : Ktl) : LaneMoves l m (m.putKtl l k) :=
  .ite (fun _ => .refl l m) (fun _ => (LaneMoves.transmit m l [(true, k.payload)]).trans (.emit _ l (.ktl l k (m.transmit l [(true, k.payload)]).1)))

theorem LaneMoves.wakeLane (m : Mach) (l : Nat) : LaneMoves l m (m.wakeLane l) := by
  unfold Mach.wakeLane
  extract_lets m1
  have h1 : LaneMoves l m m1 := .onLane m l _
  refine h1.trans (.ite (fun _ => ?_) (fun _ => .ite (fun _ => .setRx m1 l 2) (fun _ => .refl l m1)))
  exact ((((LaneMoves.setTx m1 l 3).trans (.setRx _ l 2)).trans (.emit _ l _)).trans (.onLane _ l _))

theorem LaneMoves.wakeOrCancel (m : Mach) (l : Nat) (left : Bool) : LaneMoves l m (m.wakeOrCancel l left) :=
  .ite (fun _ => .refl l m) fun _ => .ite (fun _ => .onLane m l _) fun _ =>
    .ite (fun _ => .ite (fun _ => .onLane m l _) (fun _ => (LaneMoves.setTx m l 4).trans (.putKtl _ l _))) (fun _ => .wakeLane m l)

theorem LaneMoves.enterDeep (m : Mach) (l : Nat) : LaneMoves l m (m.enterDeep l) :=
  .ite (fun _ => (LaneMoves.setTx m l 2).trans (.onLane _ l _)) fun _ =>
    .ite (fun _ => ((LaneMoves.setTx m l 1).trans (.setRx _ l 1)).trans (.onLane _ l _)) (fun _ => .refl l m)

theorem LaneMoves.checkBit (m : Mach) (l : Nat) (b : Bool) : LaneMoves l m (m.checkBit l b) := by
  unfold Mach.checkBit
  extract_lets x
  split
  next k compared wrong sync _ =>
    extract_lets m1 m2 m3 m4
    have h2 : LaneMoves l m m2 := (LaneMoves.onLane m l _).trans (.ite (fun _ => .bump _ l (by decide) 1) (fun _ => .refl l _))
    have h3 : LaneMoves l m m3 := h2.trans (.ite (fun _ => .bump _ l (by decide) 1) (fun _ => .refl l _))
    have h4 : LaneMoves l m m4 := h3.trans (.ite (fun _ => .bump _ l (by decide) 1) (fun _ => .refl l _))
    exact h4.trans (.setB _ l (by decide) sync)

theorem LaneMoves.checkerBits (m : Mach) (l : Nat) (symbols : List Level) : LaneMoves l m (checkerBits l symbols m) := by
  refine .ite (fun _ => .refl l m) (fun _ => ?_)
  exact ((LaneMoves.onLane m l _).trans (.emit _ l _)).trans (.each (fun n b => .checkBit n l b) _ _)

/-! ### What one lane's step leaves -/

variable (h : LaneMoves l a b)
include h

theorem LaneMoves.clk : b.clk = a.clk := by have := congrArg Mach.clk h.frame; exact this
theorem LaneMoves.tiles : b.tiles = a.tiles := by have := congrArg Mach.tiles h.frame; exact this
theorem LaneMoves.power_ : b.power_ = a.power_ := by have := congrArg Mach.power_ h.frame; exact this
theorem LaneMoves.calib : b.calib = a.calib := by have := congrArg Mach.calib h.frame; exact this

theorem LaneMoves.now : b.now = a.now := congrArg Clk.mono h.clk

/-- An object that is not of the lane keeps its value. -/
theorem LaneMoves.obj {ix sub bank : Nat} (hsub : sub < 256) (hix : ix < 65536) (hl : l < 192) (hne : ix ≠ 0x6010 + l) :
    b.obj ix sub bank = a.obj ix sub bank := h.objects _ (by rw [okey]; omega)

theorem LaneMoves.objN {ix sub bank : Nat} (hsub : sub < 256) (hix : ix < 65536) (hl : l < 192) (hne : ix ≠ 0x6010 + l) :
    b.objN ix sub bank = a.objN ix sub bank := congrArg Int.toNat (h.obj hsub hix hl hne)

/-- The objects of another lane keep their values. -/
theorem LaneMoves.laneObjN {k sub : Nat} (hsub : sub < 256) (hne : k ≠ l) : b.objN (0x6010 + k) sub = a.objN (0x6010 + k) sub :=
  congrArg Int.toNat (h.objects _ (by rw [okey]; omega))

theorem LaneMoves.tx {k : Nat} (hne : k ≠ l) : b.tx k = a.tx k := h.laneObjN (by decide) hne
theorem LaneMoves.laneMode {k : Nat} (hne : k ≠ l) : b.laneMode k = a.laneMode k := h.laneObjN (by decide) hne

end Rules

end Sys2Proof.Machine

/-! The deep state of lanes and the way out of it (R291, R297 to R302, O27). -/

namespace Sys2Proof.Machine

/-! ### What sending leaves of a lane -/

/-- A lane without its sender: the scrambler, the armed kind of injection and the segments to send. -/
def Lane.receiving (x : Lane) : Lane :=
  { x with scrambler := [], sentAt := none, armed := 0, badTx := false, staged := [], unacked := [], naked := [], cur := none }

theorem Lane.encode_receiving (blocks : List (Bool × Nat)) : ∀ x : Lane, (x.encode blocks).2.receiving = x.receiving := by
  induction blocks with
  | nil => exact fun _ => rfl
  | cons b blocks ih =>
    intro x
    obtain ⟨control, payload⟩ := b
    simp only [Lane.encode]
    exact (ih _).trans rfl

theorem Lane.disarmed_receiving (x : Lane) : x.disarmed.receiving = x.receiving := by
  unfold Lane.disarmed
  split <;> rfl

/-- A change of one element that a view of it does not show. -/
theorem map_modify_of_getD {α β : Type} {g : α → β} {f : α → α} {d : α} (l : List α) (i : Nat) (hf : g (f (l.getD i d)) = g (l.getD i d)) :
    (l.modify i f).map g = l.map g := by
  apply List.ext_getElem?
  intro j
  rw [List.getElem?_map, List.getElem?_map, List.getElem?_modify]
  by_cases hij : i = j
  · subst hij
    cases hl : l[i]? with
    | none => rfl
    | some y =>
      rw [List.getD_eq_getElem?_getD, hl] at hf
      simpa using hf
  · cases l[j]? <;> simp [hij]

theorem onLane_receiving (m : Mach) (l : Nat) {f : Lane → Lane} (hf : (f (m.lane l)).receiving = (m.lane l).receiving) :
    (m.onLane l f).lanes.map Lane.receiving = m.lanes.map Lane.receiving := map_modify_of_getD m.lanes l hf

theorem transmit_receiving (m : Mach) (l : Nat) (blocks : List (Bool × Nat)) :
    (m.transmit l blocks).2.lanes.map Lane.receiving = m.lanes.map Lane.receiving := by
  unfold Mach.transmit
  extract_lets x y
  have hbegin : y.receiving = x.receiving := iteInduction (motive := fun z : Lane => z.receiving = x.receiving) (fun _ => rfl) (fun _ => rfl)
  split
  next symbols z hz =>
    have hencode : z.receiving = y.receiving := by rw [← Lane.encode_receiving blocks y, hz]
    have hlanes := onLane_receiving m l (f := fun _ => ({ z with sentAt := some m.now } : Lane).disarmed)
      ((Lane.disarmed_receiving _).trans (hencode.trans hbegin))
    exact iteInduction (motive := fun n : Mach => n.lanes.map Lane.receiving = _) (fun _ => by rw [Mach.bump_lanes]; exact hlanes) (fun _ => hlanes)

theorem putKtl_receiving (m : Mach) (l : Nat) (k : Ktl) : (m.putKtl l k).lanes.map Lane.receiving = m.lanes.map Lane.receiving :=
  iteInduction (motive := fun n : Mach => n.lanes.map Lane.receiving = _) (fun _ => rfl) (fun _ => transmit_receiving m l [(true, k.payload)])

/-- A lane that sends counts the injection that acts on it, and changes no other object (R307). -/
theorem putKtl_storeGet (m : Mach) (l : Nat) (x : Ktl) {k : Nat} (hk : k ≠ okey (0x6010 + l) 0x15) :
    storeGet (m.putKtl l x).od k = storeGet m.od k := by
  refine iteInduction (motive := fun n : Mach => storeGet n.od k = _) (fun _ => rfl) (fun _ => ?_)
  exact iteInduction (motive := fun n : Mach => storeGet n.od k = _) (fun _ => storeGet_set_ne _ _ hk) (fun _ => rfl)

@[simp] theorem tx_putKtl (m : Mach) (l : Nat) (x : Ktl) (k : Nat) : (m.putKtl l x).tx k = m.tx k :=
  congrArg Int.toNat (putKtl_storeGet m l x (okey_ne_of_sub (by decide) (by decide) (.inr (by decide))))

@[simp] theorem rx_putKtl (m : Mach) (l : Nat) (x : Ktl) (k : Nat) : (m.putKtl l x).rx k = m.rx k :=
  congrArg Int.toNat (putKtl_storeGet m l x (okey_ne_of_sub (by decide) (by decide) (.inr (by decide))))

theorem putKtl_out_length {m : Mach} {l : Nat} (h : m.tx l = 4) (x : Ktl) : (m.putKtl l x).out.length = m.out.length + 1 := by
  have hout : (m.transmit l [(true, x.payload)]).2.out = m.out :=
    iteInduction (motive := fun n : Mach => n.out = m.out) (fun _ => Mach.bump_out ..) (fun _ => rfl)
  unfold Mach.putKtl
  rw [if_neg (not_not.mpr h)]
  exact congrArg (fun o => List.length o + 1) hout

/-- Control blocks that an ACTIVE TX sends one behind the other. -/
theorem each_putKtl {l : Nat} (x : Nat → Ktl) (k : List Nat) : ∀ {m : Mach}, m.tx l = 4 →
    (each k m (fun n i => n.putKtl l (x i))).rx l = m.rx l ∧ (each k m (fun n i => n.putKtl l (x i))).out.length = m.out.length + k.length := by
  induction k with
  | nil => exact fun _ => ⟨rfl, rfl⟩
  | cons i k ih =>
    intro m h
    obtain ⟨hrx, hout⟩ := ih (m := m.putKtl l (x i)) ((tx_putKtl ..).trans h)
    rw [putKtl_out_length h] at hout
    exact ⟨hrx.trans (rx_putKtl ..), hout.trans (by rw [List.length_cons]; omega)⟩

/-! ### Into the deep state -/

/-- A lane that becomes DEEP: its TX, its RX unless that is LOCKED, and since when (R299, log entry 20). -/
theorem becomeDeep_states (m : Mach) (l : Nat) :
    (m.becomeDeep l).tx l = 1 ∧ (m.becomeDeep l).rx l = (if m.rx l = 4 then 4 else 1) ∧ (m.becomeDeep l).out = m.out := by
  unfold Mach.becomeDeep
  by_cases h : m.rx l = 4 <;> simp [h]

theorem becomeDeep_deepAt {m : Mach} {l : Nat} (h : l < m.lanes.length) : ((m.becomeDeep l).lane l).deepAt = m.now := by
  unfold Mach.becomeDeep
  by_cases hrx : (m.setTx l 1).rx l = 4
  all_goals
    simp only [hrx, ↓reduceIte]
    rw [Mach.lane_onLane_same (by simpa using h)]
    rfl

theorem laneSleepSent_of_entering {m : Mach} {l : Nat} (h : m.tx l = 2) : laneSleepSent l m =
    (each (upTo 16) (m.setTx l 4) (fun n i => n.putKtl l (.laneSleep (15 - i)))).becomeDeep l := if_neg (not_not.mpr h)

theorem enterDeep_of_active {m : Mach} {l : Nat} (hmode : m.laneMode l = 0) (htx : m.tx l = 4) : (m.enterDeep l).tx l = 2 := by
  unfold Mach.enterDeep
  rw [if_pos ⟨hmode, htx⟩, Mach.tx_onLane, Mach.tx_setTx]

/-- The cases of R298 that hold a lane deep ask nothing of another lane. -/
theorem LaneMoves.deepHolds {l k : Nat} {a b : Mach} (h : LaneMoves l a b) (hl : l < 192) (hk : k < 192) (hne : k ≠ l) :
    b.deepHolds k = a.deepHolds k := by
  have hpresent : b.chainPresent (k / 2) = a.chainPresent (k / 2) := by
    unfold Mach.chainPresent Mach.tileState
    simp only [h.objN (ix := 0x6181) (by decide : 1 < 256) (by decide) hl (by omega)]
  have hchain : b.chain (k / 2) = a.chain (k / 2) := by rw [Mach.chain, h.tiles, Mach.chain]
  have henabled : b.objB (0x6010 + k) 2 = a.objB (0x6010 + k) 2 := by
    rw [Mach.objB, Mach.objB, h.obj (by decide) (by omega) hl (by omega)]
  have hlistening : b.listening = a.listening := by rw [Mach.listening, h.power_, Mach.listening]
  unfold Mach.deepHolds Mach.power
  dsimp only
  rw [hpresent, hchain, henabled, hlistening, h.now, h.objN (ix := 0x2100) (by decide) (by decide) hl (by omega),
    h.objN (ix := 0x6400) (by decide) (by decide) hl (by omega)]

/-! ### Out of the deep state -/

theorem txActive_tx (m : Mach) (l : Nat) : (m.txActive l).tx l = 4 := by
  rw [Mach.txActive, tx_putKtl, Mach.tx_onLane, Mach.tx_setTx]

theorem txActive_receiving (m : Mach) (l k : Nat) : ((m.txActive l).lane k).receiving = (m.lane k).receiving :=
  getD_of_map_eq ((putKtl_receiving ..).trans (onLane_receiving _ l rfl)) k _

theorem hunt_rx (m : Mach) (l : Nat) : (m.hunt l).rx l = 3 := by rw [Mach.hunt, Mach.rx_onLane, Mach.rx_setRx]

/-- Step 1 of R301 for a lane whose TX is DEEP. -/
theorem wakeLane_of_deep {m : Mach} {l : Nat} (h : m.tx l = 1) : m.wakeLane l =
    ((((m.onLane l (fun x => { x with pendingWake := false })).setTx l 3).setRx l 2).emit (.wakePattern l)).onLane l
      (fun x => { x with patternDone := false, pllDone := false }) := if_pos (.inl h)

theorem wakeLane_states {m : Mach} {l : Nat} (h : m.tx l = 1) : (m.wakeLane l).tx l = 3 ∧ (m.wakeLane l).rx l = 2 := by
  rw [wakeLane_of_deep h]
  exact ⟨(Mach.tx_setRx ..).trans (Mach.tx_setTx ..), Mach.rx_setRx ..⟩

theorem wakeLane_pendingWake {m : Mach} {l : Nat} (h : m.tx l = 1) (hl : l < m.lanes.length) :
    ((m.wakeLane l).lane l).pendingWake = false := by
  rw [wakeLane_of_deep h, Mach.lane_onLane_same (by exact (List.length_modify ..).symm ▸ hl)]
  exact congrArg Lane.pendingWake (Mach.lane_onLane_same hl _)

theorem wakeLane_count {m : Mach} {l : Nat} (h : m.tx l = 1) : (m.wakeLane l).objN (0x6010 + l) 0x16 = m.objN (0x6010 + l) 0x16 := by
  rw [wakeLane_of_deep h]
  exact (Mach.setN_objN_ne _ _ _ _ _ (okey_ne_of_sub (by decide) (by decide) (.inr (by decide)))).trans
    (Mach.setN_objN_ne _ _ _ _ _ (okey_ne_of_sub (by decide) (by decide) (.inr (by decide))))

theorem wakeOrCancel_of_rested {m : Mach} {l : Nat} (hmode : m.laneMode l = 0) (htx : m.tx l = 1) (h : (m.lane l).deepAt + us 2 ≤ m.now)
    (left : Bool) : m.wakeOrCancel l left = m.wakeLane l := by
  unfold Mach.wakeOrCancel
  rw [if_neg (not_not.mpr hmode), if_neg (by omega), if_neg (by omega)]

theorem wakeOrCancel_of_fresh {m : Mach} {l : Nat} (hmode : m.laneMode l = 0) (htx : m.tx l = 1) (h : m.now < (m.lane l).deepAt + us 2)
    (left : Bool) : m.wakeOrCancel l left = m.onLane l (fun x => { x with pendingWake := true }) := by
  unfold Mach.wakeOrCancel
  rw [if_neg (not_not.mpr hmode), if_pos ⟨htx, h⟩]

/-! ### A wake that is recognised -/

theorem objMax_wakes {l : Nat} (h : l < 192) : objMax (0x6010 + l) 0x16 = 4294967295 := by
  have hall : ∀ l < 192, objMax (0x6010 + l) 0x16 = 4294967295 := by decide +kernel
  exact hall l h

/-- Two blocks in which a lane with its objects is the same, at the same time. -/
structure SameLane (l : Nat) (a b : Mach) : Prop where
  lane : b.lane l = a.lane l
  objects : ∀ sub < 256, b.objN (0x6010 + l) sub = a.objN (0x6010 + l) sub
  now : b.now = a.now
  length : b.lanes.length = a.lanes.length

theorem LaneMoves.sameLane {k l : Nat} {a b : Mach} (h : LaneMoves k a b) (hne : l ≠ k) : SameLane l a b :=
  ⟨h.others l hne, fun _ hsub => h.laneObjN hsub hne, h.now, h.length⟩

theorem SameLane.refl (l : Nat) (a : Mach) : SameLane l a a := ⟨rfl, fun _ _ => rfl, rfl, rfl⟩

/-- The two lanes of a chain in turn: each takes its step on a block in which it is as it was, and the other's step leaves it so. -/
theorem each_pair {f : Mach → Nat → Mach} (hf : ∀ n x, LaneMoves x n (f n x)) (l : Nat) (m : Mach) :
    ∃ n, SameLane l m n ∧ SameLane l (f n l) (each [l / 2 * 2, l / 2 * 2 + 1] m f) := by
  obtain h | h : l / 2 * 2 = l ∨ l / 2 * 2 + 1 = l := by omega
  · rw [h]
    exact ⟨m, .refl l m, (hf _ (l + 1)).sameLane (by omega)⟩
  · rw [h]
    exact ⟨f m (l / 2 * 2), (hf _ _).sameLane (by omega), .refl l _⟩

/-- The block once a wake at a lane of a chain is counted (R298, R300). -/
def Mach.wakeCounted (m : Mach) (l : Nat) : Mach := (m.bump (0x6010 + l) 0x16).onChain (l / 2) (fun ch => { ch with emptySince := m.now })

/-- In P0 and P1 a wake is counted, and both lanes of its chain leave the deep state. -/
theorem laneWake_of_service {m : Mach} {l : Nat} (hl : l < 192) (hmode : m.laneMode l = 0) (hpower : m.power ≤ 1)
    (hstop : m.power_.stop ≠ some 3) (hentry : m.power_.entry = none) (hrx : m.rx l = 1) (activity left : Bool) (c : Ctx) :
    laneWake l activity left c m = .of (each [l / 2 * 2, l / 2 * 2 + 1] (m.wakeCounted l) (fun m x => m.wakeOrCancel x left)) := by
  have hpower' : (m.bump (0x6010 + l) 0x16).power = m.power :=
    Mach.bump_objN_ne _ _ _ _ _ (okey_ne (by decide) (by decide) (by decide) (by omega) (.inl (by omega)))
  have hclk : (m.bump (0x6010 + l) 0x16).now = m.now := congrArg Clk.mono (Mach.bump_clk ..)
  unfold laneWake
  rw [if_neg (by omega), if_neg (by simp [hstop, hentry]; omega)]
  dsimp only
  rw [hpower', if_neg (by omega), hclk]
  rfl

theorem wakeCounted_objN (m : Mach) (l : Nat) {sub : Nat} (hsub : sub < 256) (hne : sub ≠ 0x16) :
    (m.wakeCounted l).objN (0x6010 + l) sub = m.objN (0x6010 + l) sub :=
  Mach.bump_objN_ne _ _ _ _ _ (okey_ne_of_sub hsub (by decide) (.inr hne))

theorem wakeCounted_count {m : Mach} {l : Nat} (hl : l < 192) (h : m.objN (0x6010 + l) 0x16 < 4294967295) :
    (m.wakeCounted l).objN (0x6010 + l) 0x16 = m.objN (0x6010 + l) 0x16 + 1 :=
  Mach.bump_objN_same _ _ _ _ _ (by rw [objMax_wakes hl]; omega)

/-- A lane at which a wake is recognised takes it, once counted, as it was before it. -/
theorem wakeCounted_pair {m : Mach} {l : Nat} (hmode : m.laneMode l = 0) (htx : m.tx l = 1) (left : Bool) :
    ∃ n : Mach, n.lane l = m.lane l ∧ n.tx l = 1 ∧ n.laneMode l = 0 ∧ n.now = m.now ∧ n.lanes.length = m.lanes.length ∧
      n.objN (0x6010 + l) 0x16 = (m.wakeCounted l).objN (0x6010 + l) 0x16 ∧
      SameLane l (n.wakeOrCancel l left) (each [l / 2 * 2, l / 2 * 2 + 1] (m.wakeCounted l) (fun m x => m.wakeOrCancel x left)) := by
  obtain ⟨n, hbefore, hafter⟩ := each_pair (f := fun m x => m.wakeOrCancel x left) (fun n x => .wakeOrCancel n x left) l (m.wakeCounted l)
  exact ⟨n, hbefore.lane, (hbefore.objects 3 (by decide)).trans ((wakeCounted_objN m l (by decide) (by decide)).trans htx),
    (hbefore.objects 1 (by decide)).trans ((wakeCounted_objN m l (by decide) (by decide)).trans hmode), hbefore.now, hbefore.length,
    hbefore.objects 0x16 (by decide), hafter⟩

/-! ### O27 -/

/-- Settles O27: each event by what it makes of its lane. -/
theorem laneStatesFollowTheirEvents : Obligations.LaneStatesFollowTheirEvents := by
  unfold Obligations.LaneStatesFollowTheirEvents
  refine ⟨?sleepSent, ?sleep, ?sleepNoted, ?pattern, ?pll, ?cdr, ?residency, ?idleTimeout, ?wake, ?wakeWaits⟩
  case sleepSent =>
    intro s l htx hl
    refine runs_of_lift (f := fun _ => laneSleepSent l) ?_
    dsimp only
    rw [laneSleepSent_of_entering htx]
    obtain ⟨hrx, hout⟩ := each_putKtl (fun i => .laneSleep (15 - i)) (upTo 16) (Mach.tx_setTx s.m l 4)
    have hmoves : LaneMoves l s.m (each (upTo 16) (s.m.setTx l 4) (fun n i => n.putKtl l (.laneSleep (15 - i)))) :=
      (LaneMoves.setTx s.m l 4).trans (.each (fun n i => .putKtl n l _) _ _)
    obtain ⟨htx', hrx', hout'⟩ := becomeDeep_states (each (upTo 16) (s.m.setTx l 4) (fun n i => n.putKtl l (.laneSleep (15 - i)))) l
    rw [Mach.rx_setTx] at hrx
    exact ⟨htx', by rw [hrx', hrx], by rw [becomeDeep_deepAt (by rwa [hmoves.length]), hmoves.now], by rw [hout', hout]; rfl⟩
  case sleep =>
    intro s l hrx
    refine runs_of_lift (f := fun _ => sleepBlock l 0) ?_
    dsimp only
    rw [sleepBlock, Mach.sleepBlock, if_neg (not_not.mpr hrx), if_neg (by decide)]
    exact ⟨Mach.rx_setRx .., Mach.tx_setRx ..⟩
  case sleepNoted =>
    intro s l n hrx hn hl
    refine runs_of_lift (f := fun _ => sleepBlock l n) ?_
    dsimp only
    rw [sleepBlock, Mach.sleepBlock, if_neg (not_not.mpr hrx), if_pos hn]
    exact ⟨hrx, congrArg Lane.sleepAgo (Mach.lane_onLane_same hl _)⟩
  case pattern =>
    intro s l htx hl
    refine runs_of_lift (f := fun _ => wakePatternDone l) ?_
    dsimp only
    have hlane := Mach.lane_onLane_same hl (fun x => { x with patternDone := true })
    rw [wakePatternDone, if_neg (not_not.mpr htx)]
    dsimp only
    rw [hlane]
    by_cases hpll : (s.m.lane l).pllDone = true
    · rw [if_pos hpll, if_pos hpll]
      exact ⟨txActive_tx .., (congrArg Lane.patternDone (txActive_receiving ..)).trans (by rw [hlane]; rfl)⟩
    · rw [if_neg hpll, if_neg hpll]
      exact ⟨htx, by rw [hlane]⟩
  case pll =>
    intro s l htx hl
    refine runs_of_lift (f := fun _ => pllLocked l) ?_
    dsimp only
    have hlane := Mach.lane_onLane_same hl (fun x => { x with pllDone := true })
    rw [pllLocked, if_neg (not_not.mpr htx)]
    dsimp only
    rw [hlane]
    by_cases hpattern : (s.m.lane l).patternDone = true
    · rw [if_pos hpattern, if_pos hpattern]
      exact ⟨txActive_tx .., (congrArg Lane.pllDone (txActive_receiving ..)).trans (by rw [hlane]; rfl)⟩
    · rw [if_neg hpattern, if_neg hpattern]
      exact ⟨htx, by rw [hlane]⟩
  case cdr =>
    intro s l hrx hl
    refine runs_of_lift (f := fun _ => cdrLocked l) ?_
    dsimp only
    rw [cdrLocked, if_pos hrx]
    have hlane := Mach.lane_onLane_same (m := s.m.setRx l 3) hl
    exact ⟨hunt_rx .., congrArg Lane.good (hlane _), congrArg Lane.huntAt (hlane _)⟩
  case residency =>
    intro s l hwake htx hrested
    have hl : l < s.m.lanes.length := by
      by_contra hl
      rw [Mach.lane_default (by omega)] at hwake
      cases hwake
    refine runs_of_lift (f := fun _ => deepResidencyEnd l) ?_
    dsimp only
    unfold deepResidencyEnd
    dsimp only
    rw [if_pos ⟨hwake, .inl htx, hrested⟩, wakeLane_pendingWake htx hl]
    obtain ⟨htx', hrx'⟩ := wakeLane_states htx
    exact ⟨htx', hrx', by simp [hl]⟩
  case idleTimeout =>
    intro s c hc hpower hmode hmode' htx htx' hdeep hdeep'
    refine runs_of_lift (f := fun _ => deepIdleTimeout c) ?_
    dsimp only
    have hfirst := LaneMoves.enterDeep s.m (2 * c)
    have hholds := (hfirst.deepHolds (k := 2 * c + 1) (by omega) (by omega) (by omega)).trans hdeep'
    have hboth : deepIdleTimeout c s.m = (s.m.enterDeep (2 * c)).enterDeep (2 * c + 1) := by
      simp only [deepIdleTimeout, hpower, hc, and_self, each, List.foldl_cons, List.foldl_nil, hdeep, hholds, ↓reduceIte]
    rw [hboth]
    exact ⟨((LaneMoves.enterDeep _ (2 * c + 1)).tx (by omega)).trans (enterDeep_of_active hmode htx),
      enterDeep_of_active ((hfirst.laneMode (by omega)).trans hmode') ((hfirst.tx (by omega)).trans htx')⟩
  case wake =>
    intro s l activity left hl _ hmode hpower hstop hentry htx hrx hrested hroom
    refine runs_of_eff (laneWake_of_service hl hmode hpower hstop hentry hrx activity left s.ctx) ?_
    obtain ⟨n, hlane, htx', hmode', hnow, -, hcount, hsame⟩ := wakeCounted_pair hmode htx left
    rw [wakeOrCancel_of_rested hmode' htx' (by rwa [hlane, hnow])] at hsame
    obtain ⟨hwaking, hrxWaking⟩ := wakeLane_states htx'
    refine ⟨(hsame.objects 3 (by decide)).trans hwaking, (hsame.objects 4 (by decide)).trans hrxWaking, ?_⟩
    rw [hsame.objects 0x16 (by decide), wakeLane_count htx', hcount, wakeCounted_count hl hroom]
  case wakeWaits =>
    intro s l activity left hl hlength hmode hpower hstop hentry htx hfresh hrx hroom
    refine runs_of_eff (laneWake_of_service hl hmode hpower hstop hentry hrx activity left s.ctx) ?_
    obtain ⟨n, hlane, htx', hmode', hnow, hlength', hcount, hsame⟩ := wakeCounted_pair hmode htx left
    rw [wakeOrCancel_of_fresh hmode' htx' (by rwa [hlane, hnow])] at hsame
    refine ⟨(hsame.objects 3 (by decide)).trans htx', ?_, ?_⟩
    · exact (congrArg Lane.pendingWake hsame.lane).trans (congrArg Lane.pendingWake (Mach.lane_onLane_same (by omega) _))
    · exact (hsame.objects 0x16 (by decide)).trans (hcount.trans (wakeCounted_count hl hroom))

end Sys2Proof.Machine

/-! What the links of a chain leave of the receiving side of its lanes: reports, breaks and heals, and enumeration (R324, R330 to R334). -/

namespace Sys2Proof.Machine

/-- From one block to the next the lanes' receivers are as they were, with the objects 0x6010 to 0x60CF but for the counts of injections. -/
structure ReceiversStay (a b : Mach) : Prop where
  boot : b.boot = a.boot
  lanes : b.lanes.map Lane.receiving = a.lanes.map Lane.receiving
  objects : ∀ k, 0x6010 * 256 ≤ k → k < 0x60D0 * 256 → k % 256 ≠ 0x15 → storeGet b.od k = storeGet a.od k

section Rules
variable {a b m : Mach}

theorem ReceiversStay.refl (m : Mach) : ReceiversStay m m := ⟨rfl, rfl, fun _ _ _ _ => rfl⟩

theorem ReceiversStay.trans (h : ReceiversStay a m) (k : ReceiversStay m b) : ReceiversStay a b :=
  ⟨k.boot.trans h.boot, k.lanes.trans h.lanes, fun x hl hr hx => (k.objects x hl hr hx).trans (h.objects x hl hr hx)⟩

theorem ReceiversStay.keep (h : ReceiversStay a m) (hb : (b.boot, b.lanes, b.od) = (m.boot, m.lanes, m.od)) : ReceiversStay a b := by
  obtain ⟨hboot, hlanes, hod⟩ : _ ∧ _ ∧ _ := by simpa only [Prod.mk.injEq] using hb
  exact h.trans ⟨hboot, by rw [hlanes], fun _ _ _ _ => by rw [hod]⟩

theorem ReceiversStay.ite {c : Prop} [Decidable c] {x y : Mach} (hx : c → ReceiversStay a x) (hy : ¬ c → ReceiversStay a y) :
    ReceiversStay a (if c then x else y) := iteInduction hx hy

theorem ReceiversStay.each {β : Type} {f : Mach → β → Mach} (l : List β) (hf : ∀ n x, ReceiversStay a n → ReceiversStay a (f n x))
    (h : ReceiversStay a m) : ReceiversStay a (Machine.each l m f) :=
  List.foldlRecOn l f (motive := fun n => ReceiversStay a n) h fun n hn x _ => hf n x hn

/-! ### Objects, events and lanes -/

theorem ReceiversStay.set {ix : Nat} (hix : 0x60D0 ≤ ix) {sub bank : Nat} {x : Int} (h : ReceiversStay a m) :
    ReceiversStay a (m.set ix sub x bank) :=
  h.trans ⟨rfl, rfl, fun _ _ hk _ => storeGet_set_ne m.od x (by rw [okey]; omega)⟩

theorem ReceiversStay.setN {ix : Nat} (hix : 0x60D0 ≤ ix) {sub x bank : Nat} (h : ReceiversStay a m) :
    ReceiversStay a (m.setN ix sub x bank) := h.set hix

theorem ReceiversStay.bump {ix : Nat} (hix : 0x60D0 ≤ ix) {sub n bank : Nat} (h : ReceiversStay a m) :
    ReceiversStay a (m.bump ix sub n bank) := h.set hix

theorem ReceiversStay.sets {ix : Nat} (hix : 0x60D0 ≤ ix) {l : List (Nat × Int)} {bank : Nat} (h : ReceiversStay a m) :
    ReceiversStay a (m.sets ix l bank) := .each l (fun _ _ hn => hn.set hix) h

theorem ReceiversStay.raise {code inst : Nat} {d : List (Nat × Nat)} (hcode : code < 0x100000) (h : ReceiversStay a m) :
    ReceiversStay a (m.raise code inst d) := by
  refine h.trans ⟨Mach.raise_boot .., by rw [Mach.raise_lanes], fun k hk _ _ => ?_⟩
  exact storeGet_set_ne m.od _ (by rw [okey]; omega)

theorem ReceiversStay.onLane {l : Nat} {f : Lane → Lane} (hf : ∀ x, (f x).receiving = x.receiving) (h : ReceiversStay a m) :
    ReceiversStay a (m.onLane l f) := h.trans ⟨rfl, onLane_receiving m l (hf _), fun _ _ _ _ => rfl⟩

theorem ReceiversStay.putKtl {l : Nat} {k : Ktl} (h : ReceiversStay a m) : ReceiversStay a (m.putKtl l k) :=
  h.trans ⟨(Sends.putKtl m l k).boot, putKtl_receiving m l k, fun _ _ _ hx => putKtl_storeGet m l k (by rw [okey]; omega)⟩

theorem ReceiversStay.sendKtl {l : Nat} {k : Ktl} (h : ReceiversStay a m) : ReceiversStay a (m.sendKtl l k) :=
  .ite (fun _ => h) (fun _ => h.putKtl)

theorem ReceiversStay.onChain {c : Nat} {f : Chain → Chain} (h : ReceiversStay a m) : ReceiversStay a (m.onChain c f) := h.keep rfl

theorem ReceiversStay.onTile {c pos : Nat} {f : Tile → Tile} (h : ReceiversStay a m) : ReceiversStay a (m.onTile c pos f) := h.keep rfl

theorem ReceiversStay.later {x : TileNews} (h : ReceiversStay a m) : ReceiversStay a (m.later x) := h.keep rfl

theorem Assigns.receiversStay (h : Assigns a b) : ReceiversStay a b := by
  refine ⟨?_, by rw [h.lanes], fun _ _ _ _ => by rw [h.od]⟩
  have := congrArg Mach.boot h
  exact this

/-! ### Tiles -/

theorem ReceiversStay.setTile {c pos st : Nat} (h : ReceiversStay a m) : ReceiversStay a (m.setTile c pos st) := by
  unfold Mach.setTile
  extract_lets m1 m2 m3 m4
  have h1 : ReceiversStay a m1 := h.setN (by decide)
  have h2 : ReceiversStay a m2 := (h1.sets (by decide)).sets (by decide)
  have h3 : ReceiversStay a m3 := .ite (fun _ => h2) (fun _ => h2.setN (by decide))
  have h4 : ReceiversStay a m4 := h3.onTile
  exact .ite (fun _ => .ite (fun _ => h4) (fun _ => h4.onChain)) (fun _ => h1)

theorem ReceiversStay.loseTile {c pos : Nat} (h : ReceiversStay a m) : ReceiversStay a (m.loseTile c pos) :=
  .ite (fun _ => h.setTile.onTile) fun _ => .ite (fun _ => h.setTile) (fun _ => h)

theorem ReceiversStay.writeC {l c pos d : Nat} (h : ReceiversStay a m) : ReceiversStay a (m.writeC l c pos d) :=
  (h.onTile.setN (by decide)).sendKtl

/-! ### Breaks and heals -/

theorem ReceiversStay.moveSegs {l k : Nat} {again : Bool} {f : Seg → Bool} (h : ReceiversStay a m) :
    ReceiversStay a (m.moveSegs l k again f) := (h.onLane fun _ => by rfl).onLane fun _ => by rfl

theorem ReceiversStay.reRank {c k : Nat} (h : ReceiversStay a m) : ReceiversStay a (m.reRank c k) := h.keep rfl

theorem ReceiversStay.feedFromA {c : Nat} {l : List Nat} (h : ReceiversStay a m) : ReceiversStay a (m.feedFromA c l) := by
  cases l with
  | nil => exact h
  | cons f more => exact .moveSegs (h.sendKtl.each _ fun _ _ hn => (hn.setN (by decide)).writeC)

theorem ReceiversStay.healChain {c x k : Nat} (h : ReceiversStay a m) : ReceiversStay a (m.healChain c x k) := by
  unfold Mach.healChain
  extract_lets len b lost had m1 back m2 m3 m4 m5 kind down state m6 m7 m8
  have h1 : ReceiversStay a m1 := h.each _ fun _ _ hn => hn.loseTile
  have h2 : ReceiversStay a m2 := h1.feedFromA
  have h3 : ReceiversStay a m3 := .ite (fun _ => h2.sendKtl) (fun _ => h2)
  have h4 : ReceiversStay a m4 := h3.each _ fun n i hn => .ite (fun _ => hn) fun _ =>
    .ite (fun _ => hn.setN (by decide)) (fun _ => (hn.setN (by decide)).writeC)
  have h5 : ReceiversStay a m5 := h4.moveSegs.reRank
  have h6 : ReceiversStay a m6 := h5.setN (by omega)
  have h7 : ReceiversStay a m7 := h6.setN (by omega)
  have h8 : ReceiversStay a m8 := (h7.setN (by omega)).bump (by omega)
  exact h8.onChain

theorem ReceiversStay.tryHeal {c : Nat} (h : ReceiversStay a m) : ReceiversStay a (m.tryHeal c) := by
  unfold Mach.tryHeal
  dsimp only
  split
  · exact h
  · split
    · exact h
    · exact h.healChain

theorem ReceiversStay.noteBreak {c : Nat} {x k : Option Nat} (h : ReceiversStay a m) : ReceiversStay a (m.noteBreak c x k) :=
  .ite (fun _ => h.later) fun _ => .ite (fun _ => h) (fun _ => h.onChain.tryHeal)

theorem ReceiversStay.healedSince {old : Mach} {c : Nat} (h : ReceiversStay a m) : ReceiversStay a (old.healedSince c m) :=
  .ite (fun _ => h) (fun _ => h.trans (Assigns.assign_rescheduleAll m).receiversStay)

/-! ### Reports and enumeration -/

theorem ReceiversStay.report {c : Nat} (h : ReceiversStay a m) : ReceiversStay a (m.report c) := by
  refine .ite (fun _ => h.later) fun _ => ?_
  split
  · exact h.onChain
  · exact h.keep rfl

theorem ReceiversStay.enumerateChain {c : Nat} (h : ReceiversStay a m) : ReceiversStay a (m.enumerateChain c) := by
  refine .ite (fun _ => h.later) fun _ => .ite (fun _ => h) fun _ => ?_
  extract_lets m1 seq whole m2 m3
  have h2 : ReceiversStay a m2 := .ite (fun _ => h.onChain.setN (by omega)) (fun _ => h.onChain)
  exact .ite (fun _ => h2.sendKtl) (fun _ => h2.sendKtl.sendKtl)

/-! ### What the links leave -/

variable (h : ReceiversStay a b)
include h

theorem ReceiversStay.lane (l : Nat) : (b.lane l).receiving = (a.lane l).receiving := getD_of_map_eq h.lanes l _

theorem ReceiversStay.delivered (l : Nat) : (b.lane l).delivered = (a.lane l).delivered := by
  have := congrArg Lane.delivered (h.lane l); exact this
theorem ReceiversStay.erased (l : Nat) : (b.lane l).erased = (a.lane l).erased := by
  have := congrArg Lane.erased (h.lane l); exact this
theorem ReceiversStay.lost (l : Nat) : (b.lane l).lost = (a.lane l).lost := by
  have := congrArg Lane.lost (h.lane l); exact this

theorem ReceiversStay.objN {l sub : Nat} (hl : l < 192) (hsub : sub < 256) (hne : sub ≠ 0x15) :
    b.objN (0x6010 + l) sub = a.objN (0x6010 + l) sub :=
  congrArg Int.toNat (h.objects _ (by rw [okey]; omega) (by rw [okey]; omega) (by rw [okey]; omega))

end Rules

end Sys2Proof.Machine

/-! Lanes that gain and lose lock (R291 to R293, R334, O28). -/

namespace Sys2Proof.Machine

/-! ### A block at a lane's RX -/

/-- A sync header that a lane takes for valid (R291, R307). -/
abbrev Lane.validHeader (x : Lane) (a : Level) : Prop := (a = .minus1 ∨ a = .plus3) ∧ x.badHeaders = 0

theorem Lane.validHeader_of_bad (x : Lane) {a : Level} (h : a = .minus3 ∨ a = .plus1) : ¬ x.validHeader a := by
  rintro ⟨hvalid, -⟩
  obtain rfl | rfl := h <;> simp at hvalid

/-- What taking a block leaves of a lane: nothing of the alignment is left over and nothing is delivered, and the block is an erasure or not. -/
structure Lane.Takes (x y : Lane) (erased : Bool) : Prop where
  begun : y.begun = []
  delivered : y.delivered = none
  erased : y.erased = erased
  good : y.good = x.good
  window : y.window = x.window
  arriving : y.arriving = x.arriving
  sleepAgo : x.sleepAgo = none → y.sleepAgo = none

/-- A block once a lane has taken the symbols of it, and counted an injection that acted on it. -/
structure TakesBlock (l : Nat) (m n : Mach) (erased : Bool) : Prop where
  moves : LaneMoves l m n
  lane : l < m.lanes.length → (m.lane l).Takes (n.lane l) erased
  objects : ∀ sub < 256, sub ≠ 0x15 → n.objN (0x6010 + l) sub = m.objN (0x6010 + l) sub

theorem Lane.disarmed_eq (x : Lane) : ∃ k, x.disarmed = { x with armed := k } := by
  unfold Lane.disarmed
  split
  · exact ⟨0, rfl⟩
  · exact ⟨x.armed, rfl⟩

theorem Lane.Takes.disarmed {x y : Lane} {erased : Bool} (h : x.Takes y erased) : x.Takes y.disarmed erased := by
  obtain ⟨k, hk⟩ := y.disarmed_eq
  rw [hk]
  exact ⟨h.begun, h.delivered, h.erased, h.good, h.window, h.arriving, h.sleepAgo⟩

theorem TakesBlock.of_lane (m : Mach) (l : Nat) {f : Lane → Lane} {erased : Bool} (hf : (m.lane l).Takes (f (m.lane l)) erased)
    {c : Prop} [Decidable c] : TakesBlock l m (if c then (m.onLane l f).bump (0x6010 + l) 0x15 else m.onLane l f) erased := by
  have hlane (h : l < m.lanes.length) : (m.lane l).Takes ((m.onLane l f).lane l) erased := by
    rwa [Mach.lane_onLane_same h]
  have hmoves := LaneMoves.onLane m l f
  split
  · refine ⟨hmoves.trans (.bump _ l (by decide) 1), hlane, fun sub hsub hne => ?_⟩
    exact Mach.bump_objN_ne _ _ _ _ _ (okey_ne_of_sub hsub (by decide) (.inr hne))
  · exact ⟨hmoves, hlane, fun _ _ _ => rfl⟩

/-- One more valid header at a HUNTING lane (R291). -/
def Mach.countHeader (n : Mach) (l : Nat) : Mach := n.onLane l (fun x => { x with good := x.good + 1 })

/-- One more header of the last 64 blocks at a LOCKED lane (R291). -/
def Mach.noteHeader (n : Mach) (l : Nat) (valid : Bool) : Mach := n.onLane l (fun x => { x with window := (valid :: x.window).take 64 })

/-- What the RX of a lane makes of a block it has taken, by its state and the header (R291, R292). -/
def Mach.judgeBlock (n : Mach) (l : Nat) (locked valid control : Bool) (d : BitVec 128) : Mach :=
  if locked then
    let m := if valid then (n.noteHeader l valid).deliver l control d else (n.noteHeader l valid).headerError l
    if m.rx l = 4 ∧ ((m.lane l).window.filter (fun v => !v)).length ≥ 16 then m.lockLost l else m
  else if valid then
    if ((n.countHeader l).lane l).good = 64 then (n.countHeader l).lockGained l else n.countHeader l
  else n.onLane l Lane.slipped

/-- A block whose symbols all lie in one candidate alignment is taken, and then judged. -/
theorem blockReceived_aligned {m : Mach} {l : Nat} {a : Level} {line : List Level} (hl : l < 192) (hline : line.length = 64)
    (hbegun : (m.lane l).begun = []) (hslip : (m.lane l).slip = false) (hrx : m.rx l = 3 ∨ m.rx l = 4) :
    ∃ n d, TakesBlock l m n (decide (m.rx l = 4) && !decide ((m.lane l).validHeader a)) ∧ blockReceived l (a :: line) m =
      n.judgeBlock l (decide (m.rx l = 4)) (decide ((m.lane l).validHeader a)) (decide (a = .plus3)) d := by
  have hfull : (a :: line).length = 65 := by rw [List.length_cons, hline]
  unfold blockReceived
  extract_lets st x got header valid bits flipped
  rw [if_neg (by omega)]
  have hgot : got = a :: line := by
    show x.begun ++ (if x.slip = true then _ else _) = _
    rw [hbegun, hslip, List.nil_append, if_neg Bool.false_ne_true]
  clear_value got
  subst hgot
  rw [if_neg (by omega)]
  generalize scramble false x.descrambler flipped = r
  obtain ⟨plain, state⟩ := r
  dsimp -zeta only
  extract_lets m1 m2 m3 m4 m5
  refine ⟨m2, BitVec.ofNat 128 (ofBits plain), ?_, ?_⟩
  · refine TakesBlock.of_lane m l (c := x.rxActs = true) ?_
    refine Lane.Takes.disarmed ?_
    exact ⟨List.drop_eq_nil_of_le hfull.le, rfl, rfl, rfl, rfl, rfl, fun h => by dsimp only; rw [h]⟩
  · by_cases hst : st = 3
    · rw [if_pos hst, decide_eq_false (p := m.rx l = 4) (by omega)]
      by_cases hv : valid
      · rw [if_pos hv, decide_eq_true (p := (m.lane l).validHeader a) hv]
        rfl
      · rw [if_neg hv, decide_eq_false (p := (m.lane l).validHeader a) hv]
        rfl
    · have hjudged : m5 = if decide ((m.lane l).validHeader a) = true then m4.deliver l (decide (a = .plus3)) (BitVec.ofNat 128 (ofBits plain))
          else m4.headerError l := by
        simp only [decide_eq_true_eq]
        rfl
      rw [if_neg hst, decide_eq_true (p := m.rx l = 4) (by omega), hjudged]
      rfl

/-- A block is not yet whole after a slip: its symbols are kept (R291). -/
theorem blockReceived_slipped {m : Mach} {l : Nat} {line : List Level} (hl : l < 192) (hline : line.length = 64)
    (hbegun : (m.lane l).begun = []) (hslip : (m.lane l).slip = true) (hrx : m.rx l = 3) (a : Level) : blockReceived l (a :: line) m =
      m.onLane l (fun x => { x with begun := line, slip := false, delivered := none, erased := false }) := by
  have hfull : (a :: line).length = 65 := by rw [List.length_cons, hline]
  unfold blockReceived
  extract_lets st x got header valid bits flipped
  have hgot : got = line := by
    show x.begun ++ (if x.slip = true then _ else _) = _
    rw [hbegun, hslip, List.nil_append, if_pos rfl]
    rfl
  rw [if_neg (by omega), hgot, if_pos (by omega)]

/-! ### Header errors -/

theorem objMax_headerErrors {l : Nat} (h : l < 192) : objMax (0x6010 + l) 6 = 18446744073709551615 := by
  have hall : ∀ l < 192, objMax (0x6010 + l) 6 = 18446744073709551615 := by decide +kernel
  exact hall l h

theorem objMax_lockLosses {l : Nat} (h : l < 192) : objMax (0x6010 + l) 7 = 4294967295 := by
  have hall : ∀ l < 192, objMax (0x6010 + l) 7 = 4294967295 := by decide +kernel
  exact hall l h

/-- An event changes no object of a lane. -/
theorem raise_laneObjN (m : Mach) {code : Nat} (hcode : code < 0x100000) (inst : Nat) (d : List (Nat × Nat)) (l sub : Nat) :
    (m.raise code inst d).objN (0x6010 + l) sub = m.objN (0x6010 + l) sub :=
  Mach.raise_objN m _ _ _ (by rw [okey, okey]; omega)

/-- A judged lane keeps all but the instant of the alarm: no object of a lane changes. -/
theorem judgeErrors_spec (m : Mach) (l : Nat) : (m.judgeErrors l).boot = m.boot ∧
    (∀ sub, (m.judgeErrors l).objN (0x6010 + l) sub = m.objN (0x6010 + l) sub) ∧
    ∃ f : Lane → Lane, (m.judgeErrors l).lanes = (m.onLane l f).lanes ∧ ∀ x, ∃ y, f x = { x with errorAlarm := y } := by
  unfold Mach.judgeErrors
  dsimp only
  split
  · exact ⟨Mach.raise_boot .., fun sub => raise_laneObjN _ (by decide) .., _, Mach.raise_lanes .., fun x => ⟨_, rfl⟩⟩
  · refine ⟨rfl, fun _ => rfl, id, ?_, fun x => ⟨_, rfl⟩⟩
    exact (List.modify_id ..).symm

/-- A header error of a lane is counted, and kept with the errors of the last second (R292, R293). -/
theorem headerError_spec {m : Mach} {l : Nat} (hl : l < 192) (hlane : l < m.lanes.length) : (m.headerError l).boot = m.boot ∧
    (m.headerError l).lanes.length = m.lanes.length ∧
    (m.objN (0x6010 + l) 6 < 18446744073709551615 → (m.headerError l).objN (0x6010 + l) 6 = m.objN (0x6010 + l) 6 + 1) ∧
    (∀ sub < 256, sub ≠ 6 → (m.headerError l).objN (0x6010 + l) sub = m.objN (0x6010 + l) sub) ∧
    ∃ e k, (m.headerError l).lane l = { m.lane l with errors := e, errorAlarm := k } := by
  unfold Mach.headerError
  extract_lets m1
  generalize hm2 : m1.onLane l _ = m2
  obtain ⟨hboot, hobj, f, hlanes, hf⟩ := judgeErrors_spec m2 l
  have hlength : m2.lanes.length = m.lanes.length := by rw [← hm2, Mach.onLane_lanes_length, Mach.bump_lanes]
  have hkept : ∃ e, m2.lane l = { m.lane l with errors := e } := by
    rw [← hm2, Mach.lane_onLane_same (by rwa [Mach.bump_lanes])]
    exact ⟨_, rfl⟩
  have hod : m2.od = m1.od := by rw [← hm2, Mach.onLane_od]
  refine ⟨?_, ?_, fun hroom => ?_, fun sub hsub hne => ?_, ?_⟩
  · rw [hboot, ← hm2, Mach.onLane_boot, Mach.bump_boot]
  · rw [hlanes, Mach.onLane_lanes_length, hlength]
  · rw [hobj, Mach.objN_congr hod, Mach.bump_objN_same _ _ _ _ _ (by rw [objMax_headerErrors hl]; omega)]
  · rw [hobj, Mach.objN_congr hod, Mach.bump_objN_ne _ _ _ _ _ (okey_ne_of_sub hsub (by decide) (.inr hne))]
  · obtain ⟨e, he⟩ := hkept
    obtain ⟨y, hy⟩ := hf (m2.lane l)
    exact ⟨e, y, by rw [lane_congr hlanes, Mach.lane_onLane_same (by omega), hy, he]⟩

/-! ### Lock gained and lost -/

/-- A lane that gains lock delivers nothing of the block that it gained it with (R291). -/
theorem lockGained_spec {m : Mach} {l : Nat} (hl : l < 192) (hlane : l < m.lanes.length) : (m.lockGained l).boot = m.boot ∧
    (m.lockGained l).rx l = 4 ∧ ((m.lockGained l).lane l).delivered = (m.lane l).delivered ∧
    ((m.lockGained l).lane l).erased = (m.lane l).erased := by
  unfold Mach.lockGained
  extract_lets hunt again m1 m2 m3
  have hlane2 : m2.lane l = { m.lane l with window := [], good := 0, lost := false, alarmed := false, sleepAgo := none } :=
    Mach.lane_onLane_same hlane _
  have hrx2 : m2.rx l = 4 :=
    (Mach.setN_objN_ne _ _ _ _ _ (okey_ne_of_sub (by decide) (by decide) (.inr (by decide)))).trans (Mach.rx_setRx ..)
  have hstay : ReceiversStay m2 (m3.enumerateChain (l / 2)) :=
    .enumerateChain (.ite (fun _ => (ReceiversStay.refl m2).raise (by decide)) (fun _ => .refl m2))
  refine ⟨hstay.boot, (hstay.objN hl (by decide) (by decide)).trans hrx2, ?_, ?_⟩
  · rw [hstay.delivered, hlane2]
  · rw [hstay.erased, hlane2]

/-- An ordinary loss of lock is counted, and the RX hunts (R291, R293). -/
theorem lockLost_spec {m : Mach} {l : Nat} (hl : l < 192) (hlane : l < m.lanes.length) (hsleep : (m.lane l).sleepAgo = none)
    (hroom : m.objN (0x6010 + l) 7 < 4294967295) : (m.lockLost l).boot = m.boot ∧ (m.lockLost l).rx l = 3 ∧
    (m.lockLost l).objN (0x6010 + l) 7 = m.objN (0x6010 + l) 7 + 1 ∧ ((m.lockLost l).lane l).lost = true ∧
    ((m.lockLost l).lane l).delivered = none ∧ ((m.lockLost l).lane l).erased = false := by
  unfold Mach.lockLost
  extract_lets c m1 m2 m3
  have hlane1 : l < m1.lanes.length := by
    show l < ((m.bump (0x6010 + l) 7).hunt l).lanes.length
    rwa [Mach.hunt, Mach.onLane_lanes_length, Mach.setRx_lanes, Mach.bump_lanes]
  have hlane2 : m2.lane l = { m1.lane l with lost := true } := Mach.lane_onLane_same hlane1 _
  have hhunt : (m1.lane l).delivered = none ∧ (m1.lane l).erased = false := by
    have h1 := Mach.lane_onLane_same (m := (m.bump (0x6010 + l) 7).setRx l 3) (l := l) (by rwa [Mach.setRx_lanes, Mach.bump_lanes])
    exact ⟨congrArg Lane.delivered (h1 _), congrArg Lane.erased (h1 _)⟩
  have hcount : m2.objN (0x6010 + l) 7 = m.objN (0x6010 + l) 7 + 1 :=
    (Mach.setN_objN_ne _ _ _ _ _ (okey_ne_of_sub (by decide) (by decide) (.inr (by decide)))).trans
      (Mach.bump_objN_same _ _ _ _ _ (by rw [objMax_lockLosses hl]; omega))
  have h3 : ReceiversStay m2 m3 := (ReceiversStay.refl m2).report
  rw [if_neg (by rw [hsleep]; decide)]
  have hstay : ReceiversStay m2 (if (!m3.chainPresent c) = true then
      (if m3.lanesLocked c = (false, false) then m3.setN (0x6110 + c) 1 0 else m3)
      else if l % 2 = 0 then m3.noteBreak c (some 0) none else m3.noteBreak c none (some (m3.chainLength c))) :=
    .ite (fun _ => .ite (fun _ => h3.setN (by omega)) (fun _ => h3)) fun _ => .ite (fun _ => h3.noteBreak) (fun _ => h3.noteBreak)
  refine ⟨hstay.boot, (hstay.objN hl (by decide) (by decide)).trans (hunt_rx ..), (hstay.objN hl (by decide) (by decide)).trans hcount, ?_, ?_, ?_⟩
  · rw [hstay.lost, hlane2]
  · rw [hstay.delivered, hlane2, hhunt.1]
  · rw [hstay.erased, hlane2, hhunt.2]

/-! ### A block that arrives -/

/-- A block as BLOCK_RECEIVED finds it: what an earlier block delivered to a lane is gone (R290, R292). -/
def Mach.forBlock (m : Mach) (l : Nat) : Mach := m.onLane l (fun y => { y with delivered := none, erased := false })

theorem forBlock_lane {m : Mach} {l : Nat} (h : l < m.lanes.length) :
    (m.forBlock l).lane l = { m.lane l with delivered := none, erased := false } := Mach.lane_onLane_same h _

/-- A block that delivers nothing, and falls among no blocks of a segment, leaves the lanes and the objects as its RX left them. -/
theorem runs_blockReceived {s : State} {l : Nat} {a : Level} {line : List Level} {P : State → Prop} (b : Mach)
    (hb : blockReceived l (a :: line) (s.m.forBlock l) = b) (hshut : b.boot.shut = 0) (hnone : (b.lane l).delivered = none)
    (hquiet : (b.lane l).erased = false ∨ (b.lane l).arriving = none) (hP : ∀ t : State, t.m.od = b.od → t.m.lanes = b.lanes → P t) :
    Runs (.blockReceived l a line) s P := by
  have hassigns : Assigns b ((s.m.forBlock l).healedSince (l / 2) b) :=
    iteInduction (motive := Assigns b) (fun _ => .refl b) (fun _ => .assign_rescheduleAll b)
  refine runs_of_eff (f := blockArrives l (a :: line)) (m := (s.m.forBlock l).healedSince (l / 2) b) ?_ (hP _ hassigns.od hassigns.lanes)
  have hlane := lane_congr hassigns.lanes l
  have hcontinue : ((s.m.forBlock l).healedSince (l / 2) b).continueShutdown s.ctx = .of ((s.m.forBlock l).healedSince (l / 2) b) := by
    have hboot := congrArg Mach.boot hassigns
    exact if_pos (by rw [hboot]; exact hshut ▸ by decide)
  unfold blockArrives
  extract_lets old e
  have he : e = .of ((s.m.forBlock l).healedSince (l / 2) b) := by
    show ((s.m.forBlock l).healedSince (l / 2) (blockReceived l (a :: line) (s.m.forBlock l))).continueShutdown s.ctx = _
    rw [hb, hcontinue]
  rw [he, Eff.then_, Eff.of]
  dsimp only
  rw [hlane, hnone]
  dsimp only
  obtain hsound | hnoSegment := hquiet
  · rw [hsound]
    rfl
  · rw [Mach.segmentBlock, hlane, hnoSegment]
    simp only [Eff.of, ite_self]
    rfl

/-- A block that comes at the candidate alignment of a lane, from the block before it on. -/
theorem blockReceived_forBlock {m : Mach} {l : Nat} {line : List Level} (hl : l < 192) (hlane : l < m.lanes.length)
    (hline : line.length = 64) (hbegun : (m.lane l).begun = []) (hslip : (m.lane l).slip = false) (hrx : m.rx l = 3 ∨ m.rx l = 4) (a : Level) :
    ∃ (n : Mach) (d : BitVec 128), n.boot = m.boot ∧ n.lanes.length = m.lanes.length ∧
      (m.lane l).Takes (n.lane l) (decide (m.rx l = 4) && !decide ((m.lane l).validHeader a)) ∧
      (∀ sub < 256, sub ≠ 0x15 → n.objN (0x6010 + l) sub = m.objN (0x6010 + l) sub) ∧
      blockReceived l (a :: line) (m.forBlock l) =
        n.judgeBlock l (decide (m.rx l = 4)) (decide ((m.lane l).validHeader a)) (decide (a = .plus3)) d := by
  have hblock := forBlock_lane hlane
  have hlength : (m.forBlock l).lanes.length = m.lanes.length := Mach.onLane_lanes_length ..
  obtain ⟨n, d, ⟨hmoves, htakes, hobjects⟩, hb⟩ := blockReceived_aligned (m := m.forBlock l) (a := a) hl hline (by rw [hblock]; exact hbegun)
    (by rw [hblock]; exact hslip) hrx
  have htakes := htakes (by omega)
  rw [hblock] at htakes hb
  obtain ⟨hbegun', hdelivered, herased, hgood, hwindow, harriving, hsleep⟩ := htakes
  have hboot := congrArg Mach.boot hmoves.frame
  exact ⟨n, d, hboot, hmoves.length.trans hlength, ⟨hbegun', hdelivered, herased, hgood, hwindow, harriving, hsleep⟩, hobjects, hb⟩

/-- The headers of the last 64 blocks with one more invalid one: 16 of them are invalid once 15 of the 63 before were. -/
theorem invalid_noted (w : List Bool) : (((false :: w).take 64).filter (fun v => !v)).length = ((w.take 63).filter (fun v => !v)).length + 1 := by
  simp [List.take_succ_cons]

/-- A valid header at a HUNTING lane is counted, and the 64th locks it (R291). -/
theorem blockReceived_valid {m : Mach} {l : Nat} {line : List Level} (hl : l < 192) (hlane : l < m.lanes.length) (hline : line.length = 64)
    (hbegun : (m.lane l).begun = []) (hrx : m.rx l = 3) (hslip : (m.lane l).slip = false) {a : Level} (ha : (m.lane l).validHeader a) :
    ∃ k : Mach, k.boot = m.boot ∧ l < k.lanes.length ∧ k.rx l = 3 ∧ (m.lane l).Takes { k.lane l with good := (m.lane l).good } false ∧
      (k.lane l).good = (m.lane l).good + 1 ∧
      blockReceived l (a :: line) (m.forBlock l) = if (m.lane l).good + 1 = 64 then k.lockGained l else k := by
  obtain ⟨n, d, hboot, hlength, htakes, hobjects, hb⟩ := blockReceived_forBlock hl hlane hline hbegun hslip (.inl hrx) a
  rw [decide_eq_false (p := m.rx l = 4) (by omega)] at htakes hb
  rw [decide_eq_true ha] at hb
  have hcounted : (n.countHeader l).lane l = { n.lane l with good := (n.lane l).good + 1 } := Mach.lane_onLane_same (by omega) _
  have hgood : ((n.countHeader l).lane l).good = (m.lane l).good + 1 := by rw [hcounted, ← htakes.good]
  refine ⟨n.countHeader l, hboot, ?_, (hobjects 4 (by decide) (by decide)).trans hrx, ?_, hgood, ?_⟩
  · rw [Mach.countHeader, Mach.onLane_lanes_length]; omega
  · rw [hcounted]
    exact ⟨htakes.begun, htakes.delivered, htakes.erased, rfl, htakes.window, htakes.arriving, htakes.sleepAgo⟩
  · rw [hb, ← hgood]
    rfl

/-- An invalid header at a LOCKED lane is counted, and the 16th of 64 loses lock (R291, R292). -/
theorem blockReceived_invalid {m : Mach} {l : Nat} {line : List Level} (hl : l < 192) (hlane : l < m.lanes.length) (hline : line.length = 64)
    (hbegun : (m.lane l).begun = []) (hrx : m.rx l = 4) (hslip : (m.lane l).slip = false) {a : Level} (ha : a = .minus3 ∨ a = .plus1) :
    ∃ k : Mach, k.boot = m.boot ∧ l < k.lanes.length ∧ k.rx l = 4 ∧
      (m.objN (0x6010 + l) 6 < 18446744073709551615 → k.objN (0x6010 + l) 6 = m.objN (0x6010 + l) 6 + 1) ∧
      k.objN (0x6010 + l) 7 = m.objN (0x6010 + l) 7 ∧ (m.lane l).Takes { k.lane l with window := (m.lane l).window } true ∧
      blockReceived l (a :: line) (m.forBlock l) =
        if 15 ≤ (((m.lane l).window.take 63).filter (fun v => !v)).length then k.lockLost l else k := by
  obtain ⟨n, d, hboot, hlength, htakes, hobjects, hb⟩ := blockReceived_forBlock hl hlane hline hbegun hslip (.inr hrx) a
  rw [decide_eq_true hrx, decide_eq_false (p := (m.lane l).validHeader a) (Lane.validHeader_of_bad _ ha)] at htakes hb
  have hnoted : (n.noteHeader l false).lane l = { n.lane l with window := (false :: (n.lane l).window).take 64 } :=
    Mach.lane_onLane_same (by omega) _
  have hlength' : (n.noteHeader l false).lanes.length = m.lanes.length := (Mach.onLane_lanes_length ..).trans hlength
  obtain ⟨hbootError, hlengthError, hcount, hother, e, x, herror⟩ := headerError_spec (m := n.noteHeader l false) hl (by omega)
  have hbefore : (n.noteHeader l false).objN (0x6010 + l) 6 = m.objN (0x6010 + l) 6 := hobjects 6 (by decide) (by decide)
  have hlocked := (hother 4 (by decide) (by decide)).trans ((hobjects 4 (by decide) (by decide)).trans hrx)
  refine ⟨(n.noteHeader l false).headerError l, hbootError.trans hboot, by omega, hlocked, fun hroom => ?_,
    (hother 7 (by decide) (by decide)).trans (hobjects 7 (by decide) (by decide)), ?_, ?_⟩
  · rw [hcount (by omega), hbefore]
  · rw [herror, hnoted]
    exact ⟨htakes.begun, htakes.delivered, htakes.erased, htakes.good, rfl, htakes.arriving, htakes.sleepAgo⟩
  · have hinvalid : ((((n.noteHeader l false).headerError l).lane l).window.filter (fun v => !v)).length =
        (((m.lane l).window.take 63).filter (fun v => !v)).length + 1 := by
      rw [herror, hnoted]
      exact (invalid_noted _).trans (by rw [htakes.window])
    have hlost : (((n.noteHeader l false).headerError l).rx l = 4 ∧
        ((((n.noteHeader l false).headerError l).lane l).window.filter (fun v => !v)).length ≥ 16) ↔
        15 ≤ (((m.lane l).window.take 63).filter (fun v => !v)).length := by
      rw [hinvalid]
      exact ⟨fun h => by omega, fun h => ⟨hlocked, by omega⟩⟩
    exact hb.trans ((if_pos rfl).trans (if_congr hlost rfl rfl))

/-! ### O28 -/

/-- Settles O28: a block is taken and judged, by the state of the RX and the header. -/
theorem laneLockAndHeaderErrors : Obligations.LaneLockAndHeaderErrors := by
  unfold Obligations.LaneLockAndHeaderErrors
  refine ⟨?counts, ?locks, ?slips, ?passesOver, ?erases, ?loses, ?alarm⟩
  case counts =>
    intro s l a x hl hlane hshut hx hbegun hrx hslip ha hbad hgood
    obtain ⟨k, hboot, -, hrx', htakes, hcount, hb⟩ := blockReceived_valid hl hlane hx hbegun hrx hslip ⟨ha, hbad⟩
    refine runs_blockReceived k (hb.trans (if_neg (by omega))) (by rw [hboot, hshut]) htakes.delivered (.inl htakes.erased) fun t hod hlanes => ?_
    rw [Mach.rx, Mach.objN_congr hod, lane_congr hlanes]
    exact ⟨hrx', hcount, htakes.begun⟩
  case locks =>
    intro s l a x hl hlane hshut hx hbegun hrx hslip ha hbad hgood
    obtain ⟨k, hboot, hlane', -, htakes, -, hb⟩ := blockReceived_valid hl hlane hx hbegun hrx hslip ⟨ha, hbad⟩
    obtain ⟨hboot', hrx', hdelivered, herased⟩ := lockGained_spec hl hlane'
    refine runs_blockReceived (k.lockGained l) (hb.trans (if_pos (by omega))) (by rw [hboot', hboot, hshut]) (hdelivered.trans htakes.delivered)
      (.inl (herased.trans htakes.erased)) fun t hod _ => ?_
    rw [Mach.rx, Mach.objN_congr hod]
    exact hrx'
  case slips =>
    intro s l a x hl hlane hshut hx hbegun hrx hslip ha
    obtain ⟨n, d, hboot, hlength, htakes, hobjects, hb⟩ := blockReceived_forBlock hl hlane hx hbegun hslip (.inl hrx) a
    rw [decide_eq_false (p := s.m.rx l = 4) (by omega)] at htakes hb
    rw [decide_eq_false (p := (s.m.lane l).validHeader a) (Lane.validHeader_of_bad _ ha)] at hb
    have hslipped : (n.onLane l Lane.slipped).lane l = (n.lane l).slipped := Mach.lane_onLane_same (by omega) _
    refine runs_blockReceived (n.onLane l Lane.slipped) hb (by rw [← hshut, ← hboot]; rfl) ?_ (.inl ?_) fun t hod hlanes => ?_
    · rw [hslipped]; exact htakes.delivered
    · rw [hslipped]; exact htakes.erased
    · rw [Mach.rx, Mach.objN_congr hod, lane_congr hlanes, hslipped]
      exact ⟨(hobjects 4 (by decide) (by decide)).trans hrx, rfl, decide_eq_true htakes.begun⟩
  case passesOver =>
    intro s l a x hl hlane hshut hx hbegun hrx hslip
    have hblock := forBlock_lane hlane
    have hb := blockReceived_slipped (m := s.m.forBlock l) hl hx (by rw [hblock]; exact hbegun) (by rw [hblock]; exact hslip) hrx a
    have hkept := Mach.lane_onLane_same (m := s.m.forBlock l) (l := l) (by rwa [Mach.forBlock, Mach.onLane_lanes_length])
      (fun y => { y with begun := x, slip := false, delivered := none, erased := false })
    refine runs_blockReceived _ hb hshut (by rw [hkept]) (.inl (by rw [hkept])) fun t hod hlanes => ?_
    rw [Mach.rx, Mach.objN_congr hod, lane_congr hlanes, hkept, hblock]
    exact ⟨hrx, rfl, rfl, rfl⟩
  case erases =>
    intro s l a x hl hlane hshut hx hbegun hrx hslip harriving ha hfew hroom
    obtain ⟨k, hboot, -, hrx', hcount, -, htakes, hb⟩ := blockReceived_invalid hl hlane hx hbegun hrx hslip ha
    refine runs_blockReceived k (hb.trans (if_neg (by omega))) (by rw [hboot, hshut]) htakes.delivered (.inr (htakes.arriving.trans harriving))
      fun t hod hlanes => ?_
    rw [Mach.rx, Mach.objN_congr hod, Mach.objN_congr hod, lane_congr hlanes]
    exact ⟨hrx', hcount hroom, htakes.delivered, htakes.erased⟩
  case loses =>
    intro s l a x hl hlane hshut hx hbegun hrx hslip ha hmany hsleep hroom
    obtain ⟨k, hboot, hlane', -, -, hbefore, htakes, hb⟩ := blockReceived_invalid hl hlane hx hbegun hrx hslip ha
    obtain ⟨hboot', hrx', hcount, hlost, hdelivered, herased⟩ := lockLost_spec hl hlane' (htakes.sleepAgo hsleep) (by omega)
    refine runs_blockReceived (k.lockLost l) (hb.trans (if_pos hmany)) (by rw [hboot', hboot, hshut]) hdelivered (.inl herased)
      fun t hod hlanes => ?_
    rw [Mach.rx, Mach.objN_congr hod, Mach.objN_congr hod, lane_congr hlanes, hcount, hbefore]
    exact ⟨hrx', rfl, hlost⟩
  case alarm =>
    intro s l hl hlane hchain hup hrx halarmed hdue
    refine runs_of_lift (f := fun _ => huntAlarm l) ?_
    have hnoted := Mach.lane_onLane_same hlane (fun x => { x with alarmed := true })
    have hup' : (s.m.onLane l (fun x => { x with alarmed := true })).coreUp 2 = true := hup
    rw [huntAlarm]
    dsimp only
    rw [if_pos ⟨hl, hrx, by rw [halarmed]; decide, hdue⟩]
    obtain ⟨w, hw⟩ := report_window hup' hchain
    rw [hw, (Reports.report hup' (l / 2)).frame]
    exact ⟨congrArg Lane.alarmed hnoted, rfl⟩

end Sys2Proof.Machine

/-! Test patterns and the ENUM of a lane that locks: what their statements ask of more than one lane (R286, R306, R307, R324, O29, O30). -/

namespace Sys2Proof.Machine

/-! ### O29: the counters of a checker -/

/-- A compared bit never shows a count past the width of its object (log entry 7). -/
theorem checkBit_compared_le (m : Mach) (l : Nat) (b : Bool) :
    (m.checkBit l b).objN (0x6010 + l) 0x0F ≤ max (m.objN (0x6010 + l) 0x0F) (objMax (0x6010 + l) 0x0F) := by
  have hother (n : Mach) {sub : Nat} (hsub : sub < 256) (hne : 0x0F ≠ sub) (v : Int) :
      (n.set (0x6010 + l) sub v).objN (0x6010 + l) 0x0F = n.objN (0x6010 + l) 0x0F :=
    Mach.set_objN_ne _ _ _ _ _ (okey_ne_of_sub (by decide) hsub (.inr hne))
  unfold Mach.checkBit
  extract_lets x
  split
  next k compared wrong sync _ =>
    extract_lets m1 m2 m3 m4
    have h2 : m2.objN (0x6010 + l) 0x0F = m.objN (0x6010 + l) 0x0F :=
      iteInduction (motive := fun n : Mach => n.objN (0x6010 + l) 0x0F = _) (fun _ => hother m1 (by decide) (by decide) _) (fun _ => rfl)
    have h3 : m3.objN (0x6010 + l) 0x0F ≤ max (m.objN (0x6010 + l) 0x0F) (objMax (0x6010 + l) 0x0F) :=
      iteInduction (motive := fun n : Mach => n.objN (0x6010 + l) 0x0F ≤ _) (fun _ => (Mach.bump_objN_le ..).trans (le_max_right ..))
        (fun _ => h2 ▸ le_max_left ..)
    have h4 : m4.objN (0x6010 + l) 0x0F = m3.objN (0x6010 + l) 0x0F :=
      iteInduction (motive := fun n : Mach => n.objN (0x6010 + l) 0x0F = _) (fun _ => hother m3 (by decide) (by decide) _) (fun _ => rfl)
    have hlast : (m4.setB (0x6010 + l) 0x0E sync).objN (0x6010 + l) 0x0F = m3.objN (0x6010 + l) 0x0F :=
      (hother m4 (by decide) (by decide) _).trans h4
    exact hlast.trans_le h3

theorem checkerBits_compared_le (m : Mach) (l : Nat) (symbols : List Level) :
    (checkerBits l symbols m).objN (0x6010 + l) 0x0F ≤ max (m.objN (0x6010 + l) 0x0F) (objMax (0x6010 + l) 0x0F) := by
  refine iteInduction (motive := fun n : Mach => n.objN (0x6010 + l) 0x0F ≤ _) (fun _ => le_max_left ..) (fun _ => ?_)
  exact List.foldlRecOn _ _ (motive := fun n : Mach => n.objN (0x6010 + l) 0x0F ≤ _) (le_max_left ..) fun n hn b _ =>
    (checkBit_compared_le n l b).trans (max_le hn (le_max_right ..))

/-- With no calibration pass a checker's bits lead to nothing else (R492). -/
theorem checkerTakes_of_untested {m : Mach} {l : Nat} (symbols : List Level) (hl : l < 0x17F0) (h : m.testing = none) :
    checkerTakes l symbols m = checkerBits l symbols m := by
  have hmoves := LaneMoves.checkerBits m l symbols
  have hstate : (checkerBits l symbols m).objN 0x7800 6 = m.objN 0x7800 6 :=
    congrArg Int.toNat (hmoves.objects _ (by rw [okey]; omega))
  have htesting : (checkerBits l symbols m).testing = none := by
    rw [Mach.testing, hmoves.calib, hstate]
    exact h
  exact if_neg (by rw [htesting]; simp)

/-- A lane whose checker predicts from the all-ones state. -/
def predictingLane : Lane := { checker := { hist := List.replicate 31 true } }

/-- One lane more than the 192 of the module, with its checker in sync. -/
def checkerPastLastLane : State :=
  started fun m => { ((m.setN 0x60D0 1 1).setRx 192 5).setB 0x60D0 0x0E true with lanes := List.replicate 193 predictingLane }

/-- Refutes O29: its clause on the checker takes any lane number, also 192, where the dictionary lists no counters (R286: lanes 0 to 191), so
that what is compared there is not counted. -/
theorem not_laneModesAndTestPatterns : ¬ Obligations.LaneModesAndTestPatterns := by
  unfold Obligations.LaneModesAndTestPatterns
  rintro ⟨-, -, -, hchecker, -⟩
  have hcounters : checkerPastLastLane.m.objN (0x6010 + 192) 0x0F = 0 ∧ checkerPastLastLane.m.objN (0x6010 + 192) 0x10 = 0 ∧
      objMax (0x6010 + 192) 0x0F = 0 := by decide +kernel
  obtain ⟨hcompared, herrors, hwidth⟩ := hcounters
  obtain ⟨t, hrun, hcount, -⟩ := hchecker checkerPastLastLane 192 .plus1 true true rfl (by decide +kernel) (by decide +kernel) (by decide +kernel)
    rfl rfl (by decide) (by rw [hcompared]; decide) (by rw [herrors]; decide)
  have ht : t.m = checkerTakes 192 [.plus1] checkerPastLastLane.m := mach_of_lift (f := fun _ => checkerTakes 192 [.plus1]) hrun
  have hle := checkerBits_compared_le checkerPastLastLane.m 192 [.plus1]
  rw [ht, checkerTakes_of_untested _ (by decide) (by decide +kernel)] at hcount
  omega

/-! ### O30: the ENUM of a lane that locks -/

/-- Lane 5 is one valid header short of lock, and an injection of kind 5 waits at the ACTIVE TX of lane 4, the other lane of its chain. -/
def lockMeetsInjection : State :=
  started fun m => (((m.setRx 5 3).setTx 4 4).onLane 5 (fun x => { x with good := 63 })).onLane 4 (fun x =>
    { x with sentAt := some 0, armed := 5, badTx := true })

/-- The lock enumerates the chain on both of its lanes (R324), and the ENUM on lane 4 takes the injection, which counts it (R307). -/
theorem lockMeetsInjection_counts : lockMeetsInjection.m.objN 0x6014 0x15 = 0 ∧
    (blockArrives 5 (.plus3 :: List.replicate 64 .plus1) lockMeetsInjection.ctx lockMeetsInjection.m).m.objN 0x6014 0x15 = 1 := by
  decide +kernel

/-- Refutes O30: its clause on a block at a HUNTING RX says that of the lanes' objects only those of the lane change, but the block with which
the RX locks sends ENUM on both lanes of the chain (R324), and an injection of kind 5 that waits at the other lane acts on it and is counted in
that lane's objects (R307). -/
theorem not_laneEventsChangeTheirLaneOnly : ¬ Obligations.LaneEventsChangeTheirLaneOnly := by
  unfold Obligations.LaneEventsChangeTheirLaneOnly
  rintro ⟨-, -, -, -, hblock⟩
  obtain ⟨-, hobjects⟩ := hblock lockMeetsInjection _ 5 .plus3 (List.replicate 64 .plus1) (by decide +kernel) (by decide +kernel) rfl
  have hsame := hobjects.objN (ix := 0x6014) (sub := 0x15) (by decide) (by decide)
  obtain ⟨hbefore, hafter⟩ := lockMeetsInjection_counts
  exact absurd (hafter.symm.trans (hsame.trans hbefore)) (by decide)

end Sys2Proof.Machine

/-! Writes of the tile map and removal requests (R325, R327, R339), and O34. -/

namespace Sys2Proof.Machine

/-! ### Lists without repeats -/

theorem length_eraseDups_le {α : Type} [DecidableEq α] : ∀ l : List α, l.eraseDups.length ≤ l.length
  | [] => Nat.le_refl _
  | a :: l => by
    have hrest := length_eraseDups_le (l.filter (fun b => !b == a))
    have hfilter := List.length_filter_le (fun b => !b == a) l
    rw [List.eraseDups_cons, List.length_cons, List.length_cons]
    omega
termination_by l => l.length
decreasing_by exact Nat.lt_succ_of_le (List.length_filter_le ..)

/-- A list keeps its length without its repeats when it has none. -/
theorem length_eraseDups_iff_nodup {α : Type} [DecidableEq α] (l : List α) : l.eraseDups.length = l.length ↔ l.Nodup := by
  induction l with
  | nil => simp
  | cons a l ih =>
    rw [List.eraseDups_cons, List.length_cons, List.length_cons, Nat.add_right_cancel_iff, List.nodup_cons]
    have hrest := length_eraseDups_le (l.filter (fun b => !b == a))
    have hfilter := List.length_filter_le (fun b => !b == a) l
    have hkept : (l.filter (fun b => !b == a)).length = l.length ↔ a ∉ l := by
      rw [List.length_filter_eq_length_iff]
      exact ⟨fun h ha => by simpa using h a ha, fun h b hb => by simpa using fun hba : b = a => h (hba ▸ hb)⟩
    constructor
    · intro h
      have ha : a ∉ l := hkept.mp (by omega)
      rw [List.filter_eq_self.mpr (List.length_filter_eq_length_iff.mp (hkept.mpr ha))] at h
      exact ⟨ha, ih.mp h⟩
    · rintro ⟨ha, hl⟩
      rw [List.filter_eq_self.mpr (List.length_filter_eq_length_iff.mp (hkept.mpr ha))]
      exact ih.mpr hl

/-! ### A calibration that the write of the tile map may end (R492) -/

/-- The end of a calibration run leaves the tiles alone, and every object but those of the run and the counts of events. -/
theorem endCal_keeps (m : Mach) (st code : Nat) :
    (m.endCal st code).tiles = m.tiles ∧ ObjectsBut [(0x7800, 0x7800), (0x1202, 0x1202)] m (m.endCal st code) := by
  unfold Mach.endCal
  extract_lets r m1 m2
  have h1 : ObjectsBut [(0x7800, 0x7800), (0x1202, 0x1202)] m m1 :=
    (ObjectsBut.set (0x7800, 0x7800) m 0x7800 7 _ 0 (by decide) (by decide) (by decide)).trans
      ((ObjectsBut.set (0x7800, 0x7800) _ 0x7800 6 _ 0 (by decide) (by decide) (by decide)).trans (.of_od rfl))
  have h2 : m2.tiles = m.tiles ∧ m2.od = m1.od :=
    iteInduction (motive := fun n : Mach => n.tiles = m.tiles ∧ n.od = m1.od) (fun _ => ⟨rfl, rfl⟩) (fun _ => ⟨rfl, rfl⟩)
  refine ⟨(Mach.raise_tiles ..).trans h2.1, h1.trans ((ObjectsBut.of_od h2.2).trans ?_)⟩
  exact (ObjectsBut.of_od rfl).trans (.record _ _ _ _ _ (by decide) (by decide))

theorem watchCal_keeps (old m : Mach) :
    (old.watchCal m).tiles = m.tiles ∧ ObjectsBut [(0x7800, 0x7800), (0x1202, 0x1202)] m (old.watchCal m) :=
  iteInduction (motive := fun n : Mach => n.tiles = m.tiles ∧ ObjectsBut [(0x7800, 0x7800), (0x1202, 0x1202)] m n)
    (fun _ => endCal_keeps m 8 6) (fun _ => ⟨rfl, .refl _ m⟩)

/-! ### The writes and their rules -/

theorem SameBut.tiles {a b : Mach} (h : SameBut a b) : a.tiles = b.tiles := by have := congrArg Mach.tiles h; exact this

/-- The objects of the tile map and of the tiles wake no domain (R460). -/
theorem wakeFor_of_tileLink {ix : Nat} (h : 0x6000 ≤ ix ∧ ix < 0x7000) (m : Mach) : m.wakeFor ix = m := if_neg (by omega)

/-- A write of the tile map or of a tile whose rule refuses it: nothing changes but the sessions and what is sent. -/
theorem Reaches.runs_refused_tileLink {s : State} {ix sub a : Nat} {w : WriteReq} {p : Put} {m : Mach} {P : State → Prop}
    (h : Reaches s ix sub w p m) (hix : 0x6000 ≤ ix ∧ ix < 0x7000) (hrun : p.run m = .error a)
    (hP : ∀ t : State, SameBut t.m m → P t) : ∃ t, liftE (koaWrite (writeMsg w ix sub) none) s = .next t ∧ P t := by
  obtain ⟨m0, hvet, hm⟩ := h.taken
  obtain ⟨t, m1, hnext, hbefore, hafter, -⟩ := h.liftE_refused hrun
  refine ⟨t, hnext, hP t ?_⟩
  rw [hm, wakeFor_of_tileLink hix]
  exact hafter.trans (hbefore.trans (vet_take hvet).symm)

section Rules
variable {s : State} {w : WriteReq} {p : Put} {m : Mach}

/-- TILE_MAP_APPLY is the write of 0x6100:03. -/
theorem Reaches.run_tileMapApply (h : Reaches s 0x6100 3 w p m) : p.run m = (actM m.applyMapWrite).watch m := by
  obtain ⟨-, hix, hsub, -, -⟩ := h.put
  simp [Put.run, Put.sessions, Put.supply, Put.times, Put.ports, Put.schedule, Put.layers, Put.observers, Put.memory, Put.links, hix, hsub]

/-- REMOVAL_REQUEST is the write of 0x6181:0C. -/
theorem Reaches.run_removalRequest (h : Reaches s 0x6181 0x0C w p m) : p.run m = actM (m.requestRemoval p.s.tile.1 p.s.tile.2) := by
  obtain ⟨-, hix, hsub, -, -⟩ := h.put
  simp [Put.run, Put.sessions, Put.supply, Put.times, Put.ports, Put.schedule, Put.layers, Put.observers, Put.memory, Put.links, hix, hsub]

end Rules

/-- The block with the staged map entries waiting for the next heat start (R325). -/
def Mach.mapStaged (m : Mach) : Mach := { m with tiles := { m.tiles with pendingMap := some m.stagedMap } }.setN 0x6100 5 1

theorem applyMapWrite_distinct {m : Mach} (h : (m.stagedMap.filter (· != 0xFFFF)).Nodup) : m.applyMapWrite = .ok m.mapStaged :=
  if_neg (not_not.mpr ((length_eraseDups_iff_nodup _).mpr h))

theorem applyMapWrite_repeated {m : Mach} (h : ¬ (m.stagedMap.filter (· != 0xFFFF)).Nodup) : m.applyMapWrite = .error abInconsistent :=
  if_pos (mt (length_eraseDups_iff_nodup _).mp h)

/-- The block with an ACTIVE tile marked as leaving. -/
abbrev Mach.leavingTile (m : Mach) (c pos : Nat) : Mach := m.onTile c pos (fun t => { t with leaving := true })

/-- An ACTIVE tile that is to be removed leaves; its final checkpoint is asked for where it has a panel position (R327). -/
theorem requestRemoval_active {m : Mach} {c pos : Nat} (h : m.tileState c pos = 4) :
    ∃ n : Mach, m.requestRemoval c pos = .ok n ∧ n.od = m.od ∧ n.tiles = (m.leavingTile c pos).tiles := by
  unfold Mach.requestRemoval
  rw [if_neg (by omega), if_neg (by omega)]
  extract_lets m1
  cases m1.panelFor c pos with
  | none => exact ⟨m1, rfl, rfl, rfl⟩
  | some q =>
    refine ⟨m1.askCheckpoint c pos q, rfl, ?_⟩
    exact iteInduction (motive := fun n : Mach => n.od = m.od ∧ n.tiles = (m.leavingTile c pos).tiles) (fun _ => ⟨rfl, rfl⟩) (fun _ => ⟨rfl, rfl⟩)

theorem setTile_of_present {st : Nat} (h : st ≠ 0) (m : Mach) (c pos : Nat) : m.setTile c pos st = m.setN 0x6181 1 st (tileBank c pos) :=
  if_neg h

theorem park_tileState (m : Mach) (c pos : Nat) : (m.park c pos).tileState c pos = 6 := by
  unfold Mach.park
  extract_lets m1 m2
  rw [setTile_of_present (by decide), Mach.tileState, Mach.objN_congr (Mach.onTile_od ..), Mach.setN_objN_same]

/-- Settles O34: each write with its rule, by what the rule leaves. -/
theorem tileMapAndRemovalRequests : Obligations.TileMapAndRemovalRequests := by
  unfold Obligations.TileMapAndRemovalRequests
  refine ⟨?applied, ?repeated, ?ready, ?active, ?other⟩
  case applied =>
    intro s w p m h hdistinct
    have hrun : p.run m = act (m.watchCal m.mapStaged) := by
      rw [h.run_tileMapApply, applyMapWrite_distinct hdistinct]
      rfl
    obtain ⟨htiles, hobjects⟩ := watchCal_keeps m m.mapStaged
    refine h.runs_act (by decide) hrun fun n hn => ⟨?_, ?_⟩
    · rw [hn.tiles, htiles]
      rfl
    · exact (hn.objN_eq ..).trans ((hobjects.objN (by decide) (by decide)).trans (Mach.setN_objN_same ..))
  case repeated =>
    intro s w p m h hrepeated
    have hrun : p.run m = .error abInconsistent := by
      rw [h.run_tileMapApply, applyMapWrite_repeated hrepeated]
      rfl
    exact h.runs_refused_tileLink (by decide) hrun fun t ht => ht
  case ready =>
    intro s w p m h hready
    have hrun : p.run m = act (m.park p.s.tile.1 p.s.tile.2) := h.run_removalRequest.trans (congrArg actM (if_pos hready))
    refine h.runs_act (by decide) hrun fun n hn => ?_
    exact (Mach.objN_congr hn.od ..).trans (park_tileState ..)
  case active =>
    intro s w p m h hactive hchain htile
    obtain ⟨n, hremoval, hod, htiles⟩ := requestRemoval_active hactive
    have hrun : p.run m = act n := h.run_removalRequest.trans (congrArg actM hremoval)
    refine h.runs_act (by decide) hrun fun a ha => ⟨?_, ?_⟩
    · exact (Mach.objN_congr (ha.od.trans hod) ..).trans hactive
    · rw [Mach.tile, Mach.chain, ha.tiles, htiles, ← Mach.chain, ← Mach.tile, Mach.tile_onTile hchain htile]
  case other =>
    intro s w p m h hnotReady hnotActive
    have hrun : p.run m = .error abPrecondition :=
      h.run_removalRequest.trans (congrArg actM ((if_neg hnotReady).trans (if_pos hnotActive)))
    exact h.runs_refused_tileLink (by decide) hrun fun t ht => ht

end Sys2Proof.Machine

/-! Flash objects received segment by segment, and a checkpoint that is written (R317, R318, R351, R354), and O35. -/

namespace Sys2Proof.Machine

/-! ### Segments of a flash object -/

theorem load_congr {a b : Mach} (h : a.tiles = b.tiles) (c pos kind : Nat) : a.load c pos kind = b.load c pos kind := by
  unfold Mach.load Mach.tile Mach.chain
  rw [h]

theorem load_onLoad {m : Mach} {c pos : Nat} (hchain : c < m.tiles.chains.length) (htile : pos < (m.chain c).tiles.length) (kind : Nat)
    (f : FlashLoad → FlashLoad) : (m.onLoad c pos kind f).load c pos kind = f (m.load c pos kind) := by
  unfold Mach.load Mach.onLoad
  rw [Mach.tile_onTile hchain htile]
  by_cases hkind : kind = 1 <;> simp [hkind]

/-- The checks on a segment of an object that is being read (R317). -/
theorem not_unawaited {m : Mach} {g : TileSeg} (hc : g.c < 96) (hpos : g.pos < 10) (hkind : g.kind = 1 ∨ g.kind = 2)
    (hsince : (m.load g.c g.pos g.kind).since.isSome = true) :
    ¬ (g.c ≥ 96 ∨ g.pos ≥ 10 ∨ (g.kind ≠ 1 ∧ g.kind ≠ 2) ∨ (m.load g.c g.pos g.kind).since.isNone = true) := by
  have hread : ¬ (m.load g.c g.pos g.kind).since.isNone = true := by simpa using Option.isSome_iff_ne_none.mp hsince
  rintro (h | h | h | h)
  · omega
  · omega
  · omega
  · exact hread h

/-- A segment that is waited for and rejected is answered by NAK (R317). -/
theorem tileSegment_rejected {m : Mach} {g : TileSeg} {cause : Nat} (hc : g.c < 96) (hpos : g.pos < 10) (hkind : g.kind = 1 ∨ g.kind = 2)
    (hsince : (m.load g.c g.pos g.kind).since.isSome = true) (hcause : tileSegRejected g = some cause) (x : Ctx) :
    tileSegment g x m = .of (m.toTile g.c g.pos (.nak g.pos g.kind g.seq cause)) := by
  unfold tileSegment
  rw [if_neg (not_unawaited hc hpos hkind hsince), hcause]

/-- A load with one more segment. -/
abbrev FlashLoad.received (l : FlashLoad) (g : TileSeg) : FlashLoad := { l with segs := l.segs ++ [(g.seq, 16 * g.locator, tileSegData g)] }

/-- A new segment that is accepted and does not complete the object is held; at most an ACK goes to its tile (R318). -/
theorem tileSegment_held {m : Mach} {g : TileSeg} (hc : g.c < 96) (hpos : g.pos < 10) (hchain : g.c < m.tiles.chains.length)
    (htile : g.pos < (m.chain g.c).tiles.length) (hkind : g.kind = 1 ∨ g.kind = 2)
    (hsince : (m.load g.c g.pos g.kind).since.isSome = true) (haccepted : tileSegRejected g = none)
    (hnew : (m.load g.c g.pos g.kind).segs.any (fun y => y.1 = g.seq) = false)
    (hshort : ((m.load g.c g.pos g.kind).received g).bytes.length < 64 ∨
      (headerGood g.kind ((m.load g.c g.pos g.kind).received g).bytes = true ∧
        ((m.load g.c g.pos g.kind).received g).bytes.length < 64 + bodyLength ((m.load g.c g.pos g.kind).received g).bytes)) (x : Ctx) :
    ∃ n : Mach, tileSegment g x m = .of n ∧ n.load g.c g.pos g.kind = (m.load g.c g.pos g.kind).received g := by
  unfold tileSegment
  rw [if_neg (not_unawaited hc hpos hkind hsince), haccepted]
  extract_lets m1 l m2 b
  dsimp only
  have hload : l = (m.load g.c g.pos g.kind).received g := by
    show m1.load g.c g.pos g.kind = _
    rw [load_onLoad hchain htile, hnew]
    rfl
  have htold : m2.load g.c g.pos g.kind = l := by
    unfold m2
    split
    · exact load_congr (Sends.toTile ..).tiles ..
    · rfl
  refine ⟨m2, ?_, htold.trans hload⟩
  rw [← hload] at hshort
  obtain hheader | ⟨hgood, hbody⟩ := hshort
  · exact if_pos hheader
  · have hwhole : (!headerGood g.kind b) = false := by rw [show b = l.bytes from rfl, hgood]; rfl
    rw [hwhole, if_neg Bool.false_ne_true, if_pos hbody]
    exact ite_self _

/-! ### A checkpoint that is written -/

theorem objMax_checkpoints : objMax 0x6200 5 = 18446744073709551615 := by decide +kernel

/-- The history flags of a panel position are the object 0x6211:01. -/
theorem flag_objN {ix sub : Nat} (hsub : sub < 256) (hix : ix < 65536) (hne : ix ≠ 0x6211 ∨ sub ≠ 1) (m : Mach) (p bit_ : Nat) (on : Bool)
    (bank : Nat) : (m.flag p bit_ on).objN ix sub bank = m.objN ix sub bank :=
  Mach.setN_objN_ne _ _ _ _ _ (okey_ne hsub (by decide) hix (by decide) (by omega))

/-- The only transfer is gone once it has ended. -/
theorem dropTransfer_only {m : Mach} {k : Transfer} (h : m.panel.transfers = [k]) : (m.dropTransfer k).panel.transfers = [] := by
  show (m.panel.transfers.filter (· != k)) = []
  simp [h]

theorem runTransfers_none {m : Mach} (h : m.panel.transfers = []) : m.runTransfers = m := by
  unfold Mach.runTransfers
  rw [h]
  rfl

/-- The block with the objects that a written checkpoint leaves (R352, R354). -/
def Mach.checkpointShown (m : Mach) (k : Transfer) : Mach :=
  ((((m.setN 0x6211 3 k.seq k.panel).setN 0x6211 4 (timeOf (slice 40 14 k.object)) k.panel).bump 0x6200 5).flag k.panel 2 false).flag k.panel 3 false

section Fields
variable (m : Mach) (p bit_ : Nat) (on : Bool) (k : Transfer)

@[simp] theorem flag_panel : (m.flag p bit_ on).panel = m.panel := Mach.setN_panel ..
@[simp] theorem flag_tiles : (m.flag p bit_ on).tiles = m.tiles := Mach.setN_tiles ..
@[simp] theorem flag_pipe : (m.flag p bit_ on).pipe = m.pipe := Mach.setN_pipe ..
@[simp] theorem flag_boot : (m.flag p bit_ on).boot = m.boot := Mach.setN_boot ..

@[simp] theorem checkpointShown_panel : (m.checkpointShown k).panel = m.panel := by simp [Mach.checkpointShown]
@[simp] theorem checkpointShown_tiles : (m.checkpointShown k).tiles = m.tiles := by simp [Mach.checkpointShown]
@[simp] theorem checkpointShown_pipe : (m.checkpointShown k).pipe = m.pipe := by simp [Mach.checkpointShown]
@[simp] theorem checkpointShown_boot : (m.checkpointShown k).boot = m.boot := by simp [Mach.checkpointShown]

end Fields

theorem checkpointShown_sequence (m : Mach) (k : Transfer) : (m.checkpointShown k).objN 0x6211 3 k.panel = k.seq := by
  rw [Mach.checkpointShown, flag_objN (by decide) (by decide) (by decide), flag_objN (by decide) (by decide) (by decide),
    Mach.bump_objN_ne _ _ _ _ _ (okey_ne (by decide) (by decide) (by decide) (by decide) (by omega)),
    Mach.setN_objN_ne _ _ _ _ _ (okey_ne (by decide) (by decide) (by decide) (by decide) (by omega)), Mach.setN_objN_same]

theorem checkpointShown_count {m : Mach} (hroom : m.objN 0x6200 5 < 18446744073709551615) (k : Transfer) :
    (m.checkpointShown k).objN 0x6200 5 = m.objN 0x6200 5 + 1 := by
  have hbefore : ((m.setN 0x6211 3 k.seq k.panel).setN 0x6211 4 (timeOf (slice 40 14 k.object)) k.panel).objN 0x6200 5 = m.objN 0x6200 5 :=
    (Mach.setN_objN_ne _ _ _ _ _ (okey_ne (by decide) (by decide) (by decide) (by decide) (by omega))).trans
      (Mach.setN_objN_ne _ _ _ _ _ (okey_ne (by decide) (by decide) (by decide) (by decide) (by omega)))
  rw [Mach.checkpointShown, flag_objN (by decide) (by decide) (by decide), flag_objN (by decide) (by decide) (by decide),
    Mach.bump_objN_same _ _ _ _ _ (by rw [hbefore, objMax_checkpoints]; omega), hbefore]

/-- Panel drive with the on-time that a written checkpoint holds (R346, R353). -/
def Transfer.notesOnTime (k : Transfer) (x : Panel) : Panel :=
  { x with lastOn := assocSet x.lastOn k.panel (ofBE (slice 32 8 k.object) * sec 1) }

/-- A checkpoint that is written, and was the only transfer: it is shown, its on-time is noted, and nothing else runs (R354). -/
theorem recordTransfer_checkpoint {m : Mach} {k : Transfer} (honly : m.panel.transfers = [k]) (hkind : k.kind = 2) :
    m.recordTransfer k = ((m.dropTransfer k).checkpointShown k).onPanel k.notesOnTime := by
  have hrecord : m.recordTransfer k = (((m.dropTransfer k).checkpointShown k).onPanel (k.notesOnTime)).runTransfers := by
    simp only [Mach.recordTransfer, hkind, (by decide : ¬ (2 : Nat) = 1), ↓reduceIte]
    rfl
  rw [hrecord, runTransfers_none]
  show ((m.dropTransfer k).checkpointShown k).panel.transfers = []
  rw [checkpointShown_panel]
  exact dropTransfer_only honly

theorem transfer?_only {m : Mach} {k : Transfer} (h : m.panel.transfers = [k]) (hstaged : k.staged = true) :
    m.transfer? k.c k.pos k.kind = some k := by
  simp [Mach.transfer?, h, hstaged]

theorem parkWhenDone_of_staying {m : Mach} {c pos : Nat} (h : (m.tile c pos).leaving = false) : m.parkWhenDone c pos = m :=
  if_neg (by simp [h])

/-- FLASH_DONE with status 0 for a committed transfer records it (R354). -/
theorem flashDone_written {m : Mach} {k : Transfer} (h : m.panel.transfers = [k]) (hstaged : k.staged = true)
    (hcommitted : k.commitAt.isSome = true) (x : Ctx) :
    flashDone k.c k.pos k.kind 0 x m = .of ((m.recordTransfer k).parkWhenDone k.c k.pos) := by
  unfold flashDone
  rw [if_neg (by omega), transfer?_only h hstaged]
  dsimp only
  rw [if_neg (by simpa using Option.isSome_iff_ne_none.mp hcommitted), if_pos rfl]

/-- Settles O35: a segment by whether it is accepted, and FLASH_DONE by what the transfer's record leaves. -/
theorem historyObjectsComeAndGo : Obligations.HistoryObjectsComeAndGo := by
  unfold Obligations.HistoryObjectsComeAndGo
  refine ⟨?rejected, ?held, ?written⟩
  case rejected =>
    intro s g cause hc hpos hkind hsince hcause htx hquench
    refine runs_of_eff (tileSegment_rejected hc hpos hkind hsince hcause s.ctx) ⟨?_, ?_, rfl⟩
    · exact load_congr (Sends.toTile ..).tiles ..
    · exact sendKtl_sentOn htx hquench _
  case held =>
    intro s g hc hpos hchain htile hkind hsince haccepted hnew hshort
    obtain ⟨n, hsegment, hload⟩ := tileSegment_held hc hpos hchain htile hkind hsince haccepted hnew hshort s.ctx
    exact runs_of_eff hsegment ⟨congrArg FlashLoad.segs hload, rfl⟩
  case written =>
    intro s c pos k hshut hup honly hc hpos hkind hstaged hcommitted hstays hroom
    subst hc hpos
    have hrecord := recordTransfer_checkpoint honly hkind
    generalize hn : s.m.recordTransfer k = n at *
    have hod : n.od = ((s.m.dropTransfer k).checkpointShown k).od := by rw [hrecord, Mach.onPanel_od]
    have hnone : n.panel.transfers = [] := by
      rw [hrecord]
      show ((s.m.dropTransfer k).checkpointShown k).panel.transfers = []
      rw [checkpointShown_panel]
      exact dropTransfer_only honly
    obtain ⟨htiles, hpipe, hboot⟩ : n.tiles = s.m.tiles ∧ n.pipe = s.m.pipe ∧ n.boot = s.m.boot := by
      rw [hrecord, Mach.onPanel_tiles, Mach.onPanel_pipe, Mach.onPanel_boot, checkpointShown_tiles, checkpointShown_pipe,
        checkpointShown_boot]
      exact ⟨rfl, rfl, rfl⟩
    have hdone : flashDone k.c k.pos 2 0 s.ctx s.m = .of n := by
      rw [← hkind, flashDone_written honly hstaged hcommitted, hn, parkWhenDone_of_staying]
      rw [Mach.tile, Mach.chain, htiles]
      exact hstays
    have hlost : s.m.pourLost n = n := if_pos (by rw [Mach.heat, hpipe, Mach.heat])
    have hcontinue : n.continueShutdown s.ctx = .of n := if_pos (by rwa [hboot])
    refine runs_of_eff (f := flashEnds k.c k.pos 2 0) (m := n) ?_ ⟨?_, ?_, hnone⟩
    · unfold flashEnds
      rw [if_neg (by rw [hup]; decide), hdone]
      show Eff.then_ (.of (s.m.pourLost n)) _ = _
      rw [hlost, Eff.then_, Eff.of]
      dsimp only
      rw [hcontinue]
      rfl
    · exact (Mach.objN_congr hod ..).trans (checkpointShown_sequence ..)
    · exact (Mach.objN_congr hod ..).trans (checkpointShown_count (m := s.m.dropTransfer k) hroom k)

end Sys2Proof.Machine

/-! A journal with no room (R73, R520), and chains past the last of the 96 (R311): two states that refute O31, O33 and O36. -/

namespace Sys2Proof.Machine

/-! ### O31 and O33: a journal with no room -/

/-- All of the MRAM's 1,024 sectors are retired, so that the journal holds no record (R73, R520). -/
def mramRetired : State := started fun m => { m with test := { m.test with mramRetired := 1024 } }

/-- What 0x1200:04 shows is the capacity of the journal, and no stored object; the cell of that object stands at its default. -/
theorem mramRetired_capacity : mramRetired.m.journalCapacity = 0 ∧ mramRetired.m.objN 0x1200 4 ≠ 0 := by decide +kernel

/-- The reply of a tile at hop 11 on the A side of chain 41, past the chain's 10 positions. -/
def replyPastChain : EnumReply := ⟨41, false, 11, 5, 1, 2, true, false, false⟩

/-- The event 0x8017 is raised and leaves no record. -/
theorem replyPastChain_unrecorded : (tileReplies replyPastChain mramRetired.ctx mramRetired.m).m.jrn.recs = [] := by decide +kernel

/-- Refutes O31: its clause on a reply past the chain's positions asks that the cell of 0x1200:04 is not 0, but that object shows the
journal's capacity (R73), and with every MRAM sector retired (R520) the cell keeps its default while the journal holds no record. -/
theorem not_tilesAreFoundProbedAndLoaded : ¬ Obligations.TilesAreFoundProbedAndLoaded := by
  unfold Obligations.TilesAreFoundProbedAndLoaded
  rintro ⟨-, hpast, -⟩
  obtain ⟨t, hrun, hnewest, -⟩ := hpast mramRetired replyPastChain (by decide +kernel) (by decide +kernel) (by decide) (by decide +kernel)
    (by decide) rfl rfl mramRetired_capacity.2
  rw [mach_of_liftE (f := tileReplies replyPastChain) hrun, replyPastChain_unrecorded] at hnewest
  exact absurd hnewest (by decide)

/-- So it is with the event 0x8019. -/
theorem deviceFault_unrecorded : (tileFault 41 6 false 5 mramRetired.ctx mramRetired.m).m.jrn.recs = [] := by decide +kernel

/-- Refutes O33: its clause on fault codes 5 to 8 asks of the cell of 0x1200:04 what holds of the journal's capacity only (R73); with every
MRAM sector retired (R520) the report is made and no record of it is held. -/
theorem not_chainsBreakHealAndReport : ¬ Obligations.ChainsBreakHealAndReport := by
  unfold Obligations.ChainsBreakHealAndReport
  rintro ⟨-, hdevice, -⟩
  obtain ⟨t, hrun, -, hnewest, -⟩ := hdevice mramRetired 41 6 false 5 (by decide +kernel) (by decide +kernel) (by decide) (by decide)
    (by decide) (by decide) rfl mramRetired_capacity.2
  rw [mach_of_liftE (f := tileFault 41 6 false 5) hrun, deviceFault_unrecorded] at hnewest
  exact absurd hnewest (by decide)

/-! ### O36: a chain past the last one -/

/-- A tile with a COMMIT for heat 9 that was sent at 0. -/
def waitingTile : Tile := { commits := [⟨9, 1, false, 0⟩] }

/-- A lane with an injection of kind 5 that waits, whose last block left at 10 µs. -/
def injectedLane : Lane := { sentAt := some (us 10), armed := 5, badTx := true }

/-- Chains and lanes past the 96 and 192 of the module, the A-side lane of chain 128 ACTIVE, 10 µs after a COMMIT to its first tile. -/
def commitPastLastChain : State :=
  started fun m => { ((m.setTx 256 4).setN 0x5000 6 10000000000).setN 0x6110 0x15 0 with
    clk := { m.clk with mono := us 10 }
    lanes := List.replicate 257 injectedLane
    tiles := { m.tiles with chains := List.replicate 129 { tiles := [waitingTile] } } }

theorem commitPastLastChain_counts : commitPastLastChain.m.objN 0x6110 0x15 = 0 ∧
    (commitResend 128 0 commitPastLastChain.m).objN 0x6110 0x15 = 1 := by
  decide +kernel

/-- Refutes O36: its clause on the commands that send takes any chain number. The A-side lane of chain 128 would be lane 256, where the count
of an injection that a COMMIT meets (0x6010+k:15, R307, R319) falls on the staged map of chain 0 (0x6110:15). -/
theorem not_tileLinkEventsKeepTheRest : ¬ Obligations.TileLinkEventsKeepTheRest := by
  unfold Obligations.TileLinkEventsKeepTheRest
  rintro ⟨hsends, -⟩
  obtain ⟨-, hobjects⟩ := hsends commitPastLastChain _ 128 0 0 0 (.commitResend 128 0) (by simp) rfl
  have hsame := hobjects.objN (ix := 0x6110) (sub := 0x15) (by decide) (by decide)
  obtain ⟨hbefore, hafter⟩ := commitPastLastChain_counts
  exact absurd (hafter.symm.trans (hsame.trans hbefore)) (by decide)

end Sys2Proof.Machine

/-! A journal with no room once more, and the reads of the slate frame: three states that refute O37, O39 and O40 (R73, R372, R520). -/

namespace Sys2Proof.Machine

/-! ### O37 and O39: a journal with no room -/

/-- A LOADING tile without a map entry that waits 100 ms for its checkpoint, its gain map settled; the MRAM is retired as in `mramRetired`. -/
def checkpointLateUnrecorded : State :=
  started fun m => ({ m with clk := { m.clk with mono := ms 100 }, test := { m.test with mramRetired := 1024 } } : Mach).setN 0x6181 1 2 (tileBank 3 2)
    |>.onTile 3 2 fun x => { x with gainLoad := { done := true }, checkLoad := { since := some 0 } }

/-- The event 0x9001 is raised and leaves no record. -/
theorem checkpointLate_unrecorded :
    (flashReadTimeout 3 2 2 checkpointLateUnrecorded.ctx checkpointLateUnrecorded.m).m.jrn.recs = [] := rfl

/-- Refutes O37: its clause on a tile without a panel position asks of the cell of 0x1200:04 what holds of the journal's capacity only (R73);
with every MRAM sector retired (R520) the rejected checkpoint is reported and no record of it is held. -/
theorem not_historyIsWrittenBackAndRead : ¬ Obligations.HistoryIsWrittenBackAndRead := by
  unfold Obligations.HistoryIsWrittenBackAndRead
  rintro ⟨-, -, -, -, -, hlate⟩
  obtain ⟨t, hrun, -, -, hnewest, -⟩ := hlate checkpointLateUnrecorded 3 2 0 rfl rfl (Nat.le_refl _) rfl rfl rfl
    (by decide) (by decide) (by decide)
  rw [mach_of_liftE (f := flashReadTimeout 3 2 2) hrun, checkpointLate_unrecorded] at hnewest
  exact absurd hnewest (by decide)

/-- The event 0x9011 is raised and leaves no record. -/
theorem commonFault_unrecorded : (commonFails 63 3 mramRetired.m).jrn.recs = [] := rfl

/-- Refutes O39: its clause on the fault of a common asks of the cell of 0x1200:04 what holds of the journal's capacity only (R73); with every
MRAM sector retired (R520) the fault is reported and no record of it is held. -/
theorem not_commonsSlateAndQuench : ¬ Obligations.CommonsSlateAndQuench := by
  unfold Obligations.CommonsSlateAndQuench
  rintro ⟨hfault, -⟩
  obtain ⟨t, hrun, -, -, -, hnewest⟩ := hfault mramRetired 63 3 (by decide) (by decide) (by decide) (by decide) (by decide)
    (by decide) mramRetired_capacity.2
  rw [mach_of_lift (f := fun _ => commonFails 63 3) hrun, commonFault_unrecorded] at hnewest
  exact absurd hnewest (by decide)

/-! ### O40: the reads of the slate frame -/

/-- P2, a slate tick due, and a dirty slate whose one lit tile is the ACTIVE tile in the map at chain 0, position 0. -/
def slateDirty : State :=
  started (fun m => ({ m with clk := { m.clk with reg := 65536 * ms 100 } } : Mach).setN 0x6400 9 1
    |>.setN 0x6400 4 32 |>.setN 0x6400 5 30 |>.setN 0x6181 1 4 (tileBank 0 0) |>.onTile 0 0 (fun x => { x with entry := 0 })
    |>.touchSlate) 2

/-- The frame of one tile is 36 rows of 60 bytes, counted by 0x7000:0B. -/
theorem slateDirty_reads : slateDirty.m.objN 0x7000 0x0B = 0 ∧ (slateTick slateDirty.ctx slateDirty.m).objN 0x7000 0x0B = 2160 := by
  decide +kernel

/-- Refutes O40: its clause on SLATE_TICK leaves the memory controller and object 0x7000 no change, but a tick after a change of the slate reads
the frame of the lit tiles (R372), and the bytes read are counted in 0x7000:0B. -/
theorem not_panelEventsKeepTheRest : ¬ Obligations.PanelEventsKeepTheRest := by
  unfold Obligations.PanelEventsKeepTheRest
  rintro ⟨-, -, hslate, -⟩
  obtain ⟨-, hobjects⟩ := hslate slateDirty _ rfl
  have hsame := hobjects.objN (ix := 0x7000) (sub := 0x0B) (by decide) (by decide)
  obtain ⟨hbefore, hafter⟩ := slateDirty_reads
  exact absurd (hafter.symm.trans (hsame.trans hbefore)) (by decide)

end Sys2Proof.Machine

/-! What stays: a view of the block and some of its objects (for the frames of O20, and for O38 and O47). -/

namespace Sys2Proof.Machine

/-- From one block to the next a view of it and the objects of some keys are as they were. -/
structure Stays {α : Type} (v : Mach → α) (K : Nat → Prop) (a b : Mach) : Prop where
  view : v b = v a
  objects : ∀ k, K k → storeGet b.od k = storeGet a.od k

section Rules
variable {α : Type} {v : Mach → α} {K : Nat → Prop} {a b c m : Mach}

theorem Stays.refl (v : Mach → α) (K : Nat → Prop) (m : Mach) : Stays v K m m := ⟨rfl, fun _ _ => rfl⟩

theorem Stays.trans (h : Stays v K a b) (k : Stays v K b c) : Stays v K a c :=
  ⟨k.view.trans h.view, fun x hx => (k.objects x hx).trans (h.objects x hx)⟩

/-- A step that leaves the view and every object. -/
theorem Stays.keep (h : Stays v K a m) (hv : v b = v m) (hod : b.od = m.od) : Stays v K a b :=
  h.trans ⟨hv, fun _ _ => by rw [hod]⟩

theorem Stays.ite {p : Prop} [Decidable p] {x y : Mach} (hx : p → Stays v K a x) (hy : ¬ p → Stays v K a y) :
    Stays v K a (if p then x else y) := iteInduction hx hy

theorem Stays.eachOf {β : Type} {f : Mach → β → Mach} (l : List β) (hf : ∀ n, ∀ x ∈ l, Stays v K a n → Stays v K a (f n x))
    (h : Stays v K a m) : Stays v K a (Machine.each l m f) :=
  List.foldlRecOn l f (motive := fun n => Stays v K a n) h fun n hn x hx => hf n x hx hn

theorem Stays.each {β : Type} {f : Mach → β → Mach} (l : List β) (hf : ∀ n x, Stays v K a n → Stays v K a (f n x))
    (h : Stays v K a m) : Stays v K a (Machine.each l m f) := h.eachOf l fun n x _ => hf n x

/-- A write of an object whose key is none of those. -/
theorem Stays.set (h : Stays v K a m) {ix sub bank : Nat} {x : Int} (hkey : ∀ k, K k → k ≠ okey ix sub bank)
    (hv : v (m.set ix sub x bank) = v m) : Stays v K a (m.set ix sub x bank) :=
  h.trans ⟨hv, fun k hk => storeGet_set_ne m.od x (hkey k hk)⟩

/-- An event, where the counts of events are not among the keys. -/
theorem Stays.record (h : Stays v K a m) {code flags supp inst : Nat} {d : List (Nat × Nat)}
    (hkey : ∀ k, K k → k ≠ okey 0x1202 (code / 4096)) (hv : v (m.record code flags supp inst d) = v m) :
    Stays v K a (m.record code flags supp inst d) :=
  h.trans ⟨hv, fun k hk => storeGet_set_ne m.od _ (hkey k hk)⟩

/-! #### Units that a view leaves out -/

theorem Stays.onPtp (h : Stays v K a m) {f : Ptp → Ptp} (hv : v (m.onPtp f) = v m) : Stays v K a (m.onPtp f) := h.keep hv rfl

theorem Stays.emit (h : Stays v K a m) {o : Out} (hv : v (m.emit o) = v m) : Stays v K a (m.emit o) := h.keep hv rfl

end Rules

/-! ### Objects outside some indices -/

/-- The keys of the objects that are not of the named indices: those that `ObjectsBut` keeps. -/
def Unlisted (l : List (Nat × Nat)) (k : Nat) : Prop := ∀ r ∈ l, k / 256 % 65536 < r.1 ∨ r.2 < k / 256 % 65536

theorem Unlisted.ne {l : List (Nat × Nat)} (r : Nat × Nat) (hr : r ∈ l) {ix sub : Nat} (hix : r.1 ≤ ix ∧ ix ≤ r.2)
    (hsmall : ix < 65536 ∧ sub < 256) (k : Nat) (hk : Unlisted l k) : k ≠ okey ix sub := by
  intro h
  have hindex : k / 256 % 65536 = ix := by rw [h, okey]; omega
  have := hk r hr
  omega

/-- An object outside the named indices keeps its value. -/
theorem Stays.objN {α : Type} {v : Mach → α} {l : List (Nat × Nat)} {a b : Mach} (h : Stays v (Unlisted l) a b) {ix sub : Nat}
    (hix : ∀ r ∈ l, ix < r.1 ∨ r.2 < ix) (hsmall : ix < 65536 ∧ sub < 256) : b.objN ix sub = a.objN ix sub :=
  ObjectsBut.objN (l := l) h.objects hix hsmall

end Sys2Proof.Machine

/-! What path-delay messages, edges, slot ticks and the late cut-off leave alone (R96, R366, R413, R426, R427, R431), and O20. -/

namespace Sys2Proof.Machine

/-! ### A block without the units that change -/

/-- The block without PTP, what is sent and the objects. -/
def Mach.sansPtp (m : Mach) : Mach := { m with od := [], ptp := {}, out := [] }

/-- The block without PTP and what an event changes. -/
def Mach.sansEdges (m : Mach) : Mach := { m with od := [], koa := {}, jrn := {}, ptp := {}, out := [] }

/-- The block without the pipeline, the panel and what an event changes. -/
def Mach.sansSlots (m : Mach) : Mach := { m with od := [], koa := {}, jrn := {}, pipe := {}, panel := {}, out := [] }

/-- The block without layers, graphics, the pipeline and what an event changes. -/
def Mach.sansLayers (m : Mach) : Mach := { m with od := [], koa := {}, jrn := {}, scene := {}, outs := {}, pipe := {}, out := [] }

section Frames
variable {K : Nat → Prop} {a b : Mach}

theorem Stays.ptp_frame (h : Stays Mach.sansPtp K a b) : b = { a with od := b.od, ptp := b.ptp, out := b.out } :=
  congrArg (fun x : Mach => { x with od := b.od, ptp := b.ptp, out := b.out }) h.view

theorem Stays.edges_frame (h : Stays Mach.sansEdges K a b) :
    b = { a with od := b.od, koa := b.koa, jrn := b.jrn, ptp := b.ptp, out := b.out } :=
  congrArg (fun x : Mach => { x with od := b.od, koa := b.koa, jrn := b.jrn, ptp := b.ptp, out := b.out }) h.view

theorem Stays.slots_frame (h : Stays Mach.sansSlots K a b) :
    b = { a with od := b.od, koa := b.koa, jrn := b.jrn, pipe := b.pipe, panel := b.panel, out := b.out } :=
  congrArg (fun x : Mach => { x with od := b.od, koa := b.koa, jrn := b.jrn, pipe := b.pipe, panel := b.panel, out := b.out }) h.view

theorem Stays.layers_frame (h : Stays Mach.sansLayers K a b) :
    b = { a with od := b.od, koa := b.koa, jrn := b.jrn, scene := b.scene, outs := b.outs, pipe := b.pipe, out := b.out } :=
  congrArg (fun x : Mach => { x with od := b.od, koa := b.koa, jrn := b.jrn, scene := b.scene, outs := b.outs, pipe := b.pipe, out := b.out })
    h.view

end Frames

/-! ### Path-delay messages (R413, R415) -/

/-- With no stop, shutdown or request waiting nothing follows a command. -/
theorem advanceStops_of_settled {m : Mach} (h : m.settled = true) (c : Ctx) : m.advanceStops c = .of m := by
  simp only [Mach.settled, Bool.and_eq_true, Bool.not_eq_true', decide_eq_true_eq] at h
  obtain ⟨⟨hstopping, -⟩, hrequest⟩ := h
  have hstop : m.power_.stop = none := by
    rw [Mach.stopping, Bool.or_eq_false_iff] at hstopping
    simpa using hstopping.1
  have hdo : m.doStop c = .of m := by rw [Mach.doStop, hstop]
  rw [Mach.advanceStops, hdo]
  simp [Eff.then_, Eff.of, hrequest]

/-- A PTP message or timer that leaves the stop, the shutdown and the request alone. -/
theorem ptpEvent_cases {f : Mach → Mach} {m : Mach} (hf : (f m).settled = true) (c : Ctx) :
    ptpEvent f c m = .of m ∨ ptpEvent f c m = .of (f m) := by
  unfold ptpEvent
  split
  · exact .inl rfl
  · exact .inr (advanceStops_of_settled hf c)

section Ptp
variable {l : List (Nat × Nat)} {a b m : Mach} {s t : State} {d : Nat}

theorem Stays.settled (h : Stays Mach.sansPtp (Unlisted l) a b) (hl : ∀ r ∈ l, 0x2100 < r.1 ∨ r.2 < 0x2100)
    (ha : a.settled = true) : b.settled = true := by
  have hpower : b.power_ = a.power_ := by have := congrArg Mach.power_ h.view; exact this
  have hboot : b.boot = a.boot := by have := congrArg Mach.boot h.view; exact this
  rw [Mach.settled, Mach.stopping, hpower, hboot, h.objN hl (by decide)]
  exact ha

/-- A PTP message that changes nothing but PTP, what is sent and some objects, while nothing waits. -/
theorem ptp_state {f : Ctx → Mach → Mach} (hsettled : s.m.settled = true) (hl : ∀ r ∈ l, 0x2100 < r.1 ∨ r.2 < 0x2100)
    (hf : Stays Mach.sansPtp (Unlisted l) s.m (f s.ctx s.m)) (hrun : liftE (fun c => ptpEvent (f c) c) s = .next t) :
    t = { s with m := { s.m with od := t.m.od, ptp := t.m.ptp, out := t.m.out } } ∧ ObjectsBut l s.m t.m := by
  have hstate : ∀ n : Mach, Stays Mach.sansPtp (Unlisted l) s.m n → t = { s with m := n } →
      t = { s with m := { s.m with od := t.m.od, ptp := t.m.ptp, out := t.m.out } } ∧ ObjectsBut l s.m t.m := by
    rintro n hn rfl
    exact ⟨congrArg (fun m => ({ s with m := m } : State)) hn.ptp_frame, hn.objects⟩
  obtain h | h := ptpEvent_cases (hf.settled hl hsettled) s.ctx
  · exact hstate _ (.refl ..) (state_eq_of_liftE hrun h)
  · exact hstate _ hf (state_eq_of_liftE hrun h)

theorem Stays.delayReq (tx : Nat) (c : Ctx) : Stays Mach.sansPtp (Unlisted l) m (Machine.delayReq d tx c m) :=
  .ite (fun _ => .refl ..) (fun _ => .keep (.refl ..) rfl rfl)

theorem Stays.pdelayReq (n rx tx : Nat) (c : Ctx) : Stays Mach.sansPtp (Unlisted l) m (Machine.pdelayReq d n rx tx c m) :=
  .ite (fun _ => .refl ..) (fun _ => .keep (.refl ..) rfl rfl)

/-- The offsets of a domain whose other fields change. -/
theorem offsets_onDom {f : Domain → Domain} (hf : ∀ x, (f x).offsets = x.offsets) (m : Mach) (d : Nat) :
    ((m.onDom d f).dom d).offsets = (m.dom d).offsets := getD_of_map_eq (map_modify_of_eq hf m.ptp.doms d) d _

/-- A response that cannot make its domain QUALIFIED, with at most one domain QUALIFIED: the measured path, and the domain's measurement. -/
theorem measured_stays {f : Domain → Domain} (hd : d < 2) (hf : ∀ x, (f x).offsets = x.offsets)
    (hsteady : m.domState d ≠ 2 ∨ steady (m.dom d).offsets = false) (hone : m.qualified 0 = false ∨ m.qualified 1 = false) (path : Int) :
    Stays Mach.sansPtp (Unlisted [(0x3010 + d, 0x3010 + d)]) m ((((m.set (0x3010 + d) 9 path).onDom d f).qualify d).compareDomains) := by
  have hstate (e : Nat) (he : e < 2) : (((m.set (0x3010 + d) 9 path).onDom d f)).domState e = m.domState e :=
    Mach.set_objN_ne _ _ _ _ _ (okey_ne (by omega) (by omega) (by omega) (by omega) (by omega))
  have hqualify : ((m.set (0x3010 + d) 9 path).onDom d f).qualify d = (m.set (0x3010 + d) 9 path).onDom d f := by
    refine if_neg fun h => ?_
    rw [hstate d hd, offsets_onDom hf] at h
    obtain ⟨htwo, hoffsets, -⟩ := h
    exact hsteady.elim (· htwo) fun hnot => by simp [Mach.dom, Mach.set] at hoffsets hnot; simp [hnot] at hoffsets
  have hcompare : ((m.set (0x3010 + d) 9 path).onDom d f).compareDomains = (m.set (0x3010 + d) 9 path).onDom d f := by
    refine if_pos ?_
    rw [Mach.qualified, Mach.qualified, hstate 0 (by omega), hstate 1 (by omega), ← Mach.qualified, ← Mach.qualified]
    obtain h | h := hone <;> simp [h]
  rw [hqualify, hcompare]
  exact .onPtp (.set (.refl ..) (Unlisted.ne (0x3010 + d, 0x3010 + d) (by simp) ⟨Nat.le_refl _, Nat.le_refl _⟩ (by omega)) rfl) rfl

theorem Stays.delayResp (hd : d < 2) (hsteady : m.domState d ≠ 2 ∨ steady (m.dom d).offsets = false)
    (hone : m.qualified 0 = false ∨ m.qualified 1 = false) (n rx : Nat) (correction : Int) :
    Stays Mach.sansPtp (Unlisted [(0x3010 + d, 0x3010 + d)]) m (Machine.delayResp d n rx correction m) := by
  unfold Machine.delayResp
  extract_lets x
  split
  · exact .refl ..
  · refine .ite (fun _ => .refl ..) fun _ => ?_
    extract_lets path
    exact measured_stays hd (fun _ => by rfl) hsteady hone path

theorem Stays.pdelayResp (hd : d < 2) (hsteady : m.domState d ≠ 2 ∨ steady (m.dom d).offsets = false)
    (hone : m.qualified 0 = false ∨ m.qualified 1 = false) (n reqRx respTx rx : Nat) (correction : Int) (c : Ctx) :
    Stays Mach.sansPtp (Unlisted [(0x3010 + d, 0x3010 + d)]) m (Machine.pdelayResp d n reqRx respTx rx correction c m) := by
  unfold Machine.pdelayResp
  extract_lets rx'
  split
  · exact .refl ..
  · refine .ite (fun _ => .refl ..) fun _ => ?_
    extract_lets path
    exact measured_stays hd (fun _ => by rfl) hsteady hone path

/-! ### Edges (R427, R429, R431) -/

theorem Stays.syncOutputEdge {o : Nat} (ho : o < 8) (k j : Nat) :
    Stays Mach.sansPtp (Unlisted [(0x3110 + o, 0x3110 + o)]) m (Machine.syncOutputEdge o k j m) := by
  unfold Machine.syncOutputEdge
  extract_lets x now lead stop m1
  have h1 : Stays Mach.sansPtp (Unlisted [(0x3110 + o, 0x3110 + o)]) m m1 := .ite (fun _ => .keep (.refl ..) rfl rfl) (fun _ => .refl ..)
  clear_value m1 lead
  split
  · exact h1
  · next t =>
    exact .emit (.set (h1.onPtp rfl) (Unlisted.ne (0x3110 + o, 0x3110 + o) (by simp) ⟨Nat.le_refl _, Nat.le_refl _⟩ (by omega)) rfl) rfl

theorem Stays.syncInputEdge (i stamp : Nat) (falling : Bool) :
    Stays Mach.sansEdges (Unlisted [(0x3120 + i, 0x3120 + i), (0x1202, 0x1202)]) m (Machine.syncInputEdge i falling stamp m) := by
  unfold Machine.syncInputEdge
  extract_lets ix which x close phase alarm far m1 m2
  by_cases hoff : 2 ≤ i ∨ !m.objB ix 1 ∨ 2 < m.power ∨ !(which = 2 ∨ which = bit falling)
  · rw [if_pos hoff]
    exact .refl ..
  rw [if_neg hoff]
  have hi : i < 2 := by omega
  have hown {sub : Nat} (hsub : sub < 256) : ∀ k, Unlisted [(0x3120 + i, 0x3120 + i), (0x1202, 0x1202)] k → k ≠ okey ix sub :=
    Unlisted.ne (0x3120 + i, 0x3120 + i) (by simp) ⟨Nat.le_refl _, Nat.le_refl _⟩ (by omega)
  have h2 : Stays Mach.sansEdges (Unlisted [(0x3120 + i, 0x3120 + i), (0x1202, 0x1202)]) m m2 :=
    .onPtp (.set (.set (.set (.refl ..) (hown (by omega)) rfl) (hown (by omega)) rfl) (hown (by omega)) rfl) rfl
  refine .ite (fun _ => .set (.refl ..) (hown (by omega)) rfl) fun _ => .ite (fun _ => ?_) (fun _ => h2)
  exact h2.record (Unlisted.ne (0x1202, 0x1202) (by simp) (by decide) (by decide)) rfl

theorem Stays.outputSettingsInEffect :
    Stays Mach.sansEdges (Unlisted [(0x3100, 0x3100), (0x1202, 0x1202)]) m (Machine.outputSettingsInEffect m) := by
  refine .ite (fun _ => .refl ..) fun _ => ?_
  unfold Mach.outputsInEffect
  split
  · exact .refl ..
  · refine .ite (fun _ => .refl ..) fun _ => ?_
    extract_lets moved m1 m2
    have h1 : Stays Mach.sansEdges (Unlisted [(0x3100, 0x3100), (0x1202, 0x1202)]) m m1 := .keep (.refl ..) rfl rfl
    have h2 : Stays Mach.sansEdges (Unlisted [(0x3100, 0x3100), (0x1202, 0x1202)]) m m2 := h1.each _ fun _ _ hn => hn.keep rfl rfl
    exact .record (.set h2 (Unlisted.ne (0x3100, 0x3100) (by simp) (by decide) (by decide)) rfl)
      (Unlisted.ne (0x1202, 0x1202) (by simp) (by decide) (by decide)) rfl

/-- While no calibration pass tests anything, settings that take effect end none. -/
theorem settingsInEffect_of_untested (h : m.testing = none) : settingsInEffect m = outputSettingsInEffect m := by
  have hstays := Stays.outputSettingsInEffect (m := m)
  have hcalib : (outputSettingsInEffect m).calib = m.calib := by have := congrArg Mach.calib hstays.view; exact this
  have htesting : (outputSettingsInEffect m).testing = none := by
    rw [Mach.testing, hcalib, hstays.objN (ix := 0x7800) (sub := 6) (by decide) (by decide)]
    exact h
  refine if_neg fun hlost => ?_
  rw [htesting] at hlost
  exact absurd hlost.1 (by decide)

end Ptp

/-- A wake of source 3 in P0 to P2, with no entry to P3 decided or under way: it is counted, or latched until the shutdown ends. -/
theorem recognise_edge {m : Mach} (hpower : m.power ≤ 2) (hstop : m.power_.stop ≠ some 3) (hentry : m.power_.entry = none) (u : Nat) (c : Ctx) :
    ∃ x, m.recognise 3 u c = .of { m with power_ := x } := by
  have hon (f : Power → Power) : (m.onPower f).power = m.power := rfl
  unfold Mach.recognise
  rw [if_neg (by omega)]
  extract_lets m1
  split
  · exact ⟨_, rfl⟩
  split
  · exact ⟨_, rfl⟩
  rw [if_neg (by rw [hon]; omega), if_neg (by rw [hon]; omega), if_neg (by simp [m1, Mach.onPower, hstop, hentry])]
  exact ⟨_, rfl⟩

/-- An edge at a sync input in P0 to P2, with no entry to P3 decided or under way. -/
theorem inputEdge_frame {m : Mach} (hpower : m.power ≤ 2) (hstop : m.power_.stop ≠ some 3) (hentry : m.power_.entry = none)
    (i stamp : Nat) (falling : Bool) (c : Ctx) : ∃ n x, Stays Mach.sansEdges (Unlisted [(0x3120 + i, 0x3120 + i), (0x1202, 0x1202)]) m n ∧
      inputEdge i falling stamp c m = .of { n with power_ := x } := by
  have hstays := Stays.syncInputEdge (m := m) i stamp falling
  have hpower_ : (syncInputEdge i falling stamp m).power_ = m.power_ := by have := congrArg Mach.power_ hstays.view; exact this
  unfold inputEdge
  rw [if_pos hpower]
  dsimp only
  split
  next hwake =>
    obtain ⟨hi, -⟩ := hwake
    have hsame : (syncInputEdge i falling stamp m).power = m.power := hstays.objN (by simp; omega) (by decide)
    obtain ⟨x, hx⟩ := recognise_edge (m := syncInputEdge i falling stamp m) (by omega) (by rwa [hpower_]) (by rwa [hpower_]) i c
    exact ⟨_, x, hstays, hx⟩
  · exact ⟨_, _, hstays, rfl⟩

/-! ### Slot ticks (R366) -/

section Slots
variable {m : Mach}

/-- The objects of the commons, and the counts of events. -/
abbrev slotObjects : List (Nat × Nat) := [(0x6300, 0x6300), (0x6310, 0x634F), (0x1202, 0x1202)]

theorem Stays.slotTick (k : Nat) (l : List Int) : Stays Mach.sansSlots (Unlisted slotObjects) m (slotTick_ k l m) := by
  have hcommon (n : Mach) {i : Nat} (f : Common → Common) (hn : Stays Mach.sansSlots (Unlisted slotObjects) m n) :
      Stays Mach.sansSlots (Unlisted slotObjects) m (n.onCommon i f) := hn.keep rfl rfl
  have hpanel (n : Mach) (f : Panel → Panel) (hn : Stays Mach.sansSlots (Unlisted slotObjects) m n) :
      Stays Mach.sansSlots (Unlisted slotObjects) m (n.onPanel f) := hn.keep rfl rfl
  have hset (n : Mach) (r : Nat × Nat) (hr : r ∈ slotObjects) {ix sub : Nat} (x : Int) (hix : r.1 ≤ ix ∧ ix ≤ r.2) (hsmall : ix < 65536 ∧ sub < 256)
      (hn : Stays Mach.sansSlots (Unlisted slotObjects) m n) : Stays Mach.sansSlots (Unlisted slotObjects) m (n.set ix sub x) :=
    hn.set (Unlisted.ne r hr hix hsmall) rfl
  refine .ite (fun _ => .refl ..) fun _ => ?_
  extract_lets slots m1 pipe m2 m3 m4 m5 driving m6 wide free m7 lens drive m8
  have h1 : Stays Mach.sansSlots (Unlisted slotObjects) m m1 :=
    .ite (fun _ => .refl ..) fun _ => .each _ (fun _ _ hn => hcommon _ _ hn) (hpanel _ _ (.each _ (fun _ _ hn => hpanel _ _ hn) (.refl ..)))
  have h3 : Stays Mach.sansSlots (Unlisted slotObjects) m m3 := .keep h1 rfl rfl
  have h4 : Stays Mach.sansSlots (Unlisted slotObjects) m m4 :=
    hset _ (0x6300, 0x6300) (by decide) _ (by decide) (by decide) (.each _ (fun _ _ hn => .ite (fun _ => hcommon _ _ hn) (fun _ => hn)) h3)
  have h5 : Stays Mach.sansSlots (Unlisted slotObjects) m m5 := .ite (fun _ => h3) (fun _ => hpanel _ _ h4)
  have h6 : Stays Mach.sansSlots (Unlisted slotObjects) m m6 := h5.eachOf _ fun n x hx hn => by
    have hx : x < 64 := by simpa [upTo] using (List.mem_filter.mp hx).1
    exact hset _ (0x6310, 0x634F) (by decide) _ (by dsimp only; omega) (by omega) hn
  have h8 : Stays Mach.sansSlots (Unlisted slotObjects) m m8 := .ite (fun _ => hpanel _ _ h6) (fun _ => .emit (hpanel _ _ h6) rfl)
  refine .ite (fun _ => h8) fun _ => h8.each _ fun n x hn => .ite (fun _ => hcommon _ _ hn) fun _ => ?_
  refine .ite (fun _ => hcommon _ _ ?_) (fun _ => hcommon _ _ hn)
  exact .record (hcommon _ _ hn) (Unlisted.ne (0x1202, 0x1202) (by decide) (by decide) (by decide)) rfl

end Slots

/-! ### The late cut-off (R96) -/

section CutOff
variable {K : Nat → Prop} {a m : Mach}

theorem Assigns.sansLayers {a b : Mach} (h : Assigns a b) : b.sansLayers = a.sansLayers := (congrArg Mach.sansLayers h :)

theorem Stays.assign_rescheduleAll (h : Stays Mach.sansLayers K a m) : Stays Mach.sansLayers K a m.assign.rescheduleAll :=
  h.keep (Assigns.assign_rescheduleAll m).sansLayers (Assigns.assign_rescheduleAll m).od

theorem Stays.decide_ (hkey : ∀ k, K k → k ≠ okey 0x1202 (0x6005 / 4096)) (v2 : List (Nat × Bound)) (h : Stays Mach.sansLayers K a m) :
    Stays Mach.sansLayers K a (m.decide_ v2) := by
  unfold Mach.decide_
  extract_lets m1 set_ hit hits most ok m2 m3 first peak2 m4
  have h2 : Stays Mach.sansLayers K a m2 := h.keep rfl rfl
  have h3 : Stays Mach.sansLayers K a m3 := by
    refine h2.each _ fun n k hn => .keep (m := match n.heat.bound1.getD k.1 none with
      | some b => n.markBusy k.1 b.buf n.heat.number
      | none => n) ?_ rfl rfl
    split
    · exact hn.keep rfl rfl
    · exact hn
  clear_value m3
  have h4 : Stays Mach.sansLayers K a m4 := h3.keep rfl rfl
  clear_value m4
  have h5 : Stays Mach.sansLayers K a (m4.onHeat fun h => { h with list := first ++ h.list }) := h4.keep rfl rfl
  refine .ite (fun _ => ?_) fun _ => h5.assign_rescheduleAll
  exact h3.record hkey rfl

theorem Stays.lateCutOff (hkey : ∀ k, K k → k ≠ okey 0x1202 (0x6005 / 4096)) : Stays Mach.sansLayers K m (Machine.lateCutOff m) := by
  refine .ite (fun _ => .refl ..) fun _ => ?_
  extract_lets m1
  have h1 : Stays Mach.sansLayers K m m1 := by
    refine .ite (fun _ => ?_) fun _ => .ite (fun _ => .keep (.refl ..) rfl rfl) (fun _ => .refl ..)
    split
    · exact .keep (.refl ..) rfl rfl
    · exact .decide_ hkey _ (.refl ..)
  exact h1.keep rfl rfl

end CutOff

/-- The loss of the AO island's power changes the clock, the power unit, and what 0x3000 shows of the time. -/
theorem aoIslandPowerLoss_frame (m : Mach) :
    aoIslandPowerLoss m = { m with od := (aoIslandPowerLoss m).od, clk := (aoIslandPowerLoss m).clk, power_ := (aoIslandPowerLoss m).power_ } ∧
      ObjectsBut [(0x3000, 0x3000)] m (aoIslandPowerLoss m) := by
  unfold aoIslandPowerLoss
  split
  · exact ⟨rfl, .refl _ _⟩
  · refine ⟨rfl, ?_⟩
    have hset (n : Mach) (sub : Nat) (x : Int) (hsub : sub < 256) : ObjectsBut [(0x3000, 0x3000)] n (n.set 0x3000 sub x) :=
      .set (0x3000, 0x3000) n _ _ _ _ (by decide) (by decide) ⟨by decide, hsub⟩
    exact .trans (.trans (.of_od rfl) (hset _ 1 0 (by decide))) ((hset _ 2 0xFF (by decide)).trans (.of_od rfl))

/-- Settles O20: each command by what its unit's operation leaves alone. -/
theorem timeCommandsChangeTimeOnly : Obligations.TimeCommandsChangeTimeOnly := by
  unfold Obligations.TimeCommandsChangeTimeOnly
  refine ⟨?requests, ?responses, ?output, ?input, ?settings, ?slot, ?cutOff, ?island⟩
  case requests =>
    intro s t d n a b c hd hsettled hc hrun
    have hfar : ∀ r ∈ [(0x3010 + d, 0x3010 + d)], 0x2100 < r.1 ∨ r.2 < 0x2100 := by simp; omega
    simp only [List.mem_cons, List.not_mem_nil, or_false] at hc
    obtain rfl | rfl := hc
    · exact ptp_state (f := delayReq d a) hsettled hfar (.delayReq ..) hrun
    · exact ptp_state (f := pdelayReq d n a b) hsettled hfar (.pdelayReq ..) hrun
  case responses =>
    intro s t d n a b e c' c hd hsettled hsteady hone hc hrun
    have hfar : ∀ r ∈ [(0x3010 + d, 0x3010 + d)], 0x2100 < r.1 ∨ r.2 < 0x2100 := by simp; omega
    simp only [List.mem_cons, List.not_mem_nil, or_false] at hc
    obtain rfl | rfl := hc
    · exact ptp_state (f := fun _ => delayResp d n a c') hsettled hfar (.delayResp hd hsteady hone ..) hrun
    · exact ptp_state (f := pdelayResp d n a b e c') hsettled hfar (.pdelayResp hd hsteady hone ..) hrun
  case output =>
    intro s t o k j ho hrun
    have hstays := Stays.syncOutputEdge (m := s.m) ho k j
    obtain rfl := state_eq_of_lift (f := fun _ => syncOutputEdge o k j) hrun rfl
    exact ⟨congrArg (fun m => ({ s with m := m } : State)) hstays.ptp_frame, hstays.objects⟩
  case input =>
    intro s t n x b hpower hstop hentry hrun
    obtain ⟨m, x, hstays, hm⟩ := inputEdge_frame hpower hstop hentry n x b s.ctx
    obtain rfl := state_eq_of_liftE hrun hm
    exact ⟨congrArg (fun m => ({ s with m := { m with power_ := x } } : State)) hstays.edges_frame, hstays.objects⟩
  case settings =>
    intro s t htesting hrun
    have hstays := Stays.outputSettingsInEffect (m := s.m)
    obtain rfl := state_eq_of_lift (f := fun _ => settingsInEffect) hrun (settingsInEffect_of_untested htesting)
    exact ⟨congrArg (fun m => ({ s with m := m } : State)) hstays.edges_frame, hstays.objects⟩
  case slot =>
    intro s t k l hrun
    obtain rfl := state_eq_of_lift (f := fun _ => slotBegins k l) hrun rfl
    have hstays := Stays.slotTick (m := s.m) k ((upTo 64).map fun n => l.getD n 0 - 10 * s.m.setting 4 n 1 + ((s.m.forced 13 n).getD 0 : Nat))
    exact ⟨congrArg (fun m => ({ s with m := m } : State)) hstays.slots_frame, hstays.objects⟩
  case cutOff =>
    intro s t hrun
    obtain rfl := state_eq_of_lift (f := fun _ => lateCutOff) hrun rfl
    have hstays : Stays Mach.sansLayers (Unlisted [(0x1202, 0x1202), (0x7000, 0x7000)]) s.m (lateCutOff s.m) :=
      .lateCutOff (Unlisted.ne (0x1202, 0x1202) (by decide) (by decide) (by decide))
    exact ⟨congrArg (fun m => ({ s with m := m } : State)) hstays.layers_frame, hstays.objects⟩
  case island =>
    intro s t hrun
    obtain rfl := state_eq_of_lift (f := fun _ => aoIslandPowerLoss) hrun rfl
    obtain ⟨hframe, hobjects⟩ := aoIslandPowerLoss_frame s.m
    exact ⟨congrArg (fun m => ({ s with m := m } : State)) hframe, hobjects⟩

end Sys2Proof.Machine

/-! What accesses to module memory leave alone, beside poison (R257, R266, R271 to R273, R279). -/

namespace Sys2Proof.Machine

/-- A view that sees nothing of what an access to module memory changes. -/
def Blind {α : Type} (v : Mach → α) : Prop := ∀ (m : Mach) (od koa jrn dram test out free),
  v { m with od := od, koa := koa, jrn := jrn, dram := dram, test := test, out := out, free := free } = v m

/-- Keys of objects that no access to module memory writes: below those of the memory controller, or what backs a logical channel; and not
a count of events. -/
def Unaccessed (K : Nat → Prop) : Prop := ∀ k, K k → (k / 256 ≠ 0x1202 ∧ k < 0x7000 * 256) ∨ (0x7040 * 256 ≤ k ∧ k % 256 = 1)

section Accesses
variable {α : Type} {v : Mach → α} {K : Nat → Prop} {a b m : Mach} (hv : Blind v) (hK : Unaccessed K)
include hv

theorem Stays.onChan (h : Stays v K a m) (p : Nat) (f : Channel → Channel) : Stays v K a (m.onChan p f) := h.keep (hv m ..) rfl

theorem Stays.onDram (h : Stays v K a m) (f : Dram → Dram) : Stays v K a { m with dram := f m.dram } := h.keep (hv m ..) rfl

theorem Stays.joinTakeOvers (h : Stays v K a m) (l cause : Nat) : Stays v K a (m.joinTakeOvers l cause) :=
  .ite (fun _ => h) fun _ => .ite (fun _ => .ite (fun _ => h.keep (hv m ..) rfl) (fun _ => h)) (fun _ => h.keep (hv m ..) rfl)

include hK

/-- An object of the memory controller other than what backs a channel. -/
theorem Stays.setDram (h : Stays v K a m) {ix sub : Nat} (x : Int) (hix : 0x7000 ≤ ix) (hsub : sub < 256)
    (hlow : sub ≠ 1) : Stays v K a (m.set ix sub x) :=
  h.set (fun k hk => by have := hK k hk; rw [okey]; omega) (hv m ..)

theorem Stays.event (h : Stays v K a m) {code flags supp inst : Nat} {d : List (Nat × Nat)} (hcode : code < 0x100000) :
    Stays v K a (m.record code flags supp inst d) :=
  h.record (fun k hk => by have := hK k hk; rw [okey]; omega) (hv m ..)

theorem Stays.acted (h : Stays v K a m) : Stays v K a m.acted := by
  unfold Mach.acted
  cases m.test.armed with
  | none => exact h
  | some x => exact .ite (fun _ => h.keep (hv m ..) rfl) fun _ => .setDram hv hK (h.keep (hv m ..) (by rfl)) _ (by decide) (by decide) (by decide)

theorem Stays.wantTakeOver (h : Stays v K a m) (l cause : Nat) : Stays v K a (m.wantTakeOver l cause) := by
  unfold Mach.wantTakeOver
  cases m.dram.takeOver with
  | none => exact h.joinTakeOvers hv l cause
  | some t =>
    refine .ite (fun _ => .ite (fun _ => h) fun _ => ?_) (fun _ => h.joinTakeOvers hv l cause)
    exact .setDram hv hK (h.keep (hv m ..) (by rfl)) _ (by decide) (by decide) (by decide)

theorem Stays.passChannel (h : Stays v K a m) (p : Nat) : Stays v K a (m.passChannel p) := by
  unfold Mach.passChannel
  extract_lets d m1 d1
  have h1 : Stays v K a m1 := .ite (fun _ => h) fun _ => .event hv hK (h.keep (hv m ..) (by rfl)) (by decide)
  split
  · exact h1.wantTakeOver hv hK _ 0
  · exact .ite (fun _ => h1.keep (hv m1 ..) rfl) (fun _ => h1)

theorem Stays.dramThreshold (h : Stays v K a m) (p : Nat) : Stays v K a (m.dramThreshold p) :=
  .ite (fun _ => h.passChannel hv hK p) (fun _ => h)

theorem Stays.access (h : Stays v K a m) (p o : Nat) : Stays v K a (m.access p o) := by
  have hpage : Stays v K a (m.touchPage p o) := h.onChan hv p _
  exact .ite (fun _ => .acted hv hK (.setDram hv hK hpage _ (by omega) (by decide) (by decide))) (fun _ => hpage)

theorem Stays.noteCorrected (h : Stays v K a m) (p n : Nat) : Stays v K a (m.noteCorrected p n) :=
  .ite (fun _ => h) fun _ => .onChan hv (.setDram hv hK h _ (by omega) (by decide) (by decide)) p _

theorem Stays.readAccess (h : Stays v K a m) (p o : Nat) : Stays v K a (m.readAccess p o) :=
  .ite (fun _ => .acted hv hK (.dramThreshold hv hK (.noteCorrected hv hK (h.access hv hK p o) p 1) p)) (fun _ => h.access hv hK p o)

omit hv hK in
theorem Stays.touchRun (h : Stays v K a m) {phases : List Nat} {x n : Nat} {f : Mach → Nat → Nat → Mach}
    (hf : ∀ k y z, Stays v K a k → Stays v K a (f k y z)) : Stays v K a (m.touchRun phases x n f) := by
  refine h.each _ fun k y hk => ?_
  dsimp only
  split
  · exact hf _ _ _ (hf _ _ _ hk)
  · exact hf _ _ _ hk

/-- Reads while no poison is injected. -/
theorem Stays.reads (h : Stays v K a m) (hwaits : m.poisonWaits = false) (n : Nat) (runs : List (Nat × Nat)) : Stays v K a (m.reads n runs) := by
  have hstrike : m.strike n runs = m := by rw [Mach.strike, hwaits]; rfl
  rw [Mach.reads, hstrike]
  refine h.each _ fun k r hk => .setDram hv hK ?_ _ (by decide) (by decide) (by decide)
  exact hk.touchRun fun k y z hk => hk.readAccess hv hK y z

theorem Stays.heal (h : Stays v K a m) (x : Nat) : Stays v K a (m.heal x) := by
  unfold Mach.heal
  extract_lets po _ m1 clean m2
  have h1 : Stays v K a m1 := .ite (fun _ => h.keep (hv m ..) rfl) (fun _ => h)
  have hclean : ∀ n y, Stays v K a n → Stays v K a (clean n y) := fun n y hn =>
    .setDram hv hK (hn.onChan hv y.1 _) _ (by omega) (by decide) (by decide)
  split
  · exact hclean _ _ (hclean _ _ h1)
  · exact hclean _ _ h1

theorem Stays.unpoison (h : Stays v K a m) (x n : Nat) : Stays v K a (m.unpoison x n) :=
  .ite (fun _ => h.each _ fun _ y hn => hn.heal hv hK y) (fun _ => h)

theorem Stays.storeAll (h : Stays v K a m) (ws : List MemWrite) : Stays v K a (m.storeAll ws).m :=
  List.foldlRecOn (ws.flatMap writesOf) _ (motive := fun n => Stays v K a n) h fun n hn w _ =>
    .setDram hv hK ((hn.unpoison hv hK _ _).touchRun fun k y z hk => hk.access hv hK y z) _ (by decide) (by decide) (by decide)

end Accesses

/-- What the poison of a run depends on: the poison held, the channels replaced and borrowed from, and what backs each logical channel. -/
theorem poisonedAt_congr {a b : Mach} (htouch : Touches a b) (hback : ∀ l, b.objN (0x7040 + l) 1 = a.objN (0x7040 + l) 1)
    (x n : Nat) : b.poisonedAt x n = a.poisonedAt x n := by
  obtain ⟨hfresh, hborrowed, hpoison⟩ : _ ∧ _ ∧ _ := by simpa only [Dram.holdings, Prod.mk.injEq] using htouch.holdings
  have hchan (p : Nat) : (b.chan p).poison = (a.chan p).poison := getD_of_map_eq hpoison p _
  have hat (l o : Nat) : b.borrowedAt l o = a.borrowedAt l o := by rw [Mach.borrowedAt, Mach.borrowedAt, Mach.borrowedFor, Mach.borrowedFor, hborrowed]
  have hplace (y : Nat) : b.physical y = a.physical y := by
    unfold Mach.physical
    simp only [hback, hat]
  have hhomes (y : Nat) : b.homes y = a.homes y := by
    unfold Mach.homes
    simp only [hback, hat]
  have hlost (y : Nat) : b.freshAt y = a.freshAt y := by rw [Mach.freshAt, Mach.freshAt, hhomes, hfresh]
  unfold Mach.poisonedAt
  simp only [htouch.anyPoison, hplace, hchan, hlost]

end Sys2Proof.Machine

/-! Gain-map updates (R358 to R361), and O38. -/

namespace Sys2Proof.Machine

/-! ### GAIN_UPDATE_START -/

section Start
variable {m : Mach} {j : Nat}

/-- The QUEUED jobs of a job's panel position whose rectangle lies within its own. -/
def Mach.coveredGains (m : Mach) (j : Nat) : List Nat := m.panel.updates.filter fun i =>
  m.gainState i = 1 && m.gainTarget i = m.gainPanel j && within (patchRect (m.patch i)) (patchRect (m.patch j))

/-- A job becomes SUPERSEDED by job `j` at panel position `p`, with event 0x9005. -/
def Mach.supersedeGain (j p : Nat) (m : Mach) (i : Nat) : Mach :=
  (m.setN (0x6220 + i) 4 5).raise 0x9005 i [(1, i), (1, j), (1, p % 32), (1, p / 32)]

/-- The block with job `j` QUEUED as the last, those it covers SUPERSEDED. -/
def Mach.gainQueued (m : Mach) (j : Nat) : Mach :=
  ((each (m.coveredGains j) m (Mach.supersedeGain j (m.gainPanel j))).onPanel (fun x => { x with
    updates := x.updates.filter (fun i => !(m.coveredGains j).contains i && i != j) ++ [j]
    targets := assocSet x.targets j (m.gainPanel j) })).sets (0x6220 + j) [(4, 1), (5, 0), (6, 0)]

theorem startGain_queued (hlive : live (m.gainState j) = false) (hpatch : m.patch j ≠ []) (husable : m.tileUsable (m.gainPanel j) = true) :
    m.startGain j = .ok (m.gainQueued j) := if_neg (by simp [hlive, hpatch, husable])

theorem startGain_live (hlive : live (m.gainState j) = true) : m.startGain j = .error abPrecondition := if_pos (.inl hlive)

/-- What is written into the objects of one job. -/
theorem sets_gain (m : Mach) (j : Nat) : (m.sets (0x6220 + j) [(4, 1), (5, 0), (6, 0)]).gainState j = 1 ∧
    (m.sets (0x6220 + j) [(4, 1), (5, 0), (6, 0)]).objN (0x6220 + j) 5 = 0 := by
  have hne {sub tub : Nat} (h : sub ≠ tub) (hs : sub < 256) (ht : tub < 256) (n : Mach) (x : Int) :
      (n.set (0x6220 + j) sub x).objN (0x6220 + j) tub = n.objN (0x6220 + j) tub :=
    congrArg Int.toNat (storeGet_set_ne n.od x (by rw [okey, okey]; omega))
  constructor
  · show (((m.set _ 4 1).set _ 5 0).set _ 6 0).objN _ 4 = 1
    rw [hne (by decide) (by decide) (by decide), hne (by decide) (by decide) (by decide), Mach.set_objN_same]
    rfl
  · show (((m.set _ 4 1).set _ 5 0).set _ 6 0).objN _ 5 = 0
    rw [hne (by decide) (by decide) (by decide), Mach.set_objN_same]
    rfl

theorem gainQueued_getLast? (m : Mach) (j : Nat) : (m.gainQueued j).panel.updates.getLast? = some j := by
  rw [Mach.gainQueued, Mach.sets_panel]
  exact List.getLast?_concat

/-- The state of a job once another is written. -/
theorem supersedeGain_gainState (n : Mach) (p i k : Nat) : (n.supersedeGain j p i).gainState k = if k = i then 5 else n.gainState k := by
  have hraise : (n.supersedeGain j p i).gainState k = (n.setN (0x6220 + i) 4 5).gainState k :=
    congrArg Int.toNat (storeGet_set_ne _ _ (by rw [okey, okey]; omega))
  rw [hraise]
  split
  · next h => rw [h]; exact Mach.setN_objN_same ..
  · next h => exact congrArg Int.toNat (storeGet_set_ne _ _ (by rw [okey, okey]; omega))

/-- A job that is covered is SUPERSEDED and waits no longer. -/
theorem gainQueued_covered {i : Nat} (hi : i ∈ m.coveredGains j) (hne : i ≠ j) :
    (m.gainQueued j).gainState i = 5 ∧ i ∉ (m.gainQueued j).panel.updates := by
  constructor
  · have hsuperseded : (each (m.coveredGains j) m (Mach.supersedeGain j (m.gainPanel j))).gainState i = 5 :=
      each_of_mem (Q := fun n : Mach => n.gainState i = 5) hi (fun n => by rw [supersedeGain_gainState, if_pos rfl])
        (fun n k _ hn => by rw [supersedeGain_gainState, hn, ite_self]) m
    have hother (n : Mach) (sub : Nat) (x : Int) (hsub : sub < 256) : (n.set (0x6220 + j) sub x).gainState i = n.gainState i :=
      congrArg Int.toNat (storeGet_set_ne n.od x (by rw [okey, okey]; omega))
    exact ((hother _ 6 0 (by decide)).trans ((hother _ 5 0 (by decide)).trans (hother _ 4 1 (by decide)))).trans hsuperseded
  · rw [Mach.gainQueued, Mach.sets_panel]
    show i ∉ (List.filter _ _) ++ [j]
    simp [hi, hne]

end Start

/-! ### GAIN_UPDATE_RUN -/

/-- The oldest job of its panel position takes the first free slot. -/
theorem gainRun_first {m : Mach} {j slot : Nat} {rest : List Nat} (hqueued : m.gainState j = 1) (hhead : m.panel.updates.head? = some j)
    (hfree : m.panel.freeSlots = slot :: rest) :
    gainRun j m = ((m.setN (0x6220 + j) 4 2).setFree rest).onPanel fun x => { x with running := x.running ++ [(j, slot)] } := by
  obtain ⟨l, hl⟩ := List.head?_eq_some_iff.mp hhead
  have hfirst : m.panel.updates.find? (fun i => m.gainTarget i = m.gainTarget j && live (m.gainState i)) = some j := by
    rw [hl]
    exact List.find?_cons_of_pos (by simp [hqueued, live])
  unfold gainRun
  extract_lets p first
  have hmine : first = some j := hfirst
  rw [hfree]
  exact if_neg (by simp [hqueued, hmine])

/-! ### GAIN_UPDATE_COMPLETE -/

theorem swapPairs_length : ∀ b : Bytes, (swapPairs b).length = b.length
  | [] => rfl
  | [_] => rfl
  | _ :: _ :: b => congrArg (· + 2) (swapPairs_length b)

theorem slice_length_le (off n : Nat) (b : Bytes) : (slice off n b).length ≤ n := List.length_take_le ..

/-- A patch whose rows lie within the tile writes no more than its slot. -/
theorem patchedSlot_length_le (old : Bytes) {b : Bytes} (h : (patchRect b).1 + (patchRect b).2.2.1 ≤ 480) :
    (patchedSlot old b).length ≤ 276480 := by
  have hrows : ∀ (l : List Nat) (f : Nat → Bytes), (∀ r, (f r).length ≤ 960) → (l.flatMap f).length ≤ 960 * l.length := by
    intro l f hf
    induction l with
    | nil => simp
    | cons r l ih =>
      have := hf r
      rw [List.flatMap_cons, List.length_append, List.length_cons]
      omega
  unfold patchedSlot
  revert h
  rcases patchRect b with ⟨x, y, w, h⟩
  dsimp only
  refine fun hfits => (hrows (upTo 288) _ fun r => ?_).trans (by simp)
  have hrow := slice_length_le (960 * r) 960 old
  have hpatch := slice_length_le (8 + 2 * w * (r - y)) (2 * w) b
  split
  · simp only [List.length_append, List.length_take, List.length_drop, swapPairs_length]
    omega
  · exact hrow

/-- An address between the firmware mirror and the reserved range. -/
theorem addressable_of_fixed {a : Nat} (hl : 0x20000000 ≤ a) (hr : a < 0x3F0000000) : addressable a = true := by
  have hend : a < dramEnd := hr.trans (by decide)
  have hmirror : ¬ a < 0x20000000 := Nat.not_lt.mpr hl
  have hreserved : ¬ 0x3F0000000 ≤ a := Nat.not_le.mpr hr
  simp [addressable, hend, hmirror, hreserved]

theorem slotBase_eq (slot : Nat) : slotBase slot = 0x250000000 + slot * 276480 := by
  unfold slotBase gainAddress
  omega

/-- A write between the firmware mirror and the reserved range is reachable, and is not mirrored. -/
theorem writesOf_fixed {a : Nat} {b : Bytes} (hl : 0x20000000 < a) (hr : a + b.length < 0x3F0000000) : writesOf ⟨a, b⟩ = [⟨a, b⟩] := by
  have hreach : reachable a b.length = true := by
    rw [reachable, addressable_of_fixed (by omega) (by omega), addressable_of_fixed (by omega) (by omega)]
    rfl
  unfold writesOf
  rw [if_neg (by simp [hreach]), if_neg (by simp; omega)]

theorem writesOf_slot {slot : Nat} (hslot : slot < 970) {b : Bytes} (hb : b.length ≤ 276480) : writesOf ⟨slotBase slot, b⟩ = [⟨slotBase slot, b⟩] := by
  have hbase := slotBase_eq slot
  exact writesOf_fixed (by omega) (by omega)

/-- The panel and the patches. -/
def Mach.gainView (m : Mach) : Panel × List (Nat × Bytes) := (m.panel, m.strs)

/-- The keys of the objects of gain maps and their updates, and of what backs the logical channels. -/
def gainKeys (k : Nat) : Prop := (0x6200 * 256 ≤ k ∧ k < 0x6300 * 256) ∨ (0x7040 * 256 ≤ k ∧ k % 256 = 1)

theorem gainView_blind : Blind Mach.gainView := fun _ _ _ _ _ _ _ _ => rfl

theorem gainKeys_unaccessed : Unaccessed gainKeys := by
  intro k hk
  unfold gainKeys at hk
  omega

section Complete
variable {a b m : Mach} {j slot : Nat}

theorem Stays.gainState (h : Stays Mach.gainView gainKeys a b) (hj : j < 8) : b.gainState j = a.gainState j :=
  congrArg Int.toNat (h.objects _ (by rw [gainKeys, okey]; omega))

theorem Stays.backing (h : Stays Mach.gainView gainKeys a b) (l : Nat) : b.objN (0x7040 + l) 1 = a.objN (0x7040 + l) 1 :=
  congrArg Int.toNat (h.objects _ (by rw [gainKeys, okey]; omega))

theorem Stays.gainPanel (h : Stays Mach.gainView gainKeys a b) : b.panel = a.panel := congrArg Prod.fst h.view

theorem Stays.gainPatch (h : Stays Mach.gainView gainKeys a b) (j : Nat) : b.patch j = a.patch j :=
  congrArg (fun x : Panel × List (Nat × Bytes) => strGet x.2 (okey (0x6230 + j) 0)) h.view

/-- What job `j` copies. -/
def Mach.gainSource (m : Mach) (j : Nat) : List (Nat × Nat) :=
  gainCopyRuns (slotBase (m.objN 0x6211 7 (m.gainTarget j))) (patchRect (m.patch j))

/-- The reads of what a job copies make no poison, and leave the updates alone. -/
theorem gainReads (hwaits : m.poisonWaits = false) (runs : List (Nat × Nat)) : Stays Mach.gainView gainKeys m (m.reads (sourceBase 1) runs) ∧
    ∀ x n, (m.reads (sourceBase 1) runs).poisonedAt x n = m.poisonedAt x n := by
  have hstays := (Stays.refl Mach.gainView gainKeys m).reads gainView_blind gainKeys_unaccessed hwaits (sourceBase 1) runs
  exact ⟨hstays, poisonedAt_congr (.reads hwaits (.refl m)) hstays.backing⟩

/-- A copy without poison: the job is COMPLETE and its slot is written. -/
theorem gainComplete_clean (hrunning : m.panel.running = [(j, slot)]) (hwaits : m.poisonWaits = false)
    (hclean : (m.gainSource j).any (fun r => m.poisonedAt r.1 r.2) = false) (x : Ctx) :
    ∃ n : Mach, n.gainState j = 3 ∧ n.panel.running = [] ∧ gainComplete j x m =
      n.store (slotBase slot) (patchedSlot (memLoad x.mem (slotBase (m.objN 0x6211 7 (m.gainTarget j))) 276480) (m.patch j)) := by
  obtain ⟨hstays, hpoison⟩ := gainReads hwaits (m.gainSource j)
  have hfound : m.panel.running.find? (fun r => r.1 = j) = some (j, slot) := by simp [hrunning]
  unfold gainComplete
  rw [hfound]
  unfold Mach.gainSource at hclean hstays hpoison
  dsimp only
  generalize m.reads (sourceBase 1) _ = m1 at hstays hpoison ⊢
  rw [if_neg (by simp only [hpoison, hclean, Bool.false_eq_true, not_false_eq_true])]
  refine ⟨_, Mach.setN_objN_same .., ?_, congrArg (Mach.store _ _) (congrArg _ (hstays.gainPatch j))⟩
  show m1.panel.running.filter (fun r => r.1 != j) = []
  simp [hstays.gainPanel, hrunning]

/-- The store of a slot leaves the updates alone. -/
theorem Stays.slotStore (m : Mach) (x : Nat) (bytes : Bytes) : Stays Mach.gainView gainKeys m (m.store x bytes).m :=
  (Stays.refl Mach.gainView gainKeys m).storeAll gainView_blind gainKeys_unaccessed _

/-- A copy with poison: the job fails with reason 2. -/
theorem gainComplete_poisoned (hrunning : m.panel.running = [(j, slot)]) (hwaits : m.poisonWaits = false)
    (hpoisoned : (m.gainSource j).any (fun r => m.poisonedAt r.1 r.2) = true) (x : Ctx) :
    ∃ n : Mach, n.panel = m.panel ∧ gainComplete j x m = .of (n.failGain j 2) := by
  obtain ⟨hstays, hpoison⟩ := gainReads hwaits (m.gainSource j)
  have hfound : m.panel.running.find? (fun r => r.1 = j) = some (j, slot) := by simp [hrunning]
  refine ⟨_, hstays.gainPanel, ?_⟩
  unfold gainComplete
  rw [hfound]
  refine if_pos ?_
  show (m.gainSource j).any (fun r => (m.reads (sourceBase 1) (m.gainSource j)).poisonedAt r.1 r.2) = true
  simp only [hpoison]
  exact hpoisoned

theorem failGain_running (hj : j < 8) (hrunning : m.panel.running = [(j, slot)]) (reason : Nat) : (m.failGain j reason).gainState j = 6 ∧
    (m.failGain j reason).objN (0x6220 + j) 6 = reason ∧ slot ∈ (m.failGain j reason).panel.freeSlots := by
  unfold Mach.failGain Mach.gainFailed
  refine ⟨?_, ?_, ?_⟩
  · rw [Mach.gainState, Mach.raise_objN _ _ _ _ (okey_ne (by omega) (by omega) (by omega) (by omega) (by omega)),
      Mach.setN_objN_ne _ _ _ _ _ (okey_ne (by omega) (by omega) (by omega) (by omega) (by omega)), Mach.setN_objN_same]
  · rw [Mach.raise_objN _ _ _ _ (okey_ne (by omega) (by omega) (by omega) (by omega) (by omega)), Mach.setN_objN_same]
  · show slot ∈ m.panel.freeSlots ++ (m.panel.running.filter (fun r => r.1 = j)).map Prod.snd
    simp [hrunning]

end Complete

/-! ### O38 -/

/-- GAIN_UPDATE_START is the write of 0x6220+j:03. -/
theorem Reaches.run_gainUpdateStart {s : State} {w : WriteReq} {p : Put} {m : Mach} {j : Nat} (h : Reaches s (0x6220 + j) 3 w p m) (hj : j < 8) :
    p.run m = actM (m.startGain j) := by
  obtain ⟨-, hix, hsub, -, -⟩ := h.put
  interval_cases j <;>
    simp [Put.run, Put.sessions, Put.supply, Put.times, Put.ports, Put.schedule, Put.layers, Put.observers, Put.memory, Put.links, Put.panel, hix, hsub]

theorem exec_gainUpdateStart {j : Nat} (hj : j < 8) (w : WriteReq) (s : State) :
    exec (.gainUpdateStart j w) s = liftE (koaWrite (writeMsg w (0x6220 + j) 3) none) s := by
  show liftE (writeIn _ _ _ _) s = _
  rw [writeIn_of_true (by simpa using hj)]

theorem SameBut.panel {a b : Mach} (h : SameBut a b) : a.panel = b.panel := by have := congrArg Mach.panel h; exact this

/-- Settles O38: each command by what it makes of the jobs and their slots. -/
theorem gainMapUpdatesRun : Obligations.GainMapUpdatesRun := by
  unfold Obligations.GainMapUpdatesRun
  refine ⟨?queued, ?superseded, ?live, ?run, ?complete, ?poisoned⟩
  case queued =>
    intro s j w p m h hj hlive hpatch husable
    have hrun : p.run m = act (m.gainQueued j) := (h.run_gainUpdateStart hj).trans (congrArg actM (startGain_queued hlive hpatch husable))
    rw [Runs, exec_gainUpdateStart hj]
    obtain ⟨hstate, hvisible⟩ := sets_gain _ j
    refine h.runs_act (by omega) hrun fun n hn => ⟨?_, ?_, ?_⟩
    · exact (Mach.objN_congr hn.od ..).trans hstate
    · exact (Mach.objN_congr hn.od ..).trans hvisible
    · exact (congrArg (fun x : Panel => x.updates.getLast?) hn.panel).trans (gainQueued_getLast? m j)
  case superseded =>
    intro s j i w p m h hj hlive hpatch husable hi hne hwaiting hstate htarget hwithin
    have hrun : p.run m = act (m.gainQueued j) := (h.run_gainUpdateStart hj).trans (congrArg actM (startGain_queued hlive hpatch husable))
    have hcovered : i ∈ m.coveredGains j := List.mem_filter.mpr ⟨hwaiting, by simp [hstate, htarget, hwithin]⟩
    obtain ⟨hsuperseded, hgone⟩ := gainQueued_covered hcovered hne
    rw [Runs, exec_gainUpdateStart hj]
    refine h.runs_act (by omega) hrun fun n hn => ⟨(Mach.objN_congr hn.od ..).trans hsuperseded, ?_⟩
    show i ∉ n.panel.updates
    rwa [hn.panel]
  case live =>
    intro s j w p m h hj hlive
    have hrun : p.run m = .error abPrecondition := (h.run_gainUpdateStart hj).trans (congrArg actM (startGain_live hlive))
    rw [Runs, exec_gainUpdateStart hj]
    exact h.runs_refused_tileLink (by omega) hrun fun t ht => ht
  case run =>
    intro s j slot rest hj hqueued hhead hfree
    refine runs_of_lift (f := fun _ => gainRun j) ?_
    rw [gainRun_first hqueued hhead hfree]
    refine ⟨?_, rfl, rfl, Mach.setN_objN_same ..⟩
    show (((s.m.setN (0x6220 + j) 4 2).onPanel _).setN 0x6200 3 rest.length).objN (0x6220 + j) 4 = 2
    rw [Mach.setN_objN_ne _ _ _ _ _ (okey_ne (by omega) (by omega) (by omega) (by omega) (by omega))]
    exact Mach.setN_objN_same ..
  case complete =>
    intro s j slot hj hslot hrows hrunning hclean hwaits
    obtain ⟨n, hstate, hnone, heff⟩ := gainComplete_clean hrunning hwaits hclean s.ctx
    have hstays := Stays.slotStore n (slotBase slot)
      (patchedSlot (memLoad s.mem (slotBase (s.m.objN 0x6211 7 (s.m.gainTarget j))) 276480) (s.m.patch j))
    refine ⟨_, liftE_next (gainComplete j) s, ?_⟩
    rw [heff]
    refine ⟨(hstays.gainState hj).trans hstate, (congrArg Panel.running hstays.gainPanel).trans hnone, ?_⟩
    show memApply s.mem ([⟨slotBase slot, _⟩].flatMap writesOf) = _
    rw [List.flatMap_singleton, writesOf_slot hslot (patchedSlot_length_le _ hrows)]
    rfl
  case poisoned =>
    intro s j slot hj hrunning hpoisoned hwaits
    obtain ⟨n, hpanel, heff⟩ := gainComplete_poisoned hrunning hwaits hpoisoned s.ctx
    obtain ⟨hstate, hreason, hfreed⟩ := failGain_running (m := n) hj (by rwa [hpanel]) 2
    exact runs_of_eff (f := gainComplete j) heff ⟨hstate, hreason, rfl, hfreed⟩

end Sys2Proof.Machine

/-! Abrupt stops: what a quench and an entry to P4 change and leave (R373, R447 to R449, R479, R541). -/

namespace Sys2Proof.Machine

/-! ### What a stop leaves alone -/

/-- The power unit, and how far the module has started. -/
def Mach.stopView (m : Mach) : Power × Nat := (m.power_, m.boot.step)

/-- The keys of the supplies (0x2000), the power state (0x2100), the temperatures (0x2200) and the quench (0x6401). -/
def stopKeys (k : Nat) : Prop := k / 256 = 0x2000 ∨ k / 256 = 0x2100 ∨ k / 256 = 0x2200 ∨ k / 256 = 0x6401

/-- The power unit and the objects of `stopKeys` are as they were. -/
abbrev KeepsStop (a b : Mach) : Prop := Stays Mach.stopView stopKeys a b

theorem stopView_blind : Blind Mach.stopView := fun _ _ _ _ _ _ _ _ => rfl

theorem stopKeys_unaccessed : Unaccessed stopKeys := by
  intro k hk
  unfold stopKeys at hk
  omega

theorem stopKeys_ne {ix sub : Nat} (hix : ix ≠ 0x2000 ∧ ix ≠ 0x2100 ∧ ix ≠ 0x2200 ∧ ix ≠ 0x6401 ∧ sub < 256) (k : Nat)
    (hk : stopKeys k) : k ≠ okey ix sub := by
  unfold stopKeys at hk
  rw [okey]
  omega

theorem Stays.mono {α : Type} {v : Mach → α} {K L : Nat → Prop} {a b : Mach} (h : Stays v K a b) (hL : ∀ k, L k → K k) : Stays v L a b :=
  ⟨h.view, fun k hk => h.objects k (hL k hk)⟩

/-- An object of one of the keys keeps its value. -/
theorem Stays.objN_of_key {α : Type} {v : Mach → α} {K : Nat → Prop} {a b : Mach} (h : Stays v K a b) {ix sub : Nat} (hk : K (okey ix sub)) :
    b.objN ix sub = a.objN ix sub := congrArg Int.toNat (h.objects _ hk)

section Stops
variable {a m : Mach}

/-- The write of another object. -/
theorem Stays.other (h : KeepsStop a m) {ix sub : Nat} (x : Int)
    (hix : ix ≠ 0x2000 ∧ ix ≠ 0x2100 ∧ ix ≠ 0x2200 ∧ ix ≠ 0x6401 ∧ sub < 256) : KeepsStop a (m.set ix sub x) := h.set (stopKeys_ne hix) rfl

theorem Stays.others (h : KeepsStop a m) {ix : Nat} (l : List (Nat × Int)) (hl : ∀ r ∈ l, r.1 < 256)
    (hix : ix ≠ 0x2000 ∧ ix ≠ 0x2100 ∧ ix ≠ 0x2200 ∧ ix ≠ 0x6401) : KeepsStop a (m.sets ix l) :=
  List.foldlRecOn l _ (motive := fun n : Mach => KeepsStop a n) h fun _ hn r hr => hn.other r.2 (by have := hl r hr; omega)

theorem Stays.report (h : KeepsStop a m) {code flags supp inst : Nat} {d : List (Nat × Nat)} (hcode : code < 0x100000) :
    KeepsStop a (m.record code flags supp inst d) := h.record (stopKeys_ne (by omega)) rfl

/-! #### Heats, commons and lanes -/

theorem Stays.followCommons (h : KeepsStop a m) : KeepsStop a m.followCommons := by
  unfold Mach.followCommons
  extract_lets enter m1
  have h1 : KeepsStop a m1 := .ite (fun _ => .keep h rfl rfl) (fun _ => h)
  refine h1.eachOf _ fun n k hk hn => .ite (fun _ => hn) fun _ => ?_
  have hcommon : k < 64 := by simpa [upTo] using hk
  have hset : KeepsStop a (n.setN (0x6310 + k) 1 (n.targetOf k)) := Stays.other hn _ (by omega)
  exact .ite (fun _ => .keep hset rfl rfl) (fun _ => hset)

theorem Stays.observeStage (h : KeepsStop a m) : KeepsStop a m.observeStage := by
  unfold Mach.observeStage
  extract_lets outs m1
  have h1 : KeepsStop a m1 := .keep h rfl rfl
  refine .ite (fun _ => .ite (fun _ => h1) fun _ => ?_) (fun _ => h1)
  exact Stays.report (Stays.other (Stays.other h1 _ (by omega)) _ (by omega)) (by decide)

theorem Stays.dropHeat (h : KeepsStop a m) : KeepsStop a m.dropHeat := by
  unfold Mach.dropHeat
  extract_lets m1 m2 m3 m4
  have h1 : KeepsStop a m1 := .keep h rfl rfl
  clear_value m1
  have h2 : KeepsStop a m2 := .keep h1 rfl rfl
  clear_value m2
  have h4 : KeepsStop a m4 := .keep h2 rfl rfl
  clear_value m4
  exact .keep h4 rfl rfl

theorem Stays.stopHeats (h : KeepsStop a m) : KeepsStop a m.stopHeats := by
  unfold Mach.stopHeats
  extract_lets m1 m2 boot m3
  have h1 : KeepsStop a m1 := by
    unfold m1
    split
    · exact h.others _ (by simp) (by decide)
    · exact h
  clear_value m1
  have h2 : KeepsStop a m2 := .dropHeat (.keep h1 rfl rfl)
  clear_value m2
  have h3 : KeepsStop a m3 := .keep h2 rfl rfl
  exact .followCommons (.observeStage (.other (.other h3 _ (by omega)) _ (by omega)))

theorem Stays.slateOff (h : KeepsStop a m) : KeepsStop a m.slateOff := by
  unfold Mach.slateOff
  extract_lets m1 m2
  have h1 : KeepsStop a m1 := .ite (fun _ => .report h (by decide)) (fun _ => h)
  have h2 : KeepsStop a m2 := h1.others _ (by simp) (by decide)
  exact .keep h2 rfl rfl

theorem Stays.cutPulses (h : KeepsStop a m) : KeepsStop a m.cutPulses := h.each _ fun _ _ hn => .keep hn rfl rfl

theorem LaneMoves.keepsStop {l : Nat} {b : Mach} (h : LaneMoves l m b) (hl : l < 192) : KeepsStop m b :=
  ⟨by rw [h.frame]; rfl, fun k hk => h.objects k (by unfold stopKeys at hk; omega)⟩

/-- Four control blocks on every ACTIVE lane. -/
theorem Stays.toActiveLanes (h : KeepsStop a m) (k : Ktl) :
    KeepsStop a (Machine.each m.activeLanes m fun m l => Machine.each (List.replicate 4 k) m fun m k => m.putKtl l k) :=
  h.eachOf _ fun n l hl hn => by
    have hlane : l < 192 := by simpa [upTo] using (List.mem_filter.mp hl).1
    exact hn.each _ fun b k hb => hb.trans ((LaneMoves.putKtl b l k).keepsStop hlane)

/-! #### Sessions, calibration, drawing and jobs -/

theorem Stays.closeAll (h : KeepsStop a m) (tell : Bool) : KeepsStop a (m.closeAll tell) :=
  h.each _ fun n id hn => by
    obtain ⟨hframe, hobjects, -⟩ := Closes.closeSession n id 3 tell
    refine hn.trans ⟨by rw [hframe]; rfl, fun k hk => hobjects k ?_⟩
    unfold stopKeys at hk
    simp
    omega

theorem Stays.cutShakeout (h : KeepsStop a m) : KeepsStop a m.cutShakeout := .ite (fun _ => .other h _ (by omega)) (fun _ => h)

theorem Stays.cutCal (h : KeepsStop a m) : KeepsStop a m.cutCal := by
  refine .ite (fun _ => ?_) (fun _ => h)
  unfold Mach.endCal
  extract_lets r m1 m2
  have h1 : KeepsStop a m1 := .keep (m := (m.setN 0x7800 7 0).setN 0x7800 6 11) (.other (.other h _ (by omega)) _ (by omega)) rfl rfl
  have h2 : KeepsStop a m2 := .ite (fun _ => .keep h1 rfl rfl) (fun _ => h1)
  exact .report (.keep h2 (by rfl) (by rfl)) (by decide)

theorem Stays.haltDraw (h : KeepsStop a m) : KeepsStop a m.haltDraw := by
  have henter (n : Mach) (hn : KeepsStop a n) (ch : Nat) : KeepsStop a (n.drawEnter ch 3 0) :=
    .ite (fun _ => .other hn _ (by omega)) (fun _ => .other hn _ (by omega))
  unfold Mach.haltDraw
  extract_lets m1
  have h1 : KeepsStop a m1 := .ite (fun _ => henter _ h 1) (fun _ => h)
  refine .ite (fun _ => h1) fun _ => henter _ (.other ?_ _ (by omega)) 0
  exact .keep h1 rfl rfl

theorem Stays.accrueOnTime (h : KeepsStop a m) : KeepsStop a m.accrueOnTime := by
  unfold Mach.accrueOnTime
  extract_lets dt m1
  have h1 : KeepsStop a m1 := .ite (fun _ => h.each _ fun _ _ hn => .keep hn rfl rfl) (fun _ => h)
  exact .keep h1 rfl rfl

theorem Stays.jobEnter (h : KeepsStop a m) {j : Nat} (hj : j < 8) (st reason : Nat) : KeepsStop a (m.jobEnter j st reason).m := by
  unfold Mach.jobEnter
  extract_lets m1 m2 codec m3 m4
  have h1 : KeepsStop a m1 :=
    .other (.other (.other (.other h _ (by omega)) _ (by omega)) _ (by omega)) _ (by omega)
  have h3 : KeepsStop a m3 := .ite (fun _ => .keep h1 rfl rfl) (fun _ => .keep h1 rfl rfl)
  have h4 : KeepsStop a m4 := .ite (fun _ => .report h3 (by decide)) (fun _ => h3)
  split
  · exact h4.storeAll stopView_blind stopKeys_unaccessed _
  · exact h4

theorem Stays.abortJobs (h : KeepsStop a m) : KeepsStop a m.abortJobs.m :=
  List.foldlRecOn (upTo 8) _ (motive := fun e : Eff => KeepsStop a e.m) h fun _ he _ hj =>
    iteInduction (motive := fun e : Eff => KeepsStop a e.m) (fun _ => he.jobEnter (by simpa [upTo] using hj) 8 0) (fun _ => he)

end Stops

/-! ### A quench -/

/-- The keys of `stopKeys` without those of the quench. -/
def supplyKeys (k : Nat) : Prop := k / 256 = 0x2000 ∨ k / 256 = 0x2100 ∨ k / 256 = 0x2200

/-- What a quench writes into 0x6401. -/
def Mach.showQuench (m : Mach) (cause : Nat) : Mach := (m.sets 0x6401 [(1, 2), (2, cause), (5, (m.timeWord : Nat))]).bump 0x6401 4

theorem showQuench_shown (m : Mach) (cause : Nat) : Stays Mach.stopView supplyKeys m (m.showQuench cause) ∧
    (m.showQuench cause).objN 0x6401 1 = 2 ∧ (m.showQuench cause).objN 0x6401 2 = cause := by
  have hset (n : Mach) (sub : Nat) (x : Int) (hsub : sub < 256) (hn : Stays Mach.stopView supplyKeys m n) :
      Stays Mach.stopView supplyKeys m (n.set 0x6401 sub x) := hn.set (fun k hk => by unfold supplyKeys at hk; rw [okey]; omega) rfl
  have hne {sub tub : Nat} (h : okey 0x6401 sub ≠ okey 0x6401 tub) (n : Mach) (x : Int) : (n.set 0x6401 tub x).objN 0x6401 sub = n.objN 0x6401 sub :=
    congrArg Int.toNat (storeGet_set_ne n.od x h)
  unfold Mach.showQuench
  refine ⟨hset _ 4 _ (by decide) (hset _ 5 _ (by decide) (hset _ 2 _ (by decide) (hset _ 1 _ (by decide) (.refl ..)))), ?_, ?_⟩
  · exact ((hne (tub := 4) (by decide) _ _).trans ((hne (tub := 5) (by decide) _ _).trans (hne (tub := 2) (by decide) _ _))).trans
      (Mach.setN_objN_same m 0x6401 1 2 0)
  · exact ((hne (tub := 4) (by decide) _ _).trans (hne (tub := 5) (by decide) _ _)).trans (Mach.setN_objN_same (m.set 0x6401 1 2) 0x6401 2 cause 0)

/-- A quench by anything but the host's command is shown with its cause, and leaves the power unit and the objects of the supplies. -/
theorem quench_quenched (m : Mach) {cause : Nat} (hcause : cause ≠ 4) : Stays Mach.stopView supplyKeys m (m.quench cause) ∧
    (m.quench cause).objN 0x6401 1 = 2 ∧ (m.quench cause).objN 0x6401 2 = cause := by
  have hsupply : ∀ k, supplyKeys k → stopKeys k := fun k hk => by unfold supplyKeys at hk; unfold stopKeys; omega
  unfold Mach.quench
  rw [if_neg (by simp [hcause])]
  extract_lets m1 m2 m3
  have hcut : KeepsStop m m.stopHeats.slateOff.cutPulses := .cutPulses (.slateOff (.stopHeats (.refl ..)))
  have hticks {n : Mach} (hn : KeepsStop m n) : KeepsStop m (n.onPtp fun p => { p with ticks := [] }) := hn.onPtp rfl
  have h2 : KeepsStop m m2 := Stays.toActiveLanes (hticks hcut) _
  obtain ⟨hshow, hstate, hby⟩ := showQuench_shown m2 cause
  have hlast : KeepsStop m3 (m3.followCommons.raiseAO 0x9020 0 [(1, cause)]) := .report (.followCommons (.refl ..)) (by decide)
  refine ⟨((h2.mono hsupply).trans hshow).trans (hlast.mono hsupply), ?_, ?_⟩
  · exact (hlast.objN_of_key (by unfold stopKeys; decide)).trans hstate
  · exact (hlast.objN_of_key (by unfold stopKeys; decide)).trans hby

/-! ### Entry to P4 -/

/-- The keys of `stopKeys` without those of the power state. -/
def offKeys (k : Nat) : Prop := k / 256 = 0x2000 ∨ k / 256 = 0x2200 ∨ k / 256 = 0x6401

/-- An entry to P4 from block `a`: what is held in module memory is lost, the previous stop is shown as `stop`, and a start is to come where a
wake is latched. -/
structure TurnsOff (a : Mach) (stop : Nat) (e : Eff) : Prop where
  power : e.m.power = 4
  lastStop : e.m.power_.lastStop = stop
  startable : e.m.power_.startable = a.power_.latchedWake.isSome
  step : e.m.boot.step = 0
  objects : ∀ k, offKeys k → storeGet e.m.od k = storeGet a.od k
  wipe : e.wipe = true
  writes : e.writes = []

/-- What the entry to a power state leaves of the power unit, and how far the module has started. -/
def Mach.offView (m : Mach) : Nat × Option Nat × Nat := (m.power_.lastStop, m.power_.latchedWake, m.boot.step)

theorem setPower_power (m : Mach) (p cause : Nat) : (m.setPower p cause).power = p := by
  unfold Mach.setPower
  split
  · assumption
  · rw [Mach.power, Mach.raise_objN _ _ _ _ (by decide), Mach.bump_objN_ne _ _ _ _ _ (by decide), Mach.setN_objN_same]

section Off
variable {a m : Mach}

theorem offKeys_ne {sub : Nat} (hsub : sub < 256) (k : Nat) (hk : offKeys k) : k ≠ okey 0x2100 sub := by
  unfold offKeys at hk
  rw [okey]
  omega

theorem Stays.setPower (h : Stays Mach.offView offKeys a m) (p cause : Nat) : Stays Mach.offView offKeys a (m.setPower p cause) := by
  refine .ite (fun _ => h) fun _ => .record (.set (.set (.keep h (by rfl) (by rfl)) (offKeys_ne (by decide)) (by rfl)) (offKeys_ne (by decide)) (by rfl))
    (fun k hk => ?_) (by rfl)
  unfold offKeys at hk
  rw [okey]
  omega

theorem latchTime_stays (m : Mach) (K : Nat → Prop) : Stays Mach.offView K m m.latchTime ∧ m.latchTime.power = m.power :=
  iteInduction (motive := fun n : Mach => Stays Mach.offView K m n ∧ n.power = m.power) (fun _ => ⟨.refl .., rfl⟩) (fun _ => ⟨.keep (.refl ..) rfl rfl, rfl⟩)

/-- The time unit stops, and a start is to come where a wake is latched. -/
theorem sleepTime_stays (m : Mach) : Stays Mach.offView offKeys m (m.sleepTime.onPower fun x => { x with
      stop := none, entry := none, shed := false, startable := x.latchedWake.isSome }) ∧
    m.sleepTime.power = m.power := by
  unfold Mach.sleepTime
  obtain ⟨hstays, hpower⟩ := latchTime_stays m offKeys
  exact ⟨hstays.keep rfl rfl, hpower⟩

/-- A block that stops its time in P4. -/
theorem sleeps_off {n : Mach} (hpower : n.power_ = m.power_) (hstep : n.boot.step = 0)
    (hobjects : ∀ k, offKeys k → storeGet n.od k = storeGet m.od k) (cause : Nat) :
    TurnsOff m m.power_.lastStop { m := ((n.setN 0x2100 3 0xFF).setPower 4 cause).sleepTime.onPower fun x => { x with
      stop := none, entry := none, shed := false, startable := x.latchedWake.isSome }, wipe := true } := by
  have h6 : Stays Mach.offView offKeys n ((n.setN 0x2100 3 0xFF).setPower 4 cause) := .setPower (.set (.refl ..) (offKeys_ne (by decide)) rfl) 4 cause
  have hp4 : ((n.setN 0x2100 3 0xFF).setPower 4 cause).power = 4 := setPower_power ..
  generalize (n.setN 0x2100 3 0xFF).setPower 4 cause = n6 at h6 hp4 ⊢
  obtain ⟨h7, hpower7⟩ := sleepTime_stays n6
  have hview : (n6.sleepTime.power_.lastStop, n6.sleepTime.power_.latchedWake, n6.sleepTime.boot.step) =
      (m.power_.lastStop, m.power_.latchedWake, 0) := (h6.trans h7).view.trans (by rw [Mach.offView, hpower, hstep])
  simp only [Prod.mk.injEq] at hview
  obtain ⟨hlast, hwake, hstep⟩ := hview
  exact ⟨hpower7.trans hp4, hlast, congrArg Option.isSome hwake, hstep, fun k hk => ((h6.trans h7).objects k hk).trans (hobjects k hk), rfl, rfl⟩

/-- The wake that was latched is shown and forgotten. -/
theorem TurnsOff.showWake {n : Mach} {stop : Nat} (h : TurnsOff m stop { m := n, wipe := true }) (source : Nat) :
    TurnsOff m stop { m := (n.setN 0x2100 5 source).onPower fun x => { x with latchedWake := none }, wipe := true } := by
  have hshown : Stays Mach.stopView offKeys n (n.setN 0x2100 5 source) := .set (.refl ..) (offKeys_ne (by decide)) rfl
  obtain ⟨hp4, hlast, hstart, hstep, hobjects, hwipe, hwrites⟩ := h
  exact ⟨(Mach.setN_objN_ne n 0x2100 5 source 0 (by decide : okey 0x2100 1 ≠ okey 0x2100 5)).trans hp4, hlast, hstart, hstep,
    fun k hk => (hshown.objects k hk).trans (hobjects k hk), hwipe, hwrites⟩

/-- The supplies go off (R449). -/
theorem supplyOff_off (m : Mach) (cause : Nat) : TurnsOff m m.power_.lastStop (m.supplyOff cause) := by
  have hhalted : KeepsStop m m.haltDraw.accrueOnTime := .accrueOnTime (.haltDraw (.refl ..))
  have hlanes : ∀ l ∈ upTo 192, l < 192 := by simp [upTo]
  unfold Mach.supplyOff
  generalize m.haltDraw.accrueOnTime = n at hhalted ⊢
  generalize upTo 192 = lanes at hlanes ⊢
  dsimp only
  have hoff : KeepsStop m (Machine.each lanes ((n.forgetShakes.onPanel fun x => { x with transfers := [], checkpoints := [] }).onThermal
      fun t => { t with tripAsked := none }) fun m l => (m.setTx l 0).setRx l 0) := by
    refine Stays.eachOf _ (fun n l hl hn => ?_) (.keep hhalted rfl rfl)
    have hlane := hlanes l hl
    exact .other (.other hn _ (by omega)) _ (by omega)
  generalize Machine.each lanes _ _ = n3 at hoff ⊢
  have hunit : n3.power_ = m.power_ := congrArg Prod.fst hoff.view
  have hobjects : ∀ k, offKeys k → storeGet n3.od k = storeGet m.od k := fun k hk =>
    hoff.objects k (by unfold offKeys at hk; unfold stopKeys; omega)
  generalize hasleep : Mach.onPower (Mach.sleepTime (Mach.setPower (Mach.setN _ 0x2100 3 0xFF) 4 cause)) _ = n7
  have hasleep : TurnsOff m m.power_.lastStop { m := n7, wipe := true } := by
    rw [← hasleep]
    refine sleeps_off ?_ ?_ ?_ cause
    · split <;> exact hunit
    · split <;> rfl
    · split <;> exact hobjects
  split
  · exact hasleep.showWake _
  · exact hasleep

/-- Entry to P4 after an effect that leaves the power unit alone. -/
theorem TurnsOff.after {e : Eff} {f : Mach → Eff} (h : KeepsStop a e.m) (hf : TurnsOff e.m e.m.power_.lastStop (f e.m)) :
    TurnsOff a a.power_.lastStop (e.then_ f) := by
  have hpower : e.m.power_ = a.power_ := congrArg Prod.fst h.view
  rw [hpower] at hf
  obtain ⟨hp4, hlast, hstart, hstep, hobjects, hwipe, hwrites⟩ := hf
  refine ⟨hp4, hlast, hstart.trans (by rw [hpower]), hstep, fun k hk => ?_, ?_, ?_⟩
  · exact (hobjects k hk).trans (h.objects k (by unfold offKeys at hk; unfold stopKeys; omega))
  · exact (congrArg (e.wipe || ·) hwipe).trans (Bool.or_true _)
  · exact (if_pos hwipe).trans hwrites

/-- Entry to P4 (R235, R449). -/
theorem powerOff_off (m : Mach) (cause : Nat) : TurnsOff m m.power_.lastStop (m.powerOff cause) :=
  .after (.abortJobs (.refl ..)) (supplyOff_off ..)

/-- A stop without more of the power sequence (R447, R448, R541). -/
theorem shortStop_off (m : Mach) (stop cause decided : Nat) : TurnsOff m stop (m.shortStop stop cause decided) := by
  have hclosed : KeepsStop m (m.cutShakeout.closeAll (stop != 1 && stop != 2)) := .closeAll (.cutShakeout (.refl ..)) _
  unfold Mach.shortStop
  generalize m.cutShakeout.closeAll (stop != 1 && stop != 2) = n at hclosed ⊢
  extract_lets m1 m2
  have hwake : m1.power_.latchedWake = m.power_.latchedWake := by have := congrArg (fun x => x.1.latchedWake) hclosed.view; exact this
  have hstop : m1.power_.lastStop = stop := rfl
  have h1 : ∀ k, stopKeys k → storeGet m1.od k = storeGet m.od k := hclosed.objects
  clear_value m1
  have h2 : KeepsStop m1 m2 := .keep (m := m1.cutCal) (.cutCal (.refl ..)) rfl rfl
  clear_value m2
  have hpower : m2.power_ = m1.power_ := congrArg Prod.fst h2.view
  obtain ⟨hp4, hlast, hstart, hstep, hobjects, hwipe, hwrites⟩ := powerOff_off m2 cause
  refine ⟨hp4, hlast.trans (by rw [hpower, hstop]), hstart.trans (by rw [hpower, hwake]), hstep, fun k hk => ?_, hwipe, hwrites⟩
  have hkey : stopKeys k := by unfold offKeys at hk; unfold stopKeys; omega
  exact (hobjects k hk).trans ((h2.objects k hkey).trans (h1 k hkey))

end Off

/-! ### The abrupt stops -/

section Abrupt
variable {m : Mach}

/-- An entry to P4 loses what module memory holds. -/
theorem TurnsOff.forgets {a : Mach} {stop : Nat} {e : Eff} (h : TurnsOff a stop e) (l : Mem) :
    memApply (if e.wipe then [] else l) e.writes = [] := by
  rw [if_pos h.wipe, h.writes]
  rfl

theorem TurnsOff.runs {f : Ctx → Mach → Eff} {s : State} {a : Mach} {stop : Nat} {P : State → Prop} (h : TurnsOff a stop (f s.ctx s.m))
    (hP : ∀ t : State, t.m = (f s.ctx s.m).m → t.mem = [] → P t) : ∃ t, liftE f s = .next t ∧ P t :=
  ⟨_, liftE_next f s, hP _ rfl (h.forgets _)⟩

theorem TurnsOff.objN {a : Mach} {stop : Nat} {e : Eff} (h : TurnsOff a stop e) {ix sub : Nat} (hk : offKeys (okey ix sub)) :
    e.m.objN ix sub = a.objN ix sub := congrArg Int.toNat (h.objects _ hk)

theorem alive_iff (m : Mach) : m.alive = true ↔ m.power ≤ 3 ∧ 1 ≤ m.boot.step := by simp [Mach.alive]

/-- What keeps the power state and how far the module has started keeps it alive. -/
theorem Stays.alive {a b : Mach} (h : Stays Mach.stopView supplyKeys a b) : b.alive = a.alive := by
  have hpower : b.power = a.power := h.objN_of_key (by unfold supplyKeys; decide)
  have hstep : b.boot.step = a.boot.step := congrArg Prod.snd h.view
  rw [Mach.alive, Mach.alive, hpower, hstep]

/-- An event of the AO island leaves what the stops are about. -/
theorem Stays.raiseAO {K : Nat → Prop} {a : Mach} (hK : ∀ k, K k → stopKeys k) (h : Stays Mach.stopView K a m) {code inst : Nat}
    {d : List (Nat × Nat)} (hcode : code < 0x100000) : Stays Mach.stopView K a (m.raiseAO code inst d) :=
  h.record (fun k hk => stopKeys_ne (by omega) k (hK k hk)) rfl

theorem supplyKeys_stop (k : Nat) (h : supplyKeys k) : stopKeys k := by unfold supplyKeys at h; unfold stopKeys; omega

/-- A quench with the event that reports what led to it. -/
theorem quench_reported (m : Mach) {cause : Nat} (hcause : cause ≠ 4) {code : Nat} (hcode : code < 0x100000) (inst : Nat) (d : List (Nat × Nat)) :
    Stays Mach.stopView supplyKeys m ((m.quench cause).raiseAO code inst d) ∧ ((m.quench cause).raiseAO code inst d).objN 0x6401 1 = 2 ∧
      ((m.quench cause).raiseAO code inst d).objN 0x6401 2 = cause := by
  obtain ⟨hkeeps, hstate, hby⟩ := quench_quenched m hcause
  have hreport : KeepsStop (m.quench cause) ((m.quench cause).raiseAO code inst d) := .report (.refl ..) hcode
  exact ⟨hkeeps.raiseAO supplyKeys_stop hcode, (hreport.objN_of_key (by unfold stopKeys; decide)).trans hstate,
    (hreport.objN_of_key (by unfold stopKeys; decide)).trans hby⟩

/-- ABRUPT_LOSS of the line (R447). -/
theorem abruptLoss_off (halive : m.alive = true) (hcount : m.objN 0x2000 0x0E < 4294967295) : ∃ a : Mach, TurnsOff a 2 (abruptLoss 0 m) ∧
    a.objN 0x6401 1 = 2 ∧ a.objN 0x6401 2 = 1 ∧ a.objN 0x2000 0x0E = m.objN 0x2000 0x0E + 1 := by
  have hmax : objMax 0x2000 0x0E = 4294967295 := by rfl
  have hbump : (m.bump 0x2000 0x0E).objN 0x2000 0x0E = m.objN 0x2000 0x0E + 1 := Mach.bump_objN_same _ _ _ _ _ (by omega)
  unfold abruptLoss
  rw [if_neg (by simp [halive])]
  extract_lets m1 n
  obtain ⟨hkeeps, hstate, hby⟩ := quench_quenched m1 (cause := 1) (by decide)
  have hreport : Stays Mach.stopView supplyKeys (m.bump 0x2000 0x0E) m1 := Stays.raiseAO supplyKeys_stop (.refl ..) (by decide)
  clear_value n
  generalize m1.quench 1 = q at hkeeps hstate hby ⊢
  exact ⟨_, shortStop_off .., hstate, hby, ((hreport.trans hkeeps).objN_of_key (by unfold supplyKeys; decide)).trans hbump⟩

/-- A block in which a trip of the hardware was noted (0x2200:0A, :0B). -/
theorem trip_noted {n : Mach} {f : Thermal → Thermal} (h : ((m.setN 0x2200 0x0B 3).bump 0x2200 0x0A).onThermal f = n)
    (hcount : m.objN 0x2200 0x0A < 4294967295) : n.objN 0x2200 0x0B = 3 ∧ n.objN 0x2200 0x0A = m.objN 0x2200 0x0A + 1 ∧ n.alive = m.alive ∧
      n.power_ = m.power_ := by
  subst h
  have hmax : objMax 0x2200 0x0A = 4294967295 := by rfl
  have hset : (m.setN 0x2200 0x0B 3).objN 0x2200 0x0A = m.objN 0x2200 0x0A := Mach.setN_objN_ne _ _ _ _ _ (by decide)
  have hpower : ((m.setN 0x2200 0x0B 3).bump 0x2200 0x0A).power = m.power :=
    (Mach.bump_objN_ne _ _ _ _ _ (by decide)).trans (Mach.setN_objN_ne _ _ _ _ _ (by decide))
  refine ⟨?_, ?_, ?_, rfl⟩
  · exact (Mach.bump_objN_ne _ _ _ _ _ (by decide)).trans (Mach.setN_objN_same ..)
  · exact (Mach.bump_objN_same (m.setN 0x2200 0x0B 3) 0x2200 0x0A 1 0 (by rw [hset]; omega)).trans (by rw [hset])
  · exact congrArg (fun p => decide (p ≤ 3) && decide (1 ≤ m.boot.step)) hpower

/-- HARDWARE_TRIP of a sensor that asks for it (R479). -/
theorem hardwareTrip_off {n : Nat} (halive : m.alive = true) (hn : n < 28) (hlate : m.power ≤ 2 ∨ 23 ≤ n) (hvalid : m.sensorState n = 0)
    (htwice : 2 ≤ (m.sensor n).tripRun) (hcount : m.objN 0x2200 0x0A < 4294967295) (deferral : Nat) :
    ∃ a : Mach, TurnsOff a 4 (hardwareTrip n deferral m) ∧ a.objN 0x6401 1 = 2 ∧ a.objN 0x6401 2 = 3 ∧ a.objN 0x2200 0x0B = 3 ∧
      a.objN 0x2200 0x0A = m.objN 0x2200 0x0A + 1 ∧ a.power_ = m.power_ := by
  unfold hardwareTrip
  dsimp only
  rw [if_neg (by simp [halive, htwice, hvalid]; omega)]
  generalize hnoted : Mach.onThermal _ _ = m2
  obtain ⟨hsource, hcounted, hsame, hunit⟩ := trip_noted hnoted hcount
  obtain ⟨hkeeps, hstate, hby⟩ := quench_reported m2 (cause := 3) (by decide) (code := 0x3005) (by decide) n
    [(1, n), (2, toUnsigned 16 (m2.obj (0x2220 + n) 3)), (2, min deferral 200)]
  generalize (m2.quench 3).raiseAO 0x3005 n _ = m3 at hkeeps hstate hby ⊢
  rw [if_pos (hkeeps.alive.trans (hsame.trans halive))]
  refine ⟨_, shortStop_off .., hstate, hby, ?_, ?_, (congrArg Prod.fst hkeeps.view).trans hunit⟩
  · exact (hkeeps.objN_of_key (by unfold supplyKeys; decide)).trans hsource
  · exact (hkeeps.objN_of_key (by unfold supplyKeys; decide)).trans hcounted

/-- MODULE_WATCHDOG_EXPIRY while cores run (R541): the module goes off, and a start is to come. -/
theorem moduleWatchdogExpiry_off (hpower : m.power ≤ 2) (hstep : 5 ≤ m.boot.step) (last : Nat) :
    ∃ (a : Mach) (e : Eff), TurnsOff a 5 e ∧ a.objN 0x6401 2 = 5 ∧
      moduleWatchdogExpiry last m = e.on fun m => m.onPower fun x => { x with startable := true } := by
  have hrun : m.coresRun = true := by simp [Mach.coresRun, hpower, hstep]
  have halive : m.alive = true := (alive_iff m).mpr (by omega)
  obtain ⟨-, -, hby⟩ := quench_reported m (cause := 5) (by decide) (code := 0x1006) (by decide) 0 [(1, 0), (1, last)]
  unfold moduleWatchdogExpiry Mach.watchdogReset
  rw [if_pos hrun, if_neg (by simp [halive])]
  generalize (m.quench 5).raiseAO 0x1006 0 [(1, 0), (1, last)] = q at hby ⊢
  exact ⟨q.draw, _, shortStop_off .., hby, rfl⟩

end Abrupt

end Sys2Proof.Machine

/-! Phase faults and the wakes on access (R448, R460), and O47. -/

namespace Sys2Proof.Machine

/-! ### Phases -/

/-- A count that only one element of a list without repetitions can leave drops by one at most. -/
theorem countP_le_succ {l : List Nat} (hl : l.Nodup) {p q : Nat → Bool} {k : Nat} (h : ∀ i ∈ l, i ≠ k → p i = true → q i = true) :
    l.countP p ≤ l.countP q + 1 := by
  have herase : (l.erase k).countP p ≤ (l.erase k).countP q :=
    List.countP_mono_left fun i hi hp => h i (List.mem_of_mem_erase hi) (fun hik => hl.not_mem_erase (hik ▸ hi)) hp
  have hsub : (l.erase k).countP q ≤ l.countP q := List.erase_sublist.countP_le
  rw [List.countP_erase] at herase
  split at herase <;> omega

section Phases
variable {a b : Mach} {k : Nat}

theorem phasesIn_eq (m : Mach) (st : Nat) : m.phasesIn st = (upTo 7).countP fun i => decide (m.objN (0x2021 + i) 1 = st) :=
  List.countP_eq_length_filter.symm

/-- With one phase less in use as many are healthy, and one less is used. -/
theorem phasesIn_lose (hused : a.objN (0x2021 + k) 1 = 1) (h : ∀ i, i < 7 → i ≠ k → b.objN (0x2021 + i) 1 = a.objN (0x2021 + i) 1) :
    a.phasesIn 0 + a.phasesIn 1 ≤ b.phasesIn 0 + b.phasesIn 1 + 1 := by
  have hless {i : Nat} (hi : i ∈ upTo 7) : i < 7 := by simpa [upTo] using hi
  have hfree : a.phasesIn 0 ≤ b.phasesIn 0 := by
    rw [phasesIn_eq, phasesIn_eq]
    refine List.countP_mono_left fun i hi hfree => ?_
    rw [decide_eq_true_eq] at hfree ⊢
    rw [h i (hless hi) (by rintro rfl; omega), hfree]
  have hused : a.phasesIn 1 ≤ b.phasesIn 1 + 1 := by
    rw [phasesIn_eq, phasesIn_eq]
    exact countP_le_succ (k := k) (by decide) fun i hi hik hin => by rwa [h i (hless hi) hik]
  omega

theorem objMax_phaseFaults (hk : k < 7) : objMax (0x2021 + k) 3 = 65535 := by interval_cases k <;> rfl

/-- A phase that is turned off, with the two events that say so. -/
def Mach.phaseLost (m : Mach) (k cause : Nat) : Mach :=
  ((((m.setN (0x2021 + k) 1 2).bump (0x2021 + k) 3).setN (0x2021 + k) 4 cause).raise 0x2004 k [(1, k), (1, cause)]).raise 0xD009 k [(1, 4), (2, k)]

/-- An object other than those of the phase and the counts of events. -/
theorem phaseLost_objN_other (m : Mach) (k cause : Nat) {ix sub : Nat} (hix : ix ≠ 0x2021 + k ∧ ix ≠ 0x1202) (hsub : sub < 256) :
    (m.phaseLost k cause).objN ix sub = m.objN ix sub := by
  have hraise {tub : Nat} (htub : tub < 256) : okey ix sub ≠ okey 0x1202 tub := okey_ne_of_sub hsub htub (.inl hix.2)
  have hset {tub : Nat} (htub : tub < 256) : okey ix sub ≠ okey (0x2021 + k) tub := okey_ne_of_sub hsub htub (.inl hix.1)
  rw [Mach.phaseLost, Mach.raise_objN _ _ _ _ (hraise (by decide)), Mach.raise_objN _ _ _ _ (hraise (by decide)),
    Mach.setN_objN_ne _ _ _ _ _ (hset (by decide)), Mach.bump_objN_ne _ _ _ _ _ (hset (by decide)), Mach.setN_objN_ne _ _ _ _ _ (hset (by decide))]

/-- The phase is off, with its cause, and its faults are counted. -/
theorem phaseLost_objN_phase {m : Mach} (hk : k < 7) (hcount : m.objN (0x2021 + k) 3 < 65535) (cause : Nat) :
    (m.phaseLost k cause).objN (0x2021 + k) 1 = 2 ∧ (m.phaseLost k cause).objN (0x2021 + k) 4 = cause ∧
      (m.phaseLost k cause).objN (0x2021 + k) 3 = m.objN (0x2021 + k) 3 + 1 := by
  have hraise {sub tub : Nat} (hsub : sub < 256) (htub : tub < 256) : okey (0x2021 + k) sub ≠ okey 0x1202 tub := okey_ne_of_sub hsub htub (.inl (by omega))
  have hne {sub tub : Nat} (hsub : sub < 256) (htub : tub < 256) (h : sub ≠ tub) : okey (0x2021 + k) sub ≠ okey (0x2021 + k) tub :=
    okey_ne_of_sub hsub htub (.inr h)
  have hevents {sub : Nat} (hsub : sub < 256) : (m.phaseLost k cause).objN (0x2021 + k) sub =
      (((m.setN (0x2021 + k) 1 2).bump (0x2021 + k) 3).setN (0x2021 + k) 4 cause).objN (0x2021 + k) sub := by
    rw [Mach.phaseLost, Mach.raise_objN _ _ _ _ (hraise hsub (by decide)), Mach.raise_objN _ _ _ _ (hraise hsub (by decide))]
  have hbefore : (m.setN (0x2021 + k) 1 2).objN (0x2021 + k) 3 = m.objN (0x2021 + k) 3 :=
    Mach.setN_objN_ne _ _ _ _ _ (hne (by decide) (by decide) (by decide))
  refine ⟨?_, ?_, ?_⟩
  · rw [hevents (by decide), Mach.setN_objN_ne _ _ _ _ _ (hne (by decide) (by decide) (by decide)),
      Mach.bump_objN_ne _ _ _ _ _ (hne (by decide) (by decide) (by decide)), Mach.setN_objN_same]
  · rw [hevents (by decide), Mach.setN_objN_same]
  · rw [hevents (by decide), Mach.setN_objN_ne _ _ _ _ _ (hne (by decide) (by decide) (by decide)),
      Mach.bump_objN_same _ _ _ _ _ (by rw [objMax_phaseFaults hk, hbefore]; omega), hbefore]

/-- A phase in use faults while five of those left are usable: nothing more follows (R448). -/
theorem phaseFault_survived {m : Mach} {cause : Nat} (halive : m.alive = true) (hk : k < 7) (hcause : 1 ≤ cause ∧ cause ≤ 4)
    (hused : m.objN (0x2021 + k) 1 = 1) (hphases : 6 ≤ m.phasesIn 0 + m.phasesIn 1) : phaseFault k cause m = .of (m.phaseLost k cause) := by
  have hleft : m.phasesIn 0 + m.phasesIn 1 ≤ (m.phaseLost k cause).phasesIn 0 + (m.phaseLost k cause).phasesIn 1 + 1 :=
    phasesIn_lose hused fun i hi hik => phaseLost_objN_other m k cause (by omega) (by decide)
  unfold phaseFault
  rw [if_neg (by simp [halive, hused]; omega)]
  exact if_neg (show ¬ (m.phaseLost k cause).phasesIn 0 + (m.phaseLost k cause).phasesIn 1 < 5 by omega)

end Phases

/-! ### O47 -/

/-- Settles O47: each abrupt stop by the quench and the entry to P4 it consists of, a phase fault by what it writes. -/
theorem abruptStopsQuenchAndLeadToP4 : Obligations.AbruptStopsQuenchAndLeadToP4 := by
  unfold Obligations.AbruptStopsQuenchAndLeadToP4
  refine ⟨?loss, ?trip, ?watchdog, ?phase, ?idle⟩
  case loss =>
    intro s hpower hstep _ hcount
    obtain ⟨a, hoff, hstate, hby, hcounted⟩ := abruptLoss_off ((alive_iff s.m).mpr ⟨hpower, hstep⟩) hcount
    refine TurnsOff.runs (f := fun _ => abruptLoss 0) hoff fun t ht hmem => ?_
    rw [ht]
    exact ⟨hoff.power, (hoff.objN (by unfold offKeys; decide)).trans hstate, (hoff.objN (by unfold offKeys; decide)).trans hby,
      (hoff.objN (by unfold offKeys; decide)).trans hcounted, hmem, hoff.lastStop⟩
  case trip =>
    intro s n d hpower hstep _ hn hlate hvalid htwice hcount
    obtain ⟨a, hoff, hstate, hby, hsource, hcounted, hunit⟩ :=
      hardwareTrip_off ((alive_iff s.m).mpr ⟨hpower, hstep⟩) hn hlate hvalid htwice hcount d
    refine TurnsOff.runs (f := fun _ => hardwareTrip n d) hoff fun t ht hmem => ?_
    rw [ht]
    exact ⟨hoff.power, (hoff.objN (by unfold offKeys; decide)).trans hstate, (hoff.objN (by unfold offKeys; decide)).trans hby,
      (hoff.objN (by unfold offKeys; decide)).trans hsource, (hoff.objN (by unfold offKeys; decide)).trans hcounted, hmem, hoff.lastStop,
      by rw [← hunit]; exact hoff.startable⟩
  case watchdog =>
    intro s last hpower hstep _
    obtain ⟨a, e, hoff, hby, heff⟩ := moduleWatchdogExpiry_off hpower hstep last
    have hcause : e.m.objN 0x6401 2 = 5 := (hoff.objN (by unfold offKeys; decide)).trans hby
    refine ⟨_, liftE_next (fun _ => moduleWatchdogExpiry last) s, ?_⟩
    rw [heff]
    exact ⟨hoff.power, hcause, hoff.forgets _, hoff.lastStop, rfl, hoff.step⟩
  case phase =>
    intro s k cause hpower hstep hk hlow hhigh hused hphases hcount _
    obtain ⟨hoff, hcause, hcounted⟩ := phaseLost_objN_phase (m := s.m) hk hcount cause
    refine runs_of_eff (f := fun _ => phaseFault k cause)
      (phaseFault_survived ((alive_iff s.m).mpr ⟨hpower, hstep⟩) hk ⟨hlow, hhigh⟩ hused hphases)
      ⟨hoff, hcause, hcounted, phaseLost_objN_other s.m k cause (by omega) (by decide), ?_, rfl⟩
    show (s.m.phaseLost k cause).jrn.newest = _
    rw [Mach.phaseLost, Mach.raise_newest, Mach.raise_newest, Mach.setN_jrn, Mach.bump_jrn, Mach.setN_jrn]
  case idle =>
    intro s ix hidle
    refine runs_of_lift (f := fun _ => wakeOnAccessIdle ix) ?_
    rw [List.all_eq_true] at hidle
    rw [List.any_eq_false]
    intro w hw
    obtain ⟨hmem, hkept⟩ := List.mem_filter.mp hw
    have hdue := hidle w hmem
    simp only [Bool.or_eq_true, bne_iff_ne, ne_eq, decide_eq_true_eq] at hkept hdue ⊢
    omega

end Sys2Proof.Machine

/-! Injections and stops that the statements' premises let in, and numbers past the units of the module: eight states that refute O19, O46,
O48, O50, O51, O55, O57 and O59 (R431, R470, R494, R523, R539, R542). -/

namespace Sys2Proof.Machine

/-! ### O50 and O51: a fan that an injection has stopped -/

/-- 3 s after the reset, fan 0 has read 0 rpm for 2 s by an injection of point 15 (R523); sensor 0 has a value far below its thresholds. -/
def fanHeldStill : State := started fun m =>
  ({ m with clk := { m.clk with mono := sec 3 }, test := { m.test with timed := [(15, 0, 0, sec 4)] } } : Mach).onSensor 0
    fun x => { x with seeded := true }

/-- The margin is 95 °C, the period of FAN_CONTROL raises the fan's fault, and a fault sets the duty to 100 %. -/
theorem fanHeldStill_faults : fanHeldStill.m.threshold 0 1 - fanHeldStill.m.thermalValue 0 = 1520 ∧
    (fanControl [] fanHeldStill.m).objN 0x2200 4 = 100 ∧ (fanControl [] fanHeldStill.m).jrn.newest = fanHeldStill.m.jrn.newest + 1 := by
  decide +kernel

/-- Refutes O50: its clause on the duty by margin holds no fan faulted before, but the same FAN_CONTROL faults a fan that an injection of point
15 has had at 0 rpm for 2 s (R523), and the duty is 100 % at a margin of 95 °C. -/
theorem not_fansFollowTheMargin : ¬ Obligations.FansFollowTheMargin := by
  unfold Obligations.FansFollowTheMargin
  rintro ⟨-, hmargin, -⟩
  obtain ⟨hgap, hduty, -⟩ := fanHeldStill_faults
  obtain ⟨t, hrun, ht⟩ := hmargin fanHeldStill [] 0 1520 (by decide +kernel) (by decide +kernel) (by decide +kernel) (by decide +kernel)
    (by decide) (by decide +kernel) hgap.symm (by decide +kernel) (by decide)
  rw [mach_of_lift (f := fun _ => fanControl []) hrun] at ht
  exact absurd (hduty.symm.trans ht) (by decide)

/-- Refutes O51: its clause on FAN_CONTROL leaves the journal no change, but a fan that an injection has stopped for 2 s faults there with event
0x3008 (R474, R523). -/
theorem not_thermalAndPowerEventsKeepTheRest : ¬ Obligations.ThermalAndPowerEventsKeepTheRest := by
  unfold Obligations.ThermalAndPowerEventsKeepTheRest
  rintro ⟨hfans, -⟩
  obtain ⟨hsame, -⟩ := hfans fanHeldStill _ [] rfl
  have hnewest := congrArg (fun x : State => x.m.jrn.newest) hsame
  have hafter : (fanControl [] fanHeldStill.m).jrn.newest = fanHeldStill.m.jrn.newest := hnewest
  obtain ⟨-, -, hraised⟩ := fanHeldStill_faults
  omega

/-! ### O48: a held job at a block boundary -/

/-- Throttle stage T4 holds the decode jobs (R472); job 0 is RUNNING and stands between two blocks, without an engine. -/
def jobBetweenBlocks : State := started fun m => (m.setN 0x7110 0x0D 2).setN 0x2200 1 4

/-- The job is PAUSED after any event of the thermal loop (R235), one of a sensor past the last too. -/
theorem jobBetweenBlocks_pauses : jobBetweenBlocks.m.jobState 0 = 2 ∧
    (thermalEvent (sensorConversion 28 0 false) jobBetweenBlocks.ctx jobBetweenBlocks.m).m.jobState 0 = 3 := by
  decide +kernel

/-- Refutes O48: its last clause has a conversion that is not taken change nothing, but a RUNNING job that the throttle holds and that stands at
a block boundary is PAUSED then (R235). -/
theorem not_sensorsReadFilterAndFail : ¬ Obligations.SensorsReadFilterAndFail := by
  unfold Obligations.SensorsReadFilterAndFail
  rintro ⟨-, -, -, -, -, -, hnone⟩
  obtain ⟨t, hrun, ht⟩ := hnone jobBetweenBlocks 28 0 false (by decide +kernel) (Or.inl (by decide))
  have hm := mach_of_liftE (f := thermalEvent (sensorConversion 28 0 false)) hrun
  rw [ht] at hm
  obtain ⟨hbefore, hafter⟩ := jobBetweenBlocks_pauses
  rw [← hm, hbefore] at hafter
  exact absurd hafter (by decide)

/-! ### O55: a sync output past the last -/

/-- The checks of a run of SYNC_OUTPUT, with number 65,536; the cell at which such an output's edges would count holds 5. -/
def outputPastLast : State := started fun m =>
  (({ m with calib := { m.calib with run := { item := 3, inst := 65536 } } } : Mach).setN 0x7800 6 1).setN (0x3110 + 65536) 0x0C 5

/-- With no check failing, pass 1 begins (R491). -/
theorem checksDone_clear {m : Mach} {c : Ctx} (hstate : m.calState = 1) (hchecks : m.calChecks m.calib.run.item m.calib.run.inst = 0) :
    checksDone 0 c m = (m.calEnter 2).underTest c := by
  rw [checksDone, if_neg (not_not.2 hstate)]
  simp [hchecks]

/-- A pass of SYNC_OUTPUT counts 256 pulses of its output (R493). -/
theorem underTest_syncOutput {m : Mach} {c : Ctx} (hitem : m.calib.run.item = 3) :
    m.underTest c = .of ((m.bump (0x3110 + m.calib.run.inst) 0x0C 256).emit (.syncPulses m.calib.run.inst 256 1000 10000 m.timeWord)) := by
  simp only [Mach.underTest, hitem]

/-- The count of an output's edges never passes its object's largest value. -/
theorem underTest_syncOutput_le {m : Mach} {c : Ctx} {k : Nat} (hitem : m.calib.run.item = 3) (hinst : m.calib.run.inst = k) :
    (m.underTest c).m.objN (0x3110 + k) 0x0C ≤ objMax (0x3110 + k) 0x0C := by
  rw [underTest_syncOutput hitem, hinst]
  exact Mach.bump_objN_le m (0x3110 + k) 0x0C 256 0

theorem outputPastLast_counts :
    (checksDone 0 outputPastLast.ctx outputPastLast.m).m.objN (0x3110 + 65536) 0x0C ≤ objMax (0x3110 + 65536) 0x0C := by
  rw [checksDone_clear (by decide +kernel) (by decide +kernel)]
  exact underTest_syncOutput_le rfl rfl

/-- Refutes O55: its clause on the checks takes any number. The pulses of a SYNC_OUTPUT run of output 65,536 are counted at an index that
is none of the 65,536 of the dictionary, and so not the one that the frame lists. -/
theorem not_calibrationEventsKeepTheRest : ¬ Obligations.CalibrationEventsKeepTheRest := by
  unfold Obligations.CalibrationEventsKeepTheRest
  rintro ⟨-, hchecks, -⟩
  obtain ⟨t, hrun⟩ : ∃ t, exec (.calibrationChecksDone 0) outputPastLast = .next t := ⟨_, rfl⟩
  obtain ⟨-, hobjects⟩ := hchecks outputPastLast t 0 (.calibrationChecksDone 0) (by decide +kernel) (by simp) hrun
  have hcount := outputPastLast_counts
  rw [← mach_of_liftE (f := checksDone 0) hrun, Mach.objN, Mach.obj, hobjects _ (by decide +kernel)] at hcount
  exact absurd hcount (by decide +kernel)

/-! ### O57: the ledger while core 3 restarts -/

/-- The ledger's period has passed while core 3 is being reset, and a region has passed its test since the last update. -/
def ledgerWithoutCore : State := started fun m =>
  { m with clk := { m.clk with mono := us 16667 }, boot := { m.boot with cores := [3] }, test := { m.test with passed := [(0, 0)] } }

theorem ledgerWithoutCore_keeps : (ledgerUpdatePeriod ledgerWithoutCore.m).test.passed = [(0, 0)] := by decide +kernel

/-- Refutes O57: its clause on the ledger's period asks nothing of core 3, on which the ledger is updated (R542): while that core restarts, the
regions that have passed wait. -/
theorem not_fettlingRotatesAndYields : ¬ Obligations.FettlingRotatesAndYields := by
  unfold Obligations.FettlingRotatesAndYields
  rintro ⟨-, -, -, -, hledger, -⟩
  obtain ⟨t, hrun, -, hpassed⟩ := hledger ledgerWithoutCore (by decide +kernel) (by decide +kernel) (by decide +kernel) (by decide +kernel)
  rw [mach_of_lift (f := fun _ => ledgerUpdatePeriod) hrun, ledgerWithoutCore_keeps] at hpassed
  exact absurd hpassed (by decide)

/-! ### O46 and O59: a pair of sensors that have failed -/

/-- P3, entered from P2, with port 0 and the wake packet enabled; a sensor and its twin have FAILED. -/
def asleepUnsensed : State :=
  started (fun m => ((((m.onPower fun x => { x with before := 2, wakes := [0, 0, 0, 0, 0, 0, 0] }).setN 0x2100 7 1).setN 0x2100 4 2).setN
    0x2220 5 1).setN 0x2221 5 1) 3

/-- The wake frame of R458. -/
def wakeFrameOf (serial : Bytes) : Bytes :=
  [0xFF, 0xFF, 0xFF, 0xFF, 0xFF, 0xFF, 0, 0, 0, 0, 0, 1, 0x88, 0xB5, 0x4B, 0x57, 0x44, 0x2D, 0x57, 0x41, 0x4B, 0x45] ++ serial

theorem asleepUnsensed_stops : (wakePacket 0 (wakeFrameOf asleepUnsensed.unit.serial) asleepUnsensed.ctx asleepUnsensed.m).m.power = 4 := by
  decide +kernel

/-- Refutes O46: its clause on the wake packet says nothing of the sensors. Where both sensors of a pair have FAILED the module, awake, decides
an orderly shutdown at once (R470, R539), and is in P4 after the wake. -/
theorem not_wakesReachTheModule : ¬ Obligations.WakesReachTheModule := by
  unfold Obligations.WakesReachTheModule
  rintro ⟨hpacket, -⟩
  obtain ⟨t, hrun, hpower, -⟩ := hpacket asleepUnsensed 0 (wakeFrameOf asleepUnsensed.unit.serial) (by decide) (by decide +kernel)
    (by decide +kernel) (by decide +kernel) (by decide +kernel) (by decide +kernel) rfl rfl (by decide +kernel) (by decide +kernel) rfl
  rw [mach_of_liftE (f := wakePacket 0 (wakeFrameOf asleepUnsensed.unit.serial)) hrun, asleepUnsensed_stops] at hpower
  exact absurd hpower (by decide)

/-- Step 7 of the start is done; a sensor and its twin have FAILED. -/
def startUnsensed : State :=
  started fun m => (({ m with boot := { m.boot with step := 7 } } : Mach).setN 0x2220 5 1).setN 0x2221 5 1

/-- What step 8 finds: nothing failed. -/
def nothingFound : StartInput := ⟨false, 0, [], []⟩

theorem startUnsensed_stops : (start 8 nothingFound startUnsensed.ctx startUnsensed.m).m.boot.step = 0 := by decide +kernel

/-- Refutes O59: its clause on step 8 says nothing of the sensors. Where both sensors of a pair have FAILED an orderly shutdown is decided with
the end of the start (R470, R539), and the start sequence stands at step 0 again. -/
theorem not_startSequenceRunsInOrder : ¬ Obligations.StartSequenceRunsInOrder := by
  unfold Obligations.StartSequenceRunsInOrder
  rintro ⟨-, -, -, -, -, -, -, hlast, -⟩
  obtain ⟨t, hrun, hstep, -⟩ := hlast startUnsensed nothingFound rfl rfl rfl (by decide +kernel)
  rw [mach_of_liftE (f := start 8 nothingFound) hrun, startUnsensed_stops] at hstep
  exact absurd hstep (by decide)

/-! ### O19: a ninth sync output -/

/-- Nine sync outputs, each PERIODIC from the epoch (R428); the time word stands at the epoch. -/
def ninthOutput : State :=
  started fun m => m.onPtp fun p => { p with outs := List.replicate 9 { set_ := { (p.outs.getD 0 {}).set_ with mode := 4 } } }

theorem ninthOutput_uncounted : (syncOutputEdge 8 0 0 ninthOutput.m).objN 0x3118 0x0C ≤ objMax 0x3118 0x0C :=
  Mach.bump_objN_le (ninthOutput.m.onSyncOut 8 fun y => { y with active := true, endsAt := 0 + (ns y.set_.width : Nat), lastEdge := some 0 }) 0x3118 0x0C 1 0

/-- Refutes O19: its clause on an edge takes any output of the list. Object 0x3118 is none of the eight outputs', so that the pulses of a ninth
are not counted (R433). -/
theorem not_syncOutputsAndInputs : ¬ Obligations.SyncOutputsAndInputs := by
  unfold Obligations.SyncOutputsAndInputs
  rintro ⟨-, -, -, -, hpulse, -⟩
  obtain ⟨t, hrun, -, -, -, hcount⟩ := hpulse ninthOutput 8 0 0 0 (by decide +kernel) (by decide +kernel) (by decide +kernel)
    (by decide +kernel) rfl rfl rfl (by decide +kernel)
  rw [mach_of_lift (f := fun _ => syncOutputEdge 8 0 0) hrun] at hcount
  have hafter := ninthOutput_uncounted
  rw [show objMax 0x3118 0x0C = 0 by decide +kernel, hcount] at hafter
  exact absurd hafter (by simp)

end Sys2Proof.Machine

/-! Writes of the objects of chapters 14 to 18, and O49 (R469, R470, R485). -/

namespace Sys2Proof.Machine

/-! ### What follows a write -/

section Writes
variable {s : State} {ix sub : Nat} {w : WriteReq} {p : Put} {m n : Mach} {P : State → Prop}

/-- A block that differs in its sessions and in what it has sent has what does not look at these. -/
theorem SameBut.congr {α : Type} {a b : Mach} (h : SameBut a b) (f : Mach → α) (hf : ∀ m k o, f { m with koa := k, out := o } = f m := by
    intros; rfl) : f a = f b := by
  rw [h, hf]

/-- The domains that an access wakes have their objects from 0x5320 to 0x5363 and in chapter 10 (R460). -/
theorem wakeFor_of_upper {ix : Nat} (h : 0x7800 ≤ ix) (m : Mach) : m.wakeFor ix = m := if_neg (by omega)

/-- A write that its rule refuses, of an object that wakes no domain: nothing changes but the sessions and what is sent. -/
theorem Reaches.runs_unchanged {a : Nat} (h : Reaches s ix sub w p m) (hwake : ix < 0x5320 ∨ 0x7800 ≤ ix) (hrun : p.run m = .error a) :
    ∃ t, liftE (koaWrite (writeMsg w ix sub) none) s = .next t ∧ SameBut t.m m ∧ t.mem = s.mem := by
  obtain ⟨m0, hvet, hm⟩ := h.taken
  obtain ⟨t, m1, hnext, hbefore, hafter, hmem, -⟩ := h.liftE_refused hrun
  refine ⟨t, hnext, ?_, hmem⟩
  have hkept : m = m0 := hm.trans (hwake.elim (wakeFor_of_unlisted · m0) (wakeFor_of_upper · m0))
  rw [hkept]
  exact hafter.trans (hbefore.trans (vet_take hvet).symm)

end Writes

/-! ### O49 -/

section Sensors
variable {s : State} {w : WriteReq} {p : Put} {m : Mach} {n : Nat}

theorem Mach.sensor_onSensor (f : Sensor → Sensor) (h : n < m.thermal.sensors.length) : (m.onSensor n f).sensor n = f (m.sensor n) := by
  simp [Mach.sensor, Mach.onSensor, Mach.onThermal, modAt, List.getD_eq_getElem?_getD, List.getElem?_eq_getElem h]

/-- SENSOR_CLEAR is the write of 0x2220+n:08. -/
theorem Reaches.run_sensorClear (h : Reaches s (0x2220 + n) 8 w p m) (hn : n < 28) : p.run m = actM (m.clearSensor n) := by
  obtain ⟨-, hix, hsub, -, -⟩ := h.put
  interval_cases n <;> simp [Put.run, Put.sessions, Put.supply, hix, hsub]

/-- SENSOR_RELEASE is the write of 0x2220+n:09. -/
theorem Reaches.run_sensorRelease (h : Reaches s (0x2220 + n) 9 w p m) (hn : n < 28) : p.run m = actM (m.releaseSensor n) := by
  obtain ⟨-, hix, hsub, -, -⟩ := h.put
  interval_cases n <;> simp [Put.run, Put.sessions, Put.supply, hix, hsub]

theorem exec_sensorClear (hn : n < 28) (w : WriteReq) (s : State) :
    exec (.sensorClear n w) s = liftE (koaWrite (writeMsg w (0x2220 + n) 8) none) s := by
  show liftE (writeIn _ _ _ _) s = _
  rw [writeIn_of_true (by simpa using hn)]

theorem exec_sensorRelease (hn : n < 28) (w : WriteReq) (s : State) :
    exec (.sensorRelease n w) s = liftE (koaWrite (writeMsg w (0x2220 + n) 9) none) s := by
  show liftE (writeIn _ _ _ _) s = _
  rw [writeIn_of_true (by simpa using hn)]

theorem clearSensor_failed (h : m.sensorState n ≠ 0) : m.clearSensor n = .ok (m.onSensor n fun x => { x with clearing := true, good := 0 }) :=
  if_neg h

theorem releaseSensor_failed (hstate : m.sensorState n = 1) (htwin : m.sensorValid (sensorTwin n) = true) :
    m.releaseSensor n = .ok (m.onSensor n fun x => { x with releasing := true }) := if_pos ⟨hstate, htwin⟩

end Sensors

/-- Settles O49: each write by its object's rule. -/
theorem failedSensorsClearAndRelease : Obligations.FailedSensorsClearAndRelease := by
  unfold Obligations.FailedSensorsClearAndRelease
  refine ⟨?clear, ?valid, ?release, ?refused⟩
  case clear =>
    intro s n w p m h hn hlength hstate
    rw [Runs, exec_sensorClear hn]
    refine h.runs_act (by omega) ((h.run_sensorClear hn).trans (congrArg actM (clearSensor_failed hstate))) fun a ha => ?_
    have hsensor : a.sensor n = { m.sensor n with clearing := true, good := 0 } :=
      (ha.congr (Mach.sensor · n)).trans (Mach.sensor_onSensor _ hlength)
    exact ⟨congrArg Sensor.clearing hsensor, congrArg Sensor.good hsensor, ha.congr (Mach.sensorState · n)⟩
  case valid =>
    intro s n w p m h hn hstate
    rw [Runs, exec_sensorClear hn]
    exact h.runs_unchanged (by omega) ((h.run_sensorClear hn).trans (congrArg actM (if_pos hstate)))
  case release =>
    intro s n w p m h hn hlength hstate htwin
    rw [Runs, exec_sensorRelease hn]
    refine h.runs_act (by omega) ((h.run_sensorRelease hn).trans (congrArg actM (releaseSensor_failed hstate htwin))) fun a ha => ?_
    have hsensor : a.sensor n = { m.sensor n with releasing := true } :=
      (ha.congr (Mach.sensor · n)).trans (Mach.sensor_onSensor _ hlength)
    exact ⟨congrArg Sensor.releasing hsensor, (ha.congr (Mach.sensorState · n)).trans hstate⟩
  case refused =>
    intro s n w p m h hn hcase
    have hcannot : ¬ (m.sensorState n = 1 ∧ m.sensorValid (sensorTwin n) = true) := by
      rintro ⟨hstate, htwin⟩
      simp [hstate, htwin] at hcase
    rw [Runs, exec_sensorRelease hn]
    exact h.runs_unchanged (by omega) ((h.run_sensorRelease hn).trans (congrArg actM (if_neg hcannot)))

end Sys2Proof.Machine

/-! The writes of a calibration's command object, and O52 (R489 to R491, R494 to R496, R502). -/

namespace Sys2Proof.Machine

/-! ### The end of a run (R491) -/

section Ends
variable {m : Mach} {st code : Nat}

/-- The end of a run is its state and code, a result that may be emptied, and event 0xC001. -/
theorem endCal_eq (m : Mach) (st code : Nat) : ∃ (strs : List (Nat × Bytes)) (d : List (Nat × Nat)), m.endCal st code =
    ({ (m.setN 0x7800 7 code).calEnter st with strs := strs }.onCalib fun x => { x with run := { x.run with slot := none } }).raise 0xC001 0 d := by
  unfold Mach.endCal
  extract_lets r m1 m2
  have h2 : m2 = { m1 with strs := m2.strs } := iteInduction (motive := fun n : Mach => n = { m1 with strs := n.strs }) (fun _ => rfl) (fun _ => rfl)
  clear_value m2
  exact ⟨m2.strs, _, by rw [← h2]⟩

theorem endCal_calState (m : Mach) (st code : Nat) : (m.endCal st code).calState = st := by
  obtain ⟨strs, d, h⟩ := endCal_eq m st code
  rw [h, Mach.calState, Mach.raise_objN _ _ _ _ (by decide)]
  exact Mach.setN_objN_same ..

theorem endCal_calib (m : Mach) (st code : Nat) :
    (m.endCal st code).calib.sets = m.calib.sets ∧
      (m.endCal st code).calib.run = { m.calib.run with since := m.now, slot := none } := by
  obtain ⟨strs, d, h⟩ := endCal_eq m st code
  rw [h, Mach.raise_calib]
  exact ⟨rfl, rfl⟩

theorem endCal_newest (m : Mach) (st code : Nat) : (m.endCal st code).jrn.newest = m.jrn.newest + 1 := by
  obtain ⟨strs, d, h⟩ := endCal_eq m st code
  rw [h, Mach.raise_newest]
  rfl

end Ends

/-! ### The commands -/

section Commands
variable {s : State} {w : WriteReq} {p : Put} {m : Mach}

/-- The commands of a calibration are writes of 0x7800:05. -/
theorem Reaches.run_calibration (h : Reaches s 0x7800 5 w p m) : p.run m = p.calibration m := by
  obtain ⟨-, hix, hsub, -, -⟩ := h.put
  simp [Put.run, Put.sessions, Put.supply, Put.times, Put.ports, Put.schedule, Put.layers, Put.observers, Put.memory, Put.links, Put.panel,
    Put.tests, hix, hsub]

theorem Reaches.run_calibrationStart (h : Reaches s 0x7800 5 w p m) (hn : p.n = 0x4C430780) : p.run m = actM (m.startCal s.ctx) := by
  obtain ⟨hc, -⟩ := h.put
  refine h.run_calibration.trans ?_
  unfold Put.calibration
  generalize hk : p.n - 0x4C430780 = k
  obtain rfl : k = 0 := by omega
  exact congrArg (fun c => actM (m.startCal c)) hc

theorem Reaches.run_calibrationAbort (h : Reaches s 0x7800 5 w p m) (hn : p.n = 0x4C430781) : p.run m = actM m.abortCal := by
  refine h.run_calibration.trans ?_
  unfold Put.calibration
  generalize hk : p.n - 0x4C430780 = k
  obtain rfl : k = 1 := by omega
  rfl

theorem Reaches.run_calibrationAccept (h : Reaches s 0x7800 5 w p m) (hn : p.n = 0x4C430782) : p.run m = actM m.acceptCal := by
  refine h.run_calibration.trans ?_
  unfold Put.calibration
  generalize hk : p.n - 0x4C430780 = k
  obtain rfl : k = 2 := by omega
  rfl

theorem Reaches.run_calibrationReject (h : Reaches s 0x7800 5 w p m) (hn : p.n = 0x4C430783) : p.run m = actM m.rejectCal := by
  refine h.run_calibration.trans ?_
  unfold Put.calibration
  generalize hk : p.n - 0x4C430780 = k
  obtain rfl : k = 3 := by omega
  rfl

theorem exec_calibrationStart (h : ofBE w.value = 0x4C430780) (s : State) :
    exec (.calibrationStart w) s = liftE (koaWrite (writeMsg w 0x7800 5) none) s := by
  show liftE (writeCode _ _ _ _ _) s = _
  rw [writeCode_of_eq h]

theorem exec_calibrationAbort (h : ofBE w.value = 0x4C430781) (s : State) :
    exec (.calibrationAbort w) s = liftE (koaWrite (writeMsg w 0x7800 5) none) s := by
  show liftE (writeCode _ _ _ _ _) s = _
  rw [writeCode_of_eq h]

theorem exec_calibrationAccept (h : ofBE w.value = 0x4C430782) (s : State) :
    exec (.calibrationAccept w) s = liftE (koaWrite (writeMsg w 0x7800 5) none) s := by
  show liftE (writeCode _ _ _ _ _) s = _
  rw [writeCode_of_eq h]

theorem exec_calibrationReject (h : ofBE w.value = 0x4C430783) (s : State) :
    exec (.calibrationReject w) s = liftE (koaWrite (writeMsg w 0x7800 5) none) s := by
  show liftE (writeCode _ _ _ _ _) s = _
  rw [writeCode_of_eq h]

end Commands

/-! ### CALIBRATION_START (R489) -/

/-- A run as it is set up: its item, what it calibrates and temperature, its code, its number and its empty results. -/
def Mach.calPrepared (m : Mach) : Mach :=
  let item := m.objN 0x7800 1
  let inst := m.objN 0x7800 2
  let t := m.meanOf (tempSensors (tempPlace item inst)) (m.calTemp item inst)
  let m := m.onCalib (fun x => { x with run := { item := item, inst := inst, t1 := t } })
  let m := (m.sets 0x7800 [(7, 0), (8, t), (9, 0), (0x0A, 0)]).bump 0x7800 0x0C
  ((m.setStr 0x7801 0 []).setStr 0x7802 0 []).setStr 0x7803 0 []

section Start
variable {m : Mach} {c : Ctx}

/-- What lets a run start. -/
theorem startCal_ok (hretired : c.life ≠ .retired)
    (hlife : (m.objN 0x7800 1 = 2 ∨ m.objN 0x7800 1 = 5) → (c.life = .factory ∨ c.life = .service))
    (hstate : m.calState = 0 ∨ 5 ≤ m.calState) (hinst : m.objN 0x7800 2 < itemCount (m.objN 0x7800 1))
    (hreference : m.objN 0x7800 1 = 5 → m.obj 0x7800 3 ≠ 0x7FFF) (hdelay : m.objN 0x7800 1 = 3 → m.objN 0x7800 4 ≠ 0xFFFFFFFF) :
    m.startCal c = .ok (m.calPrepared.calEnter 1) := by
  unfold Mach.startCal
  extract_lets item inst factoryOnly
  rw [if_neg, if_neg, if_neg, if_neg]
  · rfl
  · exact fun h => h.elim (fun h => hreference h.1 h.2) (fun h => hdelay h.1 h.2)
  · exact Nat.not_le.2 hinst
  · omega
  · rintro (h | ⟨hitem, h⟩)
    · exact hretired h
    · obtain hl | hl := hlife (by simpa [factoryOnly, item] using hitem) <;> simp [hl] at h

/-- What keeps a run from starting. -/
theorem startCal_refused (h : c.life = .retired ∨ ((m.objN 0x7800 1 = 2 ∨ m.objN 0x7800 1 = 5) ∧ (c.life = .provisioned ∨ c.life = .field)) ∨
    (1 ≤ m.calState ∧ m.calState ≤ 4)) : ∃ a, m.startCal c = .error a := by
  unfold Mach.startCal
  extract_lets item inst factoryOnly
  by_cases hlife : c.life = .retired ∨ (factoryOnly = true ∧ (c.life = .provisioned ∨ c.life = .field))
  · exact ⟨_, if_pos hlife⟩
  · rw [if_neg hlife]
    obtain h | ⟨hitem, h⟩ | h := h
    · exact absurd (.inl h) hlife
    · exact absurd (.inr ⟨by simpa [factoryOnly, item] using hitem, h⟩) hlife
    · exact ⟨_, if_pos h⟩

theorem calEnter_calState (m : Mach) (st : Nat) : (m.calEnter st).calState = st := Mach.setN_objN_same (m := m) ..

theorem calEnter_objN (m : Mach) (st : Nat) {ix sub : Nat} (h : okey ix sub ≠ okey 0x7800 6) : (m.calEnter st).objN ix sub = m.objN ix sub :=
  Mach.setN_objN_ne m _ _ _ _ h

theorem sets_run_count (m : Mach) (t : Int) :
    (m.sets 0x7800 [(7, 0), (8, t), (9, 0), (0x0A, 0)]).objN 0x7800 0x0C = m.objN 0x7800 0x0C := by
  simp only [Mach.sets, List.foldl_cons, List.foldl_nil]
  iterate 4 rw [Mach.set_objN_ne _ _ _ _ _ (by decide)]

theorem sets_run_code (m : Mach) (t : Int) : (m.sets 0x7800 [(7, 0), (8, t), (9, 0), (0x0A, 0)]).objN 0x7800 7 = 0 := by
  simp only [Mach.sets, List.foldl_cons, List.foldl_nil]
  iterate 3 rw [Mach.set_objN_ne _ _ _ _ _ (by decide)]
  exact Mach.set_objN_same ..

theorem calPrepared_code (m : Mach) : m.calPrepared.objN 0x7800 7 = 0 := by
  unfold Mach.calPrepared
  extract_lets item inst t m1 m2
  exact (Mach.bump_objN_ne _ _ _ _ _ (by decide)).trans (sets_run_code ..)

theorem calPrepared_count (h : m.objN 0x7800 0x0C < 4294967295) : m.calPrepared.objN 0x7800 0x0C = m.objN 0x7800 0x0C + 1 := by
  unfold Mach.calPrepared
  extract_lets item inst t m1 m2
  have hsame : (m1.sets 0x7800 [(7, 0), (8, t), (9, 0), (0x0A, 0)]).objN 0x7800 0x0C = m.objN 0x7800 0x0C := sets_run_count m1 t
  have hmax : objMax 0x7800 0x0C = 4294967295 := by decide +kernel
  exact (Mach.bump_objN_same _ _ _ _ _ (by omega)).trans (by rw [hsame])

theorem calPrepared_run (m : Mach) : m.calPrepared.calib.run.item = m.objN 0x7800 1 ∧ m.calPrepared.calib.run.inst = m.objN 0x7800 2 := by
  unfold Mach.calPrepared
  extract_lets item inst t m1 m2
  have hcalib : m2.calib = m1.calib := (Mach.bump_calib ..).trans (Mach.sets_calib ..)
  exact ⟨congrArg (fun x => x.run.item) hcalib, congrArg (fun x => x.run.inst) hcalib⟩

end Start

/-- Settles O52: each command by its object's rule. -/
theorem calibrationCommandsAct : Obligations.CalibrationCommandsAct := by
  unfold Obligations.CalibrationCommandsAct
  refine ⟨?start, ?startRefused, ?abort, ?abortRefused, ?reject, ?accept, ?rejectRefused⟩
  case start =>
    intro s w p m h hvalue hn hretired hlife hstate hinst hreference hdelay hcount
    rw [Runs, exec_calibrationStart hvalue]
    refine h.runs_act (by omega) ((h.run_calibrationStart hn).trans
      (congrArg actM (startCal_ok hretired hlife hstate hinst hreference hdelay))) fun a ha => ?_
    obtain ⟨hitem, hinstance⟩ := calPrepared_run m
    exact ⟨(ha.congr Mach.calState).trans (calEnter_calState ..),
      (ha.congr (Mach.objN · 0x7800 7)).trans ((calEnter_objN _ _ (by decide)).trans (calPrepared_code m)),
      (ha.congr (Mach.objN · 0x7800 0x0C)).trans ((calEnter_objN _ _ (by decide)).trans (calPrepared_count hcount)),
      (ha.congr (·.calib.run.item)).trans hitem, (ha.congr (·.calib.run.inst)).trans hinstance⟩
  case startRefused =>
    intro s w p m h hvalue hn hcase
    obtain ⟨a, hrefused⟩ := startCal_refused (m := m) (c := s.ctx) hcase
    rw [Runs, exec_calibrationStart hvalue]
    exact h.runs_unchanged (by omega) ((h.run_calibrationStart hn).trans (congrArg actM hrefused))
  case abort =>
    intro s w p m h hvalue hn hlow hhigh
    rw [Runs, exec_calibrationAbort hvalue]
    refine h.runs_act (by omega) ((h.run_calibrationAbort hn).trans (congrArg actM (if_pos ⟨hlow, hhigh⟩))) fun a ha => ?_
    exact ⟨(ha.congr Mach.calState).trans (endCal_calState ..), (ha.congr (·.jrn.newest)).trans (endCal_newest ..),
      (ha.congr (·.calib.sets)).trans (endCal_calib ..).1⟩
  case abortRefused =>
    intro s w p m h hvalue hn hcase
    rw [Runs, exec_calibrationAbort hvalue]
    obtain ⟨t, hnext, hsame, -⟩ := h.runs_unchanged (by omega) ((h.run_calibrationAbort hn).trans (congrArg actM (if_neg (by omega))))
    exact ⟨t, hnext, hsame⟩
  case reject =>
    intro s w p m h hvalue hn hstate
    rw [Runs, exec_calibrationReject hvalue]
    refine h.runs_act (by omega) ((h.run_calibrationReject hn).trans (congrArg actM (if_neg (not_not.2 hstate)))) fun a ha => ?_
    obtain ⟨hsets, hrun⟩ := endCal_calib m 6 0
    exact ⟨(ha.congr (·.calib.run.slot)).trans (congrArg CalRun.slot hrun), (ha.congr Mach.calState).trans (endCal_calState ..),
      (ha.congr (·.calib.sets)).trans hsets⟩
  case accept =>
    intro s k w p m h hvalue hn hstate hslot
    have hrule : m.acceptCal = .ok (m.onCalib fun x => { x with run := { x.run with slot := some k } }) := by
      unfold Mach.acceptCal
      simp only [hstate, hslot, ne_eq, not_true_eq_false, ↓reduceIte]
    rw [Runs, exec_calibrationAccept hvalue]
    refine h.runs_act (by omega) ((h.run_calibrationAccept hn).trans (congrArg actM hrule)) fun a ha => ?_
    exact ⟨(ha.congr Mach.calState).trans hstate, ha.congr (·.calib.run.slot), ha.congr (·.calib.sets)⟩
  case rejectRefused =>
    intro s w p m h hvalue hn hstate
    rw [Runs, exec_calibrationReject hvalue]
    obtain ⟨t, hnext, hsame, -⟩ := h.runs_unchanged (by omega) ((h.run_calibrationReject hn).trans (congrArg actM (if_pos hstate)))
    exact ⟨t, hnext, hsame⟩

end Sys2Proof.Machine

/-! The injection window and injections, and O58 (R523, R524, R530). -/

namespace Sys2Proof.Machine

/-! ### The window (R524) -/

section Window
variable {s : State} {w : WriteReq} {p : Put} {m : Mach}

theorem closeWindow_open (h : m.objB 0x7F00 2 = true) (session : Nat) :
    m.closeWindow session = (m.setN 0x7F00 2 0).disarm.raise 0xD00A 0 [(1, 0), (4, session)] := by
  rw [Mach.closeWindow, h]
  rfl

/-- A window that closes disarms what is armed, with event 0xD00A. -/
theorem closeWindow_closes (h : m.objB 0x7F00 2 = true) (session : Nat) :
    (m.closeWindow session).objB 0x7F00 2 = false ∧ (m.closeWindow session).test.armed = none ∧ (m.closeWindow session).objN 0x7F01 6 = 0 ∧
      (m.closeWindow session).jrn.newest = m.jrn.newest + 1 := by
  have hdisarm : (m.setN 0x7F00 2 0).disarm.obj 0x7F00 2 = 0 :=
    (Mach.setN_obj_ne (m.setN 0x7F00 2 0) 0x7F01 6 0 0 (by decide)).trans (Mach.setN_obj_same m 0x7F00 2 0 0)
  have hstate : (m.setN 0x7F00 2 0).disarm.objN 0x7F01 6 = 0 := Mach.setN_objN_same (m.setN 0x7F00 2 0) 0x7F01 6 0 0
  rw [closeWindow_open h]
  refine ⟨?_, by rw [Mach.raise_test]; rfl, (Mach.raise_objN _ _ _ _ (by decide)).trans hstate, Mach.raise_newest ..⟩
  rw [Mach.objB, Mach.raise_obj _ _ _ _ (by decide), hdisarm]
  rfl

theorem openWindow_opens (m : Mach) (session : Nat) :
    (m.openWindow session).objB 0x7F00 2 = true ∧ (m.openWindow session).test.openedAt = m.now := by
  unfold Mach.openWindow
  extract_lets was opened
  have hopened : opened.obj 0x7F00 2 = 1 := Mach.setN_obj_same ..
  have htest : opened.test.openedAt = m.now := rfl
  clear_value opened
  refine iteInduction (motive := fun n : Mach => n.objB 0x7F00 2 = true ∧ n.test.openedAt = m.now) (fun _ => ⟨?_, htest⟩) (fun _ => ⟨?_, ?_⟩)
  · rw [Mach.objB, hopened]; rfl
  · rw [Mach.objB, Mach.raise_obj _ _ _ _ (by decide), hopened]; rfl
  · rw [Mach.raise_test]; exact htest

/-- The window's commands are writes of 0x7F00:01. -/
theorem Reaches.run_window (h : Reaches s 0x7F00 1 w p m) :
    p.run m = act (if p.n = 0x4C437F01 then m.openWindow p.s.id else m.closeWindow p.s.id) := by
  obtain ⟨-, hix, hsub, -, -⟩ := h.put
  simp [Put.run, Put.sessions, Put.supply, Put.times, Put.ports, Put.schedule, Put.layers, Put.observers, Put.memory, Put.links, Put.panel,
    Put.tests, hix, hsub]

theorem exec_windowOpen (h : ofBE w.value = 0x4C437F01) (s : State) :
    exec (.windowOpen w) s = liftE (koaWrite (writeMsg w 0x7F00 1) none) s := by
  show liftE (writeCode _ _ _ _ _) s = _
  rw [writeCode_of_eq h]

theorem exec_windowClose (h : ofBE w.value = 0x4C437F00) (s : State) :
    exec (.windowClose w) s = liftE (koaWrite (writeMsg w 0x7F00 1) none) s := by
  show liftE (writeCode _ _ _ _ _) s = _
  rw [writeCode_of_eq h]

end Window

/-! ### Injections (R523, R530) -/

/-- The injection that the objects 0x7F01 describe. -/
def Mach.injection (m : Mach) : Inject :=
  { point := m.objN 0x7F01 1, inst := m.objN 0x7F01 2, periodic := m.objB 0x7F01 3 && m.objN 0x7F01 1 != 17 && m.objN 0x7F01 1 != 26,
    value := m.objN 0x7F01 4, at_ := m.now, live := true, slot := m.slotsUsed }

/-- An injection is armed and counted, with event 0xD00B. -/
def Mach.arm (m : Mach) (a : Inject) : Mach :=
  (((m.onTest (fun t => { t with armed := some a })).setN 0x7F01 6 (if a.periodic then 2 else 1)).bump 0x7F01 7).raise 0xD00B a.inst
    [(1, a.point), (2, a.inst), (1, bit a.periodic)]

section Injections
variable {s : State} {w : WriteReq} {p : Put} {m : Mach} {c : Ctx}

/-- The commands of injections are writes of 0x7F01:05. -/
theorem Reaches.run_injection (h : Reaches s 0x7F01 5 w p m) :
    p.run m = if p.n = 0x4C437F61 then m.startInject s.ctx else actM m.stopInject := by
  obtain ⟨hc, hix, hsub, -, -⟩ := h.put
  simp [Put.run, Put.sessions, Put.supply, Put.times, Put.ports, Put.schedule, Put.layers, Put.observers, Put.memory, Put.links, Put.panel,
    Put.tests, hix, hsub, hc]

theorem exec_injectionStart (h : ofBE w.value = 0x4C437F61) (s : State) :
    exec (.injectionStart w) s = liftE (koaWrite (writeMsg w 0x7F01 5) none) s := by
  show liftE (writeCode _ _ _ _ _) s = _
  rw [writeCode_of_eq h]

theorem exec_injectionStop (h : ofBE w.value = 0x4C437F60) (s : State) :
    exec (.injectionStop w) s = liftE (koaWrite (writeMsg w 0x7F01 5) none) s := by
  show liftE (writeCode _ _ _ _ _) s = _
  rw [writeCode_of_eq h]

/-- An injection at a point of whose value nothing is asked, and at one of its places, starts. -/
theorem startInject_ok (hallowed : m.injectionAllowed c = true) (hinst : m.objN 0x7F01 2 < pointInstances (m.objN 0x7F01 1))
    (hpoint : m.objN 0x7F01 1 ≠ 17 ∧ m.objN 0x7F01 1 ≠ 22 ∧ m.objN 0x7F01 1 < 25) :
    m.startInject c = .ok ((m.arm m.injection).injectNow (m.objN 0x7F01 1) (m.objN 0x7F01 2) (m.objN 0x7F01 4)) := by
  obtain ⟨hvalue, hport, hlast⟩ := hpoint
  unfold Mach.startInject
  extract_lets q i v again a m1 m2
  rw [if_neg (fun h => by omega), if_neg (by simp [hallowed]), if_neg (Nat.not_le.2 hinst), if_neg (fun h => hport h.1),
    if_neg (fun h => hvalue h.1), if_neg (fun h => hvalue h.1)]
  rfl

/-- The window is shut, or the point has no such place. -/
theorem startInject_refused (hpoint : m.objN 0x7F01 1 < 25)
    (h : m.injectionAllowed c = false ∨ pointInstances (m.objN 0x7F01 1) ≤ m.objN 0x7F01 2) : ∃ a, m.startInject c = .error a := by
  unfold Mach.startInject
  extract_lets q i v
  rw [if_neg (fun h => by omega)]
  by_cases hallowed : m.injectionAllowed c = true
  · rw [if_neg (by simp [hallowed]), if_pos (h.resolve_left (by simp [hallowed]))]
    exact ⟨_, rfl⟩
  · exact ⟨_, if_pos (by simpa using hallowed)⟩

theorem arm_test (m : Mach) (a : Inject) : (m.arm a).test = { m.test with armed := some a } := by
  rw [Mach.arm, Mach.raise_test, Mach.bump_test]
  rfl

theorem arm_state (m : Mach) (a : Inject) : (m.arm a).objN 0x7F01 6 = if a.periodic then 2 else 1 := by
  rw [Mach.arm, Mach.raise_objN _ _ _ _ (by decide), Mach.bump_objN_ne _ _ _ _ _ (by decide), Mach.setN_objN_same]

theorem arm_testRunning (m : Mach) (a : Inject) : (m.arm a).testRunning = m.testRunning := by
  rw [Mach.testRunning, Mach.testRunning, Mach.arm, Mach.raise_objN _ _ _ _ (by decide), Mach.bump_objN_ne _ _ _ _ _ (by decide),
    Mach.setN_objN_ne _ _ _ _ _ (by decide)]
  rfl

theorem objMax_injections : objMax 0x7F01 7 = 4294967295 := by decide +kernel

theorem arm_count {a : Inject} (h : m.objN 0x7F01 7 < 4294967295) : (m.arm a).objN 0x7F01 7 = m.objN 0x7F01 7 + 1 := by
  have hsame : ((m.onTest (fun t => { t with armed := some a })).setN 0x7F01 6 (if a.periodic then 2 else 1)).objN 0x7F01 7 = m.objN 0x7F01 7 :=
    Mach.setN_objN_ne _ _ _ _ _ (by decide)
  rw [Mach.arm, Mach.raise_objN _ _ _ _ (by decide), Mach.bump_objN_same _ _ _ _ _ (by rw [hsame, objMax_injections]; exact h), hsame]

theorem testStruck_idle (h : m.testRunning = false) : m.testStruck = m := if_pos (.inl (by rw [h]; rfl))

/-- A point whose detector has yet to meet the injection; that of point 24 is a running test. -/
theorem injectNow_waits {q : Nat} (hq : q = 5 ∨ q = 9 ∨ q = 18 ∨ q = 24) (h : m.testRunning = false) (i v : Nat) :
    m.injectNow q i v = .of m := by
  obtain rfl | rfl | rfl | rfl := hq
  case inr.inr.inr => exact congrArg Eff.of (testStruck_idle h)
  all_goals rfl

/-- What has acted once and is not to act again is no longer armed. -/
theorem acted_once {a : Inject} (harmed : m.test.armed = some a) (honce : a.periodic = false) :
    m.acted = ({ m with test := { m.test with armed := none } } : Mach).setN 0x7F01 6 0 := by
  simp only [Mach.acted, harmed, honce, Bool.false_eq_true, ↓reduceIte]

/-- An injection that lasts for a time and does not repeat: it is the newest of those that last, and armed no longer. -/
theorem inject_once {a : Inject} (harmed : m.test.armed = some a) (honce : a.periodic = false) (q i v time : Nat) :
    ∃ l, m.inject q i v time =
      (m.onTest fun t => { t with armed := none, timed := (q, i, v, m.now + time) :: l }).setN 0x7F01 6 0 :=
  ⟨_, acted_once (m := m.onTest _) harmed honce⟩

theorem stopInject_armed (h : m.test.armed.isSome = true) :
    m.stopInject = .ok ((m.onTest (fun t => { t with armed := none })).setN 0x7F01 6 0) := by
  obtain ⟨a, ha⟩ := Option.isSome_iff_exists.mp h
  simp only [Mach.stopInject, ha]

end Injections

/-- Settles O58: the window's writes and its end, and injections by what arms, stops and repeats them. -/
theorem injectionNeedsItsWindow : Obligations.InjectionNeedsItsWindow := by
  unfold Obligations.InjectionNeedsItsWindow
  refine ⟨?opens, ?closes, ?expires, ?waits, ?core, ?refused, ?stops, ?again⟩
  case opens =>
    intro s w p m h hvalue hn
    obtain ⟨hopen, hsince⟩ := openWindow_opens m p.s.id
    rw [Runs, exec_windowOpen hvalue]
    refine h.runs_act (by omega) (h.run_window.trans (congrArg act (if_pos hn))) fun a ha => ?_
    exact ⟨(ha.congr (Mach.objB · 0x7F00 2)).trans hopen, (ha.congr (·.test.openedAt)).trans hsince⟩
  case closes =>
    intro s w p m h hvalue hn hopen
    obtain ⟨hshut, harmed, hstate, hnewest⟩ := closeWindow_closes hopen p.s.id
    rw [Runs, exec_windowClose hvalue]
    refine h.runs_act (by omega) (h.run_window.trans (congrArg act (if_neg (by omega)))) fun a ha => ?_
    exact ⟨(ha.congr (Mach.objB · 0x7F00 2)).trans hshut, (ha.congr (·.test.armed)).trans harmed,
      (ha.congr (Mach.objN · 0x7F01 6)).trans hstate, (ha.congr (·.jrn.newest)).trans hnewest⟩
  case expires =>
    intro s hopen hdue
    obtain ⟨hshut, harmed, -, hnewest⟩ := closeWindow_closes hopen 0
    refine runs_of_lift (f := fun _ => windowExpiry) ?_
    rw [windowExpiry, if_pos hdue]
    exact ⟨hshut, harmed, hnewest⟩
  case waits =>
    intro s q w p m h hvalue hn hpoint hq hidle hallowed hinst hcount
    subst hpoint
    have hrun : p.run m = act (m.arm m.injection) := by
      rw [h.run_injection, if_pos hn, startInject_ok hallowed hinst (by omega), injectNow_waits hq ((arm_testRunning ..).trans hidle)]
      rfl
    rw [Runs, exec_injectionStart hvalue]
    refine h.runs_act (by omega) hrun fun a ha => ⟨?_, (ha.congr (Mach.objN · 0x7F01 7)).trans (arm_count hcount), ?_⟩
    · refine (ha.congr (Mach.armedAt · (m.objN 0x7F01 1) (m.objN 0x7F01 2))).trans ?_
      simp [Mach.armedAt, arm_test, Mach.injection]
    · refine (ha.congr (Mach.objN · 0x7F01 6)).trans ((arm_state ..).trans ?_)
      have hperiodic : m.injection.periodic = m.objB 0x7F01 3 := by
        obtain hq | hq | hq | hq := hq <;> simp [Mach.injection, hq]
      rw [hperiodic]
  case core =>
    intro s w p m h hvalue hn hpoint hallowed hinst honce
    have hrun : p.run m = act ((m.arm m.injection).inject 20 (m.objN 0x7F01 2) 0 (ms 50)) := by
      rw [h.run_injection, if_pos hn, startInject_ok hallowed (by rw [hpoint]; exact hinst) (by omega), hpoint]
      rfl
    have hperiodic : m.injection.periodic = false := by simp [Mach.injection, honce]
    have hnow : (m.arm m.injection).now = m.now := by rw [Mach.now, Mach.arm, Mach.raise_clk, Mach.bump_clk]; rfl
    obtain ⟨l, hacted⟩ := inject_once (congrArg SelfTest.armed (arm_test m m.injection)) hperiodic 20 (m.objN 0x7F01 2) 0 (ms 50)
    rw [Runs, exec_injectionStart hvalue]
    refine h.runs_act (by omega) (hrun.trans (congrArg act hacted)) fun a ha => ?_
    refine ⟨(ha.congr (·.test.timed.head?)).trans ?_, ha.congr (·.test.armed), (ha.congr (Mach.objN · 0x7F01 6)).trans (Mach.setN_objN_same ..)⟩
    rw [Mach.setN_test, hnow]
    rfl
  case refused =>
    intro s q w p m h hvalue hn hpoint hq hcase
    subst hpoint
    obtain ⟨a, hrefused⟩ := startInject_refused hq hcase
    rw [Runs, exec_injectionStart hvalue]
    exact h.runs_unchanged (by omega) (h.run_injection.trans ((if_pos hn).trans hrefused))
  case stops =>
    intro s w p m h hvalue hn harmed
    have hrun := h.run_injection.trans ((if_neg (by omega)).trans (congrArg actM (stopInject_armed harmed)))
    rw [Runs, exec_injectionStop hvalue]
    refine h.runs_act (by omega) hrun fun a ha => ⟨ha.congr (·.test.armed), ?_⟩
    exact (ha.congr (Mach.objN · 0x7F01 6)).trans (Mach.setN_objN_same ..)
  case again =>
    intro s a harmed hperiodic hpoint hdue hallowed hcount
    have heff : injectionPeriod s.ctx s.m =
        .of ((s.m.onTest (fun t => { t with armed := some { a with at_ := s.m.now, live := true, slot := s.m.slotsUsed } })).bump 0x7F01 7) := by
      simp only [injectionPeriod, harmed]
      rw [if_neg (by simp [hperiodic, hallowed, Nat.not_lt.2 hdue]), hpoint]
      rfl
    refine runs_of_eff (f := injectionPeriod) heff ⟨by rw [Mach.bump_test]; rfl, ?_⟩
    exact Mach.bump_objN_same _ _ _ _ _ (by rw [objMax_injections]; exact hcount)

end Sys2Proof.Machine

/-! What a flash write leaves alone, the steps of settings, and O54 (R498 to R500, R502, R521). -/

namespace Sys2Proof.Machine

/-! ### Flash writes -/

/-- Keys that are no count of events and not the state of injections. -/
def Unflashed (K : Nat → Prop) : Prop := ∀ k, K k → k / 256 ≠ 0x1202 ∧ k ≠ okey 0x7F01 6

/-- A view that sees nothing of what a flash write changes. -/
def Unwritten {α : Type} (v : Mach → α) : Prop := ∀ (m : Mach) (od koa jrn out free erases flashFailed flashRetry armed),
  v { m with od := od, koa := koa, jrn := jrn, out := out, free := free, test := { m.test with
    erases := erases, flashFailed := flashFailed, flashRetry := flashRetry, armed := armed } } = v m

section Flash
variable {α : Type} {v : Mach → α} {K : Nat → Prop} {a m : Mach} (hv : Unwritten v) (hK : Unflashed K)
include hv hK

theorem Stays.flashEvent (h : Stays v K a m) {code inst : Nat} {d : List (Nat × Nat)} (hcode : code < 0x100000) :
    Stays v K a (m.raise code inst d) :=
  h.record (fun k hk => by have := (hK k hk).1; rw [okey]; omega) (hv m ..)

theorem Stays.flashActed (h : Stays v K a m) : Stays v K a m.acted := by
  unfold Mach.acted
  cases m.test.armed with
  | none => exact h
  | some x =>
    refine .ite (fun _ => h.keep (hv m ..) rfl) fun _ => .set (h.keep (hv m ..) (by rfl)) (fun k hk => (hK k hk).2) (hv _ ..)

/-- A flash write changes the erases and failures of sectors, the injection that it meets, and what an event changes. -/
theorem Stays.flashWrite (h : Stays v K a m) : Stays v K a m.flashWrite := by
  unfold Mach.flashWrite
  extract_lets free fails sector n m1
  have h1 : Stays v K a m1 := h.keep (hv m ..) (by rfl)
  have hpass (retry : Nat) : Stays v K a (m1.passFlash sector retry) := .flashEvent hv hK (h1.keep (hv m1 ..) (by rfl)) (by decide)
  exact .ite (fun _ => (hpass 1).flashActed hv hK) fun _ => .ite (fun _ => hpass 0) (fun _ => h1)

end Flash

theorem calib_unwritten : Unwritten Mach.calib := fun _ _ _ _ _ _ _ _ _ _ => rfl

theorem flashWrite_calib (m : Mach) : m.flashWrite.calib = m.calib :=
  ((Stays.refl Mach.calib (fun _ => False) m).flashWrite calib_unwritten fun _ h => h.elim).view

/-! ### One step of the settings (R500) -/

section Taps
variable {m : Mach} {k : Nat} {l : List Int} {held : List Nat}

/-- The settings that move. -/
theorem settings_moving (h : m.calib.moving = [(k, l)]) : m.settings k = l := by
  simp [Mach.settings, h]

/-- The one record that moves waits, because its step is held or a pass tests it. -/
theorem tapStep_waits (hmoving : m.calib.moving = [(k, l)]) (hwaits : k ∈ held ∨ m.testing = some k) (hl : l ≠ m.targets k) :
    (tapStep [] held m).calib.moving = [(k, l)] := by
  unfold tapStep
  refine iteInduction (motive := fun n : Mach => n.calib.moving = [(k, l)]) (fun _ => hmoving) fun _ => ?_
  extract_lets m1 held' lanes keys bound step new m2
  have hkeys : keys = [k] := by
    have hmoving1 : m1.calib.moving = [(k, l)] := hmoving
    simp [keys, hmoving1, lanes, List.eraseDups_cons]
  have hstep : step k = l := by
    refine Eq.trans (if_pos ?_) (settings_moving (m := m1) hmoving)
    exact hwaits.imp (fun h => by simp [held', h]) id
  have hdiffers : l ≠ m1.targets k := hl
  show new.filter (fun p => p.2 != m1.targets p.1) = [(k, l)]
  simp [new, hkeys, hstep, hdiffers]

/-- The one record that moves takes a step toward its target, where it is of one value and nothing holds it. -/
theorem tapStep_steps {v e : Int} (hpower : m.power ≤ 2) (hsince : m.calib.steppedAt.any (fun t => m.now < t + us 1) = false)
    (hitem : 2 ≤ k / 1024) (hmoving : m.calib.moving = [(k, [v])]) (htarget : m.targets k = [e]) (hheld : k ∉ held)
    (hawake : k / 1024 = 2 → (m.chan (k % 1024)).selfRefresh = 0) (huntested : m.testing ≠ some k) :
    (tapStep [] held m).settings k = [stepTo v e] := by
  unfold tapStep
  rw [if_neg (by simp only [hsince]; simp; omega)]
  extract_lets m1 held' lanes keys bound step new m2
  have hmoving1 : m1.calib.moving = [(k, [v])] := hmoving
  have hkeys : keys = [k] := by simp [keys, hmoving1, lanes, List.eraseDups_cons]
  have hfree : ¬ (held'.contains k = true ∨ m1.testing = some k) := by
    rintro (h | h)
    · simp only [held', List.contains_iff_mem, List.mem_append, List.mem_filterMap, hheld, false_or] at h
      obtain ⟨p, hp, hsleeps⟩ := h
      have hp36 : p < 36 := by simpa [upTo] using hp
      have hchan : m1.chan p = m.chan p := rfl
      by_cases hzero : (m.chan p).selfRefresh = 0
      · simp [hchan, hzero] at hsleeps
      · have hk : calKey 2 p = k := by simpa [hchan, hzero] using hsleeps
        rw [calKey] at hk
        exact hzero (by rw [show p = k % 1024 by omega]; exact hawake (by omega))
    · exact huntested h
  have hstep : step k = [stepTo v e] := by
    refine (if_neg hfree).trans ((if_neg (by omega)).trans ((if_neg (by omega)).trans ?_))
    rw [show m1.targets k = [e] from htarget, settings_moving hmoving1]
    rfl
  have htarget2 (b : List (Nat × List Int)) : (m1.onCalib fun x => { x with moving := b }).targets k = [e] := htarget
  have hnew : new = [(k, [stepTo v e])] := by simp [new, hkeys, hstep]
  show m2.settings k = _
  by_cases hreached : stepTo v e = e
  · have hnone : m2.calib.moving = [] := by
      show new.filter (fun p => p.2 != m1.targets p.1) = []
      simp [hnew, show m1.targets k = [e] from htarget, hreached]
    rw [Mach.settings, hnone, hreached]
    exact htarget2 _
  · refine settings_moving (m := m2) ?_
    show new.filter (fun p => p.2 != m1.targets p.1) = _
    simp [hnew, show m1.targets k = [e] from htarget, hreached]

/-- No two steps lie within 1 µs. -/
theorem tapStep_early {u : Nat} (hstepped : m.calib.steppedAt = some u) (hearly : m.now < u + us 1) (adapt : List (Nat × List Int)) :
    tapStep adapt held m = m := by
  have hsoon : m.calib.steppedAt.any (fun t => m.now < t + us 1) = true := by
    rw [hstepped, Option.any_some, decide_eq_true_eq]
    exact hearly
  unfold tapStep
  rw [if_pos (.inr hsoon)]

/-- Of the sync outputs, only one that moves and whose edge is near is held. -/
theorem settingsStep_single (h : m.calib.moving = [(k, l)]) (held : List Nat) :
    settingsStep [] held m = tapStep [] (held ++ (((upTo 8).filter (fun o => k = calKey 3 o)).filter m.edgeNear).map (calKey 3)) m := by
  simp [settingsStep, h]

end Taps

/-! ### The latch of the values in force (R499) -/

theorem latchTemps_calib (m : Mach) : m.latchTemps.calib.latchedAt = m.now ∧
    m.latchTemps.calib.temps = (upTo 7).map (fun k => m.meanOf (tempSensors k) (m.calib.temps.getD k 0)) := by
  unfold Mach.latchTemps
  extract_lets new m1
  refine iteInduction (motive := fun n : Mach => n.calib.latchedAt = m.now ∧ n.calib.temps = new) (fun h => ⟨rfl, h.1.symm⟩) (fun _ => ⟨rfl, rfl⟩)

/-! ### CALIBRATION_SLOT_CLEAR (R498, R502) -/

section Clear
variable {s : State} {w : WriteReq} {p : Put} {m : Mach} {k i : Nat}

theorem Reaches.run_slotClear (h : Reaches s 0x7808 5 w p m) : p.run m = actM (m.clearSlot p.s.calKey (p.s.own_ 0x7808 3).toNat) := by
  obtain ⟨-, hix, hsub, -, -⟩ := h.put
  simp [Put.run, Put.sessions, Put.supply, Put.times, Put.ports, Put.schedule, Put.layers, Put.observers, Put.memory, Put.links, Put.panel,
    Put.tests, hix, hsub]

/-- The slots of what is calibrated, whose slots are written. -/
theorem find_putSlots (t : List (Nat × List (Option CalSlot))) (l : List (Option CalSlot)) :
    (putSlots t k l).find? (fun s => s.1 = k) = if l.all Option.isNone then none else some (k, l) := by
  unfold putSlots
  split
  · rw [List.find?_eq_none]
    intro x hx
    simpa using (List.mem_filter.mp hx).2
  · simp

theorem calSlots_setSlots (m : Mach) (l : List (Option CalSlot)) :
    (m.setSlots k l).calSlots k = if l.all Option.isNone then List.replicate 5 none else l := by
  simp only [Mach.calSlots, Mach.setSlots, Mach.onCalib, find_putSlots]
  by_cases h : l.all Option.isNone = true <;> simp [h]

theorem calSlots_congr {a b : Mach} (h : a.calib.sets = b.calib.sets) (k : Nat) : a.calSlots k = b.calSlots k := by
  simp only [Mach.calSlots, h]

theorem calSlots_setSlots_none (m : Mach) (i : Nat) : ((m.setSlots k (setAt (m.calSlots k) i none)).calSlots k).getD i none = none := by
  rw [calSlots_setSlots]
  split
  · rw [List.getD_eq_getElem?_getD, List.getElem?_replicate]
    split <;> rfl
  · simp only [setAt, List.getD_eq_getElem?_getD, List.getElem?_set]
    split
    · split <;> rfl
    · contradiction

end Clear

/-- Settles O54: the steps by what holds them, the latch, and the clearing of a slot. -/
theorem calibrationSettingsMoveStepwise : Obligations.CalibrationSettingsMoveStepwise := by
  unfold Obligations.CalibrationSettingsMoveStepwise
  refine ⟨?steps, ?early, ?edge, ?held, ?tested, ?latch, ?clear, ?pending⟩
  case steps =>
    intro s k v e hpower hsince hitem hawake hedge huntested hmoving hforce hdiffers
    have htarget : s.m.targets k = [e] := (if_neg (by omega)).trans hforce
    have hheld : k ∉ [] ++ (((upTo 8).filter (fun o => k = calKey 3 o)).filter s.m.edgeNear).map (calKey 3) := by
      simp only [List.nil_append, List.mem_map, List.mem_filter, decide_eq_true_eq, not_exists, not_and, upTo, List.mem_range]
      rintro o ⟨⟨ho, hk⟩, hnear⟩ -
      rw [calKey] at hk
      have := hedge (by omega)
      rw [show k % 1024 = o by omega, hnear] at this
      cases this
    refine runs_of_lift (f := fun _ => settingsStep [] []) ?_
    rw [settingsStep_single hmoving, tapStep_steps hpower hsince hitem hmoving htarget hheld hawake huntested, stepTo]
    congr 1
    split
    · rfl
    · rw [if_pos (by omega)]
  case early =>
    intro s a h u hstepped hearly
    refine runs_of_lift (f := fun _ => settingsStep a h) ?_
    exact congrArg (fun n => ({ s with m := n } : State)) (tapStep_early hstepped hearly _)
  case edge =>
    intro s a h o l ho hmoving hnear hdiffers ha
    subst ha
    refine runs_of_lift (f := fun _ => settingsStep [] h) ?_
    rw [settingsStep_single hmoving]
    refine tapStep_waits hmoving (.inl (List.mem_append_right _ ?_)) hdiffers
    simp only [List.mem_map, List.mem_filter, decide_eq_true_eq, upTo, List.mem_range]
    exact ⟨o, ⟨⟨ho, rfl⟩, hnear⟩, rfl⟩
  case held =>
    intro s k l hpower hmoving hdiffers
    refine runs_of_lift (f := fun _ => settingsStep [] [k]) ?_
    rw [settingsStep_single hmoving]
    exact tapStep_waits hmoving (.inl (by simp)) hdiffers
  case tested =>
    intro s k l hpower hmoving htesting hdiffers
    refine runs_of_lift (f := fun _ => settingsStep [] []) ?_
    rw [settingsStep_single hmoving]
    exact tapStep_waits hmoving (.inr htesting) hdiffers
  case latch =>
    intro s hstopped hpower hstep hdue
    refine runs_of_lift (f := fun _ => valuesInForcePeriod) ?_
    rw [valuesInForcePeriod, if_pos ⟨hstopped, hpower, hstep, hdue⟩]
    exact latchTemps_calib s.m
  case clear =>
    intro s k w p m h hk hstate hslot hlength
    have hrule : m.clearSlot k (p.s.own_ 0x7808 3).toNat =
        .ok (m.keepValues k fun n => n.setSlots k (setAt (n.calSlots k) (p.s.own_ 0x7808 3).toNat none)).flashWrite :=
      if_neg fun hpending => hstate hpending.1
    subst hk
    refine h.runs_act (by omega) (h.run_slotClear.trans (congrArg actM hrule)) fun a ha => ?_
    have hslots : a.calSlots p.s.calKey = (m.setSlots p.s.calKey (setAt (m.calSlots p.s.calKey) (p.s.own_ 0x7808 3).toNat none)).calSlots p.s.calKey :=
      calSlots_congr ((ha.congr (·.calib.sets)).trans (congrArg Calib.sets (flashWrite_calib _))) _
    rw [hslots]
    exact calSlots_setSlots_none m _
  case pending =>
    intro s w p m h hstate hkey
    obtain ⟨t, hnext, hsame, -⟩ := h.runs_unchanged (by omega) (h.run_slotClear.trans (congrArg actM (if_pos ⟨hstate, hkey⟩)))
    exact ⟨t, hnext, hsame⟩

end Sys2Proof.Machine

/-! The demands of the line and the riser, and O43 (R437, R443). -/

namespace Sys2Proof.Machine

/-! ### One stage's demand -/

/-- What a demand holds of a stage: since when its source lies below the entry threshold, whether it demands the stage, and since when it
lies at or above the exit threshold. -/
structure StageDemand where
  below : Option Nat
  on : Bool
  above : Option Nat

/-- A demand's part on a stage. -/
def Demand.at_ (d : Demand) (k : Nat) : StageDemand := ⟨d.below.getD k none, d.on.getD k false, d.above.getD k none⟩

/-- A demand tells of each of the seven stages. -/
def Demand.Full (d : Demand) : Prop := d.below.length = 7 ∧ d.above.length = 7 ∧ d.on.length = 7

/-- What `Demand.update` makes of the stage's part. -/
def StageDemand.next (x : StageDemand) (now v entry exit_ : Nat) (enter : Nat → Bool) : StageDemand :=
  let below := if v < entry then some (x.below.getD now) else none
  let above := if exit_ ≠ 0 ∧ exit_ ≤ v then some (x.above.getD now) else none
  ⟨below, match below, above with
    | some t, _ => x.on || (enter t && x.below.isSome)
    | none, some t => x.on && decide (now < t + sec 2)
    | none, none => x.on, above⟩

section Updates
variable {d : Demand} {now v entry exit_ : Nat} {enter : Nat → Bool}

theorem getD_setAt_same {α : Type} {l : List α} {i : Nat} (h : i < l.length) (x y : α) : (setAt l i x).getD i y = x := by
  simp [setAt, List.getD_eq_getElem?_getD, h]

theorem getD_setAt_ne {α : Type} {l : List α} {i j : Nat} (h : i ≠ j) (x y : α) : (setAt l i x).getD j y = l.getD j y := by
  simp [setAt, List.getD_eq_getElem?_getD, h]

theorem Demand.Full.update (h : d.Full) (k : Nat) : (d.update now k v entry exit_ enter).Full := by
  simpa [Demand.Full, Demand.update, setAt] using h

theorem Demand.update_same (h : d.Full) {k : Nat} (hk : k < 7) :
    (d.update now k v entry exit_ enter).at_ k = (d.at_ k).next now v entry exit_ enter := by
  obtain ⟨hbelow, habove, hon⟩ := h
  simp only [Demand.at_, Demand.update, getD_setAt_same (hbelow ▸ hk), getD_setAt_same (habove ▸ hk), getD_setAt_same (hon ▸ hk)]
  rfl

theorem Demand.update_ne {j k : Nat} (h : j ≠ k) : (d.update now j v entry exit_ enter).at_ k = d.at_ k := by
  simp only [Demand.at_, Demand.update, getD_setAt_ne h]

/-- Updates of other stages leave a stage's part alone. -/
theorem Demand.updates_ne {k : Nat} (l : List Nat) (en ex : Nat → Nat) (w : Nat → Nat → Bool) (h : k ∉ l) (d : Demand) :
    (l.foldl (fun d j => d.update now j v (en j) (ex j) (w j)) d).at_ k = d.at_ k := by
  induction l generalizing d with
  | nil => rfl
  | cons j l ih =>
    rw [List.mem_cons, not_or] at h
    exact (ih h.2 _).trans (Demand.update_ne (Ne.symm h.1))

/-- Of updates of several stages, each makes its own stage's part. -/
theorem Demand.updates_same {k : Nat} (l : List Nat) (en ex : Nat → Nat) (w : Nat → Nat → Bool) (hnodup : l.Nodup) (h : k ∈ l) (hk : k < 7)
    (hd : d.Full) : (l.foldl (fun d j => d.update now j v (en j) (ex j) (w j)) d).at_ k = (d.at_ k).next now v (en k) (ex k) (w k) := by
  induction l generalizing d with
  | nil => cases h
  | cons j l ih =>
    obtain ⟨hj, hl⟩ := List.nodup_cons.mp hnodup
    by_cases hjk : j = k
    · subst hjk
      exact (Demand.updates_ne l en ex w hj _).trans (Demand.update_same hd hk)
    · have hmem := (List.mem_cons.mp h).resolve_left (Ne.symm hjk)
      exact (ih hl hmem (hd.update j)).trans (by rw [Demand.update_ne hjk])

end Updates

/-! ### The parts of a stage after a value -/

section Parts
variable {x : StageDemand} {now v entry exit_ : Nat} {enter : Nat → Bool}

/-- A value below the entry threshold that is not the first, its dwell over. -/
theorem StageDemand.next_enters {t : Nat} (hv : v < entry) (hbelow : x.below = some t) (henter : enter t = true) :
    (x.next now v entry exit_ enter).on = true := by
  simp [StageDemand.next, hv, hbelow, henter]

/-- A first value below the entry threshold. -/
theorem StageDemand.next_first (hv : v < entry) (hbelow : x.below = none) (hon : x.on = false) :
    (x.next now v entry exit_ enter).on = false ∧ (x.next now v entry exit_ enter).below.isSome = true := by
  simp [StageDemand.next, hv, hbelow, hon]

/-- 2 s at or above the exit threshold. -/
theorem StageDemand.next_leaves {t : Nat} (hv : exit_ ≤ v) (hexit : exit_ ≠ 0) (hentry : entry ≤ exit_) (habove : x.above = some t)
    (hdwell : t + sec 2 ≤ now) : (x.next now v entry exit_ enter).on = false := by
  have hnot : ¬ v < entry := by omega
  simp only [StageDemand.next, hnot, hv, hexit, habove, ↓reduceIte, ne_eq, not_false_eq_true, and_self, Option.getD_some,
    decide_eq_false (Nat.not_lt.2 hdwell), Bool.and_false]

/-- A stage that is not demanded stays so at or above its entry threshold. -/
theorem StageDemand.next_off (hv : entry ≤ v) (hon : x.on = false) : (x.next now v entry exit_ enter).on = false := by
  have hnot : ¬ v < entry := by omega
  by_cases hexit : exit_ ≠ 0 ∧ exit_ ≤ v <;> simp [StageDemand.next, hnot, hon, hexit]

end Parts

/-! ### Half-cycles and samples -/

section Samples
variable {d : Demand} {now v k : Nat}

theorem upTo_seven : (upTo 7).Nodup ∧ ∀ k < 7, k ∈ upTo 7 := by decide

theorem Demand.line_at (hd : d.Full) (hk : k < 7) : (d.line now v).at_ k =
    (d.at_ k).next now v (stageThresholds.getD k (0, 0, 0, 0)).1 (stageThresholds.getD k (0, 0, 0, 0)).2.1 (fun _ => true) := by
  unfold Demand.line Machine.each
  exact Demand.updates_same (upTo 7) (fun k => (stageThresholds.getD k (0, 0, 0, 0)).1) (fun k => (stageThresholds.getD k (0, 0, 0, 0)).2.1)
    (fun _ _ => true) upTo_seven.1 (upTo_seven.2 k hk) hk hd

theorem Demand.riser_at (hd : d.Full) (hk : k < 7) : (d.riser now v).at_ k =
    (d.at_ k).next now v (stageThresholds.getD k (0, 0, 0, 0)).2.2.1 (stageThresholds.getD k (0, 0, 0, 0)).2.2.2
      (fun since => decide (since + (if k = 6 then us 100 else ms 2) ≤ now)) := by
  unfold Demand.riser Machine.each
  exact Demand.updates_same (upTo 7) (fun k => (stageThresholds.getD k (0, 0, 0, 0)).2.2.1) (fun k => (stageThresholds.getD k (0, 0, 0, 0)).2.2.2)
    (fun k since => decide (since + (if k = 6 then us 100 else ms 2) ≤ now)) upTo_seven.1 (upTo_seven.2 k hk) hk hd

/-- Each of the stages S1 to S6 has exit thresholds, no lower than its entry thresholds. -/
theorem thresholds_ordered : ∀ k < 6, (stageThresholds.getD k (0, 0, 0, 0)).1 ≤ (stageThresholds.getD k (0, 0, 0, 0)).2.1 ∧
    (stageThresholds.getD k (0, 0, 0, 0)).2.1 ≠ 0 ∧ (stageThresholds.getD k (0, 0, 0, 0)).2.2.1 ≤ (stageThresholds.getD k (0, 0, 0, 0)).2.2.2 ∧
    (stageThresholds.getD k (0, 0, 0, 0)).2.2.2 ≠ 0 := by decide

/-- The block after a half-cycle that makes the line demand what `d` says. -/
def Mach.halfCycled (m : Mach) (v f : Nat) : Mach :=
  let d := m.power_.line.line m.now v
  let m := m.onPower (fun x => { x with
    line := d
    each := if 3050 < v then x.each + 1 else 0
    goodAt := if 850 ≤ v then some (x.goodAt.getD m.now) else none })
  m.sets 0x2000 [(1, v), (2, f), (7, (d.stage : Nat)), (0x0B, (availableOutput v (m.objN 0x2000 0x0B) : Nat))]

theorem halfCycled_line (m : Mach) (v f : Nat) : (m.halfCycled v f).power_.line = m.power_.line.line m.now v := by
  unfold Mach.halfCycled
  extract_lets d m1
  rw [Mach.sets_power_]
  rfl

theorem halfCycled_objects (m : Mach) (v f : Nat) : (m.halfCycled v f).objN 0x2000 1 = v ∧ (m.halfCycled v f).objN 0x2000 2 = f := by
  unfold Mach.halfCycled
  extract_lets d m1
  simp only [Mach.sets, List.foldl_cons, List.foldl_nil]
  constructor
  · iterate 3 rw [Mach.set_objN_ne _ _ _ _ _ (by decide)]
    exact Mach.set_objN_same ..
  · iterate 2 rw [Mach.set_objN_ne _ _ _ _ _ (by decide)]
    exact Mach.set_objN_same ..

/-- A half-cycle with no injected voltage, which does not make the line demand S7. -/
theorem lineHalfCycle_quiet {m : Mach} {v f : Nat} (hforced : m.forced 17 0 = none) (hv : 580 ≤ v) (hd : m.power_.line.Full)
    (hon : m.power_.line.on.getD 6 false = false) : lineHalfCycle v f m = .of (m.halfCycled v f) := by
  have hoff : (m.power_.line.line m.now v).on.getD 6 false = false :=
    (congrArg StageDemand.on (Demand.line_at hd (by decide : 6 < 7))).trans (StageDemand.next_off hv hon)
  unfold lineHalfCycle
  rw [hforced]
  exact if_neg (by rw [hoff]; exact Bool.false_ne_true)

/-- The block after a sample of the riser. -/
def Mach.sampled (m : Mach) (v : Nat) : Mach :=
  let d := m.power_.riser.riser m.now v
  (m.onPower (fun x => { x with riser := d })).sets 0x2000 [(3, v), (8, (d.stage : Nat))]

theorem sampled_riser (m : Mach) (v : Nat) : (m.sampled v).power_.riser = m.power_.riser.riser m.now v := by
  unfold Mach.sampled
  rw [Mach.sets_power_]
  rfl

theorem sampled_object (m : Mach) (v : Nat) : (m.sampled v).objN 0x2000 3 = v := by
  simp only [Mach.sampled, Mach.sets, List.foldl_cons, List.foldl_nil]
  rw [Mach.set_objN_ne _ _ _ _ _ (by decide)]
  exact Mach.set_objN_same ..

/-- A sample that does not make the riser demand S7. -/
theorem riserSample_quiet {m : Mach} {v : Nat} (hv : 3100 ≤ v) (hd : m.power_.riser.Full) (hon : m.power_.riser.on.getD 6 false = false) :
    riserSample v m = .of (m.sampled v) := by
  have hoff : (m.power_.riser.riser m.now v).on.getD 6 false = false :=
    (congrArg StageDemand.on (Demand.riser_at hd (by decide : 6 < 7))).trans (StageDemand.next_off hv hon)
  exact if_neg (by rw [hoff]; exact Bool.false_ne_true)

end Samples

/-- Settles O43: each stage's part of a demand by the thresholds of R443. -/
theorem stageDemandsOfLineAndRiser : Obligations.StageDemandsOfLineAndRiser := by
  unfold Obligations.StageDemandsOfLineAndRiser
  refine ⟨?lineEnters, ?lineFirst, ?lineLeaves, ?riserEnters, ?riserFirst, ?riserLeaves⟩
  case lineEnters =>
    intro s v f k hforced hv hk _ _ hbelow habove hon hs7 hentry hsince
    have hd : s.m.power_.line.Full := ⟨hbelow, habove, hon⟩
    obtain ⟨t, ht⟩ := Option.ne_none_iff_exists'.mp hsince
    obtain ⟨hrms, hfrequency⟩ := halfCycled_objects s.m v f
    refine runs_of_eff (f := fun _ => lineHalfCycle v f) (lineHalfCycle_quiet hforced hv hd hs7) ⟨?_, hrms, hfrequency⟩
    rw [halfCycled_line]
    exact (congrArg StageDemand.on (Demand.line_at hd (by omega))).trans (StageDemand.next_enters hentry ht rfl)
  case lineFirst =>
    intro s v f k hforced hv hk hbelow habove hon hs7 hentry hsince hoff
    have hd : s.m.power_.line.Full := ⟨hbelow, habove, hon⟩
    refine runs_of_eff (f := fun _ => lineHalfCycle v f) (lineHalfCycle_quiet hforced hv hd hs7) ?_
    rw [halfCycled_line]
    obtain ⟨hstays, hstarts⟩ := StageDemand.next_first (x := s.m.power_.line.at_ k) (now := s.m.now) (enter := fun _ => true)
      (exit_ := (stageThresholds.getD k (0, 0, 0, 0)).2.1) hentry hsince hoff
    have hpart := Demand.line_at (now := s.m.now) (v := v) hd (show k < 7 by omega)
    exact ⟨(congrArg StageDemand.on hpart).trans hstays, (congrArg (fun x => x.below.isSome) hpart).trans hstarts⟩
  case lineLeaves =>
    intro s v f k since hforced hv hk hbelow habove hon hs7 hexit hsince hdwell
    have hd : s.m.power_.line.Full := ⟨hbelow, habove, hon⟩
    obtain ⟨horder, hsome, -⟩ := thresholds_ordered k hk
    refine runs_of_eff (f := fun _ => lineHalfCycle v f) (lineHalfCycle_quiet hforced hv hd hs7) ?_
    rw [halfCycled_line]
    exact (congrArg StageDemand.on (Demand.line_at hd (by omega))).trans (StageDemand.next_leaves hexit hsome horder hsince hdwell)
  case riserEnters =>
    intro s v k since hv hk _ hbelow habove hon hs7 hentry hsince hdwell
    have hd : s.m.power_.riser.Full := ⟨hbelow, habove, hon⟩
    refine runs_of_eff (f := fun _ => riserSample v) (riserSample_quiet hv hd hs7) ⟨?_, sampled_object ..⟩
    rw [sampled_riser]
    refine (congrArg StageDemand.on (Demand.riser_at hd (by omega))).trans (StageDemand.next_enters hentry hsince ?_)
    rw [if_neg (by omega), decide_eq_true_eq]
    exact hdwell
  case riserFirst =>
    intro s v k hv hk hbelow habove hon hs7 hentry hsince hoff
    have hd : s.m.power_.riser.Full := ⟨hbelow, habove, hon⟩
    refine runs_of_eff (f := fun _ => riserSample v) (riserSample_quiet hv hd hs7) ?_
    rw [sampled_riser]
    exact (congrArg StageDemand.on (Demand.riser_at hd (by omega))).trans (StageDemand.next_first hentry hsince hoff).1
  case riserLeaves =>
    intro s v k since hv hk hbelow habove hon hs7 hexit hsince hdwell
    have hd : s.m.power_.riser.Full := ⟨hbelow, habove, hon⟩
    obtain ⟨-, -, horder, hsome⟩ := thresholds_ordered k hk
    refine runs_of_eff (f := fun _ => riserSample v) (riserSample_quiet hv hd hs7) ?_
    rw [sampled_riser]
    exact (congrArg StageDemand.on (Demand.riser_at hd (by omega))).trans (StageDemand.next_leaves hexit hsome horder hsince hdwell)

end Sys2Proof.Machine

/-! Commanded tests: what miscompares leave alone, how tests start, end and are cut short, and O56 (R504 to R506, R513, R517 to R519). -/

namespace Sys2Proof.Machine

/-! ### Miscompares (R513, R514) -/

/-- The keys of the objects of a commanded test (0x7C01), but for its count of miscompares. -/
def testKeys (k : Nat) : Prop := k / 256 = 0x7C01 ∧ k ≠ okey 0x7C01 0x0D

theorem testKeys_of {sub : Nat} (h : sub < 256 ∧ sub ≠ 0x0D) : testKeys (okey 0x7C01 sub) := by
  rw [testKeys, okey, okey]
  omega

theorem testKeys_unflashed : Unflashed testKeys := by
  rintro k ⟨hindex, -⟩
  exact ⟨by omega, by rw [okey]; omega⟩

/-- The test under way, and the objects of `testKeys`, are as they were. -/
abbrev KeepsTest (a b : Mach) : Prop := Stays (·.test.test) testKeys a b

section Miscompares
variable {a m : Mach} {source : Nat} {injected : Bool} {f : Miscompare}

/-- A view that sees nothing of what an event changes. -/
def Unreported {α : Type} (v : Mach → α) : Prop := ∀ (m : Mach) od koa jrn out, v { m with od := od, koa := koa, jrn := jrn, out := out } = v m

theorem Stays.recorded {α : Type} {v : Mach → α} {K : Nat → Prop} (h : Stays v K a m) {code flags supp inst : Nat} {d : List (Nat × Nat)}
    (hkey : ∀ k, K k → k ≠ okey 0x1202 (code / 4096)) (hv : Unreported v) : Stays v K a (m.record code flags supp inst d) :=
  h.record hkey (hv m ..)

theorem Stays.raiseRate {α : Type} {v : Mach → α} {K : Nat → Prop} (h : Stays v K a m) {n code inst : Nat} {d : List (Nat × Nat)}
    (hkey : ∀ k, K k → k ≠ okey 0x1202 (code / 4096)) (hv : Unreported v) :
    Stays v K a (m.raiseRate n code inst d) :=
  .ite (fun _ => .recorded (h.keep (hv m ..) (by rfl)) hkey hv) (fun _ => h.keep (hv m ..) rfl)

theorem Mach.raiseRate_test (m : Mach) (n code inst : Nat) (d : List (Nat × Nat)) : (m.raiseRate n code inst d).test = m.test :=
  iteInduction (motive := fun k : Mach => k.test = m.test) (fun _ => Mach.record_test ..) (fun _ => rfl)

theorem Stays.selfFailure (h : KeepsTest a m) : KeepsTest a (m.selfFailure source injected f) := by
  unfold Mach.selfFailure
  extract_lets known full log map m1
  refine .raiseRate (.set (h.keep (b := m1) rfl rfl) (fun k hk => ?_) rfl) (fun k hk => ?_) fun _ _ _ _ _ => rfl
  · obtain ⟨hindex, -⟩ := hk
    rw [okey]
    omega
  · obtain ⟨hindex, -⟩ := hk
    rw [okey]
    omega

theorem Stays.writeMap (h : KeepsTest a m) : KeepsTest a m.writeMap :=
  .flashWrite (fun _ _ _ _ _ _ _ _ _ _ => rfl) testKeys_unflashed (h.keep rfl rfl)

theorem Stays.testFailures (h : KeepsTest a m) (found : List (Nat × Nat × Nat)) : KeepsTest a (m.testFailures injected found) := by
  refine .ite (fun _ => h) fun _ => .writeMap (.set (h.each _ fun n x hn => hn.selfFailure) (fun k hk => hk.2) rfl)

theorem Stays.testStruck (h : KeepsTest a m) : KeepsTest a m.testStruck := by
  unfold Mach.testStruck
  extract_lets t
  refine .ite (fun _ => h) fun _ => ?_
  exact .flashActed (fun _ _ _ _ _ _ _ _ _ _ => rfl) testKeys_unflashed (.testFailures (h.keep (b := m.draw) rfl rfl) _)

/-- A miscompare is the newest of the 256 failures held, and the map as written is as before. -/
theorem selfFailure_log (h : m.test.failures.length < 256) :
    (m.selfFailure source injected f).test.failures.length = m.test.failures.length + 1 ∧
      (m.selfFailure source injected f).test.mapSeq = m.test.mapSeq := by
  unfold Mach.selfFailure
  extract_lets known full log map m1
  have hlog : log.length = m.test.failures.length + 1 := by simp [log]
  clear_value log map
  have hfailures : m1.test.failures = log.drop (log.length - 256) := by simp only [m1, Mach.onTest]
  have hseq : m1.test.mapSeq = m.test.mapSeq := by simp only [m1, Mach.onTest]
  clear_value m1
  rw [Mach.raiseRate_test, Mach.setN_test, hfailures, List.length_drop]
  exact ⟨by omega, hseq⟩

theorem writeMap_log (m : Mach) : m.writeMap.test.failures = m.test.failures ∧ m.writeMap.test.mapSeq = m.test.mapSeq + 1 := by
  have h := (Stays.flashWrite (v := fun n => (n.test.failures, n.test.mapSeq)) (K := fun _ => False) (fun _ _ _ _ _ _ _ _ _ _ => rfl)
    (fun _ h => h.elim) (.refl _ _ (m.onTest fun t => { t with mapSeq := t.mapSeq + 1 }))).view
  exact ⟨congrArg Prod.fst h, congrArg Prod.snd h⟩

theorem writeMap_count (m : Mach) : m.writeMap.objN 0x7C01 0x0D = m.objN 0x7C01 0x0D := by
  have h : Stays (fun _ => ()) (· = okey 0x7C01 0x0D) m (m.onTest fun t => { t with mapSeq := t.mapSeq + 1 }) := .keep (.refl _ _ m) rfl rfl
  refine (h.flashWrite (fun _ _ _ _ _ _ _ _ _ _ => rfl) fun k (hk : k = _) => ?_).objN_of_key rfl
  rw [hk]
  decide

theorem selfFailure_count (m : Mach) (source : Nat) (injected : Bool) (f : Miscompare) :
    (m.selfFailure source injected f).objN 0x7C01 0x0D = m.objN 0x7C01 0x0D := by
  unfold Mach.selfFailure
  extract_lets known full log map m1
  have h1 : Stays (fun _ => ()) (· = okey 0x7C01 0x0D) m m1 := .keep (.refl _ _ m) rfl rfl
  refine Stays.objN_of_key (.raiseRate (h1.set (fun k (hk : k = _) => ?_) rfl) (fun k (hk : k = _) => ?_) fun _ _ _ _ _ => rfl) rfl
  · rw [hk]; decide
  · rw [hk]; decide

/-- One miscompare of a running march: it is held, counted and in the map as written. -/
theorem testFailures_one (x : Nat × Nat × Nat) (hlog : m.test.failures.length < 256) (hcount : m.objN 0x7C01 0x0D < 4294967295) :
    (m.testFailures injected [x]).test.failures.length = m.test.failures.length + 1 ∧
      (m.testFailures injected [x]).test.mapSeq = m.test.mapSeq + 1 ∧
      (m.testFailures injected [x]).objN 0x7C01 0x0D = m.objN 0x7C01 0x0D + 1 := by
  unfold Mach.testFailures
  extract_lets t m1
  rw [if_neg (List.cons_ne_nil x [])]
  have h1 : m1 = m.selfFailure 2 injected ⟨t.cls, t.inst, if t.cls = 0 then 0xFFFF else x.1, x.2.1, x.2.2⟩ := rfl
  clear_value m1
  obtain ⟨hheld, hseq⟩ := selfFailure_log (m := m) (source := 2) (injected := injected)
    (f := ⟨t.cls, t.inst, if t.cls = 0 then 0xFFFF else x.1, x.2.1, x.2.2⟩) hlog
  obtain ⟨hheld2, hseq2⟩ := writeMap_log (m1.bump 0x7C01 0x0D [x].length)
  have hcount1 : m1.objN 0x7C01 0x0D = m.objN 0x7C01 0x0D := by rw [h1, selfFailure_count]
  have hmax : objMax 0x7C01 0x0D = 4294967295 := by decide +kernel
  refine ⟨by rw [hheld2, Mach.bump_test, h1]; exact hheld, by rw [hseq2, Mach.bump_test, h1, hseq], ?_⟩
  have hlast : (m1.bump 0x7C01 0x0D [x].length).objN 0x7C01 0x0D = m.objN 0x7C01 0x0D + 1 :=
    (Mach.bump_objN_same m1 0x7C01 0x0D 1 0 (by rw [hcount1, hmax]; exact hcount)).trans (by rw [hcount1])
  exact (writeMap_count _).trans hlast

end Miscompares

/-! ### Ends (R518) -/

section Ends
variable {m : Mach} {result cause : Nat}

/-- The end of a test is its objects and event 0xD007, after a FAIL has taken its unit over the threshold. -/
theorem endTest_eq (m : Mach) (result cause : Nat) : ∃ (n : Mach) (d : List (Nat × Nat)),
    m.endTest result cause = (n.sets 0x7C01 [(6, 2), (7, result), (8, cause)]).raise 0xD007 0 d ∧
      (result ≠ 2 ∨ 2 < m.test.test.kind → n = m) := by
  unfold Mach.endTest
  extract_lets t m1
  refine ⟨m1, _, rfl, ?_⟩
  rintro (h | h)
  · exact if_pos h
  · unfold m1
    split
    · rfl
    · split
      case h_4 => rfl
      all_goals exact absurd h (by simp only [t] at *; omega)

theorem sets_end (n : Mach) (r c : Int) : (n.sets 0x7C01 [(6, 2), (7, r), (8, c)]).objN 0x7C01 6 = 2 ∧
    (n.sets 0x7C01 [(6, 2), (7, r), (8, c)]).objN 0x7C01 7 = r.toNat ∧ (n.sets 0x7C01 [(6, 2), (7, r), (8, c)]).objN 0x7C01 8 = c.toNat := by
  simp only [Mach.sets, List.foldl_cons, List.foldl_nil]
  refine ⟨?_, ?_, Mach.set_objN_same ..⟩
  · iterate 2 rw [Mach.set_objN_ne _ _ _ _ _ (by decide)]
    exact Mach.set_objN_same ..
  · rw [Mach.set_objN_ne _ _ _ _ _ (by decide)]
    exact Mach.set_objN_same ..

theorem endTest_objects (m : Mach) (result cause : Nat) : (m.endTest result cause).objN 0x7C01 6 = 2 ∧
    (m.endTest result cause).objN 0x7C01 7 = result ∧ (m.endTest result cause).objN 0x7C01 8 = cause := by
  obtain ⟨n, d, h, -⟩ := endTest_eq m result cause
  obtain ⟨hstate, hresult, hcause⟩ := sets_end n result cause
  rw [h]
  iterate 3 rw [Mach.raise_objN _ _ _ _ (by decide)]
  exact ⟨hstate, hresult, hcause⟩

/-- Unless a unit is struck, the other objects of the test stay. -/
theorem endTest_objN (hunit : result ≠ 2 ∨ 2 < m.test.test.kind) {sub : Nat} (hsub : 9 ≤ sub ∧ sub < 256) :
    (m.endTest result cause).objN 0x7C01 sub = m.objN 0x7C01 sub := by
  obtain ⟨n, d, h, hn⟩ := endTest_eq m result cause
  rw [h, hn hunit, Mach.raise_objN _ _ _ _ (by rw [okey, okey]; omega)]
  simp only [Mach.sets, List.foldl_cons, List.foldl_nil]
  iterate 3 rw [Mach.set_objN_ne _ _ _ _ _ (by rw [okey, okey]; omega)]

theorem endTest_newest (hunit : result ≠ 2 ∨ 2 < m.test.test.kind) : (m.endTest result cause).jrn.newest = m.jrn.newest + 1 := by
  obtain ⟨n, d, h, hn⟩ := endTest_eq m result cause
  rw [h, hn hunit, Mach.raise_newest, Mach.sets_jrn]

/-- A test that is cut short, with miscompares or without. -/
theorem cutTest_ends (h : m.testRunning = true) (cause : Nat) :
    (m.cutTest cause).objN 0x7C01 6 = 2 ∧ (m.cutTest cause).objN 0x7C01 7 = (if m.objN 0x7C01 0x0D = 0 then 3 else 2) ∧
      (m.cutTest cause).objN 0x7C01 8 = cause ∧ (m.objN 0x7C01 0x0D = 0 → (m.cutTest cause).jrn.newest = m.jrn.newest + 1) := by
  unfold Mach.cutTest
  rw [if_neg (by rw [h]; exact Bool.false_ne_true)]
  extract_lets m1
  have hcount : m1.objN 0x7C01 0x0D = m.objN 0x7C01 0x0D := by
    simp only [m1, Mach.sets, List.foldl_cons, List.foldl_nil]
    iterate 2 rw [Mach.set_objN_ne _ _ _ _ _ (by decide)]
  have hnewest : m1.jrn.newest = m.jrn.newest := congrArg Journal.newest (Mach.sets_jrn ..)
  clear_value m1
  rw [hcount]
  obtain ⟨hstate, hresult, hcause⟩ := endTest_objects m1.draw (if m.objN 0x7C01 0x0D = 0 then 3 else 2) cause
  refine ⟨hstate, hresult, hcause, fun hnone => ?_⟩
  rw [endTest_newest (.inl (by rw [if_pos hnone]; decide))]
  exact congrArg (· + 1) hnewest

end Ends

/-! ### Starts (R517) -/

/-- A test as it starts: what it tests, and its objects. -/
def Mach.testStarted (m : Mach) : Mach :=
  let kind := m.objN 0x7C01 1
  let cls := m.objN 0x7C01 2
  let inst := m.objN 0x7C01 3
  let mac := m.objN 0x7C01 4
  let m := m.onTest (fun t => { t with
    test := { kind := kind, cls := cls, inst := inst, macro_ := mac, wasFree := m.testUnitFree kind cls inst } })
  m.sets 0x7C01 [(6, 1), (7, 0), (8, 0), (9, 0), (0x0A, testElements kind cls mac), (0x0B, 0), (0x0C, testSignature kind cls mac), (0x0D, 0)]

section Starts
variable {s : State} {w : WriteReq} {p : Put} {m : Mach} {c : Ctx}

/-- The objects of a test that starts, whatever its number of elements and its signature are. -/
theorem sets_started (n : Mach) (e g : Int) :
    let l : List (Nat × Int) := [(6, 1), (7, 0), (8, 0), (9, 0), (0x0A, e), (0x0B, 0), (0x0C, g), (0x0D, 0)]
    (n.sets 0x7C01 l).objN 0x7C01 6 = 1 ∧ (n.sets 0x7C01 l).objN 0x7C01 7 = 0 ∧ (n.sets 0x7C01 l).objN 0x7C01 0x0A = e.toNat ∧
      (n.sets 0x7C01 l).objN 0x7C01 0x0D = 0 := by
  simp only [Mach.sets, List.foldl_cons, List.foldl_nil]
  refine ⟨?_, ?_, ?_, Mach.set_objN_same ..⟩
  · iterate 7 rw [Mach.set_objN_ne _ _ _ _ _ (by decide)]
    exact Mach.set_objN_same ..
  · iterate 6 rw [Mach.set_objN_ne _ _ _ _ _ (by decide)]
    exact Mach.set_objN_same ..
  · iterate 3 rw [Mach.set_objN_ne _ _ _ _ _ (by decide)]
    exact Mach.set_objN_same ..

theorem testStarted_objects (m : Mach) : m.testStarted.objN 0x7C01 6 = 1 ∧ m.testStarted.objN 0x7C01 7 = 0 ∧
    m.testStarted.objN 0x7C01 0x0A = testElements (m.objN 0x7C01 1) (m.objN 0x7C01 2) (m.objN 0x7C01 4) ∧ m.testStarted.objN 0x7C01 0x0D = 0 :=
  sets_started ..

/-- A test starts with the objects of other units as they were. -/
theorem testStarted_objN (m : Mach) {ix sub : Nat} (hix : ix < 0x7C01) (hsub : sub < 256) : m.testStarted.objN ix sub = m.objN ix sub := by
  unfold Mach.testStarted
  extract_lets kind cls inst mac m1
  refine congrArg Int.toNat ((List.foldlRecOn _ _ (motive := fun n : Mach => n.obj ix sub = m.obj ix sub) rfl fun n hn r hr => ?_))
  refine (Mach.set_obj_ne _ _ _ _ _ ?_).trans hn
  have hr9 : r.1 < 256 := by
    simp only [List.mem_cons, List.not_mem_nil, or_false] at hr
    obtain rfl | rfl | rfl | rfl | rfl | rfl | rfl | rfl := hr <;> simp
  rw [okey, okey]
  omega

theorem startTest_ok (hlife : c.life = .factory ∨ c.life = .service) (hpower : m.power ≤ 1) (hidle : m.testRunning = false)
    (hrange : testInRange (m.objN 0x7C01 1) (m.objN 0x7C01 2) (m.objN 0x7C01 3) (m.objN 0x7C01 4) = true)
    (hfree : needsFree (m.objN 0x7C01 1) (m.objN 0x7C01 2) = false) : m.startTest c = .ok m.testStarted.testConditions.testStruck := by
  unfold Mach.startTest
  extract_lets kind cls inst mac
  rw [if_neg (fun h => hlife.elim h.1 h.2), if_neg (by omega), if_neg (by rw [hidle]; exact Bool.false_ne_true),
    if_neg (by simp only [kind, cls, inst, mac, hrange]; decide), if_neg (by simp only [kind, cls, hfree]; simp)]
  rfl

theorem startTest_refused (h : c.life ≠ .factory ∧ c.life ≠ .service ∨ m.testRunning = true) : ∃ a, m.startTest c = .error a := by
  unfold Mach.startTest
  extract_lets kind cls inst mac
  by_cases hlife : c.life ≠ .factory ∧ c.life ≠ .service
  · exact ⟨_, if_pos hlife⟩
  · rw [if_neg hlife]
    by_cases hpower : m.power > 1
    · exact ⟨_, if_pos hpower⟩
    · rw [if_neg hpower, if_pos (h.resolve_left hlife)]
      exact ⟨_, rfl⟩

theorem testStarted_power (m : Mach) : m.testStarted.power = m.power := testStarted_objN m (by decide) (by decide)

theorem testStarted_calm (m : Mach) : m.testStarted.calm = m.calm := by
  rw [Mach.calm, Mach.calm, Mach.throttle, Mach.throttle, Mach.stage, Mach.stage, testStarted_objN m (by decide) (by decide),
    testStarted_objN m (by decide) (by decide)]

/-- The commands of tests are writes of 0x7C01:05. -/
theorem Reaches.run_test (h : Reaches s 0x7C01 5 w p m) :
    p.run m = actM (if p.n = 0x4C4307C1 then m.startTest s.ctx else m.abortTest) := by
  obtain ⟨hc, hix, hsub, -, -⟩ := h.put
  simp [Put.run, Put.sessions, Put.supply, Put.times, Put.ports, Put.schedule, Put.layers, Put.observers, Put.memory, Put.links, Put.panel,
    Put.tests, hix, hsub, hc]

theorem exec_testStart (h : ofBE w.value = 0x4C4307C1) (s : State) :
    exec (.testStart w) s = liftE (koaWrite (writeMsg w 0x7C01 5) none) s := by
  show liftE (writeCode _ _ _ _ _) s = _
  rw [writeCode_of_eq h]

theorem exec_testAbort (h : ofBE w.value = 0x4C4307C0) (s : State) :
    exec (.testAbort w) s = liftE (koaWrite (writeMsg w 0x7C01 5) none) s := by
  show liftE (writeCode _ _ _ _ _) s = _
  rw [writeCode_of_eq h]

end Starts

/-! ### TEST_END (R518) -/

section Reports
variable {m : Mach} {e g : Nat}

/-- The block when a test's elements and its signature are in. -/
def Mach.testDone (m : Mach) (e g : Nat) : Mach := (m.setN 0x7C01 9 e).setN 0x7C01 0x0B g

theorem testDone_objects (m : Mach) (e g : Nat) : (m.testDone e g).objN 0x7C01 9 = e ∧ (m.testDone e g).objN 0x7C01 0x0B = g :=
  ⟨(Mach.setN_objN_ne _ _ _ _ _ (by decide)).trans (Mach.setN_objN_same ..), Mach.setN_objN_same ..⟩

theorem testDone_objN (m : Mach) (e g : Nat) {sub : Nat} (hsub : sub < 256 ∧ sub ≠ 9 ∧ sub ≠ 0x0B) :
    (m.testDone e g).objN 0x7C01 sub = m.objN 0x7C01 sub := by
  rw [Mach.testDone, Mach.setN_objN_ne _ _ _ _ _ (by rw [okey, okey]; omega), Mach.setN_objN_ne _ _ _ _ _ (by rw [okey, okey]; omega)]

/-- A test that reports no miscompare ends. -/
theorem testEnd_none (h : m.testRunning = true) : testEnd e g [] m = (m.testDone (min e (m.objN 0x7C01 0x0A)) (g % 2 ^ 32)).endTest
    (if m.objN 0x7C01 0x0D ≠ 0 then 2 else if min e (m.objN 0x7C01 0x0A) ≠ m.objN 0x7C01 0x0A then 3
      else if g % 2 ^ 32 = m.objN 0x7C01 0x0C then 1 else 2) 0 := by
  have hnone : m.testFailures false [] = m := by rw [Mach.testFailures, if_pos rfl]
  have hexpected : (m.setN 0x7C01 9 (min e (m.objN 0x7C01 0x0A))).objN 0x7C01 0x0A = m.objN 0x7C01 0x0A :=
    Mach.setN_objN_ne _ _ _ _ _ (by decide)
  unfold testEnd
  simp only [h, ite_self, hnone, hexpected, Bool.not_true, Bool.false_eq_true, ne_eq, not_true_eq_false, and_false, ↓reduceIte,
    Bool.not_eq_true', decide_eq_false_iff_not]
  rw [← testDone_objN m (min e (m.objN 0x7C01 0x0A)) (g % 2 ^ 32) (sub := 0x0D) (by decide),
    ← testDone_objN m (min e (m.objN 0x7C01 0x0A)) (g % 2 ^ 32) (sub := 0x0C) (by decide)]
  rfl

end Reports

/-- Settles O56: starts and aborts by the rule of 0x7C01:05, ends by what is reported. -/
theorem commandedTestsRunAndEnd : Obligations.CommandedTestsRunAndEnd := by
  unfold Obligations.CommandedTestsRunAndEnd
  refine ⟨?refused, ?start, ?held, ?abort, ?nothing, ?pass, ?fail, ?incomplete, ?report, ?abortFail⟩
  case refused =>
    intro s w p m h hvalue hn hcase
    obtain ⟨a, hrefused⟩ := startTest_refused (m := m) (c := s.ctx) hcase
    rw [Runs, exec_testStart hvalue]
    exact h.runs_unchanged (by omega) (h.run_test.trans (congrArg actM ((if_pos hn).trans hrefused)))
  case start =>
    intro s w p m h hvalue hn hlife hidle hpower hcalm hkind hcls hinst hmacro
    have hrange : testInRange (m.objN 0x7C01 1) (m.objN 0x7C01 2) (m.objN 0x7C01 3) (m.objN 0x7C01 4) = true := by
      simp [testInRange, hkind, hcls, classInstances, classMacros, hinst, hmacro]
    have hfree : needsFree (m.objN 0x7C01 1) (m.objN 0x7C01 2) = false := by rw [hkind, hcls]; decide
    have hgoes : m.testStarted.testConditions = m.testStarted := by
      rw [Mach.testConditions, testStarted_power, testStarted_calm, if_neg (by omega), if_pos hcalm]
    have hrun := h.run_test.trans (congrArg actM ((if_pos hn).trans (startTest_ok hlife hpower hidle hrange hfree)))
    rw [hgoes] at hrun
    obtain ⟨hstate, hresult, helements, -⟩ := testStarted_objects m
    have hkept : KeepsTest m.testStarted m.testStarted.testStruck := .testStruck (.refl _ _ _)
    rw [Runs, exec_testStart hvalue]
    refine h.runs_act (by omega) hrun fun a ha => ⟨?_, ?_, ?_, ?_⟩
    · exact (ha.congr (Mach.objN · 0x7C01 6)).trans ((hkept.objN_of_key (testKeys_of (by decide))).trans hstate)
    · exact (ha.congr (Mach.objN · 0x7C01 7)).trans ((hkept.objN_of_key (testKeys_of (by decide))).trans hresult)
    · refine (ha.congr (Mach.objN · 0x7C01 0x0A)).trans ((hkept.objN_of_key (testKeys_of (by decide))).trans (helements.trans ?_))
      have hone : m.objN 0x7C01 4 ≠ 0xFFFF := by omega
      simp [hkind, hcls, testElements, marchRegions, hone]
    · refine (ha.congr (·.test.test.inst)).trans ((congrArg Test.inst hkept.view).trans ?_)
      rw [Mach.testStarted, Mach.sets_test]
      rfl
  case held =>
    intro s w p m h hvalue hn hlife hidle hpower hcalm hrange hfree
    obtain ⟨hstate, -, -, hcount⟩ := testStarted_objects m
    have hcut : m.testStarted.testConditions = m.testStarted.cutTest 3 := by
      rw [Mach.testConditions, testStarted_power, testStarted_calm, if_neg (by omega), if_neg (by rw [hcalm]; exact Bool.false_ne_true)]
    obtain ⟨hends, hresult, hcause, -⟩ := cutTest_ends (m := m.testStarted) (decide_eq_true hstate) 3
    have hstruck : (m.testStarted.cutTest 3).testStruck = m.testStarted.cutTest 3 := testStruck_idle (by rw [Mach.testRunning, hends]; rfl)
    have hrun := h.run_test.trans (congrArg actM ((if_pos hn).trans (startTest_ok hlife hpower hidle hrange hfree)))
    rw [hcut, hstruck] at hrun
    rw [Runs, exec_testStart hvalue]
    refine h.runs_act (by omega) hrun fun a ha => ⟨(ha.congr (Mach.objN · 0x7C01 6)).trans hends,
      (ha.congr (Mach.objN · 0x7C01 7)).trans (hresult.trans (if_pos hcount)), (ha.congr (Mach.objN · 0x7C01 8)).trans hcause⟩
  case abort =>
    intro s w p m h hvalue hn hrunning hcount
    obtain ⟨hends, hresult, hcause, hnewest⟩ := cutTest_ends hrunning 1
    rw [Runs, exec_testAbort hvalue]
    refine h.runs_act (by omega) (h.run_test.trans (congrArg actM ((if_neg (by omega)).trans (if_pos hrunning)))) fun a ha => ?_
    exact ⟨(ha.congr (Mach.objN · 0x7C01 6)).trans hends, (ha.congr (Mach.objN · 0x7C01 7)).trans (hresult.trans (if_pos hcount)),
      (ha.congr (Mach.objN · 0x7C01 8)).trans hcause, (ha.congr (·.jrn.newest)).trans (hnewest hcount)⟩
  case nothing =>
    intro s w p m h hvalue hn hidle
    rw [Runs, exec_testAbort hvalue]
    exact h.runs_unchanged (by omega) (h.run_test.trans (congrArg actM ((if_neg (by omega)).trans (if_neg (by rw [hidle]; exact Bool.false_ne_true)))))
  case pass =>
    intro s e g hrunning hall hsignature hg hkind hcount
    refine runs_of_lift (f := fun _ => testEnd e g []) ?_
    rw [testEnd_none hrunning, Nat.min_eq_right hall, if_neg (not_not.2 hcount), if_neg (not_not.2 rfl), Nat.mod_eq_of_lt (a := g) (b := 2 ^ 32) hg, if_pos hsignature]
    obtain ⟨hends, hresult, hcause⟩ := endTest_objects (s.m.testDone (s.m.objN 0x7C01 0x0A) g) 1 0
    exact ⟨hends, hresult, hcause, (endTest_objN (.inl (by decide)) (by decide)).trans (testDone_objects ..).1⟩
  case fail =>
    intro s e g hrunning hall hsignature hg hkind
    refine runs_of_lift (f := fun _ => testEnd e g []) ?_
    rw [testEnd_none hrunning, Nat.min_eq_right hall, if_neg (not_not.2 rfl), Nat.mod_eq_of_lt (a := g) (b := 2 ^ 32) hg, if_neg hsignature, ite_self]
    obtain ⟨hends, hresult, -⟩ := endTest_objects (s.m.testDone (s.m.objN 0x7C01 0x0A) g) 2 0
    have hlogic : 2 < (s.m.testDone (s.m.objN 0x7C01 0x0A) g).test.test.kind := by
      rw [Mach.testDone, Mach.setN_test, Mach.setN_test, hkind]
      decide
    exact ⟨hends, hresult, (endTest_objN (.inr hlogic) (by decide)).trans (testDone_objects ..).2⟩
  case incomplete =>
    intro s e g hrunning hsome hkind hcount
    refine runs_of_lift (f := fun _ => testEnd e g []) ?_
    rw [testEnd_none hrunning, Nat.min_eq_left (by omega), if_neg (not_not.2 hcount), if_pos (by omega)]
    obtain ⟨hends, hresult, -⟩ := endTest_objects (s.m.testDone e (g % 2 ^ 32)) 3 0
    exact ⟨hends, hresult, (endTest_objN (.inl (by decide)) (by decide)).trans (testDone_objects ..).1⟩
  case report =>
    intro s e g f hrunning hsome hkind hcount hlog
    obtain ⟨hheld, hseq, hcounted⟩ := testFailures_one (injected := false) f hlog hcount
    have hkept : KeepsTest s.m (s.m.testFailures false [f]) := .testFailures (.refl _ _ _) _
    have hexpected : (s.m.testFailures false [f]).objN 0x7C01 0x0A = s.m.objN 0x7C01 0x0A := hkept.objN_of_key (testKeys_of (by decide))
    have hgoes : testEnd e g [f] s.m = (s.m.testFailures false [f]).setN 0x7C01 9 e := by
      have hsame : ((s.m.testFailures false [f]).setN 0x7C01 9 e).objN 0x7C01 0x0A = s.m.objN 0x7C01 0x0A :=
        (Mach.setN_objN_ne _ _ _ _ _ (by decide)).trans hexpected
      unfold testEnd
      simp only [hrunning, hkind, hexpected, Nat.min_eq_left (Nat.le_of_lt hsome), hsame, Bool.not_true, Bool.false_eq_true, ↓reduceIte, ne_eq,
        List.cons_ne_nil, not_false_eq_true, and_true, Bool.not_eq_true', decide_eq_false_iff_not, Nat.ne_of_lt hsome]
    refine runs_of_lift (f := fun _ => testEnd e g [f]) ?_
    rw [hgoes]
    refine ⟨?_, (Mach.setN_objN_ne _ _ _ _ _ (by decide)).trans hcounted, Mach.setN_objN_same .., by rw [Mach.setN_test]; exact hheld,
      by rw [Mach.setN_test]; exact hseq⟩
    exact (Mach.setN_objN_ne _ _ _ _ _ (by decide)).trans ((hkept.objN_of_key (testKeys_of (by decide))).trans (of_decide_eq_true hrunning))
  case abortFail =>
    intro s w p m h hvalue hn hrunning hcount
    obtain ⟨hends, hresult, hcause, -⟩ := cutTest_ends hrunning 1
    rw [Runs, exec_testAbort hvalue]
    refine h.runs_act (by omega) (h.run_test.trans (congrArg actM ((if_neg (by omega)).trans (if_pos hrunning)))) fun a ha => ?_
    exact ⟨(ha.congr (Mach.objN · 0x7C01 6)).trans hends, (ha.congr (Mach.objN · 0x7C01 7)).trans (hresult.trans (if_neg hcount)),
      (ha.congr (Mach.objN · 0x7C01 8)).trans hcause⟩

end Sys2Proof.Machine

/-! What tests, calibration and jobs leave alone when the stage changes, and O44 (R441, R444, R445, R451). -/

namespace Sys2Proof.Machine

/-! ### What follows a stage (R235, R445, R518) -/

section Follows
variable {a m : Mach}

theorem Stays.passThreshold (h : KeepsStop a m) (k i : Nat) : KeepsStop a (m.passThreshold k i) :=
  .ite (fun _ => h) fun _ => .report (m := m.onTest _) (.keep h rfl rfl) (by decide)

theorem Stays.encodeFault (h : KeepsStop a m) (i cause : Nat) : KeepsStop a (m.encodeFault i cause) := by
  refine .ite (fun _ => h) fun _ => ?_
  extract_lets m1 codec m2
  have h1 : KeepsStop a m1 := .report (Stays.other h _ (by omega)) (by decide)
  have h2 : KeepsStop a m2 := .keep h1 rfl rfl
  exact .ite (fun _ => h2) fun _ => h2.eachOf _ fun n j hj hn => .ite (fun _ => hn.jobEnter (by simpa [upTo] using hj) _ _) (fun _ => hn)

theorem Stays.failUnit (h : KeepsStop a m) (cls inst : Nat) : KeepsStop a (m.failUnit cls inst) :=
  .ite (fun _ => .ite (fun _ => h.passThreshold ..) (fun _ => h)) fun _ =>
    .ite (fun _ => .ite (fun _ => .ite (fun _ => h.passThreshold ..) (fun _ => h)) (fun _ => h.encodeFault ..)) (fun _ => h)

theorem Stays.endTest (h : KeepsStop a m) (result cause : Nat) : KeepsStop a (m.endTest result cause) := by
  unfold Mach.endTest
  extract_lets t m1
  have h1 : KeepsStop a m1 := by
    refine .ite (fun _ => h) fun _ => ?_
    split
    · exact h.failUnit ..
    · exact h.failUnit ..
    · exact h.failUnit ..
    · exact h
  exact .report (h1.others _ (by simp) (by decide)) (by decide)

theorem Stays.cutTest (h : KeepsStop a m) (cause : Nat) : KeepsStop a (m.cutTest cause) := by
  refine .ite (fun _ => h) fun _ => .endTest ?_ _ _
  exact .keep (h.others _ (by simp) (by decide)) rfl rfl

theorem Stays.testConditions (h : KeepsStop a m) : KeepsStop a m.testConditions :=
  .ite (fun _ => h.cutTest 4) fun _ => .ite (fun _ => h) (fun _ => h.cutTest 3)

theorem Stays.putJob (h : KeepsStop a m) (j engine : Nat) : KeepsStop a (m.putJob j engine) := by
  have h1 : KeepsStop a (m.setN (0x7110 + j) 0x0D 2) := Stays.other h _ (by omega)
  exact .ite (fun _ => .keep h1 rfl rfl) (fun _ => .keep h1 rfl rfl)

theorem Stays.resumeJobs (h : KeepsStop a m) : KeepsStop a m.resumeJobs := by
  refine h.each _ fun n j hn => .ite (fun _ => ?_) (fun _ => hn)
  split
  · exact hn.putJob ..
  · exact hn

theorem Stays.pauseHeld (h : KeepsStop a m) : KeepsStop a m.pauseHeld.m :=
  List.foldlRecOn (upTo 8) _ (motive := fun e : Eff => KeepsStop a e.m) h fun _ he _ hj =>
    iteInduction (motive := fun e : Eff => KeepsStop a e.m) (fun _ => he.jobEnter (by simpa [upTo] using hj) 3 0) (fun _ => he)

end Follows

/-! ### The stage in force (R441, R444) -/

section Stages
variable {m : Mach} {dest cause : Nat} {c : Ctx}

theorem KeepsStop.objN {a b : Mach} (h : Stays Mach.stopView stopKeys a b) {ix sub : Nat} (hix : ix = 0x2000 ∨ ix = 0x2100) (hsub : sub < 256) :
    b.objN ix sub = a.objN ix sub :=
  h.objN_of_key (by unfold stopKeys; rw [okey]; omega)

/-- The stage and the power state of two blocks agree. -/
theorem setPower_stage (m : Mach) (p cause : Nat) : (m.setPower p cause).stage = m.stage := by
  unfold Mach.setPower
  refine iteInduction (motive := fun n : Mach => n.stage = m.stage) (fun _ => rfl) fun _ => ?_
  extract_lets from_ m1
  rw [Mach.stage, Mach.raise_objN _ _ _ _ (by decide), Mach.bump_objN_ne _ _ _ _ _ (by decide), Mach.setN_objN_ne _ _ _ _ _ (by decide)]
  rfl

theorem setPower_floor (m : Mach) (p cause : Nat) : (m.setPower p cause).objN 0x2000 9 = m.objN 0x2000 9 := by
  unfold Mach.setPower
  refine iteInduction (motive := fun n : Mach => n.objN 0x2000 9 = m.objN 0x2000 9) (fun _ => rfl) fun _ => ?_
  extract_lets from_ m1
  rw [Mach.raise_objN _ _ _ _ (by decide), Mach.bump_objN_ne _ _ _ _ _ (by decide), Mach.setN_objN_ne _ _ _ _ _ (by decide)]
  rfl

/-- Up to S5, while heats may run, a stage that comes into force gives the power state, and leaves the floor. -/
theorem takeStage_running (hpower : m.power ≤ 1) (hdest : dest ≤ 5) (cause : Nat) (c : Ctx) :
    (m.takeStage dest cause c).m.stage = dest ∧ (m.takeStage dest cause c).m.power = (if dest = 0 then 0 else 1) ∧
      (m.takeStage dest cause c).m.objN 0x2000 9 = m.objN 0x2000 9 := by
  unfold Mach.takeStage
  extract_lets from_ m1 m2 m3 m4 m5 m6 p
  have h1 : m1.stage = dest ∧ m1.power = m.power ∧ m1.objN 0x2000 9 = m.objN 0x2000 9 := by
    refine ⟨(Mach.bump_objN_ne _ _ _ _ _ (by decide)).trans (Mach.setN_objN_same ..), ?_, ?_⟩
    · exact (Mach.bump_objN_ne _ _ _ _ _ (by decide)).trans (Mach.setN_objN_ne _ _ _ _ _ (by decide))
    · exact (Mach.bump_objN_ne _ _ _ _ _ (by decide)).trans (Mach.setN_objN_ne _ _ _ _ _ (by decide))
  have h2 : KeepsStop m1 m2 := .ite (fun _ => .refl ..) fun _ => .observeStage (Stays.other (.refl _ _ m1) _ (by omega))
  have h4 : KeepsStop m3 m4 := .report (.refl ..) (by decide)
  have h6 : KeepsStop m3 m6 := .testConditions (.ite (fun _ => h4.cutCal) (fun _ => h4))
  have h6obj {ix sub : Nat} (hix : ix = 0x2000 ∨ ix = 0x2100) (hsub : sub < 256) : m6.objN ix sub = m1.objN ix sub :=
    (KeepsStop.objN h6 hix hsub).trans (KeepsStop.objN h2 hix hsub)
  have hstage : m6.stage = dest := (h6obj (.inl rfl) (by decide)).trans h1.1
  have hpower6 : m6.power ≤ 1 := ((h6obj (.inr rfl) (by decide)).trans h1.2.1).trans_le hpower
  have hfloor : m6.objN 0x2000 9 = m.objN 0x2000 9 := (h6obj (.inl rfl) (by decide)).trans h1.2.2
  rw [if_neg (by omega), if_pos hpower6]
  have hresumed : KeepsStop (m6.setPower m6.runningState 1) (m6.setPower m6.runningState 1).resumeJobs := .resumeJobs (.refl ..)
  refine ⟨?_, ?_, ?_⟩
  · exact (KeepsStop.objN hresumed (.inl rfl) (by decide)).trans ((setPower_stage ..).trans hstage)
  · refine (KeepsStop.objN hresumed (.inr rfl) (by decide)).trans ((setPower_power ..).trans ?_)
    rw [Mach.runningState, hstage]
  · exact (KeepsStop.objN hresumed (.inl rfl) (by decide)).trans ((setPower_floor ..).trans hfloor)

theorem then_m (e : Eff) (f : Mach → Eff) : (e.then_ f).m = (f e.m).m := rfl

theorem setStage_running (hpower : m.power ≤ 1) (hdest : dest ≤ 5) (cause : Nat) (c : Ctx) :
    (m.setStage dest cause c).m.stage = dest ∧ (m.setStage dest cause c).m.power = (if dest = 0 then 0 else 1) ∧
      (m.setStage dest cause c).m.objN 0x2000 9 = m.objN 0x2000 9 := by
  obtain ⟨hstage, hstate, hfloor⟩ := takeStage_running hpower hdest cause c
  have hpaused : KeepsStop (m.takeStage dest cause c).m (m.setStage dest cause c).m := by
    rw [Mach.setStage, then_m]
    exact .pauseHeld (.refl ..)
  generalize m.setStage dest cause c = e at hpaused ⊢
  exact ⟨(KeepsStop.objN hpaused (.inl rfl) (by decide)).trans hstage, (KeepsStop.objN hpaused (.inr rfl) (by decide)).trans hstate,
    (KeepsStop.objN hpaused (.inl rfl) (by decide)).trans hfloor⟩

/-- A deeper demand is in force at once. -/
theorem evaluateStage_deepens (hpower : m.power ≤ 1) (hstep : 5 ≤ m.boot.step) (hcore : m.boot.cores.contains 3 = false)
    (hdeeper : m.stage < m.demanded.1) (hlimit : m.demanded.1 ≤ 5) (c : Ctx) :
    m.evaluateStage c = m.setStage m.demanded.1 m.demanded.2 c := by
  unfold Mach.evaluateStage
  rw [if_neg (by simp only [hcore, Bool.false_eq_true, false_or]; omega)]
  rcases hd : m.demanded with ⟨d, e⟩
  rw [hd] at hdeeper
  dsimp only at hdeeper ⊢
  rw [if_pos hdeeper]

/-- 2 s after the last change a shallower demand makes the stage one shallower. -/
theorem evaluateStage_rises (hpower : m.power ≤ 1) (hstep : 5 ≤ m.boot.step) (hcore : m.boot.cores.contains 3 = false)
    (hshallower : m.demanded.1 < m.stage) (hlimit : m.stage ≤ 5) (hdwell : m.power_.changedAt + sec 2 ≤ m.now) (c : Ctx) :
    m.evaluateStage c = m.draw.setStage (m.stage - 1) (Config.stageCause m.free).toNat c := by
  unfold Mach.evaluateStage
  rw [if_neg (by simp only [hcore, Bool.false_eq_true, false_or]; omega)]
  rcases hd : m.demanded with ⟨d, e⟩
  rw [hd] at hshallower
  dsimp only at hshallower ⊢
  rw [if_neg (by omega), if_pos ⟨hshallower, hdwell⟩]

/-- With no deeper demand the stage stands within 2 s of its last change. -/
theorem evaluateStage_stands (hdemand : m.demanded.1 ≤ m.stage) (hdwell : m.now < m.power_.changedAt + sec 2) (c : Ctx) :
    m.evaluateStage c = .of m := by
  unfold Mach.evaluateStage
  split
  · rfl
  · rcases hd : m.demanded with ⟨d, e⟩
    rw [hd] at hdemand
    dsimp only at hdemand ⊢
    rw [if_neg (Nat.not_lt.2 hdemand), if_neg fun h => Nat.not_le.2 hdwell h.2]

end Stages

/-! ### The floor (R445) -/

section Floor
variable {s : State} {w : WriteReq} {p : Put} {m : Mach}

/-- The floor is stored as it is written. -/
theorem store_floor (hix : p.ix = 0x2000) (hsub : p.sub = 9) (m : Mach) : p.store m = m.set 0x2000 9 p.v := by
  have hrow : (objRow 0x2000 9).map (fun r => r.ty.size.isNone) = some false := by decide +kernel
  obtain ⟨r, hr, hsize⟩ := Option.map_eq_some_iff.mp hrow
  simp [Put.store, hix, hsub, ownSession, hr, hsize, Session.bank]

theorem Reaches.run_stageFloor (h : Reaches s 0x2000 9 w p m) : p.run m = .ok ((m.set 0x2000 9 p.v).evaluateStage s.ctx) := by
  obtain ⟨hc, hix, hsub, -, -⟩ := h.put
  rw [← store_floor hix hsub, ← hc]
  simp [Put.run, Put.sessions, Put.supply, hix, hsub]

theorem demanded_floor {m : Mach} {n : Nat} (hfloor : m.objN 0x2000 9 = n) (hline : m.power_.line.stage ≤ n) (hriser : m.power_.riser.stage ≤ n)
    (hhold : m.objN 0x2000 0x0A ≤ n) : m.demanded.1 = n := by
  have hmax : m.demanded.1 = max (max (max (max 0 (min 6 m.power_.line.stage)) (min 6 m.power_.riser.stage)) (m.objN 0x2000 9))
      (m.objN 0x2000 0x0A) := rfl
  omega

end Floor

/-- Settles O44: evaluations by how the deepest demand stands to the stage in force, and the floor's write as one. -/
theorem stageInForceFollowsTheDemands : Obligations.StageInForceFollowsTheDemands := by
  unfold Obligations.StageInForceFollowsTheDemands
  refine ⟨?deepens, ?rises, ?stands, ?floor⟩
  case deepens =>
    intro s d hpower hstep hcore hd hdeeper hlimit
    subst hd
    refine ⟨_, rfl, ?_⟩
    obtain ⟨hstage, hstate, -⟩ := setStage_running hpower hlimit s.m.demanded.2 s.ctx
    rw [if_neg (by omega)] at hstate
    show (s.m.evaluateStage s.ctx).m.stage = _ ∧ (s.m.evaluateStage s.ctx).m.power = _
    rw [evaluateStage_deepens hpower hstep hcore hdeeper hlimit]
    exact ⟨hstage, hstate⟩
  case rises =>
    intro s hpower hstep hcore hshallower hlimit hdwell
    refine ⟨_, rfl, ?_⟩
    obtain ⟨hstage, hstate, -⟩ := setStage_running (m := s.m.draw) hpower (show s.m.stage - 1 ≤ 5 by omega)
      (Config.stageCause s.m.free).toNat s.ctx
    show (s.m.evaluateStage s.ctx).m.stage = _ ∧ (s.m.evaluateStage s.ctx).m.power = _
    rw [evaluateStage_rises hpower hstep hcore hshallower hlimit hdwell]
    refine ⟨hstage, hstate.trans ?_⟩
    split <;> split <;> omega
  case stands =>
    intro s hdemand hdwell
    exact runs_of_eff (f := evaluateStage) (evaluateStage_stands hdemand hdwell s.ctx) rfl
  case floor =>
    intro s w p m h hpower hstep hcore hlimit hdeeper hline hriser hhold
    have hfloor : (m.set 0x2000 9 p.v).objN 0x2000 9 = p.n := Mach.set_objN_same ..
    have hsame {ix sub : Nat} (hne : okey ix sub ≠ okey 0x2000 9) : (m.set 0x2000 9 p.v).objN ix sub = m.objN ix sub :=
      Mach.set_objN_ne _ _ _ _ _ hne
    have hstage : (m.set 0x2000 9 p.v).stage = m.stage := hsame (by decide)
    have hstate : (m.set 0x2000 9 p.v).power = m.power := hsame (by decide)
    have hdemand : (m.set 0x2000 9 p.v).demanded.1 = p.n :=
      demanded_floor hfloor hline hriser (by rw [hsame (by decide)]; exact hhold)
    obtain ⟨t, hnext, hafter, -⟩ := h.liftE_next h.run_stageFloor (by decide)
    rw [evaluateStage_deepens (hstate.trans_le hpower) hstep hcore (by rw [hdemand, hstage]; exact hdeeper) (by rw [hdemand]; exact hlimit)] at hafter
    obtain ⟨hstage', hstate', hfloor'⟩ := setStage_running (m := m.set 0x2000 9 p.v) (hstate.trans_le hpower)
      (show (m.set 0x2000 9 p.v).demanded.1 ≤ 5 by omega) (m.set 0x2000 9 p.v).demanded.2 s.ctx
    rw [hdemand, if_neg (by omega)] at hstate'
    exact ⟨t, hnext, (hafter.congr (Mach.objN · 0x2000 9)).trans (hfloor'.trans hfloor), (hafter.congr Mach.stage).trans (hstage'.trans hdemand),
      (hafter.congr Mach.power).trans (by rw [hdemand]; exact hstate')⟩

end Sys2Proof.Machine

/-! What steps and the selection leave alone, and O18 (R410, R417 to R420, R426). -/

namespace Sys2Proof.Machine

/-! ### Blocks whose events and objects move on -/

/-- A view and the objects of some keys are as they were, and no event is forgotten. -/
structure Follows {α : Type} (v : Mach → α) (K : Nat → Prop) (a b : Mach) : Prop where
  stays : Stays v K a b
  newest : a.jrn.newest ≤ b.jrn.newest

section Rules
variable {α : Type} {v : Mach → α} {K L : Nat → Prop} {a b c m : Mach}

theorem Follows.refl (v : Mach → α) (K : Nat → Prop) (m : Mach) : Follows v K m m := ⟨.refl .., Nat.le_refl _⟩

theorem Follows.trans (h : Follows v K a b) (k : Follows v K b c) : Follows v K a c := ⟨h.stays.trans k.stays, h.newest.trans k.newest⟩

theorem Follows.mono (h : Follows v K a b) (hL : ∀ k, L k → K k) : Follows v L a b := ⟨h.stays.mono hL, h.newest⟩

theorem Follows.keep (h : Follows v K a m) (hv : v b = v m) (hod : b.od = m.od) (hjrn : b.jrn = m.jrn) : Follows v K a b :=
  ⟨h.stays.keep hv hod, by rw [hjrn]; exact h.newest⟩

theorem Follows.ite {p : Prop} [Decidable p] {x y : Mach} (hx : p → Follows v K a x) (hy : ¬ p → Follows v K a y) :
    Follows v K a (if p then x else y) := iteInduction hx hy

theorem Follows.each {β : Type} {f : Mach → β → Mach} (l : List β) (hf : ∀ n, ∀ x ∈ l, Follows v K a n → Follows v K a (f n x))
    (h : Follows v K a m) : Follows v K a (Machine.each l m f) :=
  List.foldlRecOn l f (motive := fun n => Follows v K a n) h fun n hn x hx => hf n x hx hn

theorem Follows.set (h : Follows v K a m) {ix sub bank : Nat} {x : Int} (hkey : ∀ k, K k → k ≠ okey ix sub bank)
    (hv : v (m.set ix sub x bank) = v m) : Follows v K a (m.set ix sub x bank) := ⟨h.stays.set hkey hv, h.newest⟩

theorem Follows.raise (h : Follows v K a m) {code inst : Nat} {d : List (Nat × Nat)} (hkey : ∀ k, K k → k ≠ okey 0x1202 (code / 4096))
    (hv : Unreported v) : Follows v K a (m.raise code inst d) :=
  ⟨h.stays.recorded hkey hv, h.newest.trans (by rw [Mach.raise_newest]; exact Nat.le_succ _)⟩

end Rules

/-! ### A step of the time word (R410, R420, R435) -/

/-- What a restart of the schedule sees nothing of: PTP, the time unit, byte strings, the ports, the power unit, and the shutdown and cores. -/
def Mach.stepView (m : Mach) := (m.ptp, m.clk, m.strs, m.net, m.power_, m.boot.shut, m.boot.cores)

/-- The keys of the power state (0x2100), of the time (0x3000), of the domains (0x3010 and 0x3011), of the ports (0x4010 to 0x42FF) and of
shakeout (0x7C00). -/
def stepKeys (k : Nat) : Prop :=
  k / 256 = 0x2100 ∨ k / 256 = 0x3000 ∨ k / 256 = 0x3010 ∨ k / 256 = 0x3011 ∨ (0x4010 ≤ k / 256 ∧ k / 256 < 0x4300) ∨ k / 256 = 0x7C00

theorem stepView_unreported : Unreported Mach.stepView := fun _ _ _ _ _ => rfl

section Steps
variable {K : Nat → Prop} {a b m : Mach}

theorem stepKeys_ne {ix sub : Nat} (hix : ix ≠ 0x2100 ∧ ix ≠ 0x3000 ∧ ix ≠ 0x3010 ∧ ix ≠ 0x3011 ∧ (ix < 0x4010 ∨ 0x4300 ≤ ix) ∧ ix ≠ 0x7C00 ∧ sub < 256) (k : Nat) (hk : stepKeys k) :
    k ≠ okey ix sub := by
  unfold stepKeys at hk
  rw [okey]
  omega

theorem Follows.putKtl (h : Follows Mach.stepView stepKeys a m) {l : Nat} (hl : l < 192) (k : Ktl) :
    Follows Mach.stepView stepKeys a (m.putKtl l k) := by
  have hmoves := LaneMoves.putKtl m l k
  refine h.trans ⟨⟨by rw [hmoves.frame]; rfl, fun x hx => hmoves.objects x ?_⟩, by rw [hmoves.frame]⟩
  unfold stepKeys at hx
  omega

theorem Follows.sendKtl (h : Follows Mach.stepView stepKeys a m) {l : Nat} (hl : l < 192) (k : Ktl) :
    Follows Mach.stepView stepKeys a (m.sendKtl l k) := .ite (fun _ => h) (fun _ => h.putKtl hl k)

theorem Follows.toAll (h : Follows Mach.stepView stepKeys a m) (k : Ktl) : Follows Mach.stepView stepKeys a (m.toAll k) := by
  refine h.each _ fun n c hc hn => ?_
  have hchain : c < 96 := by simpa [upTo] using hc
  exact .ite (fun _ => (hn.sendKtl (by omega) k).sendKtl (by omega) k) (fun _ => hn.sendKtl (by omega) k)

theorem Follows.dropHeat (h : Follows Mach.stepView stepKeys a m) : Follows Mach.stepView stepKeys a m.dropHeat := by
  unfold Mach.dropHeat
  extract_lets m1 m2 m3 m4
  have h1 : Follows Mach.stepView stepKeys a m1 := .keep h rfl rfl rfl
  clear_value m1
  have h2 : Follows Mach.stepView stepKeys a m2 := .keep h1 rfl rfl rfl
  clear_value m2
  have h4 : Follows Mach.stepView stepKeys a m4 := .keep h2 rfl rfl rfl
  clear_value m4
  exact .keep h4 rfl rfl rfl

theorem Follows.endCapture (h : Follows Mach.stepView stepKeys a m) (reason : Nat) : Follows Mach.stepView stepKeys a (m.endCapture reason) :=
  .ite (fun _ => h) fun _ => .raise (m := (m.setN 0x5418 8 _).setN 0x5418 0x0A reason)
    (.set (.set h (stepKeys_ne (by decide)) rfl) (stepKeys_ne (by decide)) rfl) (stepKeys_ne (by decide)) stepView_unreported

theorem Follows.onPipe (h : Follows Mach.stepView stepKeys a m) (f : Pipeline → Pipeline) : Follows Mach.stepView stepKeys a (m.onPipe f) :=
  .keep h rfl rfl rfl

/-- The state of the schedule is shown (0x5000:0A). -/
theorem Follows.shown (h : Follows Mach.stepView stepKeys a m) (x : Nat) : Follows Mach.stepView stepKeys a (m.setN 0x5000 0x0A x) :=
  .set h (stepKeys_ne (by decide)) rfl

theorem Follows.followCommons (h : Follows Mach.stepView stepKeys a m) : Follows Mach.stepView stepKeys a m.followCommons := by
  unfold Mach.followCommons
  extract_lets enter m1
  have h1 : Follows Mach.stepView stepKeys a m1 := .ite (fun _ => .keep h rfl rfl rfl) (fun _ => h)
  refine h1.each _ fun n k hk hn => .ite (fun _ => hn) fun _ => ?_
  have hcommon : k < 64 := by simpa [upTo] using hk
  have hset : Follows Mach.stepView stepKeys a (n.setN (0x6310 + k) 1 (n.targetOf k)) := .set hn (stepKeys_ne (by omega)) rfl
  exact .ite (fun _ => .keep hset rfl rfl rfl) (fun _ => hset)

theorem Follows.observeStage (h : Follows Mach.stepView stepKeys a m) : Follows Mach.stepView stepKeys a m.observeStage := by
  unfold Mach.observeStage
  extract_lets outs m1
  have h1 : Follows Mach.stepView stepKeys a m1 := .keep h rfl rfl rfl
  exact .ite (fun _ => h1.endCapture 2) fun _ => h1

theorem Follows.stopHeats (h : Follows Mach.stepView stepKeys a m) : Follows Mach.stepView stepKeys a m.stopHeats := by
  unfold Mach.stopHeats
  extract_lets m1 m2 boot m3
  have h1 : Follows Mach.stepView stepKeys a m1 := by
    unfold m1
    split
    · exact .set (.set (.set h (ix := 0x5000) (sub := 6) (stepKeys_ne (by decide)) rfl) (sub := 7) (stepKeys_ne (by decide)) rfl) (sub := 8)
        (stepKeys_ne (by decide)) rfl
    · exact h
  clear_value m1
  have h2 : Follows Mach.stepView stepKeys a m2 := .dropHeat (.keep h1 rfl rfl rfl)
  clear_value m2
  have h3 : Follows Mach.stepView stepKeys a m3 := .keep h2 rfl rfl rfl
  exact .followCommons (.observeStage (.set (h3.shown 0) (stepKeys_ne (by decide)) rfl))

/-- A step drops the heat in flight and restarts the schedule, or stops it where its stop is pending. -/
theorem Follows.restartAfterStep (m : Mach) : Follows Mach.stepView stepKeys m m.restartAfterStep := by
  unfold Mach.restartAfterStep
  extract_lets later boot m1 m2
  have h1 : Follows Mach.stepView stepKeys m m1 := .toAll (.dropHeat (.refl ..)) _
  have h2 : Follows Mach.stepView stepKeys m m2 := h1.endCapture 3
  clear_value m1 m2 later
  refine .ite (fun _ => .keep (.refl ..) rfl rfl rfl) fun _ => .ite (fun _ => h1.stopHeats) fun _ => ?_
  split
  exact (h2.onPipe _).shown _

end Steps

/-- The step of the time word, but for the restart of the schedule. -/
def Mach.stepped (m : Mach) (by_ : Int) (reason : Nat) : Mach :=
  let m := m.onClk (fun k => { k with reg := (k.reg + by_ * 65536).toNat })
  let m := (m.onPtp (fun p => { p with lastStep := some m.now })).stepOutputs
  let m := (m.bump 0x3000 0x0A).set 0x3000 0x0B (toI64 by_)
  m.raise 0x4004 0 [(8, toUnsigned 64 (toI64 by_)), (1, reason)]

theorem stepTime_eq (m : Mach) (by_ : Int) (reason : Nat) :
    m.stepTime by_ reason = if (m.clk.reg : Int) + by_ * 65536 < 0 then m else (m.stepped by_ reason).restartAfterStep := rfl

/-- Active pulses end with no change but of the outputs, the ticks known and what is sent. -/
theorem stepOutputs_eq (m : Mach) : ∃ (out : List Out) (outs : List SyncOut),
    m.stepOutputs = { m with out := out, ptp := { m.ptp with ticks := [], outs := outs } } := by
  unfold Mach.stepOutputs
  extract_lets ended m1
  have hemits (l : List Nat) (n : Mach) : ∃ out : List Out,
      Machine.each l n (fun n o => n.emit (.syncEdge o (n.ptp.outs.getD o {}).set_.idle n.timeWord)) = { n with out := out } :=
    List.foldlRecOn l _ (motive := fun k : Mach => ∃ out, k = { n with out := out }) ⟨_, rfl⟩ fun k ⟨out, hk⟩ o _ => by
      subst hk
      exact ⟨_, rfl⟩
  obtain ⟨out, h⟩ := hemits ended m1
  exact ⟨out, _, h⟩

/-- The block in which a step is reported: the time word moved, and the sync outputs at rest. -/
def Mach.stepBase (m : Mach) (by_ : Int) (out : List Out) (outs : List SyncOut) : Mach :=
  { m with
    clk := { m.clk with reg := (m.clk.reg + by_ * 65536).toNat }
    ptp := { m.ptp with lastStep := some m.now, ticks := [], outs := outs }
    out := out }

theorem stepped_eq (m : Mach) (by_ : Int) (reason : Nat) : ∃ out outs, m.stepped by_ reason =
    (((m.stepBase by_ out outs).bump 0x3000 0x0A).set 0x3000 0x0B (toI64 by_)).raise 0x4004 0
      [(8, toUnsigned 64 (toI64 by_)), (1, reason)] := by
  unfold Mach.stepped
  extract_lets m1
  obtain ⟨out, outs, h⟩ := stepOutputs_eq (m1.onPtp fun p => { p with lastStep := some m1.now })
  exact ⟨out, outs, congrArg (fun n : Mach => ((n.bump 0x3000 0x0A).set 0x3000 0x0B (toI64 by_)).raise 0x4004 0
    [(8, toUnsigned 64 (toI64 by_)), (1, reason)]) h⟩

/-! ### What a change of the time leaves alone (R417 to R420) -/

/-- The domains, byte strings, the ports, the power unit, the shutdown, the cores and the counter of the time unit. -/
def Mach.timeView (m : Mach) := (m.ptp.doms, m.strs, m.net, m.power_, m.boot.shut, m.boot.cores, m.clk.mono)

/-- The keys of the power state (0x2100), of the domains (0x3010 and 0x3011), of the selection mode (0x3000:03), of the ports (0x4010 to 0x42FF)
and of shakeout (0x7C00). -/
def timeKeys (k : Nat) : Prop :=
  k / 256 = 0x2100 ∨ k / 256 = 0x3010 ∨ k / 256 = 0x3011 ∨ k = okey 0x3000 3 ∨ (0x4010 ≤ k / 256 ∧ k / 256 < 0x4300) ∨ k / 256 = 0x7C00

/-- `timeKeys`, and the key of the active domain (0x3000:02). -/
def activeKeys (k : Nat) : Prop := timeKeys k ∨ k = okey 0x3000 2

/-- From one block to the next the time and its status may change, but not the active domain. -/
abbrev KeepsActive (a b : Mach) : Prop := Follows Mach.timeView activeKeys a b

/-- From one block to the next the time, its status and the active domain may change. -/
abbrev KeepsDomains (a b : Mach) : Prop := Follows Mach.timeView timeKeys a b

theorem timeView_unreported : Unreported Mach.timeView := fun _ _ _ _ _ => rfl

theorem activeKeys_ne {ix sub : Nat} (hix : ix ≠ 0x2100 ∧ ix ≠ 0x3010 ∧ ix ≠ 0x3011 ∧ (ix ≠ 0x3000 ∨ sub ≠ 2 ∧ sub ≠ 3) ∧
    (ix < 0x4010 ∨ 0x4300 ≤ ix) ∧ ix ≠ 0x7C00 ∧ sub < 256) (k : Nat)
    (hk : activeKeys k) : k ≠ okey ix sub := by
  simp only [activeKeys, timeKeys, okey] at *
  omega

theorem timeKeys_ne {ix sub : Nat} (hix : ix ≠ 0x2100 ∧ ix ≠ 0x3010 ∧ ix ≠ 0x3011 ∧ (ix ≠ 0x3000 ∨ sub ≠ 3) ∧
    (ix < 0x4010 ∨ 0x4300 ≤ ix) ∧ ix ≠ 0x7C00 ∧ sub < 256) (k : Nat)
    (hk : timeKeys k) : k ≠ okey ix sub := by
  simp only [timeKeys, okey] at *
  omega

section Times
variable {a b m : Mach} {d : Nat}

theorem Follows.active (h : KeepsActive a b) : KeepsDomains a b := h.mono fun _ => .inl

theorem Follows.restarts (h : KeepsActive a m) : KeepsActive a m.restartAfterStep := by
  obtain ⟨⟨hsame, hobjects⟩, hnewest⟩ := Follows.restartAfterStep m
  simp only [Mach.stepView, Prod.mk.injEq] at hsame
  obtain ⟨hptp, hclk, hstrs, hnet, hpower, hshut, hcores⟩ := hsame
  refine h.trans ⟨⟨?_, fun k hk => hobjects k ?_⟩, hnewest⟩
  · simp only [Mach.timeView, hptp, hclk, hstrs, hnet, hpower, hshut, hcores]
  · simp only [activeKeys, timeKeys, stepKeys, okey] at *
    omega

theorem Follows.bump {α : Type} {v : Mach → α} {K : Nat → Prop} (h : Follows v K a m) {ix sub n bank : Nat}
    (hkey : ∀ k, K k → k ≠ okey ix sub bank) (hv : v (m.bump ix sub n bank) = v m) : Follows v K a (m.bump ix sub n bank) := by
  obtain ⟨x, hx⟩ := Mach.bump_eq m ix sub n bank
  rw [hx] at hv ⊢
  exact h.set hkey hv

theorem Follows.stepTime (h : KeepsActive a m) (by_ : Int) (reason : Nat) :
    KeepsActive a (m.stepTime by_ reason) := by
  rw [stepTime_eq]
  refine .ite (fun _ => h) fun _ => .restarts ?_
  obtain ⟨out, outs, heq⟩ := stepped_eq m by_ reason
  rw [heq]
  have hbase : KeepsActive a (m.stepBase by_ out outs) := h.keep rfl rfl rfl
  exact .raise (m := ((m.stepBase by_ out outs).bump 0x3000 0x0A).set 0x3000 0x0B (toI64 by_))
    (.set (hbase.bump (activeKeys_ne (by decide)) (by simp [Mach.timeView])) (activeKeys_ne (by decide)) rfl)
    (activeKeys_ne (by decide)) timeView_unreported

theorem Follows.gateLock (h : KeepsActive a m) : KeepsActive a m.gateLock :=
  .ite (fun _ => h) fun _ => .each _ (fun n _ _ hn => .keep (m := n) hn rfl rfl rfl) h

theorem Follows.setStatus (h : KeepsActive a m) (st : Nat) : KeepsActive a (m.setStatus st) :=
  .gateLock (.set h (activeKeys_ne (by decide)) rfl)

theorem Follows.slew (h : KeepsActive a m) (d : Nat) : KeepsActive a (m.slew d) := by
  unfold Mach.slew
  extract_lets i m1
  have h1 : KeepsActive a m1 := .keep (m := m.setN 0x3000 9 i) (.set h (activeKeys_ne (by decide)) rfl) rfl rfl rfl
  exact .keep h1 rfl rfl rfl

theorem Follows.holdover (h : KeepsActive a m) (u : Option Nat) : KeepsActive a (m.holdover u) := by
  unfold Mach.holdover
  extract_lets before m1 m2
  have h1 : KeepsActive a m1 := by
    have h0 : KeepsActive a (m.onClk fun k => { k with u0 := u, holdAt := m.now }) := h.keep rfl rfl rfl
    exact .set (.set h0 (ix := 0x3000) (sub := 1) (activeKeys_ne (by decide)) rfl) (sub := 0x0E) (activeKeys_ne (by decide)) rfl
  exact .raise (.gateLock h1) (activeKeys_ne (by decide)) timeView_unreported

theorem Follows.loseTime (h : KeepsActive a m) : KeepsActive a m.loseTime := by
  unfold Mach.loseTime
  extract_lets l m1
  have h1 : KeepsActive a m1 := .ite (fun _ => h) fun _ => .set h (activeKeys_ne (by decide)) rfl
  split
  · exact h1.holdover _
  · exact h1.holdover _
  · exact h1.holdover _
  · exact h1

theorem Follows.objN {α : Type} {v : Mach → α} {K : Nat → Prop} (h : Follows v K a b) {ix sub : Nat} (hk : K (okey ix sub)) :
    b.objN ix sub = a.objN ix sub := h.stays.objN_of_key hk

/-- A change of the active domain is shown and reported, and keeps the domains. -/
theorem activate_moves (m : Mach) (dest : Nat) :
    KeepsDomains m (m.activate dest) ∧ (m.activate dest).objN 0x3000 2 = dest ∧ m.jrn.newest < (m.activate dest).jrn.newest := by
  unfold Mach.activate
  extract_lets from_ st off m1 m2 o step reason n1 n2 n3 n4
  refine iteInduction (motive := fun n : Mach => KeepsDomains m n ∧ n.objN 0x3000 2 = dest ∧ m.jrn.newest < n.jrn.newest)
    (fun hnone => ?_) fun _ => ?_
  · have h2 : KeepsActive m m2 := .loseTime (.keep (.refl ..) rfl rfl rfl)
    clear_value m2
    refine ⟨.raise (.set h2.active (timeKeys_ne (by decide)) rfl) (timeKeys_ne (by decide)) timeView_unreported, ?_, ?_⟩
    · rw [Mach.raise_objN _ _ _ _ (by decide)]
      exact (Mach.set_objN_same ..).trans hnone.symm
    · rw [Mach.raise_newest]
      exact Nat.lt_succ_of_le h2.newest
  · have h1 : KeepsDomains m n1 := .set (.set (.refl ..) (sub := 2) (timeKeys_ne (by decide)) rfl) (sub := 0x0F) (timeKeys_ne (by decide)) rfl
    have hdest : n1.objN 0x3000 2 = dest := by
      refine (Mach.set_objN_ne _ 0x3000 0x0F _ _ (by decide)).trans ?_
      exact Mach.set_objN_same ..
    have h2 : KeepsActive n1 n2 := .keep (.refl ..) rfl rfl rfl
    have h3 : KeepsActive n1 n3 := .ite (fun _ => h2) fun _ => h2.setStatus 1
    have h4 : KeepsActive n1 n4 := .raise h3 (activeKeys_ne (by decide)) timeView_unreported
    have hnewest : m.jrn.newest < n4.jrn.newest := by
      show m.jrn.newest < (n3.raise _ _ _).jrn.newest
      rw [Mach.raise_newest]
      exact Nat.lt_succ_of_le (h1.newest.trans h3.newest)
    have hfinish : ∀ n, KeepsActive n4 n → KeepsDomains m n ∧ n.objN 0x3000 2 = dest ∧ m.jrn.newest < n.jrn.newest := fun n hn =>
      ⟨h1.trans (h4.trans hn).active, ((h4.trans hn).objN (.inr rfl)).trans hdest, hnewest.trans_le hn.newest⟩
    exact iteInduction (motive := fun n : Mach => KeepsDomains m n ∧ n.objN 0x3000 2 = dest ∧ m.jrn.newest < n.jrn.newest)
      (fun _ => hfinish _ (.stepTime (.refl ..) ..)) fun _ => hfinish _ (.slew (.refl ..) _)

/-- The selection leaves active the domain chosen by its mode, and keeps the domains. -/
theorem select_moves (m : Mach) : KeepsDomains m m.select ∧ m.select.objN 0x3000 2 = m.chosen ∧
    (m.chosen ≠ m.objN 0x3000 2 → m.jrn.newest < m.select.jrn.newest) := by
  unfold Mach.select
  extract_lets dest m1
  have h1 : KeepsDomains m m1 ∧ m1.objN 0x3000 2 = dest ∧ (dest ≠ m.objN 0x3000 2 → m.jrn.newest < m1.jrn.newest) := by
    refine iteInduction (motive := fun n : Mach => KeepsDomains m n ∧ n.objN 0x3000 2 = dest ∧
      (dest ≠ m.objN 0x3000 2 → m.jrn.newest < n.jrn.newest)) (fun _ => ?_) fun hsame => ?_
    · obtain ⟨hkeeps, hdest, hnewest⟩ := activate_moves m dest
      exact ⟨hkeeps, hdest, fun _ => hnewest⟩
    · exact ⟨.refl .., (not_not.mp hsame).symm, fun h => absurd h hsame⟩
  obtain ⟨hkeeps, hdest, hnewest⟩ := h1
  refine iteInduction (motive := fun n : Mach => KeepsDomains m n ∧ n.objN 0x3000 2 = dest ∧
    (dest ≠ m.objN 0x3000 2 → m.jrn.newest < n.jrn.newest)) (fun _ => ?_) fun _ => ⟨hkeeps, hdest, hnewest⟩
  have hlost : KeepsActive m1 m1.loseTime := .loseTime (.refl ..)
  exact ⟨hkeeps.trans hlost.active, (hlost.objN (.inr rfl)).trans hdest, fun h => (hnewest h).trans_le hlost.newest⟩

theorem Follows.select (h : KeepsDomains a m) : KeepsDomains a m.select := h.trans (select_moves m).1

/-- What waits for nothing still waits for nothing. -/
theorem Follows.settled (h : KeepsDomains a b) (ha : a.settled = true) : b.settled = true := by
  have hview := h.stays.view
  simp only [Mach.timeView, Prod.mk.injEq] at hview
  obtain ⟨-, -, -, hpower, hshut, -⟩ := hview
  rw [Mach.settled, Mach.stopping, hpower, hshut, h.objN (.inl rfl)]
  exact ha

end Times

/-! ### O18 -/

section Writes
variable {s : State} {w : WriteReq} {p : Put} {m n : Mach} {by_ : Int} {reason : Nat} {c : Ctx}

/-- A step that is not below 0 s moves the time word, is counted and reported, and leaves the status. -/
theorem stepTime_steps (hroom : m.objN 0x3000 0x0A < 2 ^ 32 - 1) (hto : 0 ≤ (m.clk.reg : Int) + by_ * 65536) :
    ((m.stepTime by_ reason).clk.reg : Int) = m.clk.reg + by_ * 65536 ∧ (m.stepTime by_ reason).timeStatus = m.timeStatus ∧
      (m.stepTime by_ reason).objN 0x3000 0x0A = m.objN 0x3000 0x0A + 1 ∧ (m.stepTime by_ reason).ptp.lastStep = some m.now ∧
      m.jrn.newest < (m.stepTime by_ reason).jrn.newest := by
  obtain ⟨out, outs, heq⟩ := stepped_eq m by_ reason
  have hbase : (m.stepBase by_ out outs).od = m.od := rfl
  have hreg : ((m.stepBase by_ out outs).clk.reg : Int) = m.clk.reg + by_ * 65536 := Int.toNat_of_nonneg hto
  have hlast : (m.stepBase by_ out outs).ptp.lastStep = some m.now := rfl
  have hjrn : (m.stepBase by_ out outs).jrn = m.jrn := rfl
  rw [stepTime_eq, if_neg (by omega), heq]
  generalize m.stepBase by_ out outs = n at *
  generalize hr : ((n.bump 0x3000 0x0A).set 0x3000 0x0B (toI64 by_)).raise 0x4004 0 [(8, toUnsigned 64 (toI64 by_)), (1, reason)] = r
  have hrest : r.clk = n.clk ∧ r.ptp = n.ptp ∧ r.jrn.newest = n.jrn.newest + 1 := by
    subst hr
    refine ⟨?_, ?_, ?_⟩ <;> simp
  have hcount : r.objN 0x3000 0x0A = m.objN 0x3000 0x0A + 1 := by
    have hn : n.objN 0x3000 0x0A = m.objN 0x3000 0x0A := Mach.objN_congr hbase ..
    rw [← hr, Mach.raise_objN _ _ _ _ (by decide), Mach.set_objN_ne _ _ _ _ _ (by decide), Mach.bump_objN_same, hn]
    rw [hn, show objMax 0x3000 0x0A = 2 ^ 32 - 1 by decide +kernel]
    omega
  have hstatus : r.objN 0x3000 1 = m.objN 0x3000 1 := by
    rw [← hr, Mach.raise_objN _ _ _ _ (by decide), Mach.set_objN_ne _ _ _ _ _ (by decide), Mach.bump_objN_ne _ _ _ _ _ (by decide)]
    exact Mach.objN_congr hbase ..
  obtain ⟨hclk, hptp, hnewest⟩ := hrest
  have hk := Follows.restartAfterStep r
  have hsame := hk.stays.view
  simp only [Mach.stepView, Prod.mk.injEq] at hsame
  obtain ⟨hptp', hclk', -⟩ := hsame
  refine ⟨?_, ?_, ?_, ?_, ?_⟩
  · rw [hclk', hclk, hreg]
  · exact (hk.objN (.inr (.inl rfl))).trans hstatus
  · exact (hk.objN (.inr (.inl rfl))).trans hcount
  · rw [hptp', hptp, hlast]
  · have := hk.newest
    rw [hjrn] at hnewest
    omega

/-- TIME_SET is the write of 0x3000:0D. -/
theorem Reaches.run_timeSet (h : Reaches s 0x3000 0x0D w p m) : p.run m = (m.setTime p.n).map (fun m => m.advanceStops p.c) := by
  obtain ⟨-, hix, hsub, -, -⟩ := h.put
  simp [Put.run, Put.sessions, Put.supply, Put.times, hix, hsub]

/-- SELECTION_MODE_WRITE is the write of 0x3000:03. -/
theorem Reaches.run_selectionMode (h : Reaches s 0x3000 3 w p m) : p.run m = .ok ((m.writeSelection p.n).advanceStops p.c) := by
  obtain ⟨-, hix, hsub, -, -⟩ := h.put
  simp [Put.run, Put.sessions, Put.supply, Put.times, hix, hsub]

/-- A change of the time status may end pulses of sync outputs. -/
theorem gateLock_eq (m : Mach) : ∃ ptp out, m.gateLock = { m with ptp := ptp, out := out } := by
  refine iteInduction (motive := fun n : Mach => ∃ ptp out, n = { m with ptp := ptp, out := out }) (fun _ => ⟨m.ptp, m.out, rfl⟩) fun _ => ?_
  refine List.foldlRecOn _ _ (motive := fun n : Mach => ∃ ptp out, n = { m with ptp := ptp, out := out }) ⟨m.ptp, m.out, rfl⟩ ?_
  rintro n ⟨ptp, out, rfl⟩ o -
  exact ⟨_, _, rfl⟩

theorem setTime_steps (hmode : m.objN 0x3000 3 = 4) (hmay : m.mayStep = true)
    (hroom : m.objN 0x3000 0x0A < 2 ^ 32 - 1) (t : Nat) : ∃ n, m.setTime t = .ok n ∧ KeepsActive m n ∧ n.timeWord = t ∧
      n.timeStatus = 4 ∧ n.objN 0x3000 0x0A = m.objN 0x3000 0x0A + 1 ∧ n.ptp.lastStep = some m.now ∧ m.jrn.newest < n.jrn.newest := by
  have hstatus : KeepsActive m (m.setStatus 4) := .setStatus (.refl ..) 4
  obtain ⟨ptp, out, hgate⟩ := gateLock_eq (m.setN 0x3000 1 4)
  have hset : m.setTime t = .ok ((m.setStatus 4).stepTime ((t : Int) - m.timeWord) 4) := if_neg (by simp [hmode, hmay])
  refine ⟨_, hset, hstatus.stepTime .., ?_⟩
  have heq : m.setStatus 4 = { m.setN 0x3000 1 4 with ptp := ptp, out := out } := hgate
  generalize m.setStatus 4 = n at *
  have hclk : n.clk = m.clk := by rw [heq]; rfl
  have hjrn : n.jrn = m.jrn := by rw [heq]; rfl
  have hnow : n.now = m.now := congrArg Clk.mono hclk
  have hod : n.od = (m.setN 0x3000 1 4).od := by rw [heq]
  have hcount : n.objN 0x3000 0x0A = m.objN 0x3000 0x0A := (Mach.objN_congr hod ..).trans (Mach.set_objN_ne _ _ _ _ _ (by decide))
  have hfour : n.timeStatus = 4 := (Mach.objN_congr hod ..).trans (Mach.set_objN_same ..)
  have hword : (m.timeWord : Int) = m.clk.reg / 65536 := by rw [Mach.timeWord]; exact Int.natCast_ediv ..
  obtain ⟨hreg, hkept, hcounted, hlast, hnewest⟩ := stepTime_steps (m := n) (by_ := (t : Int) - m.timeWord) (reason := 4)
    (by rw [hcount]; exact hroom) (by rw [hclk]; omega)
  refine ⟨?_, hkept.trans hfour, by rw [hcounted, hcount], by rw [hlast, hnow], by rwa [← hjrn]⟩
  rw [hclk] at hreg
  rw [Mach.timeWord]
  omega

/-- With nothing waiting, an event of PTP is the change that it makes. -/
theorem ptpEvent_runs {f : Ctx → Mach → Mach} {P : State → Prop} (hcore : s.m.boot.cores.contains 1 = false)
    (hsettled : (f s.ctx s.m).settled = true) (hP : P { s with m := f s.ctx s.m }) :
    ∃ t, liftE (fun c => ptpEvent (f c) c) s = .next t ∧ P t := by
  refine runs_of_eff (f := fun c => ptpEvent (f c) c) (m := f s.ctx s.m) ?_ hP
  show (if s.m.boot.cores.contains 1 then Eff.of s.m else (f s.ctx s.m).advanceStops s.ctx) = _
  rw [hcore]
  exact advanceStops_of_settled hsettled _

theorem chosen_of_mode {k : Nat} (h : m.objN 0x3000 3 = k) : (k = 0 → m.chosen = if m.qualified 0 then 0 else 0xFF) ∧
    (k = 1 → m.chosen = if m.qualified 1 then 1 else 0xFF) ∧
    (k = 3 → m.chosen = if m.objN 0x3000 2 ≤ 1 ∧ m.qualified (m.objN 0x3000 2) = true then m.objN 0x3000 2
      else if m.qualified 0 then 0 else if m.qualified 1 then 1 else 0xFF) ∧
    (k = 4 → m.chosen = 0xFF) := by
  refine ⟨?_, ?_, ?_, ?_⟩ <;> rintro rfl <;> simp [Mach.chosen, h]

end Writes

/-- Settles O18: the writes by their rules, the revert delay by the domain that it makes the selection choose. -/
theorem timeIsSteppedAndSelected : Obligations.TimeIsSteppedAndSelected := by
  unfold Obligations.TimeIsSteppedAndSelected
  refine ⟨?set, ?refused, ?mode, ?reverts, ?waits, ?lost, ?kept⟩
  case set =>
    intro s w p m h hmode hmay hsettled hroom
    obtain ⟨n, hset, hkeeps, hword, hstatus, hcount, hlast, hnewest⟩ := setTime_steps hmode hmay hroom p.n
    have hrun : p.run m = act n := by
      rw [h.run_timeSet, hset]
      exact congrArg Except.ok (advanceStops_of_settled (hkeeps.active.settled hsettled) p.c)
    refine h.runs_act (by decide) hrun fun a ha => ⟨?_, ?_, ?_, ?_, ?_, rfl⟩
    · exact (ha.congr Mach.timeWord).trans hword
    · exact (ha.congr Mach.timeStatus).trans hstatus
    · exact (ha.objN_eq ..).trans hcount
    · exact (ha.congr fun m => m.ptp.lastStep).trans hlast
    · rwa [ha.jrn]
  case refused =>
    intro s w p m h hcase
    refine h.runs_unchanged (a := abPrecondition) (by decide) ?_
    rw [h.run_timeSet, Mach.setTime, if_pos (by simpa using hcase)]
    rfl
  case mode =>
    intro s w p m h hsettled
    have hset : (m.setN 0x3000 3 p.n).settled = true := by
      rw [Mach.settled, Mach.stopping, Mach.setN_objN_ne _ _ _ _ _ (by decide)]
      exact hsettled
    obtain ⟨hkeeps, hactive, -⟩ := select_moves (m.setN 0x3000 3 p.n)
    have hrun : p.run m = act (m.writeSelection p.n) := by
      rw [h.run_selectionMode]
      exact congrArg Except.ok (advanceStops_of_settled (hkeeps.settled hset) p.c)
    have hmode : (m.setN 0x3000 3 p.n).objN 0x3000 3 = p.n := Mach.set_objN_same ..
    have hnow : (m.setN 0x3000 3 p.n).objN 0x3000 2 = m.objN 0x3000 2 := Mach.set_objN_ne _ _ _ _ _ (by decide)
    have hqualified (d : Nat) (hd : d < 2) : (m.setN 0x3000 3 p.n).qualified d = m.qualified d := by
      rw [Mach.qualified, Mach.domState, Mach.setN_objN_ne _ _ _ _ _ (okey_ne (by omega) (by omega) (by omega) (by omega) (by omega))]
      rfl
    refine h.runs_act (by decide) hrun fun a ha => ⟨?_, ?_⟩
    · exact (ha.objN_eq ..).trans ((hkeeps.objN (.inr (.inr (.inr (.inl rfl))))).trans hmode)
    · rw [ha.objN_eq, Mach.writeSelection, hactive]
      obtain ⟨hzero, hone, hthree, hfour⟩ := chosen_of_mode hmode
      rw [hqualified 0 (by decide)] at hzero
      rw [hqualified 1 (by decide)] at hone
      rw [hqualified 0 (by decide), hqualified 1 (by decide), hnow] at hthree
      refine ⟨hzero, hone, fun h3 => (hthree h3).trans ?_, hfour⟩
      by_cases hle : m.objN 0x3000 2 ≤ 1
      · rw [hqualified _ (by omega)]
      · simp only [hle, false_and, if_false]
  case reverts =>
    intro s hcore hsettled hmode hactive hqualified hdue
    have hchosen : s.m.chosen = 0 := by
      rw [Mach.chosen, hmode]
      simp [hqualified, hdue]
    obtain ⟨hkeeps, hnow, hnewest⟩ := select_moves s.m
    refine ptpEvent_runs (f := fun _ => revertDelayExpiry) hcore (hkeeps.settled hsettled) ⟨hnow.trans hchosen, hnewest ?_⟩
    rw [hchosen, hactive]
    decide
  case waits =>
    intro s hcore hsettled hmode hactive hqualified htook hearly
    have hchosen : s.m.chosen = 1 := by
      simp only [Mach.chosen, hmode]
      simp [hqualified, htook, hearly]
    have hselect : revertDelayExpiry s.m = s.m := by
      rw [revertDelayExpiry, Mach.select, hchosen, hactive]
      simp [hactive]
    refine ptpEvent_runs (f := fun _ => revertDelayExpiry) hcore (by rwa [hselect]) ?_
    rw [hselect]
  case lost =>
    intro s hpower
    refine runs_of_lift (f := fun _ => aoIslandPowerLoss) ?_
    rw [aoIslandPowerLoss, if_neg (by omega)]
    have hstatus (n : Mach) : (n.sets 0x3000 [(1, 0), (2, 0xFF)]).objN 0x3000 1 = 0 :=
      (Mach.set_objN_ne _ 0x3000 2 _ _ (by decide)).trans (Mach.set_objN_same ..)
    have hactive (n : Mach) : (n.sets 0x3000 [(1, 0), (2, 0xFF)]).objN 0x3000 2 = 0xFF := Mach.set_objN_same ..
    exact ⟨hstatus _, hactive _, Nat.zero_div _, rfl, rfl, rfl, rfl⟩
  case kept =>
    intro s hpower
    exact runs_of_lift (f := fun _ => aoIslandPowerLoss) (by rw [aoIslandPowerLoss, if_pos hpower])

end Sys2Proof.Machine

/-! PTP messages and timers, and O17 (R412 to R416, R542). -/

namespace Sys2Proof.Machine

section Domains
variable {m : Mach} {d st : Nat}

/-! ### Domains and their objects -/

theorem Mach.dom_onDom (f : Domain → Domain) (h : d < m.ptp.doms.length) : (m.onDom d f).dom d = f (m.dom d) := by
  simp [Mach.dom, Mach.onDom, Mach.onPtp, modAt, List.getD_eq_getElem?_getD, List.getElem?_eq_getElem h]

theorem dom_of_doms {a b : Mach} (h : b.ptp.doms = a.ptp.doms) (d : Nat) : b.dom d = a.dom d := by
  rw [Mach.dom, h]
  rfl

/-- A domain that is not the default one is in the list. -/
theorem lt_length_of_dom (h : m.dom d ≠ {}) : d < m.ptp.doms.length := by
  by_contra hout
  exact h (List.getD_eq_default _ _ (by omega))

/-- The block in which the selection follows the change of a domain's state (R416). -/
def Mach.moved (m : Mach) (d st : Nat) : Mach :=
  let m := m.setN (0x3010 + d) 6 st
  let m := m.onDom d (fun x => if st = 3 then { x with qualifiedAt := m.now }
    else { x with offsets := [], inLock := 0, outLock := 0, overStep := 0, pending := [] })
  m.raise 0x4005 d [(1, d), (1, st), (8, ofBE (m.str (0x3010 + d) 7))]

theorem setDomain_eq (h : m.domState d ≠ st) : m.setDomain d st = (m.moved d st).select := if_neg h

theorem setDomain_same (h : m.domState d = st) : m.setDomain d st = m := if_pos h

theorem moved_newest (m : Mach) (d st : Nat) : (m.moved d st).jrn.newest = m.jrn.newest + 1 := by
  rw [Mach.moved, Mach.raise_newest]
  rfl

theorem moved_objN {ix sub : Nat} (h : okey ix sub ≠ okey (0x3010 + d) 6) (hcount : okey ix sub ≠ okey 0x1202 4) :
    (m.moved d st).objN ix sub = m.objN ix sub := by
  rw [Mach.moved, Mach.raise_objN _ _ _ _ hcount]
  exact Mach.setN_objN_ne _ _ _ _ _ h

theorem moved_settled (hd : d < 2) (h : m.settled = true) : (m.moved d st).settled = true := by
  rw [Mach.settled, Mach.stopping, moved_objN (okey_ne (by decide) (by decide) (by decide) (by omega) (by omega)) (by decide)]
  exact h

/-- A domain's change of state is reported, and the selection follows it. -/
theorem setDomain_moves (hd : d < 2) (hsettled : m.settled = true) (hne : m.domState d ≠ st) :
    KeepsDomains (m.moved d st) (m.setDomain d st) ∧ (m.setDomain d st).settled = true ∧ (m.setDomain d st).domState d = st ∧
      m.jrn.newest < (m.setDomain d st).jrn.newest := by
  have hmoved : (m.moved d st).settled = true := moved_settled hd hsettled
  obtain ⟨hkeeps, -⟩ := select_moves (m.moved d st)
  rw [setDomain_eq hne]
  refine ⟨hkeeps, hkeeps.settled hmoved, ?_, ?_⟩
  · have hstate : (m.moved d st).objN (0x3010 + d) 6 = st := by
      rw [Mach.moved, Mach.raise_objN _ _ _ _ (okey_ne (by decide) (by decide) (by omega) (by decide) (by omega))]
      exact Mach.set_objN_same ..
    refine (hkeeps.objN ?_).trans hstate
    unfold timeKeys okey
    omega
  · have := hkeeps.newest
    rw [moved_newest] at this
    omega

theorem Follows.doms {a b : Mach} (h : KeepsDomains a b) : b.ptp.doms = a.ptp.doms := by
  have hview := h.stays.view
  simp only [Mach.timeView, Prod.mk.injEq] at hview
  exact hview.1

theorem Follows.strs {a b : Mach} (h : KeepsDomains a b) : b.strs = a.strs := by
  have hview := h.stays.view
  simp only [Mach.timeView, Prod.mk.injEq] at hview
  exact hview.2.1

/-! ### Syncs and path delays that change no state (R414, R415) -/

/-- The domains but for the instants since which they are QUALIFIED, byte strings, and what a change of the time leaves alone. -/
def Mach.sampleView (m : Mach) :=
  (m.ptp.doms.map (fun x => { x with qualifiedAt := 0 }), m.strs, m.power_, m.boot.shut, m.boot.cores, m.clk.mono)

/-- `timeKeys` but for the states of the domains. -/
def sampleKeys (k : Nat) : Prop := timeKeys k ∧ k ≠ okey 0x3010 6 ∧ k ≠ okey 0x3011 6

/-- From one block to the next domains may become QUALIFIED, and the selection with the time may follow. -/
abbrev KeepsSamples (a b : Mach) : Prop := Follows Mach.sampleView sampleKeys a b

theorem Follows.samples {a b : Mach} (h : KeepsDomains a b) : KeepsSamples a b := by
  obtain ⟨⟨hview, hobjects⟩, hnewest⟩ := h
  simp only [Mach.timeView, Prod.mk.injEq] at hview
  obtain ⟨hdoms, hstrs, -, hpower, hshut, hcores, hmono⟩ := hview
  refine ⟨⟨?_, fun k hk => hobjects k hk.1⟩, hnewest⟩
  simp only [Mach.sampleView, hdoms, hstrs, hpower, hshut, hcores, hmono]

theorem Follows.settled_of_samples {a b : Mach} (h : KeepsSamples a b) (ha : a.settled = true) : b.settled = true := by
  have hview := h.stays.view
  simp only [Mach.sampleView, Prod.mk.injEq] at hview
  obtain ⟨-, -, hpower, hshut, -⟩ := hview
  rw [Mach.settled, Mach.stopping, hpower, hshut, h.objN ⟨.inl rfl, by decide⟩]
  exact ha

theorem Follows.sample {a b : Mach} (h : KeepsSamples a b) (d : Nat) :
    ({ b.dom d with qualifiedAt := 0 } : Domain) = { a.dom d with qualifiedAt := 0 } := by
  have hview := h.stays.view
  simp only [Mach.sampleView, Prod.mk.injEq] at hview
  exact getD_of_map_eq hview.1 d _

theorem moved_samples (hd : d < 2) : KeepsSamples m (m.moved d 3) := by
  refine .raise (m := (m.setN (0x3010 + d) 6 3).onDom d _) ⟨⟨?_, fun k hk => storeGet_set_ne m.od _ ?_⟩, Nat.le_refl _⟩ ?_ fun _ _ _ _ _ => rfl
  · have hdoms (f : Domain → Domain) (hf : ∀ x : Domain, ({ f x with qualifiedAt := 0 } : Domain) = { x with qualifiedAt := 0 }) :
        (m.onDom d f).sampleView = m.sampleView := by
      unfold Mach.sampleView
      rw [show (m.onDom d f).ptp.doms = m.ptp.doms.modify d f from rfl, map_modify_of_eq hf]
      rfl
    exact hdoms _ fun x => rfl
  · obtain ⟨-, hone, htwo⟩ := hk
    unfold okey at *
    omega
  · exact fun k hk => timeKeys_ne (by decide) k hk.1

theorem qualify_samples (hd : d < 2) (hsettled : m.settled = true) : KeepsSamples m (m.qualify d) := by
  refine .ite (fun h => ?_) fun _ => .refl ..
  obtain ⟨hstate, -⟩ := h
  obtain ⟨hkeeps, -⟩ := setDomain_moves (st := 3) hd hsettled (by omega)
  exact (moved_samples hd).trans hkeeps.samples

theorem compareDomains_active (m : Mach) : KeepsActive m m.compareDomains := by
  unfold Mach.compareDomains
  extract_lets far told m1
  have h1 : KeepsActive m m1 := .keep (.refl ..) rfl rfl rfl
  exact .ite (fun _ => .refl ..) fun _ => .ite (fun _ => .raise h1 (activeKeys_ne (by decide)) timeView_unreported) fun _ => h1

theorem servo_active (m : Mach) (d : Nat) : KeepsActive m (m.servo d) := by
  unfold Mach.servo
  extract_lets o x st m1
  refine .ite (fun _ => .stepTime (.setStatus (.refl ..) 1) ..) fun _ => .slew ?_ d
  exact .ite (fun _ => .setStatus (.refl ..) 1) fun _ =>
    .ite (fun _ => .raise (.setStatus (.refl ..) 2) (activeKeys_ne (by decide)) timeView_unreported) fun _ => .refl ..

/-! ### A Sync whose time is known (R415) -/

/-- The block with the sample of a Sync, before the domain may become QUALIFIED. -/
def Mach.synced (m : Mach) (d origin : Nat) (correction : Int) (rx : Nat) : Mach :=
  let o := m.offset d origin correction rx
  let lock := ns (m.objN 0x3000 6)
  let next (n : Nat) (on : Bool) : Nat := if on then min 16 (n + 1) else 0
  let m := ((m.set (0x3010 + d) 8 o).bump (0x3010 + d) 0x0C).set (0x3010 + d) 0x0A (Config.frequency m.free).toInt
  m.draw.onDom d (fun x => { x with
    lastSyncAt := m.now
    lastOrigin := origin + correction
    lastRx := rx
    offsets := (o :: x.offsets).take 16
    inLock := next x.inLock (o.natAbs ≤ lock)
    outLock := next x.outLock (4 * lock < o.natAbs)
    overStep := next x.overStep (m.stepOver < o.natAbs) })

theorem takeTime_eq (m : Mach) (d origin : Nat) (correction : Int) (rx : Nat) :
    m.takeTime d origin correction rx = Mach.compareDomains (
      if (m.synced d origin correction rx).objN 0x3000 2 = d ∧ ((m.synced d origin correction rx).qualify d).objN 0x3000 2 = d
      then ((m.synced d origin correction rx).qualify d).servo d else (m.synced d origin correction rx).qualify d) := rfl

section Synced
variable {origin rx : Nat} {correction : Int}

theorem synced_objN {ix sub : Nat} (hd : d < 2) (h : ix ≠ 0x3010 + d ∨ sub ≠ 8 ∧ sub ≠ 0x0A ∧ sub ≠ 0x0C) (hix : ix < 65536 ∧ sub < 256) :
    (m.synced d origin correction rx).objN ix sub = m.objN ix sub :=
  (Mach.set_objN_ne _ _ _ _ _ (okey_ne hix.2 (by decide) hix.1 (by omega) (by omega))).trans
    ((Mach.bump_objN_ne _ _ _ _ _ (okey_ne hix.2 (by decide) hix.1 (by omega) (by omega))).trans
      (Mach.set_objN_ne _ _ _ _ _ (okey_ne hix.2 (by decide) hix.1 (by omega) (by omega))))

theorem synced_offset (hd : d < 2) : (m.synced d origin correction rx).obj (0x3010 + d) 8 = m.offset d origin correction rx :=
  (Mach.set_obj_ne _ _ _ _ _ (okey_ne (by decide) (by decide) (by omega) (by omega) (by omega))).trans
    ((Mach.bump_obj_ne _ _ _ _ _ (okey_ne (by decide) (by decide) (by omega) (by omega) (by omega))).trans (Mach.set_obj_same ..))

theorem synced_count (hd : d < 2) (hroom : m.objN (0x3010 + d) 0x0C < 2 ^ 64 - 1) :
    (m.synced d origin correction rx).objN (0x3010 + d) 0x0C = m.objN (0x3010 + d) 0x0C + 1 := by
  have hkept : (m.set (0x3010 + d) 8 (m.offset d origin correction rx)).objN (0x3010 + d) 0x0C = m.objN (0x3010 + d) 0x0C :=
    Mach.set_objN_ne _ _ _ _ _ (okey_ne (by decide) (by decide) (by omega) (by omega) (by omega))
  have hmax : objMax (0x3010 + d) 0x0C = 2 ^ 64 - 1 := by
    interval_cases d <;> decide +kernel
  refine (Mach.set_objN_ne _ _ _ _ _ (okey_ne (by decide) (by decide) (by omega) (by omega) (by omega))).trans ?_
  rw [Mach.bump_objN_same _ _ _ _ _ (by rw [hkept, hmax]; omega), hkept]

theorem synced_settled (hd : d < 2) (h : m.settled = true) : (m.synced d origin correction rx).settled = true := by
  rw [Mach.settled, Mach.stopping, synced_objN hd (by omega) (by decide)]
  have hpower : (m.synced d origin correction rx).power_ = m.power_ := by simp [Mach.synced, Mach.onDom, Mach.onPtp, Mach.draw]
  have hboot : (m.synced d origin correction rx).boot = m.boot := by simp [Mach.synced, Mach.onDom, Mach.onPtp, Mach.draw]
  rw [hpower, hboot]
  exact h

/-- What a domain keeps of a Sync. -/
theorem synced_dom (hlength : d < m.ptp.doms.length) : ∃ a b c, (m.synced d origin correction rx).dom d =
    { m.dom d with lastSyncAt := m.now, lastOrigin := origin + correction, lastRx := rx,
                   offsets := (m.offset d origin correction rx :: (m.dom d).offsets).take 16, inLock := a, outLock := b, overStep := c } := by
  unfold Mach.synced
  extract_lets o lock next n
  have hdoms : n.draw.ptp.doms = m.ptp.doms := by simp [n, Mach.draw]
  have hnow : n.now = m.now := congrArg Clk.mono (by simp [n])
  rw [Mach.dom_onDom _ (by rwa [hdoms]), dom_of_doms hdoms, ← hnow]
  exact ⟨_, _, _, rfl⟩

theorem synced_now : (m.synced d origin correction rx).now = m.now := by
  rw [Mach.now, Mach.now]
  simp [Mach.synced, Mach.onDom, Mach.onPtp, Mach.draw]

theorem synced_jrn : (m.synced d origin correction rx).jrn = m.jrn := by
  simp [Mach.synced, Mach.onDom, Mach.onPtp, Mach.draw]

/-- After its sample a domain may become QUALIFIED, then the servo and the comparison of the domains follow. -/
theorem takeTime_after (m : Mach) (d origin : Nat) (correction : Int) (rx : Nat) :
    KeepsActive ((m.synced d origin correction rx).qualify d) (m.takeTime d origin correction rx) := by
  rw [takeTime_eq]
  exact .trans (iteInduction (motive := fun n => KeepsActive _ n) (fun _ => servo_active _ d) fun _ => .refl ..)
    (compareDomains_active _)

theorem takeTime_samples (hd : d < 2) (hsettled : m.settled = true) :
    KeepsSamples (m.synced d origin correction rx) (m.takeTime d origin correction rx) := by
  have hqualify := qualify_samples (m := m.synced d origin correction rx) hd (synced_settled hd hsettled)
  exact hqualify.trans (takeTime_after m d origin correction rx).active.samples

theorem takeTime_settled (hd : d < 2) (hsettled : m.settled = true) : (m.takeTime d origin correction rx).settled = true :=
  (takeTime_samples hd hsettled).settled_of_samples (synced_settled hd hsettled)

/-- An object of the domains that a Sync's sample sets, but for their states. -/
theorem sampleKeys_of_domain {sub : Nat} (hd : d < 2) (hsub : sub < 256 ∧ sub ≠ 6) : sampleKeys (okey (0x3010 + d) sub) := by
  unfold sampleKeys timeKeys okey
  omega

theorem takeTime_offset (hd : d < 2) (hsettled : m.settled = true) :
    (m.takeTime d origin correction rx).obj (0x3010 + d) 8 = m.offset d origin correction rx :=
  ((takeTime_samples hd hsettled).stays.objects _ (sampleKeys_of_domain hd (by decide))).trans (synced_offset hd)

/-- What a domain keeps of a Sync, but for the instant since which it is QUALIFIED. -/
theorem takeTime_dom (hd : d < 2) (hlength : d < m.ptp.doms.length) (hsettled : m.settled = true) :
    ((m.takeTime d origin correction rx).dom d).offsets = (m.offset d origin correction rx :: (m.dom d).offsets).take 16 ∧
      ((m.takeTime d origin correction rx).dom d).lastSyncAt = m.now ∧
      ((m.takeTime d origin correction rx).dom d).pending = (m.dom d).pending := by
  obtain ⟨a, b, c, hdom⟩ := synced_dom (origin := origin) (correction := correction) (rx := rx) hlength
  have hsample := (takeTime_samples (origin := origin) (correction := correction) (rx := rx) hd hsettled).sample d
  rw [hdom] at hsample
  have hoffsets := congrArg Domain.offsets hsample
  have hlast := congrArg Domain.lastSyncAt hsample
  have hpending := congrArg Domain.pending hsample
  exact ⟨hoffsets, hlast, hpending⟩

theorem synced_pathKnown (hd : d < 2) (hlength : d < m.ptp.doms.length) :
    (m.synced d origin correction rx).pathKnown d = m.pathKnown d := by
  obtain ⟨a, b, c, hdom⟩ := synced_dom (origin := origin) (correction := correction) (rx := rx) hlength
  rw [Mach.pathKnown, Mach.pathKnown, synced_objN hd (by omega) (by omega), hdom, synced_now]

theorem moved_dom (hlength : d < m.ptp.doms.length) : (m.moved d 3).dom d = { m.dom d with qualifiedAt := m.now } :=
  Mach.dom_onDom (m := m.setN (0x3010 + d) 6 3) _ hlength

/-- A domain whose conditions all hold becomes QUALIFIED (R416). -/
theorem qualify_qualifies (hd : d < 2) (hlength : d < m.ptp.doms.length) (hsettled : m.settled = true) (hstate : m.domState d = 2)
    (hsteady : steady (m.dom d).offsets = true) (hpath : m.pathKnown d = true) :
    (m.qualify d).settled = true ∧ (m.qualify d).domState d = 3 ∧ (m.qualify d).dom d = { m.dom d with qualifiedAt := m.now } ∧
      m.jrn.newest < (m.qualify d).jrn.newest := by
  obtain ⟨hkeeps, hafter, hnew, hnewest⟩ := setDomain_moves (st := 3) hd hsettled (by omega)
  rw [Mach.qualify, if_pos ⟨hstate, hsteady, hpath⟩]
  exact ⟨hafter, hnew, (dom_of_doms hkeeps.doms d).trans (moved_dom hlength), hnewest⟩

theorem Follows.domState {a b : Mach} (h : KeepsDomains a b) (hd : d < 2) : b.domState d = a.domState d := by
  refine h.objN ?_
  unfold timeKeys okey
  omega

/-- The sixteenth steady Sync makes its domain QUALIFIED (R416). -/
theorem takeTime_qualifies (hd : d < 2) (hlength : d < m.ptp.doms.length) (hsettled : m.settled = true) (hstate : m.domState d = 2)
    (hsteady : steady ((m.offset d origin correction rx :: (m.dom d).offsets).take 16) = true) (hpath : m.pathKnown d = true) :
    (m.takeTime d origin correction rx).domState d = 3 ∧ ((m.takeTime d origin correction rx).dom d).qualifiedAt = m.now ∧
      m.jrn.newest < (m.takeTime d origin correction rx).jrn.newest := by
  obtain ⟨a, b, c, hdom⟩ := synced_dom (origin := origin) (correction := correction) (rx := rx) hlength
  have hsteady' : steady ((m.synced d origin correction rx).dom d).offsets = true := by rw [hdom]; exact hsteady
  have hlength' : d < (m.synced d origin correction rx).ptp.doms.length := by
    unfold Mach.synced
    extract_lets o lock next n
    simpa [n, Mach.draw, Mach.onDom, Mach.onPtp, modAt] using hlength
  obtain ⟨-, hthree, hat, hnewest⟩ := qualify_qualifies (m := m.synced d origin correction rx) hd hlength' (synced_settled hd hsettled)
    ((synced_objN hd (by omega) (by omega)).trans hstate) hsteady' ((synced_pathKnown hd hlength).trans hpath)
  have hrest := takeTime_after m d origin correction rx
  refine ⟨(hrest.active.domState hd).trans hthree, ?_, ?_⟩
  · rw [dom_of_doms hrest.active.doms, hat, synced_now]
  · rw [synced_jrn] at hnewest
    exact hnewest.trans_le hrest.newest

end Synced

/-! ### Path delays, Announces and losses (R413, R415, R416) -/

/-- A domain whose request was answered (R415). -/
def Domain.answered (x : Domain) (t : Nat) : Domain := { x with request := none, pathAt := some t }

/-- A domain whose neighbour answered: it is asCapable at or below 800 ns (R412). -/
def Domain.neighbour (x : Domain) (t : Nat) (path : Int) : Domain :=
  { x with request := none, pathAt := some t, asCapable := path ≤ (ns 800 : Nat) }

/-- A domain that has found its timeTransmitter (R416). -/
def Domain.electing (x : Domain) (g t : Nat) : Domain := { x with best := some g, lastSyncAt := t, offsets := [], pending := [] }

/-- A domain without a timeTransmitter listens. -/
theorem listen_moves (hd : d < 2) (hsettled : m.settled = true) (hne : m.domState d ≠ 1) : KeepsDomains
      ((((m.onDom d (fun x => { x with best := none })).setStr (0x3010 + d) 7 (List.replicate 8 0))).moved d 1) (m.listen d) ∧
    (m.listen d).settled = true ∧ (m.listen d).domState d = 1 ∧ m.jrn.newest < (m.listen d).jrn.newest :=
  setDomain_moves (m := (m.onDom d (fun x => { x with best := none })).setStr (0x3010 + d) 7 (List.replicate 8 0)) hd hsettled hne

theorem answered_samples (hd : d < 2) (hsettled : m.settled = true) : KeepsSamples m (m.qualify d).compareDomains :=
  (qualify_samples hd hsettled).trans (compareDomains_active _).active.samples

theorem set_settled {ix sub : Nat} {v : Int} (h : okey 0x2100 3 ≠ okey ix sub) : (m.set ix sub v).settled = m.settled := by
  rw [Mach.settled, Mach.settled, Mach.stopping, Mach.set_objN_ne _ _ _ _ _ h]
  rfl

theorem set_settled_of_domain {sub : Nat} {v : Int} (hd : d < 2) (hsub : sub < 256) : (m.set (0x3010 + d) sub v).settled = m.settled :=
  set_settled (okey_ne (by decide) hsub (by decide) (by omega) (by omega))

theorem measured_settled {path : Int} {f : Domain → Domain} (hd : d < 2) : ((m.set (0x3010 + d) 9 path).onDom d f).settled = m.settled :=
  set_settled_of_domain (m := m) (v := path) hd (sub := 9) (by decide)

theorem onDom_settled (f : Domain → Domain) : (m.onDom d f).settled = m.settled := rfl

theorem delayResp_eq {n rx tx : Nat} {correction : Int} (hrequest : (m.dom d).request = some (n, tx)) (hpeer : m.objN (0x3010 + d) 2 = 0)
    (hoffsets : (m.dom d).offsets ≠ []) : Machine.delayResp d n rx correction m =
      (((m.set (0x3010 + d) 9 ((((m.dom d).lastRx - tx) + (extendTime m.timeWord rx - (m.dom d).lastOrigin) - correction) / 2)).onDom d
        (·.answered m.now)).qualify d).compareDomains := by
  unfold Machine.delayResp
  simp only [hrequest]
  exact if_neg (by simp [hpeer, hoffsets])

theorem pdelayResp_eq {n a b rx tx : Nat} {correction : Int} {c : Ctx} (hrequest : (m.dom d).request = some (n, tx))
    (hpeer : m.objN (0x3010 + d) 2 = 1) : ∃ path : Int,
    path = (((m.domainRx c d rx : Int) - tx) - ((extendTime m.timeWord b : Int) - extendTime m.timeWord a) - correction) / 2 ∧
    Machine.pdelayResp d n a b rx correction c m =
      (((m.set (0x3010 + d) 9 path).onDom d (·.neighbour m.now path)).qualify d).compareDomains := by
  refine ⟨_, rfl, ?_⟩
  unfold Machine.pdelayResp
  simp only [hrequest]
  exact if_neg (by simp [hpeer])

/-- Without a Sync that waits, none is discarded. -/
theorem discardSyncs_none (h : (m.dom d).pending = []) : m.discardSyncs d = m := if_pos (by simp [h])

/-! ### Syncs (R412, R414) -/

/-- With nothing waiting, an event of PTP is the change that it makes. -/
theorem ptpEvent_becomes {s : State} {f : Ctx → Mach → Mach} {n : Mach} {P : State → Prop} (hcore : s.m.boot.cores.contains 1 = false)
    (heq : f s.ctx s.m = n) (hsettled : n.settled = true) (hP : P { s with m := n }) :
    ∃ t, liftE (fun c => ptpEvent (f c) c) s = .next t ∧ P t :=
  ptpEvent_runs hcore (by rwa [heq]) (by rwa [heq])

section Syncs
variable {x : PtpSync} {c : Ctx}

/-- The interval of a Sync is shown, and has no part in an offset. -/
theorem interval_offset (m : Mach) (d : Nat) (v : Int) (origin : Nat) (correction : Int) (rx : Nat) :
    (m.set (0x3010 + d) 0x0B v).offset d origin correction rx = m.offset d origin correction rx := by
  have hsub (jx sub : Nat) (h : sub < 11) : okey jx sub ≠ okey (0x3010 + d) 0x0B := by
    unfold okey
    omega
  rw [Mach.offset, Mach.offset, Mach.set_obj_ne _ _ _ _ _ (hsub _ _ (by decide)), Mach.set_obj_ne _ _ _ _ _ (hsub _ _ (by decide)),
    Mach.set_objN_ne _ _ _ _ _ (hsub _ _ (by decide))]

theorem sync_eq (hd : x.d < 2) (hstate : m.domState x.d = 2 ∨ m.domState x.d = 3) (hselected : x.selected = true)
    (htaken : intervalTaken (m.objN (0x3010 + x.d) 2) x.interval = true) (hpending : (m.dom x.d).pending = [])
    (hhears : m.hearsPtp x.d x.number x.udp = true) : sync_ x c m =
      if x.twoStep then (m.set (0x3010 + x.d) 0x0B x.interval).onDom x.d (fun y =>
        { y with pending := y.pending.filter (fun p => p.seq != x.seq) ++ [⟨x.seq, x.correction, m.domainRx c x.d x.rx, m.now⟩] })
      else (m.set (0x3010 + x.d) 0x0B x.interval).takeTime x.d (extendTime m.timeWord x.origin) x.correction (m.domainRx c x.d x.rx) := by
  unfold sync_
  extract_lets rx st m1 m2
  have hnone : m2 = m1 := discardSyncs_none (m := m1) hpending
  have hst : st = 2 ∨ st = 3 := hstate
  rw [if_neg (by simp [hselected, htaken, hhears, hd, hst]), hnone]
  rfl

end Syncs

/-! ### Announces (R412, R416) -/

/-- The block in which an Announce of a domain has been noted. -/
def Mach.noted (m : Mach) (a : PtpAnnounce) : Mach :=
  let m := m.onDom a.d (fun x => { x with lastAnnounceAt := m.now, announceInterval := a.interval, utc := a.utcOffset })
  if m.objN 0x3000 2 = a.d then m.set 0x3000 0x0F a.utcOffset else m

section Announces
variable {a : PtpAnnounce}

theorem announce_eq (hd : a.d < 2) (hon : m.domState a.d ≠ 0) (hup : m.domState a.d ≠ 4) (hhears : m.hearsPtp a.d a.number a.udp = true) :
    Machine.announce a m = match a.best with
      | none => if m.domState a.d = 1 then m.noted a else (m.noted a).listen a.d
      | some g =>
        if ((m.noted a).dom a.d).best = some g ∧ m.domState a.d ≠ 1 then m.noted a
        else
          (((m.noted a).onDom a.d (·.electing g (m.noted a).now)).setStr
            (0x3010 + a.d) 7 (beBytes 8 g)).setDomain a.d 2 := by
  unfold Machine.announce
  extract_lets st m1 m2
  have hst : st = m.domState a.d := rfl
  rw [if_neg (by simp [hst, hon, hup, hhears, hd])]
  rfl

/-- An Announce that is noted leaves states, events and what waits. -/
theorem noted_keeps (m : Mach) (hd : a.d < 2) : (m.noted a).domState a.d = m.domState a.d ∧ (m.noted a).settled = m.settled ∧
    (m.noted a).jrn = m.jrn ∧ (m.noted a).ptp.doms.length = m.ptp.doms.length ∧ (m.noted a).now = m.now := by
  have hlength (f : Domain → Domain) : (m.onDom a.d f).ptp.doms.length = m.ptp.doms.length := List.length_modify ..
  refine iteInduction (motive := fun n : Mach => n.domState a.d = m.domState a.d ∧ n.settled = m.settled ∧ n.jrn = m.jrn ∧
    n.ptp.doms.length = m.ptp.doms.length ∧ n.now = m.now) (fun _ => ⟨?_, ?_, rfl, hlength _, rfl⟩) fun _ => ⟨rfl, rfl, rfl, hlength _, rfl⟩
  · exact Mach.set_objN_ne _ _ _ _ _ (okey_ne (by decide) (by decide) (by omega) (by decide) (by omega))
  · exact set_settled (by decide)

end Announces

/-- An injection that has acted leaves the time, PTP and all objects but that of the point armed (0x7F01:06). -/
theorem acted_keeps (m : Mach) : m.acted.ptp = m.ptp ∧ m.acted.clk = m.clk ∧ m.acted.power_ = m.power_ ∧ m.acted.boot = m.boot ∧
    ∀ ix sub, sub < 256 ∧ sub ≠ 6 → m.acted.obj ix sub = m.obj ix sub := by
  unfold Mach.acted
  cases m.test.armed with
  | none => exact ⟨rfl, rfl, rfl, rfl, fun _ _ _ => rfl⟩
  | some a =>
    refine iteInduction (motive := fun n : Mach => n.ptp = m.ptp ∧ n.clk = m.clk ∧ n.power_ = m.power_ ∧ n.boot = m.boot ∧
      ∀ ix sub, sub < 256 ∧ sub ≠ 6 → n.obj ix sub = m.obj ix sub) (fun _ => ⟨rfl, rfl, rfl, rfl, fun _ _ _ => rfl⟩) fun _ => ?_
    refine ⟨rfl, rfl, rfl, rfl, fun ix sub hsub => Mach.set_obj_ne _ _ _ _ _ ?_⟩
    unfold okey
    omega

end Domains

/-- Settles O17: each message and timer by what it makes of its domain. -/
theorem ptpDomainsFollowTheirMessages : Obligations.PtpDomainsFollowTheirMessages := by
  unfold Obligations.PtpDomainsFollowTheirMessages
  refine ⟨?twoStep, ?oneStep, ?steadies, ?restarting, ?followUp, ?injected, ?window, ?announced, ?dropped, ?receipt, ?early, ?loss, ?request,
    ?response, ?responseQualifies, ?peerRequest, ?peerResponse⟩
  case restarting =>
    intro s x hcore
    exact runs_of_eff (f := fun c => ptpEvent (sync_ x c) c) (if_pos hcore) rfl
  case twoStep =>
    intro s x hcore hsettled hd hlength hstate hselected htaken hpending hhears htwo
    have heq := sync_eq (c := s.ctx) hd hstate hselected htaken hpending hhears
    rw [if_pos htwo] at heq
    refine ptpEvent_becomes (f := fun c => sync_ x c) hcore heq ((set_settled_of_domain hd (by decide)).trans hsettled)
      ⟨?_, Mach.set_obj_same .., rfl⟩
    refine (congrArg Domain.pending (Mach.dom_onDom (m := s.m.set (0x3010 + x.d) 0x0B x.interval) _ hlength)).trans ?_
    show ((s.m.dom x.d).pending.filter _) ++ _ = _
    rw [hpending]
    rfl
  case oneStep =>
    intro s x hcore hsettled hd hlength hstate hselected htaken hpending hhears htwo hroom
    have heq := sync_eq (c := s.ctx) hd (.inr hstate) hselected htaken hpending hhears
    rw [if_neg (by rw [htwo]; decide)] at heq
    have hset : (s.m.set (0x3010 + x.d) 0x0B x.interval).settled = true := (set_settled_of_domain hd (by decide)).trans hsettled
    have hcount : (s.m.set (0x3010 + x.d) 0x0B x.interval).objN (0x3010 + x.d) 0x0C = s.m.objN (0x3010 + x.d) 0x0C :=
      Mach.set_objN_ne _ _ _ _ _ (okey_ne (by decide) (by decide) (by omega) (by omega) (by omega))
    obtain ⟨hoffsets, hlast, -⟩ := takeTime_dom (m := s.m.set (0x3010 + x.d) 0x0B x.interval) (origin := extendTime s.m.timeWord x.origin)
      (correction := x.correction) (rx := s.m.domainRx s.ctx x.d x.rx) hd hlength hset
    refine ptpEvent_becomes (f := fun c => sync_ x c) hcore heq (takeTime_settled hd hset) ⟨(takeTime_offset hd hset).trans (interval_offset ..), ?_, ?_, hlast⟩
    · rw [((takeTime_samples hd hset).objN (sampleKeys_of_domain hd (by decide))), synced_count hd (by rw [hcount]; exact hroom), hcount]
    · rw [hoffsets, interval_offset]
      rfl
  case steadies =>
    intro s x hcore hsettled hd hlength hstate hselected htaken hpending hhears htwo hsteady hpath
    have heq := sync_eq (c := s.ctx) hd (.inl hstate) hselected htaken hpending hhears
    rw [if_neg (by rw [htwo]; decide)] at heq
    have hset : (s.m.set (0x3010 + x.d) 0x0B x.interval).settled = true := (set_settled_of_domain hd (by decide)).trans hsettled
    have hkept (sub : Nat) (h : sub < 11) : (s.m.set (0x3010 + x.d) 0x0B x.interval).objN (0x3010 + x.d) sub = s.m.objN (0x3010 + x.d) sub :=
      Mach.set_objN_ne _ _ _ _ _ (okey_ne (by omega) (by decide) (by omega) (by omega) (by omega))
    have hknown : (s.m.set (0x3010 + x.d) 0x0B x.interval).pathKnown x.d = true := by
      rw [Mach.pathKnown, hkept 2 (by decide)]
      exact hpath
    refine ptpEvent_becomes (f := fun c => sync_ x c) hcore heq (takeTime_settled hd hset) ?_
    exact takeTime_qualifies (m := s.m.set (0x3010 + x.d) 0x0B x.interval) hd hlength hset ((hkept 6 (by decide)).trans hstate)
      (by rw [interval_offset]; exact hsteady) hknown
  case followUp =>
    intro s d n o c q hcore hsettled hd hfound hintime hnone
    have hlength : d < s.m.ptp.doms.length := lt_length_of_dom fun h => by rw [h] at hfound; cases hfound
    have heq : followUp_ d n o c s.m = (s.m.onDom d (fun x => { x with pending := x.pending.filter (fun p => p.seq != n) })).takeTime d
        (extendTime s.m.timeWord o) (q.correction + c) q.rx := by
      rw [followUp_, hfound]
      dsimp only
      rw [if_neg (by omega), if_neg (by rw [hnone]; decide)]
      rfl
    have hset : (s.m.onDom d (fun x => { x with pending := x.pending.filter (fun p => p.seq != n) })).settled = true := hsettled
    obtain ⟨-, hlast, hpending⟩ := takeTime_dom (m := s.m.onDom d (fun x => { x with pending := x.pending.filter (fun p => p.seq != n) }))
      (origin := extendTime s.m.timeWord o) (correction := q.correction + c) (rx := q.rx) hd
      (by simpa [Mach.onDom, Mach.onPtp, modAt] using hlength) hset
    refine ptpEvent_becomes (f := fun _ => followUp_ d n o c) hcore heq (takeTime_settled hd hset) ⟨takeTime_offset hd hset, fun _ => ?_, hlast⟩
    rw [hpending, Mach.dom_onDom _ hlength]
  case injected =>
    intro s d n o c q hcore hsettled hfound hintime harmed
    have heq : followUp_ d n o c s.m = s.m.acted := by
      rw [followUp_, hfound]
      dsimp only
      rw [if_neg (by omega), if_pos harmed]
    obtain ⟨hptp, hclk, hpower, hboot, hobj⟩ := acted_keeps s.m
    refine ptpEvent_becomes (f := fun _ => followUp_ d n o c) hcore heq ?_ ⟨hptp, hclk, hobj _ _ (by omega)⟩
    rw [Mach.settled, Mach.stopping, hpower, hboot, Mach.objN, hobj 0x2100 3 (by decide)]
    exact hsettled
  case window =>
    intro s d q r hcore hsettled hd hpending hlate hwaits hroom
    have hlength : d < s.m.ptp.doms.length := lt_length_of_dom fun h => by rw [h] at hpending; cases hpending
    have heq : followUpWindowExpiry d s.m = (s.m.bump (0x3010 + d) 0x0D 1).onDom d (fun x => { x with
        pending := x.pending.filter (fun p => !decide (p.at_ + logInterval (s.m.obj (0x3010 + d) 0x0B) ≤ s.m.now)),
        offsets := [], inLock := 0, outLock := 0, overStep := 0 }) := by
      simp only [followUpWindowExpiry, Mach.discardSyncs]
      simp [hpending, hlate, hwaits]
    have hmax : objMax (0x3010 + d) 0x0D = 2 ^ 64 - 1 := by
      interval_cases d <;> decide +kernel
    have hdoms : (s.m.bump (0x3010 + d) 0x0D 1).ptp.doms = s.m.ptp.doms := by simp
    have hdom := Mach.dom_onDom (m := s.m.bump (0x3010 + d) 0x0D 1) (fun x => { x with
        pending := x.pending.filter (fun p => !decide (p.at_ + logInterval (s.m.obj (0x3010 + d) 0x0B) ≤ s.m.now)),
        offsets := [], inLock := 0, outLock := 0, overStep := 0 }) (by rwa [hdoms])
    rw [dom_of_doms hdoms] at hdom
    refine ptpEvent_becomes (f := fun _ => followUpWindowExpiry d) hcore heq ?_
      ⟨(congrArg Domain.pending hdom).trans ?_, congrArg Domain.offsets hdom, Mach.bump_objN_same _ _ _ _ _ (by rw [hmax]; omega)⟩
    · rw [onDom_settled]
      obtain ⟨v, hv⟩ := Mach.bump_eq s.m (0x3010 + d) 0x0D 1 0
      rw [hv]
      exact (set_settled_of_domain hd (by decide)).trans hsettled
    · show (s.m.dom d).pending.filter _ = _
      rw [hpending]
      simp [hlate, hwaits]
  case announced =>
    intro s a g hcore hsettled hd hlength hstate hbest hhears
    obtain ⟨hstate', hsettled', hjrn, hlength', hnow⟩ := noted_keeps s.m hd
    have heq : Machine.announce a s.m = (((s.m.noted a).onDom a.d (·.electing g s.m.now)).setStr
        (0x3010 + a.d) 7 (beBytes 8 g)).setDomain a.d 2 := by
      rw [announce_eq hd (by omega) (by omega) hhears, hbest]
      dsimp only
      rw [if_neg (fun h => h.2 hstate), hnow]
    generalize s.m.noted a = n at *
    obtain ⟨hkeeps, hafter, htwo, hnewest⟩ := setDomain_moves (st := 2) (m := (n.onDom a.d (·.electing g s.m.now)).setStr (0x3010 + a.d) 7 (beBytes 8 g)) hd (hsettled'.trans hsettled)
      (by show n.domState a.d ≠ 2; omega)
    refine ptpEvent_becomes (f := fun _ => Machine.announce a) hcore heq hafter ⟨htwo, ?_, ?_, ?_⟩
    · refine (congrArg Domain.best (dom_of_doms hkeeps.doms a.d)).trans ?_
      refine (congrArg Domain.best (Mach.dom_onDom (m := (((n.onDom a.d _).setStr (0x3010 + a.d) 7 (beBytes 8 g)).setN _ 6 2)) _ ?_)).trans ?_
      · show a.d < (n.ptp.doms.modify a.d _).length
        rwa [List.length_modify, hlength']
      · exact congrArg Domain.best (Mach.dom_onDom (m := n) _ (by rwa [hlength']))
    · refine (congrArg (strGet · (okey (0x3010 + a.d) 7)) hkeeps.strs).trans ?_
      exact strGet_set_same ..
    · rw [← hjrn]
      exact hnewest
  case dropped =>
    intro s a hcore hsettled hd hstate hbest hhears
    have heq : Machine.announce a s.m = (s.m.noted a).listen a.d := by
      rw [announce_eq hd (by omega) (by omega) hhears, hbest]
      dsimp only
      rw [if_neg (by omega)]
    obtain ⟨hstate', hsettled', hjrn, -⟩ := noted_keeps s.m hd
    obtain ⟨-, hafter, hone, hnewest⟩ := listen_moves hd (hsettled'.trans hsettled) (by rw [hstate']; omega)
    refine ptpEvent_becomes (f := fun _ => Machine.announce a) hcore heq hafter ⟨hone, ?_⟩
    rwa [hjrn] at hnewest
  case receipt =>
    intro s d hcore hsettled hd hstate hdue hroom
    have heq : announceReceiptTimeout d s.m = (s.m.bump (0x3010 + d) 0x0E).listen d := if_pos ⟨hstate, hdue⟩
    obtain ⟨v, hv⟩ := Mach.bump_eq s.m (0x3010 + d) 0x0E 1 0
    have hset : (s.m.bump (0x3010 + d) 0x0E).settled = true := by
      rw [hv]
      exact (set_settled_of_domain hd (by decide)).trans hsettled
    have hkept : (s.m.bump (0x3010 + d) 0x0E).domState d = s.m.domState d :=
      Mach.bump_objN_ne _ _ _ _ _ (okey_ne (by decide) (by decide) (by omega) (by omega) (by omega))
    have hmax : objMax (0x3010 + d) 0x0E = 2 ^ 32 - 1 := by
      interval_cases d <;> decide +kernel
    obtain ⟨hkeeps, hafter, hone, hnewest⟩ := listen_moves hd hset (by omega)
    refine ptpEvent_becomes (f := fun _ => announceReceiptTimeout d) hcore heq hafter ⟨hone, ?_, ?_⟩
    · have hcount := hkeeps.samples.objN (sampleKeys_of_domain hd (sub := 0x0E) (by decide))
      rw [moved_objN (okey_ne (by decide) (by decide) (by omega) (by omega) (by omega)) (okey_ne (by decide) (by decide) (by omega) (by decide) (by omega))]
        at hcount
      exact hcount.trans (Mach.bump_objN_same _ _ _ _ _ (by rw [hmax]; omega))
    · rwa [Mach.bump_jrn] at hnewest
  case early =>
    intro s d hcore hsettled hearly
    have heq : announceReceiptTimeout d s.m = s.m := if_neg (by omega)
    exact ptpEvent_becomes (f := fun _ => announceReceiptTimeout d) hcore heq hsettled rfl
  case loss =>
    intro s d hcore hsettled hd hstate hdue
    have heq : syncLoss d s.m = s.m.listen d := if_pos ⟨hstate, hdue⟩
    obtain ⟨-, hafter, hone, hnewest⟩ := listen_moves hd hsettled (by omega)
    exact ptpEvent_becomes (f := fun _ => syncLoss d) hcore heq hafter ⟨hone, hnewest⟩
  case request =>
    intro s d tx hcore hsettled hd hlength hstate
    have heq : delayReq d tx s.ctx s.m = (s.m.onDom d (fun x => { x with seq := ((s.m.dom d).seq + 1) % 65536, request := some (((s.m.dom d).seq + 1) % 65536, s.m.domainTx s.ctx d tx) })).emit
        (.ptp d (s.m.objN (0x3010 + d) 2) (((s.m.dom d).seq + 1) % 65536) (s.m.domainTx s.ctx d tx) (s.m.objN (0x3010 + d) 3)
          (s.m.objN (0x3010 + d) 2 = 0 && s.m.objN (0x3010 + d) 5 = 1)) := if_neg (by omega)
    exact ptpEvent_becomes (f := fun c => delayReq d tx c) hcore heq hsettled
      ⟨rfl, congrArg Domain.request (Mach.dom_onDom _ hlength)⟩
  case response =>
    intro s d n rx tx c hcore hsettled hd hrequest hpeer hoffsets
    have hlength : d < s.m.ptp.doms.length := lt_length_of_dom fun h => by rw [h] at hrequest; cases hrequest
    obtain ⟨path, hpath⟩ : ∃ path : Int, path = (((s.m.dom d).lastRx - tx : Int) + (extendTime s.m.timeWord rx - (s.m.dom d).lastOrigin) - c) / 2 := ⟨_, rfl⟩
    have heq := delayResp_eq (rx := rx) (correction := c) hrequest hpeer hoffsets
    rw [← hpath] at heq ⊢
    have hset := (measured_settled (m := s.m) (d := d) (path := path) (f := (·.answered s.m.now)) hd).trans hsettled
    have hkeeps := answered_samples hd hset
    have hsample := hkeeps.sample d
    rw [Mach.dom_onDom _ (by exact hlength)] at hsample
    have hnone := congrArg Domain.request hsample
    have hat := congrArg Domain.pathAt hsample
    exact ptpEvent_becomes (f := fun _ => delayResp d n rx c) hcore heq (hkeeps.settled_of_samples hset)
      ⟨(hkeeps.stays.objects _ (sampleKeys_of_domain hd (by decide))).trans (Mach.set_obj_same ..), hnone, hat⟩
  case responseQualifies =>
    intro s d n rx tx c hcore hsettled hd hlength hrequest hpeer hstate hsteady
    have hoffsets : (s.m.dom d).offsets ≠ [] := fun h => by simp [h, steady] at hsteady
    have heq := delayResp_eq (rx := rx) (correction := c) hrequest hpeer hoffsets
    generalize (((s.m.dom d).lastRx - tx : Int) + (extendTime s.m.timeWord rx - (s.m.dom d).lastOrigin) - c) / 2 = path at heq
    have hdom := Mach.dom_onDom (m := s.m.set (0x3010 + d) 9 path) (·.answered s.m.now) (by exact hlength)
    have hset := (measured_settled (m := s.m) (d := d) (path := path) (f := (·.answered s.m.now)) hd).trans hsettled
    have hkept (sub : Nat) (h : sub < 9) : ((s.m.set (0x3010 + d) 9 path).onDom d (·.answered s.m.now)).objN (0x3010 + d) sub =
        s.m.objN (0x3010 + d) sub := Mach.set_objN_ne _ _ _ _ _ (okey_ne (by omega) (by decide) (by omega) (by omega) (by omega))
    have hpath : ((s.m.set (0x3010 + d) 9 path).onDom d (·.answered s.m.now)).pathKnown d = true := by
      rw [Mach.pathKnown, hkept 2 (by decide), hpeer, hdom]
      exact decide_eq_true (Nat.le_add_right ..)
    obtain ⟨hafter, hthree, hat, hnewest⟩ := qualify_qualifies (m := (s.m.set (0x3010 + d) 9 path).onDom d (·.answered s.m.now)) hd
      (by simpa [Mach.onDom, Mach.onPtp, modAt] using hlength) hset ((hkept 6 (by decide)).trans hstate) (by rw [hdom]; exact hsteady) hpath
    have hrest := compareDomains_active (((s.m.set (0x3010 + d) 9 path).onDom d (·.answered s.m.now)).qualify d)
    refine ptpEvent_becomes (f := fun _ => delayResp d n rx c) hcore heq (hrest.active.settled hafter)
      ⟨(hrest.active.domState hd).trans hthree, hnewest.trans_le hrest.newest, ?_⟩
    refine (congrArg Domain.request ((dom_of_doms hrest.active.doms d).trans hat)).trans ?_
    exact congrArg Domain.request hdom
  case peerRequest =>
    intro s d n rx tx hcore hsettled hd hzero hfour hpeer
    have heq : pdelayReq d n rx tx s.ctx s.m = (s.m.emit (.ptp d 2 n (s.m.domainRx s.ctx d rx) (s.m.objN (0x3010 + d) 3) false)).emit
        (.ptp d 3 n (s.m.domainTx s.ctx d tx) (s.m.objN (0x3010 + d) 3) false) := if_neg (by omega)
    exact ptpEvent_becomes (f := fun c => pdelayReq d n rx tx c) hcore heq hsettled ⟨rfl, rfl⟩
  case peerResponse =>
    intro s d n a b rx tx c hcore hsettled hd hrequest hpeer
    have hlength : d < s.m.ptp.doms.length := lt_length_of_dom fun h => by rw [h] at hrequest; cases hrequest
    obtain ⟨path, hpath, heq⟩ := pdelayResp_eq (a := a) (b := b) (rx := rx) (correction := c) (c := s.ctx) hrequest hpeer
    rw [← hpath]
    have hset := (measured_settled (m := s.m) (d := d) (path := path) (f := (·.neighbour s.m.now path)) hd).trans hsettled
    have hkeeps := answered_samples hd hset
    have hsample := hkeeps.sample d
    rw [Mach.dom_onDom _ (by exact hlength)] at hsample
    have hnone := congrArg Domain.request hsample
    have hcapable := congrArg Domain.asCapable hsample
    exact ptpEvent_becomes (f := fun c' => pdelayResp d n a b rx c c') hcore heq (hkeeps.settled_of_samples hset)
      ⟨(hkeeps.stays.objects _ (sampleKeys_of_domain hd (by decide))).trans (Mach.set_obj_same ..), hcapable, hnone⟩

end Sys2Proof.Machine

/-! What frames, queues and links leave alone (R386 to R389, R396, R407). -/

namespace Sys2Proof.Machine

/-! ### Writes of module memory -/

/-- Keys of objects that no write of module memory changes: not a channel's injected errors or poison (0x7010+p:05 and :07), the bytes written
(0x7000:0C), or the state of injections (0x7F01:06). -/
def Unstored (K : Nat → Prop) : Prop :=
  ∀ k, K k → k ≠ okey 0x7F01 6 ∧ k ≠ okey 0x7000 0x0C ∧ ∀ p, k ≠ okey (0x7010 + p) 5 ∧ k ≠ okey (0x7010 + p) 7

section Stores
variable {α : Type} {v : Mach → α} {K : Nat → Prop} {a m : Mach} (hv : Blind v) (hK : Unstored K)
include hv hK

theorem Stays.strikes (h : Stays v K a m) : Stays v K a m.acted := by
  unfold Mach.acted
  cases m.test.armed with
  | none => exact h
  | some x => exact .ite (fun _ => h.keep (hv m ..) rfl) fun _ => .set (h.keep (hv m ..) (by rfl)) (fun k hk => (hK k hk).1) (hv _ ..)

theorem Stays.accessed (h : Stays v K a m) (p o : Nat) : Stays v K a (m.access p o) := by
  have hpage : Stays v K a (m.touchPage p o) := h.onChan hv p _
  exact .ite (fun _ => .strikes hv hK (.set hpage (fun k hk => ((hK k hk).2.2 p).1) (hv _ ..))) (fun _ => hpage)

theorem Stays.showPoison (h : Stays v K a m) (p : Nat) : Stays v K a (m.showPoison p) :=
  .set h (fun k hk => ((hK k hk).2.2 p).2) (hv _ ..)

theorem Stays.healed (h : Stays v K a m) (x : Nat) : Stays v K a (m.heal x) := by
  unfold Mach.heal
  extract_lets po _ m1 clean m2
  have h1 : Stays v K a m1 := .ite (fun _ => h.keep (hv m ..) rfl) (fun _ => h)
  have hclean : ∀ n y, Stays v K a n → Stays v K a (clean n y) := fun n y hn => .showPoison hv hK (hn.onChan hv y.1 _) y.1
  split
  · exact hclean _ _ (hclean _ _ h1)
  · exact hclean _ _ h1

theorem Stays.unpoisoned (h : Stays v K a m) (x n : Nat) : Stays v K a (m.unpoison x n) :=
  .ite (fun _ => h.each _ fun _ y hn => hn.healed hv hK y) (fun _ => h)

/-- Writes of module memory. -/
theorem Follows.storeAll (h : Follows v K a m) (ws : List MemWrite) : Follows v K a (m.storeAll ws).m := by
  obtain ⟨-, hsteady⟩ := Steady.storeAll (ws := ws) (Steady.refl id m)
  refine ⟨?_, h.newest.trans hsteady.newest⟩
  exact List.foldlRecOn (ws.flatMap writesOf) _ (motive := fun n => Stays v K a n) h.stays fun n hn w _ =>
    .set ((hn.unpoisoned hv hK _ _).touchRun fun k y z hk => hk.accessed hv hK y z) (fun k hk => (hK k hk).2.1) (hv _ ..)

end Stores

/-! ### Frames that are done with (R186, R388, R389) -/

/-- A port but for the place in its transmit ring. -/
def Port.drained (x : Port) : Port := { x with txConsumer := 0 }

/-- What a frame that is done with leaves: of the ports all but the place in the transmit ring. -/
def Mach.drainView (m : Mach) := (m.net.ports.map Port.drained, m.net.meters, m.strs, m.power_, m.boot.shut, m.boot.cores, m.clk)

/-- The keys of the power state (0x2100), of the ports (0x4010 to 0x42FF) and of shakeout's result (0x7C00:0A). -/
def drainKeys (k : Nat) : Prop := k / 256 = 0x2100 ∨ (0x4010 ≤ k / 256 ∧ k / 256 < 0x4300) ∨ k = okey 0x7C00 0x0A

/-- From one block to the next frames were done with. -/
abbrev Drains (a b : Mach) : Prop := Follows Mach.drainView drainKeys a b

section Drains
variable {a b m : Mach}

theorem drainView_blind : Blind Mach.drainView := fun _ _ _ _ _ _ _ _ => rfl

theorem drainView_unreported : Unreported Mach.drainView := fun _ _ _ _ _ => rfl

theorem drainKeys_unstored : Unstored drainKeys := by
  intro k hk
  simp only [drainKeys, okey] at *
  refine ⟨by omega, by omega, fun p => ⟨by omega, by omega⟩⟩

theorem drainKeys_ne {ix sub : Nat} (hix : ix ≠ 0x2100 ∧ (ix < 0x4010 ∨ 0x4300 ≤ ix) ∧ (ix ≠ 0x7C00 ∧ sub < 256 ∨ sub = 0x0B ∨ sub = 0x0C)) (k : Nat)
    (hk : drainKeys k) : k ≠ okey ix sub := by
  simp only [drainKeys, okey] at *
  omega

theorem Follows.drainBump (h : Drains a m) {ix sub : Nat} (n : Nat) (hix : 0x4300 ≤ ix) (hsub : sub = 0x0B ∨ sub = 0x0C) :
    Drains a (m.bump ix sub n) := by
  obtain ⟨x, hx⟩ := Mach.bump_eq m ix sub n 0
  rw [hx]
  exact .set h (drainKeys_ne (by omega)) rfl

/-- A preview frame that is skipped is counted, and may be reported. -/
theorem Follows.skipPreview (h : Drains a m) (v n : Nat) : Drains a (m.skipPreview v n) := by
  unfold Mach.skipPreview
  extract_lets x skips m1
  have h1 : Drains a m1 := .keep (m := m.bump (0x5410 + v) 0x0C) (h.drainBump 1 (by omega) (.inr rfl)) rfl rfl rfl
  exact .ite (fun _ => .keep (m := m1.raise 0x6025 v _) (.raise h1 (drainKeys_ne (by decide)) drainView_unreported) rfl rfl rfl) fun _ => h1

/-- A packet of a preview frame is done with. -/
theorem Follows.packetDone (h : Drains a m) (v : Nat) (down : Bool) : Drains a (m.packetDone v down) := by
  unfold Mach.packetDone
  extract_lets x y m1 m2
  have h1 : Drains a m1 := .keep h rfl rfl rfl
  have h2 : Drains a m2 := .keep h1 rfl rfl rfl
  exact .ite (fun _ => h1) fun _ => .ite (fun _ => h2.skipPreview ..) fun _ => h2.drainBump 1 (by omega) (.inl rfl)

/-- The ring goes on to its next descriptor. -/
theorem Follows.advance (h : Drains a m) (p : Nat) : Drains a (m.onPort p fun x => { x with txConsumer := (x.txConsumer + 1) % 512 }) := by
  refine h.trans ⟨⟨?_, fun _ _ => rfl⟩, Nat.le_refl _⟩
  have hports : (m.onPort p fun x => { x with txConsumer := (x.txConsumer + 1) % 512 }).net.ports.map Port.drained = m.net.ports.map Port.drained :=
    map_modify_of_eq (g := Port.drained) (f := fun x => { x with txConsumer := (x.txConsumer + 1) % 512 }) (fun _ => rfl) m.net.ports p
  unfold Mach.drainView
  rw [hports]
  rfl

theorem Follows.stored (h : Drains a m) (ws : List MemWrite) : Drains a (m.storeAll ws).m :=
  h.storeAll drainView_blind drainKeys_unstored ws

theorem Follows.writeBack (h : Drains a m) (p : Nat) (f : TxFrame) (status : Nat) (stamp : Option Nat) : Drains a (m.writeBack p f status stamp).m := by
  unfold Mach.writeBack
  split
  · exact h.packetDone ..
  · exact (h.stored _).advance p

/-- Frames done with one after the other. -/
theorem Follows.writesBack {β : Type} (l : List β) {g : Mach → β → Eff} (hg : ∀ n x, Drains a n → Drains a (g n x).m) (h : Drains a m) :
    Drains a (Machine.each l (Eff.of m) (fun e x => e.then_ (fun n => g n x))).m :=
  List.foldlRecOn l _ (motive := fun e : Eff => Drains a e.m) h fun e he x _ => hg e.m x he

/-- The queues of a port are emptied, and their frames written back. -/
theorem dropQueues_drains (m : Mach) (p : Nat) :
    Drains (m.onPort p fun x => { x with sending := none, queues := [[], [], [], []], held := [] }) (m.dropQueues p).m :=
  Follows.writesBack _ (fun _ f hn => hn.writeBack p f 3 none) (.refl ..)

theorem Follows.port (h : Drains a b) (p : Nat) : (b.port p).drained = (a.port p).drained := by
  have hview := h.stays.view
  simp only [Mach.drainView, Prod.mk.injEq] at hview
  exact getD_of_map_eq hview.1 p _

theorem Follows.settled_of_drains (h : Drains a b) (ha : a.settled = true) : b.settled = true := by
  have hview := h.stays.view
  simp only [Mach.drainView, Prod.mk.injEq] at hview
  obtain ⟨-, -, -, hpower, hshut, -⟩ := hview
  rw [Mach.settled, Mach.stopping, hpower, hshut, h.objN (.inl rfl)]
  exact ha

end Drains

end Sys2Proof.Machine

/-! Core resets, bus errors, the trial period and the end of a shutdown, and O60 (R507, R536, R539, R541 to R543). -/

namespace Sys2Proof.Machine

/-! ### The domains of a port (R411, R416) -/

/-- What a change of a domain's state sees nothing of. -/
def Mach.linkView (m : Mach) := (m.net, m.power_, m.boot.shut, m.boot.cores, m.clk.mono)

/-- The keys of the power state (0x2100), of the ports (0x4010 to 0x42FF) and of shakeout (0x7C00). -/
def linkKeys (k : Nat) : Prop := k / 256 = 0x2100 ∨ (0x4010 ≤ k / 256 ∧ k / 256 < 0x4300) ∨ k / 256 = 0x7C00

/-- From one block to the next domains may change their states, and the time with them. -/
abbrev KeepsLinks (a b : Mach) : Prop := Follows Mach.linkView linkKeys a b

section Links
variable {a b m : Mach}

theorem linkKeys_ne {ix sub : Nat} (hix : ix ≠ 0x2100 ∧ (ix < 0x4010 ∨ 0x4300 ≤ ix) ∧ ix ≠ 0x7C00 ∧ sub < 256) (k : Nat) (hk : linkKeys k) :
    k ≠ okey ix sub := by
  simp only [linkKeys, okey] at *
  omega

theorem Follows.links (h : KeepsDomains a b) : KeepsLinks a b := by
  obtain ⟨⟨hview, hobjects⟩, hnewest⟩ := h
  simp only [Mach.timeView, Prod.mk.injEq] at hview
  obtain ⟨-, -, hnet, hpower, hshut, hcores, hmono⟩ := hview
  refine ⟨⟨?_, fun k hk => hobjects k ?_⟩, hnewest⟩
  · simp only [Mach.linkView, hnet, hpower, hshut, hcores, hmono]
  · unfold linkKeys at hk
    unfold timeKeys
    omega

theorem Follows.moved (h : KeepsLinks a m) {d : Nat} (hd : d < 2) (st : Nat) : KeepsLinks a (m.moved d st) :=
  .raise (m := (m.setN (0x3010 + d) 6 st).onDom d _) (.keep (m := m.setN (0x3010 + d) 6 st) (.set h (linkKeys_ne (by omega)) rfl) rfl rfl rfl)
    (linkKeys_ne (by decide)) fun _ _ _ _ _ => rfl

theorem Follows.setDomain (h : KeepsLinks a m) {d : Nat} (hd : d < 2) (st : Nat) : KeepsLinks a (m.setDomain d st) := by
  by_cases hsame : m.domState d = st
  · rwa [setDomain_same hsame]
  · rw [setDomain_eq hsame]
    exact (h.moved hd st).trans (select_moves _).1.links

theorem Follows.forgotten (h : KeepsLinks a m) {d ix sub : Nat} {f : Domain → Domain} {b : Bytes} :
    KeepsLinks a ((m.onDom d f).setStr ix sub b) := h.keep rfl rfl rfl

/-- The domains of a port follow its link. -/
theorem Follows.domainsOfPort (h : KeepsLinks a m) (p : Nat) : KeepsLinks a (m.domainsOfPort p) := by
  refine h.each _ fun n d hd hn => ?_
  have hlow : d < 2 := by simpa [upTo] using hd
  have hup : KeepsLinks a (n.setDomain d 1) := hn.setDomain hlow 1
  have hdown : KeepsLinks a (((n.onDom d fun x => { x with best := none, pathAt := none, asCapable := false, request := none }).setStr
      (0x3010 + d) 7 (List.replicate 8 0)).setDomain d 4) := hn.forgotten.setDomain hlow 4
  split
  · exact hn
  · split
    · split
      · exact hup
      · exact hn
    · split
      · exact hn
      · exact hdown

theorem Follows.settled_of_links (h : KeepsLinks a b) (ha : a.settled = true) : b.settled = true := by
  have hview := h.stays.view
  simp only [Mach.linkView, Prod.mk.injEq] at hview
  obtain ⟨-, hpower, hshut, -⟩ := hview
  rw [Mach.settled, Mach.stopping, hpower, hshut, h.objN (.inl rfl)]
  exact ha

theorem Follows.cores (h : KeepsLinks a b) : b.boot.cores = a.boot.cores := by
  have hview := h.stays.view
  simp only [Mach.linkView, Prod.mk.injEq] at hview
  exact hview.2.2.2.1

end Links

/-! ### Core resets, bus errors and images (R536, R541 to R543) -/

section Cores
variable {m : Mach} {core : Nat}

theorem pumpEvents_same (m : Mach) (id : Nat) : SameBut (m.pumpEvents id) m := by
  unfold Mach.pumpEvents
  split
  · exact .refl m
  · exact .trans (b := m.onSession id _) rfl (.onSession ..)

theorem coreReturns_cores (hone : core ≠ 1 ∨ m.settled = true) (htwo : core ≠ 2 ∨ m.tiles.later = []) (c : Ctx) :
    ∃ n, coreReturns core c m = .of n ∧ n.boot.cores = m.boot.cores.filter (· != core) := by
  unfold coreReturns
  extract_lets was m1
  have hcores : m1.boot.cores = m.boot.cores.filter (· != core) := rfl
  have hsettled : m1.settled = m.settled := rfl
  have hlater : m1.tiles.later = m.tiles.later := rfl
  clear_value m1 was
  by_cases hwas : was = true
  · exact ⟨m1, if_pos hwas, hcores⟩
  rw [if_neg hwas]
  by_cases h0 : core = 0
  · refine ⟨_, if_pos h0, ?_⟩
    have hpump : SameBut (each (m1.koa.sessions.map Session.id) m1 Mach.pumpEvents) m1 :=
      List.foldlRecOn _ _ (motive := fun n => SameBut n m1) (.refl m1) fun n hn id _ => (pumpEvents_same n id).trans hn
    rw [hpump.boot, hcores]
  rw [if_neg h0]
  by_cases h1 : core = 1
  · have hkeeps : KeepsLinks m1 (each (upTo 5) m1 Mach.domainsOfPort) := (Follows.refl ..).each _ fun _ p _ hn => hn.domainsOfPort p
    refine ⟨_, (if_pos h1).trans (advanceStops_of_settled (hkeeps.settled_of_links ?_) c), hkeeps.cores.trans hcores⟩
    rw [hsettled]
    exact hone.resolve_left (not_not_intro h1)
  rw [if_neg h1]
  by_cases h2 : core = 2
  · rw [if_neg (not_not_intro h2), hlater, htwo.resolve_left (not_not_intro h2)]
    exact ⟨_, rfl, hcores⟩
  · exact ⟨m1, if_pos h2, hcores⟩

theorem addNew_contains (l : List Nat) (x : Nat) : (addNew l x).contains x = true := by
  unfold addNew
  split <;> simp_all

/-- A core whose watchdog expires is reset alone, for the third time within 60 s at the earliest with the module (R541). -/
theorem coreWatchdogExpiry_resets (last : Nat) (hpower : m.power ≤ 2) (hstep : 5 ≤ m.boot.step) (hcore : core < 4)
    (hresets : m.recentResets.length < 2) : ∃ n, coreWatchdogExpiry core last m = .of n ∧ n.boot.cores.contains core = true ∧
      n.jrn.newest = m.jrn.newest + 1 ∧ n.boot.resets.head? = some m.now ∧ n.power = m.power := by
  unfold coreWatchdogExpiry
  extract_lets m1
  have hrun : m1.coresRun = true := by
    show (decide (5 ≤ m.boot.step) && decide (m.power ≤ 2)) = true
    simp [hstep, hpower]
  rw [if_neg (by simp [hrun, hcore])]
  generalize hr : m1.raise 0x1005 core [(1, core), (1, min 255 (m1.recentResets.length + 1))] = r
  have hnow : r.now = m.now := by rw [← hr]; rfl
  have hboot : r.boot = m.boot := by rw [← hr]; rfl
  have hnewest : r.jrn.newest = m.jrn.newest + 1 := by rw [← hr, Mach.raise_newest]; rfl
  have hsame : r.power = m.power := by rw [← hr, Mach.power, Mach.raise_objN _ _ _ _ (by decide)]; rfl
  have hrecent : r.recentResets = m.recentResets := by rw [Mach.recentResets, hnow, hboot]; rfl
  clear hr
  unfold Mach.resetCore
  extract_lets l boot n
  have hl : l.length < 3 := by simp only [l, hrecent, List.length_cons]; omega
  refine ⟨n, if_neg (by omega), addNew_contains .., hnewest, ?_, hsame⟩
  show some r.now = _
  rw [hnow]

theorem internalBusError_absent (a : Nat) (hpower : m.power ≤ 2) (hstep : 5 ≤ m.boot.step) (hcore : core < 4) :
    ∃ n, internalBusError core 2 a m = .of n ∧ n.power_.absent.contains a = true ∧ n.jrn.newest = m.jrn.newest + 1 ∧
      n.boot.cores = m.boot.cores := by
  unfold internalBusError
  rw [if_neg (by simp [Mach.coresRun, hstep, hpower, hcore])]
  refine ⟨_, if_pos rfl, addNew_contains .., ?_, rfl⟩
  rw [Mach.onPower_jrn, Mach.raise_newest]

theorem flashWrite_boot (m : Mach) : m.flashWrite.boot = m.boot :=
  ((Stays.refl Mach.boot (fun _ => False) m).flashWrite (fun _ _ _ _ _ _ _ _ _ _ => rfl) fun _ h => h.elim).view

/-- Of the objects, a calibration's result that goes to the flash changes the state of the run and what a flash write changes. -/
theorem Stays.calFlashWritten {α : Type} {v : Mach → α} {K : Nat → Prop} {a : Mach} (hv : Unwritten v) (hK : Unflashed K)
    (hcal : ∀ n c, v { n with calib := c } = v n) (hstate : ∀ k, K k → k ≠ okey 0x7800 6) (h : Stays v K a m) :
    Stays v K a (Machine.calFlashWritten m) := by
  unfold Machine.calFlashWritten
  extract_lets r key
  split
  · exact h
  · refine .ite (fun _ => h) fun _ => ?_
    extract_lets m1 m2
    have h1 : Stays v K a m1 := .flashWrite hv hK (.keep (m := m) h (hcal m _) (by rfl))
    have h2 : Stays v K a m2 := h1.keep (hcal ..) (by rfl)
    have h3 : Stays v K a (m2.setN 0x7800 6 5) := .set h2 hstate (hv m2 ..)
    exact .flashEvent hv hK (h3.keep (hcal ..) (by rfl)) (by decide)

/-- A calibration's result that waits to be written goes to the flash without an effect on the shutdown and on shakeout. -/
theorem calFlashWritten_keeps (m : Mach) : Stays (fun n : Mach => (n.boot, n.clk)) (fun k => k / 256 = 0x7C00) m (calFlashWritten m) :=
  .calFlashWritten (fun _ _ _ _ _ _ _ _ _ _ => rfl)
    (fun k hk => ⟨by omega, by rw [okey]; omega⟩) (fun _ _ => rfl) (fun k hk => by rw [okey]; omega) (.refl ..)

end Cores

/-! ### The end of a shutdown (R507, R508, R539) -/

section Shutdown
variable {m : Mach}

theorem checkpointLimit_shakes {c : Ctx} (hshut : m.boot.shut = 2) (hcause : m.boot.shutCause = 0) (hdue : m.boot.t1 + sec 3 ≤ m.now)
    (henabled : m.objB 0x7C00 9 = true) (hlife : c.life ≠ .retired) :
    ∃ n, checkpointLimit c m = .of n ∧ n.boot.shut = 5 ∧ n.panel.checkpoints = [] ∧ n.test.shakeoutAt = m.now := by
  obtain ⟨hview, hobjects⟩ := calFlashWritten_keeps m
  rw [Prod.mk.injEq] at hview
  obtain ⟨hboot, hclk⟩ := hview
  rw [checkpointLimit, if_pos ⟨hshut, hdue⟩]
  unfold Mach.afterCheckpoints
  extract_lets m1 boot test
  have hcalled : m1.boot.shutCause = 0 := by
    show (calFlashWritten m).boot.shutCause = 0
    rw [hboot, hcause]
  have hasked : m1.objB 0x7C00 9 = true := (congrArg (· != 0) (hobjects (okey 0x7C00 9) (by decide))).trans henabled
  exact ⟨_, if_pos ⟨hcalled, hasked, hlife⟩, rfl, rfl, congrArg Clk.mono hclk⟩

/-- The result of shakeout (0x7C00:0A) is as it was. -/
abbrev KeepsResult (a b : Mach) : Prop := Stays (fun _ => ()) (fun k => k = okey 0x7C00 0x0A) a b

variable {a b : Mach}

theorem Follows.result {α : Type} {v : Mach → α} {K : Nat → Prop} (h : Follows v K a b) (hK : K (okey 0x7C00 0x0A)) : KeepsResult a b :=
  ⟨rfl, fun _ hk => h.stays.objects _ (hk ▸ hK)⟩

theorem Stays.elsewhere (h : KeepsResult a m) {ix sub bank : Nat} {x : Int} (hne : okey 0x7C00 0x0A ≠ okey ix sub bank) :
    KeepsResult a (m.set ix sub x bank) := h.set (fun _ hk => Eq.trans_ne hk hne) rfl

theorem Stays.reported (h : KeepsResult a m) {code inst : Nat} {d : List (Nat × Nat)} (hcode : code < 0x100000) :
    KeepsResult a (m.raise code inst d) :=
  h.record (fun k hk => by rw [hk, okey, okey]; omega) rfl

theorem dropLink_result (h : KeepsResult a m) {p : Nat} (hp : p < 5) : KeepsResult a (m.dropLink p 0).m := by
  have hshown : KeepsResult a (m.setN (0x4010 + p) 2 0) := h.elsewhere (by rw [okey, okey]; omega)
  unfold Mach.dropLink
  split
  · exact hshown
  · have hraised : KeepsResult a ((m.setN (0x4010 + p) 2 0).raise 0x5002 p [(1, p)]) := hshown.reported (by decide)
    generalize (m.setN (0x4010 + p) 2 0).raise 0x5002 p [(1, p)] = n at hraised ⊢
    refine Stays.trans ?_ ((dropQueues_drains n p).result (.inr (.inr rfl)))
    exact hraised.keep rfl rfl

theorem dropLinks_result (h : KeepsResult a m) : KeepsResult a m.dropLinks.m := by
  refine List.foldlRecOn (upTo 5) _ (motive := fun e : Eff => KeepsResult a e.m) h fun e he p hp => ?_
  have hlow : p < 5 := by simpa [upTo] using hp
  show KeepsResult a (if e.m.linkUp p then (e.m.dropLink p 0).on (fun m => m.domainsOfPort p) else Eff.of e.m).m
  split
  · exact (dropLink_result he hlow).trans ((Follows.refl ..).domainsOfPort p |>.result (.inr (.inr rfl)))
  · exact he

theorem cutPulses_result (h : KeepsResult a m) : KeepsResult a m.cutPulses := h.each _ fun _ _ hn => .keep hn rfl rfl

theorem closeAll_result (h : KeepsResult a m) (tell : Bool) : KeepsResult a (m.closeAll tell) :=
  h.each _ fun n id hn => by
    obtain ⟨-, hobjects, -⟩ := Closes.closeSession n id 3 tell
    exact hn.trans ⟨rfl, fun k hk => hobjects k (by rw [hk]; decide)⟩

theorem abortJobs_result (h : KeepsResult a m) : KeepsResult a m.abortJobs.m := by
  refine List.foldlRecOn (upTo 8) _ (motive := fun e : Eff => KeepsResult a e.m) h fun e he j hj => ?_
  have hlow : j < 8 := by simpa [upTo] using hj
  refine iteInduction (motive := fun e : Eff => KeepsResult a e.m) (fun _ => ?_) fun _ => he
  generalize e.m = n at he
  unfold Mach.jobEnter
  extract_lets m1 m2 codec m3 m4
  have h1 : KeepsResult a m1 :=
    .elsewhere (.elsewhere (.elsewhere (.elsewhere he (okey_ne (by decide) (by decide) (by decide) (by omega) (by omega)))
      (okey_ne (by decide) (by decide) (by decide) (by omega) (by omega))) (okey_ne (by decide) (by decide) (by decide) (by omega) (by omega)))
      (okey_ne (by decide) (by decide) (by decide) (by omega) (by omega))
  have h3 : KeepsResult a m3 := .ite (fun _ => .keep h1 rfl rfl) (fun _ => .keep h1 rfl rfl)
  have h4 : KeepsResult a m4 := .ite (fun _ => .reported h3 (by decide)) (fun _ => h3)
  split
  · exact h4.trans ((Follows.stored (.refl ..) _).result (.inr (.inr rfl)))
  · exact h4

theorem haltDraw_result (h : KeepsResult a m) : KeepsResult a m.haltDraw := by
  have henter (n : Mach) (hn : KeepsResult a n) (ch : Nat) : KeepsResult a (n.drawEnter ch 3 0) :=
    .ite (fun _ => .elsewhere hn (by decide)) (fun _ => .elsewhere hn (by decide))
  unfold Mach.haltDraw
  extract_lets m1
  have h1 : KeepsResult a m1 := .ite (fun _ => henter _ h 1) (fun _ => h)
  refine .ite (fun _ => h1) fun _ => henter _ (.elsewhere ?_ (by decide)) 0
  exact .keep h1 rfl rfl

theorem accrueOnTime_result (h : KeepsResult a m) : KeepsResult a m.accrueOnTime := by
  unfold Mach.accrueOnTime
  extract_lets dt m1
  have h1 : KeepsResult a m1 := .ite (fun _ => h.each _ fun _ _ hn => .keep hn rfl rfl) (fun _ => h)
  exact .keep h1 rfl rfl

theorem setPower_result (h : KeepsResult a m) (p cause : Nat) : KeepsResult a (m.setPower p cause) := by
  unfold Mach.setPower
  extract_lets from_ m1
  have h1 : KeepsResult a m1 := .keep h rfl rfl
  exact .ite (fun _ => h) fun _ => .reported (m := (m1.setN 0x2100 1 p).bump 0x2100 8) (.elsewhere (.elsewhere h1 (by decide)) (by decide)) (by decide)

theorem latchTime_od (m : Mach) : m.latchTime.od = m.od := iteInduction (motive := fun n : Mach => n.od = m.od) (fun _ => rfl) fun _ => rfl

theorem supplyOff_result (h : KeepsResult a m) (cause : Nat) : KeepsResult a (m.supplyOff cause).m := by
  have hlanes : ∀ l ∈ upTo 192, l < 192 := by simp [upTo]
  have hhalted : KeepsResult a m.haltDraw.accrueOnTime := accrueOnTime_result (haltDraw_result h)
  unfold Mach.supplyOff
  generalize m.haltDraw.accrueOnTime = n at hhalted ⊢
  generalize upTo 192 = lanes at hlanes ⊢
  extract_lets m1 m2 m3 boot koa m4 m5 m6 m7 m8
  have h3 : KeepsResult a m3 := Stays.eachOf _ (fun n l hl hn => by
    have hlane := hlanes l hl
    exact .elsewhere (.elsewhere hn (okey_ne (by decide) (by decide) (by decide) (by omega) (by omega)))
      (okey_ne (by decide) (by decide) (by decide) (by omega) (by omega))) (.keep hhalted rfl rfl)
  have h4 : KeepsResult a m4 := .keep h3 rfl rfl
  have h5 : KeepsResult a m5 := .ite (fun _ => .keep h4 rfl rfl) fun _ => h4
  have h6 : KeepsResult a m6 := setPower_result (.elsewhere h5 (by decide)) 4 cause
  clear_value m6
  have h7 : KeepsResult a m7 := h6.keep rfl (latchTime_od m6)
  show KeepsResult a m8
  unfold m8
  split
  · exact .keep (m := m7.setN 0x2100 5 _) (.elsewhere h7 (by decide)) rfl rfl
  · exact h7

/-- A shakeout that found nothing, and into which nothing was injected, is passed (R508). -/
theorem endShakeout_passes (hnone : (upTo 7).all (fun k => !m.armedAt 24 k) = true) : (m.endShakeout []).objN 0x7C00 0x0A = 1 := by
  have hfilter : (upTo 7).filter (fun k => m.armedAt 24 k) = [] := by
    rw [List.filter_eq_nil_iff]
    intro k hk
    have := List.all_eq_true.mp hnone k hk
    simpa using this
  have hfinds : m.shakeoutFinds [] = [] := by
    rw [Mach.shakeoutFinds, hfilter]
    rfl
  unfold Mach.endShakeout
  extract_lets finds m1 result duration m2
  have hresult : result = 1 := if_pos hfinds
  rw [Mach.raise_objN _ _ _ _ (by decide)]
  refine (Mach.set_objN_ne _ 0x7C00 0x0C _ _ (by decide)).trans ((Mach.set_objN_ne _ 0x7C00 0x0B _ _ (by decide)).trans ?_)
  rw [Mach.set_objN_same, hresult]
  rfl

theorem then_wipes {e : Eff} {f : Mach → Eff} (h : (f e.m).wipe = true) : (e.then_ f).wipe = true := by simp [Eff.then_, h]

theorem then_forgets {e : Eff} {f : Mach → Eff} (h : (f e.m).wipe = true) : (e.then_ f).writes = (f e.m).writes := by simp [Eff.then_, h]

/-- The last steps of a shutdown end in P4 (R539). -/
theorem finishShutdown_off (m : Mach) : m.finishShutdown.m.power = 4 ∧ KeepsResult m m.finishShutdown.m ∧
    m.finishShutdown.wipe = true ∧ m.finishShutdown.writes = [] := by
  unfold Mach.finishShutdown
  extract_lets cause m1
  have h1 : KeepsResult m m1 := by
    refine .ite (fun _ => ?_) fun _ => .refl ..
    exact (Follows.toAll (.refl ..) _).result (.inr (.inr (.inr (.inr (.inr rfl)))))
  have h2 : KeepsResult m m1.draw.dropLinks.m := dropLinks_result (h1.keep rfl rfl)
  generalize m1.draw.dropLinks = e at h2 ⊢
  have h3 : KeepsResult m (e.m.cutPulses.closeAll true) := closeAll_result (cutPulses_result h2) true
  obtain ⟨hpower, -, -, -, -, hwipe, hwrites⟩ := powerOff_off (e.m.cutPulses.closeAll true) cause
  rw [then_m, then_wipes (f := fun m : Mach => (m.cutPulses.closeAll true).powerOff cause) hwipe,
    then_forgets (f := fun m : Mach => (m.cutPulses.closeAll true).powerOff cause) hwipe, hwrites]
  generalize e.m.cutPulses.closeAll true = n at h3 hpower ⊢
  refine ⟨hpower, ?_, rfl, rfl⟩
  rw [Mach.powerOff, then_m]
  exact supplyOff_result (abortJobs_result h3) cause

end Shutdown

/-- Settles O60: each event by what it makes of the cores, the boot record and the shutdown. -/
theorem watchdogsAndFaultHandling : Obligations.WatchdogsAndFaultHandling := by
  unfold Obligations.WatchdogsAndFaultHandling
  refine ⟨?expiry, ?restarted, ?busError, ?trial, ?image, ?limit, ?shakeout⟩
  case expiry =>
    intro s core last hpower hstep hcore hresets
    obtain ⟨n, heq, hafter⟩ := coreWatchdogExpiry_resets last hpower hstep hcore hresets
    exact runs_of_eff (f := fun _ => coreWatchdogExpiry core last) heq hafter
  case restarted =>
    intro s core hone htwo
    obtain ⟨n, heq, hcores⟩ := coreReturns_cores hone htwo s.ctx
    exact runs_of_eff (f := coreReturns core) heq hcores
  case busError =>
    intro s core a hpower hstep hcore
    obtain ⟨n, heq, hafter⟩ := internalBusError_absent a hpower hstep hcore
    exact runs_of_eff (f := fun _ => internalBusError core 2 a) heq hafter
  case trial =>
    intro s htrial hstep hselected hactive
    refine runs_of_lift (f := fun _ => trialPeriodEnd) ?_
    rw [trialPeriodEnd, if_pos ⟨htrial, hstep, hselected, hactive⟩]
    exact ⟨rfl, congrArg (fun b => b.record.selected) (flashWrite_boot s.m)⟩
  case image =>
    intro s v hwriting hrecovery
    refine runs_of_lift (f := fun _ => imageFlashWritten) ?_
    have htarget : s.m.uploadTarget = 1 - s.m.boot.record.running := if_neg (by rw [hrecovery]; decide)
    unfold imageFlashWritten
    simp only [hwriting]
    exact ⟨htarget, rfl, rfl, rfl, Mach.setN_objN_same ..⟩
  case limit =>
    intro s hshut hcause hdue henabled hlife
    obtain ⟨n, heq, hafter⟩ := checkpointLimit_shakes (c := s.ctx) hshut hcause hdue henabled hlife
    exact runs_of_eff (f := checkpointLimit) heq hafter
  case shakeout =>
    intro s hnone hshut hpower
    have heq : shakeoutEnd [] s.m = (s.m.endShakeout []).finishShutdown := if_pos hshut
    obtain ⟨hoff, hkeeps, hwipe, hwrites⟩ := finishShutdown_off (s.m.endShakeout [])
    refine ⟨_, liftE_next (fun _ => shakeoutEnd []) s, ?_⟩
    show (shakeoutEnd [] s.m).m.power = 4 ∧ (shakeoutEnd [] s.m).m.objN 0x7C00 0x0A = 1 ∧
      memApply (if (shakeoutEnd [] s.m).wipe then [] else s.mem) (shakeoutEnd [] s.m).writes = []
    rw [heq, hwipe, hwrites]
    exact ⟨hoff, (hkeeps.objN_of_key rfl).trans (endShakeout_passes hnone), rfl⟩

end Sys2Proof.Machine

/-! A pass of the DRAM item whose page an armed injection of point 9 strikes: a state that refutes O53 (R271, R493, R523). -/

namespace Sys2Proof.Machine

/-- From one block to the next the state of the calibration run is as it was. -/
abbrev KeepsRun (a b : Mach) : Prop := Stays (fun _ => ()) (· = okey 0x7800 6) a b

section KeepsRun
variable {a m : Mach}

theorem Stays.apart (h : KeepsRun a m) {ix sub : Nat} (x : Int) (hne : okey 0x7800 6 ≠ okey ix sub) : KeepsRun a (m.set ix sub x) :=
  .set h (fun _ hk => Eq.trans_ne hk hne) rfl

theorem runKey_unstored : Unstored (· = okey 0x7800 6) := by
  rintro k rfl
  simp only [okey]
  exact ⟨by omega, by omega, fun p => ⟨by omega, by omega⟩⟩

theorem Stays.wanted (h : KeepsRun a m) (l cause : Nat) : KeepsRun a (m.wantTakeOver l cause) := by
  have hjoin : KeepsRun a (m.joinTakeOvers l cause) := h.joinTakeOvers (fun _ _ _ _ _ _ _ _ => rfl) l cause
  unfold Mach.wantTakeOver
  cases m.dram.takeOver with
  | none => exact hjoin
  | some t => exact .ite (fun _ => .ite (fun _ => h) fun _ => .apart (h.keep rfl (by rfl)) _ (by decide)) (fun _ => hjoin)

theorem Stays.passed (h : KeepsRun a m) (p : Nat) : KeepsRun a (m.passChannel p) := by
  unfold Mach.passChannel
  extract_lets d m1 d1
  have h1 : KeepsRun a m1 := .ite (fun _ => h) fun _ => .record (h.keep rfl (by rfl)) (fun _ hk => Eq.trans_ne hk (by decide)) rfl
  split
  · exact h1.wanted _ 0
  · exact .ite (fun _ => h1.keep rfl rfl) (fun _ => h1)

theorem Stays.threshold (h : KeepsRun a m) (p : Nat) : KeepsRun a (m.dramThreshold p) := .ite (fun _ => h.passed p) (fun _ => h)

theorem Stays.fullList (h : KeepsRun a m) (p : Nat) : KeepsRun a (m.listFull p) := by
  unfold Mach.listFull
  split
  · exact .ite (fun _ => h.wanted _ 1) (fun _ => h)
  · exact h

theorem Stays.codeword (h : KeepsRun a m) (p n : Nat) : KeepsRun a (m.noteCorrected p n) :=
  .ite (fun _ => h) fun _ => .keep (.apart h _ (by rw [okey, okey]; omega)) rfl rfl

theorem Stays.readOnce (h : KeepsRun a m) (p o : Nat) : KeepsRun a (m.readAccess p o) := by
  have haccess : KeepsRun a (m.access p o) := h.accessed (fun _ _ _ _ _ _ _ _ => rfl) runKey_unstored p o
  exact .ite (fun _ => .strikes (fun _ _ _ _ _ _ _ _ => rfl) runKey_unstored ((haccess.codeword p 1).threshold p)) (fun _ => haccess)

/-- Reads keep the state of the run but where an injection of point 9 strikes. -/
theorem reads_keepsRun (m : Mach) (n : Nat) (runs : List (Nat × Nat)) : KeepsRun (m.strike n runs) (m.reads n runs) := by
  rw [Mach.reads]
  exact (Stays.refl _ _ (m.strike n runs)).each _ fun k r hk => .apart (hk.touchRun fun _ y z hj => hj.readOnce y z) _ (by decide)

/-- An injection of point 9 that waits for a read of channel 0x7F0, whose count of uncorrectable codewords lies at the state of the run. -/
def strayInjection : Inject := { point := 9, inst := 0x7F0, periodic := false, value := 0, at_ := 0, live := true }

/-- The count of the channel's uncorrectable codewords is the state of the run. -/
theorem uncorrectable_counts {m : Mach} {o x n : Nat} (hstate : m.objN 0x7800 6 = 2) : (m.uncorrectable 0x7F0 o x n).objN 0x7800 6 = 3 := by
  have hmax : m.objN (0x7010 + 0x7F0) 6 + 1 ≤ objMax (0x7010 + 0x7F0) 6 := by
    rw [show m.objN (0x7010 + 0x7F0) 6 = 2 from hstate]
    decide +kernel
  have hcount : (m.bump (0x7010 + 0x7F0) 6).objN 0x7800 6 = 3 := (m.bump_objN_same _ _ 1 0 hmax).trans (congrArg (· + 1) hstate)
  have hlisted : KeepsRun (m.bump (0x7010 + 0x7F0) 6) ((m.bump (0x7010 + 0x7F0) 6).addPoison 0x7F0 o) :=
    .showPoison (fun _ _ _ _ _ _ _ _ => rfl) runKey_unstored (.onChan (fun _ _ _ _ _ _ _ _ => rfl) (.refl ..) _ _) _
  have hreported := (hlisted.raiseRate (n := 10) (code := 0xA001) (inst := 0x7F0) (d := [(1, 0x7F0), (8, x), (1, n)])
    (fun _ hk => Eq.trans_ne hk (by decide)) fun _ _ _ _ _ => rfl)
  exact (((hreported.threshold 0x7F0).fullList 0x7F0).objN_of_key rfl).trans hcount

theorem armedAt_strayInjection {m : Mach} (harmed : m.test.armed = some strayInjection) (p : Nat) : m.armedAt 9 p = true ↔ p = 0x7F0 := by
  simp [Mach.armedAt, harmed, strayInjection, eq_comm]

/-- A read that goes through the channel is struck, and the state of the run moves on. -/
theorem strike_counts {m : Mach} {source a n : Nat} {runs : List (Nat × Nat)} (harmed : m.test.armed = some strayInjection)
    (hstate : m.objN 0x7800 6 = 2) (hrun : (a, n) ∈ runs) (hreach : reachable a n = true) (hn : n ≠ 0)
    (hchannel : (m.physical (a / 64 * 64)).1 = 0x7F0) : (m.strike source runs).objN 0x7800 6 = 3 := by
  have hwaits : m.poisonWaits = true := by simp [Mach.poisonWaits, harmed, strayInjection]
  obtain ⟨l, hl⟩ := accessesOf_cons a hn
  have hfound : a / 64 * 64 ∈ (runs.filter fun r => reachable r.1 r.2).flatMap fun r => accessesOf r.1 r.2 :=
    List.mem_flatMap.2 ⟨(a, n), List.mem_filter.2 ⟨hrun, hreach⟩, hl ▸ List.mem_cons_self⟩
  rw [Mach.strike, hwaits]
  simp only [Bool.not_true, Bool.false_eq_true, if_false]
  cases hfind : ((runs.filter fun r => reachable r.1 r.2).flatMap fun r => accessesOf r.1 r.2).find? fun x => m.armedAt 9 (m.physical x).1 with
  | none => exact absurd ((armedAt_strayInjection harmed _).2 hchannel) (by simpa using List.find?_eq_none.1 hfind _ hfound)
  | some x =>
    have hacted : KeepsRun m m.acted := .strikes (fun _ _ _ _ _ _ _ _ => rfl) runKey_unstored (.refl ..)
    have hstruck := (armedAt_strayInjection harmed _).1 (List.find?_some (p := fun x => m.armedAt 9 (m.physical x).1) hfind)
    simp only [hstruck]
    exact uncorrectable_counts ((hacted.objN_of_key rfl).trans hstate)

theorem logicalOf_lt (x : Nat) : logicalOf x < 32 := by
  have hfield (hi lo : Nat) (h : hi < lo + 5) : field x hi lo < 2 ^ 5 :=
    (Nat.mod_lt _ (Nat.two_pow_pos _)).trans_le (Nat.pow_le_pow_right (by decide) (by omega))
  rw [logicalOf]
  split
  · exact Nat.xor_lt_two_pow (Nat.xor_lt_two_pow (Nat.xor_lt_two_pow (Nat.xor_lt_two_pow (Nat.xor_lt_two_pow (hfield 12 8 (by decide))
      (hfield 17 13 (by decide))) (hfield 22 18 (by decide))) (hfield 27 23 (by decide))) (hfield 32 28 (by decide))) (hfield 33 33 (by decide))
  · exact Nat.mod_lt _ (by decide)

/-- The channel holds every address when it backs the 32 logical channels. -/
theorem physical_channel {m : Mach} (hback : ∀ l < 32, m.objN (0x7040 + l) 1 = 0x7F0) (x : Nat) : (m.physical x).1 = 0x7F0 := by
  simp [Mach.physical, hback _ (logicalOf_lt x)]

theorem addressable_clip {x : Nat} (hx : fixedEnd ≤ x) (hend : x < dramEnd) : addressable x = true := by
  unfold fixedEnd dramEnd at *
  have hmirror : ¬ x < 0x20000000 := by omega
  have hreserved : ¬ x < 0x400000000 := by omega
  simp [addressable, dramEnd, hend, hmirror, hreserved]

/-- A page whose first run lies in the clip store is struck as it is saved. -/
theorem savePage_counts {m : Mach} {c : Ctx} {l a n : Nat} (harmed : m.test.armed = some strayInjection) (hstate : m.objN 0x7800 6 = 2)
    (hback : ∀ l < 32, m.objN (0x7040 + l) 1 = 0x7F0) (hbacks : m.backs 0 = some l)
    (hrun : (a, n) ∈ pageRuns l ((Config.calPage m.free).toNat % 2097152)) (hn : n ≠ 0) (ha : fixedEnd ≤ a) (hend : a + n ≤ dramEnd) :
    (m.savePage c 0).m.objN 0x7800 6 = 3 := by
  have hreach : reachable a n = true := by
    rw [reachable, addressable_clip ha (by omega), addressable_clip (by omega) (by omega)]
    rfl
  have hsource : (m.draw.strike (sourceBase 12) (pageRuns l ((Config.calPage m.free).toNat % 2097152))).objN 0x7800 6 = 3 :=
    strike_counts (m := m.draw) harmed hstate hrun hreach hn (physical_channel (m := m.draw) hback _)
  simp only [Mach.savePage, hbacks]
  have hstored (k : Mach) (ws : List MemWrite) : KeepsRun k (k.storeAll ws).m :=
    ((Follows.refl _ _ k).storeAll (fun _ _ _ _ _ _ _ _ => rfl) runKey_unstored ws).stays
  exact ((hstored _ _).objN_of_key rfl).trans (((reads_keepsRun ..).objN_of_key rfl).trans hsource)

end KeepsRun

/-- The checks of a run of item 2 on channel 0, which backs logical channel `l`; channel 0x7F0 backs all the others, and an injection waits for
a read of it. -/
def strayRun (l : Nat) : State := started fun m =>
  each (upTo 32) ((({ m with calib := { m.calib with run := { item := 2 } }, test := { m.test with armed := some strayInjection } } : Mach).setN
    0x7800 6 1).setN 0x7010 2 l) fun m x => m.setN (0x7040 + x) 1 0x7F0

/-- The pass of the run begins, its settings drawn. -/
def strayPass (l : Nat) : Mach :=
  let m := (strayRun l).m.calEnter 2
  m.draw.putSettings (calKey 2 0) (inRanges 2 fun i => (Config.tested m.free i).toNat)

theorem strayRun_checks : ∀ l ∈ [0, 0x4000000], (strayRun l).m.calState = 1 ∧ (strayRun l).m.calib.run.item = 2 ∧
    (strayRun l).m.calib.run.inst = 0 ∧ (strayRun l).m.calChecks 2 0 = 0 := by
  decide +kernel

theorem strayPass_armed : ∀ l ∈ [0, 0x4000000], (strayPass l).test.armed = some strayInjection ∧ (strayPass l).objN 0x7800 6 = 2 ∧
    (strayPass l).backs 0 = some l ∧ (strayPass l).free = 1 := by
  decide +kernel

theorem strayPass_backing : ∀ l ∈ [0, 0x4000000], ∀ x < 32, (strayPass l).objN (0x7040 + x) 1 = 0x7F0 := by
  decide +kernel

/-- A page behind the fixed area has a run in the clip store. -/
theorem pageRuns_behind {page : Nat} (hpage : fixedEnd / 32 ≤ page * 2048) (hlast : page < 2097152) :
    ∃ a n, (a, n) ∈ pageRuns 0 page ∧ n ≠ 0 ∧ fixedEnd ≤ a ∧ a + n ≤ dramEnd := by
  obtain ⟨d, hd⟩ : ∃ d, d = (page * 2048 - fixedEnd / 32) / extentSize := ⟨_, rfl⟩
  refine ⟨fixedEnd + (d * 32 + 0) * extentSize + page * 2048 % extentSize, 2048, ?_, by decide, ?_, ?_⟩
  · rw [hd, pageRuns, if_pos hpage]
    exact List.mem_singleton_self _
  · rw [Nat.add_assoc]
    exact Nat.le_add_right ..
  · unfold fixedEnd extentSize dramEnd at *
    omega

/-- A page of the fixed area has a run in the clip store where the logical channel is none of the 32. -/
theorem pageRuns_past {page : Nat} (hpage : ¬ fixedEnd / 32 ≤ page * 2048) :
    ∃ a n, (a, n) ∈ pageRuns 0x4000000 page ∧ n ≠ 0 ∧ fixedEnd ≤ a ∧ a + n ≤ dramEnd := by
  obtain ⟨base, hbase⟩ : ∃ base, base = (page * 2048 / 256 + 0) * 8192 := ⟨_, rfl⟩
  have hbound := logicalOf_lt base
  have hsum : logicalOf base ^^^ 0x4000000 = logicalOf base + 0x4000000 :=
    (show ∀ x < 32, x ^^^ 0x4000000 = x + 0x4000000 by decide) _ hbound
  refine ⟨base + (logicalOf base ^^^ 0x4000000) * 256, 256, ?_, by decide, ?_, ?_⟩
  · rw [hbase, pageRuns, if_neg hpage]
    exact List.mem_map.2 ⟨0, by decide, rfl⟩
  · rw [hsum]
    unfold fixedEnd at *
    omega
  · rw [hsum]
    unfold fixedEnd dramEnd at *
    omega

/-- Refutes O53: its clause on the checks takes any state of the memory controller. A pass of item 2 reads its page to save it,
the injection strikes that read, and channel 0x7F0 counts its uncorrectable codeword in object 0x7800:06, the state of the run.
The page is the model's free value (R493), so that two states serve, one for a page of the fixed area and one for a page behind it. -/
theorem not_calibrationPassesAndEndings : ¬ Obligations.CalibrationPassesAndEndings := by
  unfold Obligations.CalibrationPassesAndEndings
  rintro ⟨hchecks, -⟩
  obtain ⟨page, hpage⟩ : ∃ page, page = (Config.calPage 1).toNat % 2097152 := ⟨_, rfl⟩
  obtain ⟨l, hl, a, n, hrun, hn, ha, hend⟩ : ∃ l ∈ [0, 0x4000000], ∃ a n, (a, n) ∈ pageRuns l page ∧ n ≠ 0 ∧ fixedEnd ≤ a ∧ a + n ≤ dramEnd := by
    by_cases hbehind : fixedEnd / 32 ≤ page * 2048
    · exact ⟨0, by decide, pageRuns_behind hbehind (hpage ▸ Nat.mod_lt _ (by decide))⟩
    · exact ⟨0x4000000, by decide, pageRuns_past hbehind⟩
  obtain ⟨hstate, hitem, hinst, hclear⟩ := strayRun_checks l hl
  obtain ⟨harmed, hpass, hbacks, hfree⟩ := strayPass_armed l hl
  have hown : (strayRun l).m.calChecks (strayRun l).m.calib.run.item (strayRun l).m.calib.run.inst = 0 := by rw [hitem, hinst, hclear]
  obtain ⟨t, hnext, hafter, -⟩ := hchecks (strayRun l) hstate hown
  have hbegins : ((strayRun l).m.calEnter 2).underTest (strayRun l).ctx = (strayPass l).savePage (strayRun l).ctx 0 := rfl
  rw [mach_of_liftE (f := checksDone 0) hnext, checksDone_clear hstate hown, hbegins, Mach.calState,
    savePage_counts harmed hpass (strayPass_backing l hl) hbacks (by rw [hfree, ← hpage]; exact hrun) hn ha hend] at hafter
  exact absurd hafter (by decide)

end Sys2Proof.Machine

/-! Requests for power states: what their entries leave alone, and O45 (R451 to R454, R539). -/

namespace Sys2Proof.Machine

/-! ### Lanes, slate and memory (R298 to R302, R372, R453) -/

section Entries
variable {a m : Mach}

theorem Stays.sentOnLane (h : KeepsStop a m) {l : Nat} (hl : l < 192) (k : Ktl) : KeepsStop a (m.sendKtl l k) :=
  .ite (fun _ => h) fun _ => h.trans ((LaneMoves.putKtl m l k).keepsStop hl)

theorem Stays.sentToAll (h : KeepsStop a m) (k : Ktl) : KeepsStop a (m.toAll k) := by
  refine h.eachOf _ fun n c hc hn => ?_
  have hchain : c < 96 := by simpa [upTo] using hc
  exact .ite (fun _ => (hn.sentOnLane (by omega) k).sentOnLane (by omega) k) (fun _ => hn.sentOnLane (by omega) k)

theorem Stays.followMode (h : KeepsStop a m) : KeepsStop a m.followMode := by
  unfold Mach.followMode
  extract_lets d
  have hmode : KeepsStop a (m.onPanel fun x => { x with mode := d }) := .keep h rfl rfl
  exact .ite (fun _ => h) fun _ => hmode.sentToAll _

theorem Stays.followDeep (h : KeepsStop a m) : KeepsStop a m.followDeep := by
  refine h.eachOf _ fun n l hl hn => ?_
  have hlane : l < 192 := by simpa [upTo] using hl
  refine .ite (fun _ => hn) fun _ => .ite (fun _ => ?_) fun _ => .ite (fun _ => ?_) (fun _ => hn)
  · exact hn.trans (((LaneMoves.enterDeep n l).trans (.onLane ..)).keepsStop hlane)
  · exact hn.trans ((LaneMoves.wakeOrCancel n l _).keepsStop hlane)

section Reads
variable {α : Type} {v : Mach → α} {K : Nat → Prop} (hv : Blind v) (hK : Unaccessed K)
include hv hK

/-- An injection that strikes a read. -/
theorem Stays.struck (h : Stays v K a m) (n : Nat) (runs : List (Nat × Nat)) : Stays v K a (m.strike n runs) := by
  unfold Mach.strike
  refine .ite (fun _ => h) fun _ => ?_
  split
  next x _ =>
    have hacted : Stays v K a m.acted := h.acted hv hK
    unfold Mach.uncorrectable
    extract_lets m1
    have h1 : Stays v K a m1 := .setDram hv hK (.onChan hv (.setDram hv hK hacted _ (by omega) (by decide) (by decide)) _ _) _
      (by omega) (by decide) (by decide)
    have hraised : Stays v K a (m1.raiseRate 10 0xA001 (m.physical x).1 [(1, (m.physical x).1), (8, x), (1, n)]) :=
      h1.raiseRate (fun k hk => by have := hK k hk; simp only [okey]; omega) fun _ _ _ _ _ => hv ..
    have hlimit := hraised.dramThreshold hv hK (m.physical x).1
    unfold Mach.listFull
    split
    · exact .ite (fun _ => hlimit.wantTakeOver hv hK _ 1) (fun _ => hlimit)
    · exact hlimit
  next => exact h

/-- Reads of module memory, whatever injection waits. -/
theorem Stays.readBack (h : Stays v K a m) (n : Nat) (runs : List (Nat × Nat)) : Stays v K a (m.reads n runs) := by
  rw [Mach.reads]
  exact (h.struck hv hK n runs).each _ fun k r hk => .setDram hv hK
    (hk.touchRun fun k y z hj => hj.readAccess hv hK y z) _ (by decide) (by decide) (by decide)

end Reads

theorem Stays.laneKept (h : KeepsStop a m) (l : Nat) (f : Lane → Lane) : KeepsStop a (m.onLane l f) := h.keep rfl rfl

theorem Stays.sendSlate (h : KeepsStop a m) (c : Ctx) : KeepsStop a (m.sendSlate c) := by
  unfold Mach.sendSlate
  extract_lets chain number m1 m2
  have h1 : KeepsStop a m1 := h.each _ fun n l hn => hn.laneKept l _
  have h2 : KeepsStop a m2 := h1.each _ fun n t hn => by
    extract_lets n1 segs
    have hn1 : KeepsStop a n1 := hn.struck stopView_blind stopKeys_unaccessed ..
    clear_value n1
    have hdrawn : KeepsStop a n1.draw := .keep hn1 rfl rfl
    exact (hdrawn.readBack stopView_blind stopKeys_unaccessed ..).laneKept ..
  clear_value m2
  exact .keep h2 rfl rfl

theorem Stays.slateOn (h : KeepsStop a m) (c : Ctx) : KeepsStop a (m.slateOn c) := by
  unfold Mach.slateOn
  extract_lets m1
  have h1 : KeepsStop a m1 := .report (h.others _ (by simp) (by decide)) (by decide)
  clear_value m1
  have h2 : KeepsStop a (m1.onPanel fun x => { x with slate := { x.slate with number := m1.frameNo, tickAt := m1.timeWord, lit := [] } }) :=
    .keep h1 rfl rfl
  exact h2.sendSlate c

theorem Stays.wakeDram (h : KeepsStop a m) : KeepsStop a m.wakeDram :=
  h.each _ fun _ _ hn => .ite (fun _ => .keep hn rfl rfl) (fun _ => hn)

theorem Stays.heatsSoon (h : KeepsStop a m) : KeepsStop a m.heatsSoon := .ite (fun _ => .keep h rfl rfl) (fun _ => h)

end Entries

/-! ### P2 and P3 (R83, R451, R453, R454) -/

section States
variable {m : Mach}

theorem setPower_request (m : Mach) (p cause : Nat) : (m.setPower p cause).objN 0x2100 3 = m.objN 0x2100 3 := by
  unfold Mach.setPower
  refine iteInduction (motive := fun n : Mach => n.objN 0x2100 3 = m.objN 0x2100 3) (fun _ => rfl) fun _ => ?_
  extract_lets from_ m1
  rw [Mach.raise_objN _ _ _ _ (by decide), Mach.bump_objN_ne _ _ _ _ _ (by decide), Mach.setN_objN_ne _ _ _ _ _ (by decide)]
  rfl

theorem Eff.on_m (e : Eff) (f : Mach → Mach) : (e.on f).m = f e.m := rfl

/-- The entry to P2 gives the power state. -/
theorem enterP2_power (m : Mach) (c : Ctx) : (m.enterP2 c).m.power = 2 := by
  rw [Mach.enterP2, Eff.on_m]
  extract_lets chain lit quenched m1 m2 m3 m4 m5
  have h4 : KeepsStop (m3.setPower 2 (if m3.power_.shed = true then 1 else 0)) m4 := .followMode (.testConditions (.refl ..))
  have h5 : KeepsStop (m3.setPower 2 (if m3.power_.shed = true then 1 else 0)) m5 := .ite (fun _ => h4) (fun _ => h4.slateOn c)
  exact (KeepsStop.objN (.followCommons (.followDeep h5)) (.inr rfl) (by decide)).trans (setPower_power ..)

/-- P2 is left for the state that the stage gives, with no request to come. -/
theorem leaveP2_running (m : Mach) (cause : Nat) : (m.leaveP2 cause).power = (if m.stage = 0 then 0 else 1) ∧ (m.leaveP2 cause).objN 0x2100 3 = 0xFF := by
  unfold Mach.leaveP2
  extract_lets m1 m2
  have h1 : KeepsStop m m.accrueOnTime.slateOff := .slateOff (.accrueOnTime (.refl ..))
  have hstage : m1.stage = m.stage := KeepsStop.objN h1 (.inl rfl) (by decide)
  have hpower : m2.power = if m.stage = 0 then 0 else 1 := by rw [← hstage]; exact setPower_power ..
  have hrequest : m2.objN 0x2100 3 = 0xFF := (setPower_request ..).trans (Mach.setN_objN_same ..)
  have hlast : KeepsStop m2 m2.wakeDram.followDeep.heatsSoon.followCommons.resumeJobs :=
    .resumeJobs (.followCommons (.heatsSoon (.followDeep (.wakeDram (.refl ..)))))
  exact ⟨(KeepsStop.objN hlast (.inr rfl) (by decide)).trans hpower, (KeepsStop.objN hlast (.inr rfl) (by decide)).trans hrequest⟩

/-- The entry to P3 begins. -/
theorem enterP3_begins (m : Mach) : m.enterP3.power = m.power ∧ m.enterP3.power_.entry = some (m.now, 1) ∧
    m.enterP3.power_.stop = m.power_.stop ∧ m.enterP3.objN 0x2100 3 = m.objN 0x2100 3 := by
  unfold Mach.enterP3
  have h : KeepsStop m (m.stopHeats.toAll (.blank 0xF 1 4)).slateOff.followCommons := .followCommons (.slateOff (.sentToAll (.stopHeats (.refl ..)) _))
  generalize (m.stopHeats.toAll (.blank 0xF 1 4)).slateOff.followCommons = n at *
  have hunit : n.power_ = m.power_ := congrArg Prod.fst h.view
  refine ⟨KeepsStop.objN h (.inr rfl) (by decide), rfl, ?_, KeepsStop.objN h (.inr rfl) (by decide)⟩
  show n.power_.stop = m.power_.stop
  rw [hunit]

/-! ### Requests (R451, R452) -/

section Requests
variable {c : Ctx}

theorem setN_scheduled (m : Mach) (x : Nat) : (m.setN 0x2100 3 x).scheduled = m.scheduled := by
  rw [Mach.scheduled, Mach.schedState, Mach.setN_objN_ne _ _ _ _ _ (by decide)]
  rfl

theorem setN_power (m : Mach) (x : Nat) : (m.setN 0x2100 3 x).power = m.power := Mach.setN_objN_ne _ _ _ _ _ (by decide)

theorem setN_stage (m : Mach) (x : Nat) : (m.setN 0x2100 3 x).stage = m.stage := Mach.setN_objN_ne _ _ _ _ _ (by decide)

/-- A request during a transition waits. -/
theorem request_waits (hstopping : m.stopping = true) (t : Nat) (c : Ctx) : m.request t c = .of (m.setN 0x2100 3 t) := if_pos hstopping

/-- A request in P0 to P2 without a transition. -/
theorem request_applies (hstopping : m.stopping = false) (t : Nat) (c : Ctx) : m.request t c = m.applyRequest t c := by
  rw [Mach.request, if_neg (by simp [hstopping])]

/-- A RUN request in P0 or P1 has come where it asks to. -/
theorem applyRequest_run (hpower : m.power ≤ 1) : m.applyRequest 0 c = .of (m.setN 0x2100 3 0xFF) := by
  unfold Mach.applyRequest
  extract_lets m1
  have h1 : m1.power = m.power := setN_power ..
  rw [if_neg (by omega), if_pos rfl, if_pos (by omega)]

/-- A RUN request in P2 leaves it while the stage allows. -/
theorem applyRequest_leave (hpower : m.power = 2) (hstage : m.stage ≤ 5) : m.applyRequest 0 c = .of ((m.setN 0x2100 3 0xFF).leaveP2 0) := by
  unfold Mach.applyRequest
  extract_lets m1
  have h1 : m1.power = m.power := setN_power ..
  have h2 : m1.stage = m.stage := setN_stage ..
  rw [if_neg (by omega), if_pos rfl, if_neg (by omega), if_pos (by omega)]

/-- A RUN request in P2 waits for the stage. -/
theorem applyRequest_pends (hpower : m.power = 2) (hstage : 6 ≤ m.stage) : m.applyRequest 0 c = .of ((m.setN 0x2100 3 0xFF).setN 0x2100 3 0) := by
  unfold Mach.applyRequest
  extract_lets m1
  have h1 : m1.power = m.power := setN_power ..
  have h2 : m1.stage = m.stage := setN_stage ..
  rw [if_neg (by omega), if_pos rfl, if_neg (by omega), if_neg (by omega)]

theorem onPower_scheduled (m : Mach) (f : Power → Power) : (m.onPower f).scheduled = m.scheduled := rfl

/-- A SLATE request without a schedule enters P2 at once. -/
theorem applyRequest_slate (hpower : m.power ≤ 1) (hscheduled : m.scheduled = false) (c : Ctx) : (m.applyRequest 2 c).m.power = 2 := by
  unfold Mach.applyRequest
  extract_lets m1
  have h1 : m1.power = m.power := setN_power ..
  have hoff : m1.scheduled = false := (setN_scheduled ..).trans hscheduled
  clear_value m1
  rw [if_neg (by omega), if_neg (by decide), if_pos rfl, if_neg (by omega)]
  unfold Mach.pendStop
  extract_lets m2
  have hstop : m2.power_.stop = some 2 := rfl
  have hstill : m2.scheduled = false := hoff
  clear_value m2
  rw [if_neg (by simp [hstill]), Mach.doStop, hstop]
  simp only [hstill, Bool.false_eq_true, if_false, if_true]
  exact enterP2_power ..

/-- A SLEEP request is a stop that is pending. -/
theorem applyRequest_pendSleep (hpower : m.power ≤ 2) (c : Ctx) :
    m.applyRequest 3 c = (m.setN 0x2100 3 0xFF).pendStop 3 (m.setN 0x2100 3 0xFF).power_.shed c := by
  unfold Mach.applyRequest
  extract_lets m1
  have h1 : m1.power = m.power := setN_power ..
  rw [if_neg (by omega), if_neg (by decide), if_neg (by decide), if_pos rfl]

/-- A SLEEP request without a schedule begins the entry to P3 at once. -/
theorem pendStop_sleep (hscheduled : m.scheduled = false) (c : Ctx) :
    m.pendStop 3 m.power_.shed c = .of (m.onPower fun x => { x with stop := none }).enterP3 := by
  have hoff : (m.onPower fun x => { x with stop := some 3, shed := m.power_.shed }).scheduled = false := hscheduled
  simp only [Mach.pendStop, Nat.reduceEqDiff, false_and, if_false, Mach.doStop, onPower_scheduled, hscheduled, Bool.false_eq_true]
  rfl

/-- With a schedule a SLEEP request waits for its frame tick. -/
theorem pendStop_sleepLater (hscheduled : m.scheduled = true) (c : Ctx) :
    m.pendStop 3 m.power_.shed c = .of (m.onPower fun x => { x with stop := some 3 }) := by
  simp only [Mach.pendStop, Nat.reduceEqDiff, false_and, if_false, Mach.doStop, onPower_scheduled, hscheduled, if_true]
  rfl

/-- An orderly shutdown is decided by the record that it raises. -/
theorem decideShutdown_decides (hpower : m.power ≤ 2) (hshut : m.boot.shut = 0) (hstep : m.boot.step ≠ 0) :
    (m.decideShutdown 0).boot.shut = 1 ∧ (m.decideShutdown 0).power_.stop = some 4 ∧ (m.decideShutdown 0).power_.decided = m.jrn.newest + 1 ∧
      (m.decideShutdown 0).jrn.newest = m.jrn.newest + 1 ∧ (m.decideShutdown 0).power_.lastStop = 0 ∧
      (m.decideShutdown 0).scheduled = m.scheduled := by
  unfold Mach.decideShutdown
  rw [if_neg (by omega)]
  extract_lets boot power m1 m2
  have hnewest : m2.jrn.newest = m.jrn.newest + 1 := Mach.raise_newest ..
  have hscheduled : m2.scheduled = m.scheduled := by
    rw [Mach.scheduled, Mach.schedState, Mach.raise_objN _ _ _ _ (by decide), Mach.setN_objN_ne _ _ _ _ _ (by decide)]
    rfl
  exact ⟨rfl, rfl, hnewest, hnewest, rfl, hscheduled⟩

/-- An OFF request with a schedule decides the shutdown, whose T1 is to come. -/
theorem applyRequest_off (hpower : m.power ≤ 2) (hscheduled : m.scheduled = true) (hshut : m.boot.shut = 0) (hstep : m.boot.step ≠ 0) (c : Ctx) :
    m.applyRequest 4 c = .of ((m.setN 0x2100 3 0xFF).decideShutdown 0) := by
  unfold Mach.applyRequest
  extract_lets m1
  have h1 : m1.power = m.power := setN_power ..
  have hon : m1.scheduled = true := (setN_scheduled ..).trans hscheduled
  rw [if_neg (by omega), if_neg (by decide), if_neg (by decide), if_neg (by decide)]
  obtain ⟨-, hstop, -, -, -, hstill⟩ := decideShutdown_decides (m := m1) (by omega) hshut hstep
  simp only [Mach.doStop, hstop, hstill, hon, if_true]
  rfl

end Requests

end States

/-! ### The statement -/

section Writes
variable {s : State} {w : WriteReq} {p : Put} {m : Mach} {P : State → Prop}

/-- A write of 0x2100:02 makes the request that its code names. -/
theorem Reaches.run_request (h : Reaches s 0x2100 2 w p m) : p.run m = .ok (m.request (p.n % 16) p.c) := by
  obtain ⟨-, hix, hsub, -, -⟩ := h.put
  simp [Put.run, Put.sessions, Put.supply, hix, hsub]

/-- A request that leaves a block runs as the write of its code. -/
theorem Reaches.runs_request (h : Reaches s 0x2100 2 w p m) {code t : Nat} {e : Eff} (hcode : ofBE w.value = code) (hn : p.n = code)
    (ht : code % 16 = t) (he : m.request t p.c = e) (hP : ∀ x : State, SameBut x.m e.m → P x) :
    ∃ x, liftE (writeCode true 0x2100 2 code w) s = .next x ∧ P x := by
  rw [writeCode_of_eq hcode]
  have hrun : p.run m = .ok e := by rw [h.run_request, hn, ht, he]
  obtain ⟨x, hnext, hsame, -⟩ := h.liftE_next hrun (by decide)
  exact ⟨x, hnext, hP x hsame⟩

end Writes

theorem SameBut.power {a b : Mach} (h : SameBut a b) : a.power = b.power := h.objN_eq ..

/-- Settles O45: each request by what it makes of the power state, of the stop that is pending and of the request to come. -/
theorem powerRequestsTakeEffect : Obligations.PowerRequestsTakeEffect := by
  unfold Obligations.PowerRequestsTakeEffect
  refine ⟨?run, ?held, ?running, ?slate, ?sleep, ?waits, ?later, ?off⟩
  case run =>
    intro s w p m h hcode hn hpower hstopping hstage
    refine h.runs_request (t := 0) hcode hn (by decide) ((request_applies hstopping ..).trans (applyRequest_leave hpower hstage)) fun t ht => ?_
    obtain ⟨hstate, hrequest⟩ := leaveP2_running (m.setN 0x2100 3 0xFF) 0
    rw [setN_stage] at hstate
    have hsame : SameBut t.m ((m.setN 0x2100 3 0xFF).leaveP2 0) := ht
    generalize (m.setN 0x2100 3 0xFF).leaveP2 0 = n at *
    exact ⟨hsame.power.trans hstate, (hsame.objN_eq ..).trans hrequest⟩
  case held =>
    intro s w p m h hcode hn hpower hstopping hstage
    refine h.runs_request (t := 0) hcode hn (by decide) ((request_applies hstopping ..).trans (applyRequest_pends hpower hstage)) fun t ht => ⟨?_, ?_⟩
    · exact ht.power.trans ((setN_power ..).trans ((setN_power ..).trans hpower))
    · exact (ht.objN_eq ..).trans (Mach.setN_objN_same ..)
  case running =>
    intro s w p m h hcode hn hpower hstopping
    exact h.runs_request (t := 0) hcode hn (by decide) ((request_applies hstopping ..).trans (applyRequest_run hpower)) fun t ht => ht
  case slate =>
    intro s w p m h hcode hn hpower hstopping hscheduled
    refine h.runs_request (t := 2) hcode hn (by decide) (request_applies hstopping ..) fun t ht => ht.power.trans (applyRequest_slate hpower hscheduled p.c)
  case sleep =>
    intro s w p m h hcode hn hpower hstopping hscheduled
    refine h.runs_request (t := 3) hcode hn (by decide) ((request_applies hstopping ..).trans ((applyRequest_pendSleep hpower p.c).trans
      (pendStop_sleep ((setN_scheduled ..).trans hscheduled) p.c))) fun t ht => ?_
    obtain ⟨hpower', hentry, hstop, hrequest⟩ := enterP3_begins ((m.setN 0x2100 3 0xFF).onPower fun x => { x with stop := none })
    rw [ht.power_]
    exact ⟨ht.power.trans (hpower'.trans (setN_power m 0xFF)), hentry, hstop, (ht.objN_eq ..).trans (hrequest.trans (Mach.setN_objN_same m 0x2100 3 0xFF 0))⟩
  case waits =>
    intro s w p m h hcode hn hstopping
    exact h.runs_request (t := 2) hcode hn (by decide) (request_waits hstopping ..) fun t ht => ht
  case later =>
    intro s w p m h hcode hn hpower hstopping hscheduled
    refine h.runs_request (t := 3) hcode hn (by decide) ((request_applies hstopping ..).trans ((applyRequest_pendSleep hpower p.c).trans
      (pendStop_sleepLater ((setN_scheduled ..).trans hscheduled) p.c))) fun t ht => ⟨ht.power.trans (setN_power m 0xFF), ?_⟩
    rw [ht.power_]
    rfl
  case off =>
    intro s w p m h hcode hn hpower hstopping hscheduled hshut hstep
    refine h.runs_request (t := 4) hcode hn (by decide) ((request_applies hstopping ..).trans (applyRequest_off hpower hscheduled hshut hstep p.c)) fun t ht => ?_
    obtain ⟨hdecided, hstop, hby, hnewest, hlast, -⟩ := decideShutdown_decides (m := m.setN 0x2100 3 0xFF) ((setN_power ..).trans_le hpower) hshut hstep
    rw [ht.power_, ht.boot, ht.jrn]
    exact ⟨hdecided, hstop, hby, hnewest, hlast⟩

end Sys2Proof.Machine

/-! Links and modules of the network ports (R382, R403, R407). -/

namespace Sys2Proof.Machine

section Links
variable {a b m : Mach} {p : Nat}

theorem port_onPort {f : Port → Port} (hp : p < m.net.ports.length) : (m.onPort p f).port p = f (m.port p) :=
  (getD_modify ..).trans (if_pos hp)

/-- An effect that has written nothing goes on with the next. -/
theorem of_then {f : Mach → Eff} {n : Mach} (h : f m = .of n) : (Eff.of m).then_ f = .of n := by
  simp only [Eff.then_, Eff.of, h]
  rfl

/-- While the module runs and nothing is pending, a wake source is only counted. -/
theorem recognise_counts (hsettled : m.settled = true) (hpower : m.power ≤ 2) {source : Nat} (hsource : source ≤ 6) (unit : Nat) (c : Ctx) :
    m.recognise source unit c = .of (m.onPower fun x => { x with wakes := modAt x.wakes source (· + 1) }) := by
  simp only [Mach.settled, Bool.and_eq_true, Bool.not_eq_true', decide_eq_true_eq, Mach.stopping, Bool.or_eq_false_iff] at hsettled
  obtain ⟨⟨⟨hstop, hentry⟩, hshut⟩, -⟩ := hsettled
  unfold Mach.recognise
  rw [if_neg (by omega)]
  extract_lets n
  have hstate : n.power = m.power := rfl
  have hrest : n.power_.stop ≠ some 3 ∧ n.power_.entry.isSome = false ∧ n.boot.shut = 0 := ⟨fun h => ?_, hentry, hshut⟩
  · show _ = Eff.of n
    clear_value n
    rw [if_neg (not_not.2 hrest.2.2), if_neg (show ¬ n.power = 3 by omega), if_neg (show ¬ n.power = 4 by omega),
      if_neg (show ¬ (n.power_.stop = some 3 ∨ n.power_.entry.isSome = true) by simp [hrest]), ite_self]
  · rw [show m.power_.stop = some 3 from h] at hstop
    exact absurd hstop (by decide)

/-- The domains of a port follow its link unless core 1 restarts. -/
theorem linkSeen_keeps (m : Mach) (p : Nat) : KeepsLinks m (m.linkSeen p) := .ite (fun _ => (Follows.refl ..).domainsOfPort p) (fun _ => .refl ..)

theorem Follows.net_of_links (h : KeepsLinks a b) : b.net = a.net := by
  have hview := h.stays.view
  simp only [Mach.linkView, Prod.mk.injEq] at hview
  exact hview.1

theorem linkKeys_port {ix sub : Nat} (hix : 0x4010 ≤ ix ∧ ix < 0x4300) (hsub : sub < 256) : linkKeys (okey ix sub) := by
  simp only [linkKeys, okey]
  omega

/-- An object of a port is another than the power state's. -/
theorem setPort_settled (m : Mach) (p : Nat) {sub : Nat} (hsub : sub < 256) (x : Int) :
    (m.set (0x4010 + p) sub x).settled = m.settled ∧ (m.set (0x4010 + p) sub x).power = m.power := by
  have hpower : (m.set (0x4010 + p) sub x).power = m.power := Mach.set_objN_ne _ _ _ _ _ (by simp only [okey]; omega)
  refine ⟨?_, hpower⟩
  rw [Mach.settled, Mach.settled, Mach.set_objN_ne _ _ _ _ _ (by simp only [okey]; omega)]
  rfl

theorem raise_settled (m : Mach) {code : Nat} (inst : Nat) (d : List (Nat × Nat)) (hcode : 0x1202 * 256 + code / 4096 < 0x2100 * 256) :
    (m.raise code inst d).settled = m.settled := by
  rw [Mach.settled, Mach.settled, Mach.raise_objN _ _ _ _ (by simp only [okey]; omega)]
  rfl

/-- A link that comes up is shown, and told. -/
theorem linkComesUp_shown (hp : p < 5) {c : Ctx} (hfitted : portFitted c.unit.orderX p = true) (hdown : m.objN (0x4010 + p) 2 = 0)
    (hpower : m.power ≤ 2) (hsettled : m.settled = true) :
    ∃ n, linkComesUp p c m = .of n ∧ n.objN (0x4010 + p) 2 = 1 ∧ m.jrn.newest + 1 ≤ n.jrn.newest := by
  have hlisten : m.listening = false := by
    simp only [Mach.settled, Bool.and_eq_true, Bool.not_eq_true', Mach.stopping, Bool.or_eq_false_iff, Option.isSome_eq_false_iff,
      Option.isNone_iff_eq_none] at hsettled
    rw [Mach.listening, hsettled.1.1.2]
    rfl
  have hraised : m.raiseLink c p = (m.setN (0x4010 + p) 2 1).raise 0x5001 p [(1, p)] := by
    rw [Mach.raiseLink, if_neg (by simp [hfitted, hlisten]; omega)]
  obtain ⟨hstill, hstate⟩ := setPort_settled m p (sub := 2) (by decide) (1 : Nat)
  unfold linkComesUp
  extract_lets seen n
  have hkeeps : KeepsLinks ((m.setN (0x4010 + p) 2 1).raise 0x5001 p [(1, p)]) n := hraised ▸ linkSeen_keeps (m.raiseLink c p) p
  have hn : n.settled = true := hkeeps.settled_of_links ((raise_settled _ p _ (by decide)).trans (hstill.trans hsettled))
  have hrun : n.power ≤ 2 := by
    rw [Mach.power, hkeeps.objN (.inl rfl), Mach.raise_objN _ _ _ _ (by decide)]
    exact hstate.trans_le hpower
  have hup : n.objN (0x4010 + p) 2 = 1 := by
    rw [hkeeps.objN (linkKeys_port (by omega) (by decide)), Mach.raise_objN _ _ _ _ (by simp only [okey]; omega), Mach.setN_objN_same]
  have hnewest : m.jrn.newest + 1 ≤ n.jrn.newest := hkeeps.newest.trans' (by rw [Mach.raise_newest]; rfl)
  clear_value n seen
  by_cases hseen : seen = true
  · refine ⟨n.onPower fun x => { x with wakes := modAt x.wakes 0 (· + 1) }, ?_, hup, hnewest⟩
    rw [if_pos hseen, recognise_counts hn hrun (by decide)]
    exact of_then (advanceStops_of_settled (m := n.onPower fun x => { x with wakes := modAt x.wakes 0 (· + 1) }) hn c)
  · refine ⟨n, ?_, hup, hnewest⟩
    rw [if_neg hseen]
    exact of_then (advanceStops_of_settled hn c)

theorem qsfpInserted_shown {k : Nat} {x : Int} {c : Ctx} (hp : p < 4) (hfitted : portFitted c.unit.orderX p = true) (hsettled : m.settled = true) :
    (qsfpInserted p k x c m).obj (0x4010 + p) 0x11 = x ∧ (qsfpInserted p k x c m).settled = true ∧
      (qsfpInserted p k x c m).objN (0x4010 + p) 2 = (if k = 0 then (if m.linkUp p then 1 else 0) else 3) := by
  unfold qsfpInserted
  rw [if_neg (by simp [hfitted]; omega)]
  extract_lets n
  have hshown : n.obj (0x4010 + p) 0x11 = x := Mach.set_obj_same ..
  have hstill : n.settled = true := (setPort_settled m p (by decide) x).1.trans hsettled
  have hup : n.linkUp p = m.linkUp p := by
    rw [Mach.linkUp, Mach.linkUp, Mach.set_objN_ne _ _ _ _ _ (by simp only [okey]; omega)]
  clear_value n
  have hset (y : Nat) : (n.setN (0x4010 + p) 2 y).obj (0x4010 + p) 0x11 = x ∧ (n.setN (0x4010 + p) 2 y).settled = true ∧
      (n.setN (0x4010 + p) 2 y).objN (0x4010 + p) 2 = y :=
    ⟨(Mach.set_obj_ne _ _ _ _ _ (by simp only [okey]; omega)).trans hshown, (setPort_settled n p (by decide) y).1.trans hstill, Mach.setN_objN_same ..⟩
  by_cases hkind : k = 0
  · rw [if_pos hkind, if_pos hkind, ← hup]
    by_cases hlink : n.linkUp p = true
    · rw [if_pos hlink, if_pos hlink]
      exact ⟨hshown, hstill, of_decide_eq_true hlink⟩
    · rw [if_neg hlink, if_neg hlink]
      exact hset 0
  · rw [if_neg hkind, if_neg hkind]
    obtain ⟨hobj, hrest, hstate⟩ := hset 3
    refine ⟨?_, (raise_settled _ _ _ (by decide)).trans hrest, ?_⟩
    · rw [Mach.raise_obj _ _ _ _ (by simp only [okey]; omega), hobj]
    · rw [Mach.raise_objN _ _ _ _ (by simp only [okey]; omega), hstate]

/-- A module that comes is shown, and the domains of its port follow the link. -/
theorem qsfpComes_shown {k : Nat} {x : Int} {c : Ctx} (hp : p < 4) (hfitted : portFitted c.unit.orderX p = true) (hsettled : m.settled = true) :
    ∃ n, qsfpComes p k x c m = .of n ∧ n.obj (0x4010 + p) 0x11 = x ∧
      n.objN (0x4010 + p) 2 = (if k = 0 then (if m.linkUp p then 1 else 0) else 3) := by
  obtain ⟨hshown, hstill, hstate⟩ := qsfpInserted_shown (k := k) (x := x) hp hfitted hsettled
  have hkeeps : KeepsLinks (qsfpInserted p k x c m) ((qsfpInserted p k x c m).linkSeen p) := linkSeen_keeps _ p
  exact ⟨_, advanceStops_of_settled (hkeeps.settled_of_links hstill) c,
    (hkeeps.stays.objects _ (linkKeys_port (by omega) (by decide))).trans hshown, (hkeeps.objN (linkKeys_port (by omega) (by decide))).trans hstate⟩

/-- A link that goes down is shown and told, and its queues are empty. -/
theorem dropLink_shown (hup : m.linkUp p = true) (hp : p < 5) (st : Nat) : (m.dropLink p st).m.objN (0x4010 + p) 2 = st ∧
    m.jrn.newest + 1 ≤ (m.dropLink p st).m.jrn.newest ∧ (m.settled = true → (m.dropLink p st).m.settled = true) ∧
    (p < m.net.ports.length → ((m.dropLink p st).m.port p).queues = [[], [], [], []] ∧ ((m.dropLink p st).m.port p).sending = none) := by
  obtain ⟨hstill, -⟩ := setPort_settled m p (sub := 2) (by decide) st
  rw [Mach.dropLink, if_neg (by simp [hup])]
  generalize hn : (m.setN (0x4010 + p) 2 st).raise 0x5002 p [(1, p)] = n
  have hstate : n.objN (0x4010 + p) 2 = st := by
    rw [← hn, Mach.raise_objN _ _ _ _ (by simp only [okey]; omega), Mach.setN_objN_same]
  have hnewest : n.jrn.newest = m.jrn.newest + 1 := by rw [← hn, Mach.raise_newest]; rfl
  have hsettled : n.settled = m.settled := by rw [← hn, raise_settled _ _ _ (by decide)]; exact hstill
  have hports : n.net = m.net := by rw [← hn]; rfl
  clear hn
  have hdrains := dropQueues_drains n p
  refine ⟨(hdrains.objN (.inr (.inl ?_))).trans hstate, hdrains.newest.trans' hnewest.ge, fun h => hdrains.settled_of_drains (hsettled.trans h), fun h => ?_⟩
  · simp only [okey]
    omega
  · have hport := hdrains.port p
    rw [port_onPort (hports ▸ h)] at hport
    exact ⟨congrArg Port.queues hport, congrArg Port.sending hport⟩

/-- The queues of a port whose link goes down are empty. -/
theorem linkGoesDown_shown (hp : p < 5) (hup : m.linkUp p = true) (hsettled : m.settled = true) (hports : p < m.net.ports.length) (c : Ctx) :
    (linkGoesDown p c m).m.objN (0x4010 + p) 2 = 0 ∧ ((linkGoesDown p c m).m.port p).queues = [[], [], [], []] ∧
      ((linkGoesDown p c m).m.port p).sending = none ∧ m.jrn.newest + 1 ≤ (linkGoesDown p c m).m.jrn.newest := by
  obtain ⟨hstate, hnewest, hstill, hempty⟩ := dropLink_shown hup hp 0
  rw [linkGoesDown, if_neg (by simp [hup]; omega), then_m, Eff.on_m]
  generalize (m.dropLink p 0).m = n at *
  have hkeeps : KeepsLinks n (n.linkSeen p) := linkSeen_keeps n p
  obtain ⟨hqueues, hsending⟩ := hempty hports
  rw [advanceStops_of_settled (hkeeps.settled_of_links (hstill hsettled)), Eff.of, Mach.port, hkeeps.net_of_links]
  exact ⟨(hkeeps.objN (linkKeys_port (by omega) (by decide))).trans hstate, hqueues, hsending, hnewest.trans hkeeps.newest⟩

/-- The state of a link that is down changes alone. -/
theorem dropLink_state (hp : p < 5) (st : Nat) : (m.dropLink p st).m.objN (0x4010 + p) 2 = st ∧ m.jrn.newest ≤ (m.dropLink p st).m.jrn.newest ∧
    (m.settled = true → (m.dropLink p st).m.settled = true) := by
  by_cases hup : m.linkUp p = true
  · obtain ⟨hstate, hnewest, hstill, -⟩ := dropLink_shown hup hp st
    exact ⟨hstate, (Nat.le_succ _).trans hnewest, hstill⟩
  · obtain ⟨hstill, -⟩ := setPort_settled m p (sub := 2) (by decide) st
    rw [Mach.dropLink, if_pos (by simp [hup])]
    exact ⟨Mach.setN_objN_same .., Nat.le_refl _, hstill.trans⟩

/-- A module that goes is shown and told. -/
theorem qsfpGoes_shown {c : Ctx} (hp : p < 4) (hfitted : portFitted c.unit.orderX p = true) (hthere : m.objN (0x4010 + p) 2 ≠ 2)
    (hsettled : m.settled = true) : (qsfpGoes p c m).m.objN (0x4010 + p) 2 = 2 ∧ m.jrn.newest + 1 ≤ (qsfpGoes p c m).m.jrn.newest := by
  obtain ⟨hstate, hnewest, hstill⟩ := dropLink_state (m := m) (p := p) (by omega) 2
  rw [qsfpGoes, qsfpRemoved, if_neg (by simp [hfitted, hthere]; omega), then_m, Eff.on_m, Eff.on_m]
  generalize (m.dropLink p 2).m = n at *
  have hraised : (n.raise 0x5003 p [(1, p), (1, 0)]).jrn.newest = n.jrn.newest + 1 := Mach.raise_newest ..
  have hshown : (n.raise 0x5003 p [(1, p), (1, 0)]).objN (0x4010 + p) 2 = 2 := by
    rw [Mach.raise_objN _ _ _ _ (by simp only [okey]; omega), hstate]
  have hquiet : (n.raise 0x5003 p [(1, p), (1, 0)]).settled = true := (raise_settled _ _ _ (by decide)).trans (hstill hsettled)
  generalize n.raise 0x5003 p [(1, p), (1, 0)] = r at *
  have hkeeps : KeepsLinks r (r.linkSeen p) := linkSeen_keeps r p
  rw [advanceStops_of_settled (hkeeps.settled_of_links hquiet)]
  exact ⟨(hkeeps.objN (linkKeys_port (by omega) (by decide))).trans hshown, Nat.le_trans (by omega) hkeeps.newest⟩

end Links

end Sys2Proof.Machine

/-! Frames received (R382, R384, R385, R387, R392, R393). -/

namespace Sys2Proof.Machine

/-! ### Where a frame goes (R385) -/

/-- The path of a frame depends on the slots, the interface's addresses and the groups. -/
theorem classify_congr {a b : Mach} {c : Ctx} {p : Nat} {x : Parsed} (hslot : ∀ sub s, sub = 1 ∨ sub = 2 ∨ sub = 4 → b.obj 0x4110 sub s = a.obj 0x4110 sub s)
    (haddress : b.objN (0x4010 + p) 3 = a.objN (0x4010 + p) 3) (hstrs : b.strs = a.strs) : b.classify c p x = a.classify c p x := by
  have hstr (ix sub bank : Nat) : b.str ix sub bank = a.str ix sub bank := by rw [Mach.str, Mach.str, hstrs]
  have hon (s : Nat) : b.objB 0x4110 1 s = a.objB 0x4110 1 s := by rw [Mach.objB, Mach.objB, hslot 1 s (.inl rfl)]
  have hport (s : Nat) : b.objN 0x4110 2 s = a.objN 0x4110 2 s := congrArg Int.toNat (hslot 2 s (.inr (.inl rfl)))
  have hudp (s : Nat) : b.objN 0x4110 4 s = a.objN 0x4110 4 s := congrArg Int.toNat (hslot 4 s (.inr (.inr rfl)))
  have hgroups : b.groupsOn c p = a.groupsOn c p := by simp only [Mach.groupsOn, Mach.slotPorts, hon, hport, hstr]
  have htakes (d : Nat) : b.takesMac c p d = a.takesMac c p d := by simp only [Mach.takesMac, Mach.askMacs, hgroups, hstr]
  have hfor (y : Bytes) (n : Nat) : b.slotFor p y n = a.slotFor p y n := by simp only [Mach.slotFor, hon, hport, hudp, hstr]
  have hown (y : Bytes) : b.ownAddress c p y = a.ownAddress c p y := by simp only [Mach.ownAddress, haddress, hstr]
  simp only [Mach.classify, htakes, hfor, hown]

/-- A frame that is taken is counted, and shows the bytes that wait. -/
def Mach.frameTaken (m : Mach) (f : EthFrame) : Mach := (m.bump (0x4010 + f.p) 0x0A).setN 0x4100 3 (min f.held 33554432)

section Frames
variable {m : Mach} {f : EthFrame} {c : Ctx}

theorem frameTaken_obj (m : Mach) (f : EthFrame) {ix sub bank : Nat} (hcount : okey ix sub bank ≠ okey (0x4010 + f.p) 0x0A)
    (hheld : okey ix sub bank ≠ okey 0x4100 3) : (m.frameTaken f).obj ix sub bank = m.obj ix sub bank := by
  rw [Mach.frameTaken, Mach.setN_obj_ne _ _ _ _ _ hheld, Mach.bump_obj_ne _ _ _ _ _ hcount]

theorem frameTaken_objN (m : Mach) (f : EthFrame) {ix sub bank : Nat} (hcount : okey ix sub bank ≠ okey (0x4010 + f.p) 0x0A)
    (hheld : okey ix sub bank ≠ okey 0x4100 3) : (m.frameTaken f).objN ix sub bank = m.objN ix sub bank :=
  congrArg Int.toNat (frameTaken_obj m f hcount hheld)

theorem frameTaken_rest (m : Mach) (f : EthFrame) : (m.frameTaken f).net = m.net ∧ (m.frameTaken f).strs = m.strs ∧ (m.frameTaken f).scene = m.scene :=
  ⟨rfl, rfl, rfl⟩

theorem frameTaken_classify (x : Parsed) (hp : f.p < 5) : (m.frameTaken f).classify c f.p x = m.classify c f.p x := by
  obtain ⟨-, hstrs, -⟩ := frameTaken_rest m f
  refine classify_congr (fun sub s hsub => frameTaken_obj m f ?_ ?_) (frameTaken_objN m f ?_ ?_) hstrs
  all_goals simp only [okey]
  all_goals omega

/-- The objects that count what a port receives hold 64 bits. -/
theorem objMax_port {p sub : Nat} (hp : p < 5) (hsub : sub ∈ [0x0A, 0x0B, 0x0C, 0x0F, 0x10]) : objMax (0x4010 + p) sub = 2 ^ 64 - 1 := by
  have hall : ∀ p < 5, ∀ sub ∈ [0x0A, 0x0B, 0x0C, 0x0F, 0x10], objMax (0x4010 + p) sub = 2 ^ 64 - 1 := by decide +kernel
  exact hall p hp sub hsub

/-- Whether a frame carries the tag that its port asks for (R384). -/
def Mach.tagFits (m : Mach) (f : EthFrame) : Bool :=
  if m.objN (0x4010 + f.p) 8 = 1 then decide ((parseFrame f.data).vlan = some (m.objN (0x4010 + f.p) 9))
  else decide ((parseFrame f.data).vlan = none ∨ (parseFrame f.data).vlan = some 0)

/-- The bytes of a frame without its tag. -/
def sansTag (f : EthFrame) : Bytes := if (parseFrame f.data).vlan.isSome then f.data.take 12 ++ f.data.drop 16 else f.data

/-- A frame that is taken goes along its path. -/
def Mach.alongPath (m : Mach) (c : Ctx) (f : EthFrame) : Eff :=
  let x := parseFrame f.data
  let stamp := m.stampIn c.unit.orderX f.p f.stamp
  match m.classify c f.p x with
  | .drop => .of (m.bump (0x4010 + f.p) 0x0C)
  | .ptp => m.toRing f.p 1 0xFFFF x.vlan.isNone stamp (sansTag f)
  | .slot s =>
    let (m, go) := m.meterFrame s (f.data.length + 4)
    if go then m.sceneDatagram f.p s x.payload else .of m
  | .rtcp s => m.controlPath f.p 2 s x.vlan.isNone stamp (sansTag f)
  | .koa => m.controlPath f.p 3 0xFFFF x.vlan.isNone stamp (sansTag f)
  | .control =>
    let e := m.controlPath f.p 4 0xFFFF x.vlan.isNone stamp (sansTag f)
    if e.writes = [] ∨ !m.coreUp 0 then e else e.on (fun m => each (m.controlAnswers c f.p (sansTag f)) m Mach.emit)

section Received
variable (hp : f.p < 5) (hfitted : portFitted c.unit.orderX f.p = true) (hup : m.linkUp f.p = true) (hpower : m.power ≤ 2)
include hp hfitted hup hpower

/-- A frame with a bad check or of a bad length is counted as an error. -/
theorem frameReceived_error (hbad : f.fcsOk = false ∨ largestFrame f.p < f.data.length + 4) :
    frameReceived f c m = .of ((if m.armedAt 22 f.p then m.acted else m).bump (0x4010 + f.p) 0x0B) := by
  have hskip : ¬ (5 ≤ f.p ∨ !portFitted c.unit.orderX f.p ∨ !m.linkUp f.p ∨ 2 < m.power) := by simp [hfitted, hup]; omega
  rw [frameReceived, if_neg hskip]
  exact if_pos (by rcases hbad with h | h <;> simp [h])

/-- A sound frame is counted, and dropped or sent along its path. -/
theorem frameReceived_sound (harmed : m.armedAt 22 f.p = false) (hfcs : f.fcsOk = true) (hlen : f.data.length + 4 ≤ largestFrame f.p) :
    frameReceived f c m = if pauseFrame f.data then .of ((m.frameTaken f).bump (0x4010 + f.p) 0x10)
      else if m.tagFits f then (m.frameTaken f).alongPath c f else .of ((m.frameTaken f).bump (0x4010 + f.p) 0x0C) := by
  have hskip : ¬ (5 ≤ f.p ∨ !portFitted c.unit.orderX f.p ∨ !m.linkUp f.p ∨ 2 < m.power) := by simp [hfitted, hup]; omega
  rw [frameReceived, if_neg hskip]
  extract_lets broken n len n1 x stamp tags stripped
  have hbroken : broken = false := harmed
  have hn : n = m := if_neg (by simp [hbroken])
  have hn1 : n1 = m.frameTaken f := by rw [← hn]; rfl
  have htags : decide tags = m.tagFits f := by
    have h8 : n1.objN (0x4010 + f.p) 8 = m.objN (0x4010 + f.p) 8 := by rw [hn1, frameTaken_objN] <;> simp only [okey] <;> omega
    have h9 : n1.objN (0x4010 + f.p) 9 = m.objN (0x4010 + f.p) 9 := by rw [hn1, frameTaken_objN] <;> simp only [okey] <;> omega
    unfold tags Mach.tagFits
    rw [h8, h9]
    split <;> rfl
  rw [if_neg (by simp [hfcs, hbroken]; exact hlen)]
  by_cases hpause : pauseFrame f.data = true
  · rw [if_pos hpause, if_pos hpause, hn1]
  rw [if_neg hpause, if_neg hpause, htags]
  by_cases hfit : m.tagFits f = true
  · rw [if_neg (by simp [hfit]), if_pos hfit, ← hn1]
    rfl
  · rw [if_pos (by simp [hfit]), if_neg hfit, hn1]

end Received

/-! ### What becomes of it (R382, R384, R387, R393) -/

/-- One more at a port, on a block whose counts of the port are as before. -/
theorem port_counts {a n : Mach} {p sub : Nat} (hp : p < 5) (hsub : sub ∈ [0x0A, 0x0B, 0x0C, 0x0F, 0x10]) (hsame : n.objN (0x4010 + p) sub = a.objN (0x4010 + p) sub)
    (hroom : a.objN (0x4010 + p) sub < 2 ^ 64 - 1) : (n.bump (0x4010 + p) sub).objN (0x4010 + p) sub = a.objN (0x4010 + p) sub + 1 := by
  rw [Mach.bump_objN_same _ _ _ _ _ (by rw [hsame, objMax_port hp hsub]; exact hroom), hsame]

/-- An injection that acts leaves the ports. -/
theorem acted_port (m : Mach) {p sub : Nat} (hp : p < 5) (hsub : sub < 256) : m.acted.objN (0x4010 + p) sub = m.objN (0x4010 + p) sub ∧ m.acted.net = m.net := by
  have h : Stays Mach.net drainKeys m m.acted := .strikes (fun _ _ _ _ _ _ _ _ => rfl) drainKeys_unstored (.refl ..)
  exact ⟨h.objN_of_key (.inr (.inl (by simp only [okey]; omega))), h.view⟩

theorem frameTaken_port (m : Mach) (f : EthFrame) {sub : Nat} (hp : f.p < 5) (hsub : sub < 256 ∧ sub ≠ 0x0A) :
    (m.frameTaken f).objN (0x4010 + f.p) sub = m.objN (0x4010 + f.p) sub := by
  rw [frameTaken_objN] <;> simp only [okey] <;> omega

/-- What the receive ring writes of a frame: its bytes, and its descriptor. -/
def Mach.ringWrites (m : Mach) (p path slot : Nat) (untagged : Bool) (stamp b : Nat) (data : Bytes) : List MemWrite :=
  let a := descriptorAt (m.port p).rxBase (m.port p).rxConsumer
  [⟨b, data⟩, ⟨a + 8, leBytes 2 data.length⟩, ⟨a + 12, leBytes 2 slot ++ [0, 0] ++ (if path = 1 then timeLE stamp else List.replicate 14 0)⟩,
    ⟨a + 10, leBytes 1 (2 * path + bit (!untagged)) ++ [0]⟩]

/-- A frame for the receive ring goes to its next buffer, with its descriptor. -/
theorem toRing_next {p path slot stamp : Nat} {untagged : Bool} {data : Bytes} {b : Nat} {l : List Nat} (hbuffers : (m.port p).rxBuffers = b :: l) :
    m.toRing p path slot untagged stamp data = (m.onPort p fun x => { x with rxBuffers := l, rxConsumer := (x.rxConsumer + 1) % 512 }).storeAll
      (m.ringWrites p path slot untagged stamp b data) := by
  rw [Mach.toRing, hbuffers]
  rfl

/-- The alarm of a slot's red drops leaves the objects but the counts of events, and the scene. -/
theorem judgeReds_keeps (m : Mach) (slot : Nat) : Stays Mach.scene (· ≠ okey 0x1202 5) m (m.judgeReds slot) :=
  .ite (fun _ => .raiseRate (.refl ..) (fun _ hk => hk) fun _ _ _ _ _ => rfl) (fun _ => .refl ..)

theorem redDrop_keeps (m : Mach) (slot : Nat) : Stays Mach.scene (· ≠ okey 0x1202 5) m (m.redDrop slot) := by
  have hjudged (n : Mach) (hscene : n.scene = m.scene) (hod : n.od = m.od) : Stays Mach.scene (· ≠ okey 0x1202 5) m (n.judgeReds slot) :=
    (Stays.keep (.refl ..) hscene hod).trans (judgeReds_keeps n slot)
  exact hjudged _ rfl rfl

/-- One more red frame of a slot. -/
theorem redFrame_counts {x : Meter} {slot : Nat} (hroom : m.objN 0x4112 3 slot < 2 ^ 64 - 1) :
    ((m.onMeter slot fun _ => x).bump 0x4112 3 1 slot).objN 0x4112 3 slot = m.objN 0x4112 3 slot + 1 := by
  have hmax : objMax 0x4112 3 = 2 ^ 64 - 1 := by decide +kernel
  have hsame : (m.onMeter slot fun _ => x).objN 0x4112 3 slot = m.objN 0x4112 3 slot := rfl
  rw [Mach.bump_objN_same _ _ _ _ _ (by rw [hsame, hmax]; exact hroom), hsame]

/-- A red frame of a slot is counted, and goes no further. -/
theorem meterFrame_red {slot len : Nat} (hon : (m.net.meters.getD slot {}).on = true) (hred : ((m.net.meters.getD slot {}).colour len).1 = 2)
    (hroom : m.objN 0x4112 3 slot < 2 ^ 64 - 1) : ∃ n, m.meterFrame slot len = (n, false) ∧
      n.objN 0x4112 3 slot = m.objN 0x4112 3 slot + 1 ∧ n.scene = m.scene := by
  obtain ⟨x, hx⟩ : ∃ x, (m.net.meters.getD slot {}).colour len = (2, x) := ⟨_, Prod.ext hred rfl⟩
  have hcount := redFrame_counts (x := x) hroom
  have hscene : ((m.onMeter slot fun _ => x).bump 0x4112 3 1 slot).scene = m.scene := Mach.bump_scene ..
  have hmeter : m.meterFrame slot len = (((m.onMeter slot fun _ => x).bump 0x4112 3 1 slot).redDrop slot, false) := by
    unfold Mach.meterFrame
    simp only [hon, if_true, hx]
  generalize (m.onMeter slot fun _ => x).bump 0x4112 3 1 slot = n at *
  have hkeeps := redDrop_keeps n slot
  refine ⟨n.redDrop slot, hmeter, ?_, hkeeps.view.trans hscene⟩
  refine Eq.trans (congrArg Int.toNat (hkeeps.objects (okey 0x4112 3 slot) ?_)) hcount
  simp only [okey]
  omega

section Outcomes
variable (hp : f.p < 5) (hfitted : portFitted c.unit.orderX f.p = true) (hup : m.linkUp f.p = true) (hpower : m.power ≤ 2)
include hp hfitted hup hpower

/-- A frame in error is counted, whatever injection broke it. -/
theorem frameReceived_counts (hbad : f.fcsOk = false ∨ largestFrame f.p < f.data.length + 4) (hroom : m.objN (0x4010 + f.p) 0x0B < 2 ^ 64 - 1) :
    ∃ n, frameReceived f c m = .of n ∧ n.objN (0x4010 + f.p) 0x0B = m.objN (0x4010 + f.p) 0x0B + 1 ∧ n.net = m.net := by
  refine ⟨_, frameReceived_error hp hfitted hup hpower hbad, ?_, ?_⟩
  · refine port_counts hp (by decide) ?_ hroom
    exact iteInduction (motive := fun n : Mach => n.objN (0x4010 + f.p) 0x0B = m.objN (0x4010 + f.p) 0x0B) (fun _ => (acted_port m hp (by decide)).1) (fun _ => rfl)
  · exact iteInduction (motive := fun n : Mach => n.net = m.net) (fun _ => (acted_port m hp (sub := 0) (by decide)).2) (fun _ => rfl)

variable (harmed : m.armedAt 22 f.p = false) (hfcs : f.fcsOk = true) (hlen : f.data.length + 4 ≤ largestFrame f.p)
include harmed hfcs hlen

/-- A PAUSE frame is counted and dropped. -/
theorem frameReceived_pause (hpause : pauseFrame f.data = true) (hroom : m.objN (0x4010 + f.p) 0x0A < 2 ^ 64 - 1)
    (hroom' : m.objN (0x4010 + f.p) 0x10 < 2 ^ 64 - 1) : ∃ n, frameReceived f c m = .of n ∧
    n.objN (0x4010 + f.p) 0x0A = m.objN (0x4010 + f.p) 0x0A + 1 ∧ n.objN (0x4010 + f.p) 0x10 = m.objN (0x4010 + f.p) 0x10 + 1 ∧ n.net = m.net := by
  refine ⟨_, (frameReceived_sound hp hfitted hup hpower harmed hfcs hlen).trans (if_pos hpause), ?_, ?_, rfl⟩
  · rw [Mach.bump_objN_ne _ _ _ _ _ (by simp only [okey]; omega), Mach.frameTaken, Mach.setN_objN_ne _ _ _ _ _ (by simp only [okey]; omega)]
    exact port_counts hp (by decide) rfl hroom
  · exact port_counts hp (by decide) (frameTaken_port m f hp (by decide)) hroom'

/-- A frame with a wrong tag, and one that no path takes, are counted and dropped. -/
theorem frameReceived_drop (hpause : pauseFrame f.data = false) (hdrop : m.tagFits f = false ∨ m.classify c f.p (parseFrame f.data) = .drop)
    (hroom : m.objN (0x4010 + f.p) 0x0C < 2 ^ 64 - 1) : ∃ n, frameReceived f c m = .of n ∧
    n.objN (0x4010 + f.p) 0x0C = m.objN (0x4010 + f.p) 0x0C + 1 ∧ n.net = m.net := by
  refine ⟨(m.frameTaken f).bump (0x4010 + f.p) 0x0C, ?_, port_counts hp (by decide) (frameTaken_port m f hp (by decide)) hroom, rfl⟩
  rw [frameReceived_sound hp hfitted hup hpower harmed hfcs hlen, if_neg (by simp [hpause])]
  by_cases hfits : m.tagFits f = true
  · have hpath : (m.frameTaken f).classify c f.p (parseFrame f.data) = .drop := (frameTaken_classify _ hp).trans (hdrop.resolve_left (by simp [hfits]))
    rw [if_pos hfits, Mach.alongPath]
    simp only [hpath]
  · rw [if_neg hfits]

/-- A PTP frame goes to the next receive buffer. -/
theorem frameReceived_ptp {b : Nat} {l : List Nat} (hpause : pauseFrame f.data = false) (hfits : m.tagFits f = true)
    (hptp : m.classify c f.p (parseFrame f.data) = .ptp) (hbuffers : (m.port f.p).rxBuffers = b :: l) : frameReceived f c m =
    ((m.frameTaken f).onPort f.p fun x => { x with rxBuffers := l, rxConsumer := (x.rxConsumer + 1) % 512 }).storeAll
      (m.ringWrites f.p 1 0xFFFF (parseFrame f.data).vlan.isNone (m.stampIn c.unit.orderX f.p f.stamp) b (sansTag f)) := by
  have hstamp : (m.frameTaken f).stampIn c.unit.orderX f.p f.stamp = m.stampIn c.unit.orderX f.p f.stamp := by
    rw [Mach.stampIn, Mach.stampIn, Mach.latency, Mach.latency, frameTaken_obj] <;> simp only [okey] <;> omega
  rw [frameReceived_sound hp hfitted hup hpower harmed hfcs hlen, if_neg (by simp [hpause]), if_pos hfits, Mach.alongPath]
  simp only [(frameTaken_classify _ hp).trans hptp, hstamp]
  exact toRing_next (m := m.frameTaken f) hbuffers

/-- A red frame of a slot is counted and dropped. -/
theorem frameReceived_red {k : Nat} (hpause : pauseFrame f.data = false) (hfits : m.tagFits f = true)
    (hslot : m.classify c f.p (parseFrame f.data) = .slot k) (hon : (m.net.meters.getD k {}).on = true)
    (hred : ((m.net.meters.getD k {}).colour (f.data.length + 4)).1 = 2) (hroom : m.objN 0x4112 3 k < 2 ^ 64 - 1) :
    ∃ n, frameReceived f c m = .of n ∧ n.objN 0x4112 3 k = m.objN 0x4112 3 k + 1 ∧ n.scene = m.scene := by
  have hsame : (m.frameTaken f).objN 0x4112 3 k = m.objN 0x4112 3 k := by rw [frameTaken_objN] <;> simp only [okey] <;> omega
  obtain ⟨n, hmeter, hcount, hscene⟩ := meterFrame_red (m := m.frameTaken f) hon hred (by rw [hsame]; exact hroom)
  refine ⟨n, ?_, hcount.trans (by rw [hsame]), hscene⟩
  rw [frameReceived_sound hp hfitted hup hpower harmed hfcs hlen, if_neg (by simp [hpause]), if_pos hfits, Mach.alongPath]
  simp only [(frameTaken_classify _ hp).trans hslot, hmeter]
  rfl

end Outcomes

end Frames

end Sys2Proof.Machine

/-! Slots, their meters and the refill (R116, R391 to R394, R397). -/

namespace Sys2Proof.Machine

/-! ### Slots (R391) -/

section Slots
variable {s : State} {w : WriteReq} {p : Put} {m : Mach} {slot : Nat}

/-- A write of 0x4110:01 enables or disables the slot. -/
theorem Reaches.run_slotEnable (h : Reaches s 0x4110 1 w p m) : p.run m = act (m.enableSlot p.c (p.s.bank 0x4110) (p.v != 0)) := by
  obtain ⟨-, hix, hsub, -, -⟩ := h.put
  simp [Put.run, Put.sessions, Put.supply, Put.times, Put.ports, Put.slot, hix, hsub]

/-- The membership messages of a slot. -/
def Mach.joining (m : Mach) (c : Ctx) (slot : Nat) (on : Bool) : Mach :=
  let m := m.setB 0x4110 1 on slot
  if multicast (m.str 0x4110 3 slot) then each (m.slotPorts c slot) m (fun n p => n.emit (.membership p (m.str 0x4110 3 slot) on)) else m

theorem joining_eq (m : Mach) (c : Ctx) (slot : Nat) (on : Bool) : ∃ out, m.joining c slot on = { m.setB 0x4110 1 on slot with out := out } := by
  unfold Mach.joining
  extract_lets n
  refine iteInduction (motive := fun k : Mach => ∃ out, k = { n with out := out }) (fun _ => ?_) (fun _ => ⟨n.out, rfl⟩)
  refine List.foldlRecOn (n.slotPorts c slot) _ (motive := fun k : Mach => ∃ out, k = { n with out := out }) ⟨n.out, rfl⟩ fun k hk q _ => ?_
  obtain ⟨out, rfl⟩ := hk
  exact ⟨_, rfl⟩

theorem enableSlot_changes {on : Bool} (h : m.objB 0x4110 1 slot ≠ on) (c : Ctx) :
    m.enableSlot c slot on = if on then (m.joining c slot on).restartMeter slot else (m.joining c slot on).leave slot 3 :=
  if_neg fun heq => h heq.symm

theorem enableSlot_same {on : Bool} (h : m.objB 0x4110 1 slot = on) (c : Ctx) : m.enableSlot c slot on = m := if_pos h.symm

theorem joining_objB (m : Mach) (c : Ctx) (slot : Nat) (on : Bool) : (m.joining c slot on).objB 0x4110 1 slot = on := by
  obtain ⟨out, hout⟩ := joining_eq m c slot on
  rw [hout]
  exact Mach.setB_objB_same ..

theorem joining_net (m : Mach) (c : Ctx) (slot : Nat) (on : Bool) : (m.joining c slot on).net = m.net := by
  obtain ⟨out, hout⟩ := joining_eq m c slot on
  rw [hout]
  exact Mach.setB_net m 0x4110 1 on slot

/-- A slot that is enabled restarts its meter. -/
theorem enableSlot_on (h : m.objB 0x4110 1 slot = false) (hslot : slot < m.net.meters.length) (c : Ctx) :
    (m.enableSlot c slot true).objB 0x4110 1 slot = true ∧ ((m.enableSlot c slot true).net.meters.getD slot {}).restart = true := by
  rw [enableSlot_changes (by simp [h]), if_pos rfl]
  have hshown := joining_objB m c slot true
  have hnet := joining_net m c slot true
  generalize m.joining c slot true = n at *
  exact ⟨hshown, congrArg Meter.restart ((getD_modify ..).trans (if_pos (hnet ▸ hslot)))⟩

/-- The source of a slot leaves, and no other object of the slot than its state changes. -/
theorem leave_objB (m : Mach) (slot reason : Nat) : (m.leave slot reason).source? slot = none ∧
    (m.leave slot reason).objB 0x4110 1 slot = m.objB 0x4110 1 slot := by
  cases h : m.source? slot with
  | none =>
    have hsame : m.leave slot reason = m := by rw [Mach.leave, h]
    rw [hsame]
    exact ⟨h, rfl⟩
  | some x =>
    obtain ⟨ssrc, l⟩ := x
    obtain ⟨hleft, -⟩ := leave_left h reason
    have hsheds : Sheds (m.unjoined slot ssrc reason) (m.leave slot reason) := by
      rw [leave_of_source h]
      exact .each (fun n k hk => .abandonWhere n (List.mem_range.mp hk) _ 5) _
    have hraised := ObjectsBut.raiseRate (l := [(0x1202, 0x1202)]) ((m.setSource slot none).setN 0x4110 6 0 slot) 10 (code := 0x7002) slot
      [(2, slot), (4, ssrc), (1, reason)] (by decide) (by decide)
    have hobj : (m.leave slot reason).obj 0x4110 1 slot = m.obj 0x4110 1 slot :=
      (hsheds.objects.obj_bank (by decide) (by decide)).trans ((hraised.obj_bank (by decide) (by decide)).trans
        (Mach.setN_obj_ne _ _ _ _ _ (by simp only [okey]; omega)))
    exact ⟨hleft, by rw [Mach.objB, Mach.objB, hobj]⟩

/-- A slot that is disabled loses its source. -/
theorem enableSlot_off (h : m.objB 0x4110 1 slot = true) (c : Ctx) :
    (m.enableSlot c slot false).objB 0x4110 1 slot = false ∧ (m.enableSlot c slot false).source? slot = none := by
  rw [enableSlot_changes (by simp [h]), if_neg (by decide)]
  obtain ⟨hleft, hstate⟩ := leave_objB (m.joining c slot false) slot 3
  exact ⟨hstate.trans (joining_objB ..), hleft⟩

end Slots

/-! ### A free port (R396, R397) -/

section Ports
variable {m : Mach} {c : Ctx} {p : Nat}

/-- Without a preview frame to send nothing fills the class 3 queue. -/
theorem feedStream_none (h : m.nextStream p = none) (n : Nat) : Mach.feedStream c p n m = m := by
  cases n with
  | zero => rfl
  | succ n =>
    rw [Mach.feedStream, h]
    split <;> rfl

/-- The head frame of a class leaves its queue. -/
def Mach.sendHead (m : Mach) (c : Ctx) (p k : Nat) (f : TxFrame) (rest : List TxFrame) : Mach :=
  let t := m.transmitStamp c.unit.orderX p
  let charge (s : Shaper) : Shaper := if s.on then { s with tokens := s.tokens - m.charged p k f.data.length * 2 ^ 32 } else s
  let n := m.onPort p fun x => ({ x with queues := setAt x.queues k rest, sending := some (f, t), shapers := modAt x.shapers k charge } : Port).letIn
  n.emit (.frame p k (n.tagFrame p k (if f.oneStep then insertTime t f.offset f.data else f.data)))

/-- What a port does without a preview frame to send. -/
theorem startNext_quiet (h : m.nextStream p = none) : m.startNext c p = (if (m.port p).sending.isSome ∨ !m.linkUp p then m
    else match [0, 1, 2, 3].find? (fun k => m.classEligible p k) with
      | none => m
      | some k => match (m.port p).queues.getD k [] with
        | [] => m
        | f :: rest => m.sendHead c p k f rest) := by
  rw [Mach.startNext, feedStream_none h]
  rfl

/-- A port that sends, or whose link is down, starts nothing. -/
theorem startNext_busy (h : m.nextStream p = none) (hbusy : (m.port p).sending.isSome = true ∨ m.linkUp p = false) : m.startNext c p = m := by
  rw [startNext_quiet h, if_pos (by simpa using hbusy)]

/-- A port whose queues are empty starts nothing. -/
theorem startNext_empty (h : m.nextStream p = none) (hempty : ∀ k, (m.port p).queues.getD k [] = []) : m.startNext c p = m := by
  have hnone : [0, 1, 2, 3].find? (fun k => m.classEligible p k) = none :=
    List.find?_eq_none.2 fun k _ => by
      rw [Mach.classEligible, hempty k]
      simp
  rw [startNext_quiet h, hnone]
  exact ite_self m

/-- A free port starts the head frame of the class that is found. -/
theorem startNext_sends {k : Nat} {f : TxFrame} {l : List TxFrame} (h : m.nextStream p = none) (hfree : (m.port p).sending = none)
    (hup : m.linkUp p = true) (hfound : [0, 1, 2, 3].find? (fun k => m.classEligible p k) = some k) (hhead : (m.port p).queues.getD k [] = f :: l) :
    m.startNext c p = m.sendHead c p k f l := by
  rw [startNext_quiet h, if_neg (by simp [hfree, hup]), hfound]
  simp only [hhead]

/-- With no frame held none enters a queue. -/
theorem letIn_of_none {x : Port} (h : x.held = []) : x.letIn = x := by
  obtain ⟨⟩ := x
  subst h
  rfl

theorem sendHead_port {k : Nat} {f : TxFrame} {l : List TxFrame} (hp : p < m.net.ports.length) (hheld : (m.port p).held = [])
    (hhead : (m.port p).queues.getD k [] = f :: l) : (((m.sendHead c p k f l).port p).sending.map Prod.fst = some f) ∧
    ((m.sendHead c p k f l).port p).queues.getD k [] = l ∧ (m.sendHead c p k f l).od = m.od := by
  have hk : k < (m.port p).queues.length := by
    by_contra hlong
    rw [List.getD_eq_default _ _ (by omega)] at hhead
    exact absurd hhead (by simp)
  unfold Mach.sendHead
  extract_lets t charge n
  have hport : n.port p = { m.port p with queues := setAt (m.port p).queues k l, sending := some (f, t), shapers := modAt (m.port p).shapers k charge } :=
    (port_onPort hp).trans (letIn_of_none hheld)
  have hsame : (n.emit (.frame p k (n.tagFrame p k (if f.oneStep then insertTime t f.offset f.data else f.data)))).port p = n.port p := rfl
  rw [hsame, hport]
  refine ⟨rfl, ?_, rfl⟩
  show ((m.port p).queues.set k l).getD k [] = l
  simp [hk]

/-- What a port sends leaves all but the ports. -/
theorem startNext_ports (h : m.nextStream p = none) : ∃ ports out, m.startNext c p = { m with net := { m.net with ports := ports }, out := out } := by
  rw [startNext_quiet h]
  split
  · exact ⟨_, _, rfl⟩
  split
  · exact ⟨_, _, rfl⟩
  split
  · exact ⟨_, _, rfl⟩
  · exact ⟨_, _, rfl⟩

end Ports

/-! ### The refill (R392, R394) -/

section Refill
variable {m : Mach} {c : Ctx}

theorem nextStream_of_empty (h : (upTo 4).all (fun v => (m.view v).packets.isEmpty) = true) (p : Nat) : m.nextStream p = none := by
  have hnone : (upTo 4).filter (fun v => (m.view v).sending.any (fun q => q.1 = p) && (m.view v).packets != []) = [] :=
    List.filter_eq_nil_iff.2 fun v hv => by
      have hempty := List.isEmpty_iff.1 (List.all_eq_true.1 h v hv)
      simp [hempty]
  rw [Mach.nextStream, hnone]
  rfl

/-- The meters refill, and nothing but the ports goes on. -/
theorem meterRefill_refills (hempty : (upTo 4).all (fun v => (m.view v).packets.isEmpty) = true) (hpower : m.power ≤ 2)
    (hdue : m.net.refillAt + ns 128 ≤ m.now) : (meterRefill c m).net.refillAt = m.net.refillAt + ns 128 ∧
    (meterRefill c m).net.meters = m.net.meters.zipIdx.map (fun x => m.refillMeter x.2 x.1) ∧ (meterRefill c m).od = m.od := by
  unfold meterRefill
  rw [if_neg (by omega)]
  extract_lets meters ports net n
  obtain ⟨ports', out, heq⟩ : ∃ ports' out, each (upTo 5) n (fun m p => m.startNext c p) = { n with net := { n.net with ports := ports' }, out := out } := by
    refine List.foldlRecOn (upTo 5) _ (motive := fun k : Mach => ∃ ports' out, k = { n with net := { n.net with ports := ports' }, out := out })
      ⟨n.net.ports, n.out, rfl⟩ fun k hk p _ => ?_
    obtain ⟨ports1, out1, rfl⟩ := hk
    obtain ⟨ports2, out2, h2⟩ := startNext_ports (c := c) (p := p) (m := { n with net := { n.net with ports := ports1 }, out := out1 })
      (nextStream_of_empty hempty p)
    exact ⟨ports2, out2, h2⟩
  rw [heq]
  exact ⟨rfl, rfl, rfl⟩

theorem meterRefill_early (h : 3 ≤ m.power ∨ m.now < m.net.refillAt + ns 128) : meterRefill c m = m := if_pos (by omega)

end Refill

end Sys2Proof.Machine

/-! Frames posted and sent (R386 to R389, R396). -/

namespace Sys2Proof.Machine

section Posts
variable {m : Mach} {c : Ctx} {p : Nat}

/-- What a change of a port leaves of the ports. -/
theorem port_onPort_field {β : Type} {f : Port → Port} {g : Port → β} (hg : ∀ x, g (f x) = g x) (m : Mach) (p q : Nat) :
    g ((m.onPort p f).port q) = g (m.port q) := getD_of_map_eq (map_modify_of_eq (g := g) (f := f) hg m.net.ports p) q {}

/-- What a frame posted may change of a port: not its gates and shapers. -/
theorem neverLets_onPort {f : Port → Port} (hlist : ∀ x, (f x).list = x.list) (m : Mach) (p q k t : Nat) :
    (m.onPort p f).neverLets q k t = m.neverLets q k t := by
  have hsame := port_onPort_field (g := Port.list) hlist m p q
  unfold Mach.neverLets Mach.gatesOpen
  rw [hsame]
  rfl

theorem charged_onPort {f : Port → Port} (hshapers : ∀ x, (f x).shapers = x.shapers) (m : Mach) (p q k n : Nat) :
    (m.onPort p f).charged q k n = m.charged q k n := by
  have hsame := port_onPort_field (g := Port.shapers) hshapers m p q
  unfold Mach.charged Mach.shaper
  rw [hsame]
  rfl

/-- The frame that a post hands over. -/
def Mach.postedFrame (m : Mach) (x : TxPost) : TxFrame := ⟨x.cls % 4, (m.port x.p).txProducer, x.stampAsked, x.oneStep, x.offset, x.data, none⟩

/-- The ring takes one more descriptor. -/
def Port.post (x : Port) : Port := { x with txProducer := (x.txProducer + 1) % 512 }

/-- A frame and its descriptor are written to memory. -/
def Mach.posted (m : Mach) (x : TxPost) : Eff :=
  (m.onPort x.p Port.post).storeAll [⟨x.buffer, x.data⟩, ⟨descriptorAt (m.port x.p).txBase (m.port x.p).txProducer,
    leBytes 8 x.buffer ++ leBytes 2 x.data.length ++ leBytes 1 ((m.postedFrame x).control true) ++ [0] ++ leBytes 2 x.offset ++ List.replicate 18 0⟩]

/-- Whether a frame posted is too long for every gate window. -/
def Mach.postNever (m : Mach) (x : TxPost) : Bool := m.neverLets x.p (x.cls % 4) (lineTime x.p (m.charged x.p (x.cls % 4) x.data.length))

/-- A post is written back at once, waits, or is queued (R388, R396). -/
theorem txPosted_eq {x : TxPost} (hp : x.p < 5) (hfitted : portFitted c.unit.orderX x.p = true) (hpower : m.power ≤ 2) (howned : (m.port x.p).owned < 512) :
    txPosted x c m = if reachable x.buffer x.data.length = false then
        (m.posted x).then_ (fun n => n.draw.writeBack x.p (m.postedFrame x) (Config.busStatus n.free).toNat none)
      else if m.linkUp x.p = false then (m.posted x).then_ (fun n => n.writeBack x.p (m.postedFrame x) 3 none)
      else if m.postNever x = true then
        (m.posted x).then_ (fun n => (n.tooLong x.p (x.cls % 4) x.data.length).writeBack x.p (m.postedFrame x) 2 none)
      else if queueLimit (x.cls % 4) ≤ (((m.onPort x.p Port.post).port x.p).queues.getD (x.cls % 4) []).length then
        (if x.cls % 4 = 1 then (m.posted x).then_ (fun n => (n.countDrop x.p (x.cls % 4)).writeBack x.p (m.postedFrame x) 1 none)
        else (m.posted x).on (fun n => n.onPort x.p (fun y => { y with held := y.held ++ [m.postedFrame x] })))
      else (m.posted x).on (fun n =>
        (n.onPort x.p (fun y => { y with queues := modAt y.queues (x.cls % 4) (fun q => q ++ [m.postedFrame x]) })).startNext c x.p) := by
  have hnever : (m.onPort x.p Port.post).neverLets x.p (x.cls % 4) (lineTime x.p ((m.onPort x.p Port.post).charged x.p (x.cls % 4) x.data.length)) =
      m.postNever x := by
    rw [neverLets_onPort (f := Port.post) (fun _ => rfl), charged_onPort (f := Port.post) (fun _ => rfl)]
    rfl
  rw [txPosted, if_neg (by simp [hfitted]; omega)]
  extract_lets k f a desc n e
  have hup : n.linkUp x.p = m.linkUp x.p := rfl
  rw [hup, show n.neverLets x.p k (lineTime x.p (n.charged x.p k x.data.length)) = m.postNever x from hnever]
  simp only [Bool.not_eq_true']
  rfl

/-- The preview packet that comes next depends on the previews alone. -/
theorem nextStream_congr {a b : Mach} (h : b.outs = a.outs) (p : Nat) : b.nextStream p = a.nextStream p := by
  have hview : b.view = a.view := funext fun v => by rw [Mach.view, Mach.view, h]
  unfold Mach.nextStream
  rw [hview]

/-- A write to memory leaves the network, the previews, and the objects of the ports. -/
theorem storeAll_keeps (m : Mach) (ws : List MemWrite) : Follows (fun m => (m.net, m.outs)) drainKeys m (m.storeAll ws).m :=
  (Follows.refl ..).storeAll (fun _ _ _ _ _ _ _ _ => rfl) drainKeys_unstored ws

theorem storeAll_net (m : Mach) (ws : List MemWrite) : (m.storeAll ws).m.net = m.net := congrArg Prod.fst (storeAll_keeps m ws).stays.view

theorem posted_keeps (m : Mach) (x : TxPost) : Follows (fun m => (m.net, m.outs)) drainKeys (m.onPort x.p Port.post) (m.posted x).m := storeAll_keeps ..

theorem posted_port {x : TxPost} (hp : x.p < m.net.ports.length) : (m.posted x).m.port x.p = (m.port x.p).post ∧
    (m.posted x).m.net.ports.length = m.net.ports.length := by
  have hnet : (m.posted x).m.net = (m.onPort x.p Port.post).net := storeAll_net ..
  rw [Mach.port, hnet]
  exact ⟨port_onPort hp, List.length_modify ..⟩

/-- A frame of the ring that is done with moves the place in the ring, and leaves the previews. -/
theorem writeBack_port {f : TxFrame} {stamp : Option Nat} (hp : p < m.net.ports.length) (hring : f.view = none) (status : Nat) :
    (m.writeBack p f status stamp).m.port p = { m.port p with txConsumer := ((m.port p).txConsumer + 1) % 512 } ∧
      (m.writeBack p f status stamp).m.outs = m.outs := by
  obtain ⟨ws, hback⟩ : ∃ ws, m.writeBack p f status stamp =
      (m.storeAll ws).on fun n => n.onPort p fun x => { x with txConsumer := (x.txConsumer + 1) % 512 } := by
    unfold Mach.writeBack
    rw [hring]
    exact ⟨_, rfl⟩
  have hnet := storeAll_net m ws
  have houts : (m.storeAll ws).m.outs = m.outs := congrArg Prod.snd (storeAll_keeps m ws).stays.view
  rw [hback, Eff.on_m, port_onPort (by rwa [hnet]), Mach.port, hnet]
  exact ⟨rfl, houts⟩

/-- A frame whose buffer cannot be accessed, and one at a port whose link is down, are written back. -/
theorem txPosted_back {x : TxPost} (hp : x.p < 5) (hfitted : portFitted c.unit.orderX x.p = true) (hpower : m.power ≤ 2)
    (howned : (m.port x.p).owned < 512) (hports : m.net.ports.length = 5) (h : reachable x.buffer x.data.length = false ∨ m.linkUp x.p = false) :
    ((txPosted x c m).m.port x.p).txProducer = ((m.port x.p).txProducer + 1) % 512 ∧
    ((txPosted x c m).m.port x.p).txConsumer = ((m.port x.p).txConsumer + 1) % 512 ∧ ((txPosted x c m).m.port x.p).queues = (m.port x.p).queues := by
  obtain ⟨hport, hlength⟩ := posted_port (m := m) (x := x) (by omega)
  have hback (n : Mach) (hn : n.net = (m.posted x).m.net) (status : Nat) : (n.writeBack x.p (m.postedFrame x) status none).m.port x.p =
      { (m.port x.p).post with txConsumer := ((m.port x.p).txConsumer + 1) % 512 } := by
    have hsame : n.port x.p = (m.port x.p).post := by rw [Mach.port, hn]; exact hport
    rw [(writeBack_port (by rw [hn]; omega) rfl status).1, hsame]
    rfl
  rw [txPosted_eq hp hfitted hpower howned]
  by_cases hreach : reachable x.buffer x.data.length = false
  · rw [if_pos hreach, then_m, hback (m.posted x).m.draw rfl]
    exact ⟨rfl, rfl, rfl⟩
  · rw [if_neg hreach, if_pos (h.resolve_left hreach), then_m, hback _ rfl]
    exact ⟨rfl, rfl, rfl⟩

/-- The count of a class's drops holds 64 bits. -/
theorem objMax_drops {p k : Nat} (hp : p < 5) (hk : k < 4) : objMax (shaperIx p k) 7 = 2 ^ 64 - 1 := by
  have hall : ∀ p < 5, ∀ k < 4, objMax (shaperIx p k) 7 = 2 ^ 64 - 1 := by decide +kernel
  exact hall p hp k hk

theorem tooLong_counts {k : Nat} (hp : p < 5) (hk : k < 4) (len : Nat) (hroom : m.objN (shaperIx p k) 7 < 2 ^ 64 - 1) :
    (m.tooLong p k len).objN (shaperIx p k) 7 = m.objN (shaperIx p k) 7 + 1 ∧ (m.tooLong p k len).net = m.net := by
  have hcount : (m.countDrop p k).objN (shaperIx p k) 7 = m.objN (shaperIx p k) 7 + 1 :=
    Mach.bump_objN_same _ _ _ _ _ (by rw [objMax_drops hp hk]; exact hroom)
  have hnet : (m.countDrop p k).net = m.net := Mach.bump_net ..
  unfold Mach.tooLong
  generalize m.countDrop p k = n at *
  have hraised (d : List (Nat × Nat)) : Stays Mach.net (· ≠ okey 0x1202 5) n (n.raiseRate 1 0x5008 (4 * p + k) d) :=
    Stays.raiseRate (.refl ..) (fun _ hk => hk) fun _ _ _ _ _ => rfl
  exact ⟨((hraised _).objN_of_key (by unfold shaperIx; simp only [okey]; omega)).trans hcount, (hraised _).view.trans hnet⟩

/-- A frame too long for every gate window is counted. -/
theorem txPosted_tooLong {x : TxPost} (hp : x.p < 5) (hfitted : portFitted c.unit.orderX x.p = true) (hpower : m.power ≤ 2)
    (howned : (m.port x.p).owned < 512) (hreach : reachable x.buffer x.data.length = true) (hup : m.linkUp x.p = true)
    (hnever : m.postNever x = true) (hroom : m.objN (shaperIx x.p (x.cls % 4)) 7 < 2 ^ 64 - 1) :
    (txPosted x c m).m.objN (shaperIx x.p (x.cls % 4)) 7 = m.objN (shaperIx x.p (x.cls % 4)) 7 + 1 ∧
    ((txPosted x c m).m.port x.p).queues = (m.port x.p).queues := by
  have hclass : x.cls % 4 < 4 := Nat.mod_lt _ (by decide)
  have hkey : drainKeys (okey (shaperIx x.p (x.cls % 4)) 7) := .inr (.inl (by unfold shaperIx; simp only [okey]; omega))
  have hkeeps := posted_keeps m x
  have hnet : (m.posted x).m.net = (m.onPort x.p Port.post).net := congrArg Prod.fst hkeeps.stays.view
  have hbefore : (m.posted x).m.objN (shaperIx x.p (x.cls % 4)) 7 = m.objN (shaperIx x.p (x.cls % 4)) 7 := hkeeps.objN hkey
  have hqueues : ((m.onPort x.p Port.post).port x.p).queues = (m.port x.p).queues :=
    port_onPort_field (g := Port.queues) (f := Port.post) (fun _ => rfl) m x.p x.p
  rw [txPosted_eq hp hfitted hpower howned, if_neg (by simp [hreach]), if_neg (by simp [hup]), if_pos hnever, then_m]
  clear hkeeps
  generalize (m.posted x).m = n at *
  obtain ⟨hcount, hlong⟩ := tooLong_counts (m := n) hp hclass x.data.length (hbefore ▸ hroom)
  generalize n.tooLong x.p (x.cls % 4) x.data.length = k at *
  have hback := (Follows.refl Mach.drainView drainKeys k).writeBack x.p (m.postedFrame x) 2 none
  refine ⟨(hback.objN hkey).trans (hcount.trans (congrArg (· + 1) hbefore)), (congrArg Port.queues (hback.port x.p)).trans ?_⟩
  show (k.port x.p).queues = _
  rw [Mach.port, hlong, hnet]
  exact hqueues

/-- A frame of a class that is full waits with its descriptor. -/
theorem txPosted_held {x : TxPost} (hp : x.p < 5) (hfitted : portFitted c.unit.orderX x.p = true) (hpower : m.power ≤ 2)
    (howned : (m.port x.p).owned < 512) (hports : m.net.ports.length = 5) (hreach : reachable x.buffer x.data.length = true)
    (hup : m.linkUp x.p = true) (hnever : m.postNever x = false) (hclass : x.cls % 4 ≠ 1)
    (hfull : queueLimit (x.cls % 4) ≤ ((m.port x.p).queues.getD (x.cls % 4) []).length) :
    ((txPosted x c m).m.port x.p).held = (m.port x.p).held ++ [m.postedFrame x] ∧ ((txPosted x c m).m.port x.p).queues = (m.port x.p).queues ∧
    ((txPosted x c m).m.port x.p).txConsumer = (m.port x.p).txConsumer := by
  obtain ⟨hport, hlength⟩ := posted_port (m := m) (x := x) (by omega)
  have hsame : (m.onPort x.p Port.post).port x.p = (m.port x.p).post := port_onPort (by omega)
  rw [txPosted_eq hp hfitted hpower howned, if_neg (by simp [hreach]), if_neg (by simp [hup]), if_neg (by simp [hnever]), hsame,
    if_pos (show queueLimit (x.cls % 4) ≤ ((m.port x.p).post.queues.getD (x.cls % 4) []).length from hfull), if_neg hclass, Eff.on_m,
    port_onPort (by omega), hport]
  exact ⟨rfl, rfl, rfl⟩

/-- A frame is queued behind those of its class, while its port sends. -/
theorem txPosted_queued {x : TxPost} (hp : x.p < 5) (hfitted : portFitted c.unit.orderX x.p = true) (hpower : m.power ≤ 2)
    (howned : (m.port x.p).owned < 512) (hports : m.net.ports.length = 5) (hqueues : (m.port x.p).queues.length = 4)
    (hreach : reachable x.buffer x.data.length = true) (hup : m.linkUp x.p = true) (hnever : m.postNever x = false)
    (hstream : m.nextStream x.p = none) (hfree : ((m.port x.p).queues.getD (x.cls % 4) []).length < queueLimit (x.cls % 4))
    (hsending : (m.port x.p).sending.isSome = true) : ((txPosted x c m).m.port x.p).txProducer = ((m.port x.p).txProducer + 1) % 512 ∧
    ((txPosted x c m).m.port x.p).queues.getD (x.cls % 4) [] = (m.port x.p).queues.getD (x.cls % 4) [] ++ [m.postedFrame x] ∧
    ((txPosted x c m).m.port x.p).txConsumer = (m.port x.p).txConsumer := by
  obtain ⟨hport, hlength⟩ := posted_port (m := m) (x := x) (by omega)
  have hsame : (m.onPort x.p Port.post).port x.p = (m.port x.p).post := port_onPort (by omega)
  rw [txPosted_eq hp hfitted hpower howned, if_neg (by simp [hreach]), if_neg (by simp [hup]), if_neg (by simp [hnever]), hsame,
    if_neg (show ¬ queueLimit (x.cls % 4) ≤ ((m.port x.p).post.queues.getD (x.cls % 4) []).length from Nat.not_le.2 hfree), Eff.on_m]
  have houts : (m.posted x).m.outs = m.outs := congrArg Prod.snd (storeAll_keeps (m.onPort x.p Port.post) _).stays.view
  generalize (m.posted x).m = n at *
  generalize hf : m.postedFrame x = f
  have hqueued : (n.onPort x.p fun y => { y with queues := modAt y.queues (x.cls % 4) fun q => q ++ [f] }).port x.p =
      { (m.port x.p).post with queues := modAt (m.port x.p).queues (x.cls % 4) fun q => q ++ [f] } := by
    rw [port_onPort (by omega), hport]
    rfl
  have hquiet : (n.onPort x.p fun y => { y with queues := modAt y.queues (x.cls % 4) fun q => q ++ [f] }).nextStream x.p = none :=
    (nextStream_congr (a := m) (b := n.onPort x.p _) houts x.p).trans hstream
  rw [startNext_busy hquiet (.inl (by rw [hqueued]; exact hsending)), hqueued]
  refine ⟨rfl, ?_, rfl⟩
  exact (getD_modify ..).trans (if_pos (by omega))

/-- A post that the ring has no place for, or that no port takes, changes nothing. -/
theorem txPosted_skips {x : TxPost} (h : 5 ≤ x.p ∨ portFitted c.unit.orderX x.p = false ∨ 3 ≤ m.power ∨ 512 ≤ (m.port x.p).owned) :
    txPosted x c m = .of m := by
  refine if_pos ?_
  rcases h with h | h | h | h
  · exact .inl h
  · exact .inr (.inl (by simp [h]))
  · exact .inr (.inr (.inl (by omega)))
  · exact .inr (.inr (.inr h))

theorem rxPosted_skips {b : Nat} (h : 5 ≤ p ∨ 512 ≤ (m.port p).rxBuffers.length ∨ 3 ≤ m.power) : rxPosted p b c m = .of m := by
  refine if_pos ?_
  rcases h with h | h | h
  · exact .inl h
  · exact .inr (.inr (.inr h))
  · exact .inr (.inr (.inl (by omega)))

/-- A buffer handed over joins those of its port, with its descriptor. -/
theorem rxPosted_taken {b : Nat} (hp : p < 5) (hfitted : portFitted c.unit.orderX p = true) (hpower : m.power ≤ 2) (hroom : (m.port p).rxBuffers.length < 512) :
    rxPosted p b c m = (m.onPort p fun x => { x with rxBuffers := x.rxBuffers ++ [b], rxProducer := (x.rxProducer + 1) % 512 }).storeAll
      [⟨descriptorAt (m.port p).rxBase (m.port p).rxProducer, leBytes 8 b ++ [0, 0, 0x80] ++ List.replicate 21 0⟩] := by
  rw [rxPosted, if_neg (by simp [hfitted]; omega)]

/-! ### A frame that has left (R389) -/

theorem foldl_stream_isSome (m : Mach) (l : List Nat) : ∀ v, ((l.foldl (fun a v => match a with
    | none => some v
    | some b => if (m.view v).queued < (m.view b).queued then some v else a) (some v)).isSome) = true := by
  induction l with
  | nil => exact fun _ => rfl
  | cons x l ih =>
    intro v
    rw [List.foldl_cons]
    split
    · exact ih x
    · split
      · exact ih x
      · exact ih _

/-- Without a preview packet to come no view has one for the port. -/
theorem no_stream (h : m.nextStream p = none) {v : Nat} (hv : v < 4) : ((m.view v).sending.any fun q => q.1 = p) = false ∨ (m.view v).packets = [] := by
  by_contra hnot
  simp only [not_or] at hnot
  have hmem : v ∈ (upTo 4).filter (fun v => (m.view v).sending.any (fun q => q.1 = p) && (m.view v).packets != []) :=
    List.mem_filter.2 ⟨List.mem_range.2 hv, by simpa using hnot⟩
  unfold Mach.nextStream at h
  cases hl : (upTo 4).filter (fun v => (m.view v).sending.any (fun q => q.1 = p) && (m.view v).packets != []) with
  | nil => simp [hl] at hmem
  | cons x l =>
    rw [hl, List.foldl_cons] at h
    have hsome := foldl_stream_isSome m l x
    exact absurd ((congrArg Option.isSome h).symm.trans hsome) (by decide)

/-- Without a preview packet to come no view is fed. -/
theorem feedView_none (h : m.nextStream p = none) (v n : Nat) : m.feedView c p v n = m := by
  refine List.foldlRecOn (upTo (min n (queueLimit 3))) _ (motive := fun k => k = m) rfl fun k hk _ _ => ?_
  rw [hk]
  refine if_pos (.inr ?_)
  by_cases hv : v < 4
  · rcases no_stream h hv with hnone | hempty
    · exact .inr (.inr (by simp [hnone]))
    · exact .inr (.inl hempty)
  · exact .inl (by omega)

/-- The frame in transmission has left its port. -/
def Mach.hasLeft (m : Mach) (p : Nat) (f : TxFrame) : Mach :=
  ((m.onPort p fun x => { x with sending := none }).bump (0x4010 + p) 0x0F).bump (shaperIx p f.cls) 6

theorem transmitted_eq {f : TxFrame} {x : Nat} (hsending : (m.port p).sending = some (f, x)) (v n : Nat) :
    m.transmitted c p v n = ((m.hasLeft p f).writeBack p f 0 (some x)).on fun k => (k.feedView c p v n).startNext c p := by
  rw [Mach.transmitted, hsending]
  rfl

theorem hasLeft_counts (hp : p < 5) (hports : p < m.net.ports.length) (f : TxFrame) (hroom : m.objN (0x4010 + p) 0x0F < 2 ^ 64 - 1) :
    (m.hasLeft p f).port p = { m.port p with sending := none } ∧ (m.hasLeft p f).net.ports.length = m.net.ports.length ∧
      (m.hasLeft p f).outs = m.outs ∧ (m.hasLeft p f).objN (0x4010 + p) 0x0F = m.objN (0x4010 + p) 0x0F + 1 := by
  have hnet : (m.hasLeft p f).net = (m.onPort p fun x => { x with sending := none }).net := (Mach.bump_net ..).trans (Mach.bump_net ..)
  refine ⟨?_, by rw [hnet]; exact List.length_modify .., (Mach.bump_outs ..).trans (Mach.bump_outs ..), ?_⟩
  · rw [Mach.port, hnet]
    exact port_onPort hports
  · rw [Mach.hasLeft, Mach.bump_objN_ne _ _ _ _ _ (by unfold shaperIx; simp only [okey]; omega)]
    exact port_counts hp (by decide) rfl hroom

/-- A frame that has left is counted and written back, and with nothing queued nothing follows. -/
theorem transmitted_last {f : TxFrame} {x v n : Nat} (hp : p < 5) (hports : m.net.ports.length = 5) (hstream : m.nextStream p = none) (hring : f.view = none)
    (hsending : (m.port p).sending = some (f, x)) (hempty : (m.port p).queues.all (fun z => z.isEmpty) = true)
    (hroom : m.objN (0x4010 + p) 0x0F < 2 ^ 64 - 1) : ((m.transmitted c p v n).m.port p).sending = none ∧
    (m.transmitted c p v n).m.objN (0x4010 + p) 0x0F = m.objN (0x4010 + p) 0x0F + 1 ∧
    ((m.transmitted c p v n).m.port p).txConsumer = ((m.port p).txConsumer + 1) % 512 := by
  obtain ⟨hport, hlength, houts, hcount⟩ := hasLeft_counts hp (by omega) f hroom
  rw [transmitted_eq hsending, Eff.on_m]
  generalize m.hasLeft p f = k at *
  obtain ⟨hback, hviews⟩ := writeBack_port (m := k) (p := p) (stamp := some x) (by omega) hring 0
  have hdone := ((Follows.refl Mach.drainView drainKeys k).writeBack p f 0 (some x)).objN (ix := 0x4010 + p) (sub := 0x0F)
    (.inr (.inl (by simp only [okey]; omega)))
  generalize (k.writeBack p f 0 (some x)).m = w at *
  have hquiet : w.nextStream p = none := (nextStream_congr (hviews.trans houts) p).trans hstream
  have hnothing (i : Nat) : (w.port p).queues.getD i [] = [] := by
    rw [hback, hport]
    show (m.port p).queues.getD i [] = []
    by_cases hi : i < (m.port p).queues.length
    · have hmem : (m.port p).queues.getD i [] ∈ (m.port p).queues := by
        rw [List.getD_eq_getElem _ _ hi]
        exact List.getElem_mem hi
      exact List.isEmpty_iff.1 (List.all_eq_true.1 hempty _ hmem)
    · exact List.getD_eq_default _ _ (by omega)
  rw [feedView_none hquiet, startNext_empty hquiet hnothing, hback, hport]
  exact ⟨rfl, hdone.trans hcount, rfl⟩

end Posts

end Sys2Proof.Machine

/-! Gate lists (R399 to R401). -/

namespace Sys2Proof.Machine

/-! ### What sending leaves of the gate lists -/

/-- The gate lists of the ports, and the byte strings that show them. -/
def Mach.listView (m : Mach) := (m.net.ports.map fun x => (x.list, x.switch_), m.strs)

/-- The lists, the byte strings and the object that shows whether a list of port `q` waits are as they were. -/
abbrev KeepsLists (q : Nat) (a b : Mach) : Prop := Follows Mach.listView (· = okey (0x4220 + q) 8) a b

section Lists
variable {a b m : Mach} {q : Nat}

theorem listView_blind : Blind Mach.listView := fun _ _ _ _ _ _ _ _ => rfl

theorem listKey_unaccessed (hq : q < 5) : Unaccessed (· = okey (0x4220 + q) 8) := by
  rintro k rfl
  simp only [okey]
  omega

theorem Follows.lists (h : Drains a b) (hq : q < 5) : KeepsLists q a b := by
  obtain ⟨⟨hview, hobjects⟩, hnewest⟩ := h
  simp only [Mach.drainView, Prod.mk.injEq] at hview
  obtain ⟨hports, -, hstrs, -⟩ := hview
  have hlists : b.net.ports.map (fun x => (x.list, x.switch_)) = a.net.ports.map (fun x => (x.list, x.switch_)) := by
    have h := congrArg (List.map fun x : Port => (x.list, x.switch_)) hports
    simpa only [List.map_map, Function.comp_def, Port.drained] using h
  refine ⟨⟨by rw [Mach.listView, Mach.listView, hlists, hstrs], fun k hk => hobjects k (.inr (.inl ?_))⟩, hnewest⟩
  rw [hk, okey]
  omega

theorem Follows.listPort (h : KeepsLists q a b) (p : Nat) : (b.port p).list = (a.port p).list ∧ (b.port p).switch_ = (a.port p).switch_ := by
  have hlists := getD_of_map_eq (congrArg Prod.fst h.stays.view) p ({} : Port)
  exact Prod.ext_iff.1 hlists

theorem Follows.changesPort (h : KeepsLists q a m) {f : Port → Port} (hf : ∀ x, (f x).list = x.list ∧ (f x).switch_ = x.switch_) (p : Nat) :
    KeepsLists q a (m.onPort p f) := by
  refine h.keep ?_ rfl rfl
  have hlists := map_modify_of_eq (g := fun x : Port => (x.list, x.switch_)) (f := f) (fun x => Prod.ext (hf x).1 (hf x).2) m.net.ports p
  unfold Mach.listView
  rw [show (m.onPort p f).net.ports.map (fun x => (x.list, x.switch_)) = _ from hlists]
  rfl

theorem letIn_lists (x : Port) : x.letIn.list = x.list ∧ x.letIn.switch_ = x.switch_ :=
  List.foldlRecOn x.held _ (motive := fun y : Port => y.list = x.list ∧ y.switch_ = x.switch_) ⟨rfl, rfl⟩ fun y hy f _ => by
    split <;> exact hy

/-- A frame too long for every gate window is counted and told. -/
theorem Follows.tooLong (h : KeepsLists q a m) (p k len : Nat) : KeepsLists q a (m.tooLong p k len) := by
  unfold Mach.tooLong
  have hcount : KeepsLists q a (m.countDrop p k) := by
    obtain ⟨x, hx⟩ := Mach.bump_eq m (shaperIx p k) 7 1 0
    rw [Mach.countDrop, hx]
    exact .set h (fun y hy => by rw [hy, okey, okey]; omega) rfl
  generalize m.countDrop p k = n at *
  exact ⟨hcount.stays.raiseRate (fun y hy => by rw [hy, okey, okey]; omega) (fun _ _ _ _ _ => rfl),
    hcount.newest.trans ((Steady.refl id n).raiseRate (by omega)).newest⟩

/-- Queued frames that the list in force never lets through are written back. -/
theorem Follows.dropTooLong (h : KeepsLists q a m) (hq : q < 5) (p : Nat) : KeepsLists q a (m.dropTooLong p).m := by
  unfold Mach.dropTooLong
  extract_lets bad fs n
  have hn : KeepsLists q a n := by
    refine h.changesPort (fun x => ?_) p
    exact letIn_lists _
  exact List.foldlRecOn fs _ (motive := fun e : Eff => KeepsLists q a e.m) hn fun e he f _ =>
    (he.tooLong ..).trans (Follows.lists (.writeBack (.refl ..) ..) hq)

/-- A preview packet goes into the class 3 queue, or is dropped. -/
theorem Follows.putPacket (h : KeepsLists q a m) (hq : q < 5) (c : Ctx) (p v : Nat) : KeepsLists q a (m.putPacket c p v) := by
  unfold Mach.putPacket
  extract_lets x data m1 m2 f
  have hread (n : Nat) (runs : List (Nat × Nat)) : KeepsLists q a (m.reads n runs) :=
    ⟨h.stays.readBack listView_blind (listKey_unaccessed hq) n runs, h.newest.trans ((Steady.refl id m).reads).newest⟩
  have h1 : KeepsLists q a m1 := .ite (fun _ => hread ..) (fun _ => h)
  have h2 : KeepsLists q a m2 := h1.keep rfl rfl rfl
  clear_value m1 m2 data
  have hqueued : KeepsLists q a (m2.onPort p fun x => { x with queues := modAt x.queues 3 fun l => l ++ [f] }) := by
    refine h2.changesPort (fun x => ?_) p
    exact ⟨rfl, rfl⟩
  exact .ite (fun _ => (h2.tooLong ..).trans (Follows.lists (.packetDone (.refl ..) ..) hq)) (fun _ => hqueued)

theorem Follows.feedStream (hq : q < 5) (c : Ctx) (p n : Nat) : ∀ {m : Mach}, KeepsLists q a m → KeepsLists q a (Mach.feedStream c p n m) := by
  induction n with
  | zero => exact fun h => h
  | succ n ih =>
    intro m h
    refine .ite (fun _ => h) fun _ => ?_
    split
    · exact h
    · exact ih (h.putPacket hq c p _)

/-- What a port sends leaves the lists. -/
theorem Follows.startNext (h : KeepsLists q a m) (hq : q < 5) (c : Ctx) (p : Nat) : KeepsLists q a (m.startNext c p) := by
  have hfed := h.feedStream hq c p (((upTo 4).map (fun v => (m.view v).packets.length)).sum)
  unfold Mach.startNext
  generalize Mach.feedStream c p (((upTo 4).map (fun v => (m.view v).packets.length)).sum) m = n at *
  refine .ite (fun _ => hfed) fun _ => ?_
  split
  · exact hfed
  · split
    · exact hfed
    · refine .keep (hfed.changesPort (fun x => ?_) p) rfl rfl rfl
      exact letIn_lists _

end Lists

/-! ### A list applied, and its switch (R401) -/

section Gates
variable {s : State} {w : WriteReq} {p : Put} {m : Mach} {q : Nat}

/-- The list that is staged at a port. -/
def Mach.stagedList (m : Mach) (q : Nat) : GateList :=
  ⟨m.objN (0x4220 + q) 2, m.objN (0x4220 + q) 4, gateEntries (m.objN (0x4220 + q) 3) (m.str (0x4230 + q) 0)⟩

/-- A write of 0x4220+q:06 applies the list staged at the port. -/
theorem Reaches.run_gateListApply (h : Reaches s (0x4220 + q) 6 w p m) (hq : q < 5) : p.run m = actM (m.applyGates q) := by
  obtain ⟨-, hix, hsub, -, -⟩ := h.put
  interval_cases q <;> simp [Put.run, Put.sessions, Put.supply, Put.times, Put.ports, hix, hsub]

theorem exec_gateListApply (hq : q < 5) (w : WriteReq) (s : State) :
    exec (.gateListApply q w) s = liftE (koaWrite (writeMsg w (0x4220 + q) 6) none) s := by
  show liftE (writeIn _ _ _ _) s = _
  rw [writeIn_of_true (by simpa using hq)]

/-- A list of allowed entries and cycle waits for its switch. -/
theorem applyGates_waits (hq : q < m.net.ports.length) (hcount : 1 ≤ m.objN (0x4220 + q) 3)
    (hbytes : 8 * m.objN (0x4220 + q) 3 ≤ (m.str (0x4230 + q) 0).length)
    (hentries : (m.stagedList q).entries.all (fun e => 64 ≤ e.2 && e.2 ≤ 1000000000) = true)
    (hlow : (m.stagedList q).mode ≠ 0 ∨ 1000 ≤ ((m.stagedList q).entries.map Prod.snd).sum)
    (hhigh : (m.stagedList q).mode ≠ 0 ∨ ((m.stagedList q).entries.map Prod.snd).sum ≤ 1000000000) :
    ∃ n, m.applyGates q = .ok n ∧ n.objN (0x4220 + q) 8 = 1 ∧ (n.port q).switch_.map Prod.snd = some (m.stagedList q) ∧ (n.port q).list = (m.port q).list := by
  unfold Mach.applyGates
  extract_lets n staged g cycle bad from_ at_
  have hbad : bad = false := by
    have hg : g = m.stagedList q := rfl
    have hsome : g.entries.any (fun e => decide (e.2 < 64) || decide (1000000000 < e.2)) = false := by
      rw [List.any_eq_false]
      intro e he
      have hallowed := List.all_eq_true.1 (hg ▸ hentries) e he
      simp only [Bool.and_eq_true, decide_eq_true_eq] at hallowed
      simp only [Bool.or_eq_true, decide_eq_true_eq]
      omega
    have hcycle : ¬ (g.mode = 0 ∧ (cycle < 1000 ∨ 1000000000 < cycle)) := by
      rintro ⟨hmode, hrange⟩
      have hleast := hlow.resolve_left (not_not.2 hmode)
      have hmost := hhigh.resolve_left (not_not.2 hmode)
      change 1000 ≤ cycle at hleast
      change cycle ≤ 1000000000 at hmost
      omega
    have hn : ¬ n = 0 := by
      show ¬ m.objN (0x4220 + q) 3 = 0
      omega
    have hlong : ¬ staged.length < 8 * n := Nat.not_lt.2 hbytes
    rw [Bool.eq_false_iff]
    intro htrue
    simp only [bad, hsome, Bool.or_false, Bool.or_eq_true, Bool.and_eq_true, decide_eq_true_eq] at htrue
    rcases htrue with (h | h) | h
    · exact hn h
    · exact hlong h
    · exact hcycle h
  rw [if_neg (by simp [hbad])]
  have hport : (m.onPort q fun x => { x with switch_ := some (from_, g) }).port q = { m.port q with switch_ := some (from_, g) } := port_onPort hq
  have hnet : (((m.onPort q fun x => { x with switch_ := some (from_, g) }).setN (0x4220 + q) 8 1).setN (0x4220 + q) 9 at_).net =
      (m.onPort q fun x => { x with switch_ := some (from_, g) }).net := (Mach.setN_net ..).trans (Mach.setN_net ..)
  refine ⟨_, rfl, ?_, ?_⟩
  · rw [Mach.setN_objN_ne _ _ _ _ _ (by simp only [okey]; omega), Mach.setN_objN_same]
  · rw [Mach.port, hnet, ← Mach.port, hport]
    exact ⟨rfl, rfl⟩

/-- A list with fewer bytes than its entries take is refused. -/
theorem applyGates_short (h : (m.str (0x4230 + q) 0).length < 8 * m.objN (0x4220 + q) 3) : m.applyGates q = .error abInconsistent := by
  unfold Mach.applyGates
  extract_lets n staged g cycle bad from_ at_
  have hbad : bad = true := by
    have hshort : decide (staged.length < 8 * n) = true := decide_eq_true h
    simp only [bad, hshort, Bool.or_true, Bool.true_or]
  exact if_pos hbad

/-- The block once a list is in force, from an instant of the time word on. -/
def Mach.switched (m : Mach) (q : Nat) (g : GateList) (instant : Nat) : Mach :=
  ((m.onPort q fun x => { x with list := g, switch_ := none }).setStr (0x4238 + q) 0 (gateBytes g.entries)).sets (0x4220 + q)
    [(7, if g.mode = 0 then ((g.entries.map Prod.snd).sum : Nat) else 0), (8, 0), (9, (instant : Nat))]

theorem gateListSwitch_eq {c : Ctx} {x : Nat} {g : GateList} (hwaits : (m.port q).switch_ = some (x, g)) (hmode : g.mode = 0)
    (hdue : m.objN (0x4220 + q) 9 ≤ m.timeWord) : gateListSwitch q c m =
    (((m.switched q g (m.objN (0x4220 + q) 9)).raise 0x5006 q [(1, q), (1, g.mode), (2, g.entries.length)]).dropTooLong q).on
      fun m => m.startNext c q := by
  rw [gateListSwitch, hwaits]
  simp only [hmode, if_true, hdue, decide_true, Bool.not_true, Bool.false_eq_true, if_false, Mach.switched]

theorem switched_shown {g : GateList} (hport : q < m.net.ports.length) (instant : Nat) : ((m.switched q g instant).port q).list = g ∧
    ((m.switched q g instant).port q).switch_ = none ∧ (m.switched q g instant).objN (0x4220 + q) 8 = 0 ∧
    (m.switched q g instant).str (0x4238 + q) 0 = gateBytes g.entries ∧ (m.switched q g instant).jrn = m.jrn := by
  have hnet : (m.switched q g instant).net = (m.onPort q fun x => { x with list := g, switch_ := none }).net :=
    (Mach.sets_net ..).trans (Mach.setStr_net ..)
  have hshown : (m.switched q g instant).port q = { m.port q with list := g, switch_ := none } := by
    rw [Mach.port, hnet]
    exact port_onPort hport
  refine ⟨by rw [hshown], by rw [hshown], ?_, ?_, (Mach.sets_jrn ..).trans (Mach.setStr_jrn ..)⟩
  · exact (Mach.set_objN_ne _ _ _ _ _ (by simp only [okey]; omega)).trans (congrArg Int.toNat (Mach.set_obj_same ..))
  · rw [Mach.str, Mach.switched, Mach.sets_strs]
    exact Mach.setStr_str_same ..

/-- A list that waits comes into force at its instant. -/
theorem gateListSwitch_switches {c : Ctx} {x : Nat} {g : GateList} (hq : q < 5) (hport : q < m.net.ports.length)
    (hwaits : (m.port q).switch_ = some (x, g)) (hmode : g.mode = 0) (hdue : m.objN (0x4220 + q) 9 ≤ m.timeWord) :
    ((gateListSwitch q c m).m.port q).list = g ∧ ((gateListSwitch q c m).m.port q).switch_ = none ∧ (gateListSwitch q c m).m.objN (0x4220 + q) 8 = 0 ∧
    (gateListSwitch q c m).m.str (0x4238 + q) 0 = gateBytes g.entries ∧ m.jrn.newest + 1 ≤ (gateListSwitch q c m).m.jrn.newest := by
  obtain ⟨hlist, hnone, hstate, hbytes, hjrn⟩ := switched_shown (g := g) hport (m.objN (0x4220 + q) 9)
  rw [gateListSwitch_eq hwaits hmode hdue, Eff.on_m]
  generalize m.switched q g (m.objN (0x4220 + q) 9) = n at *
  have hraised : (n.raise 0x5006 q [(1, q), (1, g.mode), (2, g.entries.length)]).jrn.newest = m.jrn.newest + 1 := by rw [Mach.raise_newest, hjrn]
  have hkeeps : KeepsLists q n (n.raise 0x5006 q [(1, q), (1, g.mode), (2, g.entries.length)]) :=
    .raise (.refl ..) (fun k hk => by rw [hk, okey, okey]; omega) fun _ _ _ _ _ => rfl
  generalize n.raise 0x5006 q [(1, q), (1, g.mode), (2, g.entries.length)] = r at *
  have hlast : KeepsLists q r ((r.dropTooLong q).m.startNext c q) := .startNext (.dropTooLong (.refl ..) hq q) hq c q
  generalize (r.dropTooLong q).m.startNext c q = z at *
  have hall : KeepsLists q n z := hkeeps.trans hlast
  obtain ⟨hlist', hnone'⟩ := hall.listPort q
  have hstrs : z.strs = n.strs := congrArg Prod.snd hall.stays.view
  refine ⟨hlist'.trans hlist, hnone'.trans hnone, (hall.objN rfl).trans hstate, ?_, hraised ▸ hlast.newest⟩
  rw [Mach.str, hstrs]
  exact hbytes

end Gates

end Sys2Proof.Machine

/-! O41 (R382, R384 to R401, R403, R407). -/

namespace Sys2Proof.Machine

theorem SameBut.net {a b : Mach} (h : SameBut a b) : a.net = b.net := by have := congrArg Mach.net h; exact this

theorem SameBut.objB {a b : Mach} (h : SameBut a b) {ix sub bank : Nat} : a.objB ix sub bank = b.objB ix sub bank := by
  rw [Mach.objB, Mach.objB, Mach.obj, Mach.obj, h.od]

/-- What the receive ring writes of a PTP frame. -/
theorem ringWrites_ptp {m : Mach} {p stamp b : Nat} {tag : Option Nat} {data : Bytes} : m.ringWrites p 1 0xFFFF tag.isNone stamp b data =
    [⟨b, data⟩, ⟨descriptorAt (m.port p).rxBase (m.port p).rxConsumer + 8, leBytes 2 data.length⟩,
      ⟨descriptorAt (m.port p).rxBase (m.port p).rxConsumer + 12, leBytes 2 0xFFFF ++ [0, 0] ++ timeLE stamp⟩,
      ⟨descriptorAt (m.port p).rxBase (m.port p).rxConsumer + 10, leBytes 1 (2 + bit tag.isSome) ++ [0]⟩] := by
  rw [Mach.ringWrites, if_pos rfl, Option.not_isNone]

/-- Settles O41: each command of the ports, queues, meters, gates and links by what it makes of them. -/
theorem portsQueuesMetersGatesAndLinks : Obligations.PortsQueuesMetersGatesAndLinks := by
  unfold Obligations.PortsQueuesMetersGatesAndLinks
  refine ⟨?frameSkips, ?frameError, ?framePause, ?frameDrop, ?framePtp, ?frameRed, ?slotOn, ?slotOff, ?slotSame, ?refill, ?refillEarly, ?queued,
    ?back, ?tooLong, ?postSkips, ?held, ?buffer, ?bufferSkips, ?sent, ?sentNone, ?starts, ?startsNone, ?applies, ?short, ?switches, ?switchNone,
    ?linkUp, ?linkDown, ?linkDownSkips, ?inserted, ?removed⟩
  case frameSkips =>
    intro s f hskip
    refine runs_of_eff (f := frameReceived f) (if_pos ?_) rfl
    rcases hskip with h | h | h
    · exact .inl h
    · exact .inr (.inr (.inl (by simp [h])))
    · exact .inr (.inr (.inr (by omega)))
  case frameError =>
    intro s f hp hfitted hup hpower hbad hroom
    obtain ⟨n, heq, hcount, hnet⟩ := frameReceived_counts (c := s.ctx) hp hfitted hup hpower hbad hroom
    exact runs_of_eff (f := frameReceived f) heq ⟨hcount, hnet, rfl⟩
  case framePause =>
    intro s f hp hfitted hup hpower harmed hfcs hlen hpause hroom hroom'
    obtain ⟨n, heq, hcount, hpauses, hnet⟩ := frameReceived_pause (c := s.ctx) hp hfitted hup hpower harmed hfcs hlen hpause hroom hroom'
    exact runs_of_eff (f := frameReceived f) heq ⟨hcount, hpauses, hnet, rfl⟩
  case frameDrop =>
    intro s f hp hfitted hup hpower harmed hfcs hlen hpause hdrop hroom
    obtain ⟨n, heq, hcount, hnet⟩ := frameReceived_drop hp hfitted hup hpower harmed hfcs hlen hpause hdrop hroom
    exact runs_of_eff (f := frameReceived f) heq ⟨hcount, hnet, rfl⟩
  case framePtp =>
    intro s f b l hp hfitted hup hpower harmed hfcs hlen hpause hfits hptp hports hbuffers
    have heq := frameReceived_ptp hp hfitted hup hpower harmed hfcs hlen hpause hfits hptp hbuffers
    refine ⟨_, liftE_next (frameReceived f) s, ?_⟩
    rw [heq]
    have hport : ((s.m.frameTaken f).onPort f.p fun x => { x with rxBuffers := l, rxConsumer := (x.rxConsumer + 1) % 512 }).port f.p =
        { s.m.port f.p with rxBuffers := l, rxConsumer := ((s.m.port f.p).rxConsumer + 1) % 512 } :=
      port_onPort (show f.p < s.m.net.ports.length by omega)
    rw [ringWrites_ptp]
    generalize (s.m.frameTaken f).onPort f.p (fun x => { x with rxBuffers := l, rxConsumer := (x.rxConsumer + 1) % 512 }) = n at *
    refine ⟨?_, ?_, rfl⟩
    · show ((n.storeAll _).m.port f.p).rxBuffers = l
      rw [Mach.port, storeAll_net, ← Mach.port, hport]
    · show ((n.storeAll _).m.port f.p).rxConsumer = _
      rw [Mach.port, storeAll_net, ← Mach.port, hport]
  case frameRed =>
    intro s f k hp hfitted hup hpower harmed hfcs hlen hpause hfits hslot hon hred hroom
    obtain ⟨n, heq, hcount, hscene⟩ := frameReceived_red hp hfitted hup hpower harmed hfcs hlen hpause hfits hslot hon hred hroom
    exact runs_of_eff (f := frameReceived f) heq ⟨hcount, hscene, rfl⟩
  case slotOn =>
    intro s w p m h hv hoff hslot
    obtain ⟨hon, hrestart⟩ := enableSlot_on hoff hslot p.c
    refine h.runs_act (by decide) (h.run_slotEnable.trans (by rw [hv, show ((1 : Int) != 0) = true from rfl])) fun n hn => ⟨hn.objB.trans hon, ?_, rfl⟩
    show (n.net.meters.getD (p.s.bank 0x4110) {}).restart = true
    rw [hn.net]
    exact hrestart
  case slotOff =>
    intro s w p m h hv hon
    obtain ⟨hoff, hleft⟩ := enableSlot_off hon p.c
    refine h.runs_act (by decide) (h.run_slotEnable.trans (by rw [hv, show ((0 : Int) != 0) = false from rfl])) fun n hn => ⟨hn.objB.trans hoff, ?_, rfl⟩
    show n.source? (p.s.bank 0x4110) = none
    rw [Mach.source?, hn.scene]
    exact hleft
  case slotSame =>
    intro s w p m h hv
    have hsame : m.enableSlot p.c (p.s.bank 0x4110) (p.v != 0) = m := enableSlot_same (by rw [hv]; cases m.objB 0x4110 1 (p.s.bank 0x4110) <;> rfl) p.c
    exact h.runs_act (by decide) (h.run_slotEnable.trans (by rw [hsame])) fun n hn => ⟨hn, rfl⟩
  case refill =>
    intro s hempty hpower hdue
    obtain ⟨hat, hmeters, hod⟩ := meterRefill_refills (c := s.ctx) hempty hpower hdue
    exact runs_of_lift (f := meterRefill) ⟨hat, hmeters, hod, rfl⟩
  case refillEarly =>
    intro s h
    refine runs_of_lift (f := meterRefill) ?_
    rw [meterRefill_early h]
  case queued =>
    intro s x hp hfitted hpower hports hqueues howned hreach hstream hup hnever hfree hsending
    exact ⟨_, liftE_next (txPosted x) s, txPosted_queued hp hfitted hpower howned hports hqueues hreach hup hnever hstream hfree hsending⟩
  case back =>
    intro s x hp hfitted hpower hports hqueues howned hback
    exact ⟨_, liftE_next (txPosted x) s, txPosted_back hp hfitted hpower howned hports hback⟩
  case tooLong =>
    intro s x hp hfitted hpower howned hreach hup hnever hroom
    exact ⟨_, liftE_next (txPosted x) s, txPosted_tooLong hp hfitted hpower howned hreach hup hnever hroom⟩
  case postSkips =>
    intro s x h
    exact runs_of_eff (f := txPosted x) (txPosted_skips h) rfl
  case held =>
    intro s x hp hfitted hpower hports hqueues howned hreach hup hnever hclass hfull
    exact ⟨_, liftE_next (txPosted x) s, txPosted_held hp hfitted hpower howned hports hreach hup hnever hclass hfull⟩
  case buffer =>
    intro s q b hp hfitted hpower hports hroom
    have heq := rxPosted_taken (c := s.ctx) (b := b) hp hfitted hpower hroom
    refine ⟨_, liftE_next (rxPosted q b) s, ?_⟩
    rw [heq]
    have hport : (s.m.onPort q fun x => { x with rxBuffers := x.rxBuffers ++ [b], rxProducer := (x.rxProducer + 1) % 512 }).port q =
        { s.m.port q with rxBuffers := (s.m.port q).rxBuffers ++ [b], rxProducer := ((s.m.port q).rxProducer + 1) % 512 } :=
      port_onPort (by omega)
    generalize s.m.onPort q (fun x => { x with rxBuffers := x.rxBuffers ++ [b], rxProducer := (x.rxProducer + 1) % 512 }) = n at *
    refine ⟨?_, ?_, ?_⟩
    · show ((n.storeAll _).m.port q).rxBuffers = _
      rw [Mach.port, storeAll_net, ← Mach.port, hport]
    · show ((n.storeAll _).m.port q).rxProducer = _
      rw [Mach.port, storeAll_net, ← Mach.port, hport]
    · show memApply s.mem ([_].flatMap writesOf) = _
      rw [List.flatMap_singleton]
  case bufferSkips =>
    intro s q b h
    exact runs_of_eff (f := rxPosted q b) (rxPosted_skips h) rfl
  case sent =>
    intro s q v n f x hp hports hstream hring hsending hempty hroom
    exact ⟨_, liftE_next (sentFrame q v n) s, transmitted_last hp hports hstream hring hsending hempty hroom⟩
  case sentNone =>
    intro s q v n hnone
    refine runs_of_eff (f := sentFrame q v n) ?_ rfl
    rw [sentFrame, Mach.transmitted, hnone]
  case starts =>
    intro s q k f l hp hstream hfree hup hheld hfound hhead
    obtain ⟨hsending, hqueue, hod⟩ := sendHead_port (c := s.ctx) hp hheld hhead
    refine runs_of_lift (f := gateEntryEnd q) ?_
    rw [gateEntryEnd, startNext_sends hstream hfree hup hfound hhead]
    exact ⟨hsending, hqueue, hod, rfl⟩
  case startsNone =>
    intro s q hstream hbusy
    refine runs_of_lift (f := gateEntryEnd q) ?_
    rw [gateEntryEnd, startNext_busy hstream hbusy]
  case applies =>
    intro s q w p m h hq hports hcount hbytes hentries hlow hhigh
    obtain ⟨n, heq, hstate, hwaits, hlist⟩ := applyGates_waits hports hcount hbytes hentries hlow hhigh
    rw [Runs, exec_gateListApply hq]
    refine h.runs_act (by omega) ((h.run_gateListApply hq).trans (by rw [heq]; rfl)) fun k hk => ⟨(hk.objN_eq ..).trans hstate, ?_, ?_, rfl⟩
    · show (k.port q).switch_.map Prod.snd = _
      rw [Mach.port, hk.net]
      exact hwaits
    · show (k.port q).list = _
      rw [Mach.port, hk.net]
      exact hlist
  case short =>
    intro s q w p m h hq hshort
    rw [Runs, exec_gateListApply hq]
    exact h.runs_unchanged (.inl (by omega)) ((h.run_gateListApply hq).trans (by rw [applyGates_short hshort]; rfl))
  case switches =>
    intro s q x g hq hports hwaits hmode hdue
    exact ⟨_, liftE_next (gateListSwitch q) s, gateListSwitch_switches hq hports hwaits hmode hdue⟩
  case switchNone =>
    intro s q hnone
    refine runs_of_eff (f := gateListSwitch q) ?_ rfl
    rw [gateListSwitch, hnone]
  case linkUp =>
    intro s q hq hfitted hdown hpower hsettled
    obtain ⟨n, heq, hup, hnewest⟩ := linkComesUp_shown (c := s.ctx) hq hfitted hdown hpower hsettled
    exact runs_of_eff (f := linkComesUp q) heq ⟨hup, hnewest, rfl⟩
  case linkDown =>
    intro s q hq hports hup hsettled
    exact ⟨_, liftE_next (linkGoesDown q) s, linkGoesDown_shown hq hup hsettled (by omega) s.ctx⟩
  case linkDownSkips =>
    intro s q h
    exact runs_of_eff (f := linkGoesDown q) (if_pos (by simpa using h)) rfl
  case inserted =>
    intro s q k x hq hfitted hsettled
    obtain ⟨n, heq, hshown, hstate⟩ := qsfpComes_shown (c := s.ctx) (k := k) (x := x) hq hfitted hsettled
    exact runs_of_eff (f := qsfpComes q k x) heq ⟨hshown, hstate, rfl⟩
  case removed =>
    intro s q hq hfitted hthere hsettled
    exact ⟨_, liftE_next (qsfpGoes q) s, qsfpGoes_shown hq hfitted hthere hsettled⟩

end Sys2Proof.Machine
